-- ==== Sys2Proof/Word.lean ====
section
/-!
DEFINITION. The word types of the model and the plainest arithmetic on them: little-endian packing of bytes into
numbers (R8) and bit ranges (R7).
-/

namespace Sys2Proof

/-- A byte of memory. -/
abbrev Byte := BitVec 8

/-- A 32-bit register or memory word (R8). -/
abbrev W32 := BitVec 32

/-- A 64-bit word. -/
abbrev W64 := BitVec 64

/-- A cell instruction word (R64). -/
abbrev W128 := BitVec 128

/-- Bits `[lo + n - 1 : lo]` of a number (R7: bit 0 is the least significant). -/
def bitsAt (w lo n : Nat) : Nat := (w / 2 ^ lo) % 2 ^ n

/-- One bit of a number. -/
def bitAt (w i : Nat) : Bool := w.testBit i

/-- Replaces bits `[lo + n - 1 : lo]` of `w` by the low `n` bits of `v`. -/
def setBits (w lo n v : Nat) : Nat :=
  w - (bitsAt w lo n) * 2 ^ lo + (v % 2 ^ n) * 2 ^ lo

/-- The `n`-bit two's-complement value of the low `n` bits of `w`. -/
def signedOf (n w : Nat) : Int :=
  if w % 2 ^ n < 2 ^ (n - 1) then (w % 2 ^ n : Nat) else (w % 2 ^ n : Nat) - (2 ^ n : Nat)

/-- The number that a list of bytes spells, first byte least significant (R8). -/
def leNat : List Byte → Nat
  | [] => 0
  | b :: bs => b.toNat + 256 * leNat bs

/-- The `n` bytes that spell `v`, first byte least significant (R8). -/
def leBytes : Nat → Nat → List Byte
  | 0, _ => []
  | n + 1, v => BitVec.ofNat 8 v :: leBytes n (v / 256)

/-- The number a list of bytes spells, first byte most significant (Afith headers, R8). -/
def beNat (bs : List Byte) : Nat := leNat bs.reverse

/-- `n` bytes that spell `v`, first byte most significant (R8). -/
def beBytes (n v : Nat) : List Byte := (leBytes n v).reverse

/-- Ceiling division; zero divisors give zero. -/
def ceilDiv (a b : Nat) : Nat := (a + (b - 1)) / b

end Sys2Proof
end

