-- ==== Sys2Proof/Machine/Numeric.lean ====
section
/-!
DEFINITION. Number formats and exact arithmetic (R35 to R53): exact values, decoding of codes, the one rounding (to nearest,
ties to even, R43) into every format with saturation (R44), MX blocks (R38 to R41) and WX32 (R47 to R49).
-/

namespace Sys2Proof.Machine

/-- Numeric flags in the bit order of CEL_NUM_STATUS (R53). -/
abbrev NumFlags := BitVec 8

def NumFlags.scaleNan : NumFlags := 0x80
def NumFlags.invalid : NumFlags := 0x40
def NumFlags.nanIn : NumFlags := 0x20
def NumFlags.under : NumFlags := 0x10
def NumFlags.rangeAcc : NumFlags := 0x08
def NumFlags.rangeExp : NumFlags := 0x04
def NumFlags.rangeCvt : NumFlags := 0x02
def NumFlags.intSat : NumFlags := 0x01

/-- Whether any flag of `m` is set. -/
def NumFlags.has (f m : NumFlags) : Bool := f &&& m != 0

/-- An exact value: NaN, an infinity, or a signed fraction num / den with den positive (a zero carries its sign, R36). -/
inductive Val where
  | nan
  | inf (neg : Bool)
  | fin (neg : Bool) (num den : Nat)
  deriving DecidableEq, Repr

/-- The formats of R35 and the cell accumulator format of R52. -/
inductive Fmt where
  | e4m3 | e5m2 | e3m2 | e2m3 | e2m1 | bf16 | fp16 | fp32 | int8 | wx32 | acc
  deriving DecidableEq, Repr

/-- Fraction bits (R35, R47, R52). -/
def Fmt.fracBits : Fmt → Nat
  | .e4m3 => 3 | .e5m2 => 2 | .e3m2 => 2 | .e2m3 => 3 | .e2m1 => 1 | .bf16 => 7 | .fp16 => 10 | .fp32 => 23
  | .int8 => 0 | .wx32 => 21 | .acc => 48

/-- Exponent bits. -/
def Fmt.expBits : Fmt → Nat
  | .e4m3 => 4 | .e5m2 => 5 | .e3m2 => 3 | .e2m3 => 2 | .e2m1 => 2 | .bf16 => 8 | .fp16 => 5 | .fp32 => 8
  | .int8 => 7 | .wx32 => 10 | .acc => 10

/-- Exponent bias. -/
def Fmt.bias : Fmt → Nat
  | .e4m3 => 7 | .e5m2 => 15 | .e3m2 => 3 | .e2m3 => 1 | .e2m1 => 1 | .bf16 => 127 | .fp16 => 15 | .fp32 => 127
  | .int8 => 0 | .wx32 => 511 | .acc => 511

/-- Width of a code in bits. -/
def Fmt.bits (f : Fmt) : Nat := 1 + f.expBits + f.fracBits

/-- Whether the exponent field of all ones is kept for infinity and NaN. -/
def Fmt.ieee : Fmt → Bool
  | .e5m2 | .bf16 | .fp16 | .fp32 | .wx32 | .acc => true
  | .e4m3 | .e3m2 | .e2m3 | .e2m1 | .int8 => false

/-- Code of the largest finite magnitude (R35). -/
def Fmt.maxCode : Fmt → Nat
  | .e4m3 => 0x7E
  | .e5m2 => 0x7B
  | .e3m2 => 0x1F
  | .e2m3 => 0x1F
  | .e2m1 => 0x7
  | .int8 => 127
  | f => (2 ^ f.expBits - 1) * 2 ^ f.fracBits - 1

/-- Code of plus infinity, in the formats that have one. -/
def Fmt.infCode (f : Fmt) : Nat := (2 ^ f.expBits - 1) * 2 ^ f.fracBits

/-- Canonical NaN (R37). -/
def Fmt.nanCode : Fmt → Nat
  | .e4m3 => 0x7F
  | .e5m2 => 0x7F
  | .int8 => 0
  | f => f.infCode + 2 ^ (f.fracBits - 1)

/-- Sign bit of a code. -/
def Fmt.signBit (f : Fmt) : Nat := 2 ^ (f.expBits + f.fracBits)

/-- Exponent of the largest finite value of an MX element (R41). -/
def Fmt.emax : Fmt → Nat
  | .e4m3 => 8 | .e5m2 => 15 | .e3m2 => 4 | .e2m3 => 2 | .e2m1 => 2 | _ => 0

/-- FP6 and FP4 elements exist only with a scale array (R40). -/
def Fmt.needsScale : Fmt → Bool
  | .e3m2 | .e2m3 | .e2m1 => true
  | _ => false

/-- Formats that may carry a block scale (R38, R40). -/
def Fmt.mx : Fmt → Bool
  | .e4m3 | .e5m2 | .e3m2 | .e2m3 | .e2m1 => true
  | _ => false

namespace Val

def zero : Val := .fin false 0 1

def one : Val := .fin false 1 1

def ofInt (z : Int) : Val := .fin (z < 0) z.natAbs 1

def isNan : Val → Bool
  | .nan => true
  | _ => false

def isInf : Val → Bool
  | .inf _ => true
  | _ => false

/-- Whether the value is a zero of either sign. -/
def isZero : Val → Bool
  | .fin _ n _ => n == 0
  | _ => false

/-- Whether the value is finite and not zero. -/
def isNonzero : Val → Bool
  | .fin _ n _ => n != 0
  | _ => false

def sign : Val → Bool
  | .nan => false
  | .inf s => s
  | .fin s _ _ => s

def negate : Val → Val
  | .nan => .nan
  | .inf s => .inf (!s)
  | .fin s n d => .fin (!s) n d

/-- The signed numerator. -/
def inum : Val → Int
  | .fin s n _ => if s then -(n : Int) else n
  | _ => 0

def den : Val → Nat
  | .fin _ _ d => d
  | _ => 1

/-- Multiplies a finite value by 2^k exactly. -/
def scale2 (v : Val) (k : Int) : Val :=
  match v with
  | .fin s n d => if 0 ≤ k then .fin s (n * 2 ^ k.toNat) d else .fin s n (d * 2 ^ (-k).toNat)
  | w => w

/-- Exact sum with the zero rules of R36; opposite infinities give a NaN and INVALID (R53). -/
def add (a b : Val) : Val × NumFlags :=
  match a, b with
  | .nan, _ => (.nan, NumFlags.nanIn)
  | _, .nan => (.nan, NumFlags.nanIn)
  | .inf s, .inf t => if s = t then (.inf s, 0) else (.nan, NumFlags.invalid)
  | .inf s, .fin _ _ _ => (.inf s, 0)
  | .fin _ _ _, .inf t => (.inf t, 0)
  | .fin s n d, .fin t m e =>
    let z : Int := (if s then -(n : Int) else n) * e + (if t then -(m : Int) else m) * d
    (.fin (if z = 0 then s && t else decide (z < 0)) z.natAbs (d * e), 0)

/-- Exact product; zero times infinity gives a NaN and INVALID. -/
def mul (a b : Val) : Val × NumFlags :=
  match a, b with
  | .nan, _ => (.nan, NumFlags.nanIn)
  | _, .nan => (.nan, NumFlags.nanIn)
  | .inf s, .inf t => (.inf (s != t), 0)
  | .inf s, .fin t m _ => if m = 0 then (.nan, NumFlags.invalid) else (.inf (s != t), 0)
  | .fin s n _, .inf t => if n = 0 then (.nan, NumFlags.invalid) else (.inf (s != t), 0)
  | .fin s n d, .fin t m e => (.fin (s != t) (n * m) (d * e), 0)

/-- Exact a × b + c. -/
def fma (a b c : Val) : Val × NumFlags :=
  let p := mul a b
  let nf := if c.isNan then NumFlags.nanIn else 0
  if p.1.isNan then (.nan, p.2 ||| nf)
  else
    let q := add p.1 c
    (q.1, p.2 ||| q.2)

/-- Exact quotient of finite values with a non-zero divisor; the other cases as IEEE 754 prescribes for an infinity
delivered as an operand (R44); 0 / 0 and infinity / infinity give a NaN and INVALID. -/
def div (a b : Val) : Val × NumFlags :=
  match a, b with
  | .nan, _ => (.nan, NumFlags.nanIn)
  | _, .nan => (.nan, NumFlags.nanIn)
  | .inf _, .inf _ => (.nan, NumFlags.invalid)
  | .inf s, .fin t _ _ => (.inf (s != t), 0)
  | .fin s _ _, .inf t => (.fin (s != t) 0 1, 0)
  | .fin s n d, .fin t m e => if m = 0 then (if n = 0 then (.nan, NumFlags.invalid) else (.inf (s != t), 0))
    else (.fin (s != t) (n * e) (d * m), 0)

/-- a < b for values that are not NaN. -/
def lt (a b : Val) : Bool :=
  match a, b with
  | .nan, _ => false
  | _, .nan => false
  | .inf s, .inf t => s && !t
  | .inf s, .fin _ _ _ => s
  | .fin _ _ _, .inf t => !t
  | .fin s n d, .fin t m e =>
    decide ((if s then -(n : Int) else n) * e < (if t then -(m : Int) else m) * d)

/-- a = b as numbers. -/
def eqv (a b : Val) : Bool := !(lt a b) && !(lt b a) && !a.isNan && !b.isNan

/-- Drops the common power of two of a fraction, which keeps long sums small. -/
def trim : Val → Val
  | .fin s n d =>
    if n = 0 then .fin s 0 1
    else
      let g := Nat.gcd n d
      .fin s (n / g) (d / g)
  | v => v

end Val

/-- Floor of log2 of a positive fraction. -/
def floorLog2 (n d : Nat) : Int :=
  let k : Int := (Nat.log2 n : Int) - (Nat.log2 d : Int)
  let below : Bool := if 0 ≤ k then decide (n < d * 2 ^ k.toNat) else decide (n * 2 ^ (-k).toNat < d)
  if below then k - 1 else k

/-- Nearest integer to a fraction, ties to even (R43). -/
def rne (a b : Nat) : Nat :=
  let q := a / b
  let r := a % b
  if b < 2 * r || (2 * r == b && q % 2 == 1) then q + 1 else q

/-- The magnitude code of a positive fraction in a format, before saturation: subnormals honoured (R36), carries into the
next binade. -/
def magCode (f : Fmt) (n d : Nat) : Nat :=
  let emin : Int := 1 - (f.bias : Int)
  let e := max (floorLog2 n d) emin
  let sh : Int := e - f.fracBits
  let m := if 0 ≤ sh then rne n (d * 2 ^ sh.toNat) else rne (n * 2 ^ (-sh).toNat) d
  (e - emin).toNat * 2 ^ f.fracBits + m

/-- The one rounding of R43 into a floating format, saturating under R44 with the given range flag. -/
def roundTo (f : Fmt) (range : NumFlags) (v : Val) : Nat × NumFlags :=
  match v with
  | .nan => (f.nanCode, 0)
  | .inf s =>
    if f.ieee then ((if s then f.signBit else 0) + f.infCode, 0)
    else ((if s then f.signBit else 0) + f.maxCode, range ||| NumFlags.invalid)
  | .fin s n d =>
    let sg := if s then f.signBit else 0
    if n = 0 then (sg, 0)
    else
      let c := magCode f n d
      if f.maxCode < c then (sg + f.maxCode, range)
      else if c = 0 then (sg, NumFlags.under)
      else (sg + c, 0)

/-- Rounding to INT8 (R45): to an integer, saturating with RANGE_CVT. -/
def roundInt8 (v : Val) : Nat × NumFlags :=
  match v with
  | .nan => (0, NumFlags.invalid)
  | .inf s => (if s then 0x80 else 0x7F, NumFlags.rangeCvt ||| NumFlags.invalid)
  | .fin s n d =>
    if n = 0 then (0, 0)
    else
      let m := rne n d
      if m = 0 then (0, NumFlags.under)
      else if s then (if 128 < m then (0x80, NumFlags.rangeCvt) else ((256 - m) % 256, 0))
      else if 127 < m then (0x7F, NumFlags.rangeCvt)
      else (m, 0)

/-- The conversion of R45: the result and its flags; a NaN operand sets NAN_IN. -/
def convertTo (f : Fmt) (v : Val) : Nat × NumFlags :=
  let nf := if v.isNan then NumFlags.nanIn else 0
  if f = .int8 then
    let r := roundInt8 v
    (r.1, r.2 ||| nf)
  else
    let r := roundTo f NumFlags.rangeCvt v
    (r.1, r.2 ||| nf)

/-- FP32 rounding of an arithmetic result (R43, R44). -/
def rne32 (v : Val) : Nat × NumFlags := roundTo .fp32 NumFlags.rangeAcc v

/-- wx32_round of R49. -/
def wx32Round (v : Val) : Nat × NumFlags := roundTo .wx32 NumFlags.rangeAcc v

/-- Rounding into the cell accumulator format (R52). -/
def accRound (v : Val) : Nat × NumFlags := roundTo .acc NumFlags.rangeAcc v

/-- The exact value of a code (R35, R47, R48, R52). -/
def decodeVal (f : Fmt) (code : Nat) : Val :=
  let c := code % 2 ^ f.bits
  if f = .int8 then Val.ofInt (signedOf 8 c)
  else
    let s := decide (f.signBit ≤ c)
    let m := c % f.signBit
    let ex := m / 2 ^ f.fracBits
    let fr := m % 2 ^ f.fracBits
    if f = .e4m3 && m == 0x7F then .nan
    else if f.ieee && ex == 2 ^ f.expBits - 1 then (if fr == 0 then .inf s else .nan)
    else if ex == 0 then Val.scale2 (.fin s fr 1) (1 - (f.bias : Int) - f.fracBits)
    else Val.scale2 (.fin s (fr + 2 ^ f.fracBits) 1) ((ex : Int) - f.bias - f.fracBits)

/-- wx32_add of R49. -/
def wx32Add (p q : Nat) : Nat × NumFlags :=
  let a := decodeVal .wx32 p
  let b := decodeVal .wx32 q
  let s := Val.add a b
  if s.1.isNan then (Fmt.nanCode .wx32, s.2)
  else if a.isInf then (p % 2 ^ 32, 0)
  else if b.isInf then (q % 2 ^ 32, 0)
  else wx32Round s.1

/-- A sum in the cell accumulator format (R52): codes in that format. -/
def accAdd (p : Nat) (x : Val) : Nat × NumFlags :=
  let s := Val.add (decodeVal .acc p) x
  let r := accRound s.1
  (r.1, s.2 ||| r.2)

/-- One FP32 fused multiply-add, rounded once (R62). -/
def fma32 (a b c : Nat) : Nat × NumFlags :=
  let s := Val.fma (decodeVal .fp32 a) (decodeVal .fp32 b) (decodeVal .fp32 c)
  let r := rne32 s.1
  (r.1, s.2 ||| r.2)

/-- The value of an E8M0 scale byte below 0xFF as an exponent (R38). -/
def scaleExp (x : Byte) : Int := (x.toNat : Int) - 127

/-- One element of an MX block under its scale byte (R38): a scale of 0xFF reads NaN and sets SCALE_NAN. -/
def scaledVal (f : Fmt) (scale : Byte) (code : Nat) : Val × NumFlags :=
  if scale = 0xFF then (.nan, NumFlags.scaleNan) else (Val.scale2 (decodeVal f code) (scaleExp scale), 0)

/-- Bits of an element in memory. -/
def Fmt.elemBits : Fmt → Nat
  | .e2m1 => 4 | .e3m2 => 6 | .e2m3 => 6 | .bf16 => 16 | .fp16 => 16 | .fp32 => 32 | .wx32 => 32
  | .acc => 64 | _ => 8

/-- Bytes that `n` elements of a format occupy, packed as R39 says. -/
def Fmt.bytesOf (f : Fmt) (n : Nat) : Nat := ceilDiv (n * f.elemBits) 8

/-- Element `j` of a packed run of bytes (R39). -/
def elemAt (f : Fmt) (raw j : Nat) : Nat := bitsAt raw (j * f.elemBits) f.elemBits

/-- The packed number of a list of codes (R39). -/
def packElems (f : Fmt) : List Nat → Nat
  | [] => 0
  | c :: cs => c % 2 ^ f.elemBits + 2 ^ f.elemBits * packElems f cs

/-- The larger of two magnitudes, as fractions. -/
def maxMag (a b : Nat × Nat) : Nat × Nat := if a.1 * b.2 < b.1 * a.2 then b else a

/-- The largest finite magnitude of a list of values. -/
def amax (vs : List Val) : Nat × Nat :=
  vs.foldl (fun a v => match v with
    | .fin _ n d => maxMag a (n, d)
    | _ => a) (0, 1)

/-- Rounds one element of an MX block under scale exponent `x`; saturation sets no flag (R41). -/
def mxElem (f : Fmt) (x : Int) (v : Val) : Nat :=
  (roundTo f 0 (Val.scale2 v (-x))).1

/-- MX_BLOCK_PRODUCE (R41): the scale byte, the element codes and the flags. -/
def mxBlock (f : Fmt) (vs : List Val) : Byte × List Nat × NumFlags :=
  if vs.any (fun v => v.isNan || v.isInf) then
    (0xFF, vs.map (fun _ => 0), NumFlags.invalid ||| (if vs.any Val.isNan then NumFlags.nanIn else 0))
  else
    let a := amax vs
    if a.1 = 0 then (0x00, vs.map (fun _ => 0), 0)
    else
      let x0 := floorLog2 a.1 a.2 - f.emax
      let x := max (-127) (min 127 x0)
      let es := vs.map (mxElem f x)
      let zeroed := (vs.zip es).any fun p => p.1.isNonzero && p.2 % f.signBit == 0
      (BitVec.ofInt 8 (x + 127), es,
        (if 127 < x0 then NumFlags.rangeCvt else 0) |||
        (if x0 < -127 && zeroed then NumFlags.under else 0))

/-- An INT8 group sum added to a 32-bit accumulator, saturating (R42). -/
def int32Add (a s : Int) : Int × NumFlags :=
  let r := a + s
  if 2 ^ 31 - 1 < r then (2 ^ 31 - 1, NumFlags.intSat)
  else if r < -(2 ^ 31) then (-(2 ^ 31), NumFlags.intSat)
  else (r, 0)

end Sys2Proof.Machine
end

