-- ==== Sys2Proof/Syntax.lean ====
section
/-!
DEFINITION. The commands the block takes, one constructor per row of the manual's table of operations and events, with the
operands each carries: which unit it concerns, the words it was given, and what the outside world or another party supplied
(measurements, outcomes of accesses, messages).
-/

namespace Sys2Proof.Machine
open Sys2Proof

/-- A cell c (R15). -/
abbrev CellIx := Fin 512
/-- A block b (R15). -/
abbrev BlockIx := Fin 32
/-- A region r, or its retrieval engine (R15). -/
abbrev RegionIx := Fin 4
/-- A plot p (R359). -/
abbrev PlotIx := Fin 8
/-- A fabric link l (R294). -/
abbrev LinkIx := Fin 6
/-- A field port (R339). -/
abbrev PortIx := Fin 2
/-- A stream s (R224). -/
abbrev StreamIx := Fin 512

/-- What the error correction of an access found (R257 to R259); an uncorrectable error at an offset from the start of the
memory, or of the bytes, that the command reads. -/
inductive Ecc where
  | clean | corrected
  | uncorrectable (off : Nat)
  deriving DecidableEq, Repr

/-- A tensor in the scratchpad (R39, R40): format, element array, scale array unless unscaled. -/
structure TensorRef where
  fmt : Fmt
  elems : Nat
  scales : Option Nat
  deriving DecidableEq, Repr

/-- Operands of MMA, whose encoding the manual does not give (notes/assumptions/13): A of rows × k, B of cols × k, the tile's
first slot, a scratchpad copy of the tile, and whether the instruction releases the tile. -/
structure MmaOps where
  a : TensorRef
  b : TensorRef
  rows : Nat
  cols : Nat
  k : Nat
  slot : Nat
  dst : Option Nat
  release : Bool
  deriving DecidableEq, Repr

/-- A VOP source: an FP32 vector in the scratchpad, or the elements of the matrix tile at a slot, row by row (R62). -/
inductive VecSrc where
  | spad (off : Nat)
  | tile (slot : Nat)
  deriving DecidableEq, Repr

/-- Operands of VOP (notes/assumptions/13): n elements, x × y + z or x × y, into the scratchpad; a tile it releases. -/
structure VopOps where
  n : Nat
  x : VecSrc
  y : VecSrc
  z : Option VecSrc
  dst : Nat
  release : Option Nat
  deriving DecidableEq, Repr

/-- Operands of CVT (notes/assumptions/13). -/
structure CvtOps where
  n : Nat
  src : TensorRef
  dst : TensorRef
  deriving DecidableEq, Repr

/-- What strikes the unit at a vector (R96 to R98): nothing; an error in a word of the table RAM, which can be corrected or not and is met
by the vectors that read the word; a fault of one lane. -/
inductive TableOutcome where
  | clean
  | corrected (word : Nat)
  | uncorrectable (word : Nat)
  | laneFault (lane : Nat)
  deriving DecidableEq, Repr

/-- Query rows of one head that a cell computes (R73): the head, how many rows, their dimension. -/
structure HeadRows where
  head : Nat
  rows : Nat
  dim : Nat
  deriving DecidableEq, Repr

/-- A range of key positions that a cell holds for a head (R73). -/
structure KeyRange where
  head : Nat
  first : Nat
  last : Nat
  deriving DecidableEq, Repr

/-- A head map (R73): the cell, the layer, its consecutive key-value heads, the query rows that it computes and the key ranges of each
head. -/
structure HeadMap where
  cell : Nat
  layer : Nat
  first : Nat
  heads : Nat
  rows : List HeadRows
  keys : List KeyRange
  deriving DecidableEq, Repr

/-- Accumulator slots that the query rows of a head map take (R73): one for each row of dimension up to 128, else two. -/
def HeadMap.slots (h : HeadMap) : Nat := (h.rows.map fun r => if r.dim ≤ 128 then r.rows else 2 * r.rows).sum

/-- What the service pair reads at TASKDESC (R282): each cell's program, the head maps, the stream descriptors' addresses, the place in that list of the stream to which walks post, the
sequence group descriptor's address and the chains the task names. The layout of the task body is not in the manual
(notes/assumptions/12). -/
structure TaskBody where
  programs : List (Nat × List W128)
  heads : List HeadMap
  streams : List Nat
  walk : Option Nat
  group : Option Nat
  deriving DecidableEq, Repr

/-- One run of the load and test of a special-function unit (R99): the CRC-32C formed over the copied images, whether it equals
the reference, whether the known-answer test's CRC is the expected one. -/
structure SfuTest where
  crc : Nat
  crcOk : Bool
  katOk : Bool
  deriving DecidableEq, Repr

/-- The agents of the register arbiter (R425): the two control-core pairs in secure mode, a pair in
another mode, the physical function, and the virtual function of
plot p. -/
inductive Agent where
  | mgmt | service | coreOther | pf0
  | vf (p : Fin 8)
  deriving DecidableEq, Repr

/-- A segment j of the cold-frame window (R256). -/
abbrev SegIx := Fin 2048
/-- A scrubber (R261): 0 to 511 scratchpads, 512 to 543 block memories, 544 to 547 bonded DRAM, 548 to 551 stacks. -/
abbrev ScrubIx := Fin 552

/-- What a MOVE met beside its data (R246, R257 to R259): nothing, corrected errors of its reads and of the read-modify-writes at its
destination, an uncorrectable error at an offset of its
source, one at an offset of its destination met by a read-modify-write, or a host read completed with an error. -/
inductive MoveEvent where
  | clean
  | corrected (reads writes : Nat)
  | uncorrectable (off : Nat)
  | rmw (off : Nat)
  | hostError
  deriving DecidableEq, Repr

/-- What a scrub pass found at a local address (R263): whether it cannot be corrected, and whether a write to the line was accepted between
the scrub's read and its write-back. -/
structure ScrubFind where
  addr : Nat
  bad : Bool
  rewritten : Bool
  deriving DecidableEq, Repr

/-- A received synchronisation flit (R274): request or reply, FLAGS, SEQ, ROOT, DEPTH, and T1, T2 and T3 with their phases, in
1/64 tick. -/
structure SyncFlit where
  reply : Bool
  flags : Nat
  seqNo : Nat
  root : Nat
  depth : Nat
  t1 : Nat
  t2 : Nat
  t3 : Nat
  deriving DecidableEq, Repr

/-- A pool tier (R172): 0 bonded DRAM, 1 stacks, 2 the hosted pool this chip offers, 3 host memory. -/
abbrev TierIx := Fin 4

/-- The sender of a hosting message (R168): its chip, its plot, the message's tag and the generation tag it carried. -/
structure HostMsg where
  chip : Nat
  plot : Nat
  tag : Nat
  gen : Nat
  deriving DecidableEq, Repr

/-- What a hosting chip answered (R168): the handle of an open frame, SEALED, a frame's ALLOCATED, SEALED and EPOCH, or a refusal. -/
inductive HostReply where
  | handle (h : Nat)
  | sealed
  | frame (allocated isSealed : Bool) (epoch : Nat)
  | refused
  deriving DecidableEq, Repr

/-- A row of the task's row table (R110) that a walk reads: its position and its GLOBAL flag. -/
structure WalkRow where
  pos : Nat
  global : Bool
  deriving DecidableEq, Repr

/-- One entry of a recall list (R218): layer, group, row tile, first position, the holding member and the rows that chose the page. -/
structure RecallItem where
  layer : Nat
  group : Nat
  tile : Nat
  first : Nat
  member : Nat
  mask : Nat
  deriving DecidableEq, Repr

/-- What a walk is asked for (R137): layers, groups, the deadline of its task, CUT_OK and TREE. -/
structure WalkArgs where
  deadline : Nat
  layerFirst : Nat
  layerCount : Nat
  groups : Nat
  cutOk : Bool
  tree : Bool
  deriving DecidableEq, Repr

/-- A message received over the fabric (R302): its header fields, whether a hall link brought it, whether its TYPE or a reserved byte is
not as R302 requires, and its data; the fields a type does not use are zero. -/
structure InMsg where
  src : Nat
  dest : Nat
  vc : Nat
  plot : Nat
  epoch : Nat
  gen : Nat
  tag : Nat
  op : Nat
  addr : Nat
  reply : Nat
  len : Nat
  stale : Bool
  phase : Bool
  hall : Bool
  malformed : Bool
  data : List Byte
  deriving DecidableEq, Repr

/-- A trigger counter (R313). -/
abbrev CounterIx := Fin 1024
/-- A chain (R313). -/
abbrev ChainIx := Fin 256
/-- A collective group (R321). -/
abbrev GroupIx := Fin 256

/-- A chip discovery record (R307). -/
structure Partner where
  notReady : Bool
  ack : Bool
  coord : Bool
  axis : Nat
  port : Nat
  serial : Nat
  chip : Nat
  config : Nat
  major : Nat
  minor : Nat
  deriving DecidableEq, Repr

/-- What a link-control flit carried (R299, R300, R306): a cumulative acknowledgement (the next SEQ expected) with the cumulative credit
counts by class, a NAK with the SEQ expected, a change of width with the sender's failed lanes, or a flit that failed its CRC. -/
inductive LinkCtl where
  | ack (next : Nat) (counts : List Nat)
  | nak (expected : Nat)
  | width (failed : Nat)
  | bad
  deriving DecidableEq, Repr

/-- An index record (R197). -/
abbrev IndexIx := Fin 4096

/-- What an engine met in a chunk (R221): nothing, distances that its two adder trees formed differently, a parity error, an
uncorrectable error at an offset of the chunk's codes. -/
inductive ChunkEvent where
  | clean | adder | parity
  | uncorrectable (off : Nat)
  deriving DecidableEq, Repr

/-- A peer entry (R345). -/
abbrev PeerIx := Fin 256

/-- A DATA datagram (R341, R343, R344): CONN, whether its source address and UDP port are that entry's, EPOCH, PSN, LAST, whether the
network marked it CE, the TYPE of its message header, and the message. -/
structure DataDgram where
  conn : PeerIx
  known : Bool
  epoch : Nat
  psn : Nat
  last : Bool
  ce : Bool
  typ : Nat
  m : InMsg
  deriving DecidableEq, Repr

/-- An ACK datagram (R343): CONN, whether its source is that entry's, EPOCH, CUMACK, HIGHEST, SACK, ECE. -/
structure AckDgram where
  conn : PeerIx
  known : Bool
  epoch : Nat
  cum : Nat
  highest : Nat
  sack : Nat
  ece : Bool
  deriving DecidableEq, Repr

/-- A Sync with its Follow_Up (R354, R355): domain, grandmaster identity, Sync interval in ticks, and the sundial's offset from PTP time
in 1/64 tick, formed by the delay request-response mechanism. -/
structure PtpSync where
  domain : Nat
  master : Nat
  interval : Nat
  offset : Int
  deriving DecidableEq, Repr

/-- The load and test of one block's special-function unit (R99, R100): its first run, and its second where the first fails. -/
structure SfuRun where
  block : Nat
  t1 : SfuTest
  t2 : SfuTest
  deriving DecidableEq, Repr

/-- A collective group entry of the seedbed (R321, R380): its number, owning plot, member list, SELF, site index and site list. -/
structure SeedGroup where
  number : Nat
  plot : Nat
  members : List Nat
  self : Nat
  site : Nat
  sites : List Nat
  deriving DecidableEq, Repr

/-- Field settings of one port (R341, R380): MODE, IPv6 address, MAC address, UDP port. -/
structure SeedPort where
  mode : Nat
  addr6 : Nat
  mac : Nat
  udp : Nat
  deriving DecidableEq, Repr

/-- A seedbed as the device reads it (R378 to R380): the two copies of the minimal section, the bytes of the main section, and what its
POLICY, LINKMAP, GROUPS and FIELD sections say, whose byte layouts the manual does not give (notes/assumptions/35). -/
structure SeedbedImage where
  copy0 : List Byte
  copy1 : List Byte
  main : List Byte
  guard : Nat
  droop : Nat
  reserve : Nat
  caps : List Nat
  root : Nat
  rack : Nat
  ptp : Bool
  sync : List Nat
  hall : List Nat
  groups : List SeedGroup
  ports : List SeedPort
  ptpPort : Nat
  ptpDomain : Nat
  deriving DecidableEq, Repr

/-- What a reset meets on its way (R405): loads and tests of special-function units, the retrieval engines whose known-answer test passes
(bit r), the retained copies of the image whose digest matches (bit r), cells whose harvest sample has an uncorrectable word. -/
structure ResetRun where
  loads : List SfuRun
  kat : Nat
  copies : Nat
  bad : List Nat
  deriving DecidableEq, Repr

/-- What went out of lock (R29, R454). -/
inductive PllKind where
  | region (r : RegionIx)
  | hub
  | mainRef
  deriving DecidableEq, Repr

/-- Measured powers in W (R459, R466): of the region now, over 100 µs and over 1 ms; of the chip now, over 100 µs and over 1 ms. -/
structure PowerSample where
  now : Nat
  avg100 : Nat
  avg1000 : Nat
  chip : Nat
  chip100 : Nat
  chip1000 : Nat
  deriving DecidableEq, Repr

/-- A change of the configuration store by other means than the write path (R439): the word and the bits that flip. -/
structure WordFlip where
  word : Nat
  bits : Nat
  deriving DecidableEq, Repr

end Sys2Proof.Machine

namespace Sys2Proof
open Sys2Proof.Machine

/-- The commands of the block: one constructor per row of the table of operations and events. -/
inductive Instr where
  /-- MMA (R60). Matrix instruction forms an output tile of up to 64 by 64, accumulating group sums into an accumulator tile. -/
  | mma (c : CellIx) (w : W128) (o : MmaOps) (e : Ecc)
  /-- ATS (R109). Attention score instruction forms scaled FP32 scores, applies the visibility mask and writes the sentinel at masked keys. -/
  | ats (c : CellIx) (w : W128) (e : Ecc)
  /-- MASK_TILE_FETCH (R112). The block fetches a 512-byte mask bitmap tile from block memory into its mask buffer so that the waiting ATS can issue. -/
  | maskTileFetch (c : CellIx) (e : Ecc)
  /-- ATV (R116). Attention apply instruction adds term-times-value products, and term sums, into the row accumulator slots. -/
  | atv (c : CellIx) (w : W128) (e : Ecc)
  /-- VOP (R62). Vector instruction runs FP32 fused multiply-adds on the 64 vector lanes. -/
  | vop (c : CellIx) (w : W128) (o : VopOps) (e : Ecc)
  /-- CVT (R45). Vector conversion between formats, including the production of MX blocks. -/
  | cvt (c : CellIx) (w : W128) (o : CvtOps) (e : Ecc)
  /-- ROWOUT_PARTIAL (R118). Writes the attention rows as WX32 partials through one wx32_round per word and releases their slots. -/
  | rowoutPartial (c : CellIx) (w : W128) (e : Ecc)
  /-- ROWOUT_FINAL_SLOTS (R121). Divides each row held in the slots into the output format and writes its row status word. -/
  | rowoutFinalSlots (c : CellIx) (w : W128) (e : Ecc)
  /-- ROWOUT_FINAL_SCRATCHPAD (R121). Divides the merged WX32 rows read from the scratchpad, taking the status from the INFLAGS word. -/
  | rowoutFinalScratchpad (c : CellIx) (w : W128) (e : Ecc)
  /-- ROWOUT_MERGE (R119). Writes the cell's rows to its slice of the block merge buffer; a non-owner then releases its slots. -/
  | rowoutMerge (c : CellIx) (w : W128) (e : Ecc)
  /-- BLOCK_MERGE (R119). Once every slice is present, the row merger adds the slices in rank order into the owner's slots. -/
  | blockMerge (c : CellIx) (e : Ecc)
  /-- SFN (R85). Special-function instruction evaluates a built-in or user function over its vectors in three stages. -/
  | sfn (c : CellIx) (w : W128) (e : Ecc)
  /-- SQACC (R89). Accumulates the sums of squares of its vectors into word 0 of an accumulator slot. -/
  | sqacc (c : CellIx) (w : W128) (e : Ecc)
  /-- RMSR (R90). Forms the reciprocal RMS from a slot sum and a parameter record and leaves it in the norm scalar. -/
  | rmsr (c : CellIx) (w : W128) (e : Ecc)
  /-- MUL3 (R91). Multiplies each argument by the norm scalar and a weight, with one rounding. -/
  | mul3 (c : CellIx) (w : W128) (e : Ecc)
  /-- SFN_VECTOR_GRANT (R18). The block special-function unit grants one 128-result vector to a requesting cell by weighted round-robin. -/
  | sfnVectorGrant (b : BlockIx) (t : TableOutcome)
  /-- SFN_RESULT (R93). A vector's results reach the requesting cell a fixed latency after its grant, and the lane masks are folded. -/
  | sfnResult (c : CellIx)
  /-- CHECK_LANE_MISMATCH (R98). A check-lane recomputation disagrees with a result lane, with the effects of an uncorrectable table error. -/
  | checkLaneMismatch (c : CellIx) (lane : Nat)
  /-- WAIT (R234). Waits until a semaphore count reaches COUNT, then subtracts it. -/
  | waitSem (c : CellIx) (w : W128)
  /-- POST (R234). Adds COUNT to a semaphore count once earlier scratchpad accesses are done, faulting above DEPTH. -/
  | postSem (c : CellIx) (w : W128)
  /-- LOOP (R64). Cell control instruction that repeats a block of the program. -/
  | cellLoop (c : CellIx) (w : W128) (count : Nat) (target : Nat)
  /-- JUMP (R64). Cell control instruction that transfers control within the program. -/
  | cellJump (c : CellIx) (w : W128) (target : Nat)
  /-- END (R64). Cell control instruction that ends the task's program on the cell. -/
  | cellEnd (c : CellIx) (w : W128)
  /-- RESIDUE_CHECK_REPORT (R70). The residue checker reports the check of a matrix or vector instruction no later than 32 cycles after its last cycle. -/
  | residueCheckReport (c : CellIx) (lanes : Bool) (ok : Bool)
  /-- DRAIN_ACK (R75). The collective engine acknowledges the last byte of a fused drain and the named trigger counter steps. -/
  | drainAck (c : CellIx)
  /-- TRANSFER_TILE (R65). A transfer tile ends and the scratchpad passes to issue or to the next waiting port. -/
  | transferTile (c : CellIx)
  /-- QUANTUM_MET (R66). The issue side has held the scratchpad for QUANTUM cycles with a transfer waiting and hands it over. -/
  | quantumMet (c : CellIx)
  /-- CHAIN_TILE (R238). A weight-chain tile starts once every cell of the chain has granted and one EMPTY is taken on every link. -/
  | chainTile (st : StreamIx)
  /-- SFU_LOAD_TEST (R99). Loads, checks and tests a block's special-function unit from the golden copy and sets its mode. -/
  | sfuLoadTest (b : BlockIx) (t1 : SfuTest) (t2 : SfuTest)
  /-- SFU_MODE_TEST (R101). Host write of SFU_MODE TEST starts the load and test if no cell of the block runs a task. -/
  | sfuModeTest (a : Agent) (b : BlockIx)
  /-- SFU_MODE_COMPAT (R104). A write of SFU_MODE COMPAT changes the mode only while no task runs in the block. -/
  | sfuModeCompat (a : Agent) (b : BlockIx) (v : Bool)
  /-- SFU_LOAD (R368). Command that loads a user function table into every block of the plot. -/
  | sfuLoad (p : PlotIx)
  /-- SFU_UNLOAD (R368). Command that clears a user function table in every block of the plot. -/
  | sfuUnload (p : PlotIx)
  /-- TRAY_FILL (R132). Seed tray command that takes NODES, PARENT and TOKEN from a fill record and enters FILLING. -/
  | trayFill (p : PlotIx)
  /-- TRAY_ACCEPT (R133). Seed tray command that checks and records the accepted path and enters VERIFIED. -/
  | trayAccept (p : PlotIx)
  /-- TRAY_DISCARD (R132). Seed tray command that returns the tray to EMPTY. -/
  | trayDiscard (p : PlotIx)
  /-- TRAY_COMMIT (R132). Seed tray command that enters COMMITTING and has the Dibber append the path's nodes. -/
  | trayCommit (p : PlotIx)
  /-- DIBBER_DONE (R157). After the commit point the tray advances BASEPOS and STEP and returns to EMPTY. -/
  | dibberDone (p : PlotIx) (n : Nat) (tail : Option HostMsg)
  /-- DIBBER_ROLLED_BACK (R159). An interrupted commit rolls back, leaving BOUND unchanged and the tray EMPTY. -/
  | dibberRolledBack (p : PlotIx) (n : Nat) (tail : Option (HostMsg × Nat))
  /-- KVM_DOORBELL (R135). A plot writes its command ring tail and the service pair takes commands in ring order. -/
  | kvmDoorbell (a : Agent) (p : PlotIx) (v : W32)
  /-- SEQ_CREATE (R140). Creates a sequence slice with its directory and record. -/
  | seqCreate (p : PlotIx)
  /-- SEQ_DESTROY (R137). Unmaps a sequence's pages, tombstones its live index and releases its tray and global area. -/
  | seqDestroy (p : PlotIx)
  /-- APPEND (R156). Dibber append of committed keys and values from a staging buffer. -/
  | append (p : PlotIx)
  /-- GLOBAL_ADD (R154). Adds a committed position to the sequence's global list and copies its keys and values. -/
  | globalAdd (p : PlotIx)
  /-- WALK (R152). Emits page descriptors for a task's rows, updating each page's HOLD. -/
  | walk (p : PlotIx) (rows : Nat)
  /-- PEER_WALK (R153). A walk requested by a peer through the fabric for a task on that peer. -/
  | peerWalk (m : HostMsg) (p : PlotIx) (n : Nat) (a : WalkArgs) (rows : (List WalkRow)) (recalls : (List RecallItem))
  /-- PREFETCH (R167). Moves pages covering a range back to their home tier. -/
  | prefetch (p : PlotIx)
  /-- PIN (R137). Sets or clears PINNED on the pages covering a range. -/
  | pin (p : PlotIx)
  /-- COPY_PREFIX (R147). Copies a source sequence's first positions into new frames of this sequence. -/
  | copyPrefix (p : PlotIx)
  /-- BUF_ALLOC (R146). Allocates a buffer and returns its handle. -/
  | bufAlloc (p : PlotIx)
  /-- BUF_FREE (R148). Frees a buffer after checking its handle. -/
  | bufFree (p : PlotIx)
  /-- MIGRATE (R169). Moves up to 64 pages as one batch under journal entries. -/
  | migrate (p : PlotIx)
  /-- BUCKET (R155). Sorts a list of sequences into length buckets. -/
  | bucket (p : PlotIx)
  /-- COMMIT_POINT (R157). When every byte of a commit is acknowledged, the single write of BOUND makes the new positions visible. -/
  | commitPoint (p : PlotIx) (n : Nat)
  /-- SIGNATURE_APPEND (R217). When signing of a filled page ends, its signature is appended to the live index. -/
  | signatureAppend (c : CellIx)
  /-- PRESSURE_HANDLING (R162). Relieves a pool below its low watermark by evicting, cutting and spilling candidate pages. -/
  | pressureHandling (p : PlotIx) (t : TierIx)
  /-- CONVERT_TO_CUTTING (R165). A conversion task replaces a page by its low-rank latent under the journal. -/
  | convertToCutting (id : Nat) (c : CellIx)
  /-- HOST_ALLOC (R168). Hosting message asking a peer for an open hosted frame. -/
  | hostAlloc (m : HostMsg) (hosting : PlotIx) (seqNo : Nat) (order : Nat) (epoch : Nat)
  /-- HOST_SEAL (R168). Hosting message that seals a hosted frame once count and CRC match. -/
  | hostSeal (m : HostMsg) (handle : Nat) (count : Nat) (crc : Nat)
  /-- HOST_QUERY (R168). Hosting message asking a frame's ALLOCATED, SEALED and EPOCH. -/
  | hostQuery (m : HostMsg) (handle : Nat)
  /-- HOST_FREE (R168). Hosting message freeing a hosted frame after the checks of R148. -/
  | hostFree (m : HostMsg) (handle : Nat)
  /-- HOST_REPLY_TIMEOUT (R168). A hosting reply missing after 100 us counts as a refusal. -/
  | hostReplyTimeout (id : Nat)
  /-- PAGE_MOVE_COMMIT (R169). On a sealed destination the page table entry names it at the new epoch and the source goes to DRAIN. -/
  | pageMoveCommit (id : Nat)
  /-- SOURCE_FREE (R170). At the HOLD tick of the old epoch the source frame is freed or HOST_FREE is sent. -/
  | sourceFree
  /-- ORPHAN_RECLAIM (R171). A hosting chip reclaims an open hosted frame not sealed within 10 ms. -/
  | orphanReclaim
  /-- STEP_HEADER (R180). A member receives the lead's step header and expands its row table. -/
  | stepHeader (m : InMsg)
  /-- QUERY_PIECE (R181). A member receives a query piece, dropping it if its TAG or sender is stale. -/
  | queryPiece (m : InMsg)
  /-- PARTIAL_PIECE (R181). A partial piece of WX32 rows is received for the reduction toward the lead. -/
  | partialPiece (m : InMsg)
  /-- PEER_COMMIT (R185). The tail runs a commit forwarded from the lead and returns the commit point. -/
  | peerCommit (lead : HostMsg) (p : PlotIx) (n : Nat) (pos : Nat) (count : Nat) (generation : Nat) (data : (List Byte))
  /-- HOP_LAUNCH (R188). A ring hop launches its forward and attention at its scheduled tick or at readiness. -/
  | hopLaunch (p : PlotIx)
  /-- RING_TIMEOUT (R188). An expected block or piece has not arrived within TIMEOUT ticks and the task aborts. -/
  | ringTimeout (p : PlotIx) (layer : Nat) (group : Nat)
  /-- RING_BUFFER_RELEASE (R187). A ring buffer whose attention has ended and whose forward is acknowledged returns its credit. -/
  | ringBufferRelease (gi : GroupIx)
  /-- IDX_CREATE (R200). Creates a corpus or live index. -/
  | idxCreate (p : PlotIx)
  /-- IDX_DESTROY (R200). Frees an index record once no query uses it. -/
  | idxDestroy (p : PlotIx)
  /-- IDX_STAGE (R206). Stages a new version of a corpus index. -/
  | idxStage (p : PlotIx)
  /-- IDX_SWAP (R206). Schedules the staged version for a swap tick. -/
  | idxSwap (p : PlotIx)
  /-- INDEX_SWAP (R206). At the swap tick every list of the index passes to the staged version. -/
  | indexSwap (ix : IndexIx)
  /-- INSERT (R202). Appends a stamped entry to a live list's side list. -/
  | insertEntry (p : PlotIx)
  /-- DELETE (R202). Posts a stamped tombstone in a live list. -/
  | deleteEntry (p : PlotIx)
  /-- COMPACT (R200). Requests compaction of one or all lists now. -/
  | compact (p : PlotIx)
  /-- COMPACTION (R205). Writes a new base from the old base, side entries and tombstones up to C and publishes it. -/
  | compaction (ix : IndexIx) (list : Nat)
  /-- VERSION_RELEASE (R205). A predecessor version no query uses is released and its side entries reclaimed. -/
  | versionRelease (ix : IndexIx) (list : Nat)
  /-- QUERY (R207). Runs a batch of retrieval queries under admission. -/
  | queryBatch (p : PlotIx)
  /-- SNAPSHOT_WAIT (R203). A query with a future snapshot starts its first pass when the sundial reaches it. -/
  | snapshotWait (batch : Nat)
  /-- CHUNK (R209). The engine scans one chunk of a list for the queries of a pass. -/
  | chunk (r : RegionIx) (e : ChunkEvent)
  /-- RESULT_WRITE (R211). At the end of a query the engine writes its result block. -/
  | resultWrite (batch : Nat) (query : Nat)
  /-- SHARDED_BATCH (R213). A member receives a multicast sharded batch and searches its own index. -/
  | shardedBatch (m : InMsg)
  /-- KNOWN_ANSWER_TEST (R221). The retrieval engine runs a 2 us known-answer test and goes out of service if it fails. -/
  | knownAnswerTest (r : RegionIx) (ok : Bool)
  /-- PROG_LOOP (R228). Address instruction opening a loop. -/
  | progLoop (st : StreamIx)
  /-- NEXT (R228). Address instruction closing the innermost loop. -/
  | nextLoop (st : StreamIx)
  /-- SETA (R228). Address instruction setting an address register from a base or register. -/
  | seta (st : StreamIx)
  /-- ADDA (R228). Address instruction adding an immediate to an address register. -/
  | adda (st : StreamIx)
  /-- MOVE (R229). Address instruction moving bytes between memory and tiles. -/
  | moveBytes (st : StreamIx) (e : MoveEvent)
  /-- ZERO (R228). Address instruction emitting zero bytes into tiles. -/
  | zeroBytes (st : StreamIx)
  /-- FLUSH (R228). Address instruction closing the current tile at its present length. -/
  | flush (st : StreamIx)
  /-- IDX (R231). Address instruction popping an index and forming an address. -/
  | idx (st : StreamIx)
  /-- PAGE (R232). Address instruction taking the next page descriptor and binding a register to its frame. -/
  | page (st : StreamIx) (e : Ecc)
  /-- TRAIL (R233). Address instruction writing trailer entries and a mask for the next tile. -/
  | trail (st : StreamIx) (header : (List Byte)) (e : Ecc)
  /-- PROG_END (R228). Address instruction ending the run and closing the current tile. -/
  | progEnd (st : StreamIx)
  /-- TILE_COMPLETE (R235). When every byte of a tile has landed the stream gives FULL to the consumer. -/
  | tileComplete (st : StreamIx)
  /-- PERSISTENT_RUN (R239). A parked persistent stream starts its next run from a re-arm record. -/
  | persistentRun (st : StreamIx) (e : Ecc)
  /-- BACKGROUND_PROMOTION (R243). A BACKGROUND stream is promoted to deadline traffic at DEADLINE minus PERIOD. -/
  | backgroundPromotion (st : StreamIx)
  /-- SLOT_METER (R244). A new admission slot restarts the metering of each task's bytes against its claims. -/
  | slotMeter
  /-- ECC_REPORT (R260). The service pair looks up a reported error and requests a region reset for table state. -/
  | eccReport
  /-- SCRUB_PASS_START (R261). A scrub pass starts at a multiple of its interval. -/
  | scrubPassStart (k : ScrubIx)
  /-- SCRUB_PROMOTE (R262). A scrubber is promoted to deadline traffic when its interval is at risk. -/
  | scrubPromote (k : ScrubIx)
  /-- SCRUB_PASS_END (R261). A scrub pass completes, stepping PASSES and setting LATE if past its interval. -/
  | scrubPassEnd (k : ScrubIx) (found : (List ScrubFind))
  /-- MEM_COLD_SEG_WRITE (R256). Write of a cold-frame segment mapping, ignored while the segment lies in a window. -/
  | memColdSegWrite (a : Agent) (j : SegIx) (v : W32)
  /-- SYNC_EXCHANGE (R273). A link sends a synchronisation request on its exchange cadence. -/
  | syncExchange (l : LinkIx)
  /-- SYNC_FLIT (R274). A synchronisation request or reply is received and the offset and delay judged. -/
  | syncFlit (l : LinkIx) (f : SyncFlit)
  /-- SUNDIAL_JOIN (R271). A chip steps its counter to its parent's time when it joins. -/
  | sundialJoin (l : LinkIx)
  /-- EXCHANGE_MISS (R276). An exchange times out and counts as missed, possibly entering SUSPECT. -/
  | exchangeMiss (l : LinkIx)
  /-- LINK_DORMANT (R276). A SUSPECT link whose uncertainty exceeds GUARD becomes DORMANT. -/
  | linkDormant (l : LinkIx)
  /-- SDL_TIME_LOW_READ (R270). Read of SDL_TIME_LOW returns the low half and latches the high half for the agent. -/
  | sdlTimeLowRead (a : Agent)
  /-- SUNDIAL_EVENT (R279). An armed event fires against the local sundial. -/
  | sundialEvent
  /-- DEFERRED_EVENT (R279). A deferred event fires once its link enters SYNCED. -/
  | deferredEvent (l : LinkIx)
  /-- SCHED_WRITE (R280). Command scheduling a register write at a tick. -/
  | schedWrite (who : (Option PlotIx))
  /-- ADM_DOORBELL (R281). A plot writes its admission request ring tail. -/
  | admDoorbell (a : Agent) (p : PlotIx) (v : W32)
  /-- ADMISSION_REQUEST (R286). The unit takes a request, prices its duration, places it and writes ACCEPTED or REFUSED. -/
  | admissionRequest (p : PlotIx) (body : TaskBody)
  /-- STREAM_CHECK_END (R288). The service pair's check of the stream list and group descriptor ends and the reply is written or withdrawn. -/
  | streamCheckEnd (tid : Nat)
  /-- TASK_START (R286). An accepted task starts on free cells, possibly re-based, and STARTED is written. -/
  | taskStart (tid : Nat)
  /-- TASK_END (R289). A task ends, ENDED is written and its reservation is released. -/
  | taskEnd (tid : Nat)
  /-- DEADLINE_ABORT (R289). A task unfinished at its completion tick aborts with DEADLINE. -/
  | deadlineAbort (tid : Nat)
  /-- THROTTLE_CHANGE (R290). A region throttle sets THROTTLE and KEEP for pricing new claims. -/
  | throttleChange (r : RegionIx)
  /-- CAPACITY_LOSS (R290). A fallen capacity aborts accepted tasks, latest completion first, until every slot fits. -/
  | capacityLoss
  /-- DATA_FLIT (R300). A data flit is received, corrected, checked and accepted or NAKed. -/
  | dataFlit (l : LinkIx) (seqNo : Nat) (vc : Nat) (phase : Bool) (isShared : Bool) (crcOk : Bool)
  /-- LINK_CONTROL_FLIT (R299). A link-control flit carrying acknowledgements, NAKs, credits or width changes is received. -/
  | linkControlFlit (l : LinkIx) (c : LinkCtl)
  /-- REPLAY_TIMEOUT (R300). The oldest unacknowledged flit sees no acknowledgement for 20 us and is replayed. -/
  | replayTimeout (l : LinkIx)
  /-- LANE_FAILURE (R301). A lane fails and the link switches to a narrower width. -/
  | laneFailure (l : LinkIx) (lane : Nat)
  /-- TRAINING_COMPLETE (R310). A link's lanes lock and it enters DISCOVERY. -/
  | trainingComplete (l : LinkIx) (failed : Nat) (delay : Nat)
  /-- RETRAIN_END (R310). A link in RETRAIN locks and returns to UP, or falls to OFF. -/
  | retrainEnd (l : LinkIx) (locked : Bool) (failed : Nat)
  /-- DISCOVERY_SEND (R307). A link end sends its discovery record every 10 us. -/
  | discoverySend (l : LinkIx)
  /-- DISCOVERY_RECORD (R309). A partner's discovery record is received and checked. -/
  | discoveryRecord (l : LinkIx) (q : Partner)
  /-- SWITCH_RECORD (R308). A rack switch record gives the chip its coordinates. -/
  | switchRecord (l : LinkIx) (plane : Nat) (rack : Nat) (port : Nat)
  /-- DISCOVERY_SILENCE (R307). No valid record for 10 ms returns the link to OFF. -/
  | discoverySilence (l : LinkIx)
  /-- LNK_RELEASE (R312). Writing RELEASE moves a FALLOW link to OFF. -/
  | lnkRelease (a : Agent) (l : LinkIx)
  /-- LNK_RETRAIN (R312). Writing RETRAIN moves an UP link to OFF for full retraining. -/
  | lnkRetrain (a : Agent) (l : LinkIx)
  /-- LNK_DISABLE (R312). Writing DISABLE sends the link to FALLOW with reason HOST. -/
  | lnkDisable (a : Agent) (l : LinkIx) (v : Bool)
  /-- FABRIC_WRITE (R302). A write message is received and served if its bytes lie in the requester's window. -/
  | fabricWrite (m : InMsg) (e : Ecc)
  /-- READ_REQUEST (R255). A read request is received, checked and answered. -/
  | readRequest (m : InMsg) (e : Ecc)
  /-- READ_REPLY (R403). A read reply is received and dropped if its generation is stale. -/
  | readReply (m : InMsg)
  /-- COLLECTIVE_PIECE (R323). A collective message is received and placed, or dropped. -/
  | collectivePiece (m : InMsg)
  /-- CREDIT_RETURN (R332). A slot credit return message gives a sender back a receive slot. -/
  | creditReturn (m : InMsg)
  /-- READY_NOTICE (R415). A ready notice from a returned domain is received and logged. -/
  | readyNotice (m : InMsg)
  /-- FROST (R335). A common error record is received or raised and the group's operations and tasks abort. -/
  | frost (m : InMsg)
  /-- CHAIN_ARM (R316). Copies operation descriptors into a free chain. -/
  | chainArm (p : PlotIx)
  /-- CHAIN_RELEASE (R315). Frees a chain once none of its operations is in flight. -/
  | chainRelease (p : PlotIx)
  /-- OP_ABORT (R315). Raises the common error with cause PLOT for the chain's operations in flight. -/
  | opAbort (p : PlotIx)
  /-- COL_TRIGGER (R314). A plot write steps a trigger counter. -/
  | colTrigger (a : Agent) (p : PlotIx) (v : W32)
  /-- OP_FIRE (R317). The head operation of a chain fires when its counter reaches its threshold. -/
  | opFire (c : ChainIx)
  /-- RING_CHUNK (R325). A ring chunk is sent after the previous step's chunk has landed and been added. -/
  | ringChunk (id : Nat) (stage : Nat) (piece : Nat) (off : Nat) (e : Ecc)
  /-- OP_COMPLETE (R328). An operation completes and writes its flags, status, notifications and DONECTR. -/
  | opComplete (id : Nat) (e : Ecc)
  /-- COLLECTIVE_TIMEOUT (R333). An operation not complete TIMEOUT ticks after its start raises the common error. -/
  | collectiveTimeout (gi : GroupIx) (opseq : Nat)
  /-- ERROR_REPORT (R335). 5,000 ticks after the first record the kept record is reported and the epoch steps. -/
  | errorReport (gi : GroupIx)
  /-- NEIGHBOR_SOLICITATION (R341). An ICMPv6 Neighbor Solicitation for the port's address is answered. -/
  | neighborSolicitation (q : PortIx) (own : Bool)
  /-- AFITH_DATA (R347). A DATA datagram is received and written if within the PSN map. -/
  | afithData (q : PortIx) (d : DataDgram)
  /-- AFITH_ACK (R348). An ACK datagram is received and missing PSNs may be retransmitted. -/
  | afithAck (q : PortIx) (d : AckDgram)
  /-- ACK_TIMER (R347). An ACK is sent at least every 10 us while datagrams are unacknowledged. -/
  | ackTimer (conn : PeerIx)
  /-- OPEN (R346). An OPEN datagram is received and answered. -/
  | openConn (q : PortIx) (conn : PeerIx) (known : Bool) (major : Nat) (epoch : Nat)
  /-- OPEN_ACK (R346). An OPEN_ACK moves the connection to OPEN. -/
  | openAck (q : PortIx) (conn : PeerIx) (known : Bool) (epoch : Nat)
  /-- AFITH_RESET (R346). A RESET datagram moves the connection to CLOSED. -/
  | afithReset (q : PortIx) (conn : PeerIx) (known : Bool) (epoch : Nat)
  /-- OPEN_RETRY (R346). An OPENING connection sends OPEN every 1 ms. -/
  | openRetry (conn : PeerIx)
  /-- RETRANSMIT_TIMEOUT (R348). A PSN's retransmission timeout expires and it is retransmitted. -/
  | retransmitTimeout (conn : PeerIx) (psn : Nat)
  /-- GIVE_UP (R348). CUMACK has not advanced for 100 ms and the connection sends RESET. -/
  | giveUp (conn : PeerIx)
  /-- FLD_SEND (R353). Command sending plot bytes to an endpoint. -/
  | fldSend (p : PlotIx)
  /-- PCS_ALIGNMENT_LOSS (R340). A field port that loses PCS alignment goes DOWN. -/
  | pcsAlignmentLoss (q : PortIx)
  /-- FLD_RETRAIN (R358). Writing RETRAIN retrains the field port with its new MODE. -/
  | fldRetrain (a : Agent) (q : PortIx)
  /-- FLD_DISABLE (R358). Writing DISABLE holds the field port off. -/
  | fldDisable (a : Agent) (q : PortIx) (v : Bool)
  /-- PTP_SYNC (R355). The root takes a Sync and Follow_Up and slews toward PTP time. -/
  | ptpSync (q : PortIx) (f : PtpSync)
  /-- PTP_LOCK_LOSS (R355). No valid Sync for 8 intervals makes the root lose lock. -/
  | ptpLockLoss
  /-- PLOT_CREATE (R362). Creates a plot from its record after checking it and clearing its windows. -/
  | plotCreate
  /-- PLOT_SET (R367). Replaces one policy, budget, weight or mode field of a plot. -/
  | plotSet
  /-- PLOT_GROW (R365). Gives free blocks to a plot. -/
  | plotGrow
  /-- PLOT_SHRINK (R366). Marks blocks DRAINING, waits for their tasks, clears them and frees them. -/
  | plotShrink (loads : (List SfuRun))
  /-- PLOT_STOP (R369). Makes admission refuse the plot's requests with STOPPED. -/
  | plotStop
  /-- PLOT_START (R360). Returns a STOPPED plot to ACTIVE. -/
  | plotStart
  /-- PLOT_RESIZE (R364). Changes a stopped plot's windows and pools. -/
  | plotResize
  /-- PLOT_DESTROY (R369). Clears a stopped plot step by step and frees it. -/
  | plotDestroy (loads : (List SfuRun))
  /-- GROUP_SET (R370). Writes one entry of the collective group table. -/
  | groupSet
  /-- POWER_ON (R451). The rise of PWR_SEQ_OK and HUB_PERST_N releases reset and begins a cold start. -/
  | powerOn (straps : Nat) (pass : Nat)
  /-- PWR_SEQ_OK_FALL (R452). A fall of PWR_SEQ_OK puts the device in reset as loss of power. -/
  | pwrSeqOkFall
  /-- PERST_ASSERT (R452). A fall of HUB_PERST_N while powered puts the device in reset. -/
  | perstAssert
  /-- PERST_RELEASE (R373). The rise of HUB_PERST_N begins a start of kind NEXT. -/
  | perstRelease (straps : Nat) (pass : Nat)
  /-- BOOT_RESTART (R373). Writing RESTART begins a start of kind NEXT. -/
  | bootRestart (a : Agent) (pass : Nat)
  /-- BOOT_GO (R385). Writing GO in WAIT_IMAGE starts the image fetch and verification. -/
  | bootGo (a : Agent)
  /-- IMAGE_VERIFIED (R385). The fetched image is accepted or refused and the staging cleared. -/
  | imageVerified
  /-- NVM_OWN_FALL (R377). The device finishes its read command and releases the NVM bus. -/
  | nvmOwnFall
  /-- NVM_OWN_RISE (R377). The device restarts the whole seedbed read. -/
  | nvmOwnRise
  /-- NVM_WAIT_EXPIRY (R377). The NVM held for 5 s abandons the seedbed read. -/
  | nvmWaitExpiry
  /-- SEEDBED_READ_DONE (R381). The seedbed read ends and the sections are judged readable or not. -/
  | seedbedReadDone (img : SeedbedImage)
  /-- FIRMWARE_ENTRY (R386). With image and seedbed both done, the firmware is entered and the seedbed parsed. -/
  | firmwareEntry (copyOk : Bool)
  /-- MEMORY_TRAINING_DONE (R388). Memory training ends and the start continues with clearing, restore and configuration. -/
  | memoryTrainingDone (failed stackBits : Nat) (loads : (List SfuRun))
  /-- BOOT_SUNDIAL_HIGH (R393). Writing BOOT_SUNDIAL_HIGH arms a start value for the root. -/
  | bootSundialHigh (a : Agent) (v : W32)
  /-- DOMAIN_RESET (R405). A reset of a cell, block, region or chip runs its steps from tag step to return to service. -/
  | domainReset (o : ResetRun)
  /-- SAFE_RESET (R401). A host write requests a reset of cause WATCHDOG or HOST at a level. -/
  | safeReset (a : Agent) (v : W32)
  /-- RELEASE_CHIP (R413). Writing RELEASE_CHIP runs a chip reset of cause RELEASE on a fallow chip. -/
  | releaseChip (a : Agent)
  /-- RELEASE_REGION (R412). Writing RELEASE_REGION runs a region reset of cause RELEASE. -/
  | releaseRegion (a : Agent) (r : RegionIx)
  /-- REPLAY (R410). A suspect task is replayed alone and its verdict recorded. -/
  | replay (spent : Nat) (fault : (Option Nat))
  /-- REPLAY_GUILTY (R410). A replay runs out its time and the domain is reset with cause REPLAY. -/
  | replayGuilty (o : ResetRun)
  /-- HEARTBEAT (R400). The management pair steps HUB_HEARTBEAT at least every 1 ms. -/
  | heartbeat
  /-- WATCH_OVERDUE (R400). The admission unit sets a HUB_WATCH flag for an overdue task or request. -/
  | watchOverdue
  /-- COOLING_END (R413). After sensors stay below TEMP_WARN for 10^9 ticks the chip leaves cooling. -/
  | coolingEnd
  /-- LOCKSTEP_MISMATCH (R26). A control-core pair mismatch halts the pair and requests a chip reset. -/
  | lockstepMismatch (service : Bool)
  /-- PLL_LOSS (R454). The safety monitor detects loss of a PLL and a PLL reset follows. -/
  | pllLoss (k : PllKind)
  /-- PCIE_REFCLK_LOSS (R454). Loss of the PCIe reference takes down only the host interface. -/
  | pcieRefclkLoss
  /-- LOG_READ (R421). Copies a plot's event-log entries, or every entry for the host, into a buffer. -/
  | logRead (who : (Option PlotIx))
  /-- HARVEST_READ (R441). Mailbox command copying a harvest slot to host memory. -/
  | harvestRead
  /-- PERF_COUNTER_READ (R422). A read of a counter's low register latches the high register. -/
  | perfCounterRead (a : Agent) (n : Nat) (steps : Nat)
  /-- REGISTER_WRITE (R431). A write to a register without behaviour of its own, serialised at the register arbiter. -/
  | registerWrite (a : Agent) (priv : Bool) (off : Nat) (v : W32)
  /-- ALIAS_WRITE (R429). A set, clear or toggle alias write changes RW fields as one read-modify-write. -/
  | aliasWrite (a : Agent) (priv : Bool) (off : Nat) (v : W32)
  /-- RC_READ (R432). A read of an RC field returns its value and clears the bits returned as one. -/
  | rcRead (a : Agent) (priv : Bool) (off : Nat)
  /-- W1L_WRITE (R434). A write to a W1L field locks it, or is ignored and recorded in HUB_LOCK_VIOL. -/
  | w1lWrite (a : Agent) (off : Nat) (v : W32)
  /-- PRIV_LOCK_DROP (R427). Writing DROP ends PF0's secure state until the next start. -/
  | privLockDrop (a : Agent)
  /-- CONFIG_SCAN_PASS (R439). A pass of the configuration scanner ends and its CRC is compared with the reference. -/
  | configScanPass
  /-- MBOX_GO (R440). Writing GO starts the management pair on a mailbox command. -/
  | mboxGo (a : Agent)
  /-- PWR_REGION_CAP_WRITE (R33). A write of a region cap, ignored if the cap sum would exceed 1,830 W. -/
  | pwrRegionCapWrite (a : Agent) (r : RegionIx) (v : W32)
  /-- FALLOW_ENTER (R456). Writing FALLOW_ENTER stops admission and lets accepted tasks run out. -/
  | fallowEnter (a : Agent)
  /-- FALLOW_GATING (R456). After the last task ends the links go OFF and the core rails are power-gated. -/
  | fallowGating
  /-- FALLOW_EXIT (R457). Writing FALLOW_EXIT restarts clocks, clears SRAM and retrains links. -/
  | fallowExit (a : Agent) (loads : (List SfuRun)) (kat : Nat)
  /-- GOVERNOR_SAMPLE (R459). A region governor measures power every 1 us and adjusts its KEEP. -/
  | governorSample (r : RegionIx) (p : PowerSample)
  /-- EXCURSION_SPENT (R460). The excursion allowance is spent and every governor returns to its cap. -/
  | excursionSpent
  /-- DROOP_LEVEL (R462). The droop detector sets the stretch level of its region's clocks. -/
  | droopLevel (r : RegionIx) (level : Nat)
  /-- DROOP_THROTTLE_END (R463). The droop throttle ends 1 ms after the last beyond-range event. -/
  | droopThrottleEnd
  /-- SENSOR_READ (R465). Temperature sensors are read every 100 us and the thermal limits applied. -/
  | sensorRead (temps : (List Int))
  /-- HARDWARE_TRIP (R465). A sensor reaching the hardware trip holds the device in reset and asserts SAFE_TRIP_N. -/
  | hardwareTrip (temp : Nat)
  /-- MANAGEMENT_BUS_READ (R449). A management bus read returns a status register without side effects. -/
  | managementBusRead (off : Nat)
  /-- FIELD_PORT_UP (R346). A field port completes training and comes UP, and its CLOSED connections enter OPENING. -/
  | fieldPortUp (q : PortIx)
  /-- REMOTE_TIMEOUT (R246). A fabric or host read not answered within 100 us faults its stream with REMOTE and aborts the task. -/
  | remoteTimeout (st : StreamIx)
  /-- HOSTING_REPLY (R168). The owner receives the hosting chip's reply to HOST_ALLOC, HOST_SEAL, HOST_QUERY or HOST_FREE and advances or rolls back the page move. -/
  | hostingReply (id : Nat) (gen : Nat) (r : HostReply)
  /-- PLL_RELOCK (R454). The hub PLL relocks to a returned main reference, and the chip reset waiting at step 6 continues. -/
  | pllRelock (o : ResetRun)
  /-- PCIE_REFCLK_RETURN (R454). The PCIe reference clock returns and the host interface can train and serve again. -/
  | pcieRefclkReturn
  /-- PCIE_TRAINED (R388). PCIe training completes at step C4, configuration requests are answered and BOOT_STATUS.STATE becomes WAIT_IMAGE. -/
  | pcieTrained (gen : Nat) (lanes : Nat)
  /-- CONFIG_SCAN_START (R437). A configuration scanner pass starts every 1 ms of always-on time, resetting the running value and word position. -/
  | configScanStart (flips : (List WordFlip))
  /-- SUNDIAL_BEAT (R447). GRAFT[5] rises at every tick that is a multiple of 1,000,000 and falls 100 ticks later. -/
  | sundialBeat
  /-- RAIL_EXCURSION (R452). A rail moves outside plus or minus 3 percent and its bit is set in PWR_RAIL_STATUS. -/
  | railExcursion (rail : Nat) (low : Bool)
  deriving DecidableEq, Repr

end Sys2Proof
end

