-- ==== Sys2Proof/Decode.lean ====
section
/-!
DEFINITION. The command that a word spells by the bits of the table of operations and events. The table gives no row any bits
(every row's `fields` is empty), so no word spells a command.
-/

namespace Sys2Proof

/-- The command spelled by `nbits` bits of value `w`: none, the table giving no row bits. -/
def decodeTableWord (_nbits _w : Nat) : Option Instr := none

end Sys2Proof
end

