-- ==== Sys2Proof/Config.lean ====
section
/-!
DEFINITION. What the manual leaves open to the implementation, the firmware release or the standard it cites: constants
with no body, so that a claim about them holds for every value (notes/assumptions 2 to 9).
-/

namespace Sys2Proof.Config

/-- A fresh free value for each position of the state's counter `free`: undefined data (R78, R98, R124, R212, R247) and
results the manual does not state. -/
opaque freeValue : Nat → Nat

/-- The twelve-bit event-log code of an event whose code the manual does not number (R420: "as the defining chapter
gives it"). -/
opaque logCode : Nat → Nat

/-- SHA-384 (FIPS 180), cited by R385 and R387. -/
opaque sha384 : List Byte → BitVec 384

/-- ECDSA P-384 verification (FIPS 186-5) of a 96-byte signature over a digest under a 97-byte public key (R385). -/
opaque ecdsaVerify : List Byte → BitVec 384 → List Byte → Bool

/-- Digest fused in a key slot at provisioning (R385). -/
opaque fuseKey : Nat → BitVec 384

/-- Whether a key slot is revoked (R385). -/
opaque fuseRevoked : Nat → Bool

/-- The fused minimum security version number (R385). -/
opaque fuseMinSvn : Nat

/-- Whether a firmware level supports a FORMAT_MAJOR of the main section (R381 gives level 3's answer). -/
opaque formatSupported : Nat → Nat → Bool

/-- The chip's serial number (R307). -/
opaque serial : BitVec 64

/-- The CLH-0 segment tables of the firmware release (R103): 0 exp2, 1 rsqrt, 2 tanh, 3 logistic; the bytes of one
table in the layout of R94. -/
opaque clhTable : Nat → List Byte

/-- The opcodes of MMA, VOP, CVT, LOOP, JUMP and END (numbers 0 to 5), which the manual leaves to the toolchain (R64). -/
opaque opcode : Nat → BitVec 8

/-- Whether the micro-program and tables of a function in a mode (true: compatibility) include a word of the table RAM (R96: firmware
supplies them). -/
opaque sfuWord : Nat → Bool → Nat → Bool

/-- The transfer tile of operation `i` of chain `c` (R65: set when it is armed; its descriptor holds no field for it), as a power of two
times 512 bytes. -/
opaque collectiveTile : Nat → Nat → Nat

/-- The manager's choice among free frames (R145 gives no placement rule): where its search starts. -/
opaque allocStart : Nat → Nat

/-- The route table that firmware builds from discovery (R303): slots of this rack's gateways to a rack. -/
opaque gateways : Nat → List Nat

/-- A correctly rounded result that the model's enclosure of the function does not separate (never met by the precision
used; notes/assumptions/7). -/
opaque unresolved : Nat → Nat

end Sys2Proof.Config
end

