-- ==== Sys2Proof/Machine/RegTable.lean ====
section
/-!
DEFINITION. The register interface's map: every register of the manual with its page and offset (R435, R466), its number of
instances and its field map (the tables of R18, R53, R69, R79, R101, R172, R194, R223, R248, R268, R293, R312, R338,
R358, R372, R396, R423, R442 and R466). Reserved bits are bits of no field: they read zero (R433).
-/

namespace Sys2Proof.Machine

/-- The registers, named as the manual names them. -/
inductive Reg where
  | CEL_SFU_WEIGHT
  | CEL_NUM_STATUS
  | CEL_ISSUE_QUANTUM
  | CEL_STATE
  | CEL_FAULT_INFO
  | SFU_MODE
  | SFU_STATUS
  | SFU_FAULT_INFO
  | SFU_ECC_COUNT
  | SFU_TABLE_CRC
  | KVM_DOORBELL
  | KVM_STATUS
  | KVM_POLICY
  | KVM_DECAY
  | KVM_POOL_FREE
  | KVM_POOL_DRAIN
  | KVM_BAD_FREE_COUNT
  | KVM_BAD_FREE_INFO
  | KVM_MIGRATE_STATUS
  | ATT_GROUP_STATUS
  | ATT_GROUP_STALE
  | RCL_STATUS
  | RCL_FAULT_INFO
  | RCL_PLOT_FLAGS
  | STM_STATUS
  | STM_STREAM_STATE
  | STM_FAULT_INFO
  | STM_REARM_COUNT
  | MEM_ECC_COUNT
  | MEM_ECC_INFO
  | MEM_ECC_ADDR
  | MEM_SCRUB_STATUS
  | MEM_COLD_SEG
  | SDL_TIME_LOW
  | SDL_TIME_HIGH
  | SDL_STATUS
  | SDL_LINK_SYNC
  | SDL_EVENT_FLAGS
  | ADM_DOORBELL
  | ADM_POLICY
  | ADM_REGION_STATE
  | ADM_BUDGET_MEM
  | ADM_BUDGET_NET
  | ADM_REFUSE_COUNT
  | ADM_ABORT_COUNT
  | LNK_STATUS
  | LNK_CONTROL
  | LNK_PEER
  | LNK_COORD
  | LNK_CRC_COUNT
  | LNK_RETRY_COUNT
  | LNK_PLOT_WEIGHT
  | COL_STATUS
  | COL_COUNTER
  | COL_TRIGGER
  | COL_GROUP_INFO
  | COL_CHAIN_STATE
  | COL_ERROR_INFO
  | COL_ERROR_OP
  | COL_DROP_COUNT
  | COL_OVERFLOW_COUNT
  | FLD_STATUS
  | FLD_CONTROL
  | FLD_PTP_STATUS
  | FLD_RETX_COUNT
  | FLD_DROP_COUNT
  | PLT_STATE
  | PLT_BLOCKS
  | PLT_PENDING
  | BOOT_STATUS
  | BOOT_NVM
  | BOOT_CONTROL
  | BOOT_IMAGE_LOW
  | BOOT_IMAGE_HIGH
  | BOOT_IMAGE_SIZE
  | BOOT_SUNDIAL_LOW
  | BOOT_SUNDIAL_HIGH
  | HUB_HEARTBEAT
  | HUB_WATCH
  | HUB_GENERATION
  | RGN_GENERATION
  | BLK_GENERATION
  | SAFE_STATUS
  | SAFE_RESET
  | SAFE_CONTROL
  | SAFE_RESET_INFO
  | SAFE_HARVEST
  | SAFE_STALE_COUNT
  | HUB_LOG_LOST
  | HUB_LOCK_VIOL
  | HUB_PRIV_LOCK
  | HUB_CONFIG_CRC
  | HUB_CONFIG_REF
  | HUB_CONFIG_STATUS
  | HUB_MBOX_CMD
  | HUB_MBOX_DOORBELL
  | HUB_MBOX_RESULT
  | HUB_MBOX_STATUS
  | PWR_REGION_CAP
  | PWR_STATE
  | PWR_CONTROL
  | PWR_CHIP_POWER
  | PWR_REGION_POWER
  | PWR_DROOP_COUNT
  | PWR_RAIL_STATUS
  | PWR_GRAFT
  | TMP_STATUS
  | TMP_SENSOR
  deriving DecidableEq, Repr

/-- The access codes of R10; the prefix PV is `FieldSpec.priv`. -/
inductive Acc where
  | rw | ro | rc | wo | w1l
  deriving DecidableEq, Repr

/-- One field of a field map. -/
structure FieldSpec where
  lo : Nat
  width : Nat
  acc : Acc
  priv : Bool
  reset : Nat
  deriving DecidableEq, Repr

/-- A named field of a register. -/
structure Fld where
  reg : Reg
  lo : Nat
  width : Nat
  deriving DecidableEq, Repr

/-- Every register. -/
def Reg.all : List Reg :=
  [.CEL_SFU_WEIGHT, .CEL_NUM_STATUS, .CEL_ISSUE_QUANTUM, .CEL_STATE, .CEL_FAULT_INFO,
   .SFU_MODE, .SFU_STATUS, .SFU_FAULT_INFO, .SFU_ECC_COUNT, .SFU_TABLE_CRC,
   .KVM_DOORBELL, .KVM_STATUS, .KVM_POLICY, .KVM_DECAY, .KVM_POOL_FREE,
   .KVM_POOL_DRAIN, .KVM_BAD_FREE_COUNT, .KVM_BAD_FREE_INFO, .KVM_MIGRATE_STATUS, .ATT_GROUP_STATUS,
   .ATT_GROUP_STALE, .RCL_STATUS, .RCL_FAULT_INFO, .RCL_PLOT_FLAGS, .STM_STATUS,
   .STM_STREAM_STATE, .STM_FAULT_INFO, .STM_REARM_COUNT, .MEM_ECC_COUNT, .MEM_ECC_INFO,
   .MEM_ECC_ADDR, .MEM_SCRUB_STATUS, .MEM_COLD_SEG, .SDL_TIME_LOW, .SDL_TIME_HIGH,
   .SDL_STATUS, .SDL_LINK_SYNC, .SDL_EVENT_FLAGS, .ADM_DOORBELL, .ADM_POLICY,
   .ADM_REGION_STATE, .ADM_BUDGET_MEM, .ADM_BUDGET_NET, .ADM_REFUSE_COUNT, .ADM_ABORT_COUNT,
   .LNK_STATUS, .LNK_CONTROL, .LNK_PEER, .LNK_COORD, .LNK_CRC_COUNT,
   .LNK_RETRY_COUNT, .LNK_PLOT_WEIGHT, .COL_STATUS, .COL_COUNTER, .COL_TRIGGER,
   .COL_GROUP_INFO, .COL_CHAIN_STATE, .COL_ERROR_INFO, .COL_ERROR_OP, .COL_DROP_COUNT,
   .COL_OVERFLOW_COUNT, .FLD_STATUS, .FLD_CONTROL, .FLD_PTP_STATUS, .FLD_RETX_COUNT,
   .FLD_DROP_COUNT, .PLT_STATE, .PLT_BLOCKS, .PLT_PENDING, .BOOT_STATUS,
   .BOOT_NVM, .BOOT_CONTROL, .BOOT_IMAGE_LOW, .BOOT_IMAGE_HIGH, .BOOT_IMAGE_SIZE,
   .BOOT_SUNDIAL_LOW, .BOOT_SUNDIAL_HIGH, .HUB_HEARTBEAT, .HUB_WATCH, .HUB_GENERATION,
   .RGN_GENERATION, .BLK_GENERATION, .SAFE_STATUS, .SAFE_RESET, .SAFE_CONTROL,
   .SAFE_RESET_INFO, .SAFE_HARVEST, .SAFE_STALE_COUNT, .HUB_LOG_LOST, .HUB_LOCK_VIOL,
   .HUB_PRIV_LOCK, .HUB_CONFIG_CRC, .HUB_CONFIG_REF, .HUB_CONFIG_STATUS, .HUB_MBOX_CMD,
   .HUB_MBOX_DOORBELL, .HUB_MBOX_RESULT, .HUB_MBOX_STATUS, .PWR_REGION_CAP, .PWR_STATE,
   .PWR_CONTROL, .PWR_CHIP_POWER, .PWR_REGION_POWER, .PWR_DROOP_COUNT, .PWR_RAIL_STATUS,
   .PWR_GRAFT, .TMP_STATUS, .TMP_SENSOR]

/-- View offset of instance 0 (R435, R466): page × 0x1_0000 + offset. -/
def Reg.offset : Reg → Nat
  | .CEL_SFU_WEIGHT => 0x102000
  | .CEL_NUM_STATUS => 0x101000
  | .CEL_ISSUE_QUANTUM => 0x101800
  | .CEL_STATE => 0x100000
  | .CEL_FAULT_INFO => 0x100800
  | .SFU_MODE => 0x110080
  | .SFU_STATUS => 0x110100
  | .SFU_FAULT_INFO => 0x110180
  | .SFU_ECC_COUNT => 0x110200
  | .SFU_TABLE_CRC => 0x110280
  | .KVM_DOORBELL => 0xa0020
  | .KVM_STATUS => 0xa0000
  | .KVM_POLICY => 0xa0040
  | .KVM_DECAY => 0xa0060
  | .KVM_POOL_FREE => 0xa0100
  | .KVM_POOL_DRAIN => 0xa0180
  | .KVM_BAD_FREE_COUNT => 0xa0080
  | .KVM_BAD_FREE_INFO => 0xa00a0
  | .KVM_MIGRATE_STATUS => 0xa00c0
  | .ATT_GROUP_STATUS => 0xb0000
  | .ATT_GROUP_STALE => 0xb0020
  | .RCL_STATUS => 0xc0000
  | .RCL_FAULT_INFO => 0xc0010
  | .RCL_PLOT_FLAGS => 0xc0020
  | .STM_STATUS => 0xe1800
  | .STM_STREAM_STATE => 0xe0000
  | .STM_FAULT_INFO => 0xe0800
  | .STM_REARM_COUNT => 0xe1000
  | .MEM_ECC_COUNT => 0xd2000
  | .MEM_ECC_INFO => 0xd2080
  | .MEM_ECC_ADDR => 0xd2090
  | .MEM_SCRUB_STATUS => 0xd2040
  | .MEM_COLD_SEG => 0xd0000
  | .SDL_TIME_LOW => 0x30000
  | .SDL_TIME_HIGH => 0x30004
  | .SDL_STATUS => 0x30008
  | .SDL_LINK_SYNC => 0x30020
  | .SDL_EVENT_FLAGS => 0x30040
  | .ADM_DOORBELL => 0x40040
  | .ADM_POLICY => 0x40000
  | .ADM_REGION_STATE => 0x40010
  | .ADM_BUDGET_MEM => 0x40060
  | .ADM_BUDGET_NET => 0x40080
  | .ADM_REFUSE_COUNT => 0x400a0
  | .ADM_ABORT_COUNT => 0x400c0
  | .LNK_STATUS => 0x60000
  | .LNK_CONTROL => 0x60020
  | .LNK_PEER => 0x60040
  | .LNK_COORD => 0x600a0
  | .LNK_CRC_COUNT => 0x60060
  | .LNK_RETRY_COUNT => 0x60080
  | .LNK_PLOT_WEIGHT => 0x600c0
  | .COL_STATUS => 0x81800
  | .COL_COUNTER => 0x80000
  | .COL_TRIGGER => 0x81820
  | .COL_GROUP_INFO => 0x81400
  | .COL_CHAIN_STATE => 0x81000
  | .COL_ERROR_INFO => 0x81840
  | .COL_ERROR_OP => 0x81860
  | .COL_DROP_COUNT => 0x81880
  | .COL_OVERFLOW_COUNT => 0x818a0
  | .FLD_STATUS => 0x70000
  | .FLD_CONTROL => 0x70010
  | .FLD_PTP_STATUS => 0x70040
  | .FLD_RETX_COUNT => 0x70020
  | .FLD_DROP_COUNT => 0x70030
  | .PLT_STATE => 0x90000
  | .PLT_BLOCKS => 0x90020
  | .PLT_PENDING => 0x90040
  | .BOOT_STATUS => 0x10000
  | .BOOT_NVM => 0x10004
  | .BOOT_CONTROL => 0x10008
  | .BOOT_IMAGE_LOW => 0x10010
  | .BOOT_IMAGE_HIGH => 0x10014
  | .BOOT_IMAGE_SIZE => 0x10018
  | .BOOT_SUNDIAL_LOW => 0x10020
  | .BOOT_SUNDIAL_HIGH => 0x10024
  | .HUB_HEARTBEAT => 0x4
  | .HUB_WATCH => 0x8
  | .HUB_GENERATION => 0xc
  | .RGN_GENERATION => 0x120000
  | .BLK_GENERATION => 0x110000
  | .SAFE_STATUS => 0x20000
  | .SAFE_RESET => 0x20004
  | .SAFE_CONTROL => 0x20008
  | .SAFE_RESET_INFO => 0x2000c
  | .SAFE_HARVEST => 0x20010
  | .SAFE_STALE_COUNT => 0x20014
  | .HUB_LOG_LOST => 0x10
  | .HUB_LOCK_VIOL => 0x14
  | .HUB_PRIV_LOCK => 0x18
  | .HUB_CONFIG_CRC => 0x20
  | .HUB_CONFIG_REF => 0x24
  | .HUB_CONFIG_STATUS => 0x28
  | .HUB_MBOX_CMD => 0x100
  | .HUB_MBOX_DOORBELL => 0x140
  | .HUB_MBOX_RESULT => 0x150
  | .HUB_MBOX_STATUS => 0x160
  | .PWR_REGION_CAP => 0x50000
  | .PWR_STATE => 0x50100
  | .PWR_CONTROL => 0x50104
  | .PWR_CHIP_POWER => 0x50108
  | .PWR_REGION_POWER => 0x50110
  | .PWR_DROOP_COUNT => 0x50120
  | .PWR_RAIL_STATUS => 0x50130
  | .PWR_GRAFT => 0x50134
  | .TMP_STATUS => 0x50180
  | .TMP_SENSOR => 0x50200

/-- Number of instances. -/
def Reg.count : Reg → Nat
  | .CEL_SFU_WEIGHT => 512
  | .CEL_NUM_STATUS => 512
  | .CEL_ISSUE_QUANTUM => 512
  | .CEL_STATE => 512
  | .CEL_FAULT_INFO => 512
  | .SFU_MODE => 32
  | .SFU_STATUS => 32
  | .SFU_FAULT_INFO => 32
  | .SFU_ECC_COUNT => 32
  | .SFU_TABLE_CRC => 32
  | .KVM_DOORBELL => 8
  | .KVM_STATUS => 1
  | .KVM_POLICY => 8
  | .KVM_DECAY => 8
  | .KVM_POOL_FREE => 32
  | .KVM_POOL_DRAIN => 32
  | .KVM_BAD_FREE_COUNT => 8
  | .KVM_BAD_FREE_INFO => 8
  | .KVM_MIGRATE_STATUS => 8
  | .ATT_GROUP_STATUS => 8
  | .ATT_GROUP_STALE => 8
  | .RCL_STATUS => 4
  | .RCL_FAULT_INFO => 4
  | .RCL_PLOT_FLAGS => 8
  | .STM_STATUS => 64
  | .STM_STREAM_STATE => 512
  | .STM_FAULT_INFO => 512
  | .STM_REARM_COUNT => 512
  | .MEM_ECC_COUNT => 12
  | .MEM_ECC_INFO => 4
  | .MEM_ECC_ADDR => 4
  | .MEM_SCRUB_STATUS => 12
  | .MEM_COLD_SEG => 2048
  | .SDL_TIME_LOW => 1
  | .SDL_TIME_HIGH => 1
  | .SDL_STATUS => 1
  | .SDL_LINK_SYNC => 6
  | .SDL_EVENT_FLAGS => 8
  | .ADM_DOORBELL => 8
  | .ADM_POLICY => 1
  | .ADM_REGION_STATE => 4
  | .ADM_BUDGET_MEM => 8
  | .ADM_BUDGET_NET => 8
  | .ADM_REFUSE_COUNT => 8
  | .ADM_ABORT_COUNT => 8
  | .LNK_STATUS => 6
  | .LNK_CONTROL => 6
  | .LNK_PEER => 6
  | .LNK_COORD => 1
  | .LNK_CRC_COUNT => 6
  | .LNK_RETRY_COUNT => 6
  | .LNK_PLOT_WEIGHT => 8
  | .COL_STATUS => 4
  | .COL_COUNTER => 1024
  | .COL_TRIGGER => 8
  | .COL_GROUP_INFO => 256
  | .COL_CHAIN_STATE => 256
  | .COL_ERROR_INFO => 8
  | .COL_ERROR_OP => 8
  | .COL_DROP_COUNT => 8
  | .COL_OVERFLOW_COUNT => 8
  | .FLD_STATUS => 2
  | .FLD_CONTROL => 2
  | .FLD_PTP_STATUS => 1
  | .FLD_RETX_COUNT => 2
  | .FLD_DROP_COUNT => 2
  | .PLT_STATE => 8
  | .PLT_BLOCKS => 8
  | .PLT_PENDING => 8
  | .BOOT_STATUS => 1
  | .BOOT_NVM => 1
  | .BOOT_CONTROL => 1
  | .BOOT_IMAGE_LOW => 1
  | .BOOT_IMAGE_HIGH => 1
  | .BOOT_IMAGE_SIZE => 1
  | .BOOT_SUNDIAL_LOW => 1
  | .BOOT_SUNDIAL_HIGH => 1
  | .HUB_HEARTBEAT => 1
  | .HUB_WATCH => 1
  | .HUB_GENERATION => 1
  | .RGN_GENERATION => 4
  | .BLK_GENERATION => 32
  | .SAFE_STATUS => 1
  | .SAFE_RESET => 1
  | .SAFE_CONTROL => 1
  | .SAFE_RESET_INFO => 1
  | .SAFE_HARVEST => 1
  | .SAFE_STALE_COUNT => 1
  | .HUB_LOG_LOST => 1
  | .HUB_LOCK_VIOL => 1
  | .HUB_PRIV_LOCK => 1
  | .HUB_CONFIG_CRC => 1
  | .HUB_CONFIG_REF => 1
  | .HUB_CONFIG_STATUS => 1
  | .HUB_MBOX_CMD => 16
  | .HUB_MBOX_DOORBELL => 1
  | .HUB_MBOX_RESULT => 4
  | .HUB_MBOX_STATUS => 1
  | .PWR_REGION_CAP => 4
  | .PWR_STATE => 1
  | .PWR_CONTROL => 1
  | .PWR_CHIP_POWER => 1
  | .PWR_REGION_POWER => 4
  | .PWR_DROOP_COUNT => 4
  | .PWR_RAIL_STATUS => 1
  | .PWR_GRAFT => 1
  | .TMP_STATUS => 1
  | .TMP_SENSOR => 36

/-- The field map: lowest bit, width, access, PV prefix and reset value of each field that is not reserved. Fields whose reset
is "seedbed" or "strap" start at zero (R386, R375). -/
def Reg.fields : Reg → List FieldSpec
  | .CEL_SFU_WEIGHT => [⟨0, 4, .rw, false, 1⟩]
  | .CEL_NUM_STATUS => [⟨7, 1, .rc, false, 0⟩, ⟨6, 1, .rc, false, 0⟩, ⟨5, 1, .rc, false, 0⟩, ⟨4, 1, .rc, false, 0⟩, ⟨3, 1, .rc, false, 0⟩, ⟨2, 1, .rc, false, 0⟩, ⟨1, 1, .rc, false, 0⟩, ⟨0, 1, .rc, false, 0⟩]
  | .CEL_ISSUE_QUANTUM => [⟨0, 16, .rw, false, 4096⟩]
  | .CEL_STATE => [⟨16, 16, .ro, false, 0⟩, ⟨8, 3, .ro, false, 0⟩, ⟨0, 4, .ro, false, 0⟩]
  | .CEL_FAULT_INFO => [⟨31, 1, .rc, false, 0⟩, ⟨30, 1, .rc, false, 0⟩, ⟨8, 16, .ro, false, 0⟩, ⟨0, 8, .ro, false, 0⟩]
  | .SFU_MODE => [⟨31, 1, .wo, true, 0⟩, ⟨4, 4, .ro, true, 0⟩, ⟨0, 1, .rw, true, 0⟩]
  | .SFU_STATUS => [⟨4, 1, .ro, false, 0⟩, ⟨0, 4, .ro, false, 0⟩]
  | .SFU_FAULT_INFO => [⟨31, 1, .rc, false, 0⟩, ⟨30, 1, .rc, false, 0⟩, ⟨24, 4, .ro, false, 0⟩, ⟨20, 4, .ro, false, 0⟩, ⟨0, 16, .ro, false, 0⟩]
  | .SFU_ECC_COUNT => [⟨0, 32, .rc, false, 0⟩]
  | .SFU_TABLE_CRC => [⟨0, 32, .ro, true, 0⟩]
  | .KVM_DOORBELL => [⟨0, 12, .wo, false, 0⟩]
  | .KVM_STATUS => [⟨12, 8, .ro, true, 0⟩, ⟨4, 8, .ro, true, 0⟩, ⟨0, 4, .ro, true, 0⟩]
  | .KVM_POLICY => [⟨31, 1, .rw, true, 0⟩, ⟨30, 1, .rw, true, 0⟩, ⟨29, 1, .rw, true, 0⟩, ⟨24, 3, .rw, true, 0⟩, ⟨16, 8, .rw, true, 0⟩, ⟨8, 8, .rw, true, 0⟩, ⟨0, 8, .rw, true, 0⟩]
  | .KVM_DECAY => [⟨0, 32, .rw, true, 0⟩]
  | .KVM_POOL_FREE => [⟨0, 32, .ro, false, 0⟩]
  | .KVM_POOL_DRAIN => [⟨0, 32, .ro, false, 0⟩]
  | .KVM_BAD_FREE_COUNT => [⟨0, 32, .rc, false, 0⟩]
  | .KVM_BAD_FREE_INFO => [⟨31, 1, .rc, false, 0⟩, ⟨30, 1, .rc, false, 0⟩, ⟨24, 4, .ro, false, 0⟩, ⟨20, 4, .ro, false, 0⟩, ⟨0, 20, .ro, false, 0⟩]
  | .KVM_MIGRATE_STATUS => [⟨20, 12, .ro, false, 0⟩, ⟨17, 3, .ro, false, 0⟩, ⟨7, 7, .ro, false, 0⟩, ⟨0, 7, .ro, false, 0⟩]
  | .ATT_GROUP_STATUS => [⟨25, 1, .rc, false, 0⟩, ⟨24, 1, .rc, false, 0⟩, ⟨16, 8, .ro, false, 0⟩]
  | .ATT_GROUP_STALE => [⟨0, 32, .rc, false, 0⟩]
  | .RCL_STATUS => [⟨21, 3, .ro, true, 0⟩, ⟨8, 12, .ro, true, 0⟩, ⟨0, 4, .ro, true, 0⟩]
  | .RCL_FAULT_INFO => [⟨31, 1, .rc, true, 0⟩, ⟨30, 1, .rc, true, 0⟩, ⟨24, 4, .ro, true, 0⟩, ⟨21, 3, .ro, true, 0⟩, ⟨0, 16, .ro, true, 0⟩]
  | .RCL_PLOT_FLAGS => [⟨5, 1, .rc, false, 0⟩, ⟨4, 1, .rc, false, 0⟩, ⟨3, 1, .rc, false, 0⟩, ⟨2, 1, .rc, false, 0⟩, ⟨1, 1, .rc, false, 0⟩, ⟨0, 1, .rc, false, 0⟩]
  | .STM_STATUS => [⟨8, 4, .ro, true, 0⟩, ⟨0, 4, .ro, true, 0⟩]
  | .STM_STREAM_STATE => [⟨29, 3, .ro, false, 0⟩, ⟨18, 6, .ro, false, 0⟩, ⟨8, 4, .ro, false, 0⟩, ⟨0, 4, .ro, false, 0⟩]
  | .STM_FAULT_INFO => [⟨31, 1, .rc, false, 0⟩, ⟨30, 1, .rc, false, 0⟩, ⟨24, 4, .ro, false, 0⟩, ⟨18, 6, .ro, false, 0⟩, ⟨0, 16, .ro, false, 0⟩]
  | .STM_REARM_COUNT => [⟨16, 16, .rc, false, 0⟩, ⟨0, 16, .ro, false, 0⟩]
  | .MEM_ECC_COUNT => [⟨0, 32, .rc, true, 0⟩]
  | .MEM_ECC_INFO => [⟨31, 1, .rc, true, 0⟩, ⟨30, 1, .rc, true, 0⟩, ⟨28, 2, .ro, true, 0⟩, ⟨26, 2, .ro, true, 0⟩, ⟨25, 1, .ro, true, 0⟩, ⟨24, 1, .ro, true, 0⟩, ⟨16, 4, .ro, true, 0⟩]
  | .MEM_ECC_ADDR => [⟨0, 32, .ro, true, 0⟩]
  | .MEM_SCRUB_STATUS => [⟨16, 16, .ro, true, 0⟩, ⟨9, 1, .rc, true, 0⟩, ⟨8, 1, .ro, true, 0⟩, ⟨0, 8, .ro, true, 0⟩]
  | .MEM_COLD_SEG => [⟨31, 1, .rw, true, 0⟩, ⟨0, 31, .rw, true, 0⟩]
  | .SDL_TIME_LOW => [⟨0, 32, .ro, false, 0⟩]
  | .SDL_TIME_HIGH => [⟨0, 32, .ro, false, 0⟩]
  | .SDL_STATUS => [⟨24, 8, .rw, true, 0⟩, ⟨20, 1, .ro, false, 0⟩, ⟨19, 1, .ro, false, 0⟩, ⟨16, 3, .ro, false, 7⟩, ⟨8, 8, .ro, false, 255⟩, ⟨0, 3, .ro, false, 0⟩]
  | .SDL_LINK_SYNC => [⟨24, 4, .ro, false, 0⟩, ⟨8, 16, .ro, false, 0⟩, ⟨0, 3, .ro, false, 0⟩]
  | .SDL_EVENT_FLAGS => [⟨2, 1, .rc, false, 0⟩, ⟨1, 1, .rc, false, 0⟩, ⟨0, 1, .rc, false, 0⟩]
  | .ADM_DOORBELL => [⟨0, 12, .wo, false, 0⟩]
  | .ADM_POLICY => [⟨24, 8, .rw, true, 0⟩, ⟨16, 8, .rw, true, 0⟩, ⟨0, 1, .ro, true, 0⟩]
  | .ADM_REGION_STATE => [⟨31, 1, .ro, false, 0⟩, ⟨30, 1, .ro, false, 0⟩, ⟨16, 4, .ro, false, 15⟩, ⟨8, 8, .ro, false, 0⟩]
  | .ADM_BUDGET_MEM => [⟨24, 8, .rw, true, 0⟩, ⟨16, 8, .rw, true, 0⟩, ⟨8, 8, .rw, true, 0⟩, ⟨0, 8, .rw, true, 0⟩]
  | .ADM_BUDGET_NET => [⟨24, 8, .rw, true, 0⟩, ⟨16, 8, .rw, true, 0⟩, ⟨8, 8, .rw, true, 0⟩]
  | .ADM_REFUSE_COUNT => [⟨0, 32, .rc, false, 0⟩]
  | .ADM_ABORT_COUNT => [⟨0, 32, .rc, false, 0⟩]
  | .LNK_STATUS => [⟨16, 16, .ro, false, 0⟩, ⟨12, 4, .ro, false, 0⟩, ⟨8, 2, .ro, false, 0⟩, ⟨4, 3, .ro, false, 0⟩, ⟨0, 4, .ro, false, 0⟩]
  | .LNK_CONTROL => [⟨31, 1, .wo, true, 0⟩, ⟨30, 1, .wo, true, 0⟩, ⟨0, 1, .rw, true, 0⟩]
  | .LNK_PEER => [⟨16, 16, .ro, false, 65535⟩, ⟨8, 8, .ro, false, 0⟩, ⟨0, 8, .ro, false, 0⟩]
  | .LNK_COORD => [⟨30, 2, .ro, false, 0⟩, ⟨29, 1, .ro, false, 0⟩, ⟨0, 13, .ro, false, 0⟩]
  | .LNK_CRC_COUNT => [⟨0, 32, .rc, false, 0⟩]
  | .LNK_RETRY_COUNT => [⟨0, 32, .rc, false, 0⟩]
  | .LNK_PLOT_WEIGHT => [⟨24, 4, .rw, true, 0⟩, ⟨20, 4, .rw, true, 0⟩, ⟨16, 4, .rw, true, 0⟩, ⟨12, 4, .rw, true, 0⟩, ⟨8, 4, .rw, true, 0⟩, ⟨4, 4, .rw, true, 0⟩, ⟨0, 4, .rw, true, 0⟩]
  | .COL_STATUS => [⟨16, 6, .ro, true, 0⟩, ⟨8, 7, .ro, true, 0⟩, ⟨0, 4, .ro, true, 0⟩]
  | .COL_COUNTER => [⟨31, 1, .rc, false, 0⟩, ⟨0, 16, .ro, false, 0⟩]
  | .COL_TRIGGER => [⟨10, 4, .wo, false, 0⟩, ⟨0, 10, .wo, false, 0⟩]
  | .COL_GROUP_INFO => [⟨18, 14, .ro, false, 0⟩, ⟨5, 13, .ro, false, 0⟩, ⟨1, 4, .ro, false, 0⟩, ⟨0, 1, .ro, false, 0⟩]
  | .COL_CHAIN_STATE => [⟨29, 3, .ro, false, 0⟩, ⟨22, 3, .ro, false, 0⟩, ⟨16, 6, .ro, false, 0⟩, ⟨8, 6, .ro, false, 0⟩, ⟨0, 4, .ro, false, 0⟩]
  | .COL_ERROR_INFO => [⟨31, 1, .rc, false, 0⟩, ⟨30, 1, .rc, false, 0⟩, ⟨26, 4, .ro, false, 0⟩, ⟨16, 8, .ro, false, 0⟩, ⟨0, 13, .ro, false, 0⟩]
  | .COL_ERROR_OP => [⟨24, 8, .ro, false, 0⟩, ⟨0, 16, .ro, false, 0⟩]
  | .COL_DROP_COUNT => [⟨0, 32, .rc, false, 0⟩]
  | .COL_OVERFLOW_COUNT => [⟨0, 32, .rc, false, 0⟩]
  | .FLD_STATUS => [⟨8, 8, .ro, false, 0⟩, ⟨4, 2, .ro, false, 0⟩, ⟨0, 4, .ro, false, 0⟩]
  | .FLD_CONTROL => [⟨31, 1, .wo, true, 0⟩, ⟨2, 1, .rw, true, 0⟩, ⟨0, 2, .rw, true, 0⟩]
  | .FLD_PTP_STATUS => [⟨31, 1, .ro, true, 0⟩, ⟨30, 1, .ro, true, 0⟩, ⟨0, 16, .ro, true, 0⟩]
  | .FLD_RETX_COUNT => [⟨0, 32, .rc, false, 0⟩]
  | .FLD_DROP_COUNT => [⟨0, 32, .rc, false, 0⟩]
  | .PLT_STATE => [⟨16, 1, .ro, false, 0⟩, ⟨8, 8, .ro, false, 0⟩, ⟨0, 3, .ro, false, 0⟩]
  | .PLT_BLOCKS => [⟨0, 32, .ro, false, 0⟩]
  | .PLT_PENDING => [⟨0, 32, .ro, false, 0⟩]
  | .BOOT_STATUS => [⟨28, 4, .ro, false, 0⟩, ⟨27, 1, .ro, false, 0⟩, ⟨26, 1, .ro, false, 0⟩, ⟨25, 1, .ro, false, 0⟩, ⟨24, 1, .ro, false, 0⟩, ⟨16, 8, .ro, false, 0⟩, ⟨8, 8, .ro, false, 0⟩, ⟨0, 8, .ro, false, 0⟩]
  | .BOOT_NVM => [⟨31, 1, .ro, false, 0⟩, ⟨16, 4, .ro, false, 0⟩, ⟨8, 8, .ro, false, 0⟩, ⟨0, 4, .ro, false, 0⟩]
  | .BOOT_CONTROL => [⟨31, 1, .wo, true, 0⟩, ⟨30, 1, .wo, true, 0⟩, ⟨1, 1, .rw, true, 0⟩, ⟨0, 1, .rw, true, 0⟩]
  | .BOOT_IMAGE_LOW => [⟨0, 32, .rw, true, 0⟩]
  | .BOOT_IMAGE_HIGH => [⟨0, 32, .rw, true, 0⟩]
  | .BOOT_IMAGE_SIZE => [⟨0, 32, .rw, true, 0⟩]
  | .BOOT_SUNDIAL_LOW => [⟨0, 32, .rw, true, 0⟩]
  | .BOOT_SUNDIAL_HIGH => [⟨0, 32, .rw, true, 0⟩]
  | .HUB_HEARTBEAT => [⟨0, 32, .ro, false, 0⟩]
  | .HUB_WATCH => [⟨5, 1, .ro, false, 0⟩, ⟨4, 1, .ro, false, 0⟩, ⟨0, 4, .ro, false, 0⟩]
  | .HUB_GENERATION => [⟨0, 16, .ro, false, 0⟩]
  | .RGN_GENERATION => [⟨0, 16, .ro, false, 0⟩]
  | .BLK_GENERATION => [⟨0, 16, .ro, false, 0⟩]
  | .SAFE_STATUS => [⟨28, 4, .ro, true, 0⟩, ⟨24, 4, .ro, true, 0⟩, ⟨20, 4, .ro, true, 0⟩, ⟨18, 2, .ro, true, 0⟩, ⟨12, 4, .ro, true, 0⟩, ⟨8, 3, .ro, true, 0⟩, ⟨0, 8, .ro, true, 0⟩]
  | .SAFE_RESET => [⟨29, 3, .wo, true, 0⟩, ⟨16, 8, .wo, true, 0⟩, ⟨0, 9, .wo, true, 0⟩]
  | .SAFE_CONTROL => [⟨31, 1, .wo, true, 0⟩, ⟨0, 4, .wo, true, 0⟩]
  | .SAFE_RESET_INFO => [⟨31, 1, .rc, true, 0⟩, ⟨30, 1, .rc, true, 0⟩, ⟨29, 1, .ro, true, 0⟩, ⟨28, 1, .ro, true, 0⟩, ⟨25, 3, .ro, true, 0⟩, ⟨16, 8, .ro, true, 0⟩, ⟨0, 9, .ro, true, 0⟩]
  | .SAFE_HARVEST => [⟨16, 16, .rc, true, 0⟩, ⟨4, 2, .ro, true, 0⟩, ⟨0, 4, .ro, true, 0⟩]
  | .SAFE_STALE_COUNT => [⟨0, 32, .rc, true, 0⟩]
  | .HUB_LOG_LOST => [⟨0, 32, .ro, true, 0⟩]
  | .HUB_LOCK_VIOL => [⟨31, 1, .rc, true, 0⟩, ⟨30, 1, .rc, true, 0⟩, ⟨28, 2, .ro, true, 0⟩, ⟨25, 3, .ro, true, 0⟩, ⟨0, 25, .ro, true, 0⟩]
  | .HUB_PRIV_LOCK => [⟨0, 1, .w1l, true, 0⟩]
  | .HUB_CONFIG_CRC => [⟨0, 32, .ro, true, 0⟩]
  | .HUB_CONFIG_REF => [⟨0, 32, .w1l, true, 0⟩]
  | .HUB_CONFIG_STATUS => [⟨31, 1, .rc, true, 0⟩, ⟨30, 1, .ro, true, 0⟩, ⟨0, 16, .ro, true, 0⟩]
  | .HUB_MBOX_CMD => [⟨0, 32, .rw, true, 0⟩]
  | .HUB_MBOX_DOORBELL => [⟨31, 1, .wo, true, 0⟩]
  | .HUB_MBOX_RESULT => [⟨0, 32, .ro, true, 0⟩]
  | .HUB_MBOX_STATUS => [⟨31, 1, .ro, true, 0⟩, ⟨30, 1, .rc, true, 0⟩, ⟨29, 1, .rc, true, 0⟩, ⟨0, 16, .ro, true, 0⟩]
  | .PWR_REGION_CAP => [⟨0, 16, .rw, true, 0⟩]
  | .PWR_STATE => [⟨28, 4, .ro, false, 0⟩, ⟨27, 1, .ro, false, 0⟩, ⟨8, 16, .ro, false, 10000⟩, ⟨0, 4, .ro, false, 0⟩]
  | .PWR_CONTROL => [⟨31, 1, .wo, true, 0⟩, ⟨30, 1, .wo, true, 0⟩]
  | .PWR_CHIP_POWER => [⟨16, 16, .ro, false, 0⟩, ⟨0, 16, .rc, false, 0⟩]
  | .PWR_REGION_POWER => [⟨16, 16, .ro, false, 0⟩, ⟨12, 4, .ro, false, 15⟩, ⟨0, 2, .ro, false, 0⟩]
  | .PWR_DROOP_COUNT => [⟨16, 16, .rc, false, 0⟩, ⟨0, 16, .rc, false, 0⟩]
  | .PWR_RAIL_STATUS => [⟨16, 16, .rc, false, 0⟩, ⟨0, 16, .rc, false, 0⟩]
  | .PWR_GRAFT => [⟨16, 16, .ro, false, 0⟩, ⟨0, 16, .ro, false, 0⟩]
  | .TMP_STATUS => [⟨31, 1, .ro, false, 0⟩, ⟨30, 1, .ro, false, 0⟩, ⟨16, 8, .ro, false, 0⟩, ⟨8, 8, .ro, false, 0⟩]
  | .TMP_SENSOR => [⟨0, 16, .ro, false, 0⟩]

/-- The value of a register at reset: its fields' reset values, reserved bits zero. -/
def Reg.reset (r : Reg) : Nat := r.fields.foldl (fun a f => a + f.reset * 2 ^ f.lo) 0

/-- The key of an instance in the register file: its word offset in the view. -/
def Reg.key (r : Reg) (i : Nat) : Nat := r.offset / 4 + i

/-- The register instance at a word offset, if one lies there (R435). -/
def Reg.atKey (k : Nat) : Option (Reg × Nat) :=
  (Reg.all.find? fun r => decide (r.offset / 4 ≤ k) && decide (k < r.offset / 4 + r.count)).map
    fun r => (r, k - r.offset / 4)

/-- What an unlisted key of the register file holds: the register's reset value. -/
def regReset (k : Nat) : W32 :=
  match Reg.atKey k with
  | some (r, _) => BitVec.ofNat 32 r.reset
  | none => 0

namespace Fld
def CEL_SFU_WEIGHT_WEIGHT : Fld := ⟨.CEL_SFU_WEIGHT, 0, 4⟩
def CEL_NUM_STATUS_SCALE_NAN : Fld := ⟨.CEL_NUM_STATUS, 7, 1⟩
def CEL_NUM_STATUS_INVALID : Fld := ⟨.CEL_NUM_STATUS, 6, 1⟩
def CEL_NUM_STATUS_NAN_IN : Fld := ⟨.CEL_NUM_STATUS, 5, 1⟩
def CEL_NUM_STATUS_UNDER : Fld := ⟨.CEL_NUM_STATUS, 4, 1⟩
def CEL_NUM_STATUS_RANGE_ACC : Fld := ⟨.CEL_NUM_STATUS, 3, 1⟩
def CEL_NUM_STATUS_RANGE_EXP : Fld := ⟨.CEL_NUM_STATUS, 2, 1⟩
def CEL_NUM_STATUS_RANGE_CVT : Fld := ⟨.CEL_NUM_STATUS, 1, 1⟩
def CEL_NUM_STATUS_INT_SAT : Fld := ⟨.CEL_NUM_STATUS, 0, 1⟩
def CEL_ISSUE_QUANTUM_QUANTUM : Fld := ⟨.CEL_ISSUE_QUANTUM, 0, 16⟩
def CEL_STATE_GENERATION : Fld := ⟨.CEL_STATE, 16, 16⟩
def CEL_STATE_HOLDER : Fld := ⟨.CEL_STATE, 8, 3⟩
def CEL_STATE_STATE : Fld := ⟨.CEL_STATE, 0, 4⟩
def CEL_FAULT_INFO_VALID : Fld := ⟨.CEL_FAULT_INFO, 31, 1⟩
def CEL_FAULT_INFO_OVERRUN : Fld := ⟨.CEL_FAULT_INFO, 30, 1⟩
def CEL_FAULT_INFO_INDEX : Fld := ⟨.CEL_FAULT_INFO, 8, 16⟩
def CEL_FAULT_INFO_CODE : Fld := ⟨.CEL_FAULT_INFO, 0, 8⟩
def SFU_MODE_TEST : Fld := ⟨.SFU_MODE, 31, 1⟩
def SFU_MODE_USER_LOADED : Fld := ⟨.SFU_MODE, 4, 4⟩
def SFU_MODE_COMPAT : Fld := ⟨.SFU_MODE, 0, 1⟩
def SFU_STATUS_COMPAT : Fld := ⟨.SFU_STATUS, 4, 1⟩
def SFU_STATUS_STATE : Fld := ⟨.SFU_STATUS, 0, 4⟩
def SFU_FAULT_INFO_VALID : Fld := ⟨.SFU_FAULT_INFO, 31, 1⟩
def SFU_FAULT_INFO_OVERRUN : Fld := ⟨.SFU_FAULT_INFO, 30, 1⟩
def SFU_FAULT_INFO_KIND : Fld := ⟨.SFU_FAULT_INFO, 24, 4⟩
def SFU_FAULT_INFO_CELL : Fld := ⟨.SFU_FAULT_INFO, 20, 4⟩
def SFU_FAULT_INFO_DETAIL : Fld := ⟨.SFU_FAULT_INFO, 0, 16⟩
def SFU_ECC_COUNT_COUNT : Fld := ⟨.SFU_ECC_COUNT, 0, 32⟩
def SFU_TABLE_CRC_CRC : Fld := ⟨.SFU_TABLE_CRC, 0, 32⟩
def KVM_DOORBELL_TAIL : Fld := ⟨.KVM_DOORBELL, 0, 12⟩
def KVM_STATUS_JOURNAL : Fld := ⟨.KVM_STATUS, 12, 8⟩
def KVM_STATUS_QUEUED : Fld := ⟨.KVM_STATUS, 4, 8⟩
def KVM_STATUS_STATE : Fld := ⟨.KVM_STATUS, 0, 4⟩
def KVM_POLICY_EVICT_EN : Fld := ⟨.KVM_POLICY, 31, 1⟩
def KVM_POLICY_CUT_EN : Fld := ⟨.KVM_POLICY, 30, 1⟩
def KVM_POLICY_SPILL_EN : Fld := ⟨.KVM_POLICY, 29, 1⟩
def KVM_POLICY_CUT_RANK : Fld := ⟨.KVM_POLICY, 24, 3⟩
def KVM_POLICY_FLAT : Fld := ⟨.KVM_POLICY, 16, 8⟩
def KVM_POLICY_HIGH : Fld := ⟨.KVM_POLICY, 8, 8⟩
def KVM_POLICY_LOW : Fld := ⟨.KVM_POLICY, 0, 8⟩
def KVM_DECAY_DECAY : Fld := ⟨.KVM_DECAY, 0, 32⟩
def KVM_POOL_FREE_FREE : Fld := ⟨.KVM_POOL_FREE, 0, 32⟩
def KVM_POOL_DRAIN_DRAIN : Fld := ⟨.KVM_POOL_DRAIN, 0, 32⟩
def KVM_BAD_FREE_COUNT_COUNT : Fld := ⟨.KVM_BAD_FREE_COUNT, 0, 32⟩
def KVM_BAD_FREE_INFO_VALID : Fld := ⟨.KVM_BAD_FREE_INFO, 31, 1⟩
def KVM_BAD_FREE_INFO_OVERRUN : Fld := ⟨.KVM_BAD_FREE_INFO, 30, 1⟩
def KVM_BAD_FREE_INFO_KIND : Fld := ⟨.KVM_BAD_FREE_INFO, 24, 4⟩
def KVM_BAD_FREE_INFO_TIER : Fld := ⟨.KVM_BAD_FREE_INFO, 20, 4⟩
def KVM_BAD_FREE_INFO_GRANULE : Fld := ⟨.KVM_BAD_FREE_INFO, 0, 20⟩
def KVM_MIGRATE_STATUS_BATCH : Fld := ⟨.KVM_MIGRATE_STATUS, 20, 12⟩
def KVM_MIGRATE_STATUS_STATE : Fld := ⟨.KVM_MIGRATE_STATUS, 17, 3⟩
def KVM_MIGRATE_STATUS_DONE : Fld := ⟨.KVM_MIGRATE_STATUS, 7, 7⟩
def KVM_MIGRATE_STATUS_COUNT : Fld := ⟨.KVM_MIGRATE_STATUS, 0, 7⟩
def ATT_GROUP_STATUS_CHECK_FAIL : Fld := ⟨.ATT_GROUP_STATUS, 25, 1⟩
def ATT_GROUP_STATUS_DEFERRED : Fld := ⟨.ATT_GROUP_STATUS, 24, 1⟩
def ATT_GROUP_STATUS_ATTEMPT : Fld := ⟨.ATT_GROUP_STATUS, 16, 8⟩
def ATT_GROUP_STALE_COUNT : Fld := ⟨.ATT_GROUP_STALE, 0, 32⟩
def RCL_STATUS_PLOT : Fld := ⟨.RCL_STATUS, 21, 3⟩
def RCL_STATUS_QUEUE : Fld := ⟨.RCL_STATUS, 8, 12⟩
def RCL_STATUS_STATE : Fld := ⟨.RCL_STATUS, 0, 4⟩
def RCL_FAULT_INFO_VALID : Fld := ⟨.RCL_FAULT_INFO, 31, 1⟩
def RCL_FAULT_INFO_OVERRUN : Fld := ⟨.RCL_FAULT_INFO, 30, 1⟩
def RCL_FAULT_INFO_KIND : Fld := ⟨.RCL_FAULT_INFO, 24, 4⟩
def RCL_FAULT_INFO_PLOT : Fld := ⟨.RCL_FAULT_INFO, 21, 3⟩
def RCL_FAULT_INFO_DETAIL : Fld := ⟨.RCL_FAULT_INFO, 0, 16⟩
def RCL_PLOT_FLAGS_MIXED : Fld := ⟨.RCL_PLOT_FLAGS, 5, 1⟩
def RCL_PLOT_FLAGS_REPLAY_DROP : Fld := ⟨.RCL_PLOT_FLAGS, 4, 1⟩
def RCL_PLOT_FLAGS_LATE : Fld := ⟨.RCL_PLOT_FLAGS, 3, 1⟩
def RCL_PLOT_FLAGS_SNAP_RANGE : Fld := ⟨.RCL_PLOT_FLAGS, 2, 1⟩
def RCL_PLOT_FLAGS_TOMB_FULL : Fld := ⟨.RCL_PLOT_FLAGS, 1, 1⟩
def RCL_PLOT_FLAGS_SIDE_FULL : Fld := ⟨.RCL_PLOT_FLAGS, 0, 1⟩
def STM_STATUS_ARMED : Fld := ⟨.STM_STATUS, 8, 4⟩
def STM_STATUS_STATE : Fld := ⟨.STM_STATUS, 0, 4⟩
def STM_STREAM_STATE_PLOT : Fld := ⟨.STM_STREAM_STATE, 29, 3⟩
def STM_STREAM_STATE_INSTR : Fld := ⟨.STM_STREAM_STATE, 18, 6⟩
def STM_STREAM_STATE_DEPTH : Fld := ⟨.STM_STREAM_STATE, 8, 4⟩
def STM_STREAM_STATE_STATE : Fld := ⟨.STM_STREAM_STATE, 0, 4⟩
def STM_FAULT_INFO_VALID : Fld := ⟨.STM_FAULT_INFO, 31, 1⟩
def STM_FAULT_INFO_OVERRUN : Fld := ⟨.STM_FAULT_INFO, 30, 1⟩
def STM_FAULT_INFO_CODE : Fld := ⟨.STM_FAULT_INFO, 24, 4⟩
def STM_FAULT_INFO_INSTR : Fld := ⟨.STM_FAULT_INFO, 18, 6⟩
def STM_FAULT_INFO_DETAIL : Fld := ⟨.STM_FAULT_INFO, 0, 16⟩
def STM_REARM_COUNT_REEMIT : Fld := ⟨.STM_REARM_COUNT, 16, 16⟩
def STM_REARM_COUNT_RUNS : Fld := ⟨.STM_REARM_COUNT, 0, 16⟩
def MEM_ECC_COUNT_COUNT : Fld := ⟨.MEM_ECC_COUNT, 0, 32⟩
def MEM_ECC_INFO_VALID : Fld := ⟨.MEM_ECC_INFO, 31, 1⟩
def MEM_ECC_INFO_OVERRUN : Fld := ⟨.MEM_ECC_INFO, 30, 1⟩
def MEM_ECC_INFO_KIND : Fld := ⟨.MEM_ECC_INFO, 28, 2⟩
def MEM_ECC_INFO_TIER : Fld := ⟨.MEM_ECC_INFO, 26, 2⟩
def MEM_ECC_INFO_SCRUB : Fld := ⟨.MEM_ECC_INFO, 25, 1⟩
def MEM_ECC_INFO_TABLE : Fld := ⟨.MEM_ECC_INFO, 24, 1⟩
def MEM_ECC_INFO_PLOT : Fld := ⟨.MEM_ECC_INFO, 16, 4⟩
def MEM_ECC_ADDR_ADDR : Fld := ⟨.MEM_ECC_ADDR, 0, 32⟩
def MEM_SCRUB_STATUS_PASSES : Fld := ⟨.MEM_SCRUB_STATUS, 16, 16⟩
def MEM_SCRUB_STATUS_LATE : Fld := ⟨.MEM_SCRUB_STATUS, 9, 1⟩
def MEM_SCRUB_STATUS_PROMOTED : Fld := ⟨.MEM_SCRUB_STATUS, 8, 1⟩
def MEM_SCRUB_STATUS_PROGRESS : Fld := ⟨.MEM_SCRUB_STATUS, 0, 8⟩
def MEM_COLD_SEG_VALID : Fld := ⟨.MEM_COLD_SEG, 31, 1⟩
def MEM_COLD_SEG_HOST : Fld := ⟨.MEM_COLD_SEG, 0, 31⟩
def SDL_TIME_LOW_TIME : Fld := ⟨.SDL_TIME_LOW, 0, 32⟩
def SDL_TIME_HIGH_TIME : Fld := ⟨.SDL_TIME_HIGH, 0, 32⟩
def SDL_STATUS_GUARD : Fld := ⟨.SDL_STATUS, 24, 8⟩
def SDL_STATUS_PTP : Fld := ⟨.SDL_STATUS, 20, 1⟩
def SDL_STATUS_ROOT : Fld := ⟨.SDL_STATUS, 19, 1⟩
def SDL_STATUS_PARENT : Fld := ⟨.SDL_STATUS, 16, 3⟩
def SDL_STATUS_DEPTH : Fld := ⟨.SDL_STATUS, 8, 8⟩
def SDL_STATUS_STATE : Fld := ⟨.SDL_STATUS, 0, 3⟩
def SDL_LINK_SYNC_MISSED : Fld := ⟨.SDL_LINK_SYNC, 24, 4⟩
def SDL_LINK_SYNC_U : Fld := ⟨.SDL_LINK_SYNC, 8, 16⟩
def SDL_LINK_SYNC_STATE : Fld := ⟨.SDL_LINK_SYNC, 0, 3⟩
def SDL_EVENT_FLAGS_STEP_ABORT : Fld := ⟨.SDL_EVENT_FLAGS, 2, 1⟩
def SDL_EVENT_FLAGS_UNSYNC : Fld := ⟨.SDL_EVENT_FLAGS, 1, 1⟩
def SDL_EVENT_FLAGS_DEFERRED : Fld := ⟨.SDL_EVENT_FLAGS, 0, 1⟩
def ADM_DOORBELL_TAIL : Fld := ⟨.ADM_DOORBELL, 0, 12⟩
def ADM_POLICY_DROOP_MARGIN : Fld := ⟨.ADM_POLICY, 24, 8⟩
def ADM_POLICY_POWER_RESERVE : Fld := ⟨.ADM_POLICY, 16, 8⟩
def ADM_POLICY_STOPPED : Fld := ⟨.ADM_POLICY, 0, 1⟩
def ADM_REGION_STATE_OUT_OF_SERVICE : Fld := ⟨.ADM_REGION_STATE, 31, 1⟩
def ADM_REGION_STATE_THROTTLE : Fld := ⟨.ADM_REGION_STATE, 30, 1⟩
def ADM_REGION_STATE_KEEP : Fld := ⟨.ADM_REGION_STATE, 16, 4⟩
def ADM_REGION_STATE_POWER : Fld := ⟨.ADM_REGION_STATE, 8, 8⟩
def ADM_BUDGET_MEM_DRAM : Fld := ⟨.ADM_BUDGET_MEM, 24, 8⟩
def ADM_BUDGET_MEM_STACK : Fld := ⟨.ADM_BUDGET_MEM, 16, 8⟩
def ADM_BUDGET_MEM_HOST : Fld := ⟨.ADM_BUDGET_MEM, 8, 8⟩
def ADM_BUDGET_MEM_RCL : Fld := ⟨.ADM_BUDGET_MEM, 0, 8⟩
def ADM_BUDGET_NET_LINK : Fld := ⟨.ADM_BUDGET_NET, 24, 8⟩
def ADM_BUDGET_NET_FIELD : Fld := ⟨.ADM_BUDGET_NET, 16, 8⟩
def ADM_BUDGET_NET_POWER : Fld := ⟨.ADM_BUDGET_NET, 8, 8⟩
def ADM_REFUSE_COUNT_COUNT : Fld := ⟨.ADM_REFUSE_COUNT, 0, 32⟩
def ADM_ABORT_COUNT_COUNT : Fld := ⟨.ADM_ABORT_COUNT, 0, 32⟩
def LNK_STATUS_LANE_FAIL : Fld := ⟨.LNK_STATUS, 16, 16⟩
def LNK_STATUS_FALLOW_REASON : Fld := ⟨.LNK_STATUS, 12, 4⟩
def LNK_STATUS_AXIS : Fld := ⟨.LNK_STATUS, 8, 2⟩
def LNK_STATUS_LANES : Fld := ⟨.LNK_STATUS, 4, 3⟩
def LNK_STATUS_STATE : Fld := ⟨.LNK_STATUS, 0, 4⟩
def LNK_CONTROL_RELEASE : Fld := ⟨.LNK_CONTROL, 31, 1⟩
def LNK_CONTROL_RETRAIN : Fld := ⟨.LNK_CONTROL, 30, 1⟩
def LNK_CONTROL_DISABLE : Fld := ⟨.LNK_CONTROL, 0, 1⟩
def LNK_PEER_CHIP : Fld := ⟨.LNK_PEER, 16, 16⟩
def LNK_PEER_MAJOR : Fld := ⟨.LNK_PEER, 8, 8⟩
def LNK_PEER_MINOR : Fld := ⟨.LNK_PEER, 0, 8⟩
def LNK_COORD_SOURCE : Fld := ⟨.LNK_COORD, 30, 2⟩
def LNK_COORD_HINT_MISMATCH : Fld := ⟨.LNK_COORD, 29, 1⟩
def LNK_COORD_CHIP : Fld := ⟨.LNK_COORD, 0, 13⟩
def LNK_CRC_COUNT_COUNT : Fld := ⟨.LNK_CRC_COUNT, 0, 32⟩
def LNK_RETRY_COUNT_COUNT : Fld := ⟨.LNK_RETRY_COUNT, 0, 32⟩
def LNK_PLOT_WEIGHT_W7 : Fld := ⟨.LNK_PLOT_WEIGHT, 24, 4⟩
def LNK_PLOT_WEIGHT_W6 : Fld := ⟨.LNK_PLOT_WEIGHT, 20, 4⟩
def LNK_PLOT_WEIGHT_W5 : Fld := ⟨.LNK_PLOT_WEIGHT, 16, 4⟩
def LNK_PLOT_WEIGHT_W4 : Fld := ⟨.LNK_PLOT_WEIGHT, 12, 4⟩
def LNK_PLOT_WEIGHT_W3 : Fld := ⟨.LNK_PLOT_WEIGHT, 8, 4⟩
def LNK_PLOT_WEIGHT_W2 : Fld := ⟨.LNK_PLOT_WEIGHT, 4, 4⟩
def LNK_PLOT_WEIGHT_W1 : Fld := ⟨.LNK_PLOT_WEIGHT, 0, 4⟩
def COL_STATUS_INFLIGHT : Fld := ⟨.COL_STATUS, 16, 6⟩
def COL_STATUS_CHAINS : Fld := ⟨.COL_STATUS, 8, 7⟩
def COL_STATUS_STATE : Fld := ⟨.COL_STATUS, 0, 4⟩
def COL_COUNTER_OVERFLOW : Fld := ⟨.COL_COUNTER, 31, 1⟩
def COL_COUNTER_COUNT : Fld := ⟨.COL_COUNTER, 0, 16⟩
def COL_TRIGGER_STEPS : Fld := ⟨.COL_TRIGGER, 10, 4⟩
def COL_TRIGGER_COUNTER : Fld := ⟨.COL_TRIGGER, 0, 10⟩
def COL_GROUP_INFO_N : Fld := ⟨.COL_GROUP_INFO, 18, 14⟩
def COL_GROUP_INFO_SELF : Fld := ⟨.COL_GROUP_INFO, 5, 13⟩
def COL_GROUP_INFO_SITES : Fld := ⟨.COL_GROUP_INFO, 1, 4⟩
def COL_GROUP_INFO_VALID : Fld := ⟨.COL_GROUP_INFO, 0, 1⟩
def COL_CHAIN_STATE_PLOT : Fld := ⟨.COL_CHAIN_STATE, 29, 3⟩
def COL_CHAIN_STATE_INFLIGHT : Fld := ⟨.COL_CHAIN_STATE, 22, 3⟩
def COL_CHAIN_STATE_LENGTH : Fld := ⟨.COL_CHAIN_STATE, 16, 6⟩
def COL_CHAIN_STATE_HEAD : Fld := ⟨.COL_CHAIN_STATE, 8, 6⟩
def COL_CHAIN_STATE_STATE : Fld := ⟨.COL_CHAIN_STATE, 0, 4⟩
def COL_ERROR_INFO_VALID : Fld := ⟨.COL_ERROR_INFO, 31, 1⟩
def COL_ERROR_INFO_OVERRUN : Fld := ⟨.COL_ERROR_INFO, 30, 1⟩
def COL_ERROR_INFO_CAUSE : Fld := ⟨.COL_ERROR_INFO, 26, 4⟩
def COL_ERROR_INFO_GROUP : Fld := ⟨.COL_ERROR_INFO, 16, 8⟩
def COL_ERROR_INFO_ORIGIN : Fld := ⟨.COL_ERROR_INFO, 0, 13⟩
def COL_ERROR_OP_EPOCH : Fld := ⟨.COL_ERROR_OP, 24, 8⟩
def COL_ERROR_OP_OPSEQ : Fld := ⟨.COL_ERROR_OP, 0, 16⟩
def COL_DROP_COUNT_COUNT : Fld := ⟨.COL_DROP_COUNT, 0, 32⟩
def COL_OVERFLOW_COUNT_COUNT : Fld := ⟨.COL_OVERFLOW_COUNT, 0, 32⟩
def FLD_STATUS_OPEN : Fld := ⟨.FLD_STATUS, 8, 8⟩
def FLD_STATUS_MODE : Fld := ⟨.FLD_STATUS, 4, 2⟩
def FLD_STATUS_STATE : Fld := ⟨.FLD_STATUS, 0, 4⟩
def FLD_CONTROL_RETRAIN : Fld := ⟨.FLD_CONTROL, 31, 1⟩
def FLD_CONTROL_DISABLE : Fld := ⟨.FLD_CONTROL, 2, 1⟩
def FLD_CONTROL_MODE : Fld := ⟨.FLD_CONTROL, 0, 2⟩
def FLD_PTP_STATUS_LOCKED : Fld := ⟨.FLD_PTP_STATUS, 31, 1⟩
def FLD_PTP_STATUS_PORT : Fld := ⟨.FLD_PTP_STATUS, 30, 1⟩
def FLD_PTP_STATUS_OFFSET : Fld := ⟨.FLD_PTP_STATUS, 0, 16⟩
def FLD_RETX_COUNT_COUNT : Fld := ⟨.FLD_RETX_COUNT, 0, 32⟩
def FLD_DROP_COUNT_COUNT : Fld := ⟨.FLD_DROP_COUNT, 0, 32⟩
def PLT_STATE_COMPAT : Fld := ⟨.PLT_STATE, 16, 1⟩
def PLT_STATE_BLOCKCOUNT : Fld := ⟨.PLT_STATE, 8, 8⟩
def PLT_STATE_STATE : Fld := ⟨.PLT_STATE, 0, 3⟩
def PLT_BLOCKS_BLOCKS : Fld := ⟨.PLT_BLOCKS, 0, 32⟩
def PLT_PENDING_DRAINING : Fld := ⟨.PLT_PENDING, 0, 32⟩
def BOOT_STATUS_STATE : Fld := ⟨.BOOT_STATUS, 28, 4⟩
def BOOT_STATUS_KIND : Fld := ⟨.BOOT_STATUS, 27, 1⟩
def BOOT_STATUS_SPARSE : Fld := ⟨.BOOT_STATUS, 26, 1⟩
def BOOT_STATUS_DEMOTED : Fld := ⟨.BOOT_STATUS, 25, 1⟩
def BOOT_STATUS_RETAINED : Fld := ⟨.BOOT_STATUS, 24, 1⟩
def BOOT_STATUS_REASON : Fld := ⟨.BOOT_STATUS, 16, 8⟩
def BOOT_STATUS_MAJOR : Fld := ⟨.BOOT_STATUS, 8, 8⟩
def BOOT_STATUS_MINOR : Fld := ⟨.BOOT_STATUS, 0, 8⟩
def BOOT_NVM_OWNED : Fld := ⟨.BOOT_NVM, 31, 1⟩
def BOOT_NVM_STATE : Fld := ⟨.BOOT_NVM, 16, 4⟩
def BOOT_NVM_WAITS : Fld := ⟨.BOOT_NVM, 8, 8⟩
def BOOT_NVM_MODE : Fld := ⟨.BOOT_NVM, 0, 4⟩
def BOOT_CONTROL_GO : Fld := ⟨.BOOT_CONTROL, 31, 1⟩
def BOOT_CONTROL_RESTART : Fld := ⟨.BOOT_CONTROL, 30, 1⟩
def BOOT_CONTROL_FORCE_SPARSE : Fld := ⟨.BOOT_CONTROL, 1, 1⟩
def BOOT_CONTROL_NEXT : Fld := ⟨.BOOT_CONTROL, 0, 1⟩
def BOOT_IMAGE_LOW_ADDR : Fld := ⟨.BOOT_IMAGE_LOW, 0, 32⟩
def BOOT_IMAGE_HIGH_ADDR : Fld := ⟨.BOOT_IMAGE_HIGH, 0, 32⟩
def BOOT_IMAGE_SIZE_SIZE : Fld := ⟨.BOOT_IMAGE_SIZE, 0, 32⟩
def BOOT_SUNDIAL_LOW_VALUE : Fld := ⟨.BOOT_SUNDIAL_LOW, 0, 32⟩
def BOOT_SUNDIAL_HIGH_VALUE : Fld := ⟨.BOOT_SUNDIAL_HIGH, 0, 32⟩
def HUB_HEARTBEAT_COUNT : Fld := ⟨.HUB_HEARTBEAT, 0, 32⟩
def HUB_WATCH_ADMISSION : Fld := ⟨.HUB_WATCH, 5, 1⟩
def HUB_WATCH_CHIP : Fld := ⟨.HUB_WATCH, 4, 1⟩
def HUB_WATCH_OVERDUE : Fld := ⟨.HUB_WATCH, 0, 4⟩
def HUB_GENERATION_TAG : Fld := ⟨.HUB_GENERATION, 0, 16⟩
def RGN_GENERATION_TAG : Fld := ⟨.RGN_GENERATION, 0, 16⟩
def BLK_GENERATION_TAG : Fld := ⟨.BLK_GENERATION, 0, 16⟩
def SAFE_STATUS_STATE : Fld := ⟨.SAFE_STATUS, 28, 4⟩
def SAFE_STATUS_FALLOW_REASON : Fld := ⟨.SAFE_STATUS, 24, 4⟩
def SAFE_STATUS_CHIP_HOUR : Fld := ⟨.SAFE_STATUS, 20, 4⟩
def SAFE_STATUS_CHIP_10S : Fld := ⟨.SAFE_STATUS, 18, 2⟩
def SAFE_STATUS_REGION_OOS : Fld := ⟨.SAFE_STATUS, 12, 4⟩
def SAFE_STATUS_LAST_LEVEL : Fld := ⟨.SAFE_STATUS, 8, 3⟩
def SAFE_STATUS_LAST_CAUSE : Fld := ⟨.SAFE_STATUS, 0, 8⟩
def SAFE_RESET_LEVEL : Fld := ⟨.SAFE_RESET, 29, 3⟩
def SAFE_RESET_CAUSE : Fld := ⟨.SAFE_RESET, 16, 8⟩
def SAFE_RESET_INDEX : Fld := ⟨.SAFE_RESET, 0, 9⟩
def SAFE_CONTROL_RELEASE_CHIP : Fld := ⟨.SAFE_CONTROL, 31, 1⟩
def SAFE_CONTROL_RELEASE_REGION : Fld := ⟨.SAFE_CONTROL, 0, 4⟩
def SAFE_RESET_INFO_VALID : Fld := ⟨.SAFE_RESET_INFO, 31, 1⟩
def SAFE_RESET_INFO_OVERRUN : Fld := ⟨.SAFE_RESET_INFO, 30, 1⟩
def SAFE_RESET_INFO_NOHARVEST : Fld := ⟨.SAFE_RESET_INFO, 29, 1⟩
def SAFE_RESET_INFO_COUNTED : Fld := ⟨.SAFE_RESET_INFO, 28, 1⟩
def SAFE_RESET_INFO_LEVEL : Fld := ⟨.SAFE_RESET_INFO, 25, 3⟩
def SAFE_RESET_INFO_CAUSE : Fld := ⟨.SAFE_RESET_INFO, 16, 8⟩
def SAFE_RESET_INFO_INDEX : Fld := ⟨.SAFE_RESET_INFO, 0, 9⟩
def SAFE_HARVEST_LOST : Fld := ⟨.SAFE_HARVEST, 16, 16⟩
def SAFE_HARVEST_REGION : Fld := ⟨.SAFE_HARVEST, 4, 2⟩
def SAFE_HARVEST_SLOT : Fld := ⟨.SAFE_HARVEST, 0, 4⟩
def SAFE_STALE_COUNT_COUNT : Fld := ⟨.SAFE_STALE_COUNT, 0, 32⟩
def HUB_LOG_LOST_COUNT : Fld := ⟨.HUB_LOG_LOST, 0, 32⟩
def HUB_LOCK_VIOL_VALID : Fld := ⟨.HUB_LOCK_VIOL, 31, 1⟩
def HUB_LOCK_VIOL_OVERRUN : Fld := ⟨.HUB_LOCK_VIOL, 30, 1⟩
def HUB_LOCK_VIOL_AGENT : Fld := ⟨.HUB_LOCK_VIOL, 28, 2⟩
def HUB_LOCK_VIOL_FUNCTION : Fld := ⟨.HUB_LOCK_VIOL, 25, 3⟩
def HUB_LOCK_VIOL_OFFSET : Fld := ⟨.HUB_LOCK_VIOL, 0, 25⟩
def HUB_PRIV_LOCK_DROP : Fld := ⟨.HUB_PRIV_LOCK, 0, 1⟩
def HUB_CONFIG_CRC_CRC : Fld := ⟨.HUB_CONFIG_CRC, 0, 32⟩
def HUB_CONFIG_REF_REF : Fld := ⟨.HUB_CONFIG_REF, 0, 32⟩
def HUB_CONFIG_STATUS_MISMATCH : Fld := ⟨.HUB_CONFIG_STATUS, 31, 1⟩
def HUB_CONFIG_STATUS_COMMITTED : Fld := ⟨.HUB_CONFIG_STATUS, 30, 1⟩
def HUB_CONFIG_STATUS_PASSES : Fld := ⟨.HUB_CONFIG_STATUS, 0, 16⟩
def HUB_MBOX_CMD_WORD : Fld := ⟨.HUB_MBOX_CMD, 0, 32⟩
def HUB_MBOX_DOORBELL_GO : Fld := ⟨.HUB_MBOX_DOORBELL, 31, 1⟩
def HUB_MBOX_RESULT_WORD : Fld := ⟨.HUB_MBOX_RESULT, 0, 32⟩
def HUB_MBOX_STATUS_BUSY : Fld := ⟨.HUB_MBOX_STATUS, 31, 1⟩
def HUB_MBOX_STATUS_DONE : Fld := ⟨.HUB_MBOX_STATUS, 30, 1⟩
def HUB_MBOX_STATUS_REJECTED : Fld := ⟨.HUB_MBOX_STATUS, 29, 1⟩
def HUB_MBOX_STATUS_COUNT : Fld := ⟨.HUB_MBOX_STATUS, 0, 16⟩
def PWR_REGION_CAP_CAP : Fld := ⟨.PWR_REGION_CAP, 0, 16⟩
def PWR_STATE_STATE : Fld := ⟨.PWR_STATE, 28, 4⟩
def PWR_STATE_PEAK : Fld := ⟨.PWR_STATE, 27, 1⟩
def PWR_STATE_ALLOWANCE : Fld := ⟨.PWR_STATE, 8, 16⟩
def PWR_STATE_THROTTLE : Fld := ⟨.PWR_STATE, 0, 4⟩
def PWR_CONTROL_FALLOW_ENTER : Fld := ⟨.PWR_CONTROL, 31, 1⟩
def PWR_CONTROL_FALLOW_EXIT : Fld := ⟨.PWR_CONTROL, 30, 1⟩
def PWR_CHIP_POWER_POWER : Fld := ⟨.PWR_CHIP_POWER, 16, 16⟩
def PWR_CHIP_POWER_MAX : Fld := ⟨.PWR_CHIP_POWER, 0, 16⟩
def PWR_REGION_POWER_POWER : Fld := ⟨.PWR_REGION_POWER, 16, 16⟩
def PWR_REGION_POWER_GOVKEEP : Fld := ⟨.PWR_REGION_POWER, 12, 4⟩
def PWR_REGION_POWER_LEVEL : Fld := ⟨.PWR_REGION_POWER, 0, 2⟩
def PWR_DROOP_COUNT_BEYOND : Fld := ⟨.PWR_DROOP_COUNT, 16, 16⟩
def PWR_DROOP_COUNT_STRETCH : Fld := ⟨.PWR_DROOP_COUNT, 0, 16⟩
def PWR_RAIL_STATUS_LOW : Fld := ⟨.PWR_RAIL_STATUS, 16, 16⟩
def PWR_RAIL_STATUS_HIGH : Fld := ⟨.PWR_RAIL_STATUS, 0, 16⟩
def PWR_GRAFT_STRAP : Fld := ⟨.PWR_GRAFT, 16, 16⟩
def PWR_GRAFT_OUT : Fld := ⟨.PWR_GRAFT, 0, 16⟩
def TMP_STATUS_WARN : Fld := ⟨.TMP_STATUS, 31, 1⟩
def TMP_STATUS_THROTTLE : Fld := ⟨.TMP_STATUS, 30, 1⟩
def TMP_STATUS_SENSOR : Fld := ⟨.TMP_STATUS, 16, 8⟩
def TMP_STATUS_HOTTEST : Fld := ⟨.TMP_STATUS, 8, 8⟩
def TMP_SENSOR_TEMP : Fld := ⟨.TMP_SENSOR, 0, 16⟩
end Fld

end Sys2Proof.Machine
end

