-- ==== Sys2Proof/Machine/Sparse.lean ====
section
/-!
DEFINITION. Sparse maps: a list of (key, value) pairs with keys strictly rising and no entry equal to what an unlisted
key reads as, so that equal maps are equal lists. Memory, the register file and every table of the chip are kept so.
-/

namespace Sys2Proof.Machine

/-- What key `k` reads as: its listed value, else `d k`. -/
def Sparse.get {α : Type} (d : Nat → α) : List (Nat × α) → Nat → α
  | [], k => d k
  | (k', v) :: m, k => if k = k' then v else Sparse.get d m k

/-- Lists `k` with value `v` in place (keys rising), replacing an earlier entry. -/
def Sparse.insert {α : Type} : List (Nat × α) → Nat → α → List (Nat × α)
  | [], k, v => [(k, v)]
  | (k', v') :: m, k, v =>
    if k < k' then (k, v) :: (k', v') :: m
    else if k = k' then (k, v) :: m
    else (k', v') :: Sparse.insert m k v

/-- Removes the entry of `k`. -/
def Sparse.erase {α : Type} : List (Nat × α) → Nat → List (Nat × α)
  | [], _ => []
  | (k', v') :: m, k => if k = k' then m else (k', v') :: Sparse.erase m k

/-- Writes `v` at `k`: the value an unlisted key reads as removes the entry. -/
def Sparse.set {α : Type} [DecidableEq α] (d : Nat → α) (m : List (Nat × α)) (k : Nat) (v : α) : List (Nat × α) :=
  if v = d k then Sparse.erase m k else Sparse.insert m k v

/-- Every listed key is above `k`. -/
def Sparse.above {α : Type} (k : Nat) (m : List (Nat × α)) : Bool := m.all fun e => decide (k < e.1)

/-- The canonical form: keys strictly rising, no entry equal to the unlisted value. -/
def Sparse.wf {α : Type} [DecidableEq α] (d : Nat → α) : List (Nat × α) → Bool
  | [] => true
  | (k, v) :: m => decide (v ≠ d k) && Sparse.above k m && Sparse.wf d m

/-- Tables whose entries are present or absent: the unlisted value is `none`. -/
def Table.get {α : Type} (m : List (Nat × α)) (k : Nat) : Option α := (m.find? fun e => e.1 == k).map (·.2)

/-- Puts an entry into a table. -/
def Table.put {α : Type} (m : List (Nat × α)) (k : Nat) (v : α) : List (Nat × α) := Sparse.insert m k v

/-- Takes an entry out of a table. -/
def Table.del {α : Type} (m : List (Nat × α)) (k : Nat) : List (Nat × α) := Sparse.erase m k

/-- The least key at or above `k` that the table does not list, searched for at most `n` keys. -/
def Table.freeKey {α : Type} (m : List (Nat × α)) : Nat → Nat → Option Nat
  | 0, _ => none
  | n + 1, k => if (Table.get m k).isNone then some k else Table.freeKey m n (k + 1)

end Sys2Proof.Machine
end

