-- ==== Sys2Proof/Machine/State.lean ====
section
/-!
DEFINITION. The state of the block: plain data holding every register and every internal state the manual names, the queue of
waiting commands, and the machine right after reset.
-/

namespace Sys2Proof.Machine
open Sys2Proof

/-- What stops a command with a fault. No command of this block does: an error is always an effect on the state (a fault
register, an abort, an event-log entry). The one constructor answers nothing and is raised by no meaning. -/
inductive Fault where
  | unreachable
  deriving DecidableEq, Repr

/-- What refuses a command. Raised only by the dispatch, for a command that has no meaning yet (safe: nothing runs). -/
inductive Refusal where
  | notModelled (mnemonic : String)
  deriving DecidableEq, Repr

/-! ### Cells, blocks and regions (R15 to R19, R59 to R104) -/

/-- Flags of an accumulator slot's row (R105, R114, R116): bit 0 RANGE_EXP, 1 RANGE_ACC, 2 UNDER, 3 NAN, 4 NOKEY. -/
abbrev SlotStatus := BitVec 5

/-- An accumulator slot (R61): 129 words in the cell accumulator format (unlisted words are +0), its status, and, while a
row keeps it open, the descriptor offset that opened it and the row's dimension (R105). -/
structure Slot where
  words : List (Nat × Nat)
  status : SlotStatus
  desc : Option Nat
  dim : Nat
  deriving DecidableEq, Repr

/-- A 64 × 64 matrix accumulator tile over sixteen slots (R61): an element is listed once its first group sum is in. An
integer tile holds 32-bit two's-complement codes (R42), any other FP32 codes. -/
structure Tile where
  int : Bool
  elems : List (Nat × Nat)
  deriving DecidableEq, Repr

/-- What arms a semaphore pair: a stream (R234) or the NOTIFY field of a chain (R316). -/
inductive PairOwner where
  | stream (i : Nat)
  | chain (c : Nat)
  deriving DecidableEq, Repr

/-- A semaphore pair (R234): depth, counts, what armed it, its task (0 for a chain's pair, armed for every task of the plot), and the tick at which the waiting side became
blocked (R241). -/
structure SemPair where
  depth : Nat
  full : Nat
  empty : Nat
  owner : PairOwner
  task : Nat
  blocked : Option Nat
  lastTake : Option Nat
  deriving DecidableEq, Repr

/-- A range of scratchpad bytes or of slots. -/
structure Range where
  lo : Nat
  len : Nat
  deriving DecidableEq, Repr

/-- The execution units of R64. -/
inductive ExUnit where
  | matrix | vector | sfu
  deriving DecidableEq, Repr

/-- The score area of the descriptor of an ATS (R114): offset, stride, first slot and slots per row. -/
structure ScoreArea where
  sarea : Nat
  sstride : Nat
  slotBase : Nat
  span : Nat
  deriving DecidableEq, Repr

/-- An instruction in flight (R63): its word index, unit, destination ranges in the scratchpad and in the accumulator file
(the scoreboard), fused field (R74), whether its residue check or last result is still due, whether a block merge still owes it its rows (R119), the slots it releases, the flags
its drain carries (R118) and whether its release waits for the drain's acknowledgement. -/
structure InFlight where
  index : Nat
  exUnit : ExUnit
  dst : List Range
  slotDst : List Nat
  fused : Nat
  due : Bool
  merging : Bool
  release : List Nat
  drainFlags : BitVec 4
  deriving DecidableEq, Repr

/-- A special-function instruction at the grant stage (R84): word index, instruction word, vectors granted so far, and
whether it has yielded to a transfer (R68) and the score area it folds into (R114). -/
structure SfnJob where
  index : Nat
  word : W128
  granted : Nat
  yielded : Bool
  fold : Option ScoreArea
  deriving DecidableEq, Repr

/-- A posted drain of a fused instruction (R75): destination ranges, fused field, flags beside the data (R118), slots released
at the acknowledgement. -/
structure Drain where
  ranges : List Range
  fused : Nat
  flags : BitVec 4
  release : List Nat
  deriving DecidableEq, Repr

/-- The transfer ports of R17, in the order in which they are served. -/
inductive Port where
  | chain | fill | drain
  deriving DecidableEq, Repr

/-- A transfer waiting at a port (R65): bytes still to move, tile size, the stream it belongs to, none for a collective's, the number
of the stream's tile it serves, the bytes that a fill or chain transfer brings, by scratchpad offset, and the ranges a drain reads. -/
structure Transfer where
  port : Port
  bytes : Nat
  tile : Nat
  stream : Option Nat
  tileNo : Nat := 0
  load : List (Nat × List Byte) := []
  reads : List Range := []
  deriving DecidableEq, Repr

/-- A cell (R16): running and queued task (R245), program and control state (R64), accumulator file (R61), norm scalar
(R90), the score area of its most recent ATS and the visible scores (R114), the scoreboard (R63), the SFN at the grant stage
(R84), drains (R75), transfers (R65), cycles of the instructions issued since the issue side took the scratchpad and the local time at
which it took it (R66, R69), whether issue has stopped for a hand-over (R66), semaphore pairs (R234), and whether the cell is in reset. -/
structure Cell where
  task : Option Nat
  queued : Option Nat
  ended : Bool
  ibuf : List W128
  next : Nat
  loops : List (Nat × Nat)
  slots : List (Nat × Slot)
  tiles : List (Nat × Tile)
  norm : Option Nat
  scoreArea : Option ScoreArea
  visible : List (Nat × Bool)
  inflight : List InFlight
  sfn : Option SfnJob
  drains : List Drain
  transfers : List Transfer
  held : Nat
  since : Nat
  stopping : Bool
  pairs : List (Nat × SemPair)
  inReset : Bool
  deriving DecidableEq, Repr

/-- A cell with nothing loaded. -/
def Cell.empty : Cell :=
  ⟨none, none, false, [], 0, [], [], [], none, none, [], [], none, [], [], 0, 0, false, [], false⟩

/-- What a vector in the special-function pipeline delivers: result bytes to a scratchpad offset, a sum of squares to a slot,
or the reciprocal root of RMSR (R85, R89, R90). -/
inductive SfnPayload where
  | bytes (dst : Nat) (data : List Byte)
  | squares (slot : Nat) (clear : Bool) (sum : Val)
  | root (dst : Nat) (code : Nat)
  deriving DecidableEq, Repr

/-- A granted vector (R84, R87): the cell within the block, word index, sequence number modulo 16 (R98), whether it is the instruction's
last, payload, flags, and the row statuses its lane masks set, by slot (R114). -/
structure SfnVec where
  cell : Nat
  index : Nat
  seqNo : Nat
  last : Bool
  payload : SfnPayload
  flags : NumFlags
  folds : List (Nat × SlotStatus)
  deriving DecidableEq, Repr

/-- A block merge in progress (R119): buffer offset, bytes, cells of the set, task, row count, dimension, first slot of the
owner, descriptor offset, slices present (by rank, with the row statuses that travel with them) and the owner's word index. -/
structure Merge where
  buf : Nat
  bytes : Nat
  mset : Nat
  task : Nat
  rows : Nat
  dim : Nat
  slot : Nat
  desc : Nat
  slices : List (Nat × List SlotStatus)
  deriving DecidableEq, Repr

/-- A block (R16): special-function pipeline in grant order (R80), the round-robin position of R18 (last granted cell, grants
left in its turn, last granted cell of weight zero), the vector sequence number modulo 16 (R98), user tables (R94: bytes of
header and segments per function), words of the table RAM that hold an error, with whether it can be corrected (R96, R97), merges (R119), mask tiles fetched (R112), the port of the block memory served last, 16 being the region network's (R19), images
loaded (R99), second-failure flag (R100). -/
structure Block where
  pipe : List SfnVec
  turn : Nat
  left : Nat
  zeroTurn : Nat
  seqNo : Nat
  user : List (Nat × List Byte)
  upset : List (Nat × Bool)
  merges : List Merge
  maskTile : List (Nat × List Byte)
  memTurn : Nat
  failures : Nat
  outOfService : Bool
  inReset : Bool
  deriving DecidableEq, Repr

/-- A block right after reset: the round-robins of the unit served cell 15 last, that of the block memory its network port (notes/assumptions/5). -/
def Block.empty : Block := ⟨[], 15, 0, 15, 0, [], [], [], [], 16, 0, false, false⟩

/-! ### Tasks, streams, admission and the sundial (R224 to R293) -/

/-- A binding of an address register to a page descriptor (R230): the descriptor's 64 bytes as a number and the frame's
range. -/
structure PageBind where
  desc : Nat
  base : Nat
  size : Nat
  deriving DecidableEq, Repr

/-- A closed tile of a stream in flight: its number, the bytes in it, its cells, whether its transfers stand at their ports, and the
bytes of it that the engine holds, by offset in the tile. -/
structure OpenTile where
  number : Nat
  bytes : Nat
  cells : List Nat
  sent : Bool
  data : List (Nat × List Byte)
  deriving DecidableEq, Repr

/-- A stream context (R224 to R241): the descriptor's fields (R226), the program captured at arming, address registers with
their bindings (R228, R230), loop stack, program counter, the current tile with the bytes the engine holds of it and the tiles in flight, the index and descriptor
queues (R231, R232), trailer counts (R233), runs (R239), the acknowledged bytes (R237) and the arming number (R403); `touched` lists, by
tile, the local ranges outside its rings that it has written and that are not acknowledged (R247). -/
structure Stream where
  plot : Nat
  task : Nat
  place : Nat
  desc : Nat
  kind : Nat
  sflags : Nat
  tileLog : Nat
  depth : Nat
  semPair : Nat
  firstCell : Nat
  cells : Nat
  indexPlace : Nat
  indexSrc : Option Nat
  ring : Nat
  prog : List Nat
  deadline : Nat
  deadline0 : Nat
  period : Nat
  trailDest : Nat
  maskDest : Nat
  dcount : Nat
  rcount : Nat
  dtable : Nat
  rarm : Nat
  base : List Nat
  areg : List Nat
  bind : List (Nat × PageBind)
  loops : List (Nat × Nat)
  pc : Nat
  moved : Nat
  tile : Nat
  fill : Nat
  taken : Bool
  cur : List (Nat × List Byte)
  touched : List (Nat × Nat × Nat)
  tiles : List OpenTile
  dq : List Nat
  dpos : Nat
  walkDone : Bool
  xq : List Nat
  trailN : List (Nat × Nat)
  trailT : Nat
  page : Option Nat
  run : Nat
  running : Bool
  ended : Bool
  runEnd : Nat
  acked : Nat
  arming : Nat
  armTick : Nat
  promoted : Bool
  deriving DecidableEq, Repr

/-- A request accepted by admission, or waiting for its check (R286 to R289). `claim` lists the claimed units by resource:
0 to 3 bonded DRAM, 4 to 7 stacks, 8 to 13 links, 14 and 15 field ports, 16 host, 17 to 20 retrieval engines, 21 to 24
power. `first` and `last` are the reserved slots; `service` marks a submission of the service pair, which writes no records
to the plot's reply ring. -/
structure Task where
  plot : Nat
  tag : Nat
  noRebase : Bool
  notBefore : Nat
  deadline : Nat
  work : Nat
  linkWork : Nat
  blocks : Nat
  cellMask : Nat
  cells : List Nat
  desc : Nat
  claim : List Nat
  body : TaskBody
  dur : Nat
  start : Nat
  completion : Nat
  first : Nat
  last : Nat
  checking : Bool
  accepted : Bool
  started : Option Nat
  streams : List Nat
  service : Bool
  used : List Nat
  ctx : List (Nat × Stream)
  deriving DecidableEq, Repr

/-- What fires against the sundial (R279). -/
inductive EventKind where
  | taskStart (task : Nat)
  | streamRun (stream : Nat)
  | hop (plot : Nat)
  | collective (chain : Nat)
  | indexSwap (plot index : Nat)
  | snapshot (batch : Nat)
  | write (plot offset value : Nat) (priv : Bool)
  deriving DecidableEq, Repr

/-- An armed event: its tick, arming order, what fires, the task it belongs to. -/
structure Event where
  tick : Nat
  order : Nat
  kind : EventKind
  task : Option Nat
  deriving DecidableEq, Repr

/-- Synchronisation state of one link beside its registers (R273 to R276): recorded path delay and the training delay in 1/128
tick, exchange number, the outstanding request's send time in 1/64 tick, the last request's local time, the local time from which the
ticks since the last good exchange count (R276), consecutive good exchanges in RESYNC, what the partner reported last (root, depth, synced,
PTP, chip), and the local time of the last good exchange itself, none before one (R447). -/
structure LinkSync where
  delay0 : Option Int
  trained : Int
  seqNo : Nat
  sent : Option Nat
  lastSent : Option Nat
  lastGood : Nat
  good : Nat
  partnerRoot : Nat
  partnerDepth : Nat
  partnerSynced : Bool
  partnerPtp : Bool
  partnerChip : Nat
  heard : Bool
  theta : Int
  beat : Option Nat
  deriving DecidableEq, Repr

def LinkSync.empty : LinkSync := ⟨none, 0, 0, none, none, 0, 0, 0, 0xFF, false, false, 0, false, 0, none⟩

/-- A scrubber (R261): start tick of its pass, bytes that remain, promoted, running. Scrubbers are keyed by memory: 0 to 511
scratchpads, 512 to 543 block memories, 544 to 547 bonded DRAM, 548 to 551 stacks. -/
structure Scrubber where
  start : Nat
  remain : Nat
  promoted : Bool
  running : Bool
  next : Nat
  deriving DecidableEq, Repr

def Scrubber.idle : Scrubber := ⟨0, 0, false, false, 0⟩

/-- A reset asked for (R22, R399): level 1 cell, 2 block, 3 region, 4 chip; cause; number; tick of the request; the cell that
detected the fault; the tasks that the fault itself aborted, by number (R404, R414); local time of the request (R23). -/
structure ResetReq where
  level : Nat
  cause : Nat
  index : Nat
  tick : Nat
  cell : Option Nat
  ended : List (Nat × Task)
  asked : Nat
  deriving DecidableEq, Repr

/-- One event-log entry (R420). -/
structure LogEntry where
  seqNo : Nat
  tick : Nat
  plot : Nat
  source : Nat
  code : Nat
  detail : Nat
  deriving DecidableEq, Repr

/-! ### Plots and the key-value manager (R129 to R172, R359 to R372) -/

/-- A plot that is not FREE (R361): the fields of its record and the kept copies of its user tables (R368). Its state, blocks,
policy, budgets and weights live in registers. -/
structure Plot where
  dramBase : List Nat
  dramSize : List Nat
  stackBase : List Nat
  stackSize : List Nat
  coldFirst : Nat
  coldCount : Nat
  poolDram : List Nat
  poolStack : List Nat
  poolHosted : List Nat
  kvmOrder : Nat
  admOrder : Nat
  ctrFirst : Nat
  ctrCount : Nat
  rings : Nat
  recv : Nat
  cutTab : Nat
  sigProj : Nat
  hosts : Nat
  user : List (Nat × List Byte)
  cmdTail : Nat
  admTail : Nat
  deriving DecidableEq, Repr

/-- A granule count of a pool (R149). -/
structure Pool where
  total : Nat
  free : Nat
  page : Nat
  buf : Nat
  table : Nat
  hosted : Nat
  drain : Nat
  deriving DecidableEq, Repr

def Pool.empty : Pool := ⟨0, 0, 0, 0, 0, 0, 0⟩

/-- A frame record (R145), with the epoch that a hosted frame takes when it is sealed and the tick of its allocation (R168, R171). -/
structure Frame where
  generation : Nat
  owner : Nat
  allocated : Bool
  sealed : Bool
  use : Nat
  order : Nat
  epoch : Nat
  newEpoch : Nat
  ownerChip : Nat
  seqNo : Nat
  ownerPlot : Nat
  tick : Nat
  deriving DecidableEq, Repr

/-- A commit that runs (R156, R157): from the tray (`handle` none) or a staging buffer, first offset, count, the completion it
owes (plot command TAG), or the lead chip it answers with that chip's tag as last known (R185); the source's generation, the chip that runs
it where that is not this one, and whether its commit point has passed. Of its scatter stream: the APPEND descriptors, the bytes to write
and those acknowledged, and the data that a lead's tray gave. -/
structure Commit where
  handle : Option Nat
  first : Nat
  count : Nat
  tag : Nat
  lead : Option Nat
  leadTag : Nat
  generation : Nat
  tail : Option Nat
  pointed : Bool
  descs : List Nat
  bytes : Nat
  acked : Nat
  data : List Byte
  deriving DecidableEq, Repr

/-- A commit that a lead forwarded and that waits for the one that runs (R157, R185): the lead's message, the first position, the count, the
tray's GENERATION and its data. -/
structure HeldCommit where
  from' : HostMsg
  pos : Nat
  count : Nat
  generation : Nat
  data : List Byte
  deriving DecidableEq, Repr

/-- A sequence slice (R140 to R142): the arguments of its creation (H heads per group, element counts and codes as given there),
BOUND, the addresses of its directory, seed tray, global area and mass area (R143, R129, R154, R163), the global list, the running
commit, whether its bonded-DRAM state was lost (R391), running MIGRATE batches, its live index (R217) and the commits that wait (R157). -/
structure Seqn where
  base : Nat
  maxSlice : Nat
  pglog : Nat
  layers : Nat
  groups : Nat
  hpg : Nat
  dim : Nat
  kfmt : Nat
  vfmt : Nat
  home : Nat
  wlog : Nat
  lead : Bool
  live : Bool
  gquota : Nat
  bound : Nat
  dir : Nat
  tray : Option Nat
  globals : List (Nat × Nat)
  garea : Option Nat
  mass : Option Nat
  commit : Option Commit
  lost : Bool
  busy : Nat
  liveIndex : Option Nat
  held : List HeldCommit
  deriving DecidableEq, Repr

/-- A journal entry (R169): number, plot, sequence, page, source, old epoch, destination tier, chip and address or handle once
known, the last step done, its batch, whether it converts to a cutting, the place in HOSTCHIPS it has tried (R166), and when a
hosting request was sent, bytes still to arrive from a source on a peer, and the cutting rank its frame was sized for. -/
structure Journal where
  id : Nat
  plot : Nat
  seqNo : Nat
  page : Nat
  srcTier : Nat
  srcAddr : Nat
  srcChip : Nat
  epoch : Nat
  dstTier : Nat
  dstChip : Nat
  dst : Option Nat
  step : Nat
  batch : Option Nat
  cut : Bool
  host : Nat
  sent : Option Nat
  due : Nat
  rank : Nat
  deriving DecidableEq, Repr

/-- A MIGRATE batch (R169): plot, command TAG, sequence, pages, pages committed and pages closed, number. -/
structure Batch where
  plot : Nat
  tag : Nat
  seqNo : Nat
  count : Nat
  committed : Nat
  closed : Nat
  number : Nat
  deriving DecidableEq, Repr

/-- A frame in DRAIN (R170): plot, tier, address (or handle for a peer's frame), chip, epoch and the HOLD tick. -/
structure DrainFrame where
  plot : Nat
  tier : Nat
  addr : Nat
  chip : Option Nat
  hold : Nat
  deriving DecidableEq, Repr

/-! ### Messages (R274, R299, R302, R307, R344) -/

/-- What a message or flit that leaves the chip is: the types of R302, the link-control flits of R299, the datagrams of R344 and
the control messages whose codes the manual does not give. -/
inductive MsgKind where
  | write | readRequest | readReply | collective | frost | ready | credit
  | hostAlloc | hostSeal | hostQuery | hostFree | hostReply
  | peerWalk | walkDescriptor | peerCommit | commitPoint | stepHeader | queryPiece | partialPiece | ringBlock | batch | batchResult
  | sync | discovery | ack | nak | replay | widthChange
  | afithData | afithAck | afithOpen | afithOpenAck | afithReset | neighbor
  deriving DecidableEq, Repr

/-- A message that has left the chip (R302): the link or field port it left by, virtual channel, header fields and data; `src` is 0xFFFF for
a message of this chip's own, `len` the LENGTH field, `head` the bytes of its Afith headers as they stand on the line (R8), none for a
link-control flit. -/
structure Msg where
  kind : MsgKind
  link : Option Nat
  port : Option Nat
  vc : Nat
  plot : Nat
  dest : Nat
  addr : Nat
  reply : Nat
  epoch : Nat
  gen : Nat
  tag : Nat
  op : Nat
  data : List Byte
  src : Nat
  phase : Bool
  stale : Bool
  len : Nat
  head : List Byte
  deriving DecidableEq, Repr

/-- What a stream's request to another chip is: a read of data, a read of index words, a write. -/
inductive ReqPart where
  | data | index | write
  deriving DecidableEq, Repr

/-- Who waits for a reply from another chip (R403): a stream's arming and tile with the instruction that asked, a page move by its journal
entry, a commit's scatter by its sequence. -/
inductive Requester where
  | stream (i arming tile instr : Nat) (part : ReqPart)
  | move (entry : Nat)
  | commit (plot seqNo : Nat)
  deriving DecidableEq, Repr

/-- A request to another chip whose reply is due (R246, R403): its tag, who waits, the generation tag it carried, the chip and
address, its length, where the data goes (an offset in the tile, the word number in an index queue, or fabric addresses) with the page epoch
there, and the local time at which it left (R5). -/
structure Request where
  tag : Nat
  who : Requester
  gen : Nat
  chip : Nat
  addr : Nat
  len : Nat
  sinks : List Nat
  epoch : Nat
  tick : Nat
  deriving DecidableEq, Repr

/-! ### Walks, signing and indexes (R151 to R153, R195 to R222) -/

/-- Descriptors of a walk that wait for the task they were posted for to arm its streams (R151). -/
structure PostedWalk where
  plot : Nat
  task : Nat
  descs : List Nat
  deriving DecidableEq, Repr

/-- A page whose signature is being formed (R160, R216): plot, sequence, virtual page, commit tick; `replay` after a reset. -/
structure SignJob where
  plot : Nat
  seqNo : Nat
  page : Nat
  tick : Nat
  replay : Bool
  code : Option Nat
  deriving DecidableEq, Repr

/-- One list of an index version: code array, ID array, entries, region (R198). -/
structure ListDir where
  codes : Nat
  ids : Nat
  count : Nat
  region : Nat
  deriving DecidableEq, Repr

/-- A version of a corpus index (R206): its lists and its FROM tick. -/
structure CorpusVersion where
  lists : List ListDir
  start : Nat
  deriving DecidableEq, Repr

/-- A base version of a live list (R204, R205): arrays and BASE_TICK, and the buffers the device allocated for them. -/
structure BaseVersion where
  dir : ListDir
  tick : Nat
  frames : List Nat
  deriving DecidableEq, Repr

/-- An appended entry of a side list (R199): 256-bit code, ID, stamp. -/
structure SideEntry where
  code : Nat
  id : Nat
  stamp : Nat
  deriving DecidableEq, Repr

/-- A tombstone (R199). -/
structure Tomb where
  id : Nat
  stamp : Nat
  deriving DecidableEq, Repr

/-- A live list (R199, R202, R205): versions newest first (at most two), side list and tombstones in stamp order, LAST_SNAP,
LAST_STAMP, and whether compaction is requested and promoted. -/
structure LiveList where
  region : Nat
  versions : List BaseVersion
  side : List SideEntry
  tombs : List Tomb
  lastSnap : Nat
  lastStamp : Nat
  wanted : Bool
  promoted : Bool
  deriving DecidableEq, Repr

/-- An index record (R197, R206): plot, class, SIDECAP, list count, corpus versions newest first, the staged version with its
swap tick and the completion the swap owes, live lists, EPOCH, the completion a destroy owes, and whether it is its sequence's
live index. -/
structure Index where
  plot : Nat
  live : Bool
  sideCap : Nat
  count : Nat
  corpus : List CorpusVersion
  staged : Option (List ListDir)
  swap : Option (Nat × Nat)
  owed : Option Nat
  lists : List LiveList
  epoch : Nat
  dying : Option (Option Nat)
  ofSeq : Bool
  deriving DecidableEq, Repr

/-- One result entry under the order of R211. -/
structure Hit where
  dist : Nat
  id : Nat
  shard : Nat
  list : Nat
  side : Bool
  deriving DecidableEq, Repr

/-- A query of a batch (R208): its entry's address and snapshot, its best hits so far, whether it has begun and ended, status,
FROM and EPOCH noted at its start, the lists still to scan and, per list, the position in it. -/
structure RQuery where
  entry : Nat
  snap : Nat
  hits : List Hit
  begun : Bool
  ended : Bool
  status : Nat
  start : Nat
  epoch : Nat
  todo : List (Nat × Nat)
  versions : List (Nat × Nat)
  shards : Nat
  mixed : Bool
  deriving DecidableEq, Repr

/-- A query batch (R207): plot, the number its completion is owed under (none on a member that serves a sharded batch), index, deadline,
flags, group, root member of a sharded batch, own member index, recall list, queries, the task that holds its claim, the next query
whose shard results are merged, the STATUS with which it was aborted, and the latest earliest-feasible tick of the members that refused
it (R213). -/
structure RBatch where
  plot : Nat
  tag : Option Nat
  index : Nat
  deadline : Nat
  flags : Nat
  group : Nat
  root : Nat
  self : Nat
  out : Nat
  outSize : Nat
  queries : List RQuery
  task : Nat
  fired : Nat
  aborted : Option Nat
  feasible : Nat
  deriving DecidableEq, Repr

/-- A command taken and not yet completed (R135, R136): number, plot, TAG, whether it completes in ring order, and its STATUS and
RESULT once known. -/
structure Owed where
  id : Nat
  plot : Nat
  tag : Nat
  ordered : Bool
  result : Option (Nat × Nat)
  deriving DecidableEq, Repr

/-! ### Sequence groups (R173 to R194) -/

/-- A member record of the group check (R178). -/
structure MemberRec where
  chip : Nat
  self : Nat
  base : Nat
  len : Nat
  crc : Nat
  deriving DecidableEq, Repr

/-- The group work of a plot (R176 to R188): descriptor, the records of the last check that passed, whether a check is due, the
header in force (TAG, its tick, its bytes), the pieces received under it (member, layer, group, kind), the hops launched, the tick of the
latest launch, whether the next launch is deferred, the ring blocks being dropped (member and OPSEQ, R184), and the OPSEQ of the first
operation of each collective group under the header. -/
structure GroupCtx where
  desc : Nat
  task : Nat
  recs : List MemberRec
  due : Bool
  tag : Option Nat
  headTick : Nat
  pieces : List (Nat × Nat × Nat × Nat)
  header : List Byte
  hop : Nat
  launched : Option Nat
  late : Bool
  stale : List (Nat × Nat)
  opBase : List (Nat × Nat)
  deriving DecidableEq, Repr

/-! ### Collective engines (R313 to R337) -/

/-- A common error record that a group keeps (R334, R335), with the tick of the first record. -/
structure ColErr where
  cause : Nat
  epoch : Nat
  opseq : Nat
  origin : Nat
  tick : Nat
  first : Nat
  deriving DecidableEq, Repr

/-- An operation that the common error ended: its status address, OPSEQ and flags (R335, R337). -/
structure DeadOp where
  status : Nat
  opseq : Nat
  flags : Nat
  deriving DecidableEq, Repr

/-- A collective group (R321): owning plot, member list, SELF, epoch, OPSEQ, sites (count and own index; no sites: 0) and the
site numbers listed, the common error it is in, the operations that it ended. -/
structure ColGroup where
  plot : Nat
  members : List Nat
  self : Nat
  epoch : Nat
  opseq : Nat
  sites : Nat
  site : Nat
  siteList : List Nat
  err : Option ColErr
  dead : List DeadOp
  deriving DecidableEq, Repr

/-- The engine's copy of an operation descriptor (R315, R319), its lists read. -/
structure OpDesc where
  opcode : Nat
  shape : Nat
  group : Nat
  oflags : Nat
  trigger : Nat
  threshold : Nat
  donectr : Nat
  root : Nat
  elem : Nat
  wire : Nat
  out : Nat
  xfmt : Nat
  piece : Nat
  cap : Nat
  contrib : Nat
  slots : Nat
  sempair : Nat
  ncells : Nat
  timeout : Nat
  start : Nat
  src : Nat
  dst : Nat
  rbuf : Nat
  cells : List Nat
  notify : List Nat
  flagsAddr : Nat
  status : Nat
  sizes : Nat
  slotBytes : Nat
  deriving DecidableEq, Repr

/-- A contribution that a fused drain delivered (R320): operation index within the chain, piece, rank, flags, length. -/
structure Landed where
  index : Nat
  piece : Nat
  rank : Nat
  flags : Nat
  len : Nat
  deriving DecidableEq, Repr

/-- A collective message that arrived (R322): group, epoch, OPSEQ, stage, piece, sender, offset, opcode, flags,
data, tick, and whether its receive slot was released (R332). -/
structure ColIn where
  group : Nat
  epoch : Nat
  opseq : Nat
  stage : Nat
  piece : Nat
  src : Nat
  off : Nat
  opcode : Nat
  flags : Nat
  data : List Byte
  tick : Nat
  freed : Bool
  deriving DecidableEq, Repr

/-- A part of a piece that a member sends: stage, piece, receiving member, offset, bytes. -/
structure SendKey where
  stage : Nat
  piece : Nat
  dest : Nat
  off : Nat
  deriving DecidableEq, Repr

/-- An operation in flight (R317, R318, R328): number in firing order, chain and index, descriptor, group epoch and OPSEQ, bound
task, tick of firing, tick at which its timer started (R333), flags, whether it cut a piece and was deferred, contributions, parts sent,
credits returned by member, sizes, how far its end has come (1 results written, 2 flags word and status record written), and whether an
access of its own has met an error, after which it sends and completes nothing more (R22, R259). -/
structure OpRun where
  id : Nat
  chain : Nat
  index : Nat
  op : OpDesc
  epoch : Nat
  opseq : Nat
  task : Option Nat
  fired : Nat
  timer : Nat
  flags : Nat
  overflow : Bool
  deferred : Bool
  landed : List Landed
  sent : List SendKey
  back : List (Nat × Nat)
  sizes : List Nat
  posted : Nat
  failed : Bool
  deriving DecidableEq, Repr

/-- A chain (R313, R315, R317): plot, operations, head, contributions landed for operations yet to fire, whether its head was deferred
(R279), the completion its release owes. -/
structure Chain where
  plot : Nat
  ops : List OpDesc
  head : Nat
  landed : List Landed
  deferred : Bool
  releasing : Option Nat
  deriving DecidableEq, Repr

/-! ### Field ports (R345 to R348) -/

/-- A peer entry of the seedbed (R345). -/
structure Peer where
  endpoint : Bool
  failover : Bool
  port : Nat
  site : Nat
  plot : Nat
  chip : Nat
  udp : Nat
  addr6 : Nat
  nextHop : Nat
  vlan : Nat
  dscp : Nat
  pathMax : Nat
  deriving DecidableEq, Repr

/-- A DATA datagram not yet acknowledged (R347, R348): PSN, message, LAST, ticks of its first and latest sending, times
retransmitted, and what waits for it: a FLD_SEND by its completion number or an operation in flight. -/
structure Dgram where
  psn : Nat
  msg : Msg
  last : Bool
  first : Nat
  sent : Nat
  again : Nat
  command : Option Nat
  op : Option Nat
  deriving DecidableEq, Repr

/-- The connection of a peer entry (R346 to R348): state (0 CLOSED, 1 OPENING, 2 OPEN), epoch, port in use, next PSN, datagrams
unacknowledged, round trips measured in the last second (tick and length; each less than every later one, R348), tick at which CUMACK last advanced, tick of the latest OPEN; of the receiver: CUMACK,
PSNs landed above it, highest, DATA received since its last ACK, tick since which one is unacknowledged, CE marks seen; whether it
closed for LEVEL; the rate above its reservation in 1/64 unit and the tick it last changed (R350). -/
structure Conn where
  state : Nat
  epoch : Nat
  port : Nat
  psn : Nat
  unacked : List Dgram
  rtts : List (Nat × Nat)
  advanced : Nat
  lastOpen : Nat
  cum : Nat
  landed : List Nat
  highest : Nat
  count : Nat
  since : Option Nat
  ce : Bool
  level : Bool
  rate : Nat
  rateTick : Nat
  deriving DecidableEq, Repr

def Conn.closed : Conn := ⟨0, 0, 0, 0, [], [], 0, 0, 0, [], 0, 0, none, false, false, 0, 0⟩

/-- PTP at the root (R354, R355): the grandmaster followed, consecutive Syncs within 20 ns, consecutive offsets beyond 50 ns, the tick
of the last valid Sync and the Sync interval in ticks. -/
structure Ptp where
  master : Option Nat
  good : Nat
  bad : Nat
  last : Nat
  interval : Nat
  deriving DecidableEq, Repr

/-! ### Link layers (R299 to R310) -/

/-- The link layer of one link: next SEQ to send, oldest SEQ unacknowledged, its replays without progress and the tick of the last
progress (R300); next SEQ expected, data flits accepted since the last acknowledgement and the tick of the first of them, whether a
NAK is out; the partner's failed lanes (R301); credits held, and cumulative counts freed here and counted from the partner, by class: 0
to 7 virtual channels, 8 to 15 the same with PHASE, 16 the shared pool (R306); messages queued and deficits by plot and channel, with the queue served
(R305); ticks of entries into RETRAIN (R310); the partner's record, whether it has acknowledged ours, the tick from which silence counts
and that of our last record, whether discovery fell silent (R307); the partner at the last discovery (R309); the switch's plane, rack and port. -/
structure LinkPhy where
  tx : Nat
  base : Nat
  replays : Nat
  ackTick : Nat
  rx : Nat
  fresh : Nat
  since : Option Nat
  nak : Bool
  theirs : Nat
  held : List Nat
  freed : List Nat
  counted : List Nat
  queue : List Msg
  deficit : List (Nat × Nat)
  turn : Nat
  retrains : List Nat
  partner : Option Partner
  acked : Bool
  heard : Nat
  sentTick : Option Nat
  silent : Bool
  last : Option Partner
  switch : Option (Nat × Nat × Nat)
  deriving DecidableEq, Repr

/-- Buffer reserved for each class and shared (R306): 12,288 flits in all. -/
def creditSizes (rack : Bool) : List Nat :=
  [256, 64, 64, 64, 64, 64, 64, 64] ++ (if rack then [0, 64, 64, 64, 64, 64, 64, 64, 11136] else [0, 0, 0, 0, 0, 0, 0, 0, 11584])

/-- A link at OFF: its books stand full. -/
def LinkPhy.off (rack : Bool) : LinkPhy :=
  ⟨0, 0, 0, 0, 0, 0, none, false, 0, creditSizes rack, List.replicate 17 0, List.replicate 17 0, [], [], 0, [], none, false, 0, none, false, none, none⟩

/-! ### Start-up, safety, power (R373 to R419, R443 to R466) -/

/-- The safety limit block in force (R419). -/
structure SafetyLimits where
  replay : Bool
  replayMax : Nat
  budget : Nat
  warn : Nat
  throttle : Nat
  trip : Nat
  deriving DecidableEq, Repr

/-- Start-up (R373 to R395): the pins PWR_SEQ_OK, HUB_PERST_N and NVM_OWN_N (low), the hardware trip (R465); the tick of the pin's fall and
the time it was low in this start (R377); the staging region (R383); bytes and digest of the image fetched, its acceptance, the regions
that hold a retained copy (R387); the seedbed as read, none where the read failed, and whether the read has ended; whether this start is
the one at power-on and whether it has begun C7 (R392); whether the last start reached SERVICE, and MAJOR and MAIN_CRC recorded in the
management pair's copy (R390); the armed start value with its tick (R393); whether the graft pins are outputs (R375); the plot
registers that W1 restores and the commands lost by plot (R391); the first log entry of this start (R420). -/
structure Boot where
  seqOk : Bool
  perst : Bool
  nvmLow : Bool
  tripped : Bool
  nvmSince : Nat
  nvmTotal : Nat
  region : Option Nat
  image : List Byte
  digest : Option (BitVec 384)
  imageOk : Bool
  copies : Nat
  seed : Option SeedbedImage
  seedDone : Bool
  powerOn : Bool
  training : Bool
  served : Bool
  kept : Option (Nat × Nat)
  armed : Option (Nat × Nat)
  outputs : Bool
  plotRegs : List (Nat × W32)
  lost : List (Nat × Nat)
  logFrom : Nat
  deriving DecidableEq, Repr

/-- Without power: pins low, NVM_OWN_N pulled high. -/
def Boot.off : Boot :=
  ⟨false, false, false, false, 0, 0, none, [], none, false, 0, none, false, false, false, false, none, none, false, [], [], 0⟩

/-- A suspect of a reset of cause WATCHDOG (R409): plot, TASK, completion tick, WORK, the cells it used. -/
structure Suspect where
  plot : Nat
  tag : Nat
  completion : Nat
  work : Nat
  cells : List Nat
  deriving DecidableEq, Repr

/-- A replay in progress (R409, R410): the reset that it belongs to, the suspects still to replay, those beyond REPLAY_MAX, the ticks of the
budget spent, and the groups owed a ready notice. -/
structure Replay where
  req : ResetReq
  suspects : List Suspect
  beyond : List Suspect
  spent : Nat
  notify : List Nat
  deriving DecidableEq, Repr

/-- A region's governor and droop detector (R459, R462), in local time: the last rise of KEEP, since when KEEP has held 3 above the cap,
whether the stream engines issue at half rate, since when the droop has held level 2. -/
structure Governor where
  rise : Nat
  floor : Option Nat
  half : Bool
  level2 : Option Nat
  deriving DecidableEq, Repr

/-- A performance counter (R422): 48-bit count, OVF, the high half latched. -/
structure Perf where
  count : Nat
  ovf : Bool
  high : Nat
  deriving DecidableEq, Repr

/-- Privilege modes of a control core (R27): machine mode is the secure mode. -/
inductive HartMode where
  | user
  | supervisor
  | machine
  deriving DecidableEq, Repr

/-- The logical RV64GC core of a control-core pair (R26, R27): program counter, integer registers x1 to x31 (x0 reads zero), floating-point
registers, the control and status registers written by number, the 16 physical-memory-protection entries (configuration and address), mode.
-/
structure Hart where
  pc : BitVec 64
  x : List (BitVec 64)
  f : List (BitVec 64)
  csrs : List (Nat × BitVec 64)
  pmp : List (BitVec 8 × BitVec 64)
  mode : HartMode
  deriving DecidableEq, Repr

/-- A core entered in machine mode at an address, its registers zero (R27, R386; notes/assumptions/5). -/
def Hart.enter (pc : Nat) : Hart :=
  ⟨BitVec.ofNat 64 pc, List.replicate 31 0, List.replicate 32 0, [], List.replicate 16 (0, 0), .machine⟩

/-! ### The state -/

/-- The state of the block. -/
structure State where
  /-- The register file, keyed by word offset (R424); an unlisted key holds its register's reset value. -/
  regs : List (Nat × W32)
  /-- The local memory of R252, keyed by local address: stacks, bonded DRAM, scratchpads, block memories; an unlisted byte reads 0x00. -/
  mem : List (Nat × Byte)
  /-- Host memory by bus address, as the cold-frame window and the mailbox reach it (R256, R440). -/
  hostMem : List (Nat × Byte)
  /-- 64-byte lines holding the poison pattern, keyed by line number (R259). -/
  poison : List (Nat × Bool)
  /-- The cells (R15). -/
  cells : List (Nat × Cell)
  /-- The blocks (R15). -/
  blocks : List (Nat × Block)
  /-- Accepted, unfinished tasks, keyed by decision number (R286). -/
  tasks : List (Nat × Task)
  /-- Decisions made since cold start (R287). -/
  taskSeq : Nat
  /-- Armed or parked stream contexts (R224). -/
  streams : List (Nat × Stream)
  /-- Arming numbers given (R403). -/
  armSeq : Nat
  /-- Armed sundial events in arming order (R279). -/
  events : List Event
  /-- Events armed. -/
  eventSeq : Nat
  /-- Synchronisation state of the links (R273). -/
  sync : List (Nat × LinkSync)
  /-- The scrubbers (R261). -/
  scrub : List (Nat × Scrubber)
  /-- Resets asked for and not yet run (R22, R23). -/
  resets : List ResetReq
  /-- Resets that have run within the last 1 µs (R23). -/
  resetsRun : List ResetReq
  /-- The management pair and the service pair (R26, R27). -/
  harts : List Hart
  /-- The event log, oldest first, at most 65,536 entries (R420). -/
  log : List LogEntry
  /-- Entries since cold start (R420). -/
  logSeq : Nat
  /-- The sundial's count (R269). -/
  sundial : Nat
  /-- Six bits of sub-tick phase (R269). -/
  phase : Nat
  /-- Local time in ns, which the always-on circuits count (R5). -/
  clock : Nat
  /-- The queue of the hub network served last, keyed by virtual channel and plot as in R305, and the grants left in its turn (R21). -/
  hubTurn : Nat
  hubLeft : Nat
  /-- Offset still to be slewed out, in ticks (R271). -/
  slew : Int
  /-- Tick of the last slewed tick (R271). -/
  slewTick : Nat
  /-- High halves latched by agent (R270, R422). -/
  latch : List (Nat × Nat)
  /-- The model's own counter of free values (notes/assumptions/2); not the chip's. -/
  free : Nat
  /-- Commands waiting, first in first out (the row's cut). -/
  pending : List Instr
  /-- Plots that are not FREE (R361). -/
  plots : List (Nat × Plot)
  /-- Pool books, keyed 4p + t (R149, R172). -/
  pools : List (Nat × Pool)
  /-- Frame records by local address of the first granule (R145). -/
  frames : List (Nat × Frame)
  /-- Sequence slices, keyed 65,536 p + SEQ (R140). -/
  seqs : List (Nat × Seqn)
  /-- Open journal entries (R169). -/
  journal : List Journal
  /-- Open MIGRATE batches (R169). -/
  batches : List (Nat × Batch)
  /-- Pools in which an allocation of a move or of a page mapped ahead has failed since their pressure was last handled (R161). -/
  pressed : List (Nat × Nat)
  /-- Frames in DRAIN (R170). -/
  draining : List DrainFrame
  /-- The plot last served in the manager's round robin (R135). -/
  kvmTurn : Nat
  /-- Commands taken and not yet completed, in the order of taking (R135, R136). -/
  kvmOwed : List Owed
  /-- Number of the next command taken. -/
  kvmSeq : Nat
  /-- The plot last served in admission's round robin (R281). -/
  admTurn : Nat
  /-- Messages that have left the chip, oldest first (R302, R299, R344). -/
  out : List Msg
  /-- Requests to other chips whose replies are due (R246, R403). -/
  reqs : List Request
  /-- The tag of the next request; never 0 (R302). -/
  msgTag : Nat
  /-- Addresses of errors reported to the service pair and not yet looked up (R260). -/
  eccReports : List Nat
  /-- The value that the latest register read returned to its reader (R431). -/
  rdata : W32
  /-- Chip number of the group's root, as the seedbed names it (R272); 0xFFFF for none. -/
  rootChip : Nat
  /-- Handles of frames held on peers (R168), keyed 2^48 × chip + address there. -/
  peerHandles : List (Nat × Nat)
  /-- Journal entries written (R169). -/
  moveSeq : Nat
  /-- Descriptors posted for tasks not yet armed (R151). -/
  walks : List PostedWalk
  /-- Pages being signed, oldest first (R216). -/
  signing : List SignJob
  /-- Index records (R197). -/
  indexes : List (Nat × Index)
  /-- Query batches taken and not ended, by number (R207). -/
  rbatches : List (Nat × RBatch)
  /-- Number of the next query batch. -/
  rbatchSeq : Nat
  /-- Group work by plot (R173). -/
  groups : List (Nat × GroupCtx)
  /-- The collective group table (R321). -/
  colGroups : List (Nat × ColGroup)
  /-- Armed chains (R313). -/
  chains : List (Nat × Chain)
  /-- Operations in flight, in firing order (R317). -/
  ops : List OpRun
  /-- Operations fired. -/
  opSeq : Nat
  /-- Collective messages received and not yet used up (R322, R328). -/
  colIn : List ColIn
  /-- The unit steps that make up a counter's count, oldest first, as runs of task (0 for none) and number (R318). -/
  colSteps : List (Nat × List (Nat × Nat))
  /-- Counters with a step, or an unacknowledged fused drain, of a task that ended, with the tick of its end (R77, R333). -/
  lostDrains : List (Nat × Nat)
  /-- Valid peer entries of the seedbed (R345). -/
  peers : List (Nat × Peer)
  /-- Connections of the peer entries (R346). -/
  conns : List (Nat × Conn)
  /-- The link layers (R299 to R310); an unlisted link is at OFF. -/
  phys : List (Nat × LinkPhy)
  /-- Whether firmware has started discovery (R307). -/
  discovering : Bool
  /-- The configuration hash that discovery sends (R382). -/
  configHash : Nat
  /-- The hall table's partners of links 4 and 5 (R297). -/
  hall : List Nat
  /-- The sync partners of links 2 to 5 (R272). -/
  syncMap : List Nat
  /-- The default rack of the seedbed (R308). -/
  defaultRack : Nat
  /-- Whether the hub is held in a chip reset (R405 step 4). -/
  hubHeld : Bool
  /-- The LINKMAP section of the seedbed (R380, R436). -/
  linkMap : List Byte
  /-- The PTP port of the seedbed (R354, R436). -/
  ptpPort : Nat
  /-- The PTP domain of the seedbed (R354, R436). -/
  ptpDomain : Nat
  /-- Words of the configuration store changed by other means than the write path, with the bits that differ (R436, R439). -/
  storeUpset : List (Nat × Nat)
  /-- Tick at which the scanner's present pass started (R437). -/
  scanStart : Option Nat
  /-- Receive slots of SHIFT operations begun at each member and not returned, keyed 65,536 × group + member (R187, R330). -/
  shiftBook : List (Nat × Nat)
  /-- Plot, TASK and ENDED tick of the tasks that ended, oldest first (R398). -/
  endedTasks : List (Nat × Nat × Nat)
  /-- PCIe generation trained, 0 for none (R250, R388). -/
  pcieGen : Nat
  /-- PCIe lanes trained (R250). -/
  pcieLanes : Nat
  /-- PTP at the group root (R355). -/
  ptp : Ptp
  /-- First event-log entry that a plot may read, by plot (R369 step 5). -/
  logFloor : List (Nat × Nat)
  /-- Harvest slots, keyed 16 × region + slot (R407, R408). -/
  harvest : List (Nat × List Byte)
  /-- Harvests written by region (R408). -/
  harvestSeq : List (Nat × Nat)
  /-- Start-up (R373 to R395). -/
  boot : Boot
  /-- The safety limit block in force (R419). -/
  safety : SafetyLimits
  /-- Root PTP use of the seedbed (R380). -/
  ptpUse : Bool
  /-- IPv6 address, MAC address and UDP port of each field port (R341, R380). -/
  portAddr : List (Nat × Nat × Nat)
  /-- Performance counters that have counted (R422). -/
  perf : List (Nat × Perf)
  /-- Ticks of the counted resets of each cell, block and region domain, by domain key (R411, R412). -/
  domainCounts : List (Nat × List Nat)
  /-- Ticks of the counted chip resets (R413). -/
  chipCounts : List Nat
  /-- The replay in progress (R409). -/
  replay : Option Replay
  /-- A chip reset that waits at step 6 for the hub PLL (R454). -/
  chipWait : Option ResetReq
  /-- Whether the hub PLL is out of lock, by its own loss or by that of the main reference (R29, R454). -/
  hubLost : Bool
  /-- Whether the PCIe reference is lost (R454). -/
  pcieLost : Bool
  /-- Control-core pairs halted by a mismatch (R26). -/
  halted : List Nat
  /-- Tick since which every sensor has read below TEMP_WARN (R413). -/
  coolSince : Option Nat
  /-- The regions' governors (R459). -/
  governors : List (Nat × Governor)
  /-- Excursion allowance spent: local time and microseconds (R460). -/
  excursion : List (Nat × Nat)
  /-- Local time of the latest droop beyond the handled range (R463). -/
  droopTick : Option Nat
  /-- GRAFT[4] (R447). -/
  heartPin : Bool
  /-- GRAFT[5] (R447). -/
  beatPin : Bool
  /-- First log entry after the last read of SAFE_RESET_INFO (R449). -/
  alertFrom : Nat
  /-- Local time since which the head request of a plot's ring waits to be taken (R400). -/
  admWait : List (Nat × Nat)
  /-- Whether the main reference is lost (R454). -/
  mainLost : Bool
  /-- Whether the chip is cooling after a THERMAL reset (R413). -/
  cooling : Bool
  /-- Whether HUB_PRIV_LOCK.DROP has been written since the start (R434). -/
  privLocked : Bool
  deriving DecidableEq, Repr

/-- The machine right after reset: powered, held before the rise of PWR_SEQ_OK (R451). -/
def State.reset : State where
  regs := []
  mem := []
  hostMem := []
  poison := []
  cells := []
  blocks := []
  tasks := []
  taskSeq := 0
  streams := []
  armSeq := 0
  events := []
  eventSeq := 0
  sync := []
  scrub := []
  resets := []
  resetsRun := []
  harts := [Hart.enter 0, Hart.enter 0]
  log := []
  logSeq := 0
  sundial := 0
  phase := 0
  clock := 0
  hubTurn := 0
  hubLeft := 0
  slew := 0
  slewTick := 0
  latch := []
  free := 0
  pending := []
  plots := []
  pools := []
  frames := []
  seqs := []
  journal := []
  batches := []
  pressed := []
  draining := []
  kvmTurn := 7
  kvmOwed := []
  kvmSeq := 1
  admTurn := 7
  out := []
  reqs := []
  msgTag := 1
  eccReports := []
  rdata := 0
  rootChip := 0xFFFF
  peerHandles := []
  moveSeq := 0
  walks := []
  signing := []
  indexes := []
  rbatches := []
  rbatchSeq := 1
  groups := []
  colGroups := []
  chains := []
  ops := []
  opSeq := 0
  colIn := []
  colSteps := []
  lostDrains := []
  peers := []
  conns := []
  phys := []
  discovering := false
  configHash := 0
  hall := [0xFFFF, 0xFFFF]
  syncMap := [0xFFFF, 0xFFFF, 0xFFFF, 0xFFFF]
  defaultRack := 0
  hubHeld := false
  linkMap := []
  ptpPort := 0
  ptpDomain := 0
  storeUpset := []
  scanStart := none
  shiftBook := []
  endedTasks := []
  pcieGen := 0
  pcieLanes := 0
  ptp := ⟨none, 0, 0, 0, 1000000000⟩
  logFloor := []
  harvest := []
  harvestSeq := []
  boot := Boot.off
  safety := ⟨false, 0, 0, 0, 0, 0⟩
  ptpUse := false
  portAddr := []
  perf := []
  domainCounts := []
  chipCounts := []
  replay := none
  chipWait := none
  hubLost := false
  pcieLost := false
  halted := []
  coolSince := none
  governors := []
  excursion := []
  droopTick := none
  heartPin := false
  beatPin := false
  alertFrom := 0
  admWait := []
  mainLost := false
  cooling := false
  privLocked := false

end Sys2Proof.Machine
end

