-- ==== Sys2Proof/Machine/Ops.lean ====
section
/-!
DEFINITION. Named operations over registers, memory, the event log, the free values and the unit tables. Every meaning reads
and writes the state through them.
-/

namespace Sys2Proof.Machine
open Sys2Proof

/-- The outcome type of a command. -/
abbrev Res := Host.Outcome State Fault Refusal

/-! ### Registers -/

/-- The stored value of a register instance. -/
def State.reg (s : State) (r : Reg) (i : Nat) : W32 := Sparse.get regReset s.regs (Reg.key r i)

/-- Stores a register instance. -/
def State.setReg (s : State) (r : Reg) (i : Nat) (v : W32) : State :=
  { s with regs := Sparse.set regReset s.regs (Reg.key r i) v }

/-- A field of a register instance. -/
def State.fld (s : State) (f : Fld) (i : Nat) : Nat := bitsAt (s.reg f.reg i).toNat f.lo f.width

/-- A one-bit field. -/
def State.bit (s : State) (f : Fld) (i : Nat) : Bool := s.fld f i != 0

/-- Stores a field, leaving the register's other bits. -/
def State.setFld (s : State) (f : Fld) (i v : Nat) : State :=
  s.setReg f.reg i (BitVec.ofNat 32 (setBits (s.reg f.reg i).toNat f.lo f.width v))

/-- Stores a one-bit field. -/
def State.setBit (s : State) (f : Fld) (i : Nat) (b : Bool) : State := s.setFld f i (if b then 1 else 0)

/-- Steps a counter that wraps (R422). -/
def State.stepFld (s : State) (f : Fld) (i : Nat) : State := s.setFld f i (s.fld f i + 1)

/-- Adds to a counter that saturates at all ones (R422). -/
def State.addSat (s : State) (f : Fld) (i n : Nat) : State := s.setFld f i (min (s.fld f i + n) (2 ^ f.width - 1))

/-- Records a fault in a register with VALID at bit 31 and OVERRUN at bit 30 (R79, R101, R223, R248, R268): the first since the
last read writes the record, a later one sets OVERRUN only. -/
def State.recordInfo (s : State) (r : Reg) (i info : Nat) : State :=
  let v := (s.reg r i).toNat
  if v.testBit 31 then s.setReg r i (BitVec.ofNat 32 (setBits v 30 1 1))
  else s.setReg r i (BitVec.ofNat 32 (2 ^ 31 + (v.testBit 30).toNat * 2 ^ 30 + info % 2 ^ 30))

/-! ### Memory (R252) -/

/-- One byte of local memory. -/
def State.byteAt (s : State) (a : Nat) : Byte := Sparse.get (fun _ => 0) s.mem a

/-- `n` bytes of local memory from address `a`. -/
def State.readBytes (s : State) (a n : Nat) : List Byte := (List.range n).map fun i => s.byteAt (a + i)

/-- Reads `n` bytes as a number, least significant first (R8). -/
def State.readLe (s : State) (a n : Nat) : Nat := leNat (s.readBytes a n)

/-- Writes bytes into a memory list. -/
def memWrite (m : List (Nat × Byte)) : Nat → List Byte → List (Nat × Byte)
  | _, [] => m
  | a, b :: bs => memWrite (Sparse.set (fun _ => 0) m a b) (a + 1) bs

/-- Writes bytes to local memory from address `a`. -/
def State.writeBytes (s : State) (a : Nat) (bs : List Byte) : State := { s with mem := memWrite s.mem a bs }

/-- Writes a number as `n` bytes, least significant first (R8). -/
def State.writeLe (s : State) (a n v : Nat) : State := s.writeBytes a (leBytes n v)

/-- Clears a range of local memory to zero with valid check bits, poison included (R266). -/
def State.clearRange (s : State) (lo len : Nat) : State :=
  { s with
    mem := s.mem.filter fun e => !(decide (lo ≤ e.1) && decide (e.1 < lo + len))
    poison := s.poison.filter fun e => !(decide (lo ≤ e.1 * 64) && decide (e.1 * 64 < lo + len)) }

/-- One byte of host memory. -/
def State.hostByte (s : State) (a : Nat) : Byte := Sparse.get (fun _ => 0) s.hostMem a

def State.readHost (s : State) (a n : Nat) : List Byte := (List.range n).map fun i => s.hostByte (a + i)

def State.writeHost (s : State) (a : Nat) (bs : List Byte) : State := { s with hostMem := memWrite s.hostMem a bs }

/-- Whether the 64-byte line of an address holds the poison pattern (R259). -/
def State.poisoned (s : State) (a : Nat) : Bool := Sparse.get (fun _ => false) s.poison (a / 64)

/-- Poisons or clears the line of an address. -/
def State.setPoison (s : State) (a : Nat) (b : Bool) : State :=
  { s with poison := Sparse.set (fun _ => false) s.poison (a / 64) b }

/-- Start of region `r`'s stacks. -/
def stackBase (r : Nat) : Nat := r * 0x3000000000

/-- Start of region `r`'s bonded DRAM. -/
def dramBase (r : Nat) : Nat := 0x10000000000 + r * 0x400000000

/-- Start of cell `c`'s scratchpad. -/
def spadBase (c : Nat) : Nat := 0x20000000000 + c * 0x180000

/-- Bytes of a scratchpad. -/
def spadSize : Nat := 0x180000

/-- Start of block `b`'s memory. -/
def blockBase (b : Nat) : Nat := 0x20030000000 + b * 0x800000

/-- Bytes of a block memory. -/
def blockSize : Nat := 0x800000

/-- Start of the register range. -/
def registerBase : Nat := 0x30000000000

/-- Start of the cold-frame window. -/
def coldBase : Nat := 0x80000000000

/-- The ranges of R252. -/
inductive Place where
  | stack (region off : Nat)
  | dram (region off : Nat)
  | spad (cell off : Nat)
  | block (block off : Nat)
  | register (off : Nat)
  | cold (seg off : Nat)
  | none
  deriving DecidableEq, Repr

/-- Decodes a local address (R252). -/
def placeOf (a : Nat) : Place :=
  if a < 0xC000000000 then .stack (a / 0x3000000000) (a % 0x3000000000)
  else if a < 0x10000000000 then .none
  else if a < 0x11000000000 then .dram ((a - 0x10000000000) / 0x400000000) ((a - 0x10000000000) % 0x400000000)
  else if a < 0x20000000000 then .none
  else if a < 0x20030000000 then .spad ((a - 0x20000000000) / 0x180000) ((a - 0x20000000000) % 0x180000)
  else if a < 0x20040000000 then .block ((a - 0x20030000000) / 0x800000) ((a - 0x20030000000) % 0x800000)
  else if a < 0x30000000000 then .none
  else if a < 0x30010000000 then .register (a - 0x30000000000)
  else if a < 0x80000000000 then .none
  else if a < 0x100000000000 then .cold ((a - 0x80000000000) / 0x100000000) ((a - 0x80000000000) % 0x100000000)
  else .none

/-- Start of the firmware area within a region's stacks (R254). -/
def firmwareOff : Nat := 0x2D00000000

/-- First byte of a region's firmware area (R254). -/
def firmwareBase (r : Nat) : Nat := stackBase r + firmwareOff

/-! ### Free values -/

/-- The next free value. -/
def State.fresh (s : State) : Nat × State := (Config.freeValue s.free, { s with free := s.free + 1 })

/-- Fills a range with undefined data: one free byte per address (R78, R247). -/
def State.undefineBytes (s : State) (a n : Nat) : State :=
  let s' := s.writeBytes a ((List.range n).map fun i => BitVec.ofNat 8 (Config.freeValue (s.free + i)))
  { s' with free := s.free + n }

/-! ### Event log (R420) -/

/-- Appends an entry to the event log; at 65,536 entries the oldest is lost and HUB_LOG_LOST steps. -/
def State.logAt (s : State) (tick plot source code detail : Nat) : State :=
  let e : LogEntry := ⟨s.logSeq, tick, plot, source, code, detail⟩
  if s.log.length < 65536 then { s with log := s.log ++ [e], logSeq := s.logSeq + 1 }
  else { (s.addSat Fld.HUB_LOG_LOST_COUNT 0 1) with log := s.log.drop 1 ++ [e], logSeq := s.logSeq + 1 }

/-- An entry of class `cls` whose low bits the manual does not number (R420). -/
def State.logEvent (s : State) (plot source cls k detail : Nat) : State :=
  s.logAt s.sundial plot source (cls * 4096 + Config.logCode k % 4096) detail

/-- An entry of class `cls` with the numbered code `k` of its chapter. -/
def State.logCoded (s : State) (plot source cls k detail : Nat) : State :=
  s.logAt s.sundial plot source (cls * 4096 + k % 4096) detail

/-- Plot number of the chip's own entries. -/
def chipPlot : Nat := 0xFF

/-- An ignored write (class 0x4). -/
def State.logIgnored (s : State) (plot source offset : Nat) : State := s.logEvent plot source 4 1 offset

/-- Whether an access met an uncorrectable error. -/
def Ecc.bad : Ecc → Bool
  | .uncorrectable _ => true
  | _ => false

/-- Where it met it. -/
def Ecc.offset : Ecc → Nat
  | .uncorrectable o => o
  | _ => 0

/-! ### CRC-32C (R168, R176, R299, R436) -/

/-- Eight steps of the reflected CRC-32C division. -/
def crcSteps : Nat → Nat → Nat
  | 0, x => x
  | n + 1, x => crcSteps n (if x % 2 = 1 then (x / 2).xor 0x82F63B78 else x / 2)

/-- The running value over bytes. -/
def crcBytes (x : Nat) (bs : List Byte) : Nat := bs.foldl (fun x b => crcSteps 8 (x.xor b.toNat)) x

/-- CRC-32C of bytes: initial value and final inversion all ones. -/
def crc32c (bs : List Byte) : Nat := (crcBytes 0xFFFFFFFF bs).xor 0xFFFFFFFF

/-! ### Unit tables -/

def State.cell (s : State) (c : Nat) : Cell := Sparse.get (fun _ => Cell.empty) s.cells c

def State.setCell (s : State) (c : Nat) (x : Cell) : State :=
  { s with cells := Sparse.set (fun _ => Cell.empty) s.cells c x }

def State.block (s : State) (b : Nat) : Block := Sparse.get (fun _ => Block.empty) s.blocks b

def State.setBlock (s : State) (b : Nat) (x : Block) : State :=
  { s with blocks := Sparse.set (fun _ => Block.empty) s.blocks b x }

def State.task (s : State) (t : Nat) : Option Task := Table.get s.tasks t

/-- A task with its number, as a list. -/
def State.taskPair (s : State) (t : Nat) : List (Nat × Task) :=
  match s.task t with
  | some x => [(t, x)]
  | none => []

def State.setTask (s : State) (t : Nat) (x : Task) : State := { s with tasks := Table.put s.tasks t x }

def State.stream (s : State) (i : Nat) : Option Stream := Table.get s.streams i

def State.setStream (s : State) (i : Nat) (x : Stream) : State := { s with streams := Table.put s.streams i x }

def State.plot (s : State) (p : Nat) : Option Plot := Table.get s.plots p

def State.setPlot (s : State) (p : Nat) (x : Plot) : State := { s with plots := Table.put s.plots p x }

def State.pool (s : State) (p t : Nat) : Pool := Sparse.get (fun _ => Pool.empty) s.pools (4 * p + t)

/-- Region of a cell (R15). -/
def regionOfCell (c : Nat) : Nat := c / 128

/-- Whether the service pair runs: halted, it does none of its duties (R26). -/
def State.serviceRuns (s : State) : Bool := !s.halted.contains 1

/-- What the service pair does: nothing while it is halted (R26). -/
def State.byService (s : State) (r : Res) : Res := if s.serviceRuns then r else .next s

/-- Block of a cell (R15). -/
def blockOfCell (c : Nat) : Nat := c / 16

/-- The plot that owns a block: the one whose PLT_BLOCKS has its bit (R372). -/
def State.ownerOfBlock (s : State) (b : Nat) : Option Nat :=
  (List.range 8).find? fun p => (s.fld Fld.PLT_BLOCKS_BLOCKS p).testBit b

/-- The plot that owns a cell. -/
def State.ownerOfCell (s : State) (c : Nat) : Option Nat := s.ownerOfBlock (blockOfCell c)

/-- The plot whose window holds a local address (R361): windows of stacks and bonded DRAM, cold-frame segments, and the
scratchpads and block memories of its blocks. -/
def State.ownsByte (s : State) (p a : Nat) : Bool :=
  match s.plot p with
  | none => false
  | some q =>
    match placeOf a with
    | .stack r o =>
      decide (q.stackBase.getD r 0 * 2 ^ 30 ≤ o) &&
        decide (o < (q.stackBase.getD r 0 + q.stackSize.getD r 0) * 2 ^ 30) && decide (o < firmwareOff)
    | .dram r o =>
      decide (q.dramBase.getD r 0 * 2 ^ 30 ≤ o) && decide (o < (q.dramBase.getD r 0 + q.dramSize.getD r 0) * 2 ^ 30)
    | .spad c _ => (s.fld Fld.PLT_BLOCKS_BLOCKS p).testBit (blockOfCell c)
    | .block b _ => (s.fld Fld.PLT_BLOCKS_BLOCKS p).testBit b
    | .cold j _ => decide (q.coldFirst ≤ j) && decide (j < q.coldFirst + q.coldCount) && s.bit Fld.MEM_COLD_SEG_VALID j
    | .register _ => false
    | .none => false

/-- The end of the piece of the address map that holds an address, within which no window begins or ends (R252, R361): a GiB of stack or
bonded DRAM, a scratchpad, a block memory, a segment. -/
def unitEnd (a : Nat) : Nat :=
  match placeOf a with
  | .stack _ _ | .dram _ _ => (a / 2 ^ 30 + 1) * 2 ^ 30
  | .spad c _ => spadBase (c + 1)
  | .block b _ => blockBase (b + 1)
  | .cold _ _ => (a / 2 ^ 32 + 1) * 2 ^ 32
  | _ => a + 1

/-- Whether a plot's windows hold every byte from `a` up to `e`, piece by piece; the first argument bounds the pieces. -/
def State.ownsUpTo (s : State) (p e : Nat) : Nat → Nat → Bool
  | 0, a => decide (e ≤ a)
  | f + 1, a => decide (e ≤ a) || (s.ownsByte p a && State.ownsUpTo s p e f (unitEnd a))

/-- Whether a plot's windows hold every byte of a range; no piece is smaller than a scratchpad. -/
def State.ownsRange (s : State) (p a n : Nat) : Bool := s.ownsUpTo p (a + n) (n / spadSize + 2) a

/-- Region of a local address and offset within its tier's range of R252, with the tier: 0 SRAM, 1 bonded DRAM, 2 stacks. -/
def tierOf (a : Nat) : Option (Nat × Nat × Nat) :=
  match placeOf a with
  | .spad c _ => some (c / 128, 0, a - 0x20000000000)
  | .block b _ => some (b / 8, 0, a - 0x20030000000)
  | .dram r _ => some (r, 1, a - 0x10000000000)
  | .stack r _ => some (r, 2, a)
  | _ => none

/-- Whether a local address lies in the firmware area (R254). -/
def inFirmware (a : Nat) : Bool :=
  match placeOf a with
  | .stack _ o => decide (firmwareOff ≤ o)
  | _ => false

/-- The PLOT code of MEM_ECC_INFO for the line of an address (R268). -/
def State.eccPlot (s : State) (a : Nat) : Nat :=
  if inFirmware a then 0xF else ((List.range 8).find? fun p => s.ownsByte p a).getD 0xE

/-- Records an uncorrectable error (kind 1), a read of a poisoned line (2) or a partial write to one (3) at a local address, the
first since the last read (R268); errors of bonded DRAM and the stacks are reported to the service pair (R260). -/
def State.recordEcc (s : State) (a kind : Nat) (scrub : Bool) : State :=
  match tierOf a with
  | none => s
  | some (r, t, off) =>
    let s := if t ≠ 0 ∧ kind ≠ 3 then { s with eccReports := s.eccReports ++ [a] } else s
    if s.bit Fld.MEM_ECC_INFO_VALID r then s.setBit Fld.MEM_ECC_INFO_OVERRUN r true
    else
      let w := 2 ^ 31 + kind * 2 ^ 28 + t * 2 ^ 26 + (if scrub then 2 ^ 25 else 0) + s.eccPlot a * 2 ^ 16
      let w := w + (if s.bit Fld.MEM_ECC_INFO_OVERRUN r then 2 ^ 30 else 0)
      (s.setReg .MEM_ECC_INFO r (BitVec.ofNat 32 w)).setReg .MEM_ECC_ADDR r (BitVec.ofNat 32 (off / 256))

/-- Asks for a reset (R22, R399); a request for a domain already asked for merges into it (R23). -/
def State.requestReset (s : State) (level cause index : Nat) (cell : Option Nat) (ended : List (Nat × Task) := []) : State :=
  if s.resets.any fun q => q.level == level && q.index == index then
    { s with resets := s.resets.map fun q => if q.level == level && q.index == index then { q with ended := q.ended ++ ended } else q }
  else { s with resets := s.resets ++ [⟨level, cause, index, s.sundial, cell, ended, s.clock⟩] }

/-- Whether an agent reaches the privileged view: the pairs in secure mode, and PF0 until it drops its secure state (R425, R427). -/
def State.privOk (s : State) (a : Agent) : Bool :=
  match a with
  | .mgmt | .service => true
  | .pf0 => !s.bit Fld.HUB_PRIV_LOCK_DROP 0
  | .coreOther | .vf _ => false

/-- Whether any cell of a block runs a task. -/
def State.blockBusy (s : State) (b : Nat) : Bool := (List.range 16).any fun i => (s.cell (16 * b + i)).task.isSome

/-- Whether any cell of a block runs or queues a task. -/
def State.blockHeld (s : State) (b : Nat) : Bool :=
  (List.range 16).any fun i => (s.cell (16 * b + i)).task.isSome || (s.cell (16 * b + i)).queued.isSome

end Sys2Proof.Machine
end

