-- ==== Sys2Proof/Machine/Access.lean ====
section
/-!
DEFINITION. Reads and writes through every range of the address map (R252, R256), with poison (R259).
-/

namespace Sys2Proof.Machine
open Sys2Proof

/-- The host bus address behind a cold-frame address (R256). -/
def State.coldHost (s : State) (seg off : Nat) : Nat := s.fld Fld.MEM_COLD_SEG_HOST seg * 2 ^ 32 + off

/-- One byte read through the local address map (R252). -/
def State.loadByte (s : State) (a : Nat) : Byte :=
  match placeOf a with
  | .cold j o => s.hostByte (s.coldHost j o)
  | _ => s.byteAt a

/-- `n` bytes read through the local address map. -/
def State.loadBytes (s : State) (a n : Nat) : List Byte := (List.range n).map fun i => s.loadByte (a + i)

/-- Reads `n` bytes through the address map as a number, least significant first. -/
def State.loadLe (s : State) (a n : Nat) : Nat := leNat (s.loadBytes a n)

/-- The first poisoned line met by a read of `n` bytes (R259). -/
def State.firstPoison (s : State) (a n : Nat) : Option Nat :=
  (s.poison.find? fun e => e.2 && decide (a < e.1 * 64 + 64) && decide (e.1 * 64 < a + n)).map fun e => e.1 * 64

/-- Writes bytes line by line (R259): a full line clears its poison, a part of a poisoned line is dropped; answers the first line
whose bytes were dropped. -/
def State.storeLines : Nat → State → Nat → List Byte → Option Nat → State × Option Nat
  | 0, s, _, _, bad => (s, bad)
  | f + 1, s, a, bs, bad =>
    let n := 64 - a % 64
    let now := bs.take n
    if now.isEmpty then (s, bad)
    else if s.poisoned a && decide (now.length < 64) then
      State.storeLines f s (a + n) (bs.drop n) (bad.or (some (a / 64 * 64)))
    else
      let s := if s.poisoned a then s.setPoison a false else s
      State.storeLines f (s.writeBytes a now) (a + n) (bs.drop n) bad

/-- Writes bytes through the cold-frame window, segment by segment (R256). -/
def State.storeCold : Nat → State → Nat → List Byte → State
  | 0, s, _, _ => s
  | f + 1, s, a, bs =>
    match placeOf a with
    | .cold j o =>
      let n := unitEnd a - a
      let s := s.writeHost (s.coldHost j o) (bs.take n)
      if bs.length ≤ n then s else State.storeCold f s (a + n) (bs.drop n)
    | _ => s

/-- Writes bytes through the local address map; answers the first poisoned line hit. -/
def State.storeBytes (s : State) (a : Nat) (bs : List Byte) : State × Option Nat :=
  match placeOf a with
  | .cold _ _ => (State.storeCold (bs.length / 2 ^ 32 + 2) s a bs, none)
  | .stack _ _ | .dram _ _ => State.storeLines (bs.length / 64 + 2) s a bs none
  | _ => (s.writeBytes a bs, none)

/-- A write by a unit of the chip itself (R251, R259): a part of a poisoned line is dropped and recorded. -/
def State.putBytes (s : State) (a : Nat) (bs : List Byte) : State :=
  match s.storeBytes a bs with
  | (s, some line) => s.recordEcc line 3 false
  | (s, none) => s

/-- Writes a number as `n` bytes, least significant first, under the rules of partial writes. -/
def State.putLe (s : State) (a n v : Nat) : State := s.putBytes a (leBytes n v)

/-- A read by a unit of the chip itself is recorded where it meets a poisoned line (R259, R260). -/
def State.noteRead (s : State) (a n : Nat) : State :=
  match s.firstPoison a n with
  | some line => s.recordEcc line 2 false
  | none => s

end Sys2Proof.Machine
end

