-- ==== Sys2Proof/Machine/Rings.lean ====
section
/-!
DEFINITION. A plot's rings (R136, R281): the ring header, command and request entries, completions (R137) and admission
replies (R287).
-/

namespace Sys2Proof.Machine
open Sys2Proof

/-- Ring header field offsets (R136). -/
def ringCmdHead : Nat := 0x00
def ringCplTail : Nat := 0x04
def ringCplHead : Nat := 0x08
def ringAdmHead : Nat := 0x0C
def ringRplTail : Nat := 0x10
def ringRplHead : Nat := 0x14

/-- Reads a ring index: only its low n bits are used (R136). -/
def State.ringIx (s : State) (q : Plot) (off n : Nat) : Nat := s.readLe (q.rings + off) 4 % 2 ^ n

/-- Address of command entry `i`. -/
def Plot.cmdAddr (q : Plot) (i : Nat) : Nat := q.rings + 64 + 64 * i

/-- Address of completion entry `i`. -/
def Plot.cplAddr (q : Plot) (i : Nat) : Nat := q.rings + 64 + 64 * 2 ^ q.kvmOrder + 16 * i

/-- Address of admission request `i`. -/
def Plot.admAddr (q : Plot) (i : Nat) : Nat := q.rings + 64 + 80 * 2 ^ q.kvmOrder + 128 * i

/-- Address of admission reply `i`. -/
def Plot.rplAddr (q : Plot) (i : Nat) : Nat := q.rings + 64 + 80 * 2 ^ q.kvmOrder + 128 * 2 ^ q.admOrder + 32 * i

/-- Free entries of a ring of 2^n entries (R136). -/
def ringFree (n head tail : Nat) : Nat := 2 ^ n - 1 - (tail + 2 ^ n - head) % 2 ^ n

/-- The STATUS codes of R138 and R201. -/
def stOk : Nat := 0x00
def stNoSpace : Nat := 0x01
def stNoSeq : Nat := 0x02
def stBadArg : Nat := 0x03
def stState : Nat := 0x04
def stShared : Nat := 0x05
def stDoubleFree : Nat := 0x06
def stNotOwned : Nat := 0x07
def stStale : Nat := 0x08
def stCutting : Nat := 0x09
def stLimit : Nat := 0x0A
def stBusy : Nat := 0x0B
def stLost : Nat := 0x11

/-- Writes a completion entry and then CPL_TAIL (R136, R137); a STATUS other than OK and STATE goes to the plot's event log
(R138). -/
def State.complete (s : State) (p tag status result : Nat) : State :=
  match s.plot p with
  | none => s
  | some q =>
    let t := s.ringIx q ringCplTail q.kvmOrder
    let s := s.putBytes (q.cplAddr t)
      (leBytes 4 tag ++ leBytes 1 status ++ leBytes 3 0 ++ leBytes 8 result)
    let s := s.putLe (q.rings + ringCplTail) 4 ((t + 1) % 2 ^ q.kvmOrder)
    if status = stOk ∨ status = stState then s else s.logCoded p 6 2 status tag

/-- Writes an admission reply and then RPL_TAIL (R287). -/
def State.reply (s : State) (p tag kind reason tick start : Nat) : State :=
  match s.plot p with
  | none => s
  | some q =>
    let t := s.ringIx q ringRplTail q.admOrder
    let s := s.putBytes (q.rplAddr t)
      (leBytes 4 tag ++ leBytes 1 kind ++ leBytes 1 reason ++ leBytes 2 0 ++ leBytes 8 tick ++ leBytes 8 start ++
        leBytes 8 s.taskSeq)
    s.putLe (q.rings + ringRplTail) 4 ((t + 1) % 2 ^ q.admOrder)

end Sys2Proof.Machine
end

