-- ==== Sys2Proof/Machine/Abort.lean ====
section
/-!
DEFINITION. Faults of cells and streams and the abort of a task (R77, R78, R79, R246, R247, R289, R404): one shared set of
operations for every party that can end a task.
-/

namespace Sys2Proof.Machine
open Sys2Proof

/-- Fault codes of R78. -/
def fcResidue : Nat := 0x01
def fcSpadEcc : Nat := 0x02
def fcAddr : Nat := 0x03
def fcOpcode : Nat := 0x04
def fcTrigForeign : Nat := 0x05
def fcStream : Nat := 0x06
def fcSfuTable : Nat := 0x07
def fcFrost : Nat := 0x08
def fcDeadline : Nat := 0x09
def fcReset : Nat := 0x0A
def fcBlkEcc : Nat := 0x0B

/-- Cell states of R79. -/
def csIdle : Nat := 0x0
def csRunning : Nat := 0x1
def csWaiting : Nat := 0x2
def csTransfer : Nat := 0x3
def csAborted : Nat := 0x4
def csReset : Nat := 0x5
def csOut : Nat := 0x6

/-- Stream states of R248. -/
def ssFree : Nat := 0x0
def ssArmed : Nat := 0x1
def ssRunning : Nat := 0x2
def ssSem : Nat := 0x3
def ssIndex : Nat := 0x4
def ssParked : Nat := 0x5
def ssAborted : Nat := 0x6
def ssFaulted : Nat := 0x7

/-- Records a fault in CEL_FAULT_INFO: only when VALID is clear and the cell is not ABORTED; otherwise OVERRUN alone (R78,
R79). -/
def State.recordCellFault (s : State) (c code index : Nat) : State :=
  if s.bit Fld.CEL_FAULT_INFO_VALID c || s.fld Fld.CEL_STATE_STATE c == csAborted then
    s.setFld Fld.CEL_FAULT_INFO_OVERRUN c 1
  else
    ((s.setFld Fld.CEL_FAULT_INFO_VALID c 1).setFld Fld.CEL_FAULT_INFO_INDEX c index).setFld Fld.CEL_FAULT_INFO_CODE c code

/-- Marks scratchpad ranges of a cell undefined. -/
def State.undefineRanges (s : State) (c : Nat) (rs : List Range) : State :=
  rs.foldl (fun s r => s.undefineBytes (spadBase c + r.lo) r.len) s

/-- Whether a waiting transfer serves a task: a fused drain of the running task, or a transfer of one of its streams (R78, R245); what a
collective brings stays. -/
def State.transferOf (s : State) (tid : Nat) (q : Transfer) : Bool :=
  match q.stream with
  | none => q.port == .drain
  | some i => (s.stream i).any fun t => t.task == tid

/-- Takes a cell's task out of it (R78): what has not retired is discarded and its ranges become undefined, slots and pairs are
released, unacknowledged fused drains are noted (R77, R333), vectors in the pipeline dropped (R93), merges of the task ended (R124); the cell is ABORTED. -/
def State.discardCell (s : State) (c : Nat) : State :=
  let x := s.cell c
  let b := blockOfCell c
  let tid := x.task.getD 0
  let s := x.inflight.foldl (fun s f => s.undefineRanges c f.dst) s
  let bl := s.block b
  let lost := (x.drains.map (·.fused) ++ x.inflight.map (·.fused)).filter fun f => bitsAt f 29 3 != 0
  let s := { s with lostDrains := s.lostDrains ++ lost.map fun f => (bitsAt f 0 10, s.sundial) }
  let dead := bl.merges.filter fun m => decide (x.task = some m.task)
  let s := dead.foldl (fun s m => s.undefineBytes (blockBase b + m.buf) m.bytes) s
  let s := s.setBlock b { s.block b with
    pipe := bl.pipe.filter fun v => v.cell != c % 16
    merges := bl.merges.filter fun m => decide (x.task ≠ some m.task)
    maskTile := Table.del bl.maskTile (c % 16) }
  let s := s.setCell c { x with
    task := none, ended := false, slots := [], tiles := [], norm := none, scoreArea := none, visible := [],
    inflight := [], sfn := none, drains := [], transfers := x.transfers.filter fun q => !s.transferOf tid q, held := 0, stopping := false,
    loops := [], pairs := x.pairs.filter fun e => e.2.task != tid }
  (s.setFld Fld.CEL_STATE_STATE c csAborted).setFld Fld.CEL_STATE_HOLDER c 0

/-- An abort signalled to one cell of a task: recorded with the given code where one is due, a queued task simply leaves. -/
def State.abortCell (s : State) (tid : Nat) (code : Option Nat) (c : Nat) : State :=
  let x := s.cell c
  if x.task = some tid then
    let s := match code with
      | some k => s.recordCellFault c k 0xFFFF
      | none => s
    s.discardCell c
  else if x.queued = some tid then s.setCell c { x with
    queued := none
    pairs := x.pairs.filter fun e => e.2.task != tid
    transfers := x.transfers.filter fun q => q.stream.isNone || !s.transferOf tid q }
  else s

/-- Whether every cell of the set takes part in every tile (R237, R238): CHAIN, COPY, and a GATHER with BROADCAST. -/
def Stream.toAll (t : Stream) : Bool := t.kind == 2 || t.kind == 3 || (t.kind == 0 && t.sflags.testBit 2)

/-- The cells of a stream's set. -/
def Stream.cellSet (t : Stream) : List Nat := (List.range t.cells).map fun i => t.firstCell + i

/-- Cells that take part in a tile of a stream (R237, R238). -/
def Stream.tileCells (t : Stream) (k : Nat) : List Nat :=
  if t.toAll then t.cellSet else if t.cells = 0 then [] else [t.firstCell + k % t.cells]

/-- The number of tile `k` within the cell it goes to. -/
def Stream.cellTile (t : Stream) (k : Nat) : Nat := if t.toAll || t.cells == 0 then k else k / t.cells

/-- Scratchpad offset of the ring slot of tile `k` (R234). -/
def Stream.slotOff (t : Stream) (k : Nat) : Nat := t.ring + (t.cellTile k % t.depth) * 2 ^ t.tileLog

/-- Ring slots that the tiles of a GATHER or CHAIN have touched: those of the latest DEPTH tiles of every cell. -/
def Stream.ringTouched (t : Stream) : List (Nat × Nat) :=
  if t.kind = 0 ∨ t.kind = 2 then
    let n := t.tile + (if t.taken then 1 else 0)
    let back := t.depth * (if t.toAll then 1 else max 1 t.cells)
    (List.range (min n back)).flatMap fun i => (t.tileCells (n - 1 - i)).map fun c => (spadBase c + t.slotOff (n - 1 - i), 2 ^ t.tileLog)
  else []

/-- After an abort the tiles, trailers, masks and unacknowledged destinations that the stream touched hold undefined data (R247). -/
def State.undefineTiles (s : State) (t : Stream) : State :=
  (t.ringTouched ++ t.touched.map fun e => (e.2.1, e.2.2)).foldl (fun s e => s.undefineBytes e.1 e.2) s

/-- Takes a stream's pairs and waiting transfers out of its cells (R247 step 4). -/
def State.dropLinks (s : State) (i : Nat) (t : Stream) : State :=
  t.cellSet.foldl (fun s c =>
    let x := s.cell c
    s.setCell c { x with
      pairs := x.pairs.filter fun e => decide (e.2.owner ≠ .stream i)
      transfers := x.transfers.filter fun q => decide (q.stream ≠ some i) }) s

/-- Brings STM_STATUS of engine `e` up to date (R248). -/
def State.engineStatus (s : State) (e : Nat) : State :=
  let n := (s.streams.filter fun q => q.1 / 8 == e).length
  let s := s.setFld Fld.STM_STATUS_ARMED e n
  if s.fld Fld.STM_STATUS_STATE e = 2 then s else s.setFld Fld.STM_STATUS_STATE e (if n = 0 then 0 else 1)

/-- Removes a context from the table, or parks it (R239, R247). -/
def State.endStream (s : State) (i : Nat) (t : Stream) (state : Nat) : State :=
  if t.sflags.testBit 0 then
    ({ s with armSeq := s.armSeq + 1 }.setStream i { t with
      running := false, ended := true, run := 0, tiles := [], taken := false, cur := [], touched := [], fill := 0, moved := 0, loops := [],
      bind := [], dq := [], xq := [], pc := 0, task := 0, arming := s.armSeq, runEnd := s.sundial }).setFld
      Fld.STM_STREAM_STATE_STATE i ssParked
  else
    (({ s with streams := Table.del s.streams i }).setFld Fld.STM_STREAM_STATE_STATE i state).engineStatus (i / 8)

/-- Records a stream's fault (R246, R248). -/
def State.recordStream (s : State) (i code instr detail : Nat) : State :=
  s.recordInfo .STM_FAULT_INFO i (code * 2 ^ 24 + instr * 2 ^ 18 + detail % 65536)

/-- A stream of an aborted task stops (R247 steps 3 to 5): ABORTED unless it is the faulting one. -/
def State.abortStream (s : State) (tid : Nat) (faulting : Option Nat) (i : Nat) : State :=
  match s.stream i with
  | none => s
  | some t =>
    if t.task ≠ tid then s
    else
      let s := (s.undefineTiles t).dropLinks i t
      if faulting = some i then s.endStream i t ssFaulted
      else (s.recordStream i 0xA t.pc 0).endStream i t ssAborted

/-- The first fault code recorded by a cell of the task (R404), for the ABORTED record. -/
def State.taskFault (s : State) (t : Task) (dflt : Nat) : Nat :=
  match t.cells.find? fun c => s.bit Fld.CEL_FAULT_INFO_VALID c && s.fld Fld.CEL_STATE_STATE c == csAborted with
  | some c => s.fld Fld.CEL_FAULT_INFO_CODE c
  | none => dflt

/-- The end of a task starts the timers of the operations that its steps are bound to (R318, R333). -/
def State.noteTaskEnd (s : State) (tid : Nat) : State :=
  let l := (s.colSteps.filter fun e => e.2.any fun q => q.1 == tid && q.2 != 0).map fun e => (e.1, s.sundial)
  { s with lostDrains := s.lostDrains ++ l }

/-- The abort of a task (R247, R289): every cell and stream of it stops, its events are dropped (R279), admission writes ABORTED
with the fault code and the reservation is released. `others` is the code its cells record, `detect` a cell that has already
handled the fault itself, `faulting` the stream that recorded it. -/
def State.abortTask (s : State) (tid : Nat) (reason : Nat) (others : Option Nat) (detect : Option Nat)
    (faulting : Option Nat) : State :=
  match s.task tid with
  | none => s
  | some t =>
    let s := (t.cells.filter fun c => decide (detect ≠ some c)).foldl (fun s c => s.abortCell tid others c) s
    let s := t.streams.foldl (fun s i => s.abortStream tid faulting i) s
    let s := { s with
      tasks := Table.del s.tasks tid
      events := s.events.filter fun e => decide (e.task ≠ some tid) }
    let s := { s with rbatches := s.rbatches.map fun (e : Nat × RBatch) =>
      (e.1, if t.service && e.2.task == tid then { e.2 with aborted := some 0x0F } else e.2) }
    let s := s.noteTaskEnd tid
    if t.accepted && !t.service then s.reply t.plot t.tag 0x05 reason s.sundial 0 else s

/-- Aborts a task with DEADLINE at its completion tick or under R290, and counts it (R293). -/
def State.abortLate (s : State) (tid : Nat) : State :=
  match s.task tid with
  | none => s
  | some t => (s.abortTask tid fcDeadline (some fcDeadline) none none).addSat Fld.ADM_ABORT_COUNT_COUNT t.plot 1

/-- The reset a cell fault code requests (R78, R399): level, cause and number. -/
def resetOfCellFault (c code : Nat) : Option (Nat × Nat × Nat) :=
  if code = fcResidue then some (1, 0x01, c)
  else if code = fcSpadEcc then some (1, 0x02, c)
  else if code = fcSfuTable then some (2, 0x04, blockOfCell c)
  else if code = fcBlkEcc then some (2, 0x03, blockOfCell c)
  else none

/-- What the other cells of a task record when a cell of it faults (R78, R404): RESET where the fault requests a reset, the code
itself for a block-memory error ("its cells record"), nothing otherwise. -/
def othersRecord (code : Nat) : Option Nat :=
  if code = fcBlkEcc then some fcBlkEcc
  else if code = fcResidue ∨ code = fcSpadEcc ∨ code = fcSfuTable then some fcReset
  else none

/-- Requests the reset that a cell fault code asks for, with the tasks that the fault ended (R78, R399). -/
def State.faultReset (s : State) (c code : Nat) (ended : List (Nat × Task)) : State :=
  match resetOfCellFault c code with
  | some (l, k, i) => s.requestReset l k i (some c) ended
  | none => s

/-- A fault met by cell `c` (R78): recorded, the cell ABORTED, the task aborted, the reset of its code requested. A cell without a task
records it, is ABORTED unless it is in reset or out of service, and has its reset requested all the same. -/
def State.cellFault (s : State) (c code index : Nat) : State :=
  let x := s.cell c
  let s := s.recordCellFault c code index
  match x.task with
  | none =>
    let st := s.fld Fld.CEL_STATE_STATE c
    (if st = csReset ∨ st = csOut then s else s.setFld Fld.CEL_STATE_STATE c csAborted).faultReset c code []
  | some tid => ((s.discardCell c).faultReset c code (s.taskPair tid)).abortTask tid code (othersRecord code) (some c) none

/-- A fault met by stream `i` at instruction `instr` (R246): recorded with its detail, and the whole task aborts with STREAM. -/
def State.streamFaultAt (s : State) (i instr code detail : Nat) : State :=
  match s.stream i with
  | none => s
  | some t =>
    let s := s.recordStream i code instr detail
    match s.task t.task with
    | none => ((s.undefineTiles t).dropLinks i t).endStream i t ssFaulted
    | some _ => s.abortTask t.task fcStream (some fcStream) none (some i)

/-- A fault met by stream `i` at the instruction at hand. -/
def State.streamFault (s : State) (i code detail : Nat) : State :=
  s.streamFaultAt i ((s.stream i).elim 0 (·.pc)) code detail

/-- Counts a corrected error of tier `t` of region `r` (R258, R268). -/
def State.countEcc (s : State) (r t : Nat) : State := s.addSat Fld.MEM_ECC_COUNT_COUNT (3 * r + t) 1

end Sys2Proof.Machine
end

