-- ==== Sys2Proof/Machine/Operands.lean ====
section
/-!
DEFINITION. Operand forms of the cell's instructions: scratchpad vectors and tensors (R39, R40), the fused field (R74), the
attention descriptor (R106, R107), row and key tables (R110), visibility (R111, R125 to R127), and the SFN word (R82).
-/

namespace Sys2Proof.Machine
open Sys2Proof

/-! ### Fields of an instruction word -/

def opcodeOf (w : W128) : Nat := bitsAt w.toNat 88 8

/-- The fused communication field, bits [127:96] (R74). -/
def fusedOf (w : W128) : Nat := bitsAt w.toNat 96 32
def fusedKind (f : Nat) : Nat := bitsAt f 29 3
def fusedReserved (f : Nat) : Nat := bitsAt f 23 6
def fusedPiece (f : Nat) : Nat := bitsAt f 10 13
def fusedTrigger (f : Nat) : Nat := bitsAt f 0 10

/-- Opcodes of the words whose encoding the manual gives: ATS, ATV, ROWOUT, SFN, WAIT, POST. -/
def knownOpcode (n : Nat) : Bool :=
  n == 0x20 || n == 0x21 || n == 0x22 || n == 0x30 || n == 0x40 || n == 0x41

/-- The opcode of a class whose encoding the manual leaves to the toolchain (R64): 0 MMA, 1 VOP, 2 CVT, 3 LOOP, 4 JUMP, 5 END. -/
def opcodeFor (k : Nat) : Nat := (Config.opcode k).toNat

/-- An opcode of no instruction class: reserved (R78). -/
def reservedOpcode (n : Nat) : Bool := !knownOpcode n && (List.range 6).all fun k => n != opcodeFor k

/-- Whether a word is one of class `k`, or of no class at all, so that the command of that class meets it (R64, R78). -/
def isClass (k : Nat) (w : W128) : Bool := opcodeOf w == opcodeFor k || reservedOpcode (opcodeOf w)

/-- Encodings of R74 that do not abort. -/
def fusedLegal (f : Nat) : Bool := decide (fusedKind f ≤ 4) && fusedReserved f == 0

/-! ### Scratchpad -/

def State.spadBytes (s : State) (c off n : Nat) : List Byte := s.readBytes (spadBase c + off) n

def State.spadLe (s : State) (c off n : Nat) : Nat := s.readLe (spadBase c + off) n

def State.spadWrite (s : State) (c off : Nat) (bs : List Byte) : State := s.writeBytes (spadBase c + off) bs

/-- Whether a range lies in the scratchpad. -/
def Range.inSpad (r : Range) : Bool := decide (r.lo + r.len ≤ spadSize)

/-- Whether two ranges share a byte. -/
def Range.meets (a b : Range) : Bool := decide (a.lo < b.lo + b.len) && decide (b.lo < a.lo + a.len)

/-- Values of `n` consecutive unscaled elements. -/
def State.elemVals (s : State) (c off : Nat) (f : Fmt) (n : Nat) : List Val :=
  let raw := s.spadLe c off (f.bytesOf n)
  (List.range n).map fun j => decodeVal f (elemAt f raw j)

/-- Elements of one row of a tensor whose rows are padded to a multiple of 32 (R39). -/
def padded (k : Nat) : Nat := ceilDiv k 32 * 32

/-- The first `k` values of row `r` of a tensor, its block scales applied (R38 to R40), with the flags of the read. -/
def State.tensorRow (s : State) (c : Nat) (t : TensorRef) (r k : Nat) : List (Val × NumFlags) :=
  let raw := s.spadLe c (t.elems + r * t.fmt.bytesOf (padded k)) (t.fmt.bytesOf (padded k))
  (List.range k).map fun j =>
    let code := elemAt t.fmt raw j
    match t.scales with
    | none => (decodeVal t.fmt code, 0)
    | some sc => scaledVal t.fmt (s.byteAt (spadBase c + sc + r * (padded k / 32) + j / 32)) code

/-- Scratchpad ranges a tensor of `rows` × `k` occupies. -/
def TensorRef.ranges (t : TensorRef) (rows k : Nat) : List Range :=
  ⟨t.elems, rows * t.fmt.bytesOf (padded k)⟩ ::
    (match t.scales with
      | some sc => [⟨sc, rows * (padded k / 32)⟩]
      | none => [])

/-- An element array off its 64-byte boundary (R39): an address fault (notes/assumptions/38). -/
def TensorRef.misplaced (t : TensorRef) : Bool := t.elems % 64 != 0

/-- A tensor marked against R40: FP6 or FP4 without scales, or scales on a format that carries none. -/
def TensorRef.reserved (t : TensorRef) : Bool := (t.fmt.needsScale && t.scales.isNone) || (!t.fmt.mx && t.scales.isSome)

/-- A VOP source as FP32 codes. -/
def State.vecSrc (s : State) (c : Nat) (v : VecSrc) (n : Nat) : List Nat :=
  match v with
  | .spad off => (List.range n).map fun j => s.spadLe c (off + 4 * j) 4
  | .tile slot =>
    match Table.get (s.cell c).tiles slot with
    | none => (List.range n).map fun _ => 0
    | some t => (List.range n).map fun j => (Table.get t.elems j).getD 0

/-- Scratchpad ranges of a VOP source. -/
def VecSrc.ranges (n : Nat) : VecSrc → List Range
  | .spad off => [⟨off, 4 * n⟩]
  | .tile _ => []

/-- Slots of a VOP source. -/
def VecSrc.slots : VecSrc → List Nat
  | .spad _ => []
  | .tile slot => (List.range 16).map (slot + ·)

/-! ### The attention descriptor (R106) -/

structure AttDesc where
  off : Nat
  qk : Nat
  vf : Nat
  dimc : Nat
  mode : Nat
  wlog : Nat
  ofmt : Nat
  score : Nat
  outScale : Nat
  slotBase : Nat
  rows : Nat
  mergeSet : Nat
  sarea : Nat
  sstride : Nat
  qtab : Nat
  ktrail : Nat
  kposBase : Nat
  kposLast : Nat
  maskBase : Nat
  status : Nat
  inflags : Nat
  mergeBuf : Nat
  ncontig : Nat
  rsv : Nat
  deriving DecidableEq, Repr

/-- Reads the descriptor at scratchpad offset `off`. -/
def State.attDesc (s : State) (c off : Nat) : AttDesc :=
  let d := s.spadLe c off 64
  let b := fun i n => bitsAt d (8 * i) (8 * n)
  { off := off, qk := bitsAt d 0 3, vf := bitsAt d 3 3, dimc := bitsAt d 6 2, mode := b 1 1, wlog := b 2 1, ofmt := b 3 1,
    score := b 4 4, outScale := b 8 4, slotBase := b 12 1, rows := b 13 1, mergeSet := b 14 2, sarea := b 16 4,
    sstride := b 20 4, qtab := b 24 4, ktrail := b 28 4, kposBase := b 32 4, kposLast := b 36 4, maskBase := b 40 4,
    status := b 44 4, inflags := b 48 4, mergeBuf := b 52 4, ncontig := b 56 2, rsv := b 58 6 }

/-- Head dimension d. -/
def AttDesc.dim (d : AttDesc) : Nat := 64 * 2 ^ d.dimc

/-- Slots a row takes (R73, R107). -/
def AttDesc.span (d : AttDesc) : Nat := if d.dimc = 2 then 2 else 1

def AttDesc.qkFmt (d : AttDesc) : Fmt := if d.qk = 0 then .e4m3 else if d.qk = 1 then .e5m2 else .bf16

def AttDesc.vFmt (d : AttDesc) : Fmt :=
  if d.vf = 0 then .e4m3 else if d.vf = 1 then .e5m2 else if d.vf = 2 then .bf16 else .fp16

def AttDesc.outFmt (d : AttDesc) : Fmt :=
  if d.ofmt = 0 then .e4m3 else if d.ofmt = 1 then .e5m2 else if d.ofmt = 2 then .bf16 else if d.ofmt = 3 then .fp16 else .fp32

def AttDesc.causal (d : AttDesc) : Bool := d.mode.testBit 0
def AttDesc.windowed (d : AttDesc) : Bool := d.mode.testBit 1

/-- The OPCODE checks of R107. -/
def AttDesc.badEncoding (d : AttDesc) : Bool :=
  decide (2 < d.qk) || decide (3 < d.vf) || d.dimc == 3 || decide (3 < d.mode) || decide (4 < d.ofmt) ||
  (d.dimc == 2 && d.qk == 2) || (d.windowed && (decide (d.wlog < 8) || decide (20 < d.wlog))) ||
  !(d.sstride == 256 || d.sstride == 512 || d.sstride == 768 || d.sstride == 1024) || d.rsv != 0

/-- A scratchpad offset that is not a multiple of 64, or a range beyond the scratchpad. -/
def badSpad (off n : Nat) : Bool := off % 64 != 0 || decide (spadSize < off + n)

/-- The ADDR checks of R105 and R107 for cell `c` of a block. -/
def AttDesc.badAddress (d : AttDesc) (local' : Nat) : Bool :=
  badSpad d.sarea (64 * d.sstride) || badSpad d.qtab (8 * (d.rows + 1)) || badSpad d.ktrail 8 ||
  badSpad d.status (4 * (d.rows + 1)) || (d.inflags != 0xFFFFFFFF && badSpad d.inflags 4) ||
  decide (255 < d.slotBase + d.span * (d.rows + 1) - 1) || decide (63 < d.rows) ||
  (d.mergeSet != 0 && !d.mergeSet.testBit local')

/-- First slot of row `r`. -/
def AttDesc.rowSlot (d : AttDesc) (r : Nat) : Nat := d.slotBase + d.span * r

/-! ### Rows and keys (R110) -/

structure RowEntry where
  pos : Nat
  global : Bool
  cand : Bool
  node : Nat
  depth : Nat
  deriving DecidableEq, Repr

/-- Row table entry `r`. -/
def State.rowEntry (s : State) (c : Nat) (d : AttDesc) (r : Nat) : RowEntry :=
  let v := s.spadLe c (d.qtab + 8 * r) 8
  ⟨bitsAt v 0 32, v.testBit 32, v.testBit 33, bitsAt v 40 4, bitsAt v 44 4⟩

structure KeyEntry where
  pos : Nat
  valid : Bool
  global : Bool
  recalled : Bool
  deriving DecidableEq, Repr

/-- Key `i` of tile `kindex` (R110): contiguous tiles from KPOS_BASE, others from their trailer. -/
def State.keyEntry (s : State) (c : Nat) (d : AttDesc) (kindex i : Nat) : KeyEntry :=
  if kindex < d.ncontig then
    let p := d.kposBase + kindex * 64 + i
    ⟨p, decide (p ≤ d.kposLast) && decide (p < 2 ^ 32), false, false⟩
  else
    let v := s.spadLe c (d.ktrail + (kindex - d.ncontig) * 512 + 8 * i) 8
    ⟨bitsAt v 0 32, v.testBit 32, v.testBit 33, v.testBit 34⟩

/-- Whether a key lies in the window of a row (R125). -/
def inWindow (d : AttDesc) (q k : Nat) : Bool :=
  if d.causal then decide (k ≤ q) && decide (q - k < 2 ^ d.wlog)
  else decide (q - k < 2 ^ d.wlog) && decide (k - q < 2 ^ d.wlog)

/-- Visibility of a key to a row (R111, R125 to R127); `bit` is the mask bitmap's bit, set where no bitmap applies. -/
def keyVisible (d : AttDesc) (r : RowEntry) (k : KeyEntry) (bit : Bool) : Bool :=
  k.valid && bit && (!d.causal || decide (k.pos ≤ r.pos)) &&
  (if d.windowed then
    (if k.global || k.recalled then !inWindow d r.pos k.pos else inWindow d r.pos k.pos || r.global)
  else !k.global && !k.recalled)

/-! ### The SFN word (R82) -/

structure SfnWord where
  func : Nat
  ifmt : Nat
  ofmt : Nat
  scalek : Int
  auxMode : Nat
  vcount : Nat
  src : Nat
  dst : Nat
  aux : Nat
  deriving DecidableEq, Repr

def sfnWord (w : W128) : SfnWord :=
  let n := w.toNat
  ⟨bitsAt n 82 6, bitsAt n 79 3, bitsAt n 76 3, signedOf 6 (bitsAt n 70 6), bitsAt n 68 2, bitsAt n 63 5, bitsAt n 42 21,
    bitsAt n 21 21, bitsAt n 0 21⟩

def SfnWord.inFmt (w : SfnWord) : Fmt := if w.ifmt = 0 then .fp32 else if w.ifmt = 1 then .bf16 else .fp16

def SfnWord.outFmt (w : SfnWord) : Fmt :=
  if w.ofmt = 0 then .fp32 else if w.ofmt = 1 then .bf16 else if w.ofmt = 2 then .fp16 else if w.ofmt = 3 then .e4m3
  else if w.ofmt = 4 then .e5m2 else .wx32

def SfnWord.inSize (w : SfnWord) : Nat := w.inFmt.bytesOf 1
def SfnWord.outSize (w : SfnWord) : Nat := w.outFmt.bytesOf 1
def SfnWord.vectors (w : SfnWord) : Nat := w.vcount + 1

/-- Whether AUX is an offset (and not a slot number). -/
def SfnWord.auxIsOffset (w : SfnWord) : Bool := w.func != 0x10 && w.func != 0x11 && w.auxMode != 0

/-- Bytes of one auxiliary block (R85, R91). -/
def SfnWord.auxBlock (w : SfnWord) : Nat := if w.func = 0x12 then 128 * w.inSize else 1024

/-- Bytes of auxiliary data an instruction reads. -/
def SfnWord.auxBytes (w : SfnWord) : Nat := w.auxBlock * (if w.auxMode = 2 then w.vectors else 1)

/-- Bytes read at SRC. -/
def SfnWord.srcBytes (w : SfnWord) : Nat := if w.func = 0x11 then 64 else w.vectors * 128 * w.inSize

/-- Bytes written at DST. -/
def SfnWord.dstBytes (w : SfnWord) : Nat :=
  if w.func = 0x10 then 0 else if w.func = 0x11 then 4 else w.vectors * 128 * w.outSize

/-- The OPCODE checks of R82, R83, R86, R89 and R90. -/
def SfnWord.badEncoding (w : SfnWord) : Bool :=
  let known := decide (w.func ≤ 7) || w.func == 0x10 || w.func == 0x11 || w.func == 0x12 || (decide (0x20 ≤ w.func) && decide (w.func ≤ 0x23))
  !known || decide (2 < w.ifmt) || decide (5 < w.ofmt) || w.auxMode == 3 ||
  (w.ofmt == 5 && (!(w.func == 0 || w.func == 1 || w.func == 2) || decide (0 < w.scalek))) ||
  (w.func == 0x10 && (w.auxMode == 0 || bitsAt w.aux 8 13 != 0)) ||
  (w.func == 0x11 && (w.vcount != 0 || w.ofmt != 0 || bitsAt w.aux 8 13 != 0))

/-- The ADDR checks of R83. -/
def SfnWord.badAddress (w : SfnWord) : Bool :=
  badSpad w.src w.srcBytes || (w.func != 0x10 && badSpad w.dst w.dstBytes) || (w.auxIsOffset && badSpad w.aux w.auxBytes)

end Sys2Proof.Machine
end

