-- ==== Sys2Proof/Machine/Flags.lean ====
section
/-!
DEFINITION. Flags of numeric results: the sticky flags of CEL_NUM_STATUS (R53), the slot status of an attention row (R105,
R114, R116, R118, R119), the drain flags (R118) and the row status word (R123).
-/

namespace Sys2Proof.Machine
open Sys2Proof

/-- Sets sticky flags of a cell (R53). -/
def State.addNumFlags (s : State) (c : Nat) (f : NumFlags) : State :=
  s.setReg .CEL_NUM_STATUS c (s.reg .CEL_NUM_STATUS c ||| f.setWidth 32)

/-- OR of the flags of a list. -/
def orFlags (l : List NumFlags) : NumFlags := l.foldl (· ||| ·) 0

/-- Slot status bits. -/
def SlotStatus.rangeExp : SlotStatus := 1
def SlotStatus.rangeAcc : SlotStatus := 2
def SlotStatus.under : SlotStatus := 4
def SlotStatus.nan : SlotStatus := 8
def SlotStatus.noKey : SlotStatus := 16

/-- Slot status bits that numeric flags set: RANGE_ACC, UNDER and NAN. -/
def slotOfNum (f : NumFlags) : SlotStatus :=
  (if NumFlags.has f NumFlags.rangeAcc then SlotStatus.rangeAcc else 0) |||
  (if NumFlags.has f NumFlags.under then SlotStatus.under else 0) |||
  (if NumFlags.has f (NumFlags.nanIn ||| NumFlags.invalid) then SlotStatus.nan else 0)

def SlotStatus.has (st m : SlotStatus) : Bool := st &&& m != 0

/-- Bits of the drain flags and of the INFLAGS word (R118, R120): 0 RANGE_EXP, 1 RANGE_ACC, 2 UNDER, 3 NAN_IN. -/
def drainOfSlot (st : SlotStatus) : BitVec 4 := st.setWidth 4

/-- Flags of a row being finished (R121, R123). -/
structure FinalFlags where
  empty : Bool
  nan : Bool
  outSat : Bool
  outUnder : Bool
  deriving DecidableEq, Repr

/-- The row status word (R123) in mode 0b01, from the slot status. -/
def statusFromSlot (st : SlotStatus) (f : FinalFlags) (r : RowEntry) : Nat :=
  let re := st.has SlotStatus.rangeExp
  let ra := st.has SlotStatus.rangeAcc
  2 ^ 31 + (re || ra || f.outSat).toNat * 2 ^ 30 + f.empty.toNat * 2 ^ 29 + (f.nan || st.has SlotStatus.nan).toNat * 2 ^ 28 +
  re.toNat * 2 ^ 27 + ra.toNat * 2 ^ 26 + (st.has SlotStatus.under).toNat * 2 ^ 25 + f.outSat.toNat * 2 ^ 24 +
  f.outUnder.toNat * 2 ^ 23 + (st.has SlotStatus.noKey).toNat * 2 ^ 22 + r.cand.toNat * 2 ^ 19 + r.node * 2 ^ 12 +
  r.depth * 2 ^ 8

/-- The row status word in mode 0b10, from the INFLAGS word, none where INFLAGS is 0xFFFF_FFFF. -/
def statusFromInflags (inf : Option Nat) (f : FinalFlags) (r : RowEntry) : Nat :=
  let gr := match inf with
    | some v => v.testBit 0 || v.testBit 1
    | none => false
  let go := match inf with
    | some v => v.testBit 2 || v.testBit 3
    | none => false
  2 ^ 31 + (f.outSat || gr).toNat * 2 ^ 30 + f.empty.toNat * 2 ^ 29 + f.nan.toNat * 2 ^ 28 + f.outSat.toNat * 2 ^ 24 +
  f.outUnder.toNat * 2 ^ 23 + gr.toNat * 2 ^ 21 + go.toNat * 2 ^ 20 + r.cand.toNat * 2 ^ 19 + inf.isNone.toNat * 2 ^ 18 +
  r.node * 2 ^ 12 + r.depth * 2 ^ 8

end Sys2Proof.Machine
end

