-- ==== Sys2Proof/Machine/Issue.lean ====
section
/-!
DEFINITION. Issue, flight and retirement of a cell's instructions (R63, R64, R70 to R78): every instruction of a cell goes
through the same checks, in the priority of R78, and enters the scoreboard.
-/

namespace Sys2Proof.Machine
open Sys2Proof

/-- What an instruction tells the issue unit: reserved encodings and bad ranges (R78), the ranges and slots it reads and writes
(R63), its unit, its cycles (R60, R62), whether a check or a last result is due before it retires, whether it waits for a block merge, the slots it releases,
the fused kinds it may carry, and slots it holds without being held back by them (R84). -/
structure IssuePlan where
  reserved : Bool
  badRange : Bool
  src : List Range
  dst : List Range
  slots : List Nat
  slotDst : List Nat
  exUnit : ExUnit
  cycles : Nat
  due : Bool
  merging : Bool
  release : List Nat
  kinds : List Nat
  hold : List Nat := []
  deriving DecidableEq, Repr

/-- Whether the work of a sequence group holds a word of a cell back: every word while the group check is due (R178), an attention word of a
ring until its hop 0 has launched (R188). -/
def State.groupHolds (s : State) (c : Nat) (w : W128) : Bool :=
  s.groups.any fun e => some e.2.task == (s.cell c).task &&
    (e.2.due || (opcodeOf w == 0x20 && s.loadLe (e.2.desc + 6) 1 == 1 && e.2.launched.isNone))

/-- Whether the issue unit of cell `c` is at this word: a task runs, it has not ended, the scratchpad is on the issue side and
the next instruction word is `w` (R63, R64), no group work holds it back, and issue has not stopped for a hand-over (R66); the scoreboard has a free entry: an
instruction in flight holds one, whatever the number of its ranges, and so does a drain not yet acknowledged (notes/assumptions/38). -/
def State.canIssue (s : State) (c : Nat) (w : W128) : Bool :=
  let x := s.cell c
  x.task.isSome && !x.ended && !x.inReset && !x.stopping && s.fld Fld.CEL_STATE_HOLDER c == 0 && decide (x.ibuf[x.next]? = some w) &&
  decide (x.inflight.length + x.drains.length < 8) && !s.groupHolds c w

/-- A source or destination that overlaps the destination of an instruction in flight or of a drain not yet acknowledged (R63,
R75). -/
def Cell.conflicts (x : Cell) (p : IssuePlan) : Bool :=
  (p.src ++ p.dst).any (fun r => (x.inflight.flatMap (·.dst) ++ x.drains.flatMap (·.ranges)).any fun q => r.meets q) ||
  (p.slots ++ p.slotDst).any (fun i => (x.inflight.flatMap (·.slotDst) ++ x.drains.flatMap (·.release)).contains i)

/-- Drops slots and the tiles that begin in them (R61). -/
def Cell.releaseSlots (x : Cell) (l : List Nat) : Cell :=
  { x with slots := x.slots.filter fun e => !l.contains e.1, tiles := x.tiles.filter fun e => !l.contains e.1 }

/-- Transfer tile of an operation of a chain (R65): a power of two from 512 bytes to 64 KiB. -/
def collectiveTile (c i : Nat) : Nat := 512 * 2 ^ (Config.collectiveTile c i % 8)

/-- Transfer tile of a fused drain (R65): that of the first FUSED operation on its counter, in flight or armed (notes/assumptions/38). -/
def State.drainTile (s : State) (f : Nat) : Nat :=
  let fits := fun (d : OpDesc) => d.oflags.testBit 0 && d.trigger == fusedTrigger f
  match s.ops.find? fun x => fits x.op with
  | some x => collectiveTile x.chain x.index
  | none =>
    match s.chains.findSome? fun e => (e.2.ops.findIdx? fits).map fun i => (e.1, i) with
    | some (c, i) => collectiveTile c i
    | none => 65536

/-- What one retiring instruction does (R75, R118): a fused one posts its destination ranges to the drain port, any other
releases its slots. -/
def Cell.retireOne (tile : Nat → Nat) (x : Cell) (f : InFlight) : Cell :=
  if fusedKind f.fused = 0 ∨ f.dst.isEmpty then x.releaseSlots f.release
  else
    { x with
      drains := x.drains ++ [⟨f.dst, f.fused, f.drainFlags, f.release⟩]
      transfers := x.transfers ++ f.dst.map fun r => { port := .drain, bytes := r.len, tile := tile f.fused, stream := none } }

/-- Retires every instruction at the head of the flight list that owes nothing more (program order, R63). -/
def retireFrom (tile : Nat → Nat) : List InFlight → Cell → Cell
  | [], x => { x with inflight := [] }
  | f :: fs, x => if f.due || f.merging then { x with inflight := f :: fs } else retireFrom tile fs (x.retireOne tile f)

/-- Retirement in cell `c`. -/
def State.retire (s : State) (c : Nat) : State := s.setCell c (retireFrom s.drainTile (s.cell c).inflight (s.cell c))

/-- Whether the fused field names a trigger counter that the cell's plot does not hold (R76). -/
def State.foreignTrigger (s : State) (c f : Nat) : Bool :=
  fusedKind f != 0 &&
    (match s.ownerOfCell c with
      | none => true
      | some p =>
        match s.plot p with
        | none => true
        | some q => !(decide (q.ctrFirst ≤ fusedTrigger f) && decide (fusedTrigger f < q.ctrFirst + q.ctrCount)))

/-- The fault an instruction meets at its issue, in the order of R78: OPCODE, ADDR, TRIG_FOREIGN, then the access itself. -/
def State.issueFault (s : State) (c : Nat) (w : W128) (e : Ecc) (p : IssuePlan) : Option Nat :=
  if p.reserved || !fusedLegal (fusedOf w) || !p.kinds.contains (fusedKind (fusedOf w)) then some fcOpcode
  else if p.badRange || (p.src ++ p.dst).any (fun r => !r.inSpad) then some fcAddr
  else if s.foreignTrigger c (fusedOf w) then some fcTrigForeign
  else if e.bad then some fcSpadEcc
  else none

/-- Cycles that an instruction adds to the issue side's hold of the scratchpad (R66, R69): a throttled matrix unit leaves slots empty,
KEEP + 1 of 16 being used (R461), and the empty ones count. -/
def State.heldBy (s : State) (c : Nat) (p : IssuePlan) : Nat :=
  if p.exUnit = .matrix then ceilDiv (p.cycles * 16) (s.fld Fld.ADM_REGION_STATE_KEEP (regionOfCell c) + 1) else p.cycles

/-- Issues one instruction: nothing while R63 holds it back, the fault of R78, or its effect, after which it is in flight and
everything that may retire retires. The effect answers the flags its drain will carry. -/
def State.issue (s : State) (c : Nat) (w : W128) (e : Ecc) (p : IssuePlan) (eff : State → State × BitVec 4) : State :=
  if !s.canIssue c w || (s.cell c).conflicts p then s
  else
    match s.issueFault c w e p with
    | some code =>
      let s := if code = fcSpadEcc then s.recordEcc (spadBase c + e.offset) 1 false else s
      s.cellFault c code (s.cell c).next
    | none =>
      let s := if e = .corrected then s.countEcc (regionOfCell c) 0 else s
      let r := eff s
      let x := r.1.cell c
      let f : InFlight := ⟨x.next, p.exUnit, p.dst, p.slotDst ++ p.hold, fusedOf w, p.due, p.merging, p.release, r.2⟩
      let s := r.1.setCell c { x with next := x.next + 1, inflight := x.inflight ++ [f], held := x.held + s.heldBy c p }
      (s.setFld Fld.CEL_STATE_STATE c csRunning).retire c

/-- All fused kinds of R74 but the reserved ones. -/
def anyKind : List Nat := [0, 1, 2, 3, 4]

end Sys2Proof.Machine
end

