-- ==== Sys2Proof/Machine/Handover.lean ====
section
/-!
DEFINITION. The hand-over of a cell's scratchpad from issue to the transfer ports (R17, R65 to R68, R92, R262): who is served next, the
stop of the issue unit, and the grant once no granted vector is under way.
-/

namespace Sys2Proof.Machine
open Sys2Proof

/-- Scrubber `k` (R261). -/
def State.scrubber (s : State) (k : Nat) : Scrubber := Sparse.get (fun _ => Scrubber.idle) s.scrub k

def State.setScrubber (s : State) (k : Nat) (x : Scrubber) : State :=
  { s with scrub := Sparse.set (fun _ => Scrubber.idle) s.scrub k x }

/-- HOLDER codes of the ports (R79). -/
def Port.holder : Port → Nat
  | .chain => 1
  | .fill => 2
  | .drain => 3

/-- Whether a transfer may move: what a drain reads is no destination of an instruction whose result is still due (R72). -/
def Cell.mayMove (x : Cell) (t : Transfer) : Bool :=
  t.reads.all fun q => x.inflight.all fun f => f.dst.all fun r => !r.meets q

/-- The oldest transfer of a port that may move. -/
def Cell.portTransfer (x : Cell) (p : Port) : Option Transfer := x.transfers.find? fun t => t.port == p && x.mayMove t

/-- The transfer served next: chain, then fill, then drain (R17), the oldest of a port first. -/
def Cell.nextTransfer (x : Cell) : Option Transfer :=
  (x.portTransfer .chain).or ((x.portTransfer .fill).or (x.portTransfer .drain))

/-- Scrubbers pause in deep fallow (R456). -/
def State.scrubPaused (s : State) : Bool := s.fld Fld.PWR_STATE_STATE 0 == 3

/-- Whether the scratchpad's scrubber is promoted and has a tile to take (R262). -/
def State.scrubUrgent (s : State) (c : Nat) : Bool :=
  (s.scrubber c).running && (s.scrubber c).promoted && decide (0 < (s.scrubber c).remain) && !s.scrubPaused

/-- The HOLDER code of the requester served next: a promoted scrub ahead of the ports (R262); zero for none. -/
def State.nextHolder (s : State) (c : Nat) : Nat :=
  if s.scrubUrgent c then 4
  else match (s.cell c).nextTransfer with
    | some t => t.port.holder
    | none => 0

/-- Whether vectors granted to the cell are still in the special-function unit (R66, R68). -/
def State.grantsLeft (s : State) (c : Nat) : Bool := (s.block (blockOfCell c)).pipe.any fun v => v.cell == c % 16

/-- Whether a cell takes no part in hand-overs' states: aborted, in reset, out of service. -/
def State.stateFixed (s : State) (c : Nat) : Bool :=
  s.fld Fld.CEL_STATE_STATE c == csAborted || s.fld Fld.CEL_STATE_STATE c == csReset || s.fld Fld.CEL_STATE_STATE c == csOut

/-- Issue may go on: it has not stopped, and an SFN asks for grants again (R68). -/
def Cell.resumed (x : Cell) : Cell :=
  { x with stopping := false, sfn := x.sfn.map fun j => { j with yielded := false } }

/-- Issue has stopped for a hand-over (R66), and an SFN that still awaits grants yields (R68). -/
def Cell.stopped (x : Cell) : Cell :=
  { x with stopping := true, sfn := x.sfn.map fun j => { j with yielded := true } }

/-- Gives the scratchpad to the next requester (R66); issue goes on where no one waits any longer. -/
def State.handOver (s : State) (c : Nat) : State :=
  let h := s.nextHolder c
  if h = 0 then s.setCell c (s.cell c).resumed
  else
    let t := s.setFld Fld.CEL_STATE_HOLDER c h
    if s.stateFixed c then t else t.setFld Fld.CEL_STATE_STATE c csTransfer

/-- The issue side yields (R66, R68, R92): issue stops, a waiting SFN withdraws and loses the rest of its turn, and the scratchpad changes
hands once no vector granted to the cell is under way. -/
def State.yieldPad (s : State) (c : Nat) : State :=
  let b := blockOfCell c
  let s := if (s.cell c).sfn.isSome && (s.block b).turn == c % 16 then s.setBlock b { s.block b with left := 0 } else s
  let s := s.setCell c (s.cell c).stopped
  if s.grantsLeft c then s else s.handOver c

/-- A hand-over that waited for the cell's last granted vector takes place (R66). -/
def State.finishYield (s : State) (c : Nat) : State :=
  if (s.cell c).stopping && s.fld Fld.CEL_STATE_HOLDER c == 0 && !s.grantsLeft c then s.handOver c else s

end Sys2Proof.Machine
end

