-- ==== Sys2Proof/Machine/CellInstr.lean ====
section
/-!
DEFINITION. Matrix and vector instructions of a cell: MMA (R46, R59, R60), VOP (R62), CVT (R45), and the residue checker's
report (R70 to R72).
-/

namespace Sys2Proof.Machine
open Sys2Proof

/-- Inner elements per cycle (R59). -/
def innerCount (f : Fmt) : Nat :=
  match f with
  | .e2m1 => 64
  | .bf16 => 16
  | .wx32 => 16
  | _ => 32

/-- The exact sum of one group of products (R46), with its flags: a NaN product makes it NaN, opposite infinities too. -/
def groupSum (ps : List (Val × NumFlags)) : Val × NumFlags :=
  let fl := orFlags (ps.map (·.2))
  if ps.any (·.1.isNan) then (.nan, fl)
  else
    match ps with
    | [] => (.zero, fl)
    | p :: rest => rest.foldl (fun a q => let t := Val.add a.1 q.1; (t.1, if a.1.isNan then a.2 else a.2 ||| t.2)) (p.1, fl)

/-- A group's products. -/
def products (a b : List (Val × NumFlags)) : List (Val × NumFlags) :=
  (a.zip b).map fun p => let m := Val.mul p.1.1 p.2.1; (m.1, m.2 ||| p.1.2 ||| p.2.2)

/-- Adds a group sum to an FP32 accumulator, rounding once; a fresh accumulator takes the sum rounded alone (R46). -/
def accumulate (acc : Option Nat) (g : Val × NumFlags) : Nat × NumFlags :=
  match acc with
  | none => let r := rne32 g.1; (r.1, g.2 ||| r.2)
  | some a =>
    if g.1.isNan then (Fmt.nanCode .fp32, g.2)
    else
      let t := Val.add (decodeVal .fp32 a) g.1
      let r := rne32 t.1
      (r.1, g.2 ||| t.2 ||| r.2)

/-- Cuts a list into aligned groups of 32; the first argument bounds the number of groups. -/
def groups32 {α : Type} : Nat → List α → List (List α)
  | 0, _ => []
  | n + 1, l => if l.isEmpty then [] else l.take 32 :: groups32 n (l.drop 32)

/-- The dot product of two rows into an accumulator (R46). -/
def dotAcc (acc : Option Nat) (a b : List (Val × NumFlags)) : Nat × NumFlags :=
  let gs := (groups32 (a.length + 1) (products a b)).map groupSum
  let r := gs.foldl (fun (t : Option Nat × NumFlags) g => let u := accumulate t.1 g; (some u.1, t.2 ||| u.2)) (acc, 0)
  (r.1.getD 0, r.2)

/-- The integer dot product into a 32-bit accumulator (R42), as a two's-complement code. -/
def dotInt (acc : Option Nat) (a b : List (Val × NumFlags)) : Nat × NumFlags :=
  let gs := (groups32 (a.length + 1) ((a.zip b).map fun p => p.1.1.inum * p.2.1.inum)).map (·.foldl (· + ·) 0)
  let r := gs.foldl (fun (t : Int × NumFlags) g => let u := int32Add t.1 g; (u.1, t.2 ||| u.2))
    (match acc with | none => 0 | some v => signedOf 32 v, 0)
  ((BitVec.ofInt 32 r.1).toNat, r.2)

/-- Sixteen slots of a tile. -/
def tileSlots (slot : Nat) : List Nat := (List.range 16).map (slot + ·)

/-- Whether the slots of a tile are free, or hold exactly this tile with this kind of accumulator (R46, R61). -/
def Cell.tileUsable (x : Cell) (slot : Nat) (int : Bool) : Bool :=
  !(x.slots.any fun e => e.2.desc.isSome && decide (slot ≤ e.1) && decide (e.1 < slot + 16)) &&
  x.tiles.all fun e => if e.1 = slot then e.2.int == int else !(decide (e.1 < slot + 16) && decide (slot < e.1 + 16))

/-- Formats the matrix unit takes (R59). -/
def mmaFormat : Fmt → Bool
  | .e4m3 | .e5m2 | .e3m2 | .e2m3 | .e2m1 | .bf16 | .int8 => true
  | _ => false

def MmaOps.inner (o : MmaOps) : Nat := min (innerCount o.a.fmt) (innerCount o.b.fmt)

/-- Issue plan of MMA (R40, R59, R60, R61). -/
def mmaPlan (w : W128) (o : MmaOps) : IssuePlan where
  reserved := reservedOpcode (opcodeOf w) || !mmaFormat o.a.fmt || !mmaFormat o.b.fmt || ((o.a.fmt = .int8) != (o.b.fmt = .int8)) || o.a.reserved ||
    o.b.reserved || o.rows == 0 || o.cols == 0 || o.k == 0 || decide (64 < o.rows) || decide (64 < o.cols) ||
    decide (16 * o.inner < o.k)
  badRange := decide (240 < o.slot) || o.a.misplaced || o.b.misplaced
  src := o.a.ranges o.rows o.k ++ o.b.ranges o.cols o.k
  dst := (match o.dst with | some d => [⟨d, 4 * o.rows * o.cols⟩] | none => [])
  slots := []
  slotDst := tileSlots o.slot
  exUnit := .matrix
  cycles := o.rows * ceilDiv o.k o.inner
  due := true
  merging := false
  release := if o.release then tileSlots o.slot else []
  kinds := if o.dst.isSome then anyKind else [0]

/-- New elements of the tile, row by row, with the flags. An element that no earlier MMA formed takes the first group's sum rounded
alone, in an open tile as in a fresh one (notes/assumptions/14). -/
def State.mmaElems (s : State) (c : Nat) (o : MmaOps) (t : Option Tile) : List (Nat × Nat × NumFlags) :=
  let int := decide (o.a.fmt = .int8)
  let bs := (List.range o.cols).map fun j => s.tensorRow c o.b j o.k
  (List.range o.rows).flatMap fun r =>
    let a := s.tensorRow c o.a r o.k
    (List.range o.cols).map fun j =>
      let acc := t.bind fun u => Table.get u.elems (64 * r + j)
      let d := if int then dotInt acc a (bs.getD j []) else dotAcc acc a (bs.getD j [])
      (64 * r + j, d.1, d.2)

/-- Effect of MMA: the tile is opened or accumulated into, and copied to the scratchpad where a destination is named. A tile
whose slots are in other use gets free values (notes/assumptions/14). -/
def mmaEffect (c : Nat) (o : MmaOps) (s : State) : State × BitVec 4 :=
  let x := s.cell c
  let int := decide (o.a.fmt = .int8)
  if x.tileUsable o.slot int then
    let t := Table.get x.tiles o.slot
    let es := s.mmaElems c o t
    let tile : Tile := ⟨int, es.foldl (fun m e => Table.put m e.1 e.2.1) ((t.map (·.elems)).getD [])⟩
    let s := s.setCell c { x with tiles := Table.put x.tiles o.slot tile }
    let s := s.addNumFlags c (orFlags (es.map fun e => e.2.2))
    (match o.dst with
      | some d => s.spadWrite c d (es.flatMap fun e => leBytes 4 e.2.1)
      | none => s, 0)
  else
    match o.dst with
    | some d => (s.undefineBytes (spadBase c + d) (4 * o.rows * o.cols), 0)
    | none => (s, 0)

/-- MMA (R46, R59 to R61). -/
def execMma (c : CellIx) (w : W128) (o : MmaOps) (e : Ecc) (s : State) : Res :=
  .next (if isClass 0 w then s.issue c.val w e (mmaPlan w o) (mmaEffect c.val o) else s)

/-- Issue plan of VOP (R62). -/
def vopPlan (w : W128) (o : VopOps) : IssuePlan where
  reserved := reservedOpcode (opcodeOf w) || o.n == 0 || decide (4096 < o.n)
  badRange := [o.x, o.y].any (fun v => v.slots.any fun i => 255 < i) || (o.z.map fun v => v.slots.any fun i => 255 < i).getD false
  src := o.x.ranges o.n ++ o.y.ranges o.n ++ (match o.z with | some v => v.ranges o.n | none => [])
  dst := [⟨o.dst, 4 * o.n⟩]
  slots := o.x.slots ++ o.y.slots ++ (match o.z with | some v => v.slots | none => [])
  slotDst := (match o.release with | some t => tileSlots t | none => [])
  exUnit := .vector
  cycles := ceilDiv o.n 64
  due := true
  merging := false
  release := (match o.release with | some t => tileSlots t | none => [])
  kinds := anyKind

/-- One lane of VOP: x × y + z, or x × y, rounded once (R62). -/
def vopLane (x y : Nat) (z : Option Nat) : Nat × NumFlags :=
  match z with
  | some v => fma32 x y v
  | none =>
    let m := Val.mul (decodeVal .fp32 x) (decodeVal .fp32 y)
    let r := rne32 m.1
    (r.1, m.2 ||| r.2)

/-- Effect of VOP. -/
def vopEffect (c : Nat) (o : VopOps) (s : State) : State × BitVec 4 :=
  let xs := s.vecSrc c o.x o.n
  let ys := s.vecSrc c o.y o.n
  let zs := o.z.map fun v => s.vecSrc c v o.n
  let rs := (List.range o.n).map fun j => vopLane (xs.getD j 0) (ys.getD j 0) (zs.map fun l => l.getD j 0)
  ((s.spadWrite c o.dst (rs.flatMap fun r => leBytes 4 r.1)).addNumFlags c (orFlags (rs.map (·.2))), 0)

/-- VOP (R62). -/
def execVop (c : CellIx) (w : W128) (o : VopOps) (e : Ecc) (s : State) : Res :=
  .next (if isClass 1 w then s.issue c.val w e (vopPlan w o) (vopEffect c.val o) else s)

/-- Issue plan of CVT (R40, R45, R62). -/
def cvtPlan (w : W128) (o : CvtOps) : IssuePlan where
  reserved := reservedOpcode (opcodeOf w) || o.n == 0 || decide (4096 < o.n) || o.src.reserved || o.dst.reserved || o.src.fmt = .acc || o.dst.fmt = .acc
  badRange := o.src.misplaced || o.dst.misplaced
  src := o.src.ranges 1 o.n
  dst := o.dst.ranges 1 o.n
  slots := []
  slotDst := []
  exUnit := .vector
  cycles := ceilDiv o.n 64
  due := true
  merging := false
  release := []
  kinds := anyKind

/-- Pads a block of values with zeros to 32 (R39). -/
def padBlock (l : List Val) : List Val := l ++ (List.range (32 - l.length)).map fun _ => Val.zero

/-- Effect of CVT: element conversions, the row padded with zero elements (R39), or MX blocks where the destination has scales (R41, R45). A source block's NaN scale
sets SCALE_NAN. -/
def cvtEffect (c : Nat) (o : CvtOps) (s : State) : State × BitVec 4 :=
  let src := s.tensorRow c o.src 0 o.n
  let sf := orFlags (src.map (·.2))
  match o.dst.scales with
  | none =>
    let rs := src.map fun v => convertTo o.dst.fmt v.1
    let bytes := leBytes (o.dst.fmt.bytesOf (padded o.n)) (packElems o.dst.fmt (rs.map (·.1)))
    ((s.spadWrite c o.dst.elems bytes).addNumFlags c (sf ||| orFlags (rs.map (·.2))), 0)
  | some sc =>
    let bs := (groups32 (o.n + 1) (src.map (·.1))).map fun g => mxBlock o.dst.fmt (padBlock g)
    let bytes := leBytes (o.dst.fmt.bytesOf (padded o.n)) (packElems o.dst.fmt (bs.flatMap fun b => b.2.1))
    let s := (s.spadWrite c o.dst.elems bytes).spadWrite c sc (bs.map (·.1))
    (s.addNumFlags c (sf ||| orFlags (bs.map fun b => b.2.2)), 0)

/-- CVT (R45, R62). -/
def execCvt (c : CellIx) (w : W128) (o : CvtOps) (e : Ecc) (s : State) : Res :=
  .next (if isClass 2 w then s.issue c.val w e (cvtPlan w o) (cvtEffect c.val o) else s)

/-- The oldest instruction of a unit whose check is due: the matrix unit (R70) or the vector lanes (R71). -/
def checkDue (v : Bool) (l : List InFlight) : Option InFlight := l.find? fun f => f.due && f.exUnit == if v then .vector else .matrix

/-- Marks the oldest checked instruction of a unit as clean. -/
def clearDue (v : Bool) : List InFlight → List InFlight
  | [] => []
  | f :: fs => if f.due && f.exUnit == (if v then .vector else .matrix) then { f with due := false } :: fs else f :: clearDue v fs

/-- RESIDUE_CHECK_REPORT (R70 to R72, R75): a clean report of the matrix unit, or of the vector lanes, lets the instruction retire, in
program order, and a fused one posts its drain; a mismatch discards it and every later one and aborts the task with RESIDUE. -/
def execResidueCheckReport (c : CellIx) (lanes ok : Bool) (s : State) : Res :=
  let x := s.cell c.val
  match checkDue lanes x.inflight with
  | none => .next s
  | some f =>
    if ok then .next ((s.setCell c.val { x with inflight := clearDue lanes x.inflight }).retire c.val)
    else .next (s.cellFault c.val fcResidue f.index)

end Sys2Proof.Machine
end

