-- ==== Sys2Proof/Machine/Attention.lean ====
section
/-!
DEFINITION. The attention engine (R105 to R128): ATS with its masks, ATV, the four modes of ROWOUT and the block merge.
-/

namespace Sys2Proof.Machine
open Sys2Proof

/-- The mask sentinel −1024.0 in FP32 (R51). -/
def sentinel : Nat := 0xC4800000

/-- A slot as it stands, an absent one closed and empty. -/
def Cell.slot (x : Cell) (i : Nat) : Slot := (Table.get x.slots i).getD ⟨[], 0, none, 0⟩

/-- Whether a row holds the slot open (R105). -/
def Cell.isOpen (x : Cell) (i : Nat) : Bool := (x.slot i).desc.isSome

/-- A row's status; a free slot reads as one just opened (R105). -/
def Cell.rowStatus (x : Cell) (i : Nat) : SlotStatus := if x.isOpen i then (x.slot i).status else SlotStatus.noKey

/-- Word `e` of a row at slot `i` (0 is Σ exp, e + 1 is element e), elements from 128 on in the second slot (R116). -/
def Cell.rowWord (x : Cell) (i e : Nat) : Nat :=
  if !x.isOpen i then 0
  else if e = 0 then (Table.get (x.slot i).words 0).getD 0
  else (Table.get (x.slot (i + (e - 1) / 128)).words (1 + (e - 1) % 128)).getD 0

/-- Writes one word of a row. -/
def Cell.setRowWord (x : Cell) (i e v : Nat) : Cell :=
  let j := if e = 0 then i else i + (e - 1) / 128
  let k := if e = 0 then 0 else 1 + (e - 1) % 128
  let sl := x.slot j
  { x with slots := Table.put x.slots j { sl with words := Table.put sl.words k v } }

/-- Ors bits into a row's status. -/
def Cell.orStatus (x : Cell) (i : Nat) (st : SlotStatus) : Cell :=
  let sl := x.slot i
  { x with slots := Table.put x.slots i { sl with status := sl.status ||| st } }

/-- Opens a row's slots: both sums +0, status clear but for NOKEY (R105). A matrix tile over the slots is left as it is
(notes/assumptions/14). -/
def Cell.openRow (x : Cell) (d : AttDesc) (i : Nat) : Cell :=
  let m := Table.put x.slots i ⟨[], SlotStatus.noKey, some d.off, d.dim⟩
  { x with slots := if d.span = 2 then Table.put m (i + 1) ⟨[], 0, some d.off, d.dim⟩ else m }

/-- Slots of rows 0 to n − 1 from first slot `base`. -/
def rowSlots (span base n : Nat) : List Nat := (List.range (n * span)).map (base + ·)

/-- Whether rows 0 to n − 1 include a slot, a second slot of a row too, opened through a descriptor at another offset (R105). -/
def Cell.otherDesc (x : Cell) (d : AttDesc) (n : Nat) : Bool :=
  (rowSlots d.span d.slotBase n).any fun i => match (x.slot i).desc with
    | some o => o != d.off
    | none => false

/-! ### ATS -/

structure AtsWord where
  rows : Nat
  cols : Nat
  qoff : Nat
  koff : Nat
  soff : Nat
  doff : Nat
  bitmap : Bool
  kindex : Nat
  deriving DecidableEq, Repr

/-- The ATS word (R108); offsets in bytes, rows and keys as counts. -/
def atsWord (w : W128) : AtsWord :=
  let n := w.toNat
  ⟨bitsAt n 82 6 + 1, bitsAt n 76 6 + 1, 64 * bitsAt n 61 15, 64 * bitsAt n 46 15, 64 * bitsAt n 31 15, 64 * bitsAt n 16 15,
    n.testBit 15, bitsAt n 0 15⟩

/-- Block-memory offset of the mask tile of an ATS (R112), modulo 2^32, since a task sets MASK_BASE to MASKDEST − 512 × NCONTIG (R233;
notes/assumptions/39). -/
def AtsWord.maskOff (a : AtsWord) (d : AttDesc) : Nat := (d.maskBase + a.kindex * 512) % 2 ^ 32

/-- Issue plan of ATS (R107 to R110). The block-memory range it checks is its mask tile's, with BITMAP (notes/assumptions/39). -/
def atsPlan (s : State) (c : Nat) (w : W128) : IssuePlan :=
  let a := atsWord w
  let d := s.attDesc c a.doff
  let es := d.qkFmt.bytesOf 1
  { reserved := d.badEncoding
    badRange := badSpad a.doff 64 || d.badAddress (c % 16) || decide (d.rows + 1 < a.rows) || decide (a.soff < d.sarea) ||
      decide (d.sarea + 64 * d.sstride < a.soff + (a.rows - 1) * d.sstride + 256) || (s.cell c).otherDesc d a.rows ||
      (a.bitmap && decide (blockSize < a.maskOff d + 512))
    src := [⟨a.doff, 64⟩, ⟨a.qoff, a.rows * d.dim * es⟩, ⟨a.koff, a.cols * d.dim * es⟩, ⟨d.qtab, 8 * a.rows⟩] ++
      (if a.kindex < d.ncontig then [] else [⟨d.ktrail + (a.kindex - d.ncontig) * 512, 8 * a.cols⟩])
    dst := [⟨a.soff, (a.rows - 1) * d.sstride + 256⟩]
    slots := []
    slotDst := rowSlots d.span d.slotBase a.rows
    exUnit := .matrix
    cycles := a.rows * ceilDiv d.dim (innerCount d.qkFmt)
    due := true
    merging := false
    release := []
    kinds := [0] }

/-- The score of one row and key: rne32(σ × ĉ), saturating under R44 (R109). -/
def scoreOf (sigma : Nat) (q k : List (Val × NumFlags)) : Nat × NumFlags :=
  let d := dotAcc none q k
  let m := Val.mul (decodeVal .fp32 sigma) (decodeVal .fp32 d.1)
  let r := rne32 m.1
  (r.1, d.2 ||| m.2 ||| r.2)

/-- Effect of ATS on one row (R109, R111, R113): scores at visible keys, the sentinel elsewhere; NOKEY is cleared where a key is
visible. `mask` is the row's word of the bitmap tile, all ones without BITMAP. -/
def atsRow (c : Nat) (a : AtsWord) (d : AttDesc) (ks : List (KeyEntry × List (Val × NumFlags))) (mask : Nat) (s : State)
    (r : Nat) : State :=
  let e := s.rowEntry c d r
  let q := (s.elemVals c (a.qoff + r * d.dim * d.qkFmt.bytesOf 1) d.qkFmt d.dim).map fun v => (v, (0 : NumFlags))
  let outs := (List.range 64).map fun i =>
    match ks[i]? with
    | none => (sentinel, (0 : NumFlags), false)
    | some k =>
      if keyVisible d e k.1 (mask.testBit i) then let p := scoreOf d.score q k.2; (p.1, p.2, true)
      else (sentinel, 0, false)
  let off := a.soff + r * d.sstride
  let x := s.cell c
  let slot := d.rowSlot r
  let x := if x.isOpen slot then x else x.openRow d slot
  let x := if outs.any (·.2.2) then
      let sl := x.slot slot
      { x with slots := Table.put x.slots slot { sl with status := sl.status &&& ~~~SlotStatus.noKey } }
    else x
  let x := { x with
    visible := (outs.zipIdx).foldl (fun m p => Sparse.set (fun _ => false) m (off + 4 * p.2) p.1.2.2) x.visible }
  ((s.setCell c x).spadWrite c off (outs.flatMap fun o => leBytes 4 o.1)).addNumFlags c (orFlags (outs.map (·.2.1)))

/-- Effect of ATS. -/
def atsEffect (c : Nat) (w : W128) (s : State) : State × BitVec 4 :=
  let a := atsWord w
  let d := s.attDesc c a.doff
  let ks := (List.range a.cols).map fun i =>
    (s.keyEntry c d a.kindex i,
      (s.elemVals c (a.koff + i * d.dim * d.qkFmt.bytesOf 1) d.qkFmt d.dim).map fun v => (v, (0 : NumFlags)))
  let b := blockOfCell c
  let tile := (Table.get (s.block b).maskTile (c % 16)).getD []
  let s1 := (List.range a.rows).foldl
    (fun s r => atsRow c a d ks (if a.bitmap then leNat ((tile.drop (8 * r)).take 8) else 2 ^ 64 - 1) s r) s
  let s1 := s1.setCell c { s1.cell c with scoreArea := some ⟨d.sarea, d.sstride, d.slotBase, d.span⟩ }
  (s1.setBlock b { s1.block b with maskTile := Table.del (s1.block b).maskTile (c % 16) }, 0)

/-- Whether an ATS with BITMAP still lacks its tile: it is then not ready to issue (R112). -/
def atsWaits (s : State) (c : Nat) (w : W128) : Bool :=
  let a := atsWord w
  a.bitmap && !(atsPlan s c w).reserved && !(atsPlan s c w).badRange &&
    (Table.get (s.block (blockOfCell c)).maskTile (c % 16)).isNone

/-- ATS (R105 to R113). -/
def execAts (c : CellIx) (w : W128) (e : Ecc) (s : State) : Res :=
  .next (if opcodeOf w ≠ 0x20 ∨ atsWaits s c.val w = true then s
    else s.issue c.val w e (atsPlan s c.val w) (atsEffect c.val w))

/-- The ATS that waits for its mask tile at the head of a cell's issue queue, with its mask's place in block memory (R112). -/
def State.maskFor (s : State) (c : Nat) : Option Nat :=
  let x := s.cell c
  match x.ibuf[x.next]? with
  | none => none
  | some w =>
    if x.task.isNone || x.ended || opcodeOf w != 0x20 || !atsWaits s c w then none
    else some ((atsWord w).maskOff (s.attDesc c (atsWord w).doff))

/-! ### ATV -/

structure AtvWord where
  rows : Nat
  keys : Nat
  outcol : Nat
  poff : Nat
  voff : Nat
  doff : Nat
  rsv : Nat
  deriving DecidableEq, Repr

/-- The ATV word (R115). -/
def atvWord (w : W128) : AtvWord :=
  let n := w.toNat
  ⟨bitsAt n 82 6 + 1, bitsAt n 73 9 + 1, bitsAt n 71 2, 64 * bitsAt n 56 15, 64 * bitsAt n 41 15, 64 * bitsAt n 26 15,
    bitsAt n 0 26⟩

/-- Issue plan of ATV (R60, R105, R107, R115). -/
def atvPlan (s : State) (c : Nat) (w : W128) : IssuePlan :=
  let a := atvWord w
  let d := s.attDesc c a.doff
  { reserved := a.rsv != 0 || d.badEncoding || decide (d.dim ≤ 64 * a.outcol) || decide (256 < a.keys)
    badRange := badSpad a.doff 64 || d.badAddress (c % 16) || decide (d.rows + 1 < a.rows) ||
      decide (d.sstride / 4 < a.keys) || (s.cell c).otherDesc d a.rows ||
      (List.range a.rows).any fun r => !(s.cell c).isOpen (d.rowSlot r)
    src := [⟨a.doff, 64⟩, ⟨a.poff, (a.rows - 1) * d.sstride + 4 * a.keys⟩, ⟨a.voff, a.keys * d.dim * d.vFmt.bytesOf 1⟩]
    dst := []
    slots := []
    slotDst := rowSlots d.span d.slotBase a.rows
    exUnit := .matrix
    cycles := a.rows * ceilDiv a.keys 16
    due := true
    merging := false
    release := []
    kinds := [0] }

/-- Adds one group of term × value products into an accumulator word (R59, R70, R116): the products that are not of a +0 term are
summed exactly (R46), and the sum is added with one rounding (R52). -/
def applyGroup (a : Nat × NumFlags) (g : List (Nat × Val)) : Nat × NumFlags :=
  match g.filter fun p => p.1 != 0 with
  | [] => a
  | l =>
    let m := groupSum (l.map fun p => Val.mul (decodeVal .wx32 p.1) p.2)
    let t := accAdd a.1 m.1.trim
    (t.1, a.2 ||| m.2 ||| (if m.1.isNan then 0 else t.2))

/-- Adds Σ terms × values into one accumulator word, by the aligned groups of 32 keys, each group's exact sum added with one rounding
(R46, R52, R59); a term of +0 contributes nothing (R116; notes/assumptions/20). -/
def applyTerms (acc : Nat) (terms : List Nat) (vals : List Val) : Nat × NumFlags :=
  (groups32 (terms.length + 1) (terms.zip vals)).foldl applyGroup (acc, 0)

/-- Effect of ATV on one row (R116). -/
def atvRow (c : Nat) (a : AtvWord) (d : AttDesc) (s : State) (r : Nat) : State :=
  let slot := d.rowSlot r
  let terms := (List.range a.keys).map fun i => s.spadLe c (a.poff + r * d.sstride + 4 * i) 4
  let es := (List.range 64).map fun e => 64 * a.outcol + e
  let one := (List.range a.keys).map fun _ => Val.one
  let w0 := if a.outcol = 0 then [(0, applyTerms ((s.cell c).rowWord slot 0) terms one)] else []
  let ws := es.map fun e =>
    let vals := (List.range a.keys).map fun i =>
      decodeVal d.vFmt (s.spadLe c (a.voff + (i * d.dim + e) * d.vFmt.bytesOf 1) (d.vFmt.bytesOf 1))
    (e + 1, applyTerms ((s.cell c).rowWord slot (e + 1)) terms vals)
  let all := w0 ++ ws
  let fl := orFlags (all.map (·.2.2))
  let x := all.foldl (fun x p => x.setRowWord slot p.1 p.2.1) (s.cell c)
  let st := slotOfNum (fl &&& ~~~NumFlags.under)
  (s.setCell c (x.orStatus slot st)).addNumFlags c fl

/-- Effect of ATV. -/
def atvEffect (c : Nat) (w : W128) (s : State) : State × BitVec 4 :=
  let a := atvWord w
  let d := s.attDesc c a.doff
  ((List.range a.rows).foldl (fun s r => atvRow c a d s r) s, 0)

/-- ATV (R115, R116). -/
def execAtv (c : CellIx) (w : W128) (e : Ecc) (s : State) : Res :=
  .next (if opcodeOf w ≠ 0x21 then s else s.issue c.val w e (atvPlan s c.val w) (atvEffect c.val w))

/-! ### ROWOUT -/

structure RowoutWord where
  mode : Nat
  rows : Nat
  slot : Nat
  src : Nat
  dst : Nat
  doff : Nat
  rsv : Nat
  deriving DecidableEq, Repr

/-- The ROWOUT word (R117). -/
def rowoutWord (w : W128) : RowoutWord :=
  let n := w.toNat
  ⟨bitsAt n 86 2, bitsAt n 78 8 + 1, bitsAt n 70 8, 64 * bitsAt n 55 15, 64 * bitsAt n 40 15, 64 * bitsAt n 25 15, bitsAt n 0 25⟩

/-- Whether a word is a ROWOUT of the given mode. -/
def isRowout (w : W128) (mode : Nat) : Bool := opcodeOf w == 0x22 && (rowoutWord w).mode == mode

/-- Cycles of a row output (R117). -/
def rowoutCycles (rows dim : Nat) (final : Bool) : Nat := ceilDiv (rows * (dim + 1)) 64 + (if final then 16 else 0)

/-- One row through one wx32_round per word (R52, R118): the codes, the flags of the roundings. -/
def Cell.roundRow (x : Cell) (slot dim : Nat) : List Nat × NumFlags :=
  let ws := (List.range (dim + 1)).map fun e => wx32Round (decodeVal .acc (x.rowWord slot e))
  (ws.map (·.1), orFlags (ws.map (·.2)))

/-- Issue plan of ROWOUT PARTIAL (R105, R117, R118). -/
def partialPlan (s : State) (c : Nat) (w : W128) : IssuePlan :=
  let a := rowoutWord w
  let d := s.attDesc c a.doff
  { reserved := a.rsv != 0 || d.badEncoding || a.src != 0
    badRange := badSpad a.doff 64 || d.badAddress (c % 16) || decide (255 < a.slot + d.span * a.rows - 1) ||
      (rowSlots d.span a.slot a.rows).any fun i => (s.cell c).isOpen i && ((s.cell c).slot i).dim != d.dim
    src := [⟨a.doff, 64⟩]
    dst := [⟨a.dst, a.rows * 4 * (d.dim + 1)⟩]
    slots := rowSlots d.span a.slot a.rows
    slotDst := rowSlots d.span a.slot a.rows
    exUnit := .vector
    cycles := rowoutCycles a.rows d.dim false
    due := true
    merging := false
    release := rowSlots d.span a.slot a.rows
    kinds := [0, 1] }

/-- Effect of ROWOUT PARTIAL (R118). -/
def partialEffect (c : Nat) (w : W128) (s : State) : State × BitVec 4 :=
  let a := rowoutWord w
  let d := s.attDesc c a.doff
  let x := s.cell c
  let rows := (List.range a.rows).map fun r => x.roundRow (a.slot + d.span * r) d.dim
  let fl := orFlags (rows.map (·.2))
  let st := (List.range a.rows).foldl (fun t r => t ||| x.rowStatus (a.slot + d.span * r)) (slotOfNum fl)
  ((s.spadWrite c a.dst (rows.flatMap fun r => r.1.flatMap (leBytes 4))).addNumFlags c fl, drainOfSlot st)

/-- ROWOUT in mode PARTIAL (R117, R118). -/
def execRowoutPartial (c : CellIx) (w : W128) (e : Ecc) (s : State) : Res :=
  .next (if isRowout w 0 then s.issue c.val w e (partialPlan s c.val w) (partialEffect c.val w) else s)

/-- One output element (R121): the quotient rounded once; NaN, saturation and underflow are told apart. -/
def outElem (d : AttDesc) (z se : Val) : Nat × NumFlags × FinalFlags :=
  if se.isNan then (d.outFmt.nanCode, NumFlags.nanIn, ⟨false, true, false, false⟩)
  else
    let m := Val.mul (decodeVal .fp32 d.outScale) se
    let q := Val.div m.1 z
    let r := roundTo d.outFmt NumFlags.rangeCvt q.1
    (r.1, m.2 ||| (if m.1.isNan then 0 else q.2) ||| r.2,
      ⟨false, q.1.isNan, r.2.has NumFlags.rangeCvt, r.2.has NumFlags.under⟩)

/-- row_final of R121, with the zero rule of R122: output codes, numeric flags, row flags. -/
def rowFinal (d : AttDesc) (z : Nat) (ss : List Nat) : List Nat × NumFlags × FinalFlags :=
  let zv := decodeVal .wx32 z
  if zv.isNan then (ss.map (fun _ => d.outFmt.nanCode), NumFlags.nanIn, ⟨false, true, false, false⟩)
  else if zv.isZero then (ss.map (fun _ => 0), 0, ⟨true, false, false, false⟩)
  else
    let es := ss.map fun e => outElem d zv (decodeVal .wx32 e)
    (es.map (·.1), orFlags (es.map (·.2.1)),
      ⟨false, es.any (·.2.2.nan), es.any (·.2.2.outSat), es.any (·.2.2.outUnder)⟩)

/-- Issue plan of the FINAL modes (R117, R121). -/
def finalPlan (s : State) (c : Nat) (w : W128) (slots : Bool) : IssuePlan :=
  let a := rowoutWord w
  let d := s.attDesc c a.doff
  let rs := if slots then rowSlots d.span d.slotBase a.rows else []
  { reserved := a.rsv != 0 || d.badEncoding || (slots && a.src != 0)
    badRange := badSpad a.doff 64 || d.badAddress (c % 16) || decide (d.rows + 1 < a.rows) || a.slot != d.slotBase ||
      (slots && (s.cell c).otherDesc d a.rows)
    src := [⟨a.doff, 64⟩, ⟨d.qtab, 8 * a.rows⟩] ++ (if slots then [] else [⟨a.src, a.rows * 4 * (d.dim + 1)⟩]) ++
      (if !slots && d.inflags != 0xFFFFFFFF then [⟨d.inflags, 4⟩] else [])
    dst := [⟨a.dst, a.rows * d.dim * d.outFmt.bytesOf 1⟩, ⟨d.status, 4 * a.rows⟩]
    slots := rs
    slotDst := rs
    exUnit := .vector
    cycles := rowoutCycles a.rows d.dim true
    due := true
    merging := false
    release := rs
    kinds := [0] }

/-- Writes one finished row and its status word. -/
def writeRow (c : Nat) (a : RowoutWord) (d : AttDesc) (r : Nat) (codes : List Nat) (status : Nat) (s : State) : State :=
  (s.spadWrite c (a.dst + r * d.dim * d.outFmt.bytesOf 1) (codes.flatMap (leBytes (d.outFmt.bytesOf 1)))).spadWrite c
    (d.status + 4 * r) (leBytes 4 status)

/-- Effect of ROWOUT FINAL from slots on row `r` (R121 to R123): each sum first goes through one wx32_round. -/
def finalSlotRow (c : Nat) (a : RowoutWord) (d : AttDesc) (s : State) (r : Nat) : State :=
  let x := s.cell c
  let rr := x.roundRow (d.rowSlot r) d.dim
  let f := rowFinal d (rr.1.getD 0 0) (rr.1.drop 1)
  let st := x.rowStatus (d.rowSlot r) ||| slotOfNum rr.2
  (writeRow c a d r f.1 (statusFromSlot st f.2.2 (s.rowEntry c d r)) s).addNumFlags c (rr.2 ||| f.2.1)

/-- ROWOUT FINAL from slots (R121). -/
def execRowoutFinalSlots (c : CellIx) (w : W128) (e : Ecc) (s : State) : Res :=
  let a := rowoutWord w
  .next (if isRowout w 1 then
      s.issue c.val w e (finalPlan s c.val w true)
        (fun s => ((List.range a.rows).foldl (finalSlotRow c.val a (s.attDesc c.val a.doff)) s, 0))
    else s)

/-- Effect of ROWOUT FINAL from the scratchpad on row `r` (R121 to R123). -/
def finalSpadRow (c : Nat) (a : RowoutWord) (d : AttDesc) (s : State) (r : Nat) : State :=
  let ws := (List.range (d.dim + 1)).map fun i => s.spadLe c (a.src + r * 4 * (d.dim + 1) + 4 * i) 4
  let f := rowFinal d (ws.getD 0 0) (ws.drop 1)
  let inf := if d.inflags = 0xFFFFFFFF then none else some (s.spadLe c d.inflags 4)
  (writeRow c a d r f.1 (statusFromInflags inf f.2.2 (s.rowEntry c d r)) s).addNumFlags c f.2.1

/-- ROWOUT FINAL from the scratchpad (R121). -/
def execRowoutFinalScratchpad (c : CellIx) (w : W128) (e : Ecc) (s : State) : Res :=
  let a := rowoutWord w
  .next (if isRowout w 2 then
      s.issue c.val w e (finalPlan s c.val w false)
        (fun s => ((List.range a.rows).foldl (finalSpadRow c.val a (s.attDesc c.val a.doff)) s, 0))
    else s)

/-! ### MERGE -/

/-- Cells of a merge set, ascending. -/
def mergeCells (m : Nat) : List Nat := (List.range 16).filter fun i => m.testBit i

/-- Rank of a cell in a set. -/
def mergeRank (m i : Nat) : Nat := ((List.range i).filter fun j => m.testBit j).length

/-- Bytes of one slice (R119). -/
def sliceBytes (rows dim : Nat) : Nat := rows * 4 * (dim + 1)

/-- Whether a merge of the block, other than this one, still uses part of the buffer (R119). -/
def Block.mergeBusy (b : Block) (buf bytes mset tid rows dim rank : Nat) : Bool :=
  b.merges.any fun m => decide (m.buf < buf + bytes) && decide (buf < m.buf + m.bytes) &&
    !(m.buf == buf && m.mset == mset && m.task == tid && m.rows == rows && m.dim == dim && (Table.get m.slices rank).isNone)

/-- Issue plan of ROWOUT MERGE (R105, R107, R117, R119). -/
def mergePlan (s : State) (c : Nat) (w : W128) : IssuePlan :=
  let a := rowoutWord w
  let d := s.attDesc c a.doff
  let n := (mergeCells d.mergeSet).length
  let rank := mergeRank d.mergeSet (c % 16)
  let bytes := n * sliceBytes a.rows d.dim
  let rs := rowSlots d.span d.slotBase a.rows
  { reserved := a.rsv != 0 || d.badEncoding || a.src != 0
    badRange := badSpad a.doff 64 || d.badAddress (c % 16) || decide (d.rows + 1 < a.rows) || a.slot != d.slotBase ||
      !d.mergeSet.testBit (c % 16) || (s.cell c).otherDesc d a.rows || decide (blockSize < d.mergeBuf + bytes) ||
      (s.block (blockOfCell c)).mergeBusy d.mergeBuf bytes d.mergeSet ((s.cell c).task.getD 0) a.rows d.dim rank
    src := [⟨a.doff, 64⟩]
    dst := []
    slots := rs
    slotDst := rs
    exUnit := .vector
    cycles := rowoutCycles a.rows d.dim false
    due := true
    merging := rank == 0
    release := if rank = 0 then [] else rs
    kinds := [0] }

/-- Effect of ROWOUT MERGE: the cell's slice goes to the merge buffer with its slot status (R119 step 1). -/
def mergeEffect (c : Nat) (w : W128) (s : State) : State × BitVec 4 :=
  let a := rowoutWord w
  let d := s.attDesc c a.doff
  let x := s.cell c
  let b := blockOfCell c
  let rank := mergeRank d.mergeSet (c % 16)
  let n := (mergeCells d.mergeSet).length
  let tid := x.task.getD 0
  let rows := (List.range a.rows).map fun r => x.roundRow (d.rowSlot r) d.dim
  let sts := (List.range a.rows).map fun r => x.rowStatus (d.rowSlot r) ||| slotOfNum ((rows.getD r ([], 0)).2)
  let s := s.writeBytes (blockBase b + d.mergeBuf + rank * sliceBytes a.rows d.dim) (rows.flatMap fun r => r.1.flatMap (leBytes 4))
  let s := s.addNumFlags c (orFlags (rows.map (·.2)))
  let bl := s.block b
  let mine := fun (m : Merge) => m.buf == d.mergeBuf && m.mset == d.mergeSet && m.task == tid
  let m : Merge := (bl.merges.find? mine).getD
    ⟨d.mergeBuf, n * sliceBytes a.rows d.dim, d.mergeSet, tid, a.rows, d.dim, d.slotBase, d.off, []⟩
  let m := { m with slices := Table.put m.slices rank sts }
  let m := if rank = 0 then { m with slot := d.slotBase, desc := d.off } else m
  (s.setBlock b { bl with merges := bl.merges.filter (fun q => !mine q) ++ [m] }, 0)

/-- ROWOUT in mode MERGE (R119). -/
def execRowoutMerge (c : CellIx) (w : W128) (e : Ecc) (s : State) : Res :=
  .next (if isRowout w 3 then s.issue c.val w e (mergePlan s c.val w) (mergeEffect c.val w) else s)

/-- One word of a row added over the slices in rank order (R119). -/
def mergeWord (s : State) (base slice n i : Nat) : Nat × NumFlags :=
  ((List.range n).drop 1).foldl (fun a k =>
    let r := wx32Add a.1 (s.readLe (base + k * slice + 4 * i) 4)
    (r.1, a.2 ||| r.2)) (s.readLe (base + 4 * i) 4, 0)

/-- The merged row goes into the owner's slots (block_merge of R119). -/
def mergeRow (c : Nat) (m : Merge) (n : Nat) (s : State) (r : Nat) : State :=
  let d := s.attDesc c m.desc
  let base := blockBase (blockOfCell c) + m.buf
  let slice := sliceBytes m.rows m.dim
  let ws := (List.range (m.dim + 1)).map fun e => mergeWord s base slice n (r * (m.dim + 1) + e)
  let fl := orFlags (ws.map (·.2))
  let sts := (List.range n).map fun k => ((Table.get m.slices k).getD []).getD r 0
  let nokey := sts.all fun t => t.has SlotStatus.noKey
  let st := (sts.foldl (· ||| ·) (slotOfNum fl)) &&& 0xF#5 ||| (if nokey then SlotStatus.noKey else 0)
  let slot := m.slot + (if m.dim = 256 then 2 else 1) * r
  let x := (s.cell c).openRow { d with off := m.desc, dimc := if m.dim = 256 then 2 else if m.dim = 128 then 1 else 0 } slot
  let x := (ws.zipIdx).foldl (fun x p => x.setRowWord slot p.2 (accRound (decodeVal .wx32 p.1.1)).1) x
  let sl := x.slot slot
  (s.setCell c { x with slots := Table.put x.slots slot { sl with status := st } }).addNumFlags c fl

/-- Ends the owner's wait for its merged rows. -/
def clearMerging : List InFlight → List InFlight
  | [] => []
  | f :: fs => if f.merging then { f with merging := false } :: fs else f :: clearMerging fs

/-- The merge of a cell's block, owned by the cell, that every slice has reached (R119). -/
def State.mergeFor (s : State) (c : Nat) : Option Merge :=
  (s.block (blockOfCell c)).merges.find? fun m => decide ((mergeCells m.mset).head? = some (c % 16)) &&
    decide (m.slices.length = (mergeCells m.mset).length)

end Sys2Proof.Machine
end

