-- ==== Sys2Proof/Machine/ConfigStore.lean ====
section
/-!
DEFINITION. The configuration store (R436): its words, derived from the registers and tables that hold the same values; its CRC-32C
(R437); and the write path that moves the reference along (R438).
-/

namespace Sys2Proof.Machine
open Sys2Proof

/-- A peer entry's 64 bytes (R345). -/
def Peer.bytes (x : Peer) : List Byte :=
  leBytes 1 (1 + (if x.endpoint then 2 else 0) + (if x.failover then 4 else 0)) ++ leBytes 1 x.port ++ leBytes 1 x.site ++
    leBytes 1 x.plot ++ leBytes 2 x.chip ++ leBytes 2 x.udp ++ leBytes 16 x.addr6 ++ leBytes 6 x.nextHop ++ leBytes 2 x.vlan ++
    leBytes 1 x.dscp ++ leBytes 1 0 ++ leBytes 4 x.pathMax ++ List.replicate 26 0

/-- A plot's record of 128 bytes (R361), from its present values. -/
def State.plotRecord (s : State) (p : Nat) (q : Plot) : List Byte :=
  let r := fun (x : Reg) => leBytes 4 (s.reg x p).toNat
  let b := fun (n : Nat) (l : List Nat) => (List.range 4).flatMap fun i => leBytes n (l.getD i 0)
  leBytes 1 p ++ leBytes 1 (s.fld Fld.PLT_STATE_COMPAT p) ++ leBytes 2 0 ++ r .PLT_BLOCKS ++ b 1 q.dramBase ++ b 1 q.dramSize ++
    b 2 q.stackBase ++ b 2 q.stackSize ++ leBytes 2 q.coldFirst ++ leBytes 2 q.coldCount ++ b 1 q.poolDram ++ b 2 q.poolStack ++
    b 1 q.poolHosted ++ leBytes 1 q.kvmOrder ++ leBytes 1 q.admOrder ++ leBytes 2 q.ctrFirst ++ leBytes 2 q.ctrCount ++ leBytes 2 0 ++
    r .KVM_POLICY ++ r .KVM_DECAY ++ r .ADM_BUDGET_MEM ++ r .ADM_BUDGET_NET ++ r .LNK_PLOT_WEIGHT ++ leBytes 8 q.rings ++
    leBytes 8 q.recv ++ leBytes 8 q.cutTab ++ leBytes 8 q.sigProj ++ leBytes 8 q.hosts ++ leBytes 8 0

/-- A group's 16 bytes. -/
def ColGroup.bytes (g : ColGroup) : List Byte :=
  leBytes 1 g.plot ++ leBytes 1 g.sites ++ leBytes 2 g.self ++ leBytes 2 g.members.length ++ leBytes 1 g.site ++ leBytes 1 0 ++
    leBytes 4 (crc32c (g.members.flatMap (leBytes 2))) ++
    leBytes 4 (if g.siteList.isEmpty then 0 else crc32c (g.siteList.map fun n => BitVec.ofNat 8 n))

/-- Word `w` of the store as the write path left it. -/
def State.cleanWord (s : State) (w : Nat) : Nat :=
  let field (f : Fld) (i : Nat) : Nat := s.fld f i * 2 ^ f.lo
  let word (l : List Byte) (k : Nat) : Nat := leNat ((l.drop (4 * k)).take 4)
  if w = 0 then field Fld.SDL_STATUS_GUARD 0
  else if w = 1 then field Fld.ADM_POLICY_DROOP_MARGIN 0 + field Fld.ADM_POLICY_POWER_RESERVE 0
  else if w < 6 then field Fld.PWR_REGION_CAP_CAP (w - 2)
  else if w < 8 then field Fld.FLD_CONTROL_MODE (w - 6) + field Fld.FLD_CONTROL_DISABLE (w - 6)
  else if w < 14 then field Fld.LNK_CONTROL_DISABLE (w - 8)
  else if w = 14 then s.rootChip + s.defaultRack * 65536
  else if w = 15 then s.ptpPort % 2 + s.ptpDomain * 256
  else if w < 0x40 then 0
  else if w < 0x140 then
    match s.plot ((w - 0x40) / 32) with
    | some q => word (s.plotRecord ((w - 0x40) / 32) q) ((w - 0x40) % 32)
    | none => 0
  else if w < 0x180 then
    let p := (w - 0x140) / 8
    let k := (w - 0x140) % 8
    if k = 0 then (s.reg .KVM_POLICY p).toNat else if k = 1 then (s.reg .KVM_DECAY p).toNat
    else if k = 2 then (s.reg .ADM_BUDGET_MEM p).toNat else if k = 3 then (s.reg .ADM_BUDGET_NET p).toNat
    else if k = 4 then (s.reg .LNK_PLOT_WEIGHT p).toNat else if k = 5 then (s.reg .PLT_BLOCKS p).toNat
    else if k = 6 then s.fld Fld.PLT_STATE_COMPAT p else 0
  else if w < 0x188 then
    leNat ((List.range 4).map fun i =>
      let b := 4 * (w - 0x180) + i
      match s.ownerOfBlock b with
      | some p => BitVec.ofNat 8 (128 + 8 * s.fld Fld.SFU_MODE_COMPAT b + p)
      | none => BitVec.ofNat 8 (8 * s.fld Fld.SFU_MODE_COMPAT b))
  else if w < 0x200 then 0
  else if w < 0x300 then
    leNat ((List.range 4).map fun i =>
      let t := 4 * (w - 0x200) + i
      match s.plots.find? fun e => decide (e.2.ctrFirst ≤ t) && decide (t < e.2.ctrFirst + e.2.ctrCount) with
      | some e => BitVec.ofNat 8 (128 + e.1)
      | none => 0)
  else if w < 0x400 then 0
  else if w < 0x800 then
    match Table.get s.colGroups ((w - 0x400) / 4) with
    | some g => word g.bytes ((w - 0x400) % 4)
    | none => 0
  else if w < 0x1000 then (s.reg .MEM_COLD_SEG (w - 0x800)).toNat
  else if w < 0x2000 then
    match Table.get s.peers ((w - 0x1000) / 16) with
    | some x => word x.bytes ((w - 0x1000) % 16)
    | none => 0
  else if w < 0x2400 then word s.linkMap (w - 0x2000)
  else 0

/-- Word `w` of the store as it stands, with what other means changed. -/
def State.storeWord (s : State) (w : Nat) : Nat := (s.cleanWord w).xor (Sparse.get (fun _ => 0) s.storeUpset w)

/-- The bits of a field within its register. -/
def Fld.mask (f : Fld) : Nat := (2 ^ f.width - 1) * 2 ^ f.lo

/-- Where the store holds a register instance's covered fields (R436): the word, their mask within the register, and how far left of the
word's bits the register's lie. -/
def coverOf (r : Reg) (i : Nat) : Option (Nat × Nat × Nat) :=
  match r with
  | .SDL_STATUS => some (0, Fld.SDL_STATUS_GUARD.mask, 0)
  | .ADM_POLICY => some (1, Fld.ADM_POLICY_DROOP_MARGIN.mask + Fld.ADM_POLICY_POWER_RESERVE.mask, 0)
  | .PWR_REGION_CAP => some (2 + i, Fld.PWR_REGION_CAP_CAP.mask, 0)
  | .FLD_CONTROL => some (6 + i, Fld.FLD_CONTROL_MODE.mask + Fld.FLD_CONTROL_DISABLE.mask, 0)
  | .LNK_CONTROL => some (8 + i, Fld.LNK_CONTROL_DISABLE.mask, 0)
  | .KVM_POLICY => some (0x140 + 8 * i, 2 ^ 32 - 1, 0)
  | .KVM_DECAY => some (0x141 + 8 * i, 2 ^ 32 - 1, 0)
  | .ADM_BUDGET_MEM => some (0x142 + 8 * i, 2 ^ 32 - 1, 0)
  | .ADM_BUDGET_NET => some (0x143 + 8 * i, 2 ^ 32 - 1, 0)
  | .LNK_PLOT_WEIGHT => some (0x144 + 8 * i, 2 ^ 32 - 1, 0)
  | .PLT_BLOCKS => some (0x145 + 8 * i, 2 ^ 32 - 1, 0)
  | .PLT_STATE => some (0x146 + 8 * i, Fld.PLT_STATE_COMPAT.mask, Fld.PLT_STATE_COMPAT.lo)
  | .MEM_COLD_SEG => some (0x800 + i, 2 ^ 32 - 1, 0)
  | _ => none

/-- A register instance as an access finds it: its covered fields read from the store, upsets included (R436). -/
def State.stored (s : State) (r : Reg) (i : Nat) : Nat :=
  let v := (s.reg r i).toNat
  match coverOf r i with
  | none => v
  | some (w, mask, up) => Nat.xor v (Nat.land (Sparse.get (fun _ => 0) s.storeUpset w * 2 ^ up) mask)

/-- The 65,536 bytes of the store. -/
def State.storeBytes64 (s : State) : List Byte := (List.range 16384).flatMap fun w => leBytes 4 (s.storeWord w)

/-- The CRC that a complete pass forms (R437). -/
def State.storeCrc (s : State) : Nat := crc32c s.storeBytes64

/-- Δ of R438 for all the words that a write changed: the remainder, from zero and without inversion, of the differences. -/
def storeDelta (old new : State) : Nat :=
  crcBytes 0 ((List.range 16384).flatMap fun w => leBytes 4 ((old.storeWord w).xor (new.storeWord w)))

/-- The write path (R436, R438): a word that a write changes holds what was written, and once the reference is committed it moves with
the store. -/
def State.viaStore (old new : State) : State :=
  let kept := old.storeUpset.filter fun e => old.cleanWord e.1 == new.cleanWord e.1
  let new := { new with storeUpset := kept }
  if new.bit Fld.HUB_CONFIG_STATUS_COMMITTED 0 then
    new.setReg .HUB_CONFIG_REF 0 (BitVec.ofNat 32 ((new.reg .HUB_CONFIG_REF 0).toNat.xor (storeDelta old new)))
  else new

/-- A write that puts back the value an upset had changed: the word holds what was written, and the difference goes the write path (R436,
R438). -/
def State.overUpset (s : State) (r : Reg) (i v : Nat) : State :=
  match coverOf r i with
  | none => s
  | some (w, mask, _) =>
    if Sparse.get (fun _ => 0) s.storeUpset w = 0 ∨ Nat.land (s.reg r i).toNat mask ≠ Nat.land v mask then s
    else
      let t := { s with storeUpset := Sparse.set (fun _ => 0) s.storeUpset w 0 }
      if t.bit Fld.HUB_CONFIG_STATUS_COMMITTED 0 then
        t.setReg .HUB_CONFIG_REF 0 (BitVec.ofNat 32 ((t.reg .HUB_CONFIG_REF 0).toNat.xor (storeDelta s t)))
      else t

end Sys2Proof.Machine
end

