-- ==== Sys2Proof/Machine/Special.lean ====
section
/-!
DEFINITION. The exact functions of the special-function unit (R86) as rational enclosures, and the one rounding of their
results (R85): both ends of an enclosure are rounded, and where they agree that is the correctly rounded result
(notes/assumptions/7).
-/

namespace Sys2Proof.Machine

/-- A non-negative rational enclosure: lower and upper bounds as fractions. -/
structure Encl where
  loN : Nat
  loD : Nat
  hiN : Nat
  hiD : Nat
  deriving DecidableEq, Repr

/-- A single exact value as an enclosure. -/
def Encl.exact (n d : Nat) : Encl := ⟨n, d, n, d⟩

/-- Fraction bits of the fixed-point sums below. -/
def fixBits : Nat := 1100

/-- One in fixed point. -/
def fixOne : Nat := 2 ^ 1100

/-- Lower and upper partial sums of Σ x^i / i! from term `i` on, in fixed point, `fuel` terms. -/
def expTerms : Nat → Nat → Nat → Nat → Nat → Nat → Nat → Nat × Nat
  | 0, _, _, _, _, sl, sh => (sl, sh + 2)
  | fuel + 1, i, xl, xh, tl, sl, sh =>
    let tl' := tl * xl / fixOne / i
    let th' := (tl + 4) * xh / fixOne / i + 2
    expTerms fuel (i + 1) xl xh tl' (sl + tl') (sh + th')

/-- Squares a fixed-point pair `k` times, rounding outward. -/
def squareTimes : Nat → Nat × Nat → Nat × Nat
  | 0, p => p
  | k + 1, p => squareTimes k (p.1 * p.1 / fixOne, p.2 * p.2 / fixOne + 1)

/-- e^(n/d) for a non-negative fraction, as fixed-point bounds. The argument is divided by 2^16, the series summed and the
result squared sixteen times. -/
def expFix (n d : Nat) : Nat × Nat :=
  let xl := n * fixOne / (d * 65536)
  let s := expTerms 140 1 xl (xl + 1) fixOne fixOne (fixOne + 1)
  squareTimes 16 s

/-- e^(±n/d). -/
def enclExp (neg : Bool) (n d : Nat) : Encl :=
  if n = 0 then .exact 1 1
  else if 1100 * d < n then (if neg then .exact 1 (2 ^ 1500) else .exact (2 ^ 1500) 1)
  else
    let e := expFix n d
    if neg then ⟨fixOne, e.2, fixOne, e.1⟩ else ⟨e.1, fixOne, e.2, fixOne⟩

/-- Σ 1 / ((2i + 1) 9^i) in fixed point, `fuel` terms. -/
def atanhTerms : Nat → Nat → Nat → Nat → Nat
  | 0, _, _, s => s
  | fuel + 1, i, p, s => atanhTerms fuel (i + 1) (p / 9) (s + p / (2 * i + 1))

/-- ln 2 in fixed point, from below and above: 2 atanh (1/3). -/
def ln2Fix : Nat × Nat :=
  let s := atanhTerms 360 0 (fixOne / 3) 0
  (2 * s, 2 * s + 2000)

/-- 2^(±n/d). -/
def enclExp2 (neg : Bool) (n d : Nat) : Encl :=
  if 1100 * d < n then (if neg then .exact 1 (2 ^ 1500) else .exact (2 ^ 1500) 1)
  else
    let q := if neg then ceilDiv n d else n / d
    let fn := if neg then q * d - n else n - q * d
    if fn = 0 then (if neg then .exact 1 (2 ^ q) else .exact (2 ^ q) 1)
    else
      let l := expFix (fn * ln2Fix.1) (d * fixOne)
      let h := expFix (fn * ln2Fix.2) (d * fixOne)
      if neg then ⟨l.1, fixOne * 2 ^ q, h.2, fixOne * 2 ^ q⟩ else ⟨l.1 * 2 ^ q, fixOne, h.2 * 2 ^ q, fixOne⟩

/-- 1 / (1 + e^∓(n/d)). -/
def enclLogistic (neg : Bool) (n d : Nat) : Encl :=
  if n = 0 then .exact 1 2
  else if 400 * d < n then (if neg then .exact 1 (2 ^ 500) else .exact (2 ^ 500 - 1) (2 ^ 500))
  else
    let e := expFix n d
    if neg then ⟨fixOne, fixOne + e.2, fixOne, fixOne + e.1⟩
    else ⟨e.1, fixOne + e.1, e.2, fixOne + e.2⟩

/-- tanh (n/d). -/
def enclTanh (n d : Nat) : Encl :=
  if 400 * d < n then .exact (2 ^ 500 - 1) (2 ^ 500)
  else
    let e := expFix (2 * n) d
    ⟨e.1 - fixOne, fixOne + e.1, e.2 - fixOne, fixOne + e.2⟩

/-- Integer square root from above by Newton's steps. -/
def sqrtIter : Nat → Nat → Nat → Nat
  | 0, _, x => x
  | fuel + 1, n, x =>
    let y := (x + n / x) / 2
    if y < x then sqrtIter fuel n y else x

/-- Floor of the square root. -/
def isqrt (n : Nat) : Nat := if n = 0 then 0 else sqrtIter 200 n (2 ^ (Nat.log2 n / 2 + 1))

/-- 1 / √(n/d) for a positive fraction. -/
def enclRsqrt (n d : Nat) : Encl :=
  let x := d * 2 ^ 1000 / n
  let s := isqrt x
  if s * s * n = d * 2 ^ 1000 then .exact s (2 ^ 500) else ⟨s, 2 ^ 500, s + 1, 2 ^ 500⟩

/-- Σ (−1)^i / ((2i + 1) q^(2i + 1)) in fixed point: arctan (1/q), `fuel` terms, as positive and negative sums. -/
def atanTerms : Nat → Nat → Nat → Nat → Nat → Nat → Nat × Nat
  | 0, _, _, _, a, b => (a, b)
  | fuel + 1, i, q, p, a, b =>
    let t := p / (2 * i + 1)
    if i % 2 = 0 then atanTerms fuel (i + 1) q (p / (q * q)) (a + t) b
    else atanTerms fuel (i + 1) q (p / (q * q)) a (b + t)

/-- π in fixed point by Machin's formula; the true value lies within 100,000 units. -/
def piFix : Nat :=
  let a := atanTerms 260 0 5 (fixOne / 5) 0 0
  let b := atanTerms 90 0 239 (fixOne / 239) 0 0
  16 * (a.1 - a.2) - 4 * (b.1 - b.2)

/-- Lower and upper sums of Σ a^(2i+1) / (1·3·…·(2i+1)) in fixed point, the square of `a` bounded by xl and xh. -/
def phiTerms : Nat → Nat → Nat → Nat → Nat → Nat → Nat → Nat → Nat × Nat
  | 0, _, _, _, _, th, sl, sh => (sl, sh + 2 * th + 2)
  | fuel + 1, i, xl, xh, tl, th, sl, sh =>
    let tl' := tl * xl / fixOne / (2 * i + 1)
    let th' := th * xh / fixOne / (2 * i + 1) + 1
    phiTerms fuel (i + 1) xl xh tl' th' (sl + tl') (sh + th')

/-- Φ(±n/d), the standard normal distribution function, for n/d at most 20. -/
def enclPhi (neg : Bool) (n d : Nat) : Encl :=
  let al := n * fixOne / d
  let xl := n * n * fixOne / (d * d)
  let s := phiTerms 1500 1 xl (xl + 1) al (al + 1) al (al + 1)
  let e := expFix (n * n) (2 * d * d)
  let rl := isqrt (2 * (piFix - 100000) * fixOne)
  let rh := isqrt (2 * (piFix + 100000) * fixOne) + 1
  -- s · e^(−a²/2) / √(2π), as fractions over fixed-point numbers
  let lN := s.1 * fixOne
  let lD := e.2 * rh
  let hN := s.2 * fixOne
  let hD := e.1 * rl
  if neg then ⟨hD - 2 * hN, 2 * hD, lD - 2 * lN, 2 * lD⟩ else ⟨lD + 2 * lN, 2 * lD, hD + 2 * hN, 2 * hD⟩

/-- t Φ(t) in magnitude. -/
def enclGelu (neg : Bool) (n d : Nat) : Encl :=
  if 20 * d < n then
    (if neg then .exact 1 (2 ^ 400) else .exact (n * (2 ^ 280 - 1)) (d * 2 ^ 280))
  else
    let p := enclPhi neg n d
    ⟨p.loN * n, p.loD * d, p.hiN * n, p.hiD * d⟩

/-- t / (1 + e^−t) in magnitude. -/
def enclSilu (neg : Bool) (n d : Nat) : Encl :=
  if 400 * d < n && neg then .exact 1 (2 ^ 500)
  else
    let p := enclLogistic neg n d
    ⟨p.loN * n, p.loD * d, p.hiN * n, p.hiD * d⟩

/-- Rounds 2^k times an enclosed value once into a format (R85); saturation sets RANGE_CVT (R44). -/
def Encl.round (f : Fmt) (range : NumFlags) (neg : Bool) (k : Int) (e : Encl) : Nat × NumFlags :=
  let a := roundTo f range (Val.scale2 (.fin neg e.loN e.loD) k)
  let b := roundTo f range (Val.scale2 (.fin neg e.hiN e.hiD) k)
  if a = b then a else (Config.unresolved e.loN % 2 ^ f.bits, 0)

end Sys2Proof.Machine
end

