-- ==== Sys2Proof/Machine/Sfu.lean ====
section
/-!
DEFINITION. The special-function units (R80 to R104): the SFN instructions, the grant of vectors by weighted round-robin, the
three stages of a lane, user functions and the CLH-0 evaluation, results and the fold of lane masks, the check lanes, and the
load, test and mode of a unit.
-/

namespace Sys2Proof.Machine
open Sys2Proof

/-! ### Functions of one lane -/

/-- An FP32 code as an exact value. -/
def f32 (c : Nat) : Val := decodeVal .fp32 c

/-- 2^k times a value, rounded once into the result format (R85 stage 3). -/
def resultStage (of : Fmt) (k : Int) (v : Val) : Nat × NumFlags := roundTo of NumFlags.rangeCvt (Val.scale2 v k)

/-- Segment evaluation of a table in the layout of R94 at an FP32 argument that is not NaN; it sets RANGE_ACC and UNDER only. -/
def segEval (table : List Byte) (t : Val) : Nat × NumFlags :=
  let n := leNat table
  let word := fun o => bitsAt n (8 * o) 32
  let lo := f32 (word 0)
  let e := signedOf 8 (bitsAt n 32 8)
  let nseg := bitsAt n 40 8
  if Val.lt t lo then (word 8, 0)
  else
    match t, lo with
    | .fin _ _ _, .fin _ _ _ =>
      let d := Val.scale2 (Val.add t (Val.negate lo)).1 (-e)
      let i := d.inum.toNat / d.den
      if 2 ^ nseg ≤ i then (word 12, 0)
      else
        let u := rne32 (Val.add t (Val.negate (Val.add lo (Val.scale2 (Val.ofInt i) e)).1)).1
        let c := fun j => word (16 + 16 * i + 4 * j)
        let y2 := fma32 (c 3) u.1 (c 2)
        let y1 := fma32 y2.1 u.1 (c 1)
        let y0 := fma32 y1.1 u.1 (c 0)
        (y0.1, (u.2 ||| y2.2 ||| y1.2 ||| y0.2) &&& (NumFlags.rangeAcc ||| NumFlags.under))
    | _, _ => (word 12, 0)

/-- The CLH-0 exponential base 2 (R103). -/
def clhExp2 (t : Val) : Nat × NumFlags :=
  let fl := if 0 ≤ t.inum then (t.inum.toNat / t.den : Int) else -((ceilDiv (-t.inum).toNat t.den : Nat) : Int)
  let y := segEval (Config.clhTable 0) (Val.add t (Val.ofInt (-fl))).1
  let r := rne32 (Val.scale2 (f32 y.1) fl)
  (r.1, y.2 ||| r.2)

/-- The CLH-0 evaluation (R103) of a function code at a finite FP32 argument. -/
def clh0 (func : Nat) (t : Val) : Nat × NumFlags :=
  if func = 1 then
    let w := rne32 (Val.mul t (f32 0x3FB8AA3B)).1
    let y := clhExp2 (f32 w.1)
    (y.1, w.2 ||| y.2)
  else if func = 2 then clhExp2 t
  else if func = 3 then segEval (Config.clhTable 2) t
  else if func = 4 then segEval (Config.clhTable 3) t
  else if func = 5 then
    let l := segEval (Config.clhTable 3) t
    let m := Val.mul t (f32 l.1)
    let r := rne32 m.1
    (r.1, l.2 ||| m.2 ||| r.2)
  else
    match t with
    | .fin _ n d =>
      let q := floorLog2 n d / 2
      let y := segEval (Config.clhTable 1) (Val.scale2 t (-2 * q))
      let r := rne32 (Val.scale2 (f32 y.1) (-q))
      (r.1, y.2 ||| r.2)
    | _ => (Fmt.nanCode .fp32, 0)

/-- The largest finite code of a format with a sign. -/
def maxOf (of : Fmt) (neg : Bool) : Nat := of.maxCode + (if neg then of.signBit else 0)

/-- EXP and EXP2 into WX32 (R50, R88): arguments above the limit saturate with RANGE_EXP; the sentinel and −∞ give +0 without
UNDER. -/
def expWide (base2 : Bool) (k : Int) (t : Val) : Nat × NumFlags :=
  let limit : Val := if base2 then .fin false 511 1 else .fin false 354 1
  let enc := fun s n d => if base2 then enclExp2 s n d else enclExp s n d
  match t with
  | .nan => (Fmt.nanCode .wx32, 0)
  | .inf true => (0, 0)
  | .inf false => let r := (enc false limit.inum.toNat 1).round .wx32 NumFlags.rangeAcc false k; (r.1, r.2 ||| NumFlags.rangeExp)
  | .fin s n d =>
    if s && n == 1024 * d then (0, 0)
    else if Val.lt limit t then
      let r := (enc false limit.inum.toNat 1).round .wx32 NumFlags.rangeAcc false k
      (r.1, r.2 ||| NumFlags.rangeExp)
    else (enc s n d).round .wx32 NumFlags.rangeAcc false k

/-- The exact functions of R86 at an argument that is not NaN, rounded once (R85). -/
def nativeFn (func : Nat) (of : Fmt) (k : Int) (t : Val) : Nat × NumFlags :=
  let cv := NumFlags.rangeCvt
  match func, t with
  | 0, v => resultStage of k v
  | 1, .inf s => if s then (0, 0) else (maxOf of false, cv)
  | 1, .fin s n d => (enclExp s n d).round of cv false k
  | 2, .inf s => if s then (0, 0) else (maxOf of false, cv)
  | 2, .fin s n d => (enclExp2 s n d).round of cv false k
  | 3, .inf s => resultStage of k (.fin s 1 1)
  | 3, .fin s n d => if n = 0 then resultStage of k t else (enclTanh n d).round of cv s k
  | 4, .inf s => if s then (0, 0) else resultStage of k .one
  | 4, .fin s n d => (enclLogistic s n d).round of cv false k
  | 5, .inf s => if s then (of.signBit, 0) else resultStage of k t
  | 5, .fin s n d => if n = 0 then resultStage of k t else (enclSilu s n d).round of cv s k
  | 6, .inf s => if s then (of.signBit, 0) else resultStage of k t
  | 6, .fin s n d => if n = 0 then resultStage of k t else (enclGelu s n d).round of cv s k
  | 7, .inf s => if s then (of.nanCode, NumFlags.invalid) else (0, 0)
  | 7, .fin s n d =>
    if n = 0 then (maxOf of s, cv)
    else if s then (of.nanCode, NumFlags.invalid)
    else (enclRsqrt n d).round of cv false k
  | _, _ => (of.nanCode, 0)

/-- Functions that compatibility mode changes (R86, R102), where the special values of R86 do not settle the result. -/
def clhApplies (func : Nat) (t : Val) : Bool :=
  match t with
  | .fin s n _ =>
    func == 1 || func == 2 || func == 4 || func == 5 || (func == 3 && n != 0) || (func == 7 && n != 0 && !s)
  | _ => false

/-- Stages 2 and 3 of a lane (R85, R86, R102); `user` is the table of USER0 to USER3. -/
def laneFn (compat : Bool) (user : List Byte) (func : Nat) (of : Fmt) (k : Int) (t : Val) : Nat × NumFlags :=
  if t.isNan then (of.nanCode, NumFlags.nanIn)
  else if of = .wx32 && (func == 1 || func == 2) then expWide (func == 2) k t
  else if 0x20 ≤ func then
    let y := segEval user t
    let r := convertTo of (Val.scale2 (f32 y.1) k)
    (r.1, y.2 ||| r.2)
  else if compat && clhApplies func t then
    let y := clh0 func t
    let r := convertTo of (Val.scale2 (f32 y.1) k)
    (r.1, y.2 ||| r.2)
  else nativeFn func of k t

/-- Stage 1 (R85): t = x, or rne32 (a × x + b). -/
def argStage (x : Val) (ab : Option (Nat × Nat)) : Val × NumFlags :=
  match ab with
  | none => (x, 0)
  | some p =>
    let m := Val.fma (f32 p.1) x (f32 p.2)
    let r := rne32 m.1
    (f32 r.1, m.2 ||| r.2)

/-! ### SFN, SQACC, RMSR, MUL3 at issue -/

/-- Whether the word is an SFN of one of the given function codes. -/
def isSfn (w : W128) (p : Nat → Bool) : Bool := opcodeOf w == 0x30 && p (sfnWord w).func

/-- Words of the table RAM that a vector of a function reads in a mode (R96): of the micro-programs and tables of its area those that the
firmware release's layout gives the function, and for USER0 to USER3 the function's own header and segments. -/
def tableReads (compat : Bool) (func word : Nat) : Bool :=
  (if compat then decide (0x1800 ≤ word) && decide (word < 0x3000) else decide (word < 0x1800)) && Config.sfuWord func compat word ||
  (decide (0x20 ≤ func) && decide (func ≤ 0x23) &&
    ((decide (0x3000 + 2 * (func - 0x20) ≤ word) && decide (word < 0x3002 + 2 * (func - 0x20))) ||
      (decide (0x3008 + 512 * (func - 0x20) ≤ word) && decide (word < 0x3208 + 512 * (func - 0x20)))))

/-- Slots held by SQACC instructions still in flight: another SQACC may name them (R84). -/
def Cell.sqaccSlots (x : Cell) : List Nat :=
  (x.inflight.filter fun f => match x.ibuf[f.index]? with
    | some w => isSfn w (· == 0x10)
    | none => false).flatMap (·.slotDst)

/-- Whether an RMSR is in flight (R84). -/
def Cell.rmsrInFlight (x : Cell) : Bool :=
  x.inflight.any fun f => match x.ibuf[f.index]? with
    | some w => isSfn w (· == 0x11)
    | none => false

/-- Issue plan of an SFN word (R82, R83, R86, R89 to R91, R95). SQACC and RMSR hold the slot they name until they retire (R84). RMSR's n
is checked here and read again at its grant, and a fused KIND on an instruction that writes no scratchpad range aborts with OPCODE
(notes/assumptions/38). -/
def sfnPlan (s : State) (c : Nat) (w : W128) : IssuePlan :=
  let f := sfnWord w
  let x := s.cell c
  let slot := f.aux % 256
  let userMissing := decide (0x20 ≤ f.func) && decide (f.func ≤ 0x23) &&
    !(s.fld Fld.SFU_MODE_USER_LOADED (blockOfCell c)).testBit (f.func - 0x20)
  let n := s.spadLe c f.src 4
  { reserved := f.badEncoding || userMissing || (f.func == 0x12 && x.norm.isNone)
    badRange := f.badAddress || (f.func == 0x11 && (n == 0 || decide (2 ^ 24 < n)))
    src := ⟨f.src, f.srcBytes⟩ :: (if f.auxIsOffset then [⟨f.aux, f.auxBytes⟩] else [])
    dst := if f.dstBytes = 0 then [] else [⟨f.dst, f.dstBytes⟩]
    slots := if f.func = 0x11 then [slot] else if f.func = 0x10 && !x.sqaccSlots.contains slot then [slot] else []
    slotDst := []
    exUnit := .sfu
    cycles := f.vectors
    due := true
    merging := false
    release := []
    kinds := if f.dstBytes = 0 then [0] else anyKind
    hold := if f.func = 0x10 ∨ f.func = 0x11 then [slot] else [] }

/-- Whether R84 keeps an SFN back: another SFN at the grant stage, or a MUL3 behind an RMSR in flight. -/
def sfnWaits (s : State) (c : Nat) (w : W128) : Bool :=
  (s.cell c).sfn.isSome || ((sfnWord w).func == 0x12 && (s.cell c).rmsrInFlight)

/-- The score area an SFN folds into (R114): EXP or EXP2 from FP32 into WX32 whose SRC range lies in it. -/
def foldArea (x : Cell) (f : SfnWord) : Option ScoreArea :=
  match x.scoreArea with
  | none => none
  | some a =>
    if (f.func == 1 || f.func == 2) && f.ifmt == 0 && f.ofmt == 5 && decide (a.sarea ≤ f.src) &&
      decide (f.src + f.srcBytes ≤ a.sarea + 64 * a.sstride) then some a else none

/-- The instruction goes to the grant stage (R84). -/
def sfnEffect (c : Nat) (w : W128) (s : State) : State × BitVec 4 :=
  let x := s.cell c
  (s.setCell c { x with sfn := some ⟨x.next, w, 0, false, foldArea x (sfnWord w)⟩ }, 0)

/-- Issue of an SFN word. -/
def State.issueSfn (s : State) (c : Nat) (w : W128) (e : Ecc) : State :=
  if sfnWaits s c w then s else s.issue c w e (sfnPlan s c w) (sfnEffect c w)

/-- SFN: a built-in or user function (R82 to R88, R94). -/
def execSfn (c : CellIx) (w : W128) (e : Ecc) (s : State) : Res :=
  .next (if isSfn w (fun f => f != 0x10 && f != 0x11 && f != 0x12) then s.issueSfn c.val w e else s)

/-- SQACC (R89). -/
def execSqacc (c : CellIx) (w : W128) (e : Ecc) (s : State) : Res :=
  .next (if isSfn w (· == 0x10) then s.issueSfn c.val w e else s)

/-- RMSR (R90). -/
def execRmsr (c : CellIx) (w : W128) (e : Ecc) (s : State) : Res :=
  .next (if isSfn w (· == 0x11) then s.issueSfn c.val w e else s)

/-- MUL3 (R91). -/
def execMul3 (c : CellIx) (w : W128) (e : Ecc) (s : State) : Res :=
  .next (if isSfn w (· == 0x12) then s.issueSfn c.val w e else s)

/-! ### Grants -/

/-- Whether cell `i` of block `b` requests the unit (R92): vectors still to grant, not yielded, no transfer on its scratchpad;
a request of a cell under reset is dropped (R18). -/
def State.sfuRequests (s : State) (b i : Nat) : Bool :=
  let x := s.cell (16 * b + i)
  match x.sfn with
  | none => false
  | some j => decide (j.granted < (sfnWord j.word).vectors) && !j.yielded && !x.inReset &&
      s.fld Fld.CEL_STATE_HOLDER (16 * b + i) == 0

/-- The next requester after cell `from'` in index order, wrapping, that satisfies `p`. -/
def nextAfter (from' : Nat) (p : Nat → Bool) : Option Nat :=
  ((List.range 16).map fun k => (from' + 1 + k) % 16).find? p

/-- The cell that the round-robin of R18 grants, and the position it leaves: last granted cell, grants left in its turn, last
granted cell of weight zero. -/
def State.sfuArbiter (s : State) (b : Nat) : Option (Nat × Nat × Nat × Nat) :=
  let bl := s.block b
  let weight := fun i => s.fld Fld.CEL_SFU_WEIGHT_WEIGHT (16 * b + i)
  if decide (0 < bl.left) && s.sfuRequests b bl.turn && weight bl.turn != 0 then
    some (bl.turn, bl.turn, bl.left - 1, bl.zeroTurn)
  else
    match nextAfter bl.turn (fun i => s.sfuRequests b i && weight i != 0) with
    | some i => some (i, i, weight i - 1, bl.zeroTurn)
    | none =>
      match nextAfter bl.zeroTurn (fun i => s.sfuRequests b i) with
      | some i => some (i, bl.turn, 0, i)
      | none => none

/-- Row statuses set by the lane masks of a vector (R114): marks of visible keys only, each bit from its own mask. -/
def vectorFolds (x : Cell) (a : ScoreArea) (src : Nat) (fls : List NumFlags) : List (Nat × SlotStatus) :=
  (fls.zipIdx).filterMap fun p =>
    let b := src + 4 * p.2
    let st := (if p.1.has NumFlags.rangeExp then SlotStatus.rangeExp else 0) |||
      (if p.1.has NumFlags.under then SlotStatus.under else 0) ||| (if p.1.has NumFlags.nanIn then SlotStatus.nan else 0)
    if st ≠ 0 && Sparse.get (fun _ => false) x.visible b then
      some (a.slotBase + a.span * ((b - a.sarea) / a.sstride), st)
    else none

/-- Argument `j` of vector `v` of an instruction. -/
def State.sfnArg (s : State) (c : Nat) (f : SfnWord) (v j : Nat) : Val :=
  decodeVal f.inFmt (s.spadLe c (f.src + (v * 128 + j) * f.inSize) f.inSize)

/-- A faulty lane: its number, and the free value that its result and flags are drawn from (R98). -/
abbrev BadLane := Option (Nat × Nat)

/-- Whether a lane is the faulty one. -/
def BadLane.hits (l : BadLane) (j : Nat) : Bool := l.any fun p => p.1 == j

/-- The result of a lane with its flags: its own, or any code of `w` bits and any flags where the lane is faulty. -/
def BadLane.lane (l : BadLane) (w j : Nat) (r : Nat × NumFlags) : Nat × NumFlags :=
  match l with
  | none => r
  | some p => if p.1 = j then (Config.freeValue p.2 % 2 ^ w, BitVec.ofNat _ (Config.freeValue (p.2 + 1))) else r

/-- What a granted vector computes (R85, R89 to R91): payload, flags and folds. A fault that the check lanes do not see leaves its lane's
result and flags undefined (R98). -/
def State.sfnVector (s : State) (c : Nat) (job : SfnJob) (bad : BadLane) : SfnPayload × NumFlags × List (Nat × SlotStatus) :=
  let f := sfnWord job.word
  let b := blockOfCell c
  let x := s.cell c
  let v := job.granted
  let compat := s.bit Fld.SFU_STATUS_COMPAT b
  let args := (List.range 128).map fun j => s.sfnArg c f v j
  if f.func = 0x10 then
    let sq := (args.zipIdx).map fun a =>
      let m := Val.mul a.1 a.1
      if bad.hits a.2 then let r := bad.lane 59 a.2 (0, 0); (decodeVal .acc r.1, r.2) else m
    let sum := sq.foldl (fun t q => Val.add t q.1 |>.1) Val.zero
    (.squares (f.aux % 256) (v == 0 && f.auxMode == 1) sum, orFlags (sq.map (·.2)), [])
  else if f.func = 0x11 then
    let acc := decodeVal .acc ((Table.get (x.slot (f.aux % 256)).words 0).getD 0)
    let q := Val.div acc (Val.ofInt (s.spadLe c f.src 4))
    let t := Val.add q.1 (f32 (s.spadLe c (f.src + 4) 4))
    let m := rne32 t.1
    let l := laneFn compat [] 7 .fp32 0 (f32 m.1)
    let r := BadLane.lane (bad.map fun p => (0, p.2)) 32 0 (l.1, q.2 ||| (if q.1.isNan then 0 else t.2) ||| m.2 ||| l.2)
    (.root f.dst r.1, r.2, [])
  else if f.func = 0x12 then
    let nr := f32 (x.norm.getD 0)
    let rs := (args.zipIdx).map fun p =>
      let wj := if f.auxMode = 0 then Val.one
        else decodeVal f.inFmt (s.spadLe c (f.aux + ((if f.auxMode = 2 then v * 128 else 0) + p.2) * f.inSize) f.inSize)
      let m := Val.mul p.1 nr
      let n := Val.mul m.1 wj
      let r := resultStage f.outFmt f.scalek n.1
      bad.lane (8 * f.outSize) p.2 (r.1, m.2 ||| (if m.1.isNan then 0 else n.2) ||| r.2)
    (.bytes (f.dst + v * 128 * f.outSize) (rs.flatMap fun r => leBytes f.outSize r.1), orFlags (rs.map (·.2)), [])
  else
    let user := (Table.get (s.block b).user (f.func - 0x20)).getD []
    let rs := (args.zipIdx).map fun p =>
      let base := f.aux + (if f.auxMode = 2 then v * 1024 else 0)
      let ab := if f.auxMode = 0 then none
        else some (s.spadLe c (base + 4 * p.2) 4, s.spadLe c (base + 512 + 4 * p.2) 4)
      let t := argStage p.1 ab
      let r := laneFn compat user f.func f.outFmt f.scalek t.1
      bad.lane (8 * f.outSize) p.2 (r.1, t.2 ||| r.2)
    let folds := match job.fold with
      | some a => vectorFolds x a (f.src + 512 * v) (rs.map (·.2))
      | none => []
    (.bytes (f.dst + v * 128 * f.outSize) (rs.flatMap fun r => leBytes f.outSize r.1), orFlags (rs.map (·.2)), folds)

/-- Records a fault of a unit (R101). -/
def State.sfuFault (s : State) (b kind cell detail : Nat) : State :=
  s.recordInfo .SFU_FAULT_INFO b (kind * 2 ^ 24 + cell * 2 ^ 20 + detail % 65536)

/-- An error strikes a word of a unit's table RAM (R96). -/
def Block.strike (b : Block) : TableOutcome → Block
  | .corrected w => { b with upset := Table.put b.upset w true }
  | .uncorrectable w => { b with upset := Table.put b.upset w false }
  | _ => b

/-- The first uncorrectable word among those that a vector reads (R97). -/
def Block.deadWord (b : Block) (compat : Bool) (func : Nat) : Option Nat :=
  (b.upset.find? fun e => !e.2 && tableReads compat func e.1).map (·.1)

/-- The corrected words that a vector reads: each is written back (R97). -/
def Block.softWords (b : Block) (compat : Bool) (func : Nat) : List (Nat × Bool) :=
  b.upset.filter fun e => e.2 && tableReads compat func e.1

/-- A vector passes through the unit (R85, R97): each corrected word that it reads is counted and written back, and its results enter the
pipeline. -/
def State.passVector (s : State) (b i : Nat) (job : SfnJob) (bad : BadLane) : State :=
  let c := 16 * b + i
  let compat := s.bit Fld.SFU_STATUS_COMPAT b
  let soft := (s.block b).softWords compat (sfnWord job.word).func
  let s := if soft.isEmpty then s else s.addSat Fld.SFU_ECC_COUNT_COUNT b soft.length
  let r := s.sfnVector c job bad
  let last := job.granted + 1 == (sfnWord job.word).vectors
  let bl := s.block b
  let s := s.setBlock b { bl with
    pipe := bl.pipe ++ [⟨i, job.index, (bl.seqNo + 15) % 16, last, r.1, r.2.1, r.2.2⟩]
    upset := bl.upset.filter fun e => !soft.contains e }
  let s := if bad.isSome then { s with free := s.free + 2 } else s
  s.setCell c { s.cell c with sfn := if last then none else some { job with granted := job.granted + 1 } }

/-- SFN_VECTOR_GRANT (R18, R80, R92, R96 to R98): one vector is granted. An uncorrectable word that it reads aborts the requesting task with
SFU_TABLE; so does a lane fault in a lane that the check lanes recompute in this vector; any other lane fault leaves that lane undefined. -/
def execSfnVectorGrant (b : BlockIx) (t : TableOutcome) (s : State) : Res :=
  if s.fld Fld.SFU_STATUS_STATE b.val ≠ 3 then .next s
  else
    match s.sfuArbiter b.val with
    | none => .next s
    | some (i, turn, left, zt) =>
      let c := 16 * b.val + i
      let bl := (s.block b.val).strike t
      let q := bl.seqNo
      let s := s.setBlock b.val { bl with turn := turn, left := left, zeroTurn := zt, seqNo := (q + 1) % 16 }
      match (s.cell c).sfn with
      | none => .next s
      | some job =>
        match bl.deadWord (s.bit Fld.SFU_STATUS_COMPAT b.val) (sfnWord job.word).func with
        | some word => .next ((s.sfuFault b.val 1 i word).cellFault c fcSfuTable job.index)
        | none =>
          match t with
          | .laneFault lane =>
            if lane / 8 = q then .next ((s.sfuFault b.val 2 i lane).cellFault c fcSfuTable job.index)
            else .next (s.passVector b.val i job (some (lane, s.free)))
          | _ => .next (s.passVector b.val i job none)

/-! ### Results -/

/-- Removes the first vector of cell `i` from a pipeline. -/
def dropVec (i : Nat) : List SfnVec → List SfnVec
  | [] => []
  | v :: vs => if v.cell = i then vs else v :: dropVec i vs

/-- Clears the due mark of the instruction at a word index. -/
def clearIndex (k : Nat) : List InFlight → List InFlight
  | [] => []
  | f :: fs => if f.index = k && f.exUnit == .sfu then { f with due := false } :: fs else f :: clearIndex k fs

/-- Adds a sum of squares to word 0 of a slot, with one rounding (R89). -/
def State.addSquares (s : State) (c slot : Nat) (clear : Bool) (sum : Val) : State :=
  let x := s.cell c
  let sl := x.slot slot
  let old := if clear then 0 else (Table.get sl.words 0).getD 0
  let r := accAdd old sum
  (s.setCell c { x with slots := Table.put x.slots slot { sl with words := Table.put sl.words 0 r.1 } }).addNumFlags c r.2

/-- Delivery of one payload. -/
def State.deliver (s : State) (c : Nat) (p : SfnPayload) : State :=
  match p with
  | .bytes d data => s.spadWrite c d data
  | .squares slot clear sum => s.addSquares c slot clear sum
  | .root d code => let s := s.spadWrite c d (leBytes 4 code); s.setCell c { s.cell c with norm := some code }

/-- SFN_RESULT (R66, R84, R87, R93, R114): the next vector of the cell is delivered, its flags set and its lane masks folded; the
last one lets the instruction retire, and a hand-over that waited for it takes place. A cell under reset receives nothing. -/
def execSfnResult (c : CellIx) (s : State) : Res :=
  let b := blockOfCell c.val
  let bl := s.block b
  match bl.pipe.find? fun v => v.cell == c.val % 16 with
  | none => .next s
  | some v =>
    let s := s.setBlock b { bl with pipe := dropVec (c.val % 16) bl.pipe }
    if (s.cell c.val).inReset then .next s
    else
      let s := (s.deliver c.val v.payload).addNumFlags c.val v.flags
      let x := v.folds.foldl (fun x f => x.orStatus f.1 f.2) (s.cell c.val)
      let x := if v.last then { x with inflight := clearIndex v.index x.inflight } else x
      .next (((s.setCell c.val x).retire c.val).finishYield c.val)

/-- CHECK_LANE_MISMATCH (R98): the effects of an uncorrectable table error, with KIND 2 and the lane, for the first vector of the cell in
the pipeline whose sequence number has the check lanes recompute the lane (notes/assumptions/38). -/
def execCheckLaneMismatch (c : CellIx) (lane : Nat) (s : State) : Res :=
  let b := blockOfCell c.val
  match (s.block b).pipe.find? fun v => v.cell == c.val % 16 && v.seqNo == lane / 8 with
  | none => .next s
  | some v => .next ((s.sfuFault b 2 (c.val % 16) lane).cellFault c.val fcSfuTable v.index)

/-! ### Load, test and mode -/

/-- Restores the owner's user tables and mode and puts the unit in service (R99 steps 5 and 6). -/
def State.sfuInService (s : State) (b : Nat) : State :=
  let tables := match s.ownerOfBlock b with
    | some p => ((s.plot p).map (·.user)).getD []
    | none => []
  let compat := match s.ownerOfBlock b with
    | some p => s.fld Fld.PLT_STATE_COMPAT p
    | none => 0
  let s := s.setBlock b { s.block b with user := tables, upset := [], failures := 0 }
  let s := s.setFld Fld.SFU_MODE_USER_LOADED b (tables.foldl (fun a e => a ||| 2 ^ e.1) 0)
  ((s.setFld Fld.SFU_MODE_COMPAT b compat).setFld Fld.SFU_STATUS_COMPAT b compat).setFld Fld.SFU_STATUS_STATE b 3

/-- A block goes out of service with its unit (R100). -/
def State.blockOut (s : State) (b : Nat) : State :=
  let s := s.setBlock b { s.block b with outOfService := true }
  (List.range 16).foldl (fun s i => s.setFld Fld.CEL_STATE_STATE (16 * b + i) csOut) (s.setFld Fld.SFU_STATUS_STATE b 5)

/-- One run of the load and test (R99 steps 1 to 4): answers whether it passed. -/
def State.sfuTestOnce (s : State) (b : Nat) (t : SfuTest) : State × Bool :=
  let s := s.setBlock b { s.block b with pipe := [] }
  let s := s.setReg .SFU_TABLE_CRC b (BitVec.ofNat 32 t.crc)
  if !t.crcOk then ((s.sfuFault b 4 0 0).setFld Fld.SFU_STATUS_STATE b 4, false)
  else
    let s := s.setFld Fld.SFU_STATUS_STATE b 2
    if !t.katOk then ((s.sfuFault b 3 0 0).setFld Fld.SFU_STATUS_STATE b 4, false) else (s.sfuInService b, true)

/-- The load and test of a unit, repeated once after a failure; a second failure takes the unit and its block out of service
(R99, R100). -/
def State.sfuLoadTest (s : State) (b : Nat) (t1 t2 : SfuTest) : State :=
  let r := s.sfuTestOnce b t1
  if r.2 then r.1
  else
    let q := r.1.sfuTestOnce b t2
    if q.2 then q.1 else q.1.blockOut b

/-- SFU_LOAD_TEST (R99, R100): runs for a unit that is not yet loaded, at start, or that a reset or a TEST has set loading, whether or not
a task has started in its block since. -/
def execSfuLoadTest (b : BlockIx) (t1 t2 : SfuTest) (s : State) : Res :=
  .next (if s.fld Fld.SFU_STATUS_STATE b.val ≤ 1 then s.sfuLoadTest b.val t1 t2 else s)

/-- SFU_MODE_TEST (R99, R101): a privileged write of TEST starts the load and test if no cell of the block runs a task, and is
ignored and logged otherwise. -/
def execSfuModeTest (a : Agent) (b : BlockIx) (s : State) : Res :=
  if !s.privOk a then .next s
  else if s.blockBusy b.val then .next (s.logIgnored chipPlot 2 (Reg.offset .SFU_MODE + 4 * b.val))
  else if s.fld Fld.SFU_STATUS_STATE b.val = 5 then .next s
  else .next ((s.setBlock b.val { s.block b.val with pipe := [] }).setFld Fld.SFU_STATUS_STATE b.val 1)

/-- SFU_MODE_COMPAT (R101, R104): the mode changes only while no cell of the block runs a task. -/
def execSfuModeCompat (a : Agent) (b : BlockIx) (v : Bool) (s : State) : Res :=
  if !s.privOk a then .next s
  else if s.blockBusy b.val then .next (s.logIgnored chipPlot 2 (Reg.offset .SFU_MODE + 4 * b.val))
  else .next (s.viaStore ((s.setBit Fld.SFU_MODE_COMPAT b.val v).setBit Fld.SFU_STATUS_COMPAT b.val v))

end Sys2Proof.Machine
end

