-- ==== Sys2Proof/Machine/CellControl.lean ====
section
/-!
DEFINITION. Synchronisation and control instructions of a cell (R64, R234, R235) and the hand-over of the scratchpad between
issue and the transfer ports (R17, R65 to R68, R262).
-/

namespace Sys2Proof.Machine
open Sys2Proof

/-! ### WAIT and POST -/

structure SemWord where
  pair : Nat
  empty : Bool
  count : Nat
  rsv : Nat
  deriving DecidableEq, Repr

/-- The WAIT and POST word (R234). -/
def semWord (w : W128) : SemWord :=
  let n := w.toNat
  ⟨bitsAt n 83 5, n.testBit 82, bitsAt n 78 4, bitsAt n 0 78⟩

/-- Reserved encodings of WAIT and POST; the fused KIND must be 0b000 (R234). -/
def SemWord.bad (f : SemWord) (w : W128) : Bool :=
  f.count == 0 || decide (8 < f.count) || f.rsv != 0 || fusedKind (fusedOf w) != 0 || fusedReserved (fusedOf w) != 0

/-- The pair named, if it is armed for the cell's task or by a chain (R234, R316). -/
def Cell.armedPair (x : Cell) (i : Nat) : Option SemPair :=
  match Table.get x.pairs i with
  | none => none
  | some p => match p.owner with
    | .chain _ => some p
    | .stream _ => if x.task = some p.task then some p else none

/-- Advances past a one-cycle instruction. -/
def State.advance (s : State) (c : Nat) : State :=
  let x := s.cell c
  (s.setCell c { x with next := x.next + 1 }).setFld Fld.CEL_STATE_STATE c csRunning

/-- The named count of a pair: FULL or EMPTY. -/
def SemPair.count (p : SemPair) (empty : Bool) : Nat := if empty then p.empty else p.full

/-- Whether the named count is the one on which the side that waits on the stream blocks (R241): FULL, but EMPTY for a DRAIN. -/
def State.waitSide (s : State) (p : SemPair) (empty : Bool) : Bool :=
  match p.owner with
  | .stream i => empty == (s.stream i).any fun t => t.kind == 1
  | .chain _ => false

/-- A take of COUNT from the named count; on the waiting side it is that side's last take (R241). -/
def SemPair.take (p : SemPair) (empty : Bool) (n : Nat) (side : Bool) (now : Nat) : SemPair :=
  { p with full := if empty then p.full else p.full - n
           empty := if empty then p.empty - n else p.empty
           blocked := if side then none else p.blocked
           lastTake := if side then some now else p.lastTake }

/-- WAIT (R234): takes COUNT once the named count holds it; until then the cell waits, and the tick at which the side that waits on the
stream became blocked is kept (R241). -/
def execWaitSem (c : CellIx) (w : W128) (s : State) : Res :=
  let x := s.cell c.val
  if !s.canIssue c.val w || opcodeOf w != 0x40 then .next s
  else
    let f := semWord w
    match x.armedPair f.pair with
    | none => .next (s.cellFault c.val fcOpcode x.next)
    | some p =>
      if f.bad w then .next (s.cellFault c.val fcOpcode x.next)
      else
        let side := s.waitSide p f.empty
        if f.count ≤ p.count f.empty then
          let p := p.take f.empty f.count side s.sundial
          .next ((s.setCell c.val { x with pairs := Table.put x.pairs f.pair p }).advance c.val)
        else
          let p := { p with blocked := if side then some (p.blocked.getD s.sundial) else p.blocked }
          .next ((s.setCell c.val { x with pairs := Table.put x.pairs f.pair p }).setFld Fld.CEL_STATE_STATE c.val csWaiting)

/-- Whether an earlier instruction of the cell still has scratchpad accesses to make: vectors not granted or not delivered
(R235). -/
def State.accessesLeft (s : State) (c : Nat) : Bool :=
  (s.cell c).sfn.isSome || (s.block (blockOfCell c)).pipe.any fun v => v.cell == c % 16

/-- POST (R234, R235): adds COUNT once every earlier instruction has made its accesses; above DEPTH it is dropped and faults the
stream with SEM. -/
def execPostSem (c : CellIx) (w : W128) (s : State) : Res :=
  let x := s.cell c.val
  if !s.canIssue c.val w || opcodeOf w != 0x41 || s.accessesLeft c.val then .next s
  else
    let f := semWord w
    match x.armedPair f.pair with
    | none => .next (s.cellFault c.val fcOpcode x.next)
    | some p =>
      if f.bad w then .next (s.cellFault c.val fcOpcode x.next)
      else if p.depth < p.count f.empty + f.count then
        match p.owner with
        | .stream i => .next ((s.advance c.val).streamFault i 0x7 c.val)
        | .chain _ => .next (s.advance c.val)
      else
        let p := if f.empty then { p with empty := p.empty + f.count } else { p with full := p.full + f.count }
        .next ((s.setCell c.val { x with pairs := Table.put x.pairs f.pair p }).advance c.val)

/-! ### LOOP, JUMP, END -/

/-- What the issue unit finds reserved in a LOOP, JUMP or END (R74, R78): an opcode of no class, a KIND of 0b101 to 0b111 or a RESERVED that
is not zero, and any other KIND but 0b000, since nothing is written (notes/assumptions/13). -/
def controlReserved (w : W128) : Bool :=
  reservedOpcode (opcodeOf w) || fusedKind (fusedOf w) != 0 || fusedReserved (fusedOf w) != 0

/-- Runs a control instruction of class `k`: OPCODE where its word is reserved, else its effect. -/
def State.control (s : State) (c k : Nat) (w : W128) (f : State → State) : State :=
  if !s.canIssue c w || !isClass k w then s
  else if controlReserved w then s.cellFault c fcOpcode (s.cell c).next
  else f s

/-- Goes on at word `n`. -/
def State.goTo (s : State) (c n : Nat) (loops : List (Nat × Nat)) : State :=
  (s.setCell c { s.cell c with loops := loops, next := n }).setFld Fld.CEL_STATE_STATE c csRunning

/-- LOOP (R64): stands after a body that begins at `target` and makes it run `count` times (notes/assumptions/13). -/
def execCellLoop (c : CellIx) (w : W128) (count target : Nat) (s : State) : Res :=
  .next (s.control c.val 3 w fun s =>
    let x := s.cell c.val
    let left := (Table.get x.loops x.next).getD count - 1
    if left = 0 then s.goTo c.val (x.next + 1) (Table.del x.loops x.next)
    else s.goTo c.val target (Table.put x.loops x.next left))

/-- JUMP (R64). -/
def execCellJump (c : CellIx) (w : W128) (target : Nat) (s : State) : Res :=
  .next (s.control c.val 4 w fun s => s.goTo c.val target (s.cell c.val).loops)

/-- END (R64): the cell's program ends; the cell is idle once its instructions have retired. -/
def execCellEnd (c : CellIx) (w : W128) (s : State) : Res :=
  .next (s.control c.val 5 w fun s =>
    let x := s.cell c.val
    (s.setCell c.val { x with ended := true, next := x.next + 1 }).setFld Fld.CEL_STATE_STATE c.val csIdle)

/-! ### The scratchpad's two sides -/

/-- The issue plan of a ROWOUT word. -/
def rowoutPlan (s : State) (c : Nat) (w : W128) : IssuePlan :=
  match (rowoutWord w).mode with
  | 0 => partialPlan s c w
  | 1 => finalPlan s c w true
  | 2 => finalPlan s c w false
  | _ => mergePlan s c w

/-- Whether nothing holds the next word back (R66): a range of its own, a mask tile, the grant stage, a count of its pair, or accesses
before a POST. The words of MMA, VOP and CVT do not show their operands: with a free entry in the scoreboard they count as ready
(notes/assumptions/38). -/
def State.wordReady (s : State) (c : Nat) (w : W128) : Bool :=
  let x := s.cell c
  let op := opcodeOf w
  if op = 0x20 then !x.conflicts (atsPlan s c w) && !atsWaits s c w
  else if op = 0x21 then !x.conflicts (atvPlan s c w)
  else if op = 0x22 then !x.conflicts (rowoutPlan s c w)
  else if op = 0x30 then !sfnWaits s c w && !x.conflicts (sfnPlan s c w)
  else if op = 0x40 then
    match x.armedPair (semWord w).pair with
    | none => true
    | some p => (semWord w).bad w || decide ((semWord w).count ≤ p.count (semWord w).empty)
  else if op = 0x41 then !s.accessesLeft c
  else true

/-- Whether the issue unit has an instruction ready (R66). -/
def State.issueReady (s : State) (c : Nat) : Bool :=
  let x := s.cell c
  x.task.isSome && !x.ended && !x.inReset && decide (x.inflight.length + x.drains.length < 8) &&
    (x.ibuf[x.next]?).any (s.wordReady c)

/-- Cycles for which the issue side has held the scratchpad (R66, R69): those of what it issued, empty slots included, or the local time
since it took it at two cycles to the ns (R28), whichever is more. -/
def State.heldCycles (s : State) (c : Nat) : Nat := max (s.cell c).held (2 * (s.clock - (s.cell c).since))

/-- The first `n` bytes of what a transfer brings, and the rest. -/
def takeLoad : Nat → List (Nat × List Byte) → List (Nat × List Byte) × List (Nat × List Byte)
  | _, [] => ([], [])
  | n, (o, bs) :: rest =>
    if bs.length ≤ n then
      let r := takeLoad (n - bs.length) rest
      ((o, bs) :: r.1, r.2)
    else ([(o, bs.take n)], (o + n, bs.drop n) :: rest)

/-- Moves one tile of the first transfer equal to `t` (R65). -/
def moveTile (t : Transfer) : List Transfer → List Transfer
  | [] => []
  | u :: us =>
    if u = t then
      (if t.bytes ≤ t.tile then us else { u with bytes := u.bytes - u.tile, load := (takeLoad u.tile u.load).2 } :: us)
    else u :: moveTile t us

/-- What a tile of a transfer carries (R17, R65): into the scratchpad for a chain or a fill, to the stream's engine for a drain. -/
def State.carryTile (s : State) (c : Nat) (t : Transfer) : State :=
  let s := (takeLoad t.tile t.load).1.foldl (fun s p => s.spadWrite c p.1 p.2) s
  match t.port, t.stream with
  | .drain, some i =>
    (match s.stream i with
      | some u =>
        if u.tile = t.tileNo then s.setStream i { u with cur := [(0, t.reads.flatMap fun r => s.spadBytes c r.lo r.len)] } else s
      | none => s)
  | _, _ => s

/-- The scratchpad after a transfer tile: back to issue if it has an instruction ready, else to the next requester (R66). -/
def State.handBack (s : State) (c : Nat) : State :=
  let x := (s.cell c).resumed
  let s := s.setCell c { x with held := 0, since := s.clock }
  let h := if s.issueReady c then 0 else s.nextHolder c
  let st := s.fld Fld.CEL_STATE_STATE c
  let s := s.setFld Fld.CEL_STATE_HOLDER c h
  if h ≠ 0 then (if st = csAborted ∨ st = csReset ∨ st = csOut then s else s.setFld Fld.CEL_STATE_STATE c csTransfer)
  else if st = csTransfer then s.setFld Fld.CEL_STATE_STATE c (if x.task.isSome && !x.ended then csRunning else csIdle)
  else s

/-- One tile of scrub on a scratchpad (R262). -/
def State.scrubTile (s : State) (c : Nat) : State :=
  s.setScrubber c { s.scrubber c with remain := (s.scrubber c).remain - 512 }

/-- The holder of the scratchpad moves one tile and hands back (R65, R66): a promoted scrub, a fill or a drain; a chain tile waits for
CHAIN_TILE, since it moves in every cell of the chain at once (R238). A holder whose transfer is gone hands back at once. -/
def State.moveHeld (s : State) (c : Nat) : State :=
  let h := s.fld Fld.CEL_STATE_HOLDER c
  if h = 4 then (if s.scrubUrgent c then s.scrubTile c else s).handBack c
  else
    match (s.cell c).transfers.find? fun t => t.port.holder == h && (s.cell c).mayMove t with
    | none => s.handBack c
    | some t =>
      if h = 1 then s
      else
        let u := s.carryTile c t
        (u.setCell c { u.cell c with transfers := moveTile t (u.cell c).transfers }).handBack c

/-- TRANSFER_TILE (R65, R66): the holder of the scratchpad moves one tile. While issue holds it and has nothing ready, issue yields to the
next requester, which then moves; background scrub takes a tile only when nothing is ready and no port waits (R262). -/
def execTransferTile (c : CellIx) (s : State) : Res :=
  if s.fld Fld.CEL_STATE_HOLDER c.val ≠ 0 then .next (s.moveHeld c.val)
  else if s.issueReady c.val && !(s.cell c.val).stopping then .next s
  else if s.nextHolder c.val = 0 then
    .next (if (s.scrubber c.val).running && decide (0 < (s.scrubber c.val).remain) && !s.scrubPaused then s.scrubTile c.val else s)
  else
    let t := s.yieldPad c.val
    .next (if t.fld Fld.CEL_STATE_HOLDER c.val = 0 then t else t.moveHeld c.val)

/-- QUANTUM_MET (R66 to R69): with a transfer waiting and QUANTUM cycles held (values below 256 act as 256), the issue side yields the
scratchpad. -/
def execQuantumMet (c : CellIx) (s : State) : Res :=
  let q := max 256 (s.fld Fld.CEL_ISSUE_QUANTUM_QUANTUM c.val)
  if s.nextHolder c.val = 0 ∨ s.fld Fld.CEL_STATE_HOLDER c.val ≠ 0 ∨ s.heldCycles c.val < q then .next s
  else .next (s.yieldPad c.val)

end Sys2Proof.Machine
end

