-- ==== Sys2Proof/Machine/Memory.lean ====
section
/-!
DEFINITION. The memory tiers (R249 to R268): interleaving, the error reports, the scrubbers and the segments of the cold-frame window.
-/

namespace Sys2Proof.Machine
open Sys2Proof

/-! ### Interleaving (R253) -/

/-- Channel of bonded DRAM that holds offset `o` of a region's range. -/
def dramChannel (o : Nat) : Nat := o / 256 % 64

/-- Stack that holds offset `o` of region `r`'s range. -/
def stackOf (r o : Nat) : Nat := 4 * r + o / 256 % 4

/-- Region that a failed stack takes out of service. -/
def regionOfStack (k : Nat) : Nat := k / 4

/-! ### Error reports (R260) -/

/-- The allocated frame that holds a local address: its first byte and its record (R145). -/
def State.frameAt (s : State) (a : Nat) : Option (Nat × Frame) :=
  s.frames.find? fun e => e.2.allocated && decide (e.1 ≤ a) && decide (a < e.1 + 4096 * 2 ^ e.2.order)

/-- Whether an address holds table or firmware-area state (R260). -/
def State.tableState (s : State) (a : Nat) : Bool :=
  inFirmware a || (match s.frameAt a with
    | some (_, f) => f.use == 2
    | none => false)

/-- ECC_REPORT (R260): the service pair looks up the oldest reported address; table or firmware-area state sets TABLE and requests
a region reset. -/
def execEccReport (s : State) : Res := s.byService <|
  match s.eccReports with
  | [] => .next s
  | a :: rest =>
    let s := { s with eccReports := rest }
    match tierOf a with
    | none => .next s
    | some (r, _, _) =>
      if s.tableState a then .next ((s.setBit Fld.MEM_ECC_INFO_TABLE r true).requestReset 3 0x05 r none)
      else .next s

/-! ### Scrub (R261 to R264) -/

/-- Region and tier of a scrubber. -/
def scrubTier (k : Nat) : Nat × Nat :=
  if k < 512 then (k / 128, 0) else if k < 544 then ((k - 512) / 8, 0) else if k < 548 then (k - 544, 1) else (k - 548, 2)

/-- Scrub interval in ticks (R261). -/
def scrubInterval (k : Nat) : Nat :=
  if k < 544 then 1000000000 else if k < 548 then 3600000000000 else 14400000000000

/-- Bytes of a pass (R261). -/
def scrubBytes (k : Nat) : Nat :=
  if k < 512 then spadSize else if k < 544 then blockSize else if k < 548 then 17179869184 else 206158430208

/-- End of the interval in which a pass began (R261). -/
def scrubEnd (k start : Nat) : Nat := (start / scrubInterval k + 1) * scrubInterval k

/-- The scrubbers that share MEM_SCRUB_STATUS of region `r` and tier `t`. -/
def scrubbersOf (r t : Nat) : List Nat :=
  if t = 0 then ((List.range 128).map fun i => 128 * r + i) ++ ((List.range 8).map fun i => 512 + 8 * r + i)
  else if t = 1 then [544 + r] else [548 + r]

/-- Whole percent of a pass. -/
def Scrubber.percent (k : Nat) (x : Scrubber) : Nat := (scrubBytes k - x.remain) * 100 / scrubBytes k

/-- Brings PROMOTED and PROGRESS (the least advanced pass that runs) up to date (R268). -/
def State.scrubStatus (s : State) (r t : Nat) : State :=
  let ks := (scrubbersOf r t).map fun k => (k, s.scrubber k)
  let i := 3 * r + t
  let s := s.setBit Fld.MEM_SCRUB_STATUS_PROMOTED i (ks.any fun e => e.2.running && e.2.promoted)
  s.setFld Fld.MEM_SCRUB_STATUS_PROGRESS i (((ks.filter fun e => e.2.running).map fun e => e.2.percent e.1).foldl min 100)

/-- SCRUB_PASS_START (R261): at a multiple of the interval, or at once where the last pass ran past its interval. -/
def execScrubPassStart (k : ScrubIx) (s : State) : Res :=
  let x := s.scrubber k.val
  if s.scrubPaused || x.running || (x.next == 0 && s.sundial % scrubInterval k.val != 0) then .next s
  else
    let s := s.setScrubber k.val ⟨s.sundial, scrubBytes k.val, false, true, 0⟩
    .next (s.scrubStatus (scrubTier k.val).1 (scrubTier k.val).2)

/-- Whether the interval of a pass is at risk (R262): 2 R / P ≥ E − now with P = 4 × bytes per interval. -/
def scrubAtRisk (k : Nat) (x : Scrubber) (now : Nat) : Bool :=
  decide ((scrubEnd k x.start - now) * (2 * scrubBytes k) ≤ x.remain * scrubInterval k)

/-- SCRUB_PROMOTE (R262). -/
def execScrubPromote (k : ScrubIx) (s : State) : Res :=
  let x := s.scrubber k.val
  if s.scrubPaused || !x.running || x.promoted || !scrubAtRisk k.val x s.sundial then .next s
  else
    let s := s.setScrubber k.val { x with promoted := true }
    .next (s.scrubStatus (scrubTier k.val).1 (scrubTier k.val).2)

/-- One error met by a pass (R258, R263): corrected errors are counted, uncorrectable ones poison a line of bonded DRAM or the
stacks, unless a write to the line was accepted between the scrub's read and its write-back, and are recorded with SCRUB set; no task
aborts. -/
def State.scrubFind (s : State) (e : ScrubFind) : State :=
  match tierOf e.addr with
  | none => s
  | some (r, t, _) =>
    if e.bad then
      let s := s.recordEcc e.addr 1 true
      if t = 0 || e.rewritten then s else s.setPoison e.addr true
    else s.countEcc r t

/-- Whether an address lies in the memory of scrubber `k`. -/
def scrubCovers (k a : Nat) : Bool :=
  match placeOf a with
  | .spad c _ => c == k
  | .block b _ => 512 + b == k
  | .dram r _ => 544 + r == k
  | .stack r _ => 548 + r == k
  | _ => false

/-- The next burst of a scrubber: 512 bytes of a block memory, 4 KiB of bonded DRAM and the stacks (R262). -/
def scrubBurst (k : Nat) : Nat := if k < 544 then 512 else 4096

/-- What a scrubber does at a tick (R261, R262): a pass that has run past its interval sets LATE; where nothing is commanded the memory is
free, and a running pass moves on by one burst (notes/assumptions/55). Scratchpads are scrubbed through their transfer side. -/
def State.scrubStep (s : State) (k : Nat) : State :=
  let x := s.scrubber k
  let (r, t) := scrubTier k
  let s := if x.running && decide (scrubEnd k x.start ≤ s.sundial) then s.setBit Fld.MEM_SCRUB_STATUS_LATE (3 * r + t) true else s
  if x.running && !s.scrubPaused && decide (512 ≤ k) && decide (0 < x.remain) then
    (s.setScrubber k { x with remain := x.remain - scrubBurst k }).scrubStatus r t
  else s

/-- Every scrubber at a tick. -/
def State.scrubTick (s : State) : State := (s.scrub.map (·.1)).foldl State.scrubStep s

/-- The tick at which a promoted scrubber must run on: D = E − R / P with P four times the bytes per interval (R262). -/
def scrubDry (k : Nat) (x : Scrubber) : Nat := scrubEnd k x.start - ceilDiv (x.remain * scrubInterval k) (4 * scrubBytes k)

/-- Whether a promoted scrub is due on the memory of scrubber `k`. -/
def State.scrubDue (s : State) (k : Nat) : Bool :=
  (s.scrubber k).running && (s.scrubber k).promoted && decide (0 < (s.scrubber k).remain) && !s.scrubPaused

/-- SCRUB_PASS_END (R261, R263): once every byte has been read, PASSES steps; a pass that ends after its interval sets LATE and the next
one is due at once. -/
def execScrubPassEnd (k : ScrubIx) (found : List ScrubFind) (s : State) : Res :=
  let x := s.scrubber k.val
  if s.scrubPaused || !x.running || x.remain != 0 then .next s
  else
    let (r, t) := scrubTier k.val
    let s := (found.filter fun e => scrubCovers k.val e.addr).foldl State.scrubFind s
    let late := decide (scrubEnd k.val x.start ≤ s.sundial)
    let s := s.setScrubber k.val ⟨x.start, 0, false, false, if late then 1 else 0⟩
    let s := s.stepFld Fld.MEM_SCRUB_STATUS_PASSES (3 * r + t)
    let s := if late then s.setBit Fld.MEM_SCRUB_STATUS_LATE (3 * r + t) true else s
    .next (s.scrubStatus r t)

/-! ### The cold-frame window (R256) -/

/-- Whether a segment lies in a plot's window; an invalid one belongs to none. -/
def State.segmentHeld (s : State) (j : Nat) : Bool :=
  s.bit Fld.MEM_COLD_SEG_VALID j && s.plots.any fun e => decide (e.2.coldFirst ≤ j) && decide (j < e.2.coldFirst + e.2.coldCount)

/-- MEM_COLD_SEG_WRITE (R256): only the host writes it, and only while the segment lies in no plot's window. -/
def execMemColdSegWrite (a : Agent) (j : SegIx) (v : W32) (s : State) : Res :=
  let ignored := s.logIgnored chipPlot 3 (Reg.MEM_COLD_SEG.offset + 4 * j.val)
  if a ≠ .pf0 ∨ s.privOk a = false then .next ignored
  else if s.segmentHeld j.val then .next ignored
  else .next (s.viaStore (s.setReg .MEM_COLD_SEG j.val v))

end Sys2Proof.Machine
end

