-- ==== Sys2Proof/Machine/Messages.lean ====
section
/-!
DEFINITION. Messages that leave the chip: coordinates (R295), routing (R303), requests with a reply due and the tag they carry
(R302, R403).
-/

namespace Sys2Proof.Machine
open Sys2Proof

/-- This chip's number, once its coordinates are known (R295, R308). -/
def State.chipNo (s : State) : Nat := s.fld Fld.LNK_COORD_CHIP 0

/-- Whether the chip has coordinates (R308). -/
def State.hasCoord (s : State) : Bool := s.fld Fld.LNK_COORD_SOURCE 0 != 0

/-- Whether a chip number of a fabric address names this chip (R255). -/
def State.isSelf (s : State) (chip : Nat) : Bool := chip == 0xFFFF || (s.hasCoord && chip == s.chipNo)

/-- Link states of R310. -/
def lsOff : Nat := 0
def lsTraining : Nat := 1
def lsDiscovery : Nat := 2
def lsUp : Nat := 3
def lsRetrain : Nat := 4
def lsFallow : Nat := 5

/-- Whether a link is UP (R310). -/
def State.linkUp (s : State) (l : Nat) : Bool := s.fld Fld.LNK_STATUS_STATE l == lsUp

/-- The rack link that a message of a SRC and a DEST takes (R303 item 3). -/
def State.rackLink (s : State) (src dest : Nat) : Option Nat :=
  match s.linkUp 2, s.linkUp 3 with
  | true, true => some (if (src + dest) % 2 = 0 then 2 else 3)
  | true, false => some 2
  | false, true => some 3
  | false, false => none

/-- The link a message to `dest` leaves by (R303); none when no route exists. -/
def State.route (s : State) (src dest : Nat) : Option Nat :=
  if !s.hasCoord then none
  else
    let me := s.chipNo
    let near := fun (step : Nat) => dest / 8 == me / 8 && dest % 8 == (me % 8 + step) % 8
    if src = me ∧ near 7 = true ∧ s.linkUp 0 = true then some 0
    else if src = me ∧ near 1 = true ∧ s.linkUp 1 = true then some 1
    else if dest / 128 = me / 128 then s.rackLink src dest
    else
      match [4, 5].find? fun l => s.linkUp l && s.fld Fld.LNK_PEER_CHIP l / 128 == dest / 128 with
      | some l => some l
      | none =>
        let g := Config.gateways (dest / 128)
        match g[dest % g.length]? with
        | some slot => if slot = me % 128 then none else s.rackLink src dest
        | none => none

/-- A message with its destination and channel; the other header fields zero. -/
def Msg.to (kind : MsgKind) (vc plot dest : Nat) : Msg :=
  ⟨kind, none, none, vc, plot, dest, 0, 0, 0, 0, 0, 0, [], 0xFFFF, false, false, 0, []⟩

/-- TYPE of the fabric message header (R302); none for what is no message of the fabric. -/
def MsgKind.typeCode : MsgKind → Option Nat
  | .write => some 0x01
  | .readRequest => some 0x02
  | .readReply => some 0x03
  | .collective | .queryPiece | .partialPiece | .ringBlock => some 0x04
  | .frost => some 0x06
  | .ready | .credit | .hostAlloc | .hostSeal | .hostQuery | .hostFree | .hostReply | .peerWalk | .walkDescriptor | .peerCommit
  | .commitPoint | .stepHeader | .batch | .batchResult => some 0x05
  | .sync | .discovery | .ack | .nak | .replay | .widthChange | .afithData | .afithAck | .afithOpen | .afithOpenAck | .afithReset
  | .neighbor => none

/-- The 64-byte header of a fabric message, big-endian (R302, R8). -/
def Msg.fabricHeader (m : Msg) : List Byte :=
  match m.kind.typeCode with
  | none => []
  | some t =>
    beBytes 1 t ++ beBytes 1 (m.phase.toNat + 2 * m.stale.toNat) ++ beBytes 1 m.vc ++ beBytes 1 m.plot ++ beBytes 2 m.dest ++
      beBytes 2 m.src ++ beBytes 4 m.len ++ beBytes 8 m.addr ++ beBytes 8 m.reply ++ beBytes 4 m.epoch ++ beBytes 2 m.gen ++
      beBytes 4 m.tag ++ beBytes 4 m.op ++ List.replicate 22 0

/-! ### Link outputs (R302, R305, R306) -/

/-- Whether a link is a rack link (R294). -/
def isRack (l : Nat) : Bool := l == 2 || l == 3

/-- Whether a link is a hall link (R294). -/
def isHall (l : Nat) : Bool := l == 4 || l == 5

def State.phy (s : State) (l : Nat) : LinkPhy := Sparse.get (fun l => LinkPhy.off (isRack l)) s.phys l

def State.setPhy (s : State) (l : Nat) (y : LinkPhy) : State :=
  { s with phys := Sparse.set (fun l => LinkPhy.off (isRack l)) s.phys l y }

/-- Flits of a message (R302). -/
def Msg.flits (m : Msg) : Nat := if m.data.length ≤ 192 then 1 else 1 + ceilDiv (m.data.length - 192) 256

/-- Credit class of a message's flits (R306). -/
def Msg.creditClass (m : Msg) : Nat := m.vc % 8 + (if m.phase then 8 else 0)

/-- Queue of a message: its channel, then its plot, 8 for the chip's own (R305). -/
def Msg.queueKey (m : Msg) : Nat := 16 * (m.vc % 8) + min m.plot 8

/-- Weight of a queue (R305): LNK_PLOT_WEIGHT of its plot on its channel; 1 for the chip's own messages. -/
def State.queueWeight (s : State) (k : Nat) : Nat :=
  if k % 16 = 8 then 1 else bitsAt (s.reg .LNK_PLOT_WEIGHT (k % 16)).toNat (4 * (k / 16 - 1)) 4

/-- Flits in flight: sent and not acknowledged. -/
def LinkPhy.inFlight (y : LinkPhy) : Nat := (y.tx + 2 ^ 24 - y.base) % 2 ^ 24

/-- Whether a message can leave: credits of its class or shared, and room in the retry buffer (R300, R306). -/
def LinkPhy.mayLeave (y : LinkPhy) (m : Msg) : Bool :=
  decide (m.flits ≤ y.held.getD m.creditClass 0 + y.held.getD 16 0) && decide (y.inFlight + m.flits ≤ 12288)

/-- The first message of a queue. -/
def LinkPhy.headOf (y : LinkPhy) (k : Nat) : Option Msg := y.queue.find? fun m => m.queueKey == k

/-- Takes the first message of a queue out. -/
def dropHead (k : Nat) : List Msg → List Msg
  | [] => []
  | m :: ms => if m.queueKey == k then ms else m :: dropHead k ms

def LinkPhy.deficitOf (y : LinkPhy) (k : Nat) : Nat := Sparse.get (fun _ => 0) y.deficit k

def LinkPhy.setDeficit (y : LinkPhy) (k n : Nat) : LinkPhy := { y with deficit := Sparse.set (fun _ => 0) y.deficit k n }

/-- Spends a message's credits: those of its class first, then shared ones. -/
def LinkPhy.spend (y : LinkPhy) (m : Msg) : LinkPhy :=
  let c := m.creditClass
  let own := min m.flits (y.held.getD c 0)
  let held := (y.held.set c (y.held.getD c 0 - own)).set 16 (y.held.getD 16 0 - (m.flits - own))
  { y with held := held }

/-- Puts the first message of a queue on the line: it takes credits, SEQs and a place in the retry buffer. -/
def LinkPhy.leave (y : LinkPhy) (k : Nat) (m : Msg) (tick : Nat) : LinkPhy :=
  let y := y.spend m
  let y := { y with
    ackTick := if y.inFlight = 0 then tick else y.ackTick
    tx := (y.tx + m.flits) % 2 ^ 24, queue := dropHead k y.queue }
  let y := y.setDeficit k (y.deficitOf k - m.flits)
  if (y.headOf k).isNone then y.setDeficit k 0 else y

/-- The next queue after `k` in ascending order, round the list. -/
def nextKey (l : List Nat) (k : Nat) : Nat := (l.find? fun x => decide (k < x)).getD (l.headD 0)

/-- Deficit round-robin (R305): rounds over the queues that can send, each gaining W × 64 flits, until one covers its message; the first
argument bounds the visits. -/
def State.drr (s : State) : Nat → LinkPhy → List Nat → Option (Nat × Msg × LinkPhy)
  | 0, _, _ => none
  | f + 1, y, keys =>
    match (if keys.contains y.turn then y.headOf y.turn else none) with
    | some m =>
      if m.flits ≤ y.deficitOf y.turn then some (y.turn, m, y)
      else
        let k := nextKey keys y.turn
        State.drr s f ({ y with turn := k }.setDeficit k (y.deficitOf k + 64 * s.queueWeight k)) keys
    | none =>
      let k := nextKey keys y.turn
      State.drr s f ({ y with turn := k }.setDeficit k (y.deficitOf k + 64 * s.queueWeight k)) keys

/-- The message a link output serves next (R305): channel 0 ahead of all; then the queues of non-zero weight in deficit round-robin; a
queue of weight 0 only when no other has flits. -/
def State.pickMsg (s : State) (y : LinkPhy) : Option (Nat × Msg × LinkPhy) :=
  let keys := (y.queue.map Msg.queueKey).eraseDups.mergeSort fun a b => decide (a ≤ b)
  let able := keys.filter fun k => match y.headOf k with
    | some m => y.mayLeave m
    | none => false
  match able.find? fun k => decide (k < 16) with
  | some k => (y.headOf k).map fun m => (k, m, y)
  | none =>
    let heavy := able.filter fun k => decide (0 < s.queueWeight k)
    if (keys.filter fun k => decide (16 ≤ k) && decide (0 < s.queueWeight k)).isEmpty then
      match able with
      | k :: _ => (y.headOf k).map fun m => (k, m, y)
      | [] => none
    else if heavy.isEmpty then none else s.drr 1024 y heavy

/-- Serves a link output while it is UP and a message can leave. -/
def State.pumpGo (l : Nat) : Nat → State → State
  | 0, s => s
  | f + 1, s =>
    match s.pickMsg (s.phy l) with
    | none => s
    | some (k, m, y) => State.pumpGo l f ({ s.setPhy l (y.leave k m s.clock) with out := s.out ++ [{ m with link := some l }] })

def State.pump (s : State) (l : Nat) : State :=
  if s.linkUp l then State.pumpGo l (s.phy l).queue.length s else s

/-- The data of a message as the fabric carries it (R302): at least 16 bytes and a multiple of 16, zeros behind what is sent
(notes/assumptions/26). -/
def padData (d : List Byte) : List Byte := d ++ List.replicate (max 16 (16 * ceilDiv d.length 16) - d.length) 0

/-- Hands a message to a link output, its header and data complete; a read request carries none. -/
def State.enqueue (s : State) (l : Nat) (m : Msg) : State :=
  let src := if m.src = 0xFFFF then s.chipNo else m.src
  let m := if m.kind = MsgKind.readRequest then { m with src := src }
    else { m with src := src, data := padData m.data, len := (padData m.data).length }
  let m := { m with head := m.fabricHeader }
  let y := s.phy l
  (s.setPhy l { y with queue := y.queue ++ [m] }).pump l

/-- Sends a message by its route (R303); it is not sent where no route exists. -/
def State.send (s : State) (m : Msg) : State :=
  match s.route s.chipNo m.dest with
  | some l => s.enqueue l m
  | none => s

/-- The most data bytes of a message (R302). -/
def messageBytes : Nat := 65536

/-- Sends a write as messages of at most 65,536 data bytes (R302). -/
def State.sendParts (s : State) (m : Msg) : State :=
  (List.range (ceilDiv m.data.length messageBytes)).foldl (fun s k =>
    s.send { m with addr := m.addr + messageBytes * k, data := (m.data.drop (messageBytes * k)).take messageBytes }) s

/-- The tag after a tag: 0 is given to no request (notes/assumptions/32). -/
def nextTag (n : Nat) : Nat := n % (2 ^ 32 - 1) + 1

/-- Sends a read request of at most 65,536 bytes for a requester (R302, R403): the tag it carries is entered, the reply is due. It leaves
on virtual channel 3, or 6 as background (R304). -/
def State.askBytes (s : State) (who : Requester) (plot gen chip a n : Nat) (sinks : List Nat) (epoch wepoch : Nat)
    (bg : Bool := false) : State :=
  let q : Request := ⟨s.msgTag, who, gen, chip, a, n, sinks, wepoch, s.clock⟩
  { s with msgTag := nextTag s.msgTag, reqs := s.reqs ++ [q] }.send { Msg.to .readRequest (if bg then 6 else 3) plot chip with
    addr := a, reply := sinks.headD 0, epoch := epoch, gen := gen, tag := q.tag, len := n }

/-- Asks for any number of bytes, in requests of at most 65,536. -/
def State.askParts (s : State) (who : Requester) (plot gen chip a n : Nat) (sinks : List Nat) (word : Bool)
    (epoch wepoch : Nat) (bg : Bool := false) : State :=
  (List.range (ceilDiv n messageBytes)).foldl (fun s k =>
    s.askBytes who plot gen chip (a + messageBytes * k) (min messageBytes (n - messageBytes * k))
      (sinks.map fun x => x + (if word then messageBytes / 4 * k else messageBytes * k)) epoch wepoch bg) s

/-- Sends a write to another chip for a requester, in messages of at most 65,536 bytes (R302): each carries a tag, and the target's answer
to it is due (R255; notes/assumptions/32). -/
def State.writeParts (s : State) (who : Requester) (m : Msg) : State :=
  (List.range (ceilDiv m.data.length messageBytes)).foldl (fun s k =>
    let part := (m.data.drop (messageBytes * k)).take messageBytes
    let q : Request := ⟨s.msgTag, who, m.gen, m.dest, m.addr + messageBytes * k, part.length, [], 0, s.clock⟩
    { s with msgTag := nextTag s.msgTag, reqs := s.reqs ++ [q] }.send { m with
      addr := m.addr + messageBytes * k, tag := q.tag, data := part }) s

/-- Sends a link-control flit by a given link: unsequenced, without credits (R299, R306). -/
def State.sendLink (s : State) (l : Nat) (m : Msg) : State := { s with out := s.out ++ [{ m with link := some l }] }

/-- Sends a datagram by a field port. -/
def State.sendPort (s : State) (q : Nat) (m : Msg) : State := { s with out := s.out ++ [{ m with port := some q }] }

/-- Passes a message for another chip on (R303): by its route, with PHASE set once it has crossed a hall link; a message that has crossed
one crosses no other. -/
def State.forward (s : State) (kind : MsgKind) (m : InMsg) : State :=
  let phase := m.phase || m.hall
  let out := { Msg.to kind m.vc m.plot m.dest with
    addr := m.addr, reply := m.reply, epoch := m.epoch, gen := m.gen, tag := m.tag, op := m.op, data := m.data, src := m.src,
    phase := phase, stale := m.stale, len := m.len }
  match s.route m.src m.dest with
  | some l => if phase && isHall l then s else s.enqueue l out
  | none => s

/-- What becomes of a message that arrived (R302, R303, R405): none is taken while the hub is held; one with a reserved TYPE or a reserved
byte not zero is dropped and logged; one for another chip is passed on; one for this chip takes its effect. -/
def State.arriving (s : State) (kind : MsgKind) (m : InMsg) (f : State → State) : State :=
  if s.hubHeld then s
  else if m.malformed then s.logEvent chipPlot 8 5 44 m.src
  else if s.isSelf m.dest then f s
  else s.forward kind m

/-- The tag of a region (R402). -/
def State.regionTag (s : State) (r : Nat) : Nat := s.fld Fld.RGN_GENERATION_TAG r

/-- The chip's tag (R402). -/
def State.chipTag (s : State) : Nat := s.fld Fld.HUB_GENERATION_TAG 0

/-- Counts a reply dropped under R403. -/
def State.countStale (s : State) : State := s.addSat Fld.SAFE_STALE_COUNT_COUNT 0 1

/-! ### Synchronisation of links (R273 to R276) -/

/-- Synchronisation states of R276. -/
def syDown : Nat := 0
def syResync : Nat := 1
def sySynced : Nat := 2
def sySuspect : Nat := 3
def syDormant : Nat := 4

/-- States of SDL_STATUS (R293). -/
def sdFree : Nat := 0
def sdJoining : Nat := 1
def sdSync : Nat := 2
def sdHoldover : Nat := 3

def State.link (s : State) (l : Nat) : LinkSync := Sparse.get (fun _ => LinkSync.empty) s.sync l

def State.setLink (s : State) (l : Nat) (x : LinkSync) : State :=
  { s with sync := Sparse.set (fun _ => LinkSync.empty) s.sync l x }

/-- The sundial with its sub-tick phase, in 1/64 tick (R269). -/
def State.time64 (s : State) : Nat := s.sundial * 64 + s.phase

/-- State of a link's synchronisation; a link that is not UP is DOWN (R276, R310). -/
def State.syncState (s : State) (l : Nat) : Nat := if s.linkUp l then s.fld Fld.SDL_LINK_SYNC_STATE l else syDown

/-- Whether this chip is the group root (R272). -/
def State.isRoot (s : State) : Bool := s.bit Fld.SDL_STATUS_ROOT 0

/-- W of R273 in 1/128 tick: 1,500 ticks and twice δ0. -/
def LinkSync.window (x : LinkSync) : Int := 1500 * 128 + 2 * x.delay0.getD x.trained

/-- GUARD in ticks; values below 4 act as 4 (R293). -/
def State.guard (s : State) : Nat := max 4 (s.fld Fld.SDL_STATUS_GUARD 0)

/-- Ticks since the last good exchange of a link, counted as they pass: a step of the counter is no passing of ticks
(notes/assumptions/10). -/
def State.sinceGood (s : State) (l : Nat) : Nat := s.clock - (s.link l).lastGood

/-- Whether U exceeds GUARD (R276): 4 + elapsed / 10,000 > GUARD. -/
def State.beyondGuard (s : State) (l : Nat) : Bool := decide ((s.guard - 4) * 10000 < s.sinceGood l)

/-- U in whole ticks as SDL_LINK_SYNC shows it (R293). -/
def State.uncertainty (s : State) (l : Nat) : Nat := min 0xFFFF (4 + s.sinceGood l / 10000)

/-- Whether a link carries scheduled traffic (R276). -/
def State.carriesScheduled (s : State) (l : Nat) : Bool :=
  s.syncState l == sySynced || (s.syncState l == sySuspect && !s.beyondGuard l)

end Sys2Proof.Machine
end

