-- ==== Sys2Proof/Machine/SeqShape.lean ====
section
/-!
DEFINITION. The shape of a sequence's pages, cuttings and seed tray: sizes and offsets that its record fixes (R129, R141, R145, R164).
-/

namespace Sys2Proof.Machine
open Sys2Proof

/-- Bytes of a frame of an order (R145). -/
def frameBytes (order : Nat) : Nat := 4096 * 2 ^ order

/-- The least order whose frame holds `n` bytes (R141). -/
def orderFor (n : Nat) : Nat := ((List.range 32).find? fun k => decide (n ≤ frameBytes k)).getD 32

def kSize (q : Seqn) : Nat := if q.kfmt = 2 then 2 else 1
def vSize (q : Seqn) : Nat := if q.vfmt = 2 ∨ q.vfmt = 3 then 2 else 1
def heads (q : Seqn) : Nat := 2 ^ q.hpg
def dims (q : Seqn) : Nat := 64 * 2 ^ q.dim
def npages (q : Seqn) : Nat := q.maxSlice / 2 ^ q.pglog
def pagePos (q : Seqn) : Nat := 2 ^ q.pglog
def vpages (q : Seqn) : Nat := q.layers * q.groups * npages q

/-- Virtual page number (R141). -/
def vpageOf (q : Seqn) (l g j : Nat) : Nat := (l * q.groups + g) * npages q + j

/-- Bytes of the key block of a page (R141). -/
def keyBlock (q : Seqn) : Nat := pagePos q * heads q * dims q * kSize q

/-- Bytes of a page (R141). -/
def pageBytes (q : Seqn) : Nat := pagePos q * heads q * dims q * (kSize q + vSize q)

/-- Offset of the key of position offset `i`, head `h`, in a block of `n` positions (R141). -/
def keyOff (q : Seqn) (n i h : Nat) : Nat := (h * n + i) * dims q * kSize q

/-- Offset of its value. -/
def valOff (q : Seqn) (n i h : Nat) : Nat := n * heads q * dims q * kSize q + (h * n + i) * dims q * vSize q

/-- Bytes of one key and of one value of a head. -/
def keyRun (q : Seqn) : Nat := dims q * kSize q
def valRun (q : Seqn) : Nat := dims q * vSize q

/-- Bytes of a cutting's row and frame at rank / 32 − 1 = `k` (R164). -/
def cutRow (k : Nat) : Nat := 33 * (k + 1)

def cutBytes (q : Seqn) (k : Nat) : Nat := pagePos q * cutRow k

/-- Bytes of one element of the tray's keys and values: the larger of the two formats (notes/assumptions/22). -/
def trayElem (q : Seqn) : Nat := max (kSize q) (vSize q)

/-- Bytes of a layer block of `n` nodes. -/
def layerBlock (q : Seqn) (n : Nat) : Nat := 2 * n * (heads q * q.groups) * dims q * trayElem q

/-- Offset of node `k`'s key in layer `l`, global head `h`, in layer blocks of `n` nodes. -/
def trayKey (q : Seqn) (n l k h : Nat) : Nat := l * layerBlock q n + (k * (heads q * q.groups) + h) * dims q * trayElem q

/-- Offset of its value. -/
def trayVal (q : Seqn) (n l k h : Nat) : Nat := trayKey q n l k h + layerBlock q n / 2

/-- Bytes of a seed tray. -/
def trayBytes (q : Seqn) : Nat := 4096 + q.layers * layerBlock q 16

end Sys2Proof.Machine
end

