-- ==== Sys2Proof/Machine/StreamCtx.lean ====
section
/-!
DEFINITION. Stream descriptors and address words (R225 to R228), the checks of arming (R227, R245), placement and arming, and the
dry tick (R241).
-/

namespace Sys2Proof.Machine
open Sys2Proof

/-! ### Address words (R228) -/

def aopEnd : Nat := 0x00
def aopLoop : Nat := 0x01
def aopNext : Nat := 0x02
def aopSeta : Nat := 0x03
def aopAdda : Nat := 0x04
def aopMove : Nat := 0x05
def aopZero : Nat := 0x06
def aopFlush : Nat := 0x07
def aopIdx : Nat := 0x08
def aopPage : Nat := 0x09
def aopTrail : Nat := 0x0A

/-- Operation code of an address word. -/
def aopOf (w : Nat) : Nat := bitsAt w 56 8

/-- Reserved encodings and fields out of range of a word in a program of a kind (R228). -/
def aopOk (kind w : Nat) : Bool :=
  let op := aopOf w
  let zero := fun (lo n : Nat) => bitsAt w lo n == 0
  if op = aopEnd ∨ op = aopNext ∨ op = aopFlush ∨ op = aopTrail then zero 0 56
  else if op = aopLoop then zero 33 23 && (!w.testBit 32 || zero 3 29)
  else if op = aopSeta then zero 51 5 && zero 40 4
  else if op = aopAdda then zero 51 5
  else if op = aopMove then
    zero 51 5 && zero 47 1 && zero 41 3 && zero 32 8 && (kind == 3 || zero 44 3) && decide (16 ≤ bitsAt w 0 32) &&
      decide (bitsAt w 0 32 ≤ 2 ^ 32 - 16)
  else if op = aopZero then
    zero 47 9 && zero 41 3 && zero 32 8 && (kind == 0 || kind == 2 || kind == 3) && (kind == 3 || (zero 44 3 && zero 40 1))
  else if op = aopIdx then zero 51 5 && zero 47 1 && zero 37 7 && zero 0 32
  else if op = aopPage then zero 51 5 && zero 0 48
  else false

/-- Nesting of LOOP and NEXT: pairs match and nest at most six deep (R227). -/
def loopsOk : List Nat → Nat → Bool
  | [], d => d == 0
  | w :: ws, d =>
    if aopOf w = aopLoop then decide (d < 6) && loopsOk ws (d + 1)
    else if aopOf w = aopNext then decide (0 < d) && loopsOk ws (d - 1)
    else loopsOk ws d

/-- Index of the NEXT that matches the LOOP before index `i`. -/
def matchingNext : List Nat → Nat → Nat → Nat
  | [], i, _ => i
  | w :: ws, i, d =>
    if aopOf w = aopLoop then matchingNext ws (i + 1) (d + 1)
    else if aopOf w = aopNext then (if d = 0 then i else matchingNext ws (i + 1) (d - 1))
    else matchingNext ws (i + 1) d

/-! ### Descriptors (R226) -/

/-- A stream descriptor's fields. -/
structure StreamDesc where
  kind : Nat
  sflags : Nat
  tileLog : Nat
  depth : Nat
  plen : Nat
  semPair : Nat
  firstCell : Nat
  cells : Nat
  indexSrc : Nat
  ring : Nat
  prog : Nat
  deadline : Nat
  period : Nat
  trailDest : Nat
  maskDest : Nat
  dcount : Nat
  rcount : Nat
  dtable : Nat
  rarm : Nat
  base : List Nat
  deriving DecidableEq, Repr

/-- Reads a descriptor at a local address. -/
def State.streamDesc (s : State) (a : Nat) : StreamDesc :=
  let f := fun (o n : Nat) => s.loadLe (a + o) n
  ⟨f 0x00 1, f 0x01 1, f 0x02 1, (if f 0x03 1 = 0 then 4 else f 0x03 1), f 0x04 1, f 0x05 1, f 0x06 2, f 0x08 2, f 0x0A 2,
    f 0x0C 4, f 0x10 8, f 0x18 8, f 0x20 4, f 0x24 4, f 0x28 4, f 0x2C 2, f 0x2E 2, f 0x30 8, f 0x38 8,
    (List.range 8).map fun i => f (0x40 + 8 * i) 8⟩

def StreamDesc.persistent (d : StreamDesc) : Bool := d.sflags.testBit 0
def StreamDesc.paged (d : StreamDesc) : Bool := d.sflags.testBit 1
def StreamDesc.broadcast (d : StreamDesc) : Bool := d.sflags.testBit 2
def StreamDesc.background (d : StreamDesc) : Bool := d.sflags.testBit 3
def StreamDesc.trailers (d : StreamDesc) : Bool := d.sflags.testBit 4

/-- Kinds that have tile rings in cells. -/
def StreamDesc.ringed (d : StreamDesc) : Bool := d.kind == 0 || d.kind == 1 || d.kind == 2

/-- The cells of the set. -/
def StreamDesc.cellSet (d : StreamDesc) : List Nat := (List.range d.cells).map (d.firstCell + ·)

/-- Field ranges of R226. -/
def StreamDesc.ok (d : StreamDesc) : Bool :=
  decide (d.kind ≤ 4) && decide (d.sflags < 32) &&
  (if d.ringed then decide (9 ≤ d.tileLog) && decide (d.tileLog ≤ 16)
   else if d.kind = 3 then decide (9 ≤ d.tileLog) && decide (d.tileLog ≤ 24)
   else decide (6 ≤ d.tileLog) && decide (d.tileLog ≤ 12)) &&
  decide (1 ≤ d.depth) && decide (d.depth ≤ 8) && decide (1 ≤ d.plen) && decide (d.plen ≤ 64) && decide (d.semPair < 32) &&
  (if d.ringed then decide (1 ≤ d.cells) && decide (d.cells ≤ 128)
   else if d.kind = 3 then decide (d.cells ≤ 16) else d.cells == 0) &&
  decide (d.firstCell + d.cells ≤ 512) && decide (d.firstCell < 512) &&
  (!d.ringed || d.ring % 64 == 0) && (!d.trailers || d.trailDest % 64 == 0) &&
  (!(d.persistent && d.paged) || decide (1 ≤ d.dcount)) &&
  (!d.persistent || (decide (1 ≤ d.rcount) && decide (d.rcount ≤ 1024)))

/-- A descriptor's program. -/
def State.streamProg (s : State) (d : StreamDesc) : List Nat := (List.range d.plen).map fun i => s.loadLe (d.prog + 8 * i) 8

/-- TRAIL words that a run of a program executes, loops counted with the bases given; `m` is the product of the open loops' counts. -/
def trailCount (base : List Nat) : List Nat → List Nat → Nat
  | [], _ => 0
  | w :: ws, m =>
    let now := m.headD 1
    if aopOf w = aopLoop then
      trailCount base ws (now * (if w.testBit 32 then base.getD (bitsAt w 0 3) 0 % 2 ^ 32 else bitsAt w 0 32) :: m)
    else if aopOf w = aopNext then trailCount base ws (m.drop 1)
    else (if aopOf w = aopTrail then now else 0) + trailCount base ws m

/-- Scratchpad ranges that a stream's ring and trailer area cover in each cell (R245). The descriptor gives the trailer area no size: it
is taken to hold the trailers of every TRAIL of a run, up to the end of the scratchpad (notes/assumptions/40). -/
def ringRanges (ring depth tileLog : Nat) (ringed : Bool) (trail : Option (Nat × Nat)) : List Range :=
  (if ringed then [⟨ring, depth * 2 ^ tileLog⟩] else []) ++ (match trail with
    | some (o, n) => [⟨o, min (512 * n) (spadSize - o)⟩]
    | none => [])

/-- Ranges of a stream with a context. -/
def Stream.ranges (t : Stream) : List Range :=
  ringRanges t.ring t.depth t.tileLog (decide (t.kind ≤ 2))
    (if t.sflags.testBit 4 then some (t.trailDest, trailCount t.base t.prog []) else none)

/-- Ranges of a descriptor with its program. -/
def StreamDesc.ranges (d : StreamDesc) (prog : List Nat) : List Range :=
  ringRanges d.ring d.depth d.tileLog d.ringed (if d.trailers then some (d.trailDest, trailCount d.base prog []) else none)

/-- Whether two ranges share a byte. -/
def Range.overlaps (a b : Range) : Bool :=
  decide (a.lo < b.lo + b.len) && decide (b.lo < a.lo + a.len) && a.len != 0 && b.len != 0

/-- The task that a new task of cell `c` queues behind (R245): of the accepted ones that use the cell, the one that starts last. -/
def State.taskAhead (s : State) (c : Nat) : Option (Nat × Task) :=
  (s.tasks.filter fun e => e.2.accepted && e.2.cells.contains c).foldl
    (fun b e => match b with
      | none => some e
      | some q => if q.2.start ≤ e.2.start then some e else b) none

/-- The streams of a task: armed, or still to be armed. -/
def State.streamsOf (s : State) (tid : Nat) (t : Task) : List Stream :=
  let live := (s.streams.filter fun e => e.2.task == tid).map (·.2)
  if live.isEmpty then t.ctx.map (·.2) else live

/-- Whether ranges in the cells given overlap the rings or trailer areas of the task that runs ahead in one of them (R245). -/
def State.ringsClash (s : State) (cells : List Nat) (mine : List Range) : Bool :=
  cells.any fun c =>
    match s.taskAhead c with
    | none => false
    | some (tid, t) => (s.streamsOf tid t).any fun u =>
        u.cellSet.contains c && u.ranges.any fun r => mine.any fun q => r.overlaps q

/-- Whether a semaphore pair is armed in any of the cells, for another than stream `own` (R227). -/
def State.pairTaken (s : State) (cells : List Nat) (pair : Nat) (own : Option Nat) : Bool :=
  cells.any fun c => match Table.get (s.cell c).pairs pair with
    | none => false
    | some q => own.all fun i => decide (q.owner ≠ .stream i)

/-- The checks of R227 on one descriptor and its program that need no other stream. -/
def State.streamOk (s : State) (p a : Nat) : Bool :=
  let d := s.streamDesc a
  let w := s.streamProg d
  s.ownsRange p a 128 && d.ok && s.ownsRange p d.prog (8 * d.plen) && w.all (aopOk d.kind) &&
  decide (aopOf (w.getLastD 1) = aopEnd) && (w.dropLast.all fun x => aopOf x != aopEnd) && loopsOk w 0 &&
  (d.cellSet.all fun c => decide (s.ownerOfCell c = some p)) &&
  (!d.ringed || (d.cellSet.all fun c => c / 128 == d.firstCell / 128)) &&
  (!d.ringed || decide (d.ring + d.depth * 2 ^ d.tileLog ≤ spadSize)) &&
  (!d.trailers || d.kind == 0) && !s.pairTaken d.cellSet d.semPair none &&
  (d.indexSrc != 0xFFFF || w.all fun x => aopOf x != aopIdx) && (d.paged || w.all fun x => aopOf x != aopPage) &&
  (d.trailers || w.all fun x => aopOf x != aopTrail) &&
  (!(d.paged && d.persistent) || s.ownsRange p d.dtable (64 * d.dcount)) &&
  (!d.persistent || s.ownsRange p d.rarm (64 * d.rcount)) && !s.ringsClash d.cellSet (d.ranges w)

/-! ### Placement (R227) -/

/-- The region whose engines a stream joins, where one is fixed. -/
def State.streamRegion (s : State) (d : StreamDesc) : Option Nat :=
  if 0 < d.cells then some (d.firstCell / 128)
  else
    let b := d.base.getD 1 0
    if s.isSelf (b / 2 ^ 48) then
      match placeOf (b % 2 ^ 48) with
      | .stack r _ => some r
      | .dram r _ => some r
      | _ => none
    else none

/-- Contexts that are armed, parked or reserved by an accepted task (R283). -/
def State.ctxTaken (s : State) (i : Nat) : Bool :=
  (s.stream i).isSome || s.tasks.any fun e => e.2.streams.contains i

/-- Out-of-service regions have no eligible engine (R24). -/
def State.regionOut (s : State) (r : Nat) : Bool := s.bit Fld.ADM_REGION_STATE_OUT_OF_SERVICE r

/-- Free contexts of an engine, beyond those already given to the list being placed. -/
def State.freeCtx (s : State) (given : List Nat) (e : Nat) : List Nat :=
  ((List.range 8).map (8 * e + ·)).filter fun i => !s.ctxTaken i && !given.contains i

/-- The first engine, in the regions allowed, with `n` free contexts: its free contexts. -/
def State.pickEngine (s : State) (given : List Nat) (region : Option Nat) (n : Nat) : Option (List Nat) :=
  let engines := match region with
    | some r => (List.range 16).map (16 * r + ·)
    | none => List.range 64
  ((engines.filter fun e => !s.regionOut (e / 16)).map (s.freeCtx given)).find? fun l => decide (n ≤ l.length)

/-- What placement needs of a stream of a list: place, kind, INDEXSRC, the region it is bound to, and the context that it keeps where it
is parked. -/
structure Placing where
  place : Nat
  kind : Nat
  src : Nat
  region : Option Nat
  kept : Option Nat
  deriving DecidableEq, Repr

/-- A stream and the INDEX streams that drive it, one through the other (R227); none where an INDEXSRC names no INDEX stream of the list
or names one twice. -/
def indexChain (all : List Placing) : Nat → Placing → List Nat → Option (List Placing)
  | 0, _, _ => none
  | f + 1, x, seen =>
    if x.src = 0xFFFF then some [x]
    else
      match all.find? fun y => y.place == x.src with
      | none => none
      | some y => if y.kind ≠ 4 ∨ seen.contains y.place = true then none
        else (indexChain all f y (y.place :: seen)).map (x :: ·)

/-- Gives each stream of a chain its context from those an engine has free. -/
def fillPlaces : List Placing → List Nat → List (Nat × Nat)
  | [], _ => []
  | x :: xs, free =>
    match x.kept, free with
    | some i, _ => (x.place, i) :: fillPlaces xs free
    | none, i :: rest => (x.place, i) :: fillPlaces xs rest
    | none, [] => fillPlaces xs []

/-- Contexts for one chain: all in one engine (R227), that of a stream of it which is parked where there is one. -/
def State.placeChain (s : State) (given : List Nat) (l : List Placing) : Option (List (Nat × Nat)) :=
  let n := (l.filter fun x => x.kept.isNone).length
  match l.filterMap (·.kept) with
  | i :: rest =>
    let free := s.freeCtx given (i / 8)
    if rest.all (fun j => j / 8 == i / 8) && decide (n ≤ free.length) then some (fillPlaces l free) else none
  | [] => (s.pickEngine given (l.head?.bind (·.region)) n).map (fillPlaces l)

/-- Places the streams of a list, each data stream with the INDEX streams that drive it: pairs of place and context. -/
def State.placeStreams (s : State) (all : List Placing) : List Placing → List (Nat × Nat) → Option (List (Nat × Nat))
  | [], acc => if all.all fun x => acc.any fun e => e.1 == x.place then some acc else none
  | x :: rest, acc =>
    if x.kind = 4 then State.placeStreams s all rest acc
    else
      match indexChain all (all.length + 1) x [] with
      | none => none
      | some l =>
        if l.any fun y => acc.any fun e => e.1 == y.place then none
        else
          match s.placeChain (acc.map (·.2)) l with
          | none => none
          | some q => State.placeStreams s all rest (acc ++ q)

/-- The context a descriptor gives, before its task arms it. -/
def Stream.ofDesc (p tid place addr : Nat) (d : StreamDesc) (prog : List Nat) (index : Option Nat) : Stream where
  plot := p
  task := tid
  place := place
  desc := addr
  kind := d.kind
  sflags := d.sflags
  tileLog := d.tileLog
  depth := d.depth
  semPair := d.semPair
  firstCell := d.firstCell
  cells := d.cells
  indexPlace := d.indexSrc
  indexSrc := index
  ring := d.ring
  prog := prog
  deadline := d.deadline
  deadline0 := d.deadline
  period := d.period
  trailDest := d.trailDest
  maskDest := d.maskDest
  dcount := d.dcount
  rcount := d.rcount
  dtable := d.dtable
  rarm := d.rarm
  base := d.base
  areg := List.replicate 8 0
  bind := []
  loops := []
  pc := 0
  moved := 0
  tile := 0
  fill := 0
  taken := false
  cur := []
  touched := []
  tiles := []
  dq := []
  dpos := 0
  walkDone := false
  xq := []
  trailN := []
  trailT := 0
  page := none
  run := 0
  running := false
  ended := false
  runEnd := 0
  acked := 0
  arming := 0
  armTick := 0
  promoted := false

/-- A parked persistent stream of the plot that a stream list names again (R239). -/
def State.parkedStream (s : State) (p a : Nat) : Option (Nat × Stream) :=
  s.streams.find? fun e => decide (e.2.plot = p) && decide (e.2.desc = a) && decide (e.2.task = 0) && e.2.sflags.testBit 0

/-- The checks of R227 and R245 that a parked stream named again still needs: its pair and its ring. -/
def State.parkedOk (s : State) (i : Nat) (t : Stream) : Bool :=
  !s.pairTaken t.cellSet t.semPair (some i) && !s.ringsClash t.cellSet t.ranges

/-- A place of a task's list with what placement needs of it. -/
def State.placing (s : State) (p : Nat) (e : Nat × Nat) : Placing :=
  match s.parkedStream p e.2 with
  | some (i, t) => ⟨e.1, t.kind, t.indexPlace, none, some i⟩
  | none => let d := s.streamDesc e.2; ⟨e.1, d.kind, d.indexSrc, s.streamRegion d, none⟩

/-- The stream of a place in a task's list, with its context: a parked one of the plot as it stands, any other from its descriptor;
INDEXSRC is resolved to a stream's number. -/
def State.listed (s : State) (p tid : Nat) (at' : List (Nat × Nat)) (e : Nat × Nat) (i : Nat) : Nat × Stream :=
  let index := fun (src : Nat) => if src = 0xFFFF then none else (at'.find? fun r => r.1 == src).map (·.2)
  match s.parkedStream p e.2 with
  | some (_, t) => (i, { t with task := tid, place := e.1, indexSrc := index t.indexPlace })
  | none =>
    let d := s.streamDesc e.2
    (i, Stream.ofDesc p tid e.1 e.2 d (s.streamProg d) (index d.indexSrc))

/-- The check of a task's stream list (R227, R245, R288): the contexts it needs, or none where the list fails. Parked streams of
the plot keep their contexts. -/
def State.checkStreams (s : State) (p tid : Nat) (list : List Nat) : Option (List (Nat × Stream)) :=
  let places := (List.range list.length).zip list
  let ok := fun (e : Nat × Nat) => match s.parkedStream p e.2 with
    | some (i, t) => s.parkedOk i t
    | none => s.streamOk p e.2
  let links : Nat × Nat → List (Nat × Nat) := fun e => match s.parkedStream p e.2 with
    | some (_, t) => t.cellSet.map fun c => (c, t.semPair)
    | none => let d := s.streamDesc e.2; d.cellSet.map fun c => (c, d.semPair)
  if !places.all ok || !decide (places.flatMap links).Nodup then none
  else
    let all := places.map (s.placing p)
    (s.placeStreams all all []).map fun at' =>
      places.filterMap fun e => (at'.find? fun q => q.1 == e.1).map fun q => s.listed p tid at' e q.2

/-! ### Arming (R226, R234, R239) -/

/-- Sets the pair of every link of a stream: FULL 0, EMPTY DEPTH (R234). -/
def State.armPairs (s : State) (i tid : Nat) (t : Stream) : State :=
  t.cellSet.foldl (fun s c =>
    let x := s.cell c
    s.setCell c { x with pairs := Table.put x.pairs t.semPair ⟨t.depth, 0, t.depth, .stream i, tid, none, none⟩ }) s

/-- Arms a context for a task: a persistent one waits for its first record, any other starts its run (R248). -/
def State.armStream (s : State) (tid i : Nat) (t : Stream) : State :=
  let t := { t with
    task := tid, arming := s.armSeq, armTick := s.sundial, run := 0, pc := 0, moved := 0, tile := 0, fill := 0, taken := false,
    cur := [], touched := [], tiles := [], loops := [], bind := [], dq := [], walkDone := false, xq := [], trailN := [], trailT := 0,
    page := none, dpos := 0, acked := 0,
    areg := List.replicate 8 0, running := !t.sflags.testBit 0, ended := false, runEnd := s.sundial, deadline := t.deadline0,
    promoted := false }
  let s := { s.setStream i t with armSeq := s.armSeq + 1 }
  let s := s.armPairs i tid t
  let s := s.setReg .STM_STREAM_STATE i
    (BitVec.ofNat 32 (t.plot * 2 ^ 29 + t.depth * 2 ^ 8 + ssArmed))
  (if t.running then s.stepFld Fld.STM_REARM_COUNT_RUNS i else s).engineStatus (i / 8)

/-- Releases a context and its pairs (R239, R247). -/
def State.releaseStream (s : State) (i : Nat) : State :=
  match s.stream i with
  | none => s
  | some t =>
    let s := s.dropLinks i t
    let s := { s with streams := Table.del s.streams i }
    (s.setReg .STM_STREAM_STATE i 0).engineStatus (i / 8)

/-! ### Dry ticks and classes (R241 to R244) -/

/-- The dry tick of one link (R241): the tick at which the waiting side became blocked, DEADLINE with PERIOD 0, else
T + (F + 1) × PERIOD. -/
def Stream.linkDry (t : Stream) (q : SemPair) : Nat :=
  match q.blocked with
  | some b => b
  | none =>
    if t.period = 0 then t.deadline
    else (q.lastTake.getD t.armTick) + ((if t.kind = 1 then q.empty else q.full) + 1) * t.period

/-- The dry tick of a stream (R241, R243): the smallest over its links; an index stream has its data stream's. -/
def State.dryTick (s : State) (i : Nat) : Nat :=
  match s.stream i with
  | none => 0
  | some t =>
    let t := if t.kind = 4 then ((s.streams.find? fun e => decide (e.2.indexSrc = some i)).map (·.2)).getD t else t
    if t.sflags.testBit 3 && t.promoted then t.deadline
    else
      let links := t.cellSet.filterMap fun c => Table.get (s.cell c).pairs t.semPair
      match links with
      | [] => t.deadline
      | q :: qs => (qs.map t.linkDry).foldl min (t.linkDry q)

/-- Bytes of a resource that a task has used in the present slot (R244). -/
def Task.usedOf (t : Task) (k : Nat) : Nat := t.used.getD k 0

/-- How many of `n` bytes, in requests of 256, lie within the claim of a task on resource `k` in the present slot (R244). -/
def State.claimed (s : State) (tid k n : Nat) : Nat :=
  match s.task tid with
  | none => n
  | some t =>
    let room := 256 * t.claim.getD k 0 - t.usedOf k
    if n ≤ room then n else room / 256 * 256

/-- Meters bytes of a task against resource `k`; answers how many of them lie within the claim (R244). -/
def State.meter (s : State) (tid k n : Nat) : Nat × State :=
  match s.task tid with
  | none => (n, s)
  | some t =>
    let used := (List.range 25).map fun j => if j = k then t.usedOf k + n else t.usedOf j
    (s.claimed tid k n, s.setTask tid { t with used := used })

/-- Whether a stream travels as background traffic (R243, R244, R286). -/
def State.isBackground (s : State) (t : Stream) (extra : Bool) : Bool :=
  extra || (t.sflags.testBit 3 && !t.promoted) ||
    (match s.task t.task with
      | some k => k.started.isNone
      | none => false)

end Sys2Proof.Machine
end

