-- ==== Sys2Proof/Machine/Streams.lean ====
section
/-!
DEFINITION. The address instructions of a running stream and the life of its tiles (R228 to R240, R243, R246): each command
evaluates the instruction that the stream's program counter names.
-/

namespace Sys2Proof.Machine
open Sys2Proof

/-! ### The instruction at hand -/

/-- The stream and its current word, when the stream runs and the word has operation code `op`. -/
def State.atWord (s : State) (i op : Nat) : Option (Stream × Nat) :=
  match s.stream i with
  | none => none
  | some t =>
    if !t.running || t.ended then none
    else
      match t.prog[t.pc]? with
      | none => none
      | some w => if aopOf w = op then some (t, w) else none

/-- Stores a stream and shows its instruction and state (R248). -/
def State.putStream (s : State) (i : Nat) (t : Stream) (st : Nat) : State :=
  ((s.setStream i t).setFld Fld.STM_STREAM_STATE_INSTR i t.pc).setFld Fld.STM_STREAM_STATE_STATE i st

/-- Advances to the next instruction. -/
def State.nextWord (s : State) (i : Nat) (t : Stream) : State := s.putStream i { t with pc := t.pc + 1, moved := 0 } ssRunning

/-! ### Address registers (R228 to R230) -/

/-- The null address (R228). -/
def nullAddr : Nat := 2 ^ 64 - 1

/-- Adds to the low 48 bits of an address, the chip field kept; the null address stays null (R229). -/
def addrAdd (a : Nat) (d : Int) : Nat :=
  if a = nullAddr then a else a / 2 ^ 48 * 2 ^ 48 + (((a % 2 ^ 48 : Nat) + d) % 2 ^ 48).toNat

def Stream.reg (t : Stream) (a : Nat) : Nat := t.areg.getD a 0

def Stream.setAddr (t : Stream) (a v : Nat) : Stream := { t with areg := t.areg.set a v }

/-- Binds or unbinds an address register (R230). -/
def Stream.setBind (t : Stream) (a : Nat) (b : Option PageBind) : Stream :=
  { t with bind := match b with
    | some x => Table.put t.bind a x
    | none => Table.del t.bind a }

/-- Fields of a page descriptor held as a 512-bit number (R151). -/
def pdAddr (d : Nat) : Nat := bitsAt d 0 48
def pdChip (d : Nat) : Nat := bitsAt d 48 16
def pdEpoch (d : Nat) : Nat := bitsAt d 64 32
def pdFirstPos (d : Nat) : Nat := bitsAt d 96 32
def pdSeq (d : Nat) : Nat := bitsAt d 128 16
def pdTier (d : Nat) : Nat := bitsAt d (0x15 * 8) 3
def pdKind (d : Nat) : Nat := bitsAt d (0x15 * 8 + 4) 3
def pdPlot (d : Nat) : Nat := bitsAt d (0x17 * 8) 3
def pdXindex (d : Nat) : Nat := bitsAt d (0x1C * 8) 16
def pdXcount (d : Nat) : Nat := bitsAt d (0x1E * 8) 16
def pdRowMask (d : Nat) : Nat := bitsAt d (0x20 * 8) 64
def pdPosArray (d : Nat) : Nat := bitsAt d (0x28 * 8) 64

/-- Descriptors that a PAGE refuses (R232): foreign, of a reserved KIND, or with other reserved bits set. -/
def pdBad (plot d : Nat) : Bool :=
  pdPlot d != plot || decide (5 ≤ pdKind d) || bitsAt d (0x15 * 8 + 7) 1 != 0 || bitsAt d (0x17 * 8 + 3) 5 != 0 ||
    bitsAt d (0x3C * 8) 32 != 0

/-- The fabric address a descriptor names: on this chip unless the page is on a peer or the tray on the lead (R151). -/
def pdFabric (d : Nat) : Nat :=
  (if pdTier d = 2 ∨ pdKind d = 3 then pdChip d else 0xFFFF) * 2 ^ 48 + pdAddr d

/-! ### What an access reaches -/

/-- What `n` bytes at a register's address are. -/
inductive Reach where
  | null
  | here (a : Nat)
  | peer (chip a : Nat)
  | fault (code detail : Nat)
  deriving DecidableEq, Repr

/-- DETAIL of an address (R248). -/
def detailOf (a : Nat) : Nat := a / 16 % 65536

/-- The first 16-byte unit of a range that a plot does not own. -/
def State.firstForeign (s : State) (p a n : Nat) : Nat :=
  ((List.range (ceilDiv n 16)).find? fun i => !s.ownsByte p (a + 16 * i)).elim a fun i => a + 16 * i

/-- The frame's range of R230: the fault of bytes beyond it. -/
def frameBounds (b : PageBind) (a n : Nat) : Option (Nat × Nat) :=
  if b.size ≠ 0 ∧ (a < b.base ∨ b.base + b.size < a + n) then
    some (0x1, detailOf (if a < b.base then a else max a (b.base + b.size)))
  else none

/-- The checks of R230 and R232 on a local access through a binding: the frame's range, then its record against the
descriptor's EPOCH and PLOT (a seed tray: its owner only). -/
def State.frameCheck (s : State) (t : Stream) (b : PageBind) (a n : Nat) : Option (Nat × Nat) :=
  match frameBounds b a n with
  | some q => some q
  | none =>
    match Table.get s.frames b.base with
    | none => some (0x3, detailOf a)
    | some f =>
      let owner := f.owner == t.plot
      let fresh := if pdKind b.desc = 3 then f.use == 5 else f.epoch == pdEpoch b.desc
      if f.allocated && owner && fresh then none else some (0x3, detailOf a)

/-- Resolves `n` bytes at address value `v` held in register `r` (R228, R230, R255). -/
def State.reach (s : State) (t : Stream) (r v n : Nat) : Reach :=
  if v = nullAddr then .null
  else
    let chip := v / 2 ^ 48
    let a := v % 2 ^ 48
    let bound := Table.get t.bind r
    if s.isSelf chip then
      match bound.bind fun b => s.frameCheck t b a n with
      | some (c, d) => .fault c d
      | none => if s.ownsRange t.plot a n then .here a else .fault 0x1 (detailOf (s.firstForeign t.plot a n))
    else if 8192 ≤ chip then .fault 0x1 (detailOf a)
    else
      match bound.bind fun b => frameBounds b a n with
      | some (c, d) => .fault c d
      | none => .peer chip a

/-- Whether a local write may not enter a seed tray (R132, R230): the layer blocks of a tray that is not FILLING, and the header, which
only the manager's commands change (notes/assumptions/40). -/
def State.trayShut (s : State) (a n : Nat) : Bool :=
  s.frames.any fun e => e.2.allocated && e.2.use == 5 && decide (e.1 < a + n) && decide (a < e.1 + 4096 * 2 ^ e.2.order) &&
    (decide (a < e.1 + 0x1000) || s.byteAt e.1 != 1)

/-! ### Tiles (R229, R234, R237) -/

/-- Bytes of a full tile. -/
def Stream.tileBytes (t : Stream) : Nat := 2 ^ t.tileLog

/-- The counts the stream takes from: EMPTY where it produces, FULL for a DRAIN. -/
def Stream.available (t : Stream) (q : SemPair) : Bool := if t.kind = 1 then decide (0 < q.full) else decide (0 < q.empty)

/-- Takes one count on a link. -/
def Stream.takeOne (t : Stream) (q : SemPair) : SemPair :=
  if t.kind = 1 then { q with full := q.full - 1 } else { q with empty := q.empty - 1 }

/-- Gives one count on a link: FULL where the stream produces, EMPTY for a DRAIN. -/
def Stream.giveOne (t : Stream) (q : SemPair) : SemPair :=
  if t.kind = 1 then { q with empty := q.empty + 1 } else { q with full := q.full + 1 }

/-- The link's pair in a cell. -/
def State.linkPair (s : State) (i : Nat) (t : Stream) (c : Nat) : Option SemPair :=
  match Table.get (s.cell c).pairs t.semPair with
  | some q => if q.owner = .stream i then some q else none
  | none => none

/-- Changes the link's pair in a cell. -/
def State.mapPair (s : State) (i : Nat) (t : Stream) (f : SemPair → SemPair) (c : Nat) : State :=
  match s.linkPair i t c with
  | none => s
  | some q => s.setCell c { s.cell c with pairs := Table.put (s.cell c).pairs t.semPair (f q) }

/-- Room in the index queue of the data stream for one more tile (R231): it holds DEPTH tiles. -/
def State.indexRoom (s : State) (i : Nat) (t : Stream) : Bool :=
  let held := match s.streams.find? fun e => decide (e.2.indexSrc = some i) with
    | some (_, d) => 4 * d.xq.length
    | none => 0
  decide (held + 4 * t.xq.length + t.tileBytes ≤ t.depth * t.tileBytes)

/-- Whether the stream may open its current tile: one count on every link of the tile at once, or room for one more tile in
flight or in the index queue (R234, R237, R238). -/
def State.mayTake (s : State) (i : Nat) (t : Stream) : Bool :=
  if t.kind = 4 then s.indexRoom i t
  else if t.cells = 0 then decide (t.tiles.length < t.depth)
  else (t.tileCells t.tile).all fun c => match s.linkPair i t c with
    | some q => t.available q
    | none => false

/-- A transfer joins the queue of its port in a cell (R65). -/
def State.postTransfer (s : State) (c : Nat) (q : Transfer) : State :=
  s.setCell c { s.cell c with transfers := (s.cell c).transfers ++ [q] }

/-- Takes the counts of the current tile; a DRAIN's tile goes through the cell's drain port (R65). -/
def State.takeTile (s : State) (i : Nat) (t : Stream) : State :=
  if t.kind = 4 ∨ t.cells = 0 then s
  else
    let s := (t.tileCells t.tile).foldl (State.mapPair · i t t.takeOne) s
    if t.kind = 1 then
      (t.tileCells t.tile).foldl (fun s c => s.postTransfer c
        { port := .drain, bytes := t.tileBytes, tile := t.tileBytes, stream := some i, tileNo := t.tile,
          reads := [⟨t.slotOff t.tile, t.tileBytes⟩] }) s
    else s

/-- Whether an answer from another chip is still due for tile `k` of a stream. -/
def State.tileAwaits (s : State) (i arming k : Nat) : Bool :=
  s.reqs.any fun q => match q.who with
    | .stream j a n _ _ => j == i && a == arming && n == k
    | _ => false

/-- The transfers of a closed tile of a GATHER or CHAIN join the cells' fill or chain ports once every byte of it is at the engine (R17,
R65, R229). -/
def State.sendTile (s : State) (i : Nat) (t : Stream) (u : OpenTile) : State × OpenTile :=
  if u.sent || s.tileAwaits i t.arming u.number then (s, u)
  else
    let s := if t.kind = 0 ∨ t.kind = 2 then
        u.cells.foldl (fun s c => s.postTransfer c
          { port := if t.kind = 2 then .chain else .fill, bytes := u.bytes, tile := t.tileBytes, stream := some i, tileNo := u.number,
            load := u.data.map fun p => (t.slotOff u.number + p.1, p.2) }) s
      else s
    (s, { u with sent := true, data := [] })

/-- Closes the current tile (R229): its bytes leave for the cells' fill or chain ports, and it is in flight until every byte has
landed. -/
def State.closeTile (s : State) (i : Nat) (t : Stream) : State × Stream :=
  if !t.taken then (s, t)
  else
    let (s, u) := s.sendTile i t ⟨t.tile, t.fill, t.tileCells t.tile, false, t.cur⟩
    (s, { t with tiles := t.tiles ++ [u], tile := t.tile + 1, fill := 0, taken := false, cur := [] })

/-! ### Moving bytes -/

/-- Words of an index tile. -/
def wordsOf : Nat → List Byte → List Nat
  | 0, _ => []
  | n + 1, bs => leNat (bs.take 4) :: wordsOf n (bs.drop 4)

/-- Resource number of a local address in a claim (R282): bonded DRAM 0 to 3, stacks 4 to 7, host interface 16. -/
def resourceOf (a : Nat) : Option Nat :=
  match placeOf a with
  | .dram r _ => some r
  | .stack r _ => some (4 + r)
  | .cold _ _ => some 16
  | _ => none

/-- The resource that an access draws on. -/
def State.reachResource (s : State) (r : Reach) : Option Nat :=
  match r with
  | .here a => resourceOf a
  | .peer chip _ => (s.route s.chipNo chip).map (8 + ·)
  | _ => none

/-- Meters bytes at a place; answers how many lie within the claim (R244). -/
def State.meterAt (s : State) (t : Stream) (r : Reach) (n : Nat) : Nat × State :=
  match s.reachResource r with
  | some k => s.meter t.task k n
  | none => (n, s)

/-- What one part of a move came to: done, or a fault of the stream with its detail. -/
inductive Moved where
  | ok (s : State)
  | fault (s : State) (code detail : Nat)

/-- The region of a stream's engine. -/
def streamRegionOf (i : Nat) : Nat := i / 128

/-- The page epoch that a request through register `r` carries (R232). -/
def Stream.epochOf (t : Stream) (r : Nat) : Nat :=
  match Table.get t.bind r with
  | some b => pdEpoch b.desc
  | none => 0

/-- Who waits for the answer to a request of a stream. -/
def Stream.asks (t : Stream) (i : Nat) (part : ReqPart) : Requester := .stream i t.arming t.tile t.pc part

/-- Sends a write to another chip (R302): virtual channel 5, or 6 as background (R304); its answer is due (R255). -/
def State.sendWrite (s : State) (i : Nat) (t : Stream) (r chip a : Nat) (bg : Bool) (bs : List Byte) : State :=
  s.writeParts (t.asks i .write) { Msg.to .write (if bg then 6 else 5) t.plot chip with
    addr := a, epoch := t.epochOf r, gen := s.regionTag (streamRegionOf i), data := bs }

/-- Asks another chip for bytes (R302, R403); the reply is due. -/
def State.sendRead (s : State) (i : Nat) (t : Stream) (r rd chip a n : Nat) (sinks : List Nat) (bg : Bool) : State :=
  s.askParts (t.asks i (if t.kind = 4 then .index else .data)) t.plot (s.regionTag (streamRegionOf i)) chip a n sinks
    (decide (t.kind = 4)) (t.epochOf r) (if t.kind = 3 then t.epochOf rd else 0) bg

/-- Notes a local range that a tile has written outside its ring, until it is acknowledged (R247). -/
def State.touch (s : State) (i k a n : Nat) : State :=
  match s.stream i with
  | some u => if u.touched.contains (k, a, n) then s else s.setStream i { u with touched := u.touched ++ [(k, a, n)] }
  | none => s

/-- Puts bytes into the engine's copy of the current tile, at an offset of the tile. -/
def State.fillCur (s : State) (i o : Nat) (bs : List Byte) : State :=
  match s.stream i with
  | some u => s.setStream i { u with cur := u.cur ++ [(o, bs)] }
  | none => s

/-- Delivers bytes of the source into the current tile, or to the destination of a COPY or DRAIN; `m` of them travel as deadline traffic
(R244). A write into a seed tray that is shut is dropped and faults (R132). -/
def State.landBytes (s : State) (i : Nat) (t : Stream) (d : Nat) (dst : Reach) (m : Nat) (bs : List Byte) : Moved :=
  if t.kind = 3 ∨ t.kind = 1 then
    match dst with
    | .here a =>
      if s.trayShut a bs.length then .fault s 0x9 0
      else
        match s.storeBytes a bs with
        | (s, some line) => .fault ((s.recordEcc line 3 false).touch i t.tile a bs.length) 0x4 (detailOf line)
        | (s, none) => .ok (s.touch i t.tile a bs.length)
    | .peer chip a =>
      if (s.route s.chipNo chip).isNone then .fault s 0x5 0
      else
        let s := if m = 0 then s else s.sendWrite i t d chip a false (bs.take m)
        .ok (if bs.length ≤ m then s else s.sendWrite i t d chip (a + m) true (bs.drop m))
    | _ => .ok s
  else if t.kind = 4 then
    match s.stream i with
    | some u => .ok (s.setStream i { u with xq := u.xq ++ wordsOf (bs.length / 4) bs })
    | none => .ok s
  else .ok (s.fillCur i t.fill bs)

/-- Where the data of a remote read goes: for a COPY fabric addresses, for an index stream the number of its first word, else the offset
in the tile. -/
def State.readSinks (s : State) (i : Nat) (t : Stream) (dst : Reach) : List Nat :=
  if t.kind = 3 then
    match dst with
    | .here a => [0xFFFF * 2 ^ 48 + a]
    | .peer chip a => [chip * 2 ^ 48 + a]
    | _ => []
  else if t.kind = 4 then
    match s.stream i with
    | some u => [u.acked + u.xq.length]
    | none => []
  else [t.fill]

/-- An uncorrectable error met by a read (R22, R246, R259): the record, the poison pattern, the reset that SRAM asks for. -/
def State.readError (s : State) (a kind : Nat) (ended : List (Nat × Task) := []) : State :=
  let s := s.recordEcc a kind false
  match placeOf a with
  | .spad c _ => s.requestReset 1 0x02 c (some c) ended
  | .block b _ => s.requestReset 2 0x03 b none ended
  | .dram _ _ | .stack _ _ => s.setPoison a true
  | _ => s

/-- Counts `n` corrected errors of the memory of an address (R258). -/
def State.countEccAt (s : State) (a n : Nat) : State :=
  match tierOf a with
  | some (r, k, _) => if n = 0 then s else s.addSat Fld.MEM_ECC_COUNT_COUNT (3 * r + k) n
  | none => s

/-- A write one line of which meets an uncorrectable error in its read-modify-write (R259): the error is recorded and the line poisoned,
its bytes are dropped, and those on every other line are written. A line that is written whole needs no read. -/
def State.storeBad (s : State) (a line : Nat) (bs : List Byte) : State :=
  let s := (s.recordEcc line 1 false).setPoison line true
  let s := if a < line then (s.storeBytes a (bs.take (line - a))).1 else s
  (s.storeBytes (line + 64) (bs.drop (line + 64 - a))).1

/-- Whether a write of `n` bytes at `a` covers a line only in part. -/
def partOfLine (a n line : Nat) : Bool :=
  decide (a < line + 64) && decide (line < a + n) && (decide (line < a) || decide (a + n < line + 64))

/-- Whether an access is one of bonded DRAM or the stacks, whose writes of less than a line read first (R251). -/
def lineMemory (a : Nat) : Bool :=
  match placeOf a with
  | .dram _ _ | .stack _ _ => true
  | _ => false

/-- The bytes of a local source: a DRAIN's are those that have passed its cell's port (R65). -/
def State.sourceOf (s : State) (t : Stream) (a n : Nat) : List Byte :=
  if t.kind = 1 then (((t.cur.headD (0, [])).2).drop t.fill).take n else s.loadBytes a n

/-- Moves `n` bytes of one tile: source `src` through register `rs`, for a COPY or DRAIN destination `dst` through register `rd`; `done`
bytes of the move lie before them. -/
def State.movePart (s : State) (i : Nat) (t : Stream) (rs rd : Nat) (src dst : Reach) (n done : Nat) (e : MoveEvent) : Moved :=
  let (m1, s) := s.meterAt t src n
  let (m2, s) := s.meterAt t dst n
  let m := if s.isBackground t false then 0 else min m1 m2
  match src with
  | .null => s.landBytes i t rd dst m (List.replicate n 0)
  | .fault c d => .fault s c d
  | .here a =>
    let bs := s.sourceOf t a n
    match (if t.kind = 1 then none else s.firstPoison a n) with
    | some line => .fault (s.recordEcc line 2 false) 0x4 (detailOf (max a line))
    | none =>
      match e with
      | .uncorrectable o =>
        if done ≤ o ∧ o < done + n then .fault (s.readError (a + (o - done)) 1 (s.taskPair t.task)) 0x4 (detailOf (a + (o - done)))
        else s.landBytes i t rd dst m bs
      | .hostError =>
        match placeOf a with
        | .cold _ _ => .fault s 0x5 0
        | _ => s.landBytes i t rd dst m bs
      | .corrected k l =>
        let s := if done = 0 then s.countEccAt a k else s
        let s := match dst with
          | .here b => if done = 0 then s.countEccAt b l else s
          | _ => s
        s.landBytes i t rd dst m bs
      | .rmw o =>
        match dst with
        | .here b =>
          let line := (b + (o - done)) / 64 * 64
          if done ≤ o ∧ o < done + n ∧ partOfLine b n line = true ∧ lineMemory b = true ∧ s.trayShut b n = false then
            .fault ((s.storeBad b line bs).touch i t.tile b n) 0x4 (detailOf line)
          else s.landBytes i t rd dst m bs
        | _ => s.landBytes i t rd dst m bs
      | .clean => s.landBytes i t rd dst m bs
  | .peer chip a =>
    if (s.route s.chipNo chip).isNone then .fault s 0x5 0
    else
      let sinks := s.readSinks i t dst
      let s := if m = 0 then s else s.sendRead i t rs rd chip a m sinks false
      let s := if n ≤ m then s
        else s.sendRead i t rs rd chip (a + m) (n - m) (sinks.map fun x => x + (if t.kind = 4 then m / 4 else m)) true
      if t.kind = 4 then
        match s.stream i with
        | some u => .ok (s.setStream i { u with xq := u.xq ++ List.replicate (n / 4) 0 })
        | none => .ok s
      else .ok s

/-- Whether a cell of a chain is under reset or out of service (R238). -/
def State.chainBroken (s : State) (t : Stream) : Bool :=
  t.kind == 2 && (t.tileCells t.tile).any fun c => (s.cell c).inReset || s.regionOut (c / 128) ||
    s.fld Fld.CEL_STATE_STATE c == csOut || (s.block (blockOfCell c)).outOfService

/-- Whether a stream's traffic is scheduled (R279): its task starts at its tick only, or the run's re-arm record gives a START. -/
def State.scheduled (s : State) (t : Stream) : Bool :=
  (s.task t.task).elim false (·.noRebase) ||
    (t.sflags.testBit 0 && decide (0 < t.run) && s.loadLe (t.rarm + 64 * ((t.run - 1) % max 1 t.rcount) + 0x30) 8 != 0)

/-- Whether an access must wait for its link (R276, R279): scheduled traffic on a link beyond its guard. -/
def State.heldBack (s : State) (t : Stream) (r : Reach) : Bool :=
  match r with
  | .peer chip _ => s.scheduled t && (s.route s.chipNo chip).elim false fun l => !s.carriesScheduled l
  | _ => false

/-! ### The move at hand -/

/-- A MOVE or ZERO word (R228): registers, length, POSTINC. -/
structure MoveWord where
  zero : Bool
  rs : Nat
  rd : Nat
  len : Nat
  inc : Bool
  deriving DecidableEq, Repr

def moveWordOf (w : Nat) : MoveWord :=
  ⟨aopOf w == aopZero, bitsAt w 48 3, bitsAt w 44 3, bitsAt w 0 32, w.testBit 40⟩

/-- The MOVE or ZERO that the stream is at. -/
def Stream.moveWord (t : Stream) : Option MoveWord :=
  match t.prog[t.pc]? with
  | none => none
  | some w => if aopOf w = aopMove ∨ aopOf w = aopZero then some (moveWordOf w) else none

/-- The address registers that a move uses. -/
def Stream.moveRegs (t : Stream) (m : MoveWord) : List Nat :=
  if m.zero then (if t.kind = 3 then [m.rd] else []) else if t.kind = 3 then [m.rs, m.rd] else [m.rs]

/-- Whether a move meets R229's alignment: its length and every address, the null address aside. -/
def Stream.aligned (t : Stream) (regs : List Nat) (len : Nat) : Bool :=
  len % 16 == 0 && regs.all fun r => t.reg r == nullAddr || t.reg r % 16 == 0

/-- The address that ALIGN reports: the first register out of line, else the first register. -/
def Stream.misaligned (t : Stream) (regs : List Nat) : Nat :=
  t.reg ((regs.find? fun r => t.reg r != nullAddr && t.reg r % 16 != 0).getD (regs.headD 0)) % 2 ^ 48

/-- Cuts `n` bytes at an address value of this chip so that they lie in one piece of the address map. -/
def State.clip (s : State) (v n : Nat) : Nat :=
  if v = nullAddr ∨ s.isSelf (v / 2 ^ 48) = false then n else min n (unitEnd (v % 2 ^ 48) - v % 2 ^ 48)

/-- The next part of a move: its bytes, what they are read from and where they go. -/
def State.chunk (s : State) (t : Stream) (m : MoveWord) : Nat × Reach × Reach :=
  let vs := addrAdd (t.reg m.rs) t.moved
  let vd := addrAdd (t.reg m.rd) t.moved
  let n := min (m.len - t.moved) (t.tileBytes - t.fill)
  if t.kind = 1 then
    let n := s.clip vs n
    (n, .here (spadBase ((t.tileCells t.tile).headD 0) + t.slotOff t.tile + t.fill), s.reach t m.rs vs n)
  else
    let n := if m.zero then n else s.clip vs n
    let n := if t.kind = 3 then s.clip vd n else n
    (n, if m.zero then .null else s.reach t m.rs vs n, if t.kind = 3 then s.reach t m.rd vd n else .null)

/-! ### Grants (R19 to R21, R241 to R244, R262) -/

/-- What a request is granted at: the engine, and the target ports of R20. -/
inductive Target where
  | engine (e : Nat)
  | dram (region channel : Nat)
  | stack (k : Nat)
  | blockPort (b : Nat)
  | cellSide (c : Nat)
  | hub (region : Nat)
  deriving DecidableEq, Repr

/-- The target port of a local address for an engine of a region: its own region's memory, else the port to the hub network (R20, R250). -/
def targetOf (region a : Nat) : List Target :=
  match placeOf a with
  | .dram r o => [if r = region then .dram r (dramChannel o) else .hub region]
  | .stack r o => [if r = region then .stack (stackOf r o) else .hub region]
  | .block b _ => [if b / 8 = region then .blockPort b else .hub region]
  | .spad c _ => [if c / 128 = region then .cellSide c else .hub region]
  | .cold _ _ => [.hub region]
  | _ => []

def Reach.targets (region : Nat) : Reach → List Target
  | .here a => targetOf region a
  | .peer _ _ => [.hub region]
  | _ => []

/-- Whether an access would fault. -/
def Reach.isFault : Reach → Bool
  | .fault _ _ => true
  | _ => false

/-- What the next request of a move is granted at. -/
def State.targets (s : State) (i : Nat) (t : Stream) (m : MoveWord) : List Target :=
  let q := s.chunk t m
  let r := streamRegionOf i
  .engine (i / 8) :: (if t.kind = 1 then [] else q.2.1.targets r) ++ q.2.2.targets r ++
    (if t.kind ≤ 2 then (t.tileCells t.tile).map .cellSide else [])

/-- Whether a stream can issue a request now (R242): it is at a move with bytes left and aligned, a tile is or can be opened, a DRAIN's tile
has passed its port, no link holds it back, and the access is within its reach. -/
def State.mayIssue (s : State) (i : Nat) (t : Stream) : Bool :=
  t.running && !t.ended && (match t.moveWord with
    | none => false
    | some m =>
      let q := s.chunk t m
      decide (t.moved < m.len) && t.aligned (t.moveRegs m) m.len && (t.taken || (s.mayTake i t && !s.chainBroken t)) &&
        (t.kind != 1 || !t.taken || !t.cur.isEmpty) && !q.2.1.isFault && !q.2.2.isFault && !s.heldBack t q.2.1 && !s.heldBack t q.2.2)

/-- The rank of a request (R20, R242): class, dry tick, DEADLINE, stream number. -/
structure Rank where
  bg : Bool
  d : Nat
  deadline : Nat
  number : Nat
  deriving DecidableEq, Repr

/-- Whether a rank comes before another: deadline traffic first, then the smaller D, the earlier DEADLINE, the lower number. -/
def Rank.before (a b : Rank) : Bool :=
  if a.bg != b.bg then b.bg
  else if a.d ≠ b.d then decide (a.d < b.d)
  else if a.deadline ≠ b.deadline then decide (a.deadline < b.deadline)
  else decide (a.number < b.number)

/-- Whether the next request of a move goes beyond the claim of its task (R244). -/
def State.beyondClaim (s : State) (t : Stream) (m : MoveWord) : Bool :=
  let q := s.chunk t m
  let n := min q.1 256
  [q.2.1, q.2.2].any fun r => (s.reachResource r).any fun k => s.claimed t.task k n != n

/-- A stream's rank at its next request. -/
def State.rankOf (s : State) (i : Nat) (t : Stream) (m : MoveWord) : Rank :=
  ⟨s.isBackground t (s.beyondClaim t m), s.dryTick i, t.deadline, i⟩

/-- Whether two requests meet at an engine or a target port. -/
def sameTarget (a b : List Target) : Bool := a.any b.contains

/-- Whether another stream that can issue comes before stream `i` at the engine or a port of its request (R242). -/
def State.outranked (s : State) (i : Nat) (t : Stream) (m : MoveWord) : Bool :=
  let mine := s.targets i t m
  let rank := s.rankOf i t m
  s.streams.any fun e => e.1 != i && s.mayIssue e.1 e.2 && (match e.2.moveWord with
    | none => false
    | some n => sameTarget mine (s.targets e.1 e.2 n) && (s.rankOf e.1 e.2 n).before rank)

/-- Whether a promoted scrub comes before a request at a memory (R262): by its own dry tick in bonded DRAM and the stacks, always at the
network port of a block memory. Its next burst covers the channels from its place in the pass on. -/
def State.scrubAhead (s : State) (rank : Rank) (g : Target) : Bool :=
  let wins := fun k => rank.bg || decide (scrubDry k (s.scrubber k) < rank.d)
  match g with
  | .dram r ch =>
    let at' := (scrubBytes (544 + r) - (s.scrubber (544 + r)).remain) / 256 % 64
    s.scrubDue (544 + r) && wins (544 + r) && decide ((ch + 64 - at') % 64 < 16)
  | .stack k => s.scrubDue (548 + k / 4) && wins (548 + k / 4)
  | .blockPort b => s.scrubDue (512 + b)
  | _ => false

/-- The queue of the hub network that a stream's request joins (R21, R304): its virtual channel and plot. -/
def State.hubKey (s : State) (i : Nat) (t : Stream) (m : MoveWord) : Nat :=
  let vc := if (s.rankOf i t m).bg then 6 else match (s.chunk t m).2.2 with
    | .peer _ _ => 5
    | .here a => if (targetOf (streamRegionOf i) a).contains (.hub (streamRegionOf i)) then 5 else 3
    | _ => 3
  16 * vc + t.plot

/-- The queues of the hub network that hold a request. -/
def State.hubKeys (s : State) : List Nat :=
  s.streams.filterMap fun e =>
    if s.mayIssue e.1 e.2 then
      match e.2.moveWord with
      | some m => if (s.targets e.1 e.2 m).contains (.hub (streamRegionOf e.1)) then some (s.hubKey e.1 e.2 m) else none
      | none => none
    else none

/-- The queue that the hub network serves next: its weighted virtual channels in turn, a queue of weight 0 only when no other holds a
request (R21; notes/assumptions/11). -/
def State.hubNext (s : State) : Nat :=
  let keys := (s.hubKeys.eraseDups).mergeSort fun a b => decide (a ≤ b)
  let heavy := keys.filter fun k => decide (0 < s.queueWeight k)
  if s.hubLeft ≠ 0 ∧ heavy.contains s.hubTurn = true then s.hubTurn
  else if heavy.isEmpty then nextKey keys s.hubTurn else nextKey heavy s.hubTurn

/-- Takes a grant of the hub network for a queue. -/
def State.takeHub (s : State) (k : Nat) : State :=
  { s with hubTurn := k, hubLeft := (if s.hubTurn = k ∧ s.hubLeft ≠ 0 then s.hubLeft else s.queueWeight k) - 1 }

/-- Whether the region network grants a stream's next request: no stream and no promoted scrub comes before it, and at the hub network it
is its queue's turn (R20, R21, R242). -/
def State.netGrants (s : State) (i : Nat) (t : Stream) (m : MoveWord) : Bool :=
  let g := s.targets i t m
  !s.outranked i t m && g.all (fun x => !s.scrubAhead (s.rankOf i t m) x) &&
    (!g.contains (.hub (streamRegionOf i)) || s.hubNext == s.hubKey i t m)

/-- Whether the network port of a block memory holds a granted request (R19). -/
def State.netWants (s : State) (b : Nat) : Bool :=
  s.streams.any fun e => s.mayIssue e.1 e.2 && (match e.2.moveWord with
    | none => false
    | some m => (s.targets e.1 e.2 m).contains (.blockPort b) && s.netGrants e.1 e.2 m)

/-- Whether a cell's port of its block memory holds a request (R19): a mask tile its next instruction needs (R112), or a merge it owns
(R119). -/
def State.cellWants (s : State) (c : Nat) : Bool := (s.maskFor c).isSome || (s.mergeFor c).isSome

/-- The port that a block memory serves next (R19): its 16 cells and, as 16, the region network's port, by plain round-robin. -/
def State.memNext (s : State) (b : Nat) : Option Nat :=
  ((List.range 17).map fun k => ((s.block b).memTurn + 1 + k) % 17).find? fun p =>
    if p = 16 then s.netWants b else s.cellWants (16 * b + p)

/-- A block memory has served a port. -/
def State.takeMem (s : State) (b p : Nat) : State := s.setBlock b { s.block b with memTurn := p }

/-- Whether a stream's next request is granted at every point (R19 to R21, R242). -/
def State.granted (s : State) (i : Nat) (t : Stream) (m : MoveWord) : Bool :=
  s.netGrants i t m && (s.targets i t m).all fun g => match g with
    | .blockPort b => s.memNext b == some 16
    | _ => true

/-- What a grant leaves at the points it passed. -/
def State.noteGrant (s : State) (i : Nat) (t : Stream) (m : MoveWord) : State :=
  let g := s.targets i t m
  let s := if g.contains (.hub (streamRegionOf i)) then s.takeHub (s.hubKey i t m) else s
  g.foldl (fun s x => match x with
    | .blockPort b => s.takeMem b 16
    | _ => s) s

/-! ### MOVE and ZERO -/

/-- The current tile is open: its counts are taken. -/
def State.openTile (s : State) (i : Nat) (t : Stream) : State :=
  (if t.taken then s else s.takeTile i t).putStream i { t with taken := true } ssRunning

/-- `n` bytes of a move have gone: the move and the tile advance, and a full tile closes. -/
def State.advanceMove (s : State) (i n : Nat) : State :=
  match s.stream i with
  | none => s
  | some u =>
    let u := { u with moved := u.moved + n, fill := u.fill + n }
    if u.fill = u.tileBytes then
      let r := s.closeTile i u
      r.1.setStream i r.2
    else s.setStream i u

/-- Moves on through tile after tile until the length is done, no tile may be opened, a DRAIN's tile has yet to pass its port, or the next
request is not granted. -/
def State.moveLoop : Nat → State → Nat → MoveEvent → State
  | 0, s, _, _ => s
  | f + 1, s, i, e =>
    match s.stream i with
    | none => s
    | some t =>
      match t.moveWord with
      | none => s
      | some m =>
        let q := s.chunk t m
        if m.len ≤ t.moved then s
        else if t.taken = false ∧ s.chainBroken t = true then s.streamFault i 0xA 0
        else if t.taken = false ∧ s.mayTake i t = false then s.putStream i t ssSem
        else if s.heldBack t q.2.1 || s.heldBack t q.2.2 then s.setBit Fld.SDL_EVENT_FLAGS_DEFERRED t.plot true
        else if !s.granted i t m then s
        else if t.kind = 1 ∧ (t.taken = false ∨ t.cur.isEmpty = true) then s.openTile i t
        else
          let u := (s.noteGrant i t m).openTile i t
          let part := match q.2.1, q.2.2 with
            | .fault c d, _ => Moved.fault u c d
            | _, .fault c d => Moved.fault u c d
            | src, dst => u.movePart i { t with taken := true } m.rs (if t.kind = 1 then m.rs else m.rd) src dst q.1 t.moved e
          match part with
          | .fault v c d => v.streamFault i c d
          | .ok v => State.moveLoop f (v.advanceMove i q.1) i e

/-- Finishes a move whose length is done: POSTINC and the next instruction. -/
def State.moveDone (s : State) (i len : Nat) (inc : List Nat) : State :=
  match s.stream i with
  | none => s
  | some t =>
    if t.moved < len ∨ !t.running then s
    else s.nextWord i (inc.foldl (fun t r => t.setAddr r (addrAdd (t.reg r) len)) t)

/-- MOVE and ZERO (R228 to R230, R242): a misaligned one faults with ALIGN and moves nothing; any other moves as far as tiles may be opened
and requests are granted, and once its length is done POSTINC and the next instruction follow. -/
def State.runMove (s : State) (i op : Nat) (e : MoveEvent) : State :=
  match s.atWord i op with
  | none => s
  | some (t, w) =>
    let m := moveWordOf w
    let regs := t.moveRegs m
    if !t.aligned regs m.len then s.streamFault i 0x2 (detailOf (t.misaligned regs))
    else (State.moveLoop 10 s i e).moveDone i m.len (if m.inc then regs.eraseDups else [])

/-- MOVE (R228 to R230). -/
def execMoveBytes (i : StreamIx) (e : MoveEvent) (s : State) : Res := .next (s.runMove i.val aopMove e)

/-- ZERO (R228, R229): emits zeros into the tiles; for COPY writes them at A[d]. -/
def execZeroBytes (i : StreamIx) (s : State) : Res := .next (s.runMove i.val aopZero .clean)

/-! ### Control and address instructions -/

/-- LOOP (R228): opens a loop; a count of 0 skips to after the matching NEXT. -/
def execProgLoop (i : StreamIx) (s : State) : Res :=
  match s.atWord i.val aopLoop with
  | none => .next s
  | some (t, w) =>
    let count := if w.testBit 32 then t.base.getD (bitsAt w 0 3) 0 % 2 ^ 32 else bitsAt w 0 32
    if count = 0 then
      .next (s.nextWord i.val { t with pc := matchingNext (t.prog.drop (t.pc + 1)) (t.pc + 1) 0 })
    else .next (s.nextWord i.val { t with loops := (t.pc, count) :: t.loops })

/-- NEXT (R228): closes an iteration of the innermost loop. -/
def execNextLoop (i : StreamIx) (s : State) : Res :=
  match s.atWord i.val aopNext with
  | none => .next s
  | some (t, _) =>
    match t.loops with
    | [] => .next (s.nextWord i.val t)
    | (start, left) :: rest =>
      if left ≤ 1 then .next (s.nextWord i.val { t with loops := rest })
      else .next (s.nextWord i.val { t with loops := (start, left - 1) :: rest, pc := start })

/-- SETA (R228, R230): from a register, with its binding, or from a base. -/
def execSeta (i : StreamIx) (s : State) : Res :=
  match s.atWord i.val aopSeta with
  | none => .next s
  | some (t, w) =>
    let a := bitsAt w 48 3
    let b := bitsAt w 44 3
    let imm := signedOf 40 (bitsAt w 0 40)
    if w.testBit 47 then .next (s.nextWord i.val ((t.setAddr a (addrAdd (t.reg b) imm)).setBind a (Table.get t.bind b)))
    else
      let v := t.base.getD b 0
      let sum := v / 2 ^ 48 * 2 ^ 48 + (((v % 2 ^ 48 : Nat) + imm) % 2 ^ 48).toNat
      .next (s.nextWord i.val ((t.setAddr a sum).setBind a none))

/-- ADDA (R228, R229). -/
def execAdda (i : StreamIx) (s : State) : Res :=
  match s.atWord i.val aopAdda with
  | none => .next s
  | some (t, w) =>
    let a := bitsAt w 48 3
    .next (s.nextWord i.val (t.setAddr a (addrAdd (t.reg a) (signedOf 48 (bitsAt w 0 48)))))

/-- FLUSH (R229): closes the current tile at its present length. -/
def execFlush (i : StreamIx) (s : State) : Res :=
  match s.atWord i.val aopFlush with
  | none => .next s
  | some (t, _) =>
    let (s, t) := s.closeTile i.val t
    .next (s.nextWord i.val t)

/-- Whether an index stream has nothing more to give to data stream `t`: gone, or ended with every tile delivered (R231). A persistent
one that has yet to start its run has not ended. -/
def State.indexEnded (s : State) (t : Stream) (j : Nat) : Bool :=
  match s.stream j with
  | none => true
  | some u => u.tiles.isEmpty && !u.running &&
      (u.task == 0 || !u.sflags.testBit 0 || (decide (0 < u.run) && (!t.sflags.testBit 0 || decide (t.run ≤ u.run))))

/-- IDX (R228, R231): pops one index; an empty queue waits while the index stream runs and faults with INDEX after it ended. -/
def execIdx (i : StreamIx) (s : State) : Res :=
  match s.atWord i.val aopIdx with
  | none => .next s
  | some (t, w) =>
    match t.xq with
    | [] =>
      if t.indexSrc.elim true (s.indexEnded t) then .next (s.streamFault i.val 0x6 0) else .next (s.putStream i.val t ssIndex)
    | x :: rest =>
      let a := bitsAt w 48 3
      let v := t.base.getD (bitsAt w 44 3) 0
      let addr := if x = 0xFFFFFFFF then nullAddr
        else v / 2 ^ 48 * 2 ^ 48 + (v % 2 ^ 48 + x * 2 ^ bitsAt w 32 5) % 2 ^ 48
      .next (s.nextWord i.val (({ t with xq := rest }.setAddr a addr).setBind a none))

/-- The next page descriptor (R232): posted by a walk, or for a persistent stream the next entry of DTABLE, read whole. -/
def State.nextDesc (s : State) (t : Stream) : Option (Nat × Stream) :=
  if t.sflags.testBit 0 then
    if t.dpos < t.dcount then some (s.loadLe (t.dtable + 64 * t.dpos) 64, { t with dpos := t.dpos + 1 }) else none
  else
    match t.dq with
    | [] => none
    | d :: rest => some (d, { t with dq := rest })

/-- Bytes of the frame on another chip that a descriptor names, as the sequence's record gives them (R141, R151); 0 where none is known. -/
def State.peerFrame (s : State) (d : Nat) : Nat :=
  match Table.get s.seqs (65536 * pdPlot d + pdSeq d) with
  | none => 0
  | some q => frameBytes (orderFor (if pdKind d = 3 then trayBytes q else if d.testBit 171 then cutBytes q (bitsAt d 176 8) else pageBytes q))

/-- The binding a descriptor gives: the frame on this chip that holds its address, or the one on another chip that begins at it (R230). -/
def State.bindOf (s : State) (d : Nat) : PageBind :=
  if s.isSelf (pdFabric d / 2 ^ 48) then
    match s.frameAt (pdAddr d) with
    | some (b, f) => ⟨d, b, frameBytes f.order⟩
    | none => ⟨d, pdAddr d, 0⟩
  else ⟨d, pdAddr d, s.peerFrame d⟩

/-- A read that a stream's engine makes beside its moves (R246, R258, R259): a corrected error is counted, a poisoned line or an
uncorrectable error is recorded and its address answered. -/
def State.checkRead (s : State) (t : Stream) (a n : Nat) (e : Ecc) : State × Option Nat :=
  match s.firstPoison a n with
  | some line => (s.recordEcc line 2 false, some (max a line))
  | none =>
    if e.bad ∧ e.offset < n then (s.readError (a + e.offset) 1 (s.taskPair t.task), some (a + e.offset))
    else (if e = .corrected then s.countEccAt a 1 else s, none)

/-- Descriptors that a walk posted move into the queue of the stream they are for, which holds 64 (R232). -/
def State.feedQueue (s : State) (i : Nat) : State :=
  match s.stream i with
  | none => s
  | some t =>
    match s.task t.task with
    | none => s
    | some k =>
      match (if k.body.walk = some t.place then s.walks.find? fun w => w.plot == k.plot && w.task == k.tag else none) with
      | none => s
      | some w =>
        let n := 64 - t.dq.length
        let rest := if w.descs.length ≤ n then s.walks.erase w
          else s.walks.map fun x => if x = w then { w with descs := w.descs.drop n } else x
        { s with walks := rest }.setStream i { t with dq := t.dq ++ w.descs.take n, walkDone := true }

/-- What a PAGE reads of memory: the next entry of a persistent stream's table. -/
def Stream.pageRead (t : Stream) : Nat := if t.sflags.testBit 0 && decide (t.dpos < t.dcount) then 64 else 0

/-- PAGE (R228, R230, R232, R246). -/
def execPage (i : StreamIx) (e : Ecc) (s : State) : Res :=
  let s := s.feedQueue i.val
  match s.atWord i.val aopPage with
  | none => .next s
  | some (t, w) =>
    match s.checkRead t (t.dtable + 64 * t.dpos) t.pageRead e with
    | (s, some a) => .next (s.streamFault i.val 0x4 (detailOf a))
    | (s, none) =>
      match s.nextDesc t with
      | none =>
        if t.sflags.testBit 0 || t.walkDone then .next (s.streamFault i.val 0x8 0) else .next (s.putStream i.val t ssIndex)
      | some (d, u) =>
        if pdBad t.plot d then .next (s.streamFault i.val 0x8 0)
        else
          let a := bitsAt w 48 3
          let u := { u with page := some d, trailT := 0 }
          .next (s.nextWord i.val ((u.setAddr a (pdFabric d)).setBind a (some (s.bindOf d))))

/-! ### Trailers (R233) -/

/-- One key trailer entry (R110). -/
def trailEntry (pos flags node : Nat) : List Byte := leBytes 4 pos ++ leBytes 1 flags ++ leBytes 1 node ++ leBytes 2 0

/-- Depth of tree node `n` under PARENT (R131), following at most `f` parents. -/
def treeDepth (parent : List Byte) : Nat → Nat → Nat
  | 0, _ => 0
  | f + 1, n => if n = 0 then 0 else 1 + treeDepth parent f ((parent.getD n 0).toNat)

/-- The positions of the sequence's sorted global list that lie in the page (R151). -/
def State.pageGlobals (s : State) (plot d : Nat) : List Nat :=
  match Table.get s.seqs (65536 * plot + pdSeq d) with
  | none => []
  | some q => (((q.globals.map (·.1)).drop (pdXindex d)).take (pdXcount d))

/-- The 64 trailer entries for the tile at page offset 64 t (R233), with the tray's header for KIND CAND; none where the kind
writes nothing. -/
def State.trailBytes (s : State) (t : Stream) (d : Nat) (header : List Byte) : Option (List Byte) :=
  let o := 64 * t.trailT
  let last := t.base.getD 5 0 % 2 ^ 32
  let globals := s.pageGlobals t.plot d
  match pdKind d with
  | 1 => some ((List.range 64).flatMap fun i =>
      let pos := s.loadLe (pdPosArray d + 4 * (o + i)) 4
      if pos = 0xFFFFFFFF then leBytes 8 0 else trailEntry pos 0x03 0)
  | 2 => some ((List.range 64).flatMap fun i =>
      let pos := (pdFirstPos d + o + i) % 2 ^ 32
      trailEntry pos (if last < pos ∨ globals.contains pos = true then 0x04 else 0x05) 0)
  | 3 => some ((List.range 64).flatMap fun i =>
      if i < (header.getD 1 0).toNat then
        trailEntry ((leNat ((header.drop 4).take 4) + treeDepth ((header.drop 0x10).take 16) 16 i) % 2 ^ 32) 0x09 i
      else leBytes 8 0)
  | _ => none

/-- The mask tile of a RECALLED page: row r all ones when ROWMASK bit r is set (R233). -/
def trailMask (d : Nat) : List Byte :=
  (List.range 64).flatMap fun r => List.replicate 8 (if (pdRowMask d).testBit r then 0xFF else 0x00)

/-- A tile's trailers leave for the cell's fill port ahead of the tile (R17, R233), and its mask for the block memory, at the cell's
count. -/
def State.trailCell (s : State) (i : Nat) (t : Stream) (d : Nat) (bytes : List Byte) (c : Nat) : State :=
  let n := (Table.get t.trailN c).getD 0
  let o := t.trailDest + 512 * n
  let s := s.postTransfer c
    { port := .fill, bytes := 512, tile := 512, stream := some i, tileNo := t.tile, load := [(o, bytes)] }
  let s := s.touch i t.tile (spadBase c + o) 512
  if pdKind d = 2 then
    let m := blockBase (blockOfCell c) + t.maskDest + 512 * n
    (s.writeBytes m (trailMask d)).touch i t.tile m 512
  else s

/-- A trailer or mask range beyond the scratchpad or the block memory: the address of its first byte (R233). -/
def trailOutside (t : Stream) (d : Nat) (c : Nat) : Option Nat :=
  let n := (Table.get t.trailN c).getD 0
  if spadSize < t.trailDest + 512 * n + 512 then some (spadBase c + t.trailDest + 512 * n)
  else if pdKind d = 2 ∧ blockSize < t.maskDest + 512 * n + 512 then some (blockBase (blockOfCell c) + t.maskDest + 512 * n)
  else none

/-- What a TRAIL reads of memory: the positions of a global tile, or the header of a seed tray on this chip. -/
def State.trailRead (s : State) (t : Stream) (d : Nat) : Nat × Nat :=
  if pdKind d = 1 then (pdPosArray d + 256 * t.trailT, 256)
  else if pdKind d = 3 && s.isSelf (pdChip d) then (pdAddr d, 128)
  else (0, 0)

/-- TRAIL (R233, R246). `header` is what the lead chip delivers of a seed tray's header where the tray lies on another chip. -/
def execTrail (i : StreamIx) (header : List Byte) (e : Ecc) (s : State) : Res :=
  match s.atWord i.val aopTrail with
  | none => .next s
  | some (t, _) =>
    match t.page with
    | none => .next (s.streamFault i.val 0x8 0)
    | some d =>
      let r := s.trailRead t d
      match s.checkRead t r.1 r.2 e with
      | (s, some a) => .next (s.streamFault i.val 0x4 (detailOf a))
      | (s, none) =>
        let h := if s.isSelf (pdChip d) then s.loadBytes (pdAddr d) 128 else header
        match s.trailBytes t d h with
        | none => .next (s.nextWord i.val { t with trailT := t.trailT + 1 })
        | some bytes =>
          let cs := t.tileCells t.tile
          match cs.findSome? (trailOutside t d) with
          | some a => .next (s.streamFault i.val 0x1 (detailOf a))
          | none =>
            let counts := cs.foldl (fun m c => Table.put m c ((Table.get m c).getD 0 + 1)) t.trailN
            let s := s.nextWord i.val { t with trailT := t.trailT + 1, trailN := counts }
            .next (cs.foldl (fun s c => s.trailCell i.val t d bytes c) s)

/-! ### The end of a run and of a tile -/

/-- A run whose last tile has landed ends (R239): a persistent stream parks with its next record, and after the last record of the
ring until a later task names it; any other is released. -/
def State.finishRun (s : State) (i : Nat) (t : Stream) : State :=
  if t.sflags.testBit 0 then
    let extra := t.rcount ≤ t.run
    (s.setStream i { t with running := false, ended := false, runEnd := s.sundial, pc := 0, moved := 0, loops := [], bind := [],
                            cur := [], task := if extra then 0 else t.task, run := if extra then 0 else t.run }).setFld
      Fld.STM_STREAM_STATE_STATE i ssParked
  else
    let s := if t.kind = 4 then { s with streams := s.streams.map fun e =>
        (e.1, if e.2.indexSrc = some i then { e.2 with indexSrc := none } else e.2) }
      else s
    s.endStream i t ssFree

/-- END (R228, R229): closes the current tile; the run is over once every tile has landed. -/
def execProgEnd (i : StreamIx) (s : State) : Res :=
  match s.atWord i.val aopEnd with
  | none => .next s
  | some (t, _) =>
    let (s, t) := s.closeTile i.val t
    let t := { t with ended := true }
    if t.tiles.isEmpty then .next (s.finishRun i.val t) else .next (s.putStream i.val t ssRunning)

/-- Whether tile `k` of a stream, and what was sent ahead of it, has passed the transfer ports of a cell. -/
def State.tilePassed (s : State) (i k c : Nat) : Bool :=
  (s.cell c).transfers.all fun x => !(decide (x.stream = some i) && decide (x.tileNo ≤ k))

/-- Whether every byte of the oldest tile has landed: nothing is due from another chip, and every port has carried it. -/
def State.tileLanded (s : State) (i : Nat) (t : Stream) (u : OpenTile) : Bool :=
  !s.tileAwaits i t.arming u.number &&
    (t.kind == 3 || t.kind == 4 || ((t.kind == 1 || u.sent) && u.cells.all (s.tilePassed i u.number)))

/-- TILE_COMPLETE (R229, R231, R235, R237): the oldest tile in flight has landed whole: FULL to its cells, EMPTY to the producing
cell of a DRAIN, words to the data stream, or acknowledged bytes. -/
def execTileComplete (i : StreamIx) (s : State) : Res :=
  match s.stream i.val with
  | none => .next s
  | some t =>
    match t.tiles with
    | [] => .next s
    | u :: later =>
      if !s.tileLanded i.val t u then .next s
      else
        let s := if t.kind = 4 ∨ t.cells = 0 then s else u.cells.foldl (State.mapPair · i.val t t.giveOne) s
        let t := { t with
          tiles := later
          acked := if t.kind = 4 then t.acked + u.bytes / 4 else t.acked + u.bytes
          touched := if t.kind = 1 ∨ t.kind = 3 then t.touched.filter fun e => e.1 != u.number else t.touched }
        let (s, t) := if t.kind = 4 then
            (match s.streams.find? fun e => decide (e.2.indexSrc = some i.val) with
              | some (j, d) => s.setStream j { d with xq := d.xq ++ t.xq.take (u.bytes / 4) }
              | none => s, { t with xq := t.xq.drop (u.bytes / 4) })
          else (s, t)
        if t.ended && later.isEmpty then .next (s.finishRun i.val t) else .next (s.setStream i.val t)

/-! ### Persistent runs, promotion, timeouts -/

/-- An event that fires in holdover sets UNSYNC (R279). -/
def State.markUnsync (s : State) (p : Nat) : State :=
  if s.fld Fld.SDL_STATUS_STATE 0 = 3 then s.setBit Fld.SDL_EVENT_FLAGS_UNSYNC p true else s

/-- START of the next run of a context. -/
def State.nextStart (s : State) (t : Stream) : Nat := s.loadLe (t.rarm + 64 * (t.run % t.rcount) + 0x30) 8

/-- Whether the next run of a persistent context may begin now. -/
def State.runDue (s : State) (t : Stream) : Bool :=
  t.sflags.testBit 0 && !t.running && t.task != 0 && t.tiles.isEmpty && decide (s.nextStart t ≤ s.sundial)

/-- The data stream that an INDEX stream feeds, through others where it drives one of those. -/
def State.dataOf (s : State) : Nat → Nat → Nat
  | 0, i => i
  | f + 1, i => match s.streams.find? fun e => decide (e.2.indexSrc = some i) with
    | some (j, _) => State.dataOf s f j
    | none => i

/-- A stream and those that drive it. -/
def State.driversOf (s : State) : Nat → Nat → List (Nat × Stream)
  | 0, _ => []
  | f + 1, i => match s.stream i with
    | none => []
    | some t => (i, t) :: (match t.indexSrc with
      | some j => State.driversOf s f j
      | none => [])

/-- The persistent streams that run together with stream `i` (R231): a data stream and the INDEX streams that drive it. -/
def State.runGroup (s : State) (i : Nat) : List (Nat × Stream) :=
  (s.driversOf 8 (s.dataOf 8 i)).filter fun e => e.2.sflags.testBit 0

/-- The re-arm record of a persistent stream's next run. -/
def Stream.record (t : Stream) : Nat := t.rarm + 64 * (t.run % t.rcount)

/-- Starts the next run of a persistent stream from its record (R239). -/
def State.startRun (s : State) (e : Nat × Stream) : State :=
  let i := e.1
  let t := e.2
  let a := t.record
  let base := ((List.range 6).map fun k => s.loadLe (a + 8 * k) 8) ++ t.base.drop 6
  let u := { t with base := base, deadline := s.loadLe (a + 0x38) 8, run := t.run + 1, running := true, ended := false,
                    pc := 0, moved := 0, loops := [], bind := [], trailN := [], trailT := 0, page := none, dpos := 0,
                    promoted := false }
  let s := if s.loadLe (a + 0x30) 8 = 0 then s else s.markUnsync t.plot
  (s.putStream i u ssRunning).stepFld Fld.STM_REARM_COUNT_RUNS i

/-- PERSISTENT_RUN (R231, R239, R246): run k starts with record k mod RCOUNT, at the later of START and the end of the previous run; a data
stream and the INDEX streams that drive it start together. -/
def execPersistentRun (i : StreamIx) (e : Ecc) (s : State) : Res :=
  match s.stream i.val with
  | none => .next s
  | some t =>
    let g := s.runGroup i.val
    if !s.runDue t || !g.all (fun x => s.runDue x.2) then .next s
    else
      match s.checkRead t t.record 64 e with
      | (s, some a) => .next (s.streamFault i.val 0x4 (detailOf a))
      | (s, none) => .next (g.foldl State.startRun s)

/-- BACKGROUND_PROMOTION (R243): at DEADLINE − PERIOD. -/
def execBackgroundPromotion (i : StreamIx) (s : State) : Res :=
  match s.stream i.val with
  | none => .next s
  | some t =>
    if !t.sflags.testBit 3 || decide (s.sundial + t.period < t.deadline) then .next s
    else .next (s.setStream i.val { t with promoted := true })

/-- SLOT_METER (R244): a new slot starts every task's metering again. -/
def execSlotMeter (s : State) : Res :=
  if s.sundial % 1024 ≠ 0 then .next s
  else .next { s with tasks := s.tasks.map fun e => (e.1, { e.2 with used := [] }) }

/-- The instruction whose request of a stream has gone unanswered for 100 µs of local time (R5, R246). -/
def State.lateRequest (s : State) (i arming : Nat) : Option Nat :=
  s.reqs.findSome? fun q => match q.who with
    | .stream j a _ n _ => if j == i && a == arming && decide (q.tick + 100000 ≤ s.clock) then some n else none
    | _ => none

/-- REMOTE_TIMEOUT (R246, R255): a request of the stream unanswered for 100 µs faults it with REMOTE. -/
def execRemoteTimeout (i : StreamIx) (s : State) : Res :=
  match s.stream i.val with
  | none => .next s
  | some t =>
    match s.lateRequest i.val t.arming with
    | none => .next s
    | some n =>
      let mine := fun (q : Request) => match q.who with
        | .stream j a _ _ _ => j == i.val && a == t.arming
        | _ => false
      .next ({ s with reqs := s.reqs.filter fun q => !(mine q && decide (q.tick + 100000 ≤ s.clock)) }.streamFaultAt i.val n 0x5 0)

/-- CHAIN_TILE (R238): a chain tile moves once every cell of the chain has granted its chain port; each cell then hands its
scratchpad back as its own copy ends. -/
def execChainTile (i : StreamIx) (s : State) : Res :=
  match s.stream i.val with
  | none => .next s
  | some t =>
    let mine := fun (x : Transfer) => decide (x.stream = some i.val)
    let granted := fun (c : Nat) => s.fld Fld.CEL_STATE_HOLDER c == 1 && ((s.cell c).portTransfer .chain).any mine
    if t.kind ≠ 2 ∨ t.cellSet.all granted = false then .next s
    else
      .next (t.cellSet.foldl (fun s c =>
        match (s.cell c).portTransfer .chain with
        | none => s
        | some q =>
          let s := s.carryTile c q
          (s.setCell c { s.cell c with transfers := (s.cell c).transfers.erase q }).handBack c) s)

end Sys2Proof.Machine
end

