-- ==== Sys2Proof/Machine/BlockMemory.lean ====
section
/-!
DEFINITION. What a cell's own port of its block memory serves (R19): the mask tile of a gated ATS (R112) and the rows of a block merge
(R119).
-/

namespace Sys2Proof.Machine
open Sys2Proof

/-- Whether the port of a cell is the one its block memory serves next (R19). -/
def State.memTurnOf (s : State) (c : Nat) : Bool := s.memNext (blockOfCell c) == some (c % 16)

/-- MASK_TILE_FETCH (R19, R112): the tile of the ATS at the head of the cell's issue queue comes into the block's mask buffer once the
block memory serves the cell's port; an uncorrectable error is a block-memory error. -/
def execMaskTileFetch (c : CellIx) (e : Ecc) (s : State) : Res :=
  let b := blockOfCell c.val
  match s.maskFor c.val with
  | none => .next s
  | some off =>
    if !s.memTurnOf c.val then .next s
    else
      let s := s.takeMem b (c.val % 16)
      if e.bad then .next ((s.recordEcc (blockBase b + off + e.offset) 1 false).cellFault c.val fcBlkEcc (s.cell c.val).next)
      else
        let s := if e = .corrected then s.countEcc (regionOfCell c.val) 0 else s
        .next (s.setBlock b { s.block b with
          maskTile := Table.put (s.block b).maskTile (c.val % 16) (s.readBytes (blockBase b + off) 512) })

/-- The rows of a merge go into its owner's slots, the merge ends and the owner may retire (R119). -/
def State.mergeRows (s : State) (c : Nat) (m : Merge) : State :=
  let b := blockOfCell c
  let s := (List.range m.rows).foldl (mergeRow c m (mergeCells m.mset).length) s
  let s := s.setBlock b { s.block b with merges := (s.block b).merges.filter fun q => decide (q ≠ m) }
  (s.setCell c { s.cell c with inflight := clearMerging (s.cell c).inflight }).retire c

/-- BLOCK_MERGE (R19, R119): once every slice is present and the block memory serves the owner's port, the slices are added in rank order
into the owner's slots, and the owner may retire. An uncorrectable error of the buffer is a block-memory error. -/
def execBlockMerge (c : CellIx) (e : Ecc) (s : State) : Res :=
  let b := blockOfCell c.val
  match s.mergeFor c.val with
  | none => .next s
  | some m =>
    if !s.memTurnOf c.val then .next s
    else
      let s := s.takeMem b (c.val % 16)
      if e.bad then .next ((s.recordEcc (blockBase b + m.buf + e.offset) 1 false).cellFault c.val fcBlkEcc 0xFFFF)
      else .next ((if e = .corrected then s.countEcc (regionOfCell c.val) 0 else s).mergeRows c.val m)

end Sys2Proof.Machine
end

