-- ==== Sys2Proof/Machine/Sundial.lean ====
section
/-!
DEFINITION. The sundial's synchronisation (R269 to R277): exchanges, the judgement of offset and delay, the states of a link, the
choice of a parent, joining and stepping. Times are in 1/64 tick, offsets and delays in 1/128 tick.
-/

namespace Sys2Proof.Machine
open Sys2Proof

/-! ### The parent (R272) -/

/-- Links whose partner may be the parent: SYNCED, of the same root, with a depth. -/
def State.parentLinks (s : State) : List Nat :=
  (List.range 6).filter fun l =>
    s.syncState l == sySynced && (s.link l).heard && decide ((s.link l).partnerDepth < 0xFF) &&
      (s.link l).partnerRoot == s.rootChip

/-- The lower depth, then the lower partner chip number. -/
def State.betterParent (s : State) (a b : Nat) : Nat :=
  let x := s.link a
  let y := s.link b
  if y.partnerDepth < x.partnerDepth ∨ (y.partnerDepth = x.partnerDepth ∧ y.partnerChip < x.partnerChip) then b else a

/-- The parent R272 chooses. -/
def State.bestParent (s : State) : Option Nat :=
  match s.parentLinks with
  | [] => none
  | l :: ls => some (ls.foldl s.betterParent l)

/-- Takes the parent that R272 chooses; without one a synchronised chip enters HOLDOVER (R276). The root keeps depth 0. -/
def State.chooseParent (s : State) : State :=
  if s.isRoot || s.mainLost then s
  else
    match s.bestParent with
    | some l =>
      if s.fld Fld.SDL_STATUS_STATE 0 = sdSync ∨ s.fld Fld.SDL_STATUS_STATE 0 = sdHoldover then
        let s := (s.setFld Fld.SDL_STATUS_PARENT 0 l).setFld Fld.SDL_STATUS_DEPTH 0 ((s.link l).partnerDepth + 1)
        (s.setBit Fld.SDL_STATUS_PTP 0 (s.link l).partnerPtp).setFld Fld.SDL_STATUS_STATE 0 sdSync
      else s.setFld Fld.SDL_STATUS_STATE 0 sdJoining
    | none =>
      if s.fld Fld.SDL_STATUS_STATE 0 = sdSync then
        ((s.setFld Fld.SDL_STATUS_PARENT 0 7).setFld Fld.SDL_STATUS_DEPTH 0 0xFF).setFld Fld.SDL_STATUS_STATE 0 sdHoldover
      else s

/-! ### Steps of the counter (R271) -/

/-- Whether the chip holds an accepted task or a pending sundial event. -/
def State.holdsWork (s : State) : Bool := s.tasks.any (fun e => e.2.accepted) || !s.events.isEmpty

/-- Moves the counter by an offset in 1/128 tick. -/
def State.stepBy (s : State) (theta : Int) : State :=
  let t := ((s.time64 : Int) + theta / 2).toNat
  { s with sundial := t / 64, phase := t % 64, slew := 0 }

/-- A chip that holds work and finds itself more than 4,096 ticks off (R271): every accepted task aborts with DEADLINE, pending
events are dropped and flagged. -/
def State.dropWork (s : State) : State :=
  let owners := (s.tasks.filter fun e => e.2.accepted).map (fun e => e.2.plot) ++ s.events.filterMap fun e =>
    match e.kind with
    | .taskStart t => (s.task t).map (·.plot)
    | .streamRun i => (s.stream i).map (·.plot)
    | .hop p | .indexSwap p _ | .write p _ _ _ => some p
    | .collective c => (Table.get s.chains c).map (·.plot)
    | .snapshot _ => none
  let s := ((s.tasks.filter fun e => e.2.accepted).map (·.1)).foldl
    (fun s t => s.abortTask t fcDeadline (some fcDeadline) none none) s
  let s := { s with events := [] }
  owners.foldl (fun s p => if p < 8 then s.setBit Fld.SDL_EVENT_FLAGS_STEP_ABORT p true else s) s

/-- SUNDIAL_JOIN (R271): a chip that holds no work steps to its parent's time and is synchronised. -/
def execSundialJoin (l : LinkIx) (s : State) : Res :=
  if s.isRoot || s.holdsWork || s.fld Fld.SDL_STATUS_STATE 0 != sdJoining || decide (s.bestParent ≠ some l.val) then .next s
  else .next (((s.stepBy (s.link l.val).theta).setFld Fld.SDL_STATUS_STATE 0 sdSync).chooseParent)

/-- The chip that the seedbed names as root is at depth 0 and synchronised with itself (R272); at power-on it loads the value the host armed,
with the time elapsed since (R271, R393). -/
def State.settleRoot (s : State) : State :=
  if !s.hasCoord || s.chipNo != s.rootChip || s.isRoot then s
  else
    let s := ((s.setBit Fld.SDL_STATUS_ROOT 0 true).setFld Fld.SDL_STATUS_DEPTH 0 0).setFld Fld.SDL_STATUS_PARENT 0 7
    let s := s.setFld Fld.SDL_STATUS_STATE 0 sdSync
    match s.boot.armed with
    | some (v, t) =>
      if s.boot.powerOn && !s.holdsWork then { s with sundial := v + (s.clock - t), boot := { s.boot with armed := none } } else s
    | none => s

/-! ### Exchanges (R273, R274) -/

/-- The 256 bytes of a synchronisation flit (R274), times in 1/64 tick. -/
def State.syncBytes (s : State) (l typ seqNo t1 t2 t3 : Nat) : List Byte :=
  let flags := (if s.fld Fld.SDL_STATUS_STATE 0 = sdSync then 1 else 0) + (if s.bit Fld.SDL_STATUS_PTP 0 then 2 else 0) +
    (if s.syncState l = syResync then 4 else 0)
  beBytes 1 typ ++ beBytes 1 flags ++ beBytes 2 seqNo ++ beBytes 2 s.rootChip ++ beBytes 1 (s.fld Fld.SDL_STATUS_DEPTH 0) ++
    beBytes 1 0 ++ beBytes 8 (t1 / 64) ++ beBytes 8 (t2 / 64) ++ beBytes 8 (t3 / 64) ++ beBytes 1 (t1 % 64) ++
    beBytes 1 (t2 % 64) ++ beBytes 1 (t3 % 64) ++ List.replicate 221 0

/-- Ticks between exchanges: 16,000, or 1,000 in RESYNC (R273). -/
def State.cadence (s : State) (l : Nat) : Nat := if s.syncState l = syResync then 1000 else 16000

/-- SYNC_EXCHANGE (R273): a trained link sends a request when its cadence is due and no request is outstanding. -/
def execSyncExchange (l : LinkIx) (s : State) : Res :=
  let x := s.link l.val
  let due := match x.lastSent with
    | none => true
    | some t => decide (t + s.cadence l.val ≤ s.clock)
  if s.syncState l.val = syDown ∨ due = false ∨ x.sent.isSome = true then .next s
  else
    let n := (x.seqNo + 1) % 65536
    let s := s.setLink l.val { x with seqNo := n, sent := some s.time64, lastSent := some s.clock }
    .next (s.sendLink l.val { Msg.to .sync 0 0 x.partnerChip with data := s.syncBytes l.val 0x01 n s.time64 0 0 })

/-- A missed or bad exchange (R276): three in a row, or two when W exceeds 2,000 ticks, make a SYNCED link SUSPECT. -/
def State.badExchange (s : State) (l : Nat) : State :=
  let x := s.link l
  let missed := min 15 (s.fld Fld.SDL_LINK_SYNC_MISSED l + 1)
  let s := (s.setFld Fld.SDL_LINK_SYNC_MISSED l missed).setLink l { x with sent := none, good := 0 }
  let limit := if 2000 * 128 < x.window then 2 else 3
  if s.syncState l = sySynced ∧ limit ≤ missed then
    ((s.setFld Fld.SDL_LINK_SYNC_STATE l sySuspect).logEvent chipPlot 11 5 20 l).chooseParent
  else s

/-- Whether the chip takes its corrections from a link: its parent's, while it is synchronised (R272). -/
def State.isParent (s : State) (l : Nat) : Bool :=
  s.fld Fld.SDL_STATUS_PARENT 0 == l && s.fld Fld.SDL_STATUS_STATE 0 == sdSync && !s.isRoot

/-- A good exchange (R273, R276). -/
def State.goodExchange (s : State) (l : Nat) (theta delta : Int) : State :=
  let x := s.link l
  let st := s.syncState l
  let n := if st = syDormant then 1 else x.good + 1
  let s := s.setLink l { x with
    sent := none, lastGood := s.clock, good := n, delay0 := some (x.delay0.getD delta), theta := theta, beat := some s.clock }
  let s := s.setFld Fld.SDL_LINK_SYNC_MISSED l 0
  let s := if st = syResync then (if 2 ≤ n then s.setFld Fld.SDL_LINK_SYNC_STATE l sySynced else s)
    else if st = sySuspect then s.setFld Fld.SDL_LINK_SYNC_STATE l sySynced
    else if st = syDormant then s.setFld Fld.SDL_LINK_SYNC_STATE l syResync
    else s
  s.chooseParent

/-- Judges a reply (R273): timing first. The parent's offset is slewed out, but a parent more than 4,096 ticks away makes the chip drop its
work, step and rejoin (R271). An offset of more than 4 ticks counts as bad for a chip that is synchronised. -/
def State.judge (s : State) (l : Nat) (t1 t2 t3 t4 : Nat) : State :=
  let x := s.link l
  let theta : Int := ((t2 : Int) - t1) - ((t4 : Int) - t3)
  let delta : Int := ((t4 : Int) - t1) - ((t3 : Int) - t2)
  let d0 := x.delay0.getD x.trained
  let timely := decide (2 * ((t4 : Int) - t1) ≤ x.window) && decide ((delta - d0).natAbs ≤ 20 * 128)
  let synced := s.fld Fld.SDL_STATUS_STATE 0 == sdSync
  if !timely then s.badExchange l
  else if s.isParent l && decide (4096 * 128 < theta.natAbs) then
    let s := if s.holdsWork then s.dropWork else s
    (s.stepBy theta).setLink l { s.link l with sent := none, lastGood := s.clock, theta := 0, beat := some s.clock }
  else
    let s := if s.isParent l then { s with slew := theta.tdiv 128 } else s
    if synced && decide (4 * 128 < theta.natAbs) then s.badExchange l else s.goodExchange l theta delta

/-- SYNC_FLIT (R273, R274): a request is answered; a reply to the outstanding request is judged. A flit of another root is
answered and logged, and its sender never becomes the parent. -/
def execSyncFlit (l : LinkIx) (f : SyncFlit) (s : State) : Res :=
  if s.syncState l.val = syDown then .next s
  else
    let x := s.link l.val
    let s := s.setLink l.val { x with
      heard := true, partnerRoot := f.root, partnerDepth := f.depth, partnerSynced := f.flags.testBit 0,
      partnerPtp := f.flags.testBit 1 }
    let s := if f.root = s.rootChip then s else s.logEvent chipPlot 11 5 21 l.val
    if f.reply then
      match x.sent with
      | none => .next s
      | some t1 => if f.seqNo = x.seqNo then .next (s.judge l.val t1 f.t2 f.t3 s.time64) else .next s
    else
      let s := s.sendLink l.val { Msg.to .sync 0 0 x.partnerChip with
        data := s.syncBytes l.val 0x02 f.seqNo f.t1 s.time64 s.time64 }
      .next s

/-- EXCHANGE_MISS (R273, R276): no reply within W ticks of T1. -/
def execExchangeMiss (l : LinkIx) (s : State) : Res :=
  let x := s.link l.val
  match x.sent with
  | none => .next s
  | some t1 =>
    if s.syncState l.val = syDown ∨ 2 * ((s.time64 : Int) - t1) < x.window then .next s else .next (s.badExchange l.val)

/-- LINK_DORMANT (R276): a SUSPECT link with U > GUARD. -/
def execLinkDormant (l : LinkIx) (s : State) : Res :=
  if s.syncState l.val = sySuspect ∧ s.beyondGuard l.val = true then
    .next ((s.setFld Fld.SDL_LINK_SYNC_STATE l.val syDormant).setLink l.val { s.link l.val with good := 0 })
  else .next s

/-- Number of an agent in the latches. -/
def Agent.number : Agent → Nat
  | .mgmt => 0
  | .service => 1
  | .coreOther => 2
  | .pf0 => 3
  | .vf p => 4 + p.val

/-- SDL_TIME_LOW_READ (R270): the low half is returned, the high half latched for the agent. -/
def execSdlTimeLowRead (a : Agent) (s : State) : Res :=
  .next { s with rdata := BitVec.ofNat 32 s.sundial
                 latch := Sparse.set (fun _ => 0) s.latch a.number (s.sundial / 2 ^ 32 % 2 ^ 32) }

end Sys2Proof.Machine
end

