-- ==== Sys2Proof/Machine/KvmPages.lean ====
section
/-!
DEFINITION. Frames, pools, page tables and sequence records of the key-value manager (R140 to R150).
-/

namespace Sys2Proof.Machine
open Sys2Proof

/-- One GiB. -/
def gib : Nat := 2 ^ 30

/-! ### Pools (R145, R149, R361) -/

/-- The ranges of a plot's pool: 0 bonded DRAM, 1 stacks, 2 the hosted pool offered to peers, 3 host memory. Each pool takes the
last granules of its window, the hosted pool the last of the stack pool. -/
def Plot.poolRanges (q : Plot) (t : Nat) : List Range :=
  let at' (l : List Nat) (r : Nat) : Nat := l.getD r 0
  let regions : List Nat := [0, 1, 2, 3]
  if t = 0 then regions.map fun r =>
    ⟨Machine.dramBase r + (at' q.dramBase r + at' q.dramSize r - at' q.poolDram r) * gib, at' q.poolDram r * gib⟩
  else if t = 1 then regions.map fun r =>
    ⟨Machine.stackBase r + (at' q.stackBase r + at' q.stackSize r - at' q.poolStack r) * gib,
      (at' q.poolStack r - at' q.poolHosted r) * gib⟩
  else if t = 2 then regions.map fun r =>
    ⟨Machine.stackBase r + (at' q.stackBase r + at' q.stackSize r - at' q.poolHosted r) * gib, at' q.poolHosted r * gib⟩
  else if t = 3 then [⟨coldBase + q.coldFirst * 2 ^ 32, q.coldCount * 2 ^ 32⟩]
  else []

/-- Stores a pool record whole (R149). -/
def State.setPool (s : State) (p t : Nat) (x : Pool) : State :=
  { s with pools := Sparse.set (fun _ => Pool.empty) s.pools (4 * p + t) x }

/-- Frame uses of R145. -/
def useHosted : Nat := 3
def usePage : Nat := 0
def useBuffer : Nat := 1
def useTable : Nat := 2
def useGlobal : Nat := 4
def useTray : Nat := 5

/-- Counts `n` granules taken for a use: seed trays, global areas and buffers count as BUF (R149). -/
def Pool.take (x : Pool) (use n : Nat) : Pool :=
  let x := { x with free := x.free - n }
  if use = usePage then { x with page := x.page + n }
  else if use = useTable then { x with table := x.table + n }
  else if use = useHosted then { x with hosted := x.hosted + n }
  else { x with buf := x.buf + n }

/-- Counts `n` granules of a use given back. -/
def Pool.give (x : Pool) (use n : Nat) : Pool :=
  let x := { x with free := x.free + n }
  if use = usePage then { x with page := x.page - n }
  else if use = useTable then { x with table := x.table - n }
  else if use = useHosted then { x with hosted := x.hosted - n }
  else { x with buf := x.buf - n }

/-- `n` granules of a page go to DRAIN (R170). -/
def Pool.toDrain (x : Pool) (n : Nat) : Pool := { x with page := x.page - n, drain := x.drain + n }

/-- `n` granules leave DRAIN. -/
def Pool.fromDrain (x : Pool) (n : Nat) : Pool := { x with drain := x.drain - n, free := x.free + n }

/-- The pool tier of a local address. -/
def poolTier (a : Nat) : Nat :=
  match placeOf a with
  | .dram _ _ => 0
  | .cold _ _ => 3
  | _ => 1

/-- Places in a range where a frame of `size` bytes fits beside the allocated ones. -/
def State.placements (s : State) (r : Range) (size : Nat) : List Nat :=
  let used := (s.frames.filter fun e => e.2.allocated && decide (r.lo ≤ e.1) && decide (e.1 < r.lo + r.len)).map fun e =>
    (e.1, e.1 + frameBytes e.2.order)
  (r.lo :: used.map (·.2)).filter fun a =>
    decide (a + size ≤ r.lo + r.len) && used.all fun u => decide (a + size ≤ u.1) || decide (u.2 ≤ a)

/-- Marks the granules of a new frame: records it covers become continuation records (ORDER 0b11111), its own first granule's
GENERATION steps (R145). -/
def State.putFrame (s : State) (a size : Nat) (f : Frame) : State :=
  let old := (Table.get s.frames a).elim 0 (·.generation)
  let kept := s.frames.map fun e =>
    if a < e.1 ∧ e.1 < a + size then (e.1, { e.2 with order := 31, allocated := false }) else e
  { s with frames := Table.put kept a { f with generation := (old + 1) % 65536 } }

/-- Places where a frame of `size` bytes fits in a plot's pool, in one region where the caller names it (R145). -/
def State.framePlaces (s : State) (q : Plot) (t size : Nat) (region : Option Nat) : List Nat :=
  ((q.poolRanges t).zipIdx.filter fun e => region.all (· == e.2)).flatMap fun e => s.placements e.1 size

/-- Allocates a frame from a plot's pool (R145): anywhere that fits, in one region where the caller names it. The manager's choice
among the places is open. -/
def State.allocFrame (s : State) (p t order use seqNo : Nat) (region : Option Nat := none) : Option (Nat × State) :=
  match s.plot p with
  | none => none
  | some q =>
    let size := frameBytes order
    let places := s.framePlaces q t size region
    if order > 16 then none
    else
      match places[Config.allocStart s.free % places.length]? with
      | none => none
      | some a =>
        let f : Frame := ⟨0, p, true, false, use, order, 0, 0, s.chipNo, seqNo, 0, s.clock⟩
        some (a, (({ s with free := s.free + 1 }).putFrame a size f).setPool p t ((s.pool p t).take use (2 ^ order)))

/-- Frees an allocated frame: its record stays with ALLOCATED clear, its granules return to FREE. -/
def State.freeFrame (s : State) (a : Nat) : State :=
  match Table.get s.frames a with
  | none => s
  | some f =>
    if !f.allocated then s
    else
      let t := if f.use = useHosted then 2 else poolTier a
      let s := { s with frames := Table.put s.frames a { f with allocated := false, sealed := false } }
      s.setPool f.owner t ((s.pool f.owner t).give f.use (2 ^ f.order))

/-- Puts a page's frame into DRAIN until its HOLD tick (R170). -/
def State.drainFrame (s : State) (p a hold : Nat) : State :=
  match Table.get s.frames a with
  | none => s
  | some f =>
    let t := poolTier a
    { s.setPool p t ((s.pool p t).toDrain (2 ^ f.order)) with draining := s.draining ++ [⟨p, t, a, none, hold⟩] }

/-! ### Handles (R146) -/

/-- Base of a handle's tier. -/
def handleBase (t : Nat) : Option Nat :=
  if t = 0 then some (dramBase 0) else if t = 1 then some 0 else if t = 3 then some coldBase else none

/-- The handle of an allocated frame. -/
def State.handleOf (s : State) (a : Nat) : Nat :=
  let t := poolTier a
  (Table.get s.frames a).elim 0 (·.generation) * 2 ^ 48 + t * 2 ^ 44 + (a - (handleBase t).getD 0) / 4096

/-- Fields of a handle. -/
def hGen (h : Nat) : Nat := bitsAt h 48 16
def hTier (h : Nat) : Nat := bitsAt h 44 4
def hGranule (h : Nat) : Nat := bitsAt h 0 36

/-- The local address a handle names. -/
def hAddr (h : Nat) : Nat := (handleBase (hTier h)).getD 0 + hGranule h * 4096

/-- The frame record of a handle's granule (R148): none outside the plot's windows; a granule inside a frame, allocated or
freed, reads ORDER 0b11111, one never allocated an all-zero record. -/
def State.recordOf (s : State) (p h : Nat) : Option Frame :=
  let a := hAddr h
  if (handleBase (hTier h)).isNone || bitsAt h 36 8 != 0 || !s.ownsByte p a then none
  else
    match Table.get s.frames a with
    | some f => some f
    | none =>
      let inside := s.frames.any fun e => e.2.order != 31 && decide (e.1 < a) && decide (a < e.1 + frameBytes e.2.order)
      some ⟨0, 0, false, false, 0, if inside then 31 else 0, 0, 0, 0, 0, 0, 0⟩

/-- What check_free answers (R148). -/
inductive FreeCheck where
  | ok
  | bad (kind status : Nat)
  deriving DecidableEq, Repr

/-- check_free of R148; `hosted` is the owner's chip and plot for HOST_FREE. -/
def State.checkFree (s : State) (p h : Nat) (hosted : Option (Nat × Nat)) : FreeCheck :=
  match s.recordOf p h with
  | none => .bad 0x2 0x07
  | some f =>
    if f.order = 31 then .bad 0x2 0x07
    else
      let owned := match hosted with
        | some (chip, plot) => f.ownerChip == chip && f.ownerPlot == plot
        | none => f.owner == p && f.ownerChip == s.chipNo
      if !owned then .bad 0x2 0x07
      else if f.generation ≠ hGen h then .bad 0x3 0x08
      else if !f.allocated then .bad 0x1 0x06
      else if f.use ≠ (if hosted.isSome then useHosted else useBuffer) then .bad 0x4 0x07
      else .ok

/-- Records a failing free or a refused shared mapping (R148, R172). -/
def State.badFree (s : State) (p kind h : Nat) : State :=
  let s := s.addSat Fld.KVM_BAD_FREE_COUNT_COUNT p 1
  let s := s.recordInfo .KVM_BAD_FREE_INFO p
    (kind * 2 ^ 24 + hTier h * 2 ^ 20 + (if kind = 0x2 then 0 else hGranule h % 2 ^ 20))
  s.logEvent p 6 2 (0x100 + kind) h

/-! ### Sequences (R140 to R142) -/

/-- Key of a plot's sequence. -/
def seqKey (p n : Nat) : Nat := 65536 * p + n

def State.seq (s : State) (p n : Nat) : Option Seqn := Table.get s.seqs (seqKey p n)

def State.setSeq (s : State) (p n : Nat) (q : Seqn) : State := { s with seqs := Table.put s.seqs (seqKey p n) q }

/-! ### Page table entries (R143) -/

structure Pte where
  valid : Bool
  tier : Nat
  cutting : Bool
  moving : Bool
  pinned : Bool
  addr : Nat
  chip : Nat
  rankc : Nat
  epoch : Nat
  hold : Nat
  score : Nat
  deriving DecidableEq, Repr

/-- Decodes the 32 bytes of an entry. -/
def Pte.decode (n : Nat) : Pte :=
  ⟨n.testBit 63, bitsAt n 60 3, n.testBit 59, n.testBit 58, n.testBit 57, bitsAt n 0 48, bitsAt n 112 16, bitsAt n 96 3,
    bitsAt n 64 32, bitsAt n 128 64, bitsAt n 192 32⟩

/-- The 32 bytes of an entry. -/
def Pte.encode (e : Pte) : Nat :=
  (if e.valid then 2 ^ 63 else 0) + e.tier * 2 ^ 60 + (if e.cutting then 2 ^ 59 else 0) + (if e.moving then 2 ^ 58 else 0) +
    (if e.pinned then 2 ^ 57 else 0) + e.addr + e.epoch * 2 ^ 64 + e.rankc * 2 ^ 96 + e.chip * 2 ^ 112 + e.hold * 2 ^ 128 +
    e.score * 2 ^ 192

/-- The address of entry `v`, where its leaf exists (R143). -/
def State.pteAddr (s : State) (q : Seqn) (v : Nat) : Option Nat :=
  let d := s.readLe (q.dir + 8 * (v / 128)) 8
  if d.testBit 63 then some (d % 2 ^ 48 + 32 * (v % 128)) else none

/-- Reads entry `v`; an absent leaf reads as invalid. -/
def State.pte (s : State) (q : Seqn) (v : Nat) : Pte :=
  match s.pteAddr q v with
  | some a => Pte.decode (s.readLe a 32)
  | none => Pte.decode 0

/-- Writes entry `v` whole. -/
def State.setPte (s : State) (q : Seqn) (v : Nat) (e : Pte) : State :=
  match s.pteAddr q v with
  | some a => s.putLe a 32 e.encode
  | none => s

/-- The leaf of entry `v`, allocated from the plot's stack pool and zeroed when its first entry is mapped (R143). -/
def State.needLeaf (s : State) (p n : Nat) (q : Seqn) (v : Nat) : Option State :=
  if (s.pteAddr q v).isSome then some s
  else
    match s.allocFrame p 1 0 useTable n with
    | none => none
    | some (a, s) => some ((s.clearRange a 4096).putLe (q.dir + 8 * (v / 128)) 8 (2 ^ 63 + a))

/-- Maps a new page in the home tier at epoch 1 with score +0 (R144, R163). -/
def State.mapNew (s : State) (p n : Nat) (q : Seqn) (v : Nat) : Option State :=
  if (s.pte q v).valid then some s
  else
    match s.needLeaf p n q v with
    | none => none
    | some s =>
      match s.allocFrame p q.home (orderFor (pageBytes q)) usePage n with
      | none => none
      | some (a, s) =>
        let s := match Table.get s.frames a with
          | some f => { s with frames := Table.put s.frames a { f with epoch := 1 } }
          | none => s
        some (s.setPte q v ⟨true, q.home, false, false, false, a, 0, 0, 1, 0, 0⟩)

/-- Maps a list of pages, all or none. -/
def State.mapAll (s : State) (p n : Nat) (q : Seqn) : List Nat → Option State
  | [] => some s
  | v :: vs => match s.mapNew p n q v with
    | none => none
    | some s => State.mapAll s p n q vs

/-- The virtual pages of page index `j` in every layer and group, ascending. -/
def pagesAt (q : Seqn) (j : Nat) : List Nat := (List.range (q.layers * q.groups)).map fun k => k * npages q + j

/-- Page indexes that cover slice offsets `o` to `o + n − 1`. -/
def pageSpan (q : Seqn) (o n : Nat) : List Nat :=
  if n = 0 then [] else (List.range ((o + n - 1) / pagePos q + 1)).drop (o / pagePos q)

/-- The free bytes that stand for data on another chip which the manager reads in the course of a command. -/
def State.peerBytes (s : State) (n : Nat) : List Byte × State :=
  ((List.range n).map fun i => BitVec.ofNat 8 (Config.freeValue (s.free + i)), { s with free := s.free + n })

/-- Reads bytes of a page at an offset; a page on a peer is read over the fabric. -/
def State.pageRead (s : State) (e : Pte) (off n : Nat) : List Byte × State :=
  if e.tier = 2 then s.peerBytes n else (s.loadBytes (e.addr + off) n, s)

/-- Writes bytes of a page at an offset; a page on a peer is written over the fabric (R302). -/
def State.pageWrite (s : State) (p : Nat) (e : Pte) (off : Nat) (bs : List Byte) : State :=
  if e.tier = 2 then s.sendParts { Msg.to .write 5 p e.chip with
    addr := e.addr + off, epoch := e.epoch, gen := s.chipTag, data := bs }
  else s.putBytes (e.addr + off) bs

/-! ### The sorted global list (R154) -/

/-- First entry of the sorted global list inside page `j`, and the number of such entries (R151). -/
def xrange (q : Seqn) (j : Nat) : Nat × Nat :=
  let lo := q.base + j * pagePos q
  ((q.globals.filter fun e => decide (e.1 < lo)).length,
    (q.globals.filter fun e => decide (lo ≤ e.1) && decide (e.1 < lo + pagePos q)).length)

/-- Tiles of the global area per layer and group. -/
def gtiles (q : Seqn) : Nat := ceilDiv q.gquota 64

/-- Bytes of a global tile: 64 positions in the page's order. -/
def gtileBytes (q : Seqn) : Nat := 64 * heads q * dims q * (kSize q + vSize q)

/-- Offset of tile `a` of layer and group number `k` in the global area. -/
def gtileOff (q : Seqn) (k a : Nat) : Nat := (k * gtiles q + a) * gtileBytes q

/-- Offset of the position array of tile `a`, behind every tile (notes/assumptions/21). -/
def gposOff (q : Seqn) (a : Nat) : Nat := q.layers * q.groups * gtiles q * gtileBytes q + 256 * a

/-- Bytes of the global area. -/
def gareaBytes (q : Seqn) : Nat := gposOff q (gtiles q)

/-! ### The seed tray (R129, R130) -/

/-- Tray STATE codes (R130). -/
def tsEmpty : Nat := 0
def tsFilling : Nat := 1
def tsVerified : Nat := 2
def tsCommitting : Nat := 3

end Sys2Proof.Machine
end

