-- ==== Sys2Proof/Machine/KvmRing.lean ====
section
/-!
DEFINITION. The command rings of the key-value manager (R135 to R138): taking commands in round-robin order, completing them in
ring order, the buffers (R146, R148) and the length buckets (R155).
-/

namespace Sys2Proof.Machine
open Sys2Proof

/-! ### Who reaches a plot's registers (R425, R426) -/

/-- Whether an agent reaches the instance of plot `p`: its own virtual function, or the privileged view. -/
def State.plotReach (s : State) (a : Agent) (p : Nat) : Bool :=
  match a with
  | .vf q => q.val == p
  | _ => s.privOk a

/-- A write that an agent may not make: recorded only in a writing plot's own log (R426). -/
def State.refusedWrite (s : State) (a : Agent) (offset : Nat) : State :=
  match a with
  | .vf q => s.logIgnored q.val 13 offset
  | _ => s

/-! ### Plot states (R359) -/

def plFree : Nat := 0
def plActive : Nat := 1
def plStopped : Nat := 2
def plClearing : Nat := 3

/-- Whether the rings of a plot are read (R359). -/
def State.ringsOpen (s : State) (p : Nat) : Bool :=
  s.fld Fld.PLT_STATE_STATE p == plActive || s.fld Fld.PLT_STATE_STATE p == plStopped

/-! ### Entries (R137) -/

/-- A command entry taken from a ring: the number under which its completion is owed, and its 64 bytes as a number. -/
structure Cmd where
  id : Nat
  plot : Nat
  word : Nat
  deriving DecidableEq, Repr

/-- `n` bytes of the entry from offset `o`. -/
def Cmd.arg (c : Cmd) (o n : Nat) : Nat := bitsAt c.word (8 * o) (8 * n)

def Cmd.op (c : Cmd) : Nat := c.arg 0 1
def Cmd.seqNo (c : Cmd) : Nat := c.arg 2 2
def Cmd.tag (c : Cmd) : Nat := c.arg 4 4

/-- Whether byte 1 and every byte from offset `o` on are zero (R137). -/
def Cmd.cleanFrom (c : Cmd) (o : Nat) : Bool := c.arg 1 1 == 0 && c.arg o (64 - o) == 0

/-- The opcodes of the manual: the manager's (R137), retrieval (R200), SCHED_WRITE (R280), the chain commands (R315, R316), FLD_SEND
(R353), LOG_READ (R421), SFU_LOAD and SFU_UNLOAD (R368). -/
def knownCommand (op : Nat) : Bool :=
  (decide (0x01 ≤ op) && decide (op ≤ 0x0C)) || (decide (0x10 ≤ op) && decide (op ≤ 0x13)) ||
  (decide (0x20 ≤ op) && decide (op ≤ 0x27)) || op == 0x30 || op == 0x40 || op == 0x41 || op == 0x42 || op == 0x50 ||
  op == 0x60 || op == 0x70 || op == 0x71

/-- WALK and MIGRATE complete when their work is done, every other command in ring order (R135). -/
def orderedCommand (op : Nat) : Bool := op != 0x05 && op != 0x0B

/-- Commands that name a sequence in SEQ. -/
def seqCommand (op : Nat) : Bool :=
  op == 0x02 || op == 0x03 || op == 0x04 || op == 0x05 || op == 0x06 || op == 0x07 || op == 0x08 || op == 0x0B ||
  (decide (0x10 ≤ op) && decide (op ≤ 0x13))

/-! ### Completions (R136, R137) -/

/-- Writes the completions that are due: a command that completes in ring order waits for the earlier ones of its plot. -/
def State.flushGo (p : Nat) : List Owed → Bool → State → State
  | [], _, s => s
  | o :: os, blocked, s =>
    let keep := { s with kvmOwed := s.kvmOwed ++ [o] }
    if o.plot ≠ p then State.flushGo p os blocked keep
    else match o.result with
      | none => State.flushGo p os (blocked || o.ordered) keep
      | some (st, r) =>
        if o.ordered && blocked then State.flushGo p os blocked keep
        else State.flushGo p os blocked (s.complete p o.tag st r)

def State.flush (s : State) (p : Nat) : State := State.flushGo p s.kvmOwed false { s with kvmOwed := [] }

/-- Ends the command owed under `id` with a STATUS and a RESULT. -/
def State.finish (s : State) (id status result : Nat) : State :=
  match s.kvmOwed.find? fun o => o.id == id with
  | none => s
  | some o =>
    ({ s with kvmOwed := s.kvmOwed.map fun (x : Owed) => if x.id = id then { x with result := some (status, result) } else x }).flush o.plot

/-- Ends a command whose RESULT the manual does not state: a free value stands there (notes/assumptions/23). -/
def State.finishOpen (s : State) (id status : Nat) : State :=
  let (v, s) := s.fresh
  s.finish id status v

/-! ### Taking commands (R135, R136) -/

/-- The head entry of a plot's command ring, if it holds one. -/
def State.headEntry (s : State) (p : Nat) : Option Nat :=
  match s.plot p with
  | none => none
  | some q =>
    let h := s.ringIx q ringCmdHead q.kvmOrder
    if h = q.cmdTail then none else some (s.readLe (q.cmdAddr h) 64)

/-- Whether the completion ring has an entry beyond those owed (R136). -/
def State.completionRoom (s : State) (p : Nat) : Bool :=
  match s.plot p with
  | none => false
  | some q =>
    decide ((s.kvmOwed.filter fun o => o.plot == p).length <
      ringFree q.kvmOrder (s.ringIx q ringCplHead q.kvmOrder) (s.ringIx q ringCplTail q.kvmOrder))

/-- The sequences that an entry names besides SEQ (R135): the source of COPY_PREFIX, the list of BUCKET. -/
def State.alsoNamed (s : State) (p w : Nat) : List Nat :=
  let arg := fun (o n : Nat) => bitsAt w (8 * o) (8 * n)
  if arg 0 1 = 0x08 then [arg 8 2]
  else if arg 0 1 = 0x0C ∧ s.ownsRange p (arg 8 8) (2 * arg 16 2) = true then
    (List.range (arg 16 2)).map fun i => s.loadLe (arg 8 8 + 2 * i) 2
  else []

/-- Whether a command that names a sequence may start: the sequence has no running MIGRATE, and for APPEND and TRAY_COMMIT no running
commit (R135, R157). -/
def Seqn.startable (q : Seqn) (op : Nat) : Bool :=
  q.busy == 0 && ((op != 0x03 && op != 0x13) || q.commit.isNone)

/-- Whether the manager can take the plot's head command now: running, room for its completion (R136), its sequence free; for MIGRATE
fewer than two batches open and room for their journal entries (R169). -/
def State.takeable (s : State) (p : Nat) : Bool :=
  s.fld Fld.KVM_STATUS_STATE 0 == 1 && s.ringsOpen p && s.completionRoom p &&
  (match s.headEntry p with
    | none => false
    | some w =>
      let op := bitsAt w 0 8
      (!seqCommand op || (match s.seq p (bitsAt w 16 16) with
        | some q => q.startable op
        | none => true)) &&
      ((s.alsoNamed p w).all fun n => (s.seq p n).elim true fun q => q.busy == 0) &&
      (op != 0x0B || (decide (s.batches.length < 2) && decide (s.journal.length ≤ 64))))

/-- The plot whose command is taken next (R135). -/
def State.kvmNext (s : State) : Option Nat :=
  ((List.range 8).map fun i => (s.kvmTurn + 1 + i) % 8).find? s.takeable

/-- Takes the head entry of plot `p`: CMD_HEAD steps, its completion is owed. -/
def State.takeHead (s : State) (p : Nat) : Option (Cmd × State) :=
  match s.plot p, s.headEntry p with
  | some q, some w =>
    let h := s.ringIx q ringCmdHead q.kvmOrder
    let s := s.putLe (q.rings + ringCmdHead) 4 ((h + 1) % 2 ^ q.kvmOrder)
    some (⟨s.kvmSeq, p, w⟩, { s with
      kvmTurn := p, kvmSeq := s.kvmSeq + 1
      kvmOwed := s.kvmOwed ++ [⟨s.kvmSeq, p, bitsAt w 32 32, orderedCommand (bitsAt w 0 8), none⟩] })
  | _, _ => none

/-- Puts a taken command back at the head of its ring: it waits there while the pressure it met is handled (R161;
notes/assumptions/56). -/
def State.putBack (s : State) (c : Cmd) : State :=
  match s.plot c.plot with
  | none => s
  | some q =>
    { s with kvmOwed := s.kvmOwed.filter fun o => o.id != c.id }.putLe (q.rings + ringCmdHead) 4
      ((s.ringIx q ringCmdHead q.kvmOrder + 2 ^ q.kvmOrder - 1) % 2 ^ q.kvmOrder)

/-- Entries with an unknown OPCODE at the front complete with BADARG as their turns come (R137). -/
def State.dropUnknown : Nat → State → State
  | 0, s => s
  | f + 1, s =>
    match s.kvmNext with
    | none => s
    | some p =>
      match s.headEntry p with
      | none => s
      | some w =>
        if knownCommand (bitsAt w 0 8) then s
        else match s.takeHead p with
          | none => s
          | some (c, s) => State.dropUnknown f (s.finishOpen c.id stBadArg)

/-- The most entries the rings can hold. -/
def ringFuel : Nat := 8 * 4096

/-- Takes plot `p`'s head command when it is its turn and the command has opcode `op`. -/
def State.take (s : State) (p op : Nat) : Option (Cmd × State) :=
  if s.kvmNext ≠ some p then none
  else match s.headEntry p with
    | none => none
    | some w => if bitsAt w 0 8 = op then s.takeHead p else none

/-- Runs a ring command: taken when its turn has come, a non-zero unused byte or an argument out of range completes with BADARG;
else its body runs. -/
def State.runCommand (s : State) (p op : Nat) (ok : Cmd → Bool) (body : Cmd → State → State) : State :=
  match s.take p op with
  | none => s
  | some (c, s) =>
    let s := if ok c then body c s else s.finishOpen c.id stBadArg
    State.dropUnknown ringFuel s

/-- The first poisoned line of a sequence's page table, directory or leaf (R143, R259). -/
def State.tablePoison (s : State) (q : Seqn) : Option Nat :=
  let n := ceilDiv (vpages q) 128
  (s.poison.find? fun e => e.2 && ((decide (q.dir < e.1 * 64 + 64) && decide (e.1 * 64 < q.dir + 8 * n)) ||
    (List.range n).any fun i =>
      let d := s.readLe (q.dir + 8 * i) 8
      d.testBit 63 && decide (d % 2 ^ 48 ≤ e.1 * 64) && decide (e.1 * 64 < d % 2 ^ 48 + 4096))).map fun e => e.1 * 64

/-- Runs a command on a sequence: NOSEQ, LOST (R138) before its body; one that meets a poisoned line of the page table records it and
ends with STATE (R259, R260; notes/assumptions/57). -/
def State.runSeqCommand (s : State) (p op : Nat) (ok : Cmd → Bool) (body : Cmd → Seqn → State → State) : State :=
  s.runCommand p op ok fun c s =>
    match s.seq p c.seqNo with
    | none => s.finishOpen c.id stNoSeq
    | some q =>
      if q.lost ∧ op ≠ 0x02 then s.finishOpen c.id stLost
      else match s.tablePoison q with
        | some line => (s.recordEcc line 2 false).finishOpen c.id stState
        | none => body c q s

/-- KVM_DOORBELL (R135, R172): the plot's TAIL; a value at or beyond the ring size is ignored and logged. -/
def execKvmDoorbell (a : Agent) (p : PlotIx) (v : W32) (s : State) : Res :=
  let off := Reg.KVM_DOORBELL.offset + 4 * p.val
  if !s.plotReach a p.val then .next (s.refusedWrite a off)
  else
    match s.plot p.val with
    | none => .next s
    | some q =>
      if !s.ringsOpen p.val then .next s
      else
        let t := bitsAt v.toNat 0 12
        if 2 ^ q.kvmOrder ≤ t then .next (s.logIgnored p.val 6 off)
        else .next (State.dropUnknown ringFuel (s.setPlot p.val { q with cmdTail := t }))

/-! ### Buffers (R146, R148) -/

/-- The tiers a plot's own handles name. -/
def bufferTier (t : Nat) : Bool := t == 0 || t == 1 || t == 3

/-- BUF_FREE (R148). -/
def execBufFree (p : PlotIx) (s : State) : Res :=
  .next (s.runCommand p.val 0x0A (fun c => c.cleanFrom 16) fun c s =>
    let h := c.arg 8 8
    match s.checkFree p.val h none with
    | .ok => (s.freeFrame (hAddr h)).finishOpen c.id stOk
    | .bad kind status => (s.badFree p.val kind h).finishOpen c.id status)

/-! ### Buckets (R155) -/

/-- Bucket of a BOUND. -/
def bucketOf (bound : Nat) : Nat := if bound ≤ 64 then 6 else Nat.log2 (bound - 1) + 1

/-- Inserts into the order of R155: descending bucket, then ascending SEQ. -/
def bucketInsert (x : Nat × Nat) : List (Nat × Nat) → List (Nat × Nat)
  | [] => [x]
  | y :: ys => if y.1 < x.1 ∨ (y.1 = x.1 ∧ x.2 ≤ y.2) then x :: y :: ys else y :: bucketInsert x ys

/-- BUCKET (R155): the list of u16 sequence numbers is written back sorted. -/
def execBucket (p : PlotIx) (s : State) : Res :=
  .next (s.runCommand p.val 0x0C (fun c => c.cleanFrom 18) fun c s =>
    let a := c.arg 8 8
    let n := c.arg 16 2
    if !s.ownsRange p.val a (2 * n) then s.finishOpen c.id stBadArg
    else
      let s := s.noteRead a (2 * n)
      let l := (List.range n).map fun i => s.loadLe (a + 2 * i) 2
      match l.mapM fun k => (s.seq p.val k).map fun q => (bucketOf q.bound, k, q.lost) with
      | none => s.finishOpen c.id stNoSeq
      | some bs =>
        if bs.any fun e => e.2.2 then s.finishOpen c.id stLost
        else
          let sorted := bs.foldl (fun acc e => bucketInsert (e.1, e.2.1) acc) []
          (s.putBytes a (sorted.flatMap fun e => leBytes 2 e.2)).finishOpen c.id stOk)

end Sys2Proof.Machine
end

