-- ==== Sys2Proof/Machine/LiveIndex.lean ====
section
/-!
DEFINITION. Index records and live lists (R197, R199, R202, R205, R217): stamps, appends, tombstones, the signature of a page
(R216) and SIGNATURE_APPEND.
-/

namespace Sys2Proof.Machine
open Sys2Proof

/-! ### Records -/

def State.index (s : State) (n : Nat) : Option Index := Table.get s.indexes n

def State.setIndex (s : State) (n : Nat) (x : Index) : State := { s with indexes := Table.put s.indexes n x }

/-- An index of a plot that its commands may name: one the plot or the manager created for it, not being destroyed (R197, R201). -/
def State.plotIndex (s : State) (p n : Nat) : Option Index :=
  match s.index n with
  | some x => if x.plot = p ∧ x.dying.isNone then some x else none
  | none => none

/-- A live list at its creation: an initial base published at the creation tick (notes/assumptions/24). -/
def LiveList.fresh (region tick : Nat) (dir : ListDir) : LiveList := ⟨region, [⟨dir, tick, []⟩], [], [], 0, tick, false, false⟩

/-- An empty list in a region. -/
def ListDir.none (region : Nat) : ListDir := ⟨0, 0, 0, region⟩

/-- The live index that SEQ_CREATE makes for a sequence with LIVE (R217). -/
def liveOf (p : Nat) (q : Seqn) (tick : Nat) : Index where
  plot := p
  live := true
  sideCap := 1024
  count := q.layers * q.groups
  corpus := []
  staged := none
  swap := none
  owed := none
  lists := (List.range (q.layers * q.groups)).map fun n => LiveList.fresh (n % 4) tick (ListDir.none (n % 4))
  epoch := 0
  dying := none
  ofSeq := true

/-! ### Changes of a live list (R199, R202) -/

/-- The stamp a change receives (R202). -/
def LiveList.stamp (l : LiveList) (requested : Nat) : Nat := max requested (max (l.lastSnap + 1) (l.lastStamp + 1))

/-- The compaction thresholds of R199. -/
def LiveList.watch (cap : Nat) (l : LiveList) : LiveList :=
  { l with
    wanted := l.wanted || decide (3 * cap ≤ 4 * l.side.length) || decide (3072 ≤ l.tombs.length)
    promoted := l.promoted || decide (15 * cap ≤ 16 * l.side.length) }

/-- Appends an entry to list `n`; none when the side list is full (R199, R202). -/
def Index.append (x : Index) (n code id requested : Nat) : Option Index :=
  match x.lists[n]? with
  | none => none
  | some l =>
    if x.sideCap ≤ l.side.length then none
    else
      let st := l.stamp requested
      let l := LiveList.watch x.sideCap { l with side := l.side ++ [⟨code, id, st⟩], lastStamp := st }
      some { x with lists := x.lists.set n l }

/-- Posts a tombstone in list `n`; none when the set is full. -/
def Index.bury (x : Index) (n id requested : Nat) : Option Index :=
  match x.lists[n]? with
  | none => none
  | some l =>
    if 4096 ≤ l.tombs.length then none
    else
      let st := l.stamp requested
      let l := LiveList.watch x.sideCap { l with tombs := l.tombs ++ [⟨id, st⟩], lastStamp := st }
      some { x with lists := x.lists.set n l }

/-- Whether the eviction of a page of list `n` can post its tombstone now. -/
def State.canBury (s : State) (q : Seqn) (n : Nat) : Bool :=
  match q.liveIndex.bind s.index with
  | none => true
  | some x => match x.lists[n]? with
    | some l => decide (l.tombs.length < 4096)
    | none => true

/-- The tombstone of an evicted page at its eviction's commit tick (R160, R217). -/
def State.buryPage (s : State) (q : Seqn) (v : Nat) : State :=
  match q.liveIndex with
  | none => s
  | some n => match s.index n with
    | none => s
    | some x => match x.bury (v / npages q) (q.base + v % npages q * pagePos q) s.sundial with
      | some x => s.setIndex n x
      | none => s

/-! ### Signatures (R216) -/

/-- Formats of keys and values (R140). -/
def kFmt (q : Seqn) : Fmt := if q.kfmt = 0 then .e4m3 else if q.kfmt = 1 then .e5m2 else .bf16

def vFmt (q : Seqn) : Fmt := if q.vfmt = 0 then .e4m3 else if q.vfmt = 1 then .e5m2 else if q.vfmt = 2 then .bf16 else .fp16

/-- Element `j` of a run of bytes. -/
def elemOf (f : Fmt) (bs : List Byte) (j : Nat) : Val :=
  decodeVal f (leNat ((bs.drop (j * f.bytesOf 1)).take (f.bytesOf 1)))

/-- One FP32 addition, rounded once. -/
def add32 (a : Nat × NumFlags) (v : Val) : Nat × NumFlags :=
  let sum := Val.add (decodeVal .fp32 a.1) v
  let r := rne32 sum.1
  (r.1, a.2 ||| sum.2 ||| r.2)

/-- The sum of a page's keys, element by element (R216 step 1): one running sum over the positions of a head in ascending order, then
over the heads (notes/assumptions/25). `keys` holds the key block; the first term is the converted key itself. -/
def keySum (q : Seqn) (keys : List Byte) : List (Nat × NumFlags) :=
  let d := dims q
  (List.range d).map fun e =>
    let terms := (List.range (heads q)).flatMap fun h => (List.range (pagePos q)).map fun i =>
      elemOf (kFmt q) keys ((h * pagePos q + i) * d + e)
    match terms with
    | [] => (0, 0)
    | t :: ts => ts.foldl add32 (rne32 t)

/-- A bit of the signature: its product is greater than zero (R216 step 4). -/
def signatureBit (c : Nat) : Bool :=
  let r := decodeVal .fp32 c
  !r.isNan && !r.isZero && !r.sign

/-- Address of element (e, i) of the projection of list `n`: d × 256 elements in bfloat16, row by row, the lists' projections one
after another (notes/assumptions/25). -/
def projAddr (base : Nat) (q : Seqn) (n e i : Nat) : Nat := base + 2 * ((n * dims q + e) * 256 + i)

/-- The signature of a page whose key block is `keys`, and the flags of its arithmetic (R53, R216). -/
def State.signature (s : State) (base : Nat) (q : Seqn) (n : Nat) (keys : List Byte) : Nat × NumFlags :=
  let sums := keySum q keys
  let halves := sums.map fun c => convertTo .bf16 (decodeVal .fp32 c.1)
  let x := halves.map fun c => (decodeVal .bf16 c.1, (0 : NumFlags))
  let products := (List.range 256).map fun i =>
    dotAcc none x ((List.range (dims q)).map fun e => (decodeVal .bf16 (s.loadLe (projAddr base q n e i) 2), (0 : NumFlags)))
  (products.foldr (fun r acc => (signatureBit r.1).toNat + 2 * acc) 0,
    ((sums ++ halves ++ products).map (·.2)).foldl (· ||| ·) 0)

/-- Whether a list already holds an ID with no later tombstone, in its side list or its base (R217). -/
def State.listHolds (s : State) (l : LiveList) (id : Nat) : Bool :=
  (l.side.any fun e => e.id == id && !(l.tombs.any fun t => t.id == id && decide (e.stamp < t.stamp))) ||
    (match l.versions with
      | v :: _ => (List.range v.dir.count).any fun k => s.loadLe (v.dir.ids + 8 * k) 8 == id &&
          !(l.tombs.any fun t => t.id == id && decide (v.tick < t.stamp))
      | [] => false)

/-- The end of a signing task (R216, R217): its signature `code` is appended with its commit tick; a full side list delays the append. -/
def State.appendSignature (s : State) (j : SignJob) (n : Nat) (x : Index) (ln id code : Nat) : State :=
  match x.append ln code id j.tick with
  | some x => s.setIndex n x
  | none => { s.setBit Fld.RCL_PLOT_FLAGS_SIDE_FULL j.plot true with signing := s.signing ++ [{ j with code := some code }] }

/-- SIGNATURE_APPEND (R160, R216, R217): the oldest signing task, on cell `c` of its plot, ends and its signature is appended; one whose
append is delayed keeps its signature. A replayed append is dropped where its list already holds the ID; a poisoned line of the page or of
the projection ends the task without a signature (R259). -/
def execSignatureAppend (c : CellIx) (s : State) : Res := s.byService <|
  match s.signing with
  | [] => .next s
  | j :: rest =>
    if s.ownerOfCell c.val != some j.plot then .next s
    else
      let s := { s with signing := rest }
      match s.seq j.plot j.seqNo, s.plot j.plot with
      | some q, some pl =>
        match q.liveIndex with
        | none => .next s
        | some n => match s.index n with
          | none => .next s
          | some x =>
            let ln := j.page / npages q
            let id := q.base + j.page % npages q * pagePos q
            if j.replay && (x.lists[ln]?).any fun l => s.listHolds l id then
              .next (s.setBit Fld.RCL_PLOT_FLAGS_REPLAY_DROP j.plot true)
            else
              let e := s.pte q j.page
              if !e.valid then .next s
              else match j.code with
                | some code => .next (s.appendSignature j n x ln id code)
                | none =>
                  let page := if e.cutting || e.tier == 2 then none else s.firstPoison e.addr (keyBlock q)
                  match page.or (s.firstPoison (projAddr pl.sigProj q ln 0 0) (512 * dims q)) with
                  | some line => .next (s.recordEcc line 2 false)
                  | none =>
                    let (keys, s) := if e.cutting then s.peerBytes (keyBlock q) else s.pageRead e 0 (keyBlock q)
                    let r := s.signature pl.sigProj q ln keys
                    .next ((s.addNumFlags c.val r.2).appendSignature j n x ln id r.1)
      | _, _ => .next s

end Sys2Proof.Machine
end

