-- ==== Sys2Proof/Machine/KvmMove.lean ====
section
/-!
DEFINITION. Page moves under the journal (R165 to R171): spills, prefetches, migrations and conversions, the hosting messages, the
frames in DRAIN, and the handling of memory pressure (R161, R162).
-/

namespace Sys2Proof.Machine
open Sys2Proof

/-! ### Page descriptors and persistent streams (R151, R153, R240) -/

/-- Bytes a page holds in its present form. -/
def formBytes (q : Seqn) (e : Pte) : Nat := if e.cutting then cutBytes q e.rankc else pageBytes q

/-- The 64 bytes of a page descriptor for page `j` of list `k` (R151). -/
def pageDesc (p n : Nat) (q : Seqn) (k j : Nat) (e : Pte) (kind mask deadline walkSeq : Nat) : Nat :=
  let x := xrange q j
  e.addr + e.chip * 2 ^ 48 + e.epoch * 2 ^ 64 + (q.base + j * pagePos q) * 2 ^ 96 + n * 2 ^ 128 +
    (k / q.groups) * 2 ^ 144 + (k % q.groups) * 2 ^ 152 + q.pglog * 2 ^ 160 +
    (e.tier + (if e.cutting then 8 else 0) + kind * 16) * 2 ^ 168 + e.rankc * 2 ^ 176 + p * 2 ^ 184 +
    (k * npages q + j) * 2 ^ 192 + x.1 * 2 ^ 224 + x.2 * 2 ^ 240 + mask * 2 ^ 256 + deadline * 2 ^ 384 + walkSeq * 2 ^ 448

/-- Whether entry `d` of a descriptor table names the page: a page of the sequence, not a tray tile, not a global tile. -/
def namesPage (p n v d : Nat) : Bool :=
  pdPlot d == p && pdSeq d == n && bitsAt d 192 32 == v && (pdKind d == 0 || pdKind d == 2 || pdKind d == 4)

/-- Rewrites a table entry after an epoch change: address, chip, epoch, form and rank (R153, R240). -/
def reemitted (d : Nat) (e : Pte) : Nat :=
  let d := setBits (setBits (setBits d 0 48 e.addr) 48 16 e.chip) 64 32 e.epoch
  setBits (setBits d 168 4 (e.tier + if e.cutting then 8 else 0)) 176 8 e.rankc

/-- Re-emits the descriptors of a page in the tables of one persistent stream. -/
def State.reemitIn (s : State) (p n v : Nat) (e : Pte) (i : Nat) (t : Stream) : State :=
  (List.range t.dcount).foldl (fun s k =>
    let a := t.dtable + 64 * k
    let d := s.loadLe a 64
    if namesPage p n v d then
      (s.putBytes a (leBytes 64 (reemitted d e))).addSat Fld.STM_REARM_COUNT_REEMIT i 1
    else s) s

/-- The persistent paged streams of a plot. -/
def State.tableStreams (s : State) (p : Nat) : List (Nat × Stream) :=
  s.streams.filter fun x => x.2.plot == p && x.2.sflags.testBit 0 && x.2.sflags.testBit 1

/-- Re-emits the descriptors of a page in every persistent paged stream of the plot. -/
def State.reemit (s : State) (p n v : Nat) (e : Pte) : State :=
  (s.tableStreams p).foldl (fun s x => s.reemitIn p n v e x.1 x.2) s

/-- The deadline that a descriptor in a stream's table stands for: its own, or that of the task which runs the stream (R143, R170). -/
def State.entryDeadline (s : State) (t : Stream) (d : Nat) : Nat :=
  max (bitsAt d 384 64) ((s.task t.task).elim 0 (·.completion))

/-- HOLD of a page that descriptors in tables name (R143): the latest deadline of the tasks that they are given to. -/
def State.tableHold (s : State) (p n v : Nat) : Nat :=
  (s.tableStreams p).foldl (fun h x => (List.range x.2.dcount).foldl (fun h k =>
    let d := s.loadLe (x.2.dtable + 64 * k) 64
    if namesPage p n v d then max h (s.entryDeadline x.2 d) else h) h) 0

/-! ### Journal entries (R169) -/

/-- Whether admission refuses every request with STOPPED (R22, R287, R395, R412, R413, R456). -/
def State.admClosed (s : State) : Bool :=
  s.bit Fld.ADM_POLICY_STOPPED 0 || s.fld Fld.BOOT_STATUS_STATE 0 != 6 || s.fld Fld.SAFE_STATUS_STATE 0 == 3 ||
    s.fld Fld.SAFE_STATUS_STATE 0 == 4 || s.fld Fld.PWR_STATE_STATE 0 == 2 || s.fld Fld.PWR_STATE_STATE 0 == 3 ||
    s.fld Fld.PWR_STATE_STATE 0 == 4

/-- Whether admission is stopped for a plot: for all, or because the plot itself is not active (R369). -/
def State.admStopped (s : State) (p : Nat) : Bool := s.admClosed || s.fld Fld.PLT_STATE_STATE p != plActive

/-- The most journal entries a chip has open. -/
def journalMax : Nat := 128

def State.putJournal (s : State) (j : Journal) : State :=
  { s with journal := s.journal.map fun x => if x.id = j.id then j else x }

def State.entry (s : State) (id : Nat) : Option Journal := s.journal.find? fun j => j.id == id

/-- Tag of a hosting message that no journal entry waits for. -/
def noEntry : Nat := 2 ^ 32 - 1

/-- Chip and hosting plot of a HOSTCHIPS entry (R361). -/
def hostChip (h : Nat) : Nat := h % 65536
def hostPlot (h : Nat) : Nat := bitsAt h 16 3

/-- Bytes of a hosting message's contents in the order of R168's table (notes/assumptions/26). -/
def State.sendHost (s : State) (kind : MsgKind) (p chip tag : Nat) (data : List Byte) : State :=
  s.send { Msg.to kind 1 p chip with tag := tag, gen := s.chipTag, data := data }

/-- The host list of a plot (R361): up to 16 entries before the terminator. -/
def State.hostList (s : State) (q : Plot) : List Nat :=
  if q.hosts = 0 then [] else ((List.range 16).map fun i => s.loadLe (q.hosts + 4 * i) 4).takeWhile (· != 0xFFFFFFFF)

/-- Sends HOST_ALLOC for an entry to the host its `host` names; none when the list has no further host. -/
def State.askHost (s : State) (j : Journal) (order : Nat) : Option State :=
  match (s.plot j.plot).bind fun q => (s.hostList q)[j.host]? with
  | none => none
  | some h =>
    let s := s.putJournal { j with dstTier := 2, dstChip := hostChip h, sent := some s.clock, step := 1 }
    some (s.sendHost .hostAlloc j.plot (hostChip h) j.id
      (leBytes 1 j.plot ++ leBytes 1 (hostPlot h) ++ leBytes 2 j.seqNo ++ leBytes 1 order ++ leBytes 4 ((j.epoch + 1) % 2 ^ 32)))

/-- Sets or clears MOVING. -/
def State.setMoving (s : State) (q : Seqn) (v : Nat) (b : Bool) : State := s.setPte q v { s.pte q v with moving := b }

/-- States of KVM_MIGRATE_STATUS (R172). -/
def mgIdle : Nat := 0
def mgCopying : Nat := 1
def mgSealing : Nat := 2
def mgRollingBack : Nat := 3
def mgRecovering : Nat := 4

/-- Shows the state of a batch, where it is its plot's latest (R172). -/
def State.showBatch (s : State) (x : Batch) (st : Nat) : State :=
  if s.fld Fld.KVM_MIGRATE_STATUS_BATCH x.plot = x.number then
    (s.setFld Fld.KVM_MIGRATE_STATUS_DONE x.plot x.closed).setFld Fld.KVM_MIGRATE_STATUS_STATE x.plot st
  else s

/-- Shows what the batch of an entry is at. -/
def State.showEntry (s : State) (j : Journal) (st : Nat) : State :=
  match j.batch.bind (Table.get s.batches) with
  | some x => s.showBatch x st
  | none => s

/-- A batch whose pages have all closed completes MIGRATE with the number committed (R418). -/
def State.endMoves (s : State) (b : Nat) (x : Batch) : State :=
  let s := { s with batches := Table.del s.batches b }
  let s := match s.seq x.plot x.seqNo with
    | some q => s.setSeq x.plot x.seqNo { q with busy := q.busy - 1 }
    | none => s
  (s.showBatch x mgIdle).finish x.tag stOk x.committed

/-- Counts a closed entry of its batch: `done'` when the page committed; a finished batch completes MIGRATE with the number of
pages committed (R418). -/
def State.closeBatch (s : State) (j : Journal) (done' : Bool) : State :=
  match j.batch with
  | none => s
  | some b => match Table.get s.batches b with
    | none => s
    | some x =>
      let x := { x with closed := x.closed + 1, committed := x.committed + done'.toNat }
      if x.closed < x.count then
        { s with batches := Table.put s.batches b x }.showBatch x (if done' then mgCopying else mgRollingBack)
      else s.endMoves b x

/-- Asks a peer to free the frame of a handle recorded for it. -/
def State.freePeer (s : State) (p chip a : Nat) : State :=
  let key := chip * 2 ^ 48 + a
  match Table.get s.peerHandles key with
  | none => s
  | some h =>
    { s with peerHandles := Table.del s.peerHandles key }.sendHost .hostFree p chip noEntry (leBytes 8 h ++ leBytes 1 p)

/-- Rolls an entry back (R171): the destination is freed, MOVING cleared, the entry closed; the page stays at its source. -/
def State.rollBack (s : State) (id : Nat) : State :=
  match s.entry id with
  | none => s
  | some j =>
    let s := { s with journal := s.journal.filter fun x => x.id != id, reqs := s.reqs.filter fun r => r.who != Requester.move id }
    let s := match j.dst with
      | some a => if j.dstTier = 2 then s.freePeer j.plot j.dstChip a else s.freeFrame a
      | none => s
    let s := match s.seq j.plot j.seqNo with
      | some q => s.setMoving q j.page false
      | none => s
    s.closeBatch j false

/-- Notes a pool in which an allocation failed: pressure handling starts there (R161). -/
def State.press (s : State) (p t : Nat) : State :=
  if s.pressed.contains (p, t) then s else { s with pressed := s.pressed ++ [(p, t)] }

/-- Starts a move of page `v` to a tier, or its conversion in place (steps 1 and 2 of R169); `some (.error t)` when the pool of tier `t`
has no room, none when the journal has none, the page moves already or no host is listed. The source on a peer is read over the fabric as
background traffic, in messages of at most 65,536 bytes (R302, R304). -/
def State.startMove (s : State) (p n : Nat) (q : Seqn) (v tier : Nat) (cut : Bool) (batch : Option Nat) : Option (Except Nat State) :=
  let e := s.pte q v
  if journalMax ≤ s.journal.length ∨ e.valid = false ∨ e.moving = true then none
  else
    let rank := s.fld Fld.KVM_POLICY_CUT_RANK p
    let bytes := if cut then cutBytes q rank else formBytes q e
    let j : Journal := ⟨s.moveSeq, p, n, v, e.tier, e.addr, e.chip, e.epoch, tier, 0, none, 1, batch, cut, 0, none, 0, rank⟩
    let begun := { s with moveSeq := s.moveSeq + 1, journal := s.journal ++ [j] }
    if tier = 2 then (begun.askHost j (orderFor bytes)).map fun s => .ok (s.setMoving q v true)
    else
      match begun.allocFrame p tier (orderFor bytes) usePage n with
      | none => some (.error tier)
      | some (a, s) =>
        let s := s.setMoving q v true
        if e.tier = 2 then
          let s := s.putJournal { j with dst := some a, step := 2, due := bytes }
          some (.ok (s.askParts (.move j.id) p s.chipTag e.chip e.addr bytes [0xFFFF * 2 ^ 48 + a] false e.epoch 0 true))
        else some (.ok (s.putJournal { j with dst := some a, step := 2 }))

/-- Starts a move where that is possible; a pool without room is noted. Answers whether the move has begun. -/
def State.tryMove (s : State) (p n : Nat) (q : Seqn) (v tier : Nat) (cut : Bool) (batch : Option Nat) : State × Bool :=
  match s.startMove p n q v tier cut batch with
  | some (.ok s) => (s, true)
  | some (.error t) => (s.press p t, false)
  | none => (s, false)

/-- Step 5 of R169: the page table entry names the destination at the new epoch, the source goes to DRAIN until its HOLD tick. -/
def State.commitMove (s : State) (j : Journal) (q : Seqn) (a : Nat) : State :=
  let e := s.pte q j.page
  let epoch := (j.epoch + 1) % 2 ^ 32
  let s := if j.dstTier = 2 then s else match Table.get s.frames a with
    | some f => { s with frames := Table.put s.frames a { f with epoch := epoch } }
    | none => s
  let new : Pte := ⟨true, j.dstTier, e.cutting || j.cut, false, e.pinned, a, if j.dstTier = 2 then j.dstChip else 0,
    if j.cut then j.rank else e.rankc, epoch, s.tableHold j.plot j.seqNo j.page, e.score⟩
  let s := s.setPte q j.page new
  let s := if j.srcTier = 2 then { s with draining := s.draining ++ [⟨j.plot, 2, j.srcAddr, some j.srcChip, e.hold⟩] }
    else s.drainFrame j.plot j.srcAddr e.hold
  let s := { s with journal := s.journal.filter fun x => x.id != j.id }
  (s.reemit j.plot j.seqNo j.page new).closeBatch j true

/-- PAGE_MOVE_COMMIT (R169 steps 3 to 5): a local copy is made and sealed, a copy on a peer has been sealed; the entry commits. -/
def execPageMoveCommit (id : Nat) (s : State) : Res := s.byService <|
  match s.entry id with
  | none => .next s
  | some j =>
    match s.seq j.plot j.seqNo, j.dst with
    | some q, some a =>
      if j.cut then .next s
      else if j.dstTier = 2 then (if j.step = 4 then .next (s.commitMove j q a) else .next s)
      else if j.step ≠ 2 ∨ j.due ≠ 0 then .next s
      else if j.srcTier = 2 then .next (s.commitMove j q a)
      else
        let n := formBytes q (s.pte q j.page)
        match s.firstPoison j.srcAddr n with
        | some line => .next ((s.recordEcc line 2 false).rollBack id)
        | none => .next ((s.putBytes a (s.loadBytes j.srcAddr n)).commitMove j q a)
    | _, _ => .next s

/-! ### Conversion to a cutting (R164, R165) -/

/-- Whether both formats of a sequence are FP8, whose elements R165 converts. -/
def fp8Pages (q : Seqn) : Bool := decide (q.kfmt ≤ 1) && decide (q.vfmt ≤ 1)

/-- The row x of offset `i`: the keys of the group's heads, then their values (R164). -/
def cutSource (q : Seqn) (page : List Byte) (i : Nat) : List Val :=
  let run (f : Fmt) (off : Nat) : List Val := (List.range (dims q)).map fun e => elemOf f (page.drop off) e
  ((List.range (heads q)).flatMap fun h => run (kFmt q) (keyOff q (pagePos q) i h)) ++
    ((List.range (heads q)).flatMap fun h => run (vFmt q) (valOff q (pagePos q) i h))

/-- Width W of the latent's source. -/
def cutWidth (q : Seqn) : Nat := 2 * heads q * dims q

/-- Address of the projection of list `k` at rank `r` in CUTTAB, and of its scales: for each list the columns of Π one after another,
their block scales, then the rows of B with theirs (notes/assumptions/27). -/
def cutColumn (base : Nat) (q : Seqn) (r k c : Nat) : Nat × Nat :=
  let w := cutWidth q
  let a := base + k * 2 * (w * r + w * r / 32)
  (a + c * w, a + w * r + c * (w / 32))

/-- One row of a latent: x × Π under R46, rounded to MX blocks of E4M3 (R41): r element bytes, then r / 32 scale bytes; with the numeric
flags that its products and its rounding raise (R53). -/
def latentRow (x : List Val) (cols : List (List (Val × NumFlags))) : List Byte × NumFlags :=
  let sums := cols.map fun col => dotAcc none (x.map fun v => (v, (0 : NumFlags))) col
  let c := sums.map fun y => decodeVal .fp32 y.1
  let blocks := (groups32 (c.length + 1) c).map fun b => mxBlock .e4m3 b
  ((blocks.flatMap fun b => b.2.1.map fun e => BitVec.ofNat 8 e) ++ blocks.map fun b => b.1,
    (blocks.map fun b => b.2.2).foldl (· ||| ·) ((sums.map (·.2)).foldl (· ||| ·) 0))

/-- The bytes of a page's cutting, with the numeric flags raised. -/
def State.cutting (s : State) (base : Nat) (q : Seqn) (r k : Nat) (page : List Byte) : List Byte × NumFlags :=
  let w := cutWidth q
  let cols := (List.range r).map fun c =>
    let (a, sc) := cutColumn base q r k c
    (List.range w).map fun e => scaledVal .e4m3 (s.loadByte (sc + e / 32)) (s.loadByte (a + e)).toNat
  let rows := (List.range (pagePos q)).map fun i => latentRow (cutSource q page i) cols
  (rows.flatMap (·.1), (rows.map (·.2)).foldl (· ||| ·) 0)

/-- Bytes of the projection Π of one list at rank `r`, with its scales. -/
def cutTable (q : Seqn) (r : Nat) : Nat := cutWidth q * r + cutWidth q * r / 32

/-- CONVERT_TO_CUTTING (R53, R164, R165, R259): the conversion task of an entry, on cell `c` of its plot, ends: the entry commits with an
epoch step, and the cell shows the flags raised; keys or values that are not FP8 give free bytes. A poisoned line of the page or of the
projection ends the entry without effect (R171). -/
def execConvertToCutting (id : Nat) (c : CellIx) (s : State) : Res := s.byService <|
  match s.entry id with
  | none => .next s
  | some j =>
    match s.seq j.plot j.seqNo, s.plot j.plot, j.dst with
    | some q, some pl, some a =>
      if !j.cut || s.ownerOfCell c.val != some j.plot then .next s
      else
        let r := 32 * (j.rank + 1)
        let k := j.page / npages q
        match (s.firstPoison j.srcAddr (pageBytes q)).or (s.firstPoison (cutColumn pl.cutTab q r k 0).1 (cutTable q r)) with
        | some line => .next ((s.recordEcc line 2 false).rollBack id)
        | none =>
          if !fp8Pages q then .next ((s.undefineBytes a (cutBytes q j.rank)).commitMove j q a)
          else
            let x := s.cutting pl.cutTab q r k (s.loadBytes j.srcAddr (pageBytes q))
            .next (((s.putBytes a x.1).addNumFlags c.val x.2).commitMove j q a)
    | _, _, _ => .next s

/-! ### Replies of hosting chips (R168, R171) -/

/-- Where a refused host leaves an entry: another host, host memory for a spill, else rolled back (R166, R171). -/
def State.hostRefused (s : State) (j : Journal) : State :=
  let order := match s.seq j.plot j.seqNo with
    | some q => orderFor (formBytes q (s.pte q j.page))
    | none => 0
  let next := { j with host := j.host + 1, sent := none }
  match s.askHost next order with
  | some s => s
  | none =>
    if j.batch.isSome then s.rollBack j.id
    else match s.allocFrame j.plot 3 order usePage j.seqNo with
      | some (a, s) => s.putJournal { next with dstTier := 3, dstChip := 0, dst := some a, step := 2 }
      | none => s.rollBack j.id

/-- A refusal, or a reply that is missing, at the step an entry has reached. -/
def State.hostFailed (s : State) (j : Journal) : State := if j.step = 1 then s.hostRefused j else s.rollBack j.id

/-- Step 3 of R169 with a host's handle: the data leaves in messages of at most 65,536 bytes (R302), then HOST_SEAL with byte count and
CRC-32C. -/
def State.fillPeer (s : State) (j : Journal) (h : Nat) : State :=
  match s.seq j.plot j.seqNo with
  | none => s.rollBack j.id
  | some q =>
    let a := hAddr h
    let n := formBytes q (s.pte q j.page)
    let data := s.loadBytes j.srcAddr n
    match s.firstPoison j.srcAddr n with
    | some line => (s.recordEcc line 2 false).rollBack j.id
    | none =>
    let s := { s with peerHandles := Table.put s.peerHandles (j.dstChip * 2 ^ 48 + a) h }
    let s := s.putJournal { j with dst := some a, step := 3, sent := some s.clock }
    let s := s.showEntry j mgSealing
    let s := s.sendParts { Msg.to .write 6 j.plot j.dstChip with addr := a, gen := s.chipTag, data := data }
    s.sendHost .hostSeal j.plot j.dstChip j.id (leBytes 8 h ++ leBytes 4 n ++ leBytes 4 (crc32c data) ++ leBytes 1 j.plot)

/-- HOSTING_REPLY (R168, R171): a reply with an old tag is dropped (R403); a handle starts the copy, SEALED lets the entry commit, the
answer to HOST_QUERY rolls it forward or back, a refusal tries the next host or rolls back. -/
def execHostingReply (id gen : Nat) (r : HostReply) (s : State) : Res :=
  if gen ≠ s.chipTag then .next s.countStale
  else
    match s.entry id with
    | none => .next s
    | some j =>
      if j.sent.isNone then .next s
      else match r with
        | .handle h => if j.step = 1 then .next (s.fillPeer j h) else .next s
        | .sealed => if j.step = 3 then .next (s.putJournal { j with step := 4, sent := none }) else .next s
        | .frame allocated isSealed epoch =>
          if j.step ≠ 5 then .next s
          else if allocated && isSealed && epoch == (j.epoch + 1) % 2 ^ 32 then
            match s.seq j.plot j.seqNo, j.dst with
            | some q, some a => .next (s.commitMove j q a)
            | _, _ => .next s
          else .next (s.rollBack id)
        | .refused => .next (s.hostFailed j)

/-- HOST_REPLY_TIMEOUT (R5, R168): a reply missing 100 µs of local time after its message counts as a refusal. -/
def execHostReplyTimeout (id : Nat) (s : State) : Res :=
  match s.entry id with
  | none => .next s
  | some j => match j.sent with
    | none => .next s
    | some t => if t + 100000 ≤ s.clock then .next (s.hostFailed j) else .next s

/-! ### The hosting side (R168, R171) -/

/-- Answers a hosting message to its sender. -/
def State.answerHost (s : State) (m : HostMsg) (data : List Byte) : State :=
  s.send { Msg.to .hostReply 1 m.plot m.chip with tag := m.tag, gen := m.gen, data := data }

/-- HOST_ALLOC (R168): an open hosted frame of the hosting plot's hosted pool, or NOSPACE. Hosted frames are kept under the hosting
plot's pool 2. -/
def execHostAlloc (m : HostMsg) (hosting : PlotIx) (seqNo order epoch : Nat) (s : State) : Res :=
  let no := s.answerHost m (leBytes 1 stNoSpace)
  if !s.ringsOpen hosting.val || decide (16 < order) then .next no
  else match s.allocFrame hosting.val 2 order useHosted seqNo with
    | none => .next no
    | some (a, s) =>
      match Table.get s.frames a with
      | none => .next s
      | some f =>
        let s := { s with frames := Table.put s.frames a { f with
          ownerChip := m.chip, ownerPlot := m.plot, newEpoch := epoch, epoch := 0, sealed := false } }
        .next (s.answerHost m (leBytes 1 stOk ++ leBytes 8 (s.handleOf a)))

/-- The hosted frame a handle names, checked against the owner's chip and plot (R168). -/
def State.hostedFrame (s : State) (m : HostMsg) (h : Nat) : Option Frame :=
  match Table.get s.frames (hAddr h) with
  | some f =>
    if f.allocated && f.use == useHosted && f.generation == hGen h && f.ownerChip == m.chip && f.ownerPlot == m.plot then some f
    else none
  | none => none

/-- HOST_SEAL (R168): sealed once byte count and CRC-32C match; EPOCH set in the frame record. -/
def execHostSeal (m : HostMsg) (handle count crc : Nat) (s : State) : Res :=
  match s.hostedFrame m handle with
  | none => .next (s.answerHost m (leBytes 1 stNotOwned))
  | some f =>
    if frameBytes f.order < count ∨ crc32c (s.loadBytes (hAddr handle) count) ≠ crc then .next (s.answerHost m (leBytes 1 stState))
    else
      let s := { s with frames := Table.put s.frames (hAddr handle) { f with sealed := true, epoch := f.newEpoch } }
      .next (s.answerHost m (leBytes 1 stOk))

/-- HOST_QUERY (R168): ALLOCATED, SEALED and EPOCH of the owner's frame; a frame that is not the owner's reads as none. -/
def execHostQuery (m : HostMsg) (handle : Nat) (s : State) : Res :=
  match s.hostedFrame m handle with
  | none => .next (s.answerHost m (leBytes 1 0 ++ leBytes 1 0 ++ leBytes 4 0))
  | some f => .next (s.answerHost m (leBytes 1 1 ++ leBytes 1 f.sealed.toNat ++ leBytes 4 f.epoch))

/-- The plot of this chip whose window holds a hosted frame's granule. -/
def State.hostingPlot (s : State) (h : Nat) : Option Nat := (List.range 8).find? fun p => s.ownsByte p (hAddr h)

/-- HOST_FREE (R148, R168): freed after the checks with the owner's chip and plot; a failing one is recorded for the hosting plot. -/
def execHostFree (m : HostMsg) (handle : Nat) (s : State) : Res :=
  match s.hostingPlot handle with
  | none => .next (s.answerHost m (leBytes 1 stNotOwned))
  | some p => match s.checkFree p handle (some (m.chip, m.plot)) with
    | .ok => .next ((s.freeFrame (hAddr handle)).answerHost m (leBytes 1 stOk))
    | .bad kind status => .next ((s.badFree p kind handle).answerHost m (leBytes 1 status))

/-- ORPHAN_RECLAIM (R5, R171): open hosted frames not sealed 10 ms of local time after their allocation are freed and logged. -/
def execOrphanReclaim (s : State) : Res := s.byService <|
  let orphans := s.frames.filter fun e =>
    e.2.allocated && e.2.use == useHosted && !e.2.sealed && decide (e.2.tick + 10000000 ≤ s.clock)
  .next (orphans.foldl (fun s e => (s.freeFrame e.1).logEvent e.2.owner 6 3 2 e.1) s)

/-! ### DRAIN (R170) -/

/-- Frees one frame of DRAIN, or asks its host to. -/
def State.endDrain (s : State) (d : DrainFrame) : State :=
  match d.chip with
  | some c => s.freePeer d.plot c d.addr
  | none => match Table.get s.frames d.addr with
    | none => s
    | some f =>
      { s with frames := Table.put s.frames d.addr { f with allocated := false } }.setPool d.plot d.tier
        ((s.pool d.plot d.tier).fromDrain (2 ^ f.order))

/-- Frees every frame whose HOLD tick has come. -/
def State.freeDue (s : State) : State :=
  let due := s.draining.filter fun d => decide (d.hold ≤ s.sundial)
  due.foldl State.endDrain { s with draining := s.draining.filter fun d => decide (s.sundial < d.hold) }

/-- SOURCE_FREE (R170). -/
def execSourceFree (s : State) : Res := s.byService (.next s.freeDue)

/-! ### Memory pressure (R161, R162) -/

/-- Granules of a pool that are free or will return. -/
def Pool.ready (x : Pool) : Nat := x.free + x.drain

/-- Whether FREE + DRAIN is below the low watermark. -/
def State.belowLow (s : State) (p t : Nat) : Bool :=
  let x := s.pool p t
  decide (256 * x.ready < s.fld Fld.KVM_POLICY_LOW p * x.total)

/-- Whether FREE + DRAIN, with the granules that moves under way will return, is below the high watermark. -/
def State.short (s : State) (p t gain : Nat) : Bool :=
  let x := s.pool p t
  decide (256 * (x.ready + gain) < s.fld Fld.KVM_POLICY_HIGH p * x.total)

/-- A candidate page: sequence number, page, first position, its score and granules. -/
structure Candidate where
  seqNo : Nat
  page : Nat
  first : Nat
  score : Val
  granules : Nat
  deriving DecidableEq, Repr

/-- Pages of one sequence that pressure may touch in a tier (R162): not pinned, not moving, not the tail page, not in the window. -/
def State.seqCandidates (s : State) (t n : Nat) (q : Seqn) : List Candidate :=
  ((List.range (vpages q)).map fun v => (v, s.pte q v)).filterMap fun (v, e) =>
    let j := v % npages q
    let tail := decide (q.bound ≤ (j + 1) * pagePos q)
    let inWindow := q.wlog != 0 && decide (q.bound < (j + 1) * pagePos q + 2 ^ q.wlog)
    if e.valid && e.tier == t && !e.pinned && !e.moving && !tail && !inWindow then
      some ⟨n, v, q.base + j * pagePos q, decodeVal .fp32 e.score, 2 ^ orderFor (formBytes q e)⟩
    else none

/-- The candidates of a plot in a tier (R162). -/
def State.candidates (s : State) (p t : Nat) : List Candidate :=
  (s.seqs.filter fun e => e.1 / 65536 == p && !e.2.lost).flatMap fun e => s.seqCandidates t (e.1 % 65536) e.2

/-- Inserts by (score, vpage), stable. -/
def byScore (x : Candidate) : List Candidate → List Candidate
  | [] => [x]
  | y :: ys => if Val.lt x.score y.score ∨ (Val.lt y.score x.score = false ∧ x.page < y.page) then x :: y :: ys else y :: byScore x ys

/-- Inserts by (first position, vpage), stable. -/
def byFirst (x : Candidate) : List Candidate → List Candidate
  | [] => [x]
  | y :: ys => if x.first < y.first ∨ (x.first = y.first ∧ x.page < y.page) then x :: y :: ys else y :: byFirst x ys

/-- Evicts a page: VALID clear, epoch + 1, its descriptors re-emitted, tombstone, its frame to DRAIN (R144, R153, R160, R162). -/
def State.evict (s : State) (p n : Nat) (q : Seqn) (v : Nat) : State :=
  let e := s.pte q v
  let gone := { e with valid := false, epoch := (e.epoch + 1) % 2 ^ 32 }
  let s := s.setPte q v gone
  let s := if e.tier = 2 then { s with draining := s.draining ++ [⟨p, 2, e.addr, some e.chip, e.hold⟩] }
    else s.drainFrame p e.addr e.hold
  (s.reemit p n v gone).buryPage q v

/-- The eviction pass (R162): windowed sequences, scores that times FLAT / 16 stay below the median. -/
def State.evictPass (p t flat gain : Nat) (med : Val) : List Candidate → State → State
  | [], s => s
  | c :: cs, s =>
    let small := Val.lt (Val.mul c.score (.fin false flat 16)).1 med
    let s := match s.seq p c.seqNo with
      | some q =>
        if s.short p t gain && small && q.wlog != 0 && s.canBury q (c.page / npages q) then s.evict p c.seqNo q c.page else s
      | none => s
    State.evictPass p t flat gain med cs s

/-- The cutting pass (R162, R164): skipped with a log entry where the plot supplies no projections. -/
def State.cutPass (p t : Nat) : List Candidate → State → Nat → State × Nat
  | [], s, gain => (s, gain)
  | c :: cs, s, gain =>
    match s.seq p c.seqNo, s.plot p with
    | some q, some pl =>
      let e := s.pte q c.page
      if !s.short p t gain || q.wlog == 0 || !e.valid || e.cutting || e.moving || e.tier == 2 then State.cutPass p t cs s gain
      else if pl.cutTab = 0 then State.cutPass p t cs (s.logEvent p 6 2 3 c.page) gain
      else match s.tryMove p c.seqNo q c.page t true none with
        | (s', true) => State.cutPass p t cs s' (gain + c.granules - 2 ^ orderFor (cutBytes q (s.fld Fld.KVM_POLICY_CUT_RANK p)))
        | (s', false) => State.cutPass p t cs s' gain
    | _, _ => State.cutPass p t cs s gain

/-- Where a spill from a tier goes (R166). -/
def State.spillTier (s : State) (p t : Nat) : Option Nat :=
  if t = 0 then some 1
  else if t = 1 then (match s.plot p with
    | some q => some (if (s.hostList q).isEmpty then 3 else 2)
    | none => none)
  else none

/-- The spill pass (R162, R166). -/
def State.spillPass (p t : Nat) : List Candidate → State → Nat → State
  | [], s, _ => s
  | c :: cs, s, gain =>
    match s.seq p c.seqNo, s.spillTier p t with
    | some q, some d =>
      if !s.short p t gain then s
      else match s.tryMove p c.seqNo q c.page d false none with
        | (s, true) => State.spillPass p t cs s (gain + c.granules)
        | (s, false) => State.spillPass p t cs s gain
    | _, _ => s

/-- Granules that the moves which pressure handling has under way will free in a pool. -/
def State.underway (s : State) (p t : Nat) : Nat :=
  ((s.journal.filter fun j => j.plot == p && j.srcTier == t && j.batch.isNone && (j.cut || j.dstTier != t)).map fun j =>
    let size := fun (a : Nat) => (Table.get s.frames a).elim 0 fun f => 2 ^ f.order
    size j.srcAddr - (if j.cut then j.dst.elim 0 size else 0)).sum

/-- relieve (R162): evict, cut, spill, while FREE + DRAIN, with what moves under way will free, stays below the high watermark. Cuttings
and spills are tasks that pass admission (R161): none begins while it is stopped. -/
def State.relieve (s : State) (p t : Nat) : State :=
  let gain := s.underway p t
  let ranked := (s.candidates p t).foldl (fun acc x => byScore x acc) []
  match ranked with
  | [] => s
  | c0 :: _ =>
    let med := (ranked[ranked.length / 2]?).elim c0.score (·.score)
    let k := s.fld Fld.KVM_POLICY_FLAT p
    let flat := !Val.lt (Val.mul c0.score (.fin false k 16)).1 med
    let s := if s.bit Fld.KVM_POLICY_EVICT_EN p && !flat then State.evictPass p t k gain med ranked s else s
    let r := if s.bit Fld.KVM_POLICY_CUT_EN p && !s.admStopped p then State.cutPass p t ranked s gain else (s, gain)
    let s := r.1
    if s.bit Fld.KVM_POLICY_SPILL_EN p && !s.admStopped p then
      State.spillPass p t ((s.candidates p t).foldl (fun acc x => byFirst x acc) []) s r.2
    else s

/-- PRESSURE_HANDLING (R161, R162): FREE + DRAIN of a pool is below its low watermark, or an allocation in it has failed. -/
def execPressureHandling (p : PlotIx) (t : TierIx) (s : State) : Res := s.byService <|
  if s.ringsOpen p.val && t.val != 2 && (s.belowLow p.val t.val || s.pressed.contains (p.val, t.val)) then
    .next ({ s with pressed := s.pressed.erase (p.val, t.val) }.relieve p.val t.val)
  else .next s

/-- An allocation with the pressure steps of R162 between two attempts (R161), in the pools of the tiers listed: what it answers, or
the state after the handling where no room was found. -/
def State.withRoom {α : Type} (s : State) (p : Nat) (tiers : List Nat) (f : State → Option α) : α ⊕ State :=
  match f s with
  | some r => .inl r
  | none =>
    let s := (tiers.foldl (fun s t => s.relieve p t) s).freeDue
    match f s with
    | some r => .inl r
    | none => .inr s

/-- Whether pressure handling in one of the pools goes on: a move it began is open and FREE + DRAIN is below the high watermark (R161). -/
def State.relieving (s : State) (p : Nat) (tiers : List Nat) : Bool :=
  tiers.any fun t => s.short p t 0 && s.journal.any fun j => j.plot == p && j.srcTier == t && j.batch.isNone

/-- A command whose allocation found no room (R161): it waits at the head of its ring until the handling has ended, then it is refused with
NOSPACE. -/
def State.noRoom (s : State) (c : Cmd) (tiers : List Nat) : State :=
  if s.relieving c.plot tiers then s.putBack c else s.finishOpen c.id stNoSpace

end Sys2Proof.Machine
end

