-- ==== Sys2Proof/Machine/KvmSeq.lean ====
section
/-!
DEFINITION. Commands on sequences and buffers (R137): SEQ_CREATE, SEQ_DESTROY, GLOBAL_ADD, PIN, PREFETCH, MIGRATE, COPY_PREFIX and
BUF_ALLOC, and what follows every commit point (R158, R160, R163).
-/

namespace Sys2Proof.Machine
open Sys2Proof

/-! ### BUF_ALLOC (R146) -/

/-- BUF_ALLOC: RESULT is the handle; nothing is moved to make room (R265). -/
def execBufAlloc (p : PlotIx) (s : State) : Res :=
  .next (s.runCommand p.val 0x09 (fun c => c.cleanFrom 10 && bufferTier (c.arg 8 1) && decide (c.arg 9 1 ≤ 16)) fun c s =>
    let t := c.arg 8 1
    match s.allocFrame p.val t (c.arg 9 1) useBuffer 0 with
    | some (a, s) => s.finish c.id stOk (s.handleOf a)
    | none => s.finishOpen c.id stNoSpace)

/-! ### SEQ_CREATE (R140) -/

/-- The record that the arguments of SEQ_CREATE give. -/
def Cmd.newSeq (c : Cmd) : Seqn where
  base := c.arg 8 4
  maxSlice := c.arg 12 4
  pglog := c.arg 16 1
  layers := c.arg 17 1 + 1
  groups := c.arg 18 1
  hpg := c.arg 19 1
  dim := c.arg 20 1
  kfmt := c.arg 21 1
  vfmt := c.arg 22 1
  home := c.arg 23 1
  wlog := c.arg 24 1
  lead := (c.arg 25 1).testBit 0
  live := (c.arg 25 1).testBit 1
  gquota := c.arg 26 2
  bound := 0
  dir := 0
  tray := none
  globals := []
  garea := none
  mass := none
  commit := none
  lost := false
  busy := 0
  liveIndex := none
  held := []

/-- The checks of R140, a page no larger than the largest frame (R145) among them. -/
def Cmd.seqArgsOk (c : Cmd) : Bool :=
  let q := c.newSeq
  c.cleanFrom 28 && decide (c.arg 25 1 < 4) && decide (4 ≤ q.pglog) && decide (q.pglog ≤ 16) && decide (1 ≤ q.groups) &&
  decide (q.groups ≤ 16) && decide (q.hpg ≤ 3) && decide (q.dim ≤ 2) && decide (q.kfmt ≤ 2) && decide (q.vfmt ≤ 3) &&
  decide (q.home ≤ 1) && (q.wlog == 0 || (decide (8 ≤ q.wlog) && decide (q.wlog ≤ 20))) && decide (q.gquota ≤ 1024) &&
  decide (q.base + q.maxSlice ≤ 2 ^ 32) && q.maxSlice % 2 ^ q.pglog == 0 && decide (vpages q ≤ 2 ^ 25) &&
  decide (orderFor (pageBytes q) ≤ 16)

/-- Allocates and clears one area of a sequence. -/
def State.newArea (s : State) (p t use n bytes : Nat) : Option (Nat × State) :=
  match s.allocFrame p t (orderFor bytes) use n with
  | some (a, s) => some (a, s.clearRange a (frameBytes (orderFor bytes)))
  | none => none

/-- An optional area. -/
def State.optArea (s : State) (want : Bool) (p t use n bytes : Nat) : Option (Option Nat × State) :=
  if !want then some (none, s)
  else match s.newArea p t use n bytes with
    | some (a, s) => some (some a, s)
    | none => none

/-- Marks every slot of the global area unused (R151). -/
def State.clearGlobals (s : State) (q : Seqn) (g : Option Nat) : State :=
  match g with
  | none => s
  | some a => s.putBytes (a + gposOff q 0) (List.replicate (256 * gtiles q) 0xFF)

/-- The header of a new seed tray (R130): EMPTY, BASEPOS the first uncommitted position, PATH without nodes. -/
def State.newTray (s : State) (q : Seqn) (t : Option Nat) : State :=
  match t with
  | none => s
  | some a => (s.putLe (a + 4) 4 q.base).putBytes (a + 0x20) (List.replicate 16 0xFF)

/-- The areas of a new sequence: directory in the stack pool, seed tray and mass area in the bonded-DRAM pool, global area in the home
tier (R129, R143, R154, R163). -/
def State.newSeq (s : State) (p n : Nat) (q : Seqn) : Option (Seqn × State) :=
  match s.newArea p 1 useTable n (8 * ceilDiv (vpages q) 128) with
  | none => none
  | some (dir, s) => match s.optArea q.lead p 0 useTray n (trayBytes q) with
    | none => none
    | some (tray, s) => match s.optArea (q.gquota != 0) p q.home useGlobal n (gareaBytes q) with
      | none => none
      | some (garea, s) => match s.optArea (q.wlog != 0 && s.bit Fld.KVM_POLICY_EVICT_EN p) p 0 useBuffer n (4 * vpages q) with
        | none => none
        | some (mass, s) =>
          some ({ q with dir := dir, tray := tray, garea := garea, mass := mass }, (s.clearGlobals q garea).newTray q tray)

/-- SEQ_CREATE (R140): RESULT is the SEQ, the lowest number the plot has free; nothing is moved to make room for its areas (R265). -/
def execSeqCreate (p : PlotIx) (s : State) : Res :=
  .next (s.runCommand p.val 0x01 Cmd.seqArgsOk fun c s =>
    let q := c.newSeq
    match Table.freeKey s.seqs 65535 (seqKey p.val 1) with
    | none => s.finishOpen c.id stLimit
    | some key =>
      let n := key % 65536
      let ix := if q.live then Table.freeKey s.indexes 4096 0 else none
      if q.live && ix.isNone then s.finishOpen c.id stLimit
      else match s.newSeq p.val n q with
        | none => s.finishOpen c.id stNoSpace
        | some (q, s) =>
          let s := s.setSeq p.val n { q with liveIndex := ix }
          let s := match ix with
            | some k => s.setIndex k (liveOf p.val q s.sundial)
            | none => s
          s.finish c.id stOk n)

/-! ### SEQ_DESTROY (R137, R170) -/

/-- Whether a running query uses an index (R200). -/
def State.indexUsed (s : State) (k : Nat) : Bool := s.rbatches.any fun e => e.2.index == k

/-- Starts the destruction of an index; its record goes once no query uses it. -/
def State.dropIndex (s : State) (k : Nat) (owed : Option Nat) : State :=
  match s.index k with
  | none => s
  | some x =>
    if s.indexUsed k then s.setIndex k { x with dying := some owed }
    else
      let s := (x.lists.flatMap fun l => l.versions.flatMap (·.frames)).foldl State.freeFrame s
      { s with indexes := Table.del s.indexes k }

/-- Unmaps every page of a sequence: frames go to DRAIN until their HOLD ticks, those on peers are freed there. -/
def State.unmapAll (s : State) (p : Nat) (q : Seqn) : State :=
  (List.range (vpages q)).foldl (fun s v =>
    let e := s.pte q v
    if !e.valid then s
    else if e.tier = 2 then { s with draining := s.draining ++ [⟨p, 2, e.addr, some e.chip, e.hold⟩] }
    else s.drainFrame p e.addr e.hold) s

/-- Takes a sequence away (R137): open moves roll back, pages unmap with their tombstones, its live index and areas are released. What is
left of a LOST one goes the same way (R150, R391). -/
def State.destroySeq (s : State) (p n : Nat) (q : Seqn) : State :=
  let mine := s.journal.filter fun j => j.plot == p && j.seqNo == n
  let s := mine.foldl (fun s j => s.rollBack j.id) s
  let s := ((List.range (vpages q)).filter fun v => (s.pte q v).valid).foldl (fun s v => s.buryPage q v) s
  let s := s.unmapAll p q
  let s := match q.liveIndex with
    | some k => s.dropIndex k none
    | none => s
  let areas := s.frames.filter fun e => e.2.allocated && e.2.owner == p && e.2.seqNo == n &&
    (e.2.use == useTable || e.2.use == useTray || e.2.use == useGlobal)
  let s := areas.foldl (fun s e => s.freeFrame e.1) s
  let s := match q.mass with
    | some a => s.freeFrame a
    | none => s
  { s with
    seqs := Table.del s.seqs (seqKey p n)
    signing := s.signing.filter fun j => !(j.plot == p && j.seqNo == n) }

/-- SEQ_DESTROY; a sequence with a running commit answers BUSY. -/
def execSeqDestroy (p : PlotIx) (s : State) : Res :=
  .next (s.runSeqCommand p.val 0x02 (fun c => c.cleanFrom 8) fun c q s =>
    if q.commit.isSome || !q.held.isEmpty then s.finishOpen c.id stBusy
    else (s.destroySeq p.val c.seqNo q).finishOpen c.id stOk)

/-! ### GLOBAL_ADD (R154) -/

/-- Enters a position in the sorted list. -/
def insertGlobal (x : Nat × Nat) : List (Nat × Nat) → List (Nat × Nat)
  | [] => [x]
  | y :: ys => if x.1 < y.1 then x :: y :: ys else y :: insertGlobal x ys

/-- The key and value of offset `o`, head `h`, in list `k`; a page that is absent or a cutting gives free bytes (notes/assumptions/28). -/
def State.keyValue (s : State) (q : Seqn) (k o h : Nat) : List Byte × List Byte × State :=
  let e := s.pte q (k * npages q + o / pagePos q)
  let i := o % pagePos q
  if !e.valid || e.cutting then
    let (a, s) := s.peerBytes (keyRun q)
    let (b, s) := s.peerBytes (valRun q)
    (a, b, s)
  else
    let (a, s) := s.pageRead e (keyOff q (pagePos q) i h) (keyRun q)
    let (b, s) := s.pageRead e (valOff q (pagePos q) i h) (valRun q)
    (a, b, s)

/-- The first poisoned line under the keys and values of `n` positions from offset `first` (R259). -/
def State.keyPoison (s : State) (q : Seqn) (first n : Nat) : Option Nat :=
  (List.range (q.layers * q.groups)).findSome? fun k => (List.range n).findSome? fun i => (List.range (heads q)).findSome? fun h =>
    let o := first + i
    let e := s.pte q (k * npages q + o / pagePos q)
    if !e.valid || e.cutting || e.tier == 2 then none
    else (s.firstPoison (e.addr + keyOff q (pagePos q) (o % pagePos q) h) (keyRun q)).or
      (s.firstPoison (e.addr + valOff q (pagePos q) (o % pagePos q) h) (valRun q))

/-- Copies a position's keys and values into a slot of the global area. -/
def State.copyGlobal (s : State) (q : Seqn) (area o slot : Nat) : State :=
  let places := (List.range (q.layers * q.groups)).flatMap fun k => (List.range (heads q)).map fun h => (k, h)
  places.foldl (fun s kh =>
    let (a, b, s) := s.keyValue q kh.1 o kh.2
    let t := area + gtileOff q kh.1 (slot / 64)
    (s.putBytes (t + keyOff q 64 (slot % 64) kh.2) a).putBytes (t + valOff q 64 (slot % 64) kh.2) b) s

/-- GLOBAL_ADD (R154). -/
def execGlobalAdd (p : PlotIx) (s : State) : Res :=
  .next (s.runSeqCommand p.val 0x04 (fun c => c.cleanFrom 12) fun c q s =>
    let pos := c.arg 8 4
    if pos < q.base ∨ q.base + q.bound ≤ pos ∨ (q.globals.any fun e => e.1 == pos) = true then s.finishOpen c.id stBadArg
    else
      let slot := q.globals.length
      match q.garea with
      | none => s.finishOpen c.id stLimit
      | some area =>
        if q.gquota ≤ slot then s.finishOpen c.id stLimit
        else match s.keyPoison q (pos - q.base) 1 with
        | some line => (s.recordEcc line 2 false).finishOpen c.id stState
        | none =>
          let s := s.copyGlobal q area (pos - q.base) slot
          let s := s.putLe (area + gposOff q (slot / 64) + 4 * (slot % 64)) 4 pos
          (s.setSeq p.val c.seqNo { q with globals := insertGlobal (pos, slot) q.globals }).finishOpen c.id stOk)

/-! ### Ranges of positions: PIN, PREFETCH, MIGRATE -/

/-- Whether `n` positions from `first` lie in the slice. -/
def rangeOk (q : Seqn) (first n : Nat) : Bool := decide (q.base ≤ first) && decide (first + n ≤ q.base + q.maxSlice)

/-- The virtual pages that cover a range of positions. -/
def coverPages (q : Seqn) (first n : Nat) : List Nat := (pageSpan q (first - q.base) n).flatMap (pagesAt q)

/-- PIN (R137): PINNED of every mapped page that covers the range. -/
def execPin (p : PlotIx) (s : State) : Res :=
  .next (s.runSeqCommand p.val 0x07 (fun c => c.cleanFrom 17 && decide (c.arg 16 1 ≤ 1)) fun c q s =>
    if !rangeOk q (c.arg 8 4) (c.arg 12 4) then s.finishOpen c.id stBadArg
    else
      let s := (coverPages q (c.arg 8 4) (c.arg 12 4)).foldl (fun s v =>
        let e := s.pte q v
        if e.valid then s.setPte q v { e with pinned := c.arg 16 1 == 1 } else s) s
      s.finishOpen c.id stOk)

/-- Starts the prefetch of a page outside its home tier, where that tier stays above its low watermark (R167). -/
def State.prefetch (s : State) (p n : Nat) (q : Seqn) (v : Nat) : State :=
  let e := s.pte q v
  if !e.valid || e.tier == q.home then s
  else
    let x := s.pool p q.home
    let need := 2 ^ orderFor (formBytes q e)
    if x.ready < need ∨ 256 * (x.ready - need) ≤ s.fld Fld.KVM_POLICY_LOW p * x.total then s
    else match s.startMove p n q v q.home false none with
      | some (.ok s) => s
      | _ => s

/-- PREFETCH (R167). -/
def execPrefetch (p : PlotIx) (s : State) : Res :=
  .next (s.runSeqCommand p.val 0x06 (fun c => c.cleanFrom 16) fun c q s =>
    if !rangeOk q (c.arg 8 4) (c.arg 12 4) then s.finishOpen c.id stBadArg
    else ((coverPages q (c.arg 8 4) (c.arg 12 4)).foldl (fun s v => s.prefetch p.val c.seqNo q v) s).finishOpen c.id stOk)

/-- MIGRATE (R169): the mapped pages of the range that are not in the target tier and not moving already move as one batch of at most 64;
the command completes when every page has committed or rolled back. -/
def execMigrate (p : PlotIx) (s : State) : Res :=
  .next (s.runSeqCommand p.val 0x0B (fun c => c.cleanFrom 17 && decide (c.arg 16 1 ≤ 3)) fun c q s =>
    let tier := c.arg 16 1
    if !rangeOk q (c.arg 8 4) (c.arg 12 4) then s.finishOpen c.id stBadArg
    else
      let vs := (coverPages q (c.arg 8 4) (c.arg 12 4)).filter fun v =>
        let e := s.pte q v
        e.valid && e.tier != tier && !e.moving
      if 64 < vs.length then s.finishOpen c.id stLimit
      else if vs.isEmpty then s.finish c.id stOk 0
      else
        let s := (s.setSeq p.val c.seqNo { q with busy := q.busy + 1 }).stepFld Fld.KVM_MIGRATE_STATUS_BATCH p.val
        let x : Batch := ⟨p.val, c.id, c.seqNo, vs.length, 0, 0, s.fld Fld.KVM_MIGRATE_STATUS_BATCH p.val⟩
        let s := { s with batches := Table.put s.batches c.id x }.showBatch x mgCopying
        let s := s.setFld Fld.KVM_MIGRATE_STATUS_COUNT p.val vs.length
        vs.foldl (fun s v =>
          match s.tryMove p.val c.seqNo q v tier false (some c.id) with
          | (s, true) => s
          | (s, false) => s.closeBatch ⟨0, p.val, c.seqNo, v, 0, 0, 0, 0, tier, 0, none, 0, some c.id, false, 0, none, 0, 0⟩ false) s)

/-! ### After a commit point (R158, R160, R163) -/

/-- The signature of a filled page is due (R160, R216); where the plot supplies no projection the skip is logged. -/
def State.signPage (s : State) (p n : Nat) (q : Seqn) (v : Nat) : State :=
  match s.plot p with
  | none => s
  | some pl =>
    if q.liveIndex.isNone then s
    else if pl.sigProj = 0 then s.logEvent p 6 2 4 v
    else { s with signing := s.signing ++ [⟨p, n, v, s.sundial, false, none⟩] }

/-- Signs every page that a commit from offset `first` to `last` fills. -/
def State.signFilled (s : State) (p n : Nat) (q : Seqn) (first last : Nat) : State :=
  ((List.range (last / pagePos q)).drop (first / pagePos q)).foldl (fun s j =>
    (pagesAt q j).foldl (fun s v => if (s.pte q v).valid then s.signPage p n q v else s) s) s

/-- One page's score (R163): answers whether its mass word was negative or NaN. -/
def State.foldScore (s : State) (p : Nat) (q : Seqn) (mass v : Nat) : Bool × State :=
  let e := s.pte q v
  let w := s.readLe (mass + 4 * v) 4
  let m := decodeVal .fp32 w
  let odd := m.isNan || Val.lt m Val.zero
  let m := if odd || m.isZero then 0 else w
  let score := (fma32 e.score (s.reg .KVM_DECAY p).toNat m).1
  (odd, (s.setPte q v { e with score := score }).putLe (mass + 4 * v) 4 0)

/-- fold_scores (R163): windowed sequences with a mass area; an odd mass word is recorded once per fold. -/
def State.foldScores (s : State) (p n : Nat) (q : Seqn) : State :=
  match q.mass with
  | none => s
  | some a =>
    if !s.bit Fld.KVM_POLICY_EVICT_EN p then s
    else
      let vs := [0, 1, 2, 3].flatMap fun t => (s.seqCandidates t n q).map (·.page)
      let r := vs.foldl (fun (x : Bool × State) v => let y := x.2.foldScore p q a v; (x.1 || y.1, y.2)) (false, s)
      if r.1 then r.2.logEvent p 6 3 5 n else r.2

/-- Writes a new page's descriptor into the first unused entry of the table of every persistent stream that names its list (R158); HOLD
first takes the deadline of the task that runs the stream (R143). -/
def State.announce (s : State) (p n : Nat) (q : Seqn) (v : Nat) : State :=
  let k := v / npages q
  let d0 := pageDesc p n q k (v % npages q) (s.pte q v) 0 0 0 0
  (s.tableStreams p).foldl (fun s x =>
    let es := (List.range x.2.dcount).map fun i => s.loadLe (x.2.dtable + 64 * i) 64
    let mine := es.find? fun d => d != 0 && pdPlot d == p && pdSeq d == n && bitsAt d 144 16 == bitsAt d0 144 16
    match mine, es.findIdx? (· == 0) with
    | some d, some i =>
      let e := s.pte q v
      let s := s.setPte q v { e with hold := max e.hold (s.entryDeadline x.2 d) }
      s.putBytes (x.2.dtable + 64 * i) (leBytes 64 (d0 + bitsAt d 384 64 * 2 ^ 384 + i * 2 ^ 448))
    | _, _ => s) s

/-- Maps the next page in every list when the tail page has fewer than a quarter of its positions free (R158); pools without room are noted
(R161). -/
def State.premap (s : State) (p n : Nat) (q : Seqn) (last : Nat) : State :=
  if last = 0 then s
  else
    let j := (last - 1) / pagePos q
    if 4 * ((j + 1) * pagePos q - last) < pagePos q ∧ j + 1 < npages q then
      match s.mapAll p n q ((pagesAt q (j + 1)).filter fun v => !(s.pte q v).valid) with
      | some s => (pagesAt q (j + 1)).foldl (fun s v => s.announce p n q v) s
      | none => (s.press p q.home).press p 1
    else s

/-- The mass area of a windowed sequence whose plot set EVICT_EN after its creation (R163): taken at a commit point while there is room
(notes/assumptions/41). -/
def State.giveMass (s : State) (p n : Nat) (q : Seqn) : Option Nat × State :=
  if q.mass.isSome || q.wlog == 0 || !s.bit Fld.KVM_POLICY_EVICT_EN p then (q.mass, s)
  else match s.newArea p 0 useBuffer n (4 * vpages q) with
    | some (a, s) => (some a, s)
    | none => (none, s)

/-- The commit point (R157) and what follows it: the single write of BOUND, signatures, scores, the next page. -/
def State.commitPoint (s : State) (p n : Nat) (q : Seqn) (first count : Nat) : State :=
  let (mass, s) := s.giveMass p n q
  let q := { q with bound := first + count, mass := mass }
  let s := s.setSeq p n q
  let s := s.signFilled p n q first (first + count)
  (s.foldScores p n q).premap p n q (first + count)

/-- BASEPOS of a tray follows the first uncommitted position (R130). -/
def State.advanceBase (s : State) (q : Seqn) (bound : Nat) : State :=
  match q.tray with
  | none => s
  | some a => s.putLe (a + 4) 4 (max (s.readLe (a + 4) 4) (q.base + bound))

/-! ### COPY_PREFIX (R147) -/

/-- Whether two sequences hold the same shape. -/
def sameShape (a b : Seqn) : Bool :=
  a.layers == b.layers && a.groups == b.groups && a.hpg == b.hpg && a.dim == b.dim && a.kfmt == b.kfmt && a.vfmt == b.vfmt

/-- Copies `n` positions of `src` into mapped pages of `dst`. -/
def State.copyPositions (s : State) (p : Nat) (src dst : Seqn) (n : Nat) : State :=
  let places := (List.range (src.layers * src.groups)).flatMap fun k =>
    (List.range n).flatMap fun o => (List.range (heads src)).map fun h => (k, o, h)
  places.foldl (fun s x =>
    let (a, b, s) := s.keyValue src x.1 x.2.1 x.2.2
    let e := s.pte dst (x.1 * npages dst + x.2.1 / pagePos dst)
    let i := x.2.1 % pagePos dst
    let s := s.pageWrite p e (keyOff dst (pagePos dst) i x.2.2) a
    s.pageWrite p e (valOff dst (pagePos dst) i x.2.2) b) s

/-- COPY_PREFIX (R137, R147): the same sequence answers SHARED; the copy goes into new frames of an empty sequence. -/
def execCopyPrefix (p : PlotIx) (s : State) : Res :=
  .next (s.runSeqCommand p.val 0x08 (fun c => c.cleanFrom 16 && c.arg 10 2 == 0) fun c q s =>
    let n := c.arg 12 4
    if c.arg 8 2 = c.seqNo then
      let s := s.addSat Fld.KVM_BAD_FREE_COUNT_COUNT p.val 1
      (s.recordInfo .KVM_BAD_FREE_INFO p.val (5 * 2 ^ 24)).finishOpen c.id stShared
    else match s.seq p.val (c.arg 8 2) with
      | none => s.finishOpen c.id stNoSeq
      | some src =>
        if src.lost then s.finishOpen c.id stLost
        else if src.bound < n ∨ sameShape src q = false then s.finishOpen c.id stBadArg
        else if q.commit.isSome then s.finishOpen c.id stBusy
        else if q.bound ≠ 0 then s.finishOpen c.id stState
        else if q.maxSlice < n then s.finishOpen c.id stLimit
        else match s.keyPoison src 0 n with
        | some line => (s.recordEcc line 2 false).finishOpen c.id stState
        | none => match s.withRoom p.val [q.home, 1] fun s => s.mapAll p.val c.seqNo q ((pageSpan q 0 n).flatMap (pagesAt q)) with
          | .inr s => s.noRoom c [q.home, 1]
          | .inl s =>
            let s := s.copyPositions p.val src q n
            ((s.commitPoint p.val c.seqNo q 0 n).advanceBase q n).finishOpen c.id stOk)

end Sys2Proof.Machine
end

