-- ==== Sys2Proof/Machine/GroupDesc.lean ====
section
/-!
DEFINITION. Sequence groups as data (R176 to R178): the descriptor, this member's record, and the end of an attempt at a step (R180, R192).
-/

namespace Sys2Proof.Machine
open Sys2Proof

/-- Fields of a sequence group descriptor (R176). -/
structure GroupDesc where
  n : Nat
  self : Nat
  lead : Nat
  pattern : Nat
  slicing : Nat
  qgroup : Nat
  rgroup : Nat
  ngroup : Nat
  attempt : Nat
  seqNo : Nat
  late : Nat
  slice : Nat
  weights : Nat
  buf : Nat
  bufSize : Nat
  period : Nat
  start : Nat
  timeout : Nat
  step : Nat
  deriving DecidableEq, Repr

def State.groupDesc (s : State) (a : Nat) : GroupDesc :=
  let f := fun (o n : Nat) => s.loadLe (a + o) n
  ⟨f 0 2, f 2 2, f 4 2, f 6 1, f 7 1, f 8 1, f 9 1, f 0x0A 1, f 0x0B 1, f 0x0C 2, f 0x0E 2, f 0x10 4, f 0x14 4, f 0x18 8, f 0x20 4,
    f 0x24 4, f 0x28 8, f 0x30 4, f 0x38 8⟩

def ptDecode : Nat := 0
def ptKvRing : Nat := 1
def ptPartialRing : Nat := 2

/-- Collective groups that a pattern needs (R177), the first named first (R178). -/
def GroupDesc.needs (d : GroupDesc) : List Nat := if d.pattern = ptKvRing then [d.ngroup] else [d.qgroup, d.rgroup]

/-- TAG of a step (R181). -/
def stepTag (step attempt : Nat) : Nat := step % 2 ^ 24 * 256 + attempt

def GroupDesc.tag (d : GroupDesc) : Nat := stepTag d.step d.attempt

/-! ### Member records (R178) -/

def memberRec (b : List Byte) : MemberRec :=
  let f := fun (o n : Nat) => leNat ((b.drop o).take n)
  ⟨f 0 2, f 2 2, f 4 4, f 8 4, f 12 4⟩

def MemberRec.bytes (r : MemberRec) : List Byte := leBytes 2 r.chip ++ leBytes 2 r.self ++ leBytes 4 r.base ++ leBytes 4 r.len ++ leBytes 4 r.crc

/-- SHARED_CRC: the CRC-32C of what every member's descriptor holds alike, WEIGHT_CRC among it. -/
def State.sharedCrc (s : State) (a : Nat) : Nat :=
  crc32c (s.loadBytes a 2 ++ s.loadBytes (a + 0x04) 7 ++ s.loadBytes (a + 0x10) 8 ++ s.loadBytes (a + 0x20) 0x14)

/-- This member's record, from the descriptor at an address of plot `p`. -/
def State.ownRecord (s : State) (p a : Nat) : MemberRec :=
  let d := s.groupDesc a
  let q := s.seq p d.seqNo
  ⟨s.chipNo, d.self, (q.map (·.base)).getD 0, (q.map (·.maxSlice)).getD 0, s.sharedCrc a⟩

/-! ### The end of an attempt -/

/-- The attempt in force is over (R180, R184, R192): no piece of it is sent or taken any more, and the step's next attempt has the next
number, modulo 256. -/
def State.voidStep (s : State) (p : Nat) : State :=
  match Table.get s.groups p with
  | none => s
  | some x =>
    let d := s.groupDesc x.desc
    if d.pattern ≠ ptDecode ∨ x.tag = none then s
    else
      let k := (d.attempt + 1) % 256
      ({ s with groups := Table.put s.groups p { x with tag := none, header := [], pieces := [], opBase := [] } }.putLe (x.desc + 0x0B) 1 k).setFld
        Fld.ATT_GROUP_STATUS_ATTEMPT p k

/-- The lead abandons its step when the commit that its header counted on is not made (R180): its own task aborts
(notes/assumptions/58). -/
def State.abandonStep (s : State) (p n : Nat) : State :=
  match Table.get s.groups p with
  | none => s
  | some x =>
    let d := s.groupDesc x.desc
    if d.pattern = ptDecode ∧ d.self = d.lead ∧ d.seqNo = n ∧ x.tag.isSome = true then
      (s.voidStep p).abortTask x.task fcFrost (some fcFrost) none none
    else s

end Sys2Proof.Machine
end

