-- ==== Sys2Proof/Machine/KvmTray.lean ====
section
/-!
DEFINITION. The seed tray's commands (R130 to R133, R139) and the Dibber (R156 to R159): commits from the tray and from staging
buffers, on this chip or on the tail of a group (R185).
-/

namespace Sys2Proof.Machine
open Sys2Proof

/-! ### The header (R130) -/

def State.trayState (s : State) (a : Nat) : Nat := s.readLe a 1
def State.trayNodes (s : State) (a : Nat) : Nat := s.readLe (a + 1) 1
def State.trayAccept (s : State) (a : Nat) : Nat := s.readLe (a + 2) 1
def State.trayBase (s : State) (a : Nat) : Nat := s.readLe (a + 4) 4
def State.trayStep (s : State) (a : Nat) : Nat := s.readLe (a + 8) 8
def State.trayParent (s : State) (a k : Nat) : Nat := s.readLe (a + 0x10 + k) 1
def State.trayPath (s : State) (a k : Nat) : Nat := s.readLe (a + 0x20 + k) 1
def State.trayGen (s : State) (a : Nat) : Nat := s.readLe (a + 0x72) 2

/-- Returns a tray to EMPTY: PATH cleared to 0xFF, ACCEPT 0 (R132). -/
def State.emptyTray (s : State) (a : Nat) : State :=
  ((s.putLe a 1 tsEmpty).putLe (a + 2) 1 0).putBytes (a + 0x20) (List.replicate 16 0xFF)

/-- A tray command that its state refuses: STATE, recorded in the plot's event log (R132). -/
def State.refuseTray (s : State) (c : Cmd) : State := (s.logEvent c.plot 6 2 6 c.op).finishOpen c.id stState

/-! ### TRAY_FILL, TRAY_ACCEPT, TRAY_DISCARD -/

/-- Whether a range lies in the plot's bonded-DRAM window. -/
def State.inDram (s : State) (p a n : Nat) : Bool :=
  s.ownsRange p a n && (match placeOf a with
    | .dram _ _ => true
    | _ => false)

/-- The checks of a fill record (R130, R139). -/
def fillOk (r : List Byte) : Bool :=
  let n := (r.getD 0 0).toNat
  decide (1 ≤ n) && decide (n ≤ 16) && ((r.drop 1).take 15).all (· == 0) && (r.drop 0x60).all (· == 0) &&
  r.getD 0x10 0 == 0xFF && ((List.range n).drop 1).all fun k => decide ((r.getD (0x10 + k) 0).toNat < k)

/-- TRAY_FILL (R132, R139): NODES, PARENT and TOKEN come from the fill record, GENERATION is the chip's tag. -/
def execTrayFill (p : PlotIx) (s : State) : Res :=
  .next (s.runSeqCommand p.val 0x10 (fun c => c.cleanFrom 16) fun c q s =>
    match q.tray with
    | none => s.refuseTray c
    | some a =>
      if s.trayState a ≠ tsEmpty then s.refuseTray c
      else if !s.inDram p.val (c.arg 8 8) 128 then s.finishOpen c.id stBadArg
      else
        let s := s.noteRead (c.arg 8 8) 128
        let r := s.loadBytes (c.arg 8 8) 128
        if !fillOk r then s.finishOpen c.id stBadArg
        else
          let s := (s.putLe a 1 tsFilling).putBytes (a + 1) (r.take 1)
          let s := (s.putBytes (a + 0x10) ((r.drop 0x10).take 16)).putBytes (a + 0x30) ((r.drop 0x20).take 64)
          (s.putLe (a + 0x72) 2 s.chipTag).finish c.id stOk 0)

/-- Whether an accepted path is valid (R133). -/
def State.pathOk (s : State) (a : Nat) (path : List Nat) : Bool :=
  decide (1 ≤ path.length) && decide (path.length ≤ s.trayNodes a) && path.headD 1 == 0 && path.all (fun k => decide (k < s.trayNodes a)) &&
  (List.zip path path.tail).all fun e => s.trayParent a e.2 == e.1

/-- TRAY_ACCEPT (R132, R133). -/
def execTrayAccept (p : PlotIx) (s : State) : Res :=
  .next (s.runSeqCommand p.val 0x11 (fun c => c.cleanFrom 32 && c.arg 9 7 == 0 && decide (c.arg 8 1 ≤ 16) &&
      ((List.range 16).drop (c.arg 8 1)).all fun k => c.arg (16 + k) 1 == 0xFF) fun c q s =>
    match q.tray with
    | none => s.refuseTray c
    | some a =>
      if s.trayState a ≠ tsFilling then s.refuseTray c
      else
        let path := (List.range (c.arg 8 1)).map fun k => c.arg (16 + k) 1
        if !s.pathOk a path then s.finishOpen c.id stBadArg
        else
          let s := (s.putLe a 1 tsVerified).putLe (a + 2) 1 path.length
          (s.putLe (a + 0x20) 16 (c.arg 16 16)).finish c.id stOk 0)

/-- TRAY_DISCARD (R132). -/
def execTrayDiscard (p : PlotIx) (s : State) : Res :=
  .next (s.runSeqCommand p.val 0x12 (fun c => c.cleanFrom 8) fun c q s =>
    match q.tray with
    | none => s.refuseTray c
    | some a =>
      if s.trayState a = tsFilling ∨ s.trayState a = tsVerified then (s.emptyTray a).finish c.id stOk 0 else s.refuseTray c)

/-! ### The Dibber (R156) -/

/-- What the preparation of a commit comes to: its pages are mapped, a refusal, or no room after the pressure steps. -/
inductive Prepared where
  | ready (s : State)
  | refused (status : Nat)
  | noRoom (s : State)

/-- Maps the pages that positions from offset `first` need; LIMIT beyond MAXSLICE (R156, R158). -/
def State.prepareCommit (s : State) (p n : Nat) (q : Seqn) (first count : Nat) : Prepared :=
  if q.maxSlice < first + count then .refused stLimit
  else
    let need (s : State) : List Nat := ((pageSpan q first count).flatMap (pagesAt q)).filter fun v => !(s.pte q v).valid
    match s.withRoom p [q.home, 1] fun s => s.mapAll p n q (need s) with
    | .inl s => .ready s
    | .inr s => .noRoom s

/-- Writes a part of a page for a commit and counts what is acknowledged (R156): at once where the page is on this chip, unless the write
meets a poisoned line; by the peer's answer elsewhere. -/
def State.scatterWrite (p n : Nat) (e : Pte) (off : Nat) (bs : List Byte) (r : State × Nat) : State × Nat :=
  if e.tier = 2 then
    (r.1.writeParts (.commit p n) { Msg.to .write 5 p e.chip with addr := e.addr + off, epoch := e.epoch, gen := r.1.chipTag, data := bs },
      r.2)
  else match r.1.storeBytes (e.addr + off) bs with
    | (s, some line) => (s.recordEcc line 3 false, r.2)
    | (s, none) => (s, r.2 + bs.length)

/-- The scatter of a commit's keys and values (R156): `fetch` answers `n` bytes at an offset of the source's layer blocks, of `slots`
nodes; position `i` is node `nodes[i]`. Answers the bytes acknowledged at once. -/
def State.scatter (s : State) (p n : Nat) (q : Seqn) (first slots : Nat) (nodes : List Nat) (fetch : Nat → Nat → List Byte) : State × Nat :=
  let places := (List.range (q.layers * q.groups)).flatMap fun k =>
    nodes.zipIdx.flatMap fun e => (List.range (heads q)).map fun h => (k, e, h)
  places.foldl (fun r x =>
    let (k, (node, i), h) := x
    let o := first + i
    let e := r.1.pte q (k * npages q + o / pagePos q)
    let gh := k % q.groups * heads q + h
    let r := State.scatterWrite p n e (keyOff q (pagePos q) (o % pagePos q) h) (fetch (trayKey q slots (k / q.groups) node gh) (keyRun q)) r
    State.scatterWrite p n e (valOff q (pagePos q) (o % pagePos q) h) (fetch (trayVal q slots (k / q.groups) node gh) (valRun q)) r) (s, 0)

/-- Bytes of a commit of `count` positions (R156). -/
def commitBytes (q : Seqn) (count : Nat) : Nat := count * (q.layers * q.groups * heads q * (keyRun q + valRun q))

/-- The APPEND descriptors of a commit's scatter stream (R151, R156): every page it writes, in each layer and group. -/
def State.appendDescs (s : State) (p n : Nat) (q : Seqn) (first count : Nat) : List Nat :=
  let pages := (pageSpan q first count).flatMap (pagesAt q)
  pages.zipIdx.map fun e => pageDesc p n q (e.1 / npages q) (e.1 % npages q) (s.pte q e.1) 4 0 0 e.2

/-- The source of a commit: nodes of its layer blocks, the nodes in position order, the bytes at an offset. -/
def State.commitSource (s : State) (q : Seqn) (k : Commit) : Nat × List Nat × (Nat → Nat → List Byte) :=
  match k.handle, k.lead, q.tray with
  | some h, _, _ => (k.count, List.range k.count, fun o m => s.loadBytes (hAddr h + o) m)
  | none, some _, _ => (k.count, List.range k.count, fun o m => (k.data.drop o).take m)
  | none, none, some a => (16, (List.range k.count).map (s.trayPath a), fun o m => s.loadBytes (a + 4096 + o) m)
  | none, none, none => (0, [], fun _ _ => [])

/-- Runs a commit's scatter stream from its source, the first time or again (R156, R159). -/
def State.runScatter (s : State) (p n : Nat) (q : Seqn) (k : Commit) : State :=
  let src := s.commitSource q k
  let descs := s.appendDescs p n q k.first k.count
  let s := { s with reqs := s.reqs.filter fun r => r.who != Requester.commit p n }
  let r := s.scatter p n q k.first src.1 src.2.1 src.2.2
  r.1.setSeq p n { q with commit := some { k with descs := descs, bytes := commitBytes q k.count, acked := r.2 } }

/-- Whether a commit's scatter has ended without every byte acknowledged. -/
def State.commitBroken (s : State) (p n : Nat) (k : Commit) : Bool :=
  decide (k.acked < k.bytes) && !s.reqs.any fun r => r.who == Requester.commit p n

/-- The member of the plot's group whose slice holds a position (R175), where it is not this chip. -/
def State.tailChip (s : State) (p pos : Nat) : Option Nat :=
  match Table.get s.groups p with
  | none => none
  | some g => (g.recs.find? fun r => decide (r.base ≤ pos) && decide (pos < r.base + r.len) && r.chip != s.chipNo).map (·.chip)

/-- The keys and values of a tray's path as the tail reads them over the fabric: layer blocks of as many nodes as the path has. -/
def State.pathData (s : State) (q : Seqn) (a : Nat) (path : List Nat) : List Byte :=
  let runs (l : Nat) (off : Nat → Nat) (n : Nat) : List Byte := path.flatMap fun k =>
    (List.range (heads q * q.groups)).flatMap fun h => s.loadBytes (a + 4096 + off (trayKey q 16 l k h)) n
  (List.range q.layers).flatMap fun l =>
    runs l id (dims q * trayElem q) ++ runs l (· + layerBlock q 16 / 2) (dims q * trayElem q)

/-- TRAY_COMMIT (R132, R156, R185): the Dibber appends the path's nodes at BOUND; when the tail is another chip the commit is forwarded
there. A tray with a poisoned line is refused with STATE. The command completes after "Dibber done". -/
def execTrayCommit (p : PlotIx) (s : State) : Res :=
  .next (s.runSeqCommand p.val 0x13 (fun c => c.cleanFrom 8) fun c q s =>
    match q.tray with
    | none => s.refuseTray c
    | some a =>
      if s.trayState a ≠ tsVerified then s.refuseTray c
      else match s.firstPoison (a + 4096) (q.layers * layerBlock q 16) with
      | some line => (s.recordEcc line 2 false).finishOpen c.id stState
      | none =>
        let n := s.trayAccept a
        let path := (List.range n).map (s.trayPath a)
        let base := s.trayBase a
        let k : Commit := ⟨none, base - q.base, n, c.id, none, 0, s.trayGen a, none, false, [], 0, 0, []⟩
        if base = q.base + q.bound ∧ q.bound < q.maxSlice then
          match s.prepareCommit p.val c.seqNo q q.bound n with
          | .refused st => s.finishOpen c.id st
          | .noRoom s => s.noRoom c [q.home, 1]
          | .ready s => (s.putLe a 1 tsCommitting).runScatter p.val c.seqNo q k
        else match s.tailChip p.val base with
          | none => s.finishOpen c.id (if base < q.base + q.bound then stState else stLimit)
          | some chip =>
            let s := s.send { Msg.to .peerCommit 1 p.val chip with
              addr := a, gen := s.chipTag, tag := c.id, data := leBytes 4 base ++ leBytes 1 n ++ leBytes 2 (s.trayGen a) ++ s.pathData q a path }
            (s.putLe a 1 tsCommitting).setSeq p.val c.seqNo { q with commit := some { k with tail := some chip } })

/-- APPEND (R156, R158): `count` positions from a staging buffer of the plot, laid out as layer blocks of `count` nodes
(notes/assumptions/29). -/
def execAppend (p : PlotIx) (s : State) : Res :=
  .next (s.runSeqCommand p.val 0x03 (fun c => c.cleanFrom 20) fun c q s =>
    let h := c.arg 8 8
    let n := c.arg 16 4
    let open' := match q.tray with
      | some a => s.trayState a != tsEmpty
      | none => false
    match s.checkFree p.val h none with
    | .bad _ st => s.finishOpen c.id st
    | .ok =>
      let a := hAddr h
      let size := (Table.get s.frames a).elim 0 fun f => frameBytes f.order
      if open' then s.finishOpen c.id stState
      else if n = 0 ∨ size < q.layers * layerBlock q n then s.finishOpen c.id stBadArg
      else match s.firstPoison a (q.layers * layerBlock q n) with
        | some line => (s.recordEcc line 2 false).finishOpen c.id stState
        | none => match s.prepareCommit p.val c.seqNo q q.bound n with
          | .refused st => s.finishOpen c.id st
          | .noRoom s => s.noRoom c [q.home, 1]
          | .ready s => s.runScatter p.val c.seqNo q ⟨some h, q.bound, n, c.id, none, 0, hGen h, none, false, [], 0, 0, []⟩)

/-- Returns the outcome of a forwarded commit to its lead (R185). -/
def State.answerLead (s : State) (plot chip tag gen status : Nat) : State :=
  s.send { Msg.to .commitPoint 1 plot chip with tag := tag, gen := gen, op := status }

/-- A forwarded commit on the tail (R159, R185): checked, prepared and run; a refusal is returned with its status. One that finds no room
waits while the pressure it met is handled. -/
def State.tailCommit (s : State) (p n : Nat) (q : Seqn) (h : HeldCommit) : State :=
  let m := h.from'
  let no := fun (s : State) (st : Nat) => s.answerLead m.plot m.chip m.tag m.gen st
  if q.lost then no s stLost
  else if h.generation ≠ m.gen ∨ h.pos ≠ q.base + q.bound then no s stState
  else match s.prepareCommit p n q q.bound h.count with
    | .refused st => no s st
    | .noRoom s => if s.relieving p [q.home, 1] then s.setSeq p n { q with held := h :: q.held } else no s stNoSpace
    | .ready s => s.runScatter p n q ⟨none, q.bound, h.count, m.tag, some m.chip, m.gen, h.generation, none, false, [], 0, 0, h.data⟩

/-- Runs the next commit that waits for a sequence (R157, R185). -/
def State.takeHeld (s : State) (p n : Nat) : State :=
  match s.seq p n with
  | none => s
  | some q => match q.commit, q.held with
    | none, h :: rest => (s.setSeq p n { q with held := rest }).tailCommit p n { q with held := rest } h
    | _, _ => s

/-- PEER_COMMIT (R157, R185): the tail runs a commit that the lead forwarded, its bytes read from the lead's tray; one that meets a running
commit waits for it. `generation` is the tray's GENERATION, `lead.gen` the lead's tag (R159). -/
def execPeerCommit (lead : HostMsg) (p : PlotIx) (n pos count generation : Nat) (data : List Byte) (s : State) : Res :=
  match s.seq p.val n with
  | none => .next (s.answerLead lead.plot lead.chip lead.tag lead.gen stNoSeq)
  | some q =>
    .next ((s.setSeq p.val n { q with held := q.held ++ [⟨lead, pos, count, generation, data⟩] }).takeHeld p.val n)

/-- Whether the source of a commit is intact (R159): the staging handle's generation is unchanged, or the tray's GENERATION is the current
tag of its lead, this chip or the one that forwarded the commit. -/
def State.sourceIntact (s : State) (p : Nat) (k : Commit) : Bool :=
  match k.handle with
  | some h => decide (s.checkFree p h none = .ok)
  | none => k.generation == (if k.lead.isSome then k.leadTag else s.chipTag)

/-- COMMIT_POINT (R157): every byte is acknowledged and BOUND still equals the first offset; the write of BOUND makes the positions
visible. APPEND completes; a commit for a lead returns the commit point (R185), and the next commit that waits may run. -/
def execCommitPoint (p : PlotIx) (n : Nat) (s : State) : Res := s.byService <|
  match s.seq p.val n with
  | none => .next s
  | some q => match q.commit with
    | none => .next (s.takeHeld p.val n)
    | some k =>
      if k.tail.isSome || k.pointed || q.bound != k.first || k.acked != k.bytes then .next s
      else match k.handle, k.lead with
        | some _, _ =>
          let s := s.commitPoint p.val n { q with commit := none } k.first k.count
          .next (((s.advanceBase q (k.first + k.count)).finishOpen k.tag stOk).takeHeld p.val n)
        | none, some chip =>
          let s := s.commitPoint p.val n { q with commit := none } k.first k.count
          .next ((s.answerLead p.val chip k.tag k.generation stOk).takeHeld p.val n)
        | none, none => .next (s.commitPoint p.val n { q with commit := some { k with pointed := true } } k.first k.count)

/-- Whether a message is the tail's answer to a forwarded commit (R185), by its tag and the chip it was sent to. -/
def Commit.answeredBy (k : Commit) (m : HostMsg) : Bool := k.tail == some m.chip && k.tag == m.tag

/-- DIBBER_DONE (R132, R157, R185): after the commit point, or once the tail has returned it, BASEPOS increases by A, STEP by one, the tray
is EMPTY; TRAY_COMMIT completes with the new STEP. A return with an old tag is dropped (R403). -/
def execDibberDone (p : PlotIx) (n : Nat) (tail : Option HostMsg) (s : State) : Res := s.byService <|
  match s.seq p.val n with
  | none => .next s
  | some q => match q.commit, q.tray with
    | some k, some a =>
      if tail.any fun m => m.gen != s.chipTag then .next s.countStale
      else if k.handle.isSome || k.lead.isSome || !(if k.tail.isSome then tail.any k.answeredBy else k.pointed) then .next s
      else
        let s := (s.putLe (a + 4) 4 (s.trayBase a + k.count)).putLe (a + 8) 8 (s.trayStep a + 1)
        let s := (s.emptyTray a).setSeq p.val n { q with commit := none }
        .next (s.finish k.tag stOk (s.trayStep a))
    | _, _ => .next s

/-- Whether a commit rolls back here (R159): its source is not intact, BOUND has moved, or its scatter broke; one that runs on the tail only
by the tail's word, or where this chip's tag has stepped. -/
def State.rollsBack (s : State) (p n : Nat) (q : Seqn) (k : Commit) (tail : Option (HostMsg × Nat)) : Bool :=
  !k.pointed && (if k.tail.isSome then tail.any (fun r => k.answeredBy r.1 && r.2 != stOk) || !s.sourceIntact p k
    else !s.sourceIntact p k || q.bound != k.first || s.commitBroken p n k)

/-- The end of a commit that is not made: the tray is EMPTY after a rollback and VERIFIED again after a refusal, the step that the lead has
begun behind it is abandoned (R180), the lead or the command is answered (R132, R138, R159; notes/assumptions/30). -/
def State.dropCommit (s : State) (p n : Nat) (q : Seqn) (k : Commit) (status : Nat) : State :=
  let s := { s with reqs := s.reqs.filter fun r => r.who != Requester.commit p n }
  let s := s.setSeq p n { q with commit := none }
  let s := match k.handle, k.lead, q.tray with
    | none, none, some a => (if status = stState then s.emptyTray a else s.putLe a 1 tsVerified).abandonStep p n
    | _, _, _ => s
  match k.lead with
  | some chip => (s.answerLead p chip k.tag k.generation status).takeHeld p n
  | none => (s.finishOpen k.tag status).takeHeld p n

/-- DIBBER_ROLLED_BACK (R132, R159, R185): an interrupted commit that cannot complete rolls back: BOUND stays, the tray is EMPTY, the
command completes with STATE. `tail` is what the tail of a forwarded commit returned instead of the commit point, its refusal among them. -/
def execDibberRolledBack (p : PlotIx) (n : Nat) (tail : Option (HostMsg × Nat)) (s : State) : Res := s.byService <|
  match s.seq p.val n with
  | none => .next s
  | some q => match q.commit with
    | none => .next s
    | some k =>
      if tail.any fun r => r.1.gen != s.chipTag then .next s.countStale
      else if !s.rollsBack p.val n q k tail then .next s
      else .next (s.dropCommit p.val n q k (if k.tail.isSome then tail.elim stState (·.2) else stState))

end Sys2Proof.Machine
end

