-- ==== Sys2Proof/Machine/KvmWalk.lean ====
section
/-!
DEFINITION. The walk (R151 to R153, R219): page descriptors for the rows of a task of this chip or of a peer.
-/

namespace Sys2Proof.Machine
open Sys2Proof

/-! ### Recall lists (R218) -/

/-- Entries of one section. -/
def State.recallEntries (s : State) (a layer group tile : Nat) (n : Nat) : List RecallItem :=
  (List.range n).map fun i =>
    let e := a + 16 * i
    ⟨layer, group, tile, s.loadLe e 4, s.loadLe (e + 4) 2, s.loadLe (e + 8) 8⟩

/-- The sections of a recall list from address `a`. -/
def State.recallSections : Nat → State → Nat → List RecallItem
  | 0, _, _ => []
  | k + 1, s, a =>
    let n := s.loadLe (a + 4) 2
    s.recallEntries (a + 8) (s.loadLe a 1) (s.loadLe (a + 1) 1) (s.loadLe (a + 2) 1) n ++
      State.recallSections k s (a + 8 + 16 * n)

/-- A recall list in memory. -/
def State.recallList (s : State) (a : Nat) : List RecallItem :=
  if a = 0 then [] else State.recallSections (s.loadLe (a + 8) 2) s (a + 16)

/-- This chip's member index in the plot's group; 0 without a group (R176). -/
def State.selfMember (s : State) (p : Nat) : Nat :=
  match Table.get s.groups p with
  | some g => s.loadLe (g.desc + 2) 2
  | none => 0

/-! ### What the rows see (R125, R126, R152) -/

/-- Whether a position lies in the window of a row. CAUSAL is no argument of a walk: either setting counts (notes/assumptions/31). -/
def rowSees (q : Seqn) (r : WalkRow) (pos : Nat) : Bool := decide (r.pos - pos < 2 ^ q.wlog) && decide (pos - r.pos < 2 ^ q.wlog)

/-- visible_range (R152): the slice offsets any row can see: the whole bound for dense sequences and global rows, else the hull of the
windows. -/
def visibleRange (q : Seqn) (rows : List WalkRow) : Option (Nat × Nat) :=
  if q.bound = 0 then none
  else if q.wlog = 0 ∨ rows.any (·.global) = true then some (0, q.bound - 1)
  else match rows with
    | [] => none
    | r :: rs =>
      let lo := (rs.map (·.pos)).foldl min r.pos + 1 - 2 ^ q.wlog
      let hi := (rs.map (·.pos)).foldl max r.pos + 2 ^ q.wlog - 1
      let lo := max lo q.base - q.base
      let hi := min (hi - q.base) (q.bound - 1)
      if (rs.map (·.pos)).foldl max r.pos + 2 ^ q.wlog ≤ q.base ∨ hi < lo then none else some (lo, hi)

/-- Whether every row that chose a page has all of it in its window. -/
def inEveryWindow (q : Seqn) (rows : List WalkRow) (j : Nat) (items : List RecallItem) : Bool :=
  let first := q.base + j * pagePos q
  items.all fun it => (List.range 64).all fun r =>
    !it.mask.testBit r || (match rows[64 * it.tile + r]? with
      | some w => rowSees q w first && rowSees q w (first + pagePos q - 1)
      | none => false)

/-! ### The row table (R110, R137) -/

/-- Where a plot's row table offsets count from (notes/assumptions/31): the start of its bonded-DRAM window in the region of its rings. -/
def State.rowBase (s : State) (p : Nat) : Option Nat :=
  match s.plot p with
  | none => none
  | some q => match placeOf q.rings with
    | .dram r _ => some (dramBase r + q.dramBase.getD r 0 * gib)
    | _ => none

/-- The `n` entries of a row table at address `a`: positions and GLOBAL flags. -/
def State.walkRows (s : State) (a n : Nat) : List WalkRow :=
  (List.range n).map fun i => ⟨s.loadLe (a + 8 * i) 4, (s.loadLe (a + 8 * i + 4) 1).testBit 0⟩

/-! ### The walk -/

/-- A walk in progress: descriptors so far in WALKSEQ order, recalled pages not found, contiguous pages not mapped, pages outside their home
tier, failure. -/
structure WalkAcc where
  st : State
  descs : List Nat
  miss : Nat
  absent : Nat
  far : List Nat
  failed : Option Nat
  deriving DecidableEq, Repr

/-- emit (R152): HOLD is updated before the descriptor is posted. -/
def WalkAcc.emit (w : WalkAcc) (p n : Nat) (q : Seqn) (a : WalkArgs) (k j kind mask : Nat) : WalkAcc :=
  if w.failed.isSome then w
  else
    let v := k * npages q + j
    let e := w.st.pte q v
    if !e.valid then (if kind = 2 then { w with miss := w.miss + 1 } else { w with absent := w.absent + 1 })
    else if e.cutting && !a.cutOk then { w with failed := some stCutting }
    else
      let e := { e with hold := max e.hold a.deadline }
      { w with
        st := w.st.setPte q v e
        descs := w.descs ++ [pageDesc p n q k j e kind mask a.deadline w.descs.length]
        far := if e.tier = q.home then w.far else w.far ++ [v] }

/-- The descriptor of an occupied global tile (R151, R154). -/
def WalkAcc.emitGlobal (w : WalkAcc) (p n : Nat) (q : Seqn) (a : WalkArgs) (k area t : Nat) : WalkAcc :=
  if w.failed.isSome then w
  else
    let epoch := (Table.get w.st.frames area).elim 0 (·.epoch)
    { w with descs := w.descs ++ [area + gtileOff q k t + epoch * 2 ^ 64 + n * 2 ^ 128 + (k / q.groups) * 2 ^ 144 +
      (k % q.groups) * 2 ^ 152 + 6 * 2 ^ 160 + (q.home + 16) * 2 ^ 168 + p * 2 ^ 184 + (area + gposOff q t) * 2 ^ 320 +
      a.deadline * 2 ^ 384 + w.descs.length * 2 ^ 448] }

/-- The descriptor of the seed-tray tile (R151). -/
def WalkAcc.emitTray (w : WalkAcc) (p n : Nat) (q : Seqn) (a : WalkArgs) (k : Nat) : WalkAcc :=
  if w.failed.isSome then w
  else match q.tray with
    | none => { w with failed := some stState }
    | some t =>
      let chip := if w.st.hasCoord then w.st.chipNo else 0xFFFF
      { w with descs := w.descs ++ [t + chip * 2 ^ 48 + w.st.trayBase t * 2 ^ 96 + n * 2 ^ 128 + (k / q.groups) * 2 ^ 144 +
        (k % q.groups) * 2 ^ 152 + 4 * 2 ^ 160 + 3 * 16 * 2 ^ 168 + p * 2 ^ 184 + a.deadline * 2 ^ 384 +
        w.descs.length * 2 ^ 448] }

/-- The recalled pages of a layer and group that this member holds, ascending, with the items that name each (R219). -/
def recalledPages (q : Seqn) (self l g : Nat) (items : List RecallItem) : List (Nat × List RecallItem) :=
  let mine := items.filter fun it => it.layer == l && it.group == g && it.member == self && decide (q.base ≤ it.first)
  (List.range (npages q)).filterMap fun j =>
    match mine.filter fun it => (it.first - q.base) / pagePos q == j with
    | [] => none
    | l => some (j, l)

/-- One layer and group (R152): contiguous pages, global tiles, recalled pages, the seed-tray tile. -/
def WalkAcc.list (w : WalkAcc) (p n : Nat) (q : Seqn) (a : WalkArgs) (rows : List WalkRow) (self : Nat) (items : List RecallItem)
    (k : Nat) : WalkAcc :=
  let w := match visibleRange q rows with
    | none => w
    | some (lo, hi) => ((List.range (hi / pagePos q + 1)).drop (lo / pagePos q)).foldl (fun w j => w.emit p n q a k j 0 0) w
  let w := if q.wlog = 0 then w
    else
      let w := match q.garea with
        | none => w
        | some area => (List.range (ceilDiv q.globals.length 64)).foldl (fun w t => w.emitGlobal p n q a k area t) w
      (recalledPages q self (k / q.groups) (k % q.groups) items).foldl (fun w e =>
        if inEveryWindow q rows e.1 e.2 then w
        else w.emit p n q a k e.1 2 (e.2.foldl (fun m it => m ||| it.mask) 0)) w
  if a.tree then w.emitTray p n q a k else w

/-- The lists a walk visits: its layers, and in each the groups of its mask ascending. -/
def WalkArgs.lists (a : WalkArgs) (q : Seqn) : List Nat :=
  ((List.range a.layerCount).map (a.layerFirst + ·)).flatMap fun l =>
    ((List.range q.groups).filter fun g => a.groups.testBit g).map fun g => l * q.groups + g

/-- Runs a walk (R152). -/
def State.walk (s : State) (p n : Nat) (q : Seqn) (a : WalkArgs) (rows : List WalkRow) (self : Nat) (items : List RecallItem) : WalkAcc :=
  (a.lists q).foldl (fun w k => w.list p n q a rows self items k) ⟨s, [], 0, 0, [], none⟩

/-- Whether the arguments lie in the sequence. -/
def WalkArgs.ok (a : WalkArgs) (q : Seqn) : Bool :=
  decide (a.layerFirst + a.layerCount ≤ q.layers) && decide (a.groups < 2 ^ q.groups)

/-- The armed stream of a task that takes the descriptors of its walks. -/
def State.walkStream (s : State) (p tag : Nat) : Option Nat :=
  match s.tasks.find? fun e => e.2.plot == p && e.2.tag == tag && e.2.accepted with
  | none => none
  | some e => e.2.body.walk.bind fun k => (s.streams.find? fun x => decide (x.2.task = e.1) && x.2.place == k).map (·.1)

/-- Posts a walk's descriptors for a task: as many as its stream's queue holds go there at once, the rest wait (R152, R232). -/
def State.postWalk (s : State) (p tag : Nat) (descs : List Nat) : State :=
  let s : State := match s.walks.find? fun w => w.plot == p && w.task == tag with
    | some _ => { s with walks := s.walks.map fun w => if w.plot = p ∧ w.task = tag then { w with descs := w.descs ++ descs } else w }
    | none => { s with walks := s.walks ++ [⟨p, tag, descs⟩] }
  match s.walkStream p tag with
  | some i => s.feedQueue i
  | none => s

/-- What ends every walk: the log summary with RECALL_MISS and the absent contiguous pages, and the prefetch of pages outside their home
tier (R152, R167). -/
def WalkAcc.close (w : WalkAcc) (p n : Nat) (q : Seqn) : State :=
  let s := w.st.logEvent p 6 2 7 (w.absent * 2 ^ 32 + w.miss)
  w.far.foldl (fun s v => s.prefetch p n q v) s

/-- WALK (R110, R137, R151, R152): `rows` is the number of entries in the task's row table, which the command does not carry. -/
def execWalk (p : PlotIx) (rows : Nat) (s : State) : Res :=
  .next (s.runSeqCommand p.val 0x05 (fun c => c.cleanFrom 41 && c.arg 12 4 == 0 && decide (c.arg 40 1 < 4)) fun c q s =>
    let a : WalkArgs := ⟨c.arg 16 8, c.arg 24 1, c.arg 25 1, c.arg 26 2, (c.arg 40 1).testBit 0, (c.arg 40 1).testBit 1⟩
    let recalls := c.arg 32 8
    let table := (s.rowBase p.val).elim 0 (· + c.arg 28 4)
    if !a.ok q || (recalls != 0 && !s.ownsByte p.val recalls) || !s.ownsRange p.val table (8 * rows) then s.finishOpen c.id stBadArg
    else
      let s := s.noteRead table (8 * rows)
      let w := s.walk p.val c.seqNo q a (s.walkRows table rows) (s.selfMember p.val) (s.recallList recalls)
      let s := { w with st := w.st.postWalk p.val (c.arg 8 4) w.descs }.close p.val c.seqNo q
      match w.failed with
      | some st => s.finishOpen c.id st
      | none => s.finish c.id stOk w.descs.length)

/-- PEER_WALK (R153): a walk for a task on a peer, with that task's deadline; descriptors and then the count and status go back to it. -/
def execPeerWalk (m : HostMsg) (p : PlotIx) (n : Nat) (a : WalkArgs) (rows : List WalkRow) (recalls : List RecallItem) (s : State) : Res :=
  let answer := fun (s : State) (st count : Nat) => s.send { Msg.to .walkDescriptor 1 m.plot m.chip with
    tag := m.tag, gen := m.gen, op := st, data := leBytes 4 count }
  match s.seq p.val n with
  | none => .next (answer s stNoSeq 0)
  | some q =>
    if q.lost then .next (answer s stLost 0)
    else if !a.ok q then .next (answer s stBadArg 0)
    else
      let w := s.walk p.val n q a rows (s.selfMember p.val) recalls
      let s := w.close p.val n q
      let s := w.descs.foldl (fun s d => s.send { Msg.to .walkDescriptor 1 m.plot m.chip with
        tag := m.tag, gen := m.gen, data := leBytes 64 d }) s
      .next (answer s (w.failed.getD stOk) w.descs.length)

end Sys2Proof.Machine
end

