-- ==== Sys2Proof/Machine/FieldTx.lean ====
section
/-!
DEFINITION. Connections of the field ports and the sending of datagrams (R342 to R348).
-/

namespace Sys2Proof.Machine
open Sys2Proof

/-- Port states of R358. -/
def fpOff : Nat := 0
def fpTraining : Nat := 1
def fpUp : Nat := 2
def fpDown : Nat := 3

/-- Connection states of R346. -/
def cnClosed : Nat := 0
def cnOpening : Nat := 1
def cnOpen : Nat := 2

def State.portUp (s : State) (q : Nat) : Bool := s.fld Fld.FLD_STATUS_STATE q == fpUp

def State.peer (s : State) (i : Nat) : Option Peer := Table.get s.peers i

def State.conn (s : State) (i : Nat) : Conn := Sparse.get (fun _ => Conn.closed) s.conns i

/-- Brings FLD_STATUS.OPEN of both ports up to date. -/
def State.countOpen (s : State) : State :=
  [0, 1].foldl (fun s q =>
    s.setFld Fld.FLD_STATUS_OPEN q (min 255 (s.conns.filter fun e => e.2.state == cnOpen && e.2.port == q).length)) s

def State.setConn (s : State) (i : Nat) (c : Conn) : State :=
  { s with conns := Sparse.set (fun _ => Conn.closed) s.conns i c }.countOpen

/-- The most datagrams unacknowledged on a connection (R348). -/
def connWindow : Nat := 131072

/-- Data bytes of a full datagram (R342). -/
def dgramBytes : Nat := 8192

/-- KIND of the transport header (R343); none for what is no datagram of the transport. -/
def MsgKind.transportCode : MsgKind → Option Nat
  | .afithData => some 0x01
  | .afithAck => some 0x02
  | .afithOpen => some 0x03
  | .afithOpenAck => some 0x04
  | .afithReset => some 0x05
  | .write | .readRequest | .readReply | .collective | .queryPiece | .partialPiece | .ringBlock | .frost
  | .ready | .credit | .hostAlloc | .hostSeal | .hostQuery | .hostFree | .hostReply | .peerWalk | .walkDescriptor | .peerCommit
  | .commitPoint | .stepHeader | .batch | .batchResult | .sync | .discovery | .ack | .nak | .replay | .widthChange | .neighbor => none

/-- The 32-byte transport header, big-endian (R343, R8); CONN is the number of the connection's peer entry, the same on both sides
(notes/assumptions/26). -/
def State.transportHeader (s : State) (kind : MsgKind) (i epoch tflags psn cum highest sack : Nat) : List Byte :=
  match kind.transportCode with
  | none => []
  | some k =>
    beBytes 1 k ++ beBytes 1 (s.fld Fld.BOOT_STATUS_MAJOR 0) ++ beBytes 2 i ++ beBytes 2 epoch ++ beBytes 1 tflags ++ beBytes 1 0 ++
      beBytes 4 psn ++ beBytes 4 cum ++ beBytes 4 highest ++ beBytes 8 sack ++ beBytes 4 0

/-- Puts one DATA datagram on the line (R342, R343, R344): the transport header with EPOCH, PSN, LAST and RETX, then the message's own header
and its data. -/
def State.emitDgram (s : State) (i : Nat) (c : Conn) (d : Dgram) : State :=
  let m := { d.msg with data := padData d.msg.data, len := (padData d.msg.data).length }
  let tflags := d.last.toNat + 2 * (decide (0 < d.again)).toNat
  s.sendPort c.port { m with
    head := s.transportHeader .afithData i c.epoch tflags d.psn 0 0 0 ++ m.fabricHeader
    kind := .afithData, vc := 7, epoch := c.epoch, reply := d.psn, phase := d.last, stale := decide (0 < d.again) }

/-- Appends a datagram to a connection; it leaves at once while the window has room (R348). -/
def State.pushDgram (s : State) (i : Nat) (m : Msg) (last : Bool) (command op : Option Nat) : State :=
  let c := s.conn i
  let d : Dgram := ⟨c.psn, m, last, s.clock, s.clock, 0, command, op⟩
  let s := if c.unacked.length < connWindow then s.emitDgram i c d else s
  let c := { c with
    psn := (c.psn + 1) % 2 ^ 32, unacked := c.unacked ++ [d]
    advanced := if c.unacked.isEmpty then s.clock else c.advanced }
  s.setConn i c

/-- Sends a message over a connection as consecutive messages of at most 8,192 data bytes (R344); LAST is set on the final one. -/
def State.fldSend (s : State) (i : Nat) (m : Msg) (command op : Option Nat) : State :=
  let n := max 1 (ceilDiv m.data.length dgramBytes)
  (List.range n).foldl (fun s k =>
    s.pushDgram i { m with addr := m.addr + dgramBytes * k, data := (m.data.drop (dgramBytes * k)).take dgramBytes }
      (k + 1 == n) command op) s

/-- The site partner of a member at a site (R352): a peer entry of that site whose CHIP is the member's. -/
def State.sitePartner (s : State) (site chip : Nat) : Option Nat :=
  (s.peers.find? fun e => !e.2.endpoint && e.2.site == site && e.2.chip == chip).map (·.1)

end Sys2Proof.Machine
end

