-- ==== Sys2Proof/Machine/ColCore.lean ====
section
/-!
DEFINITION. Collective operations as data: descriptors and their checks (R316, R319), the trees and paths of every shape (R324 to
R326), and the value of every part of a piece from the contributions and messages that have arrived (R325 to R331).
-/

namespace Sys2Proof.Machine
open Sys2Proof

/-! ### Groups -/

def State.colGroup (s : State) (g : Nat) : Option ColGroup := Table.get s.colGroups g

def State.setGroup (s : State) (g : Nat) (x : ColGroup) : State := { s with colGroups := Table.put s.colGroups g x }

def ColGroup.n (g : ColGroup) : Nat := g.members.length

def ColGroup.chip (g : ColGroup) (k : Nat) : Nat := g.members.getD k 0

/-- Members whose chips share the quotient by `w`: tray sets (8) and rack sets (128) (R321). -/
def ColGroup.setOf (g : ColGroup) (w k : Nat) : List Nat := (List.range g.n).filter fun m => g.chip m / w == g.chip k / w

/-- Whether one set holds every member. -/
def ColGroup.oneSet (g : ColGroup) (w : Nat) : Bool := g.members.all fun c => c / w == g.chip 0 / w

/-- Collectors (R326): the lowest-indexed member, but the root where the set is the smallest that holds every member. -/
def ColGroup.trayCol (g : ColGroup) (root k : Nat) : Nat := if g.oneSet 8 then root else (g.setOf 8 k).headD k

def ColGroup.rackCol (g : ColGroup) (root k : Nat) : Nat := if g.oneSet 128 then root else (g.setOf 128 k).headD k

/-- Tray collectors of the rack set of `k`, ascending. -/
def ColGroup.rackTrays (g : ColGroup) (root k : Nat) : List Nat := ((g.setOf 128 k).map (g.trayCol root)).eraseDups

/-- Rack collectors of the group, ascending. -/
def ColGroup.racks (g : ColGroup) (root : Nat) : List Nat := ((List.range g.n).map (g.rackCol root)).eraseDups

/-! ### Descriptors (R319) -/

def OpDesc.fused (d : OpDesc) : Bool := d.oflags.testBit 0
def OpDesc.loop (d : OpDesc) : Bool := d.oflags.testBit 1
def OpDesc.notifies (d : OpDesc) : Bool := d.oflags.testBit 2
def OpDesc.cross (d : OpDesc) : Bool := d.oflags.testBit 3

def opReduceScatter : Nat := 1
def opAllGather : Nat := 2
def opAllReduce : Nat := 3
def opReduce : Nat := 4
def opMulticast : Nat := 5
def opAllToAll : Nat := 6
def opAllToAllV : Nat := 7
def opShift : Nat := 8
def opTopk : Nat := 9

/-- Operations that add values. -/
def OpDesc.arith (d : OpDesc) : Bool := d.opcode == opReduceScatter || d.opcode == opAllReduce || d.opcode == opReduce

/-- Shapes: 0 RING, 1 STAGED, 2 DIRECT, 3 FLAT; the pairs of R324. -/
def OpDesc.shapeOk (d : OpDesc) : Bool :=
  if d.opcode = opReduceScatter ∨ d.opcode = opAllGather then d.shape == 0
  else if d.opcode = opAllReduce then decide (d.shape ≤ 1)
  else if d.opcode = opReduce ∨ d.opcode = opMulticast then d.shape == 1 || d.shape == 3
  else if d.opcode = opTopk then d.shape == 1
  else d.shape == 2

/-- Whether ROOT names the root of a tree or of the flat paths. -/
def OpDesc.rooted (d : OpDesc) : Bool := d.shape == 1 || d.shape == 3

/-- Pieces of the local source. -/
def OpDesc.pieces (d : OpDesc) (n : Nat) : Nat :=
  if d.shape = 0 ∧ d.opcode ≠ opAllGather then n
  else if d.opcode = opAllToAll ∨ d.opcode = opAllToAllV then n else 1

/-- Formats. -/
def elemFmt (e : Nat) : Option Fmt :=
  if e = 1 then some .fp32 else if e = 2 then some .wx32 else if e = 3 then some .bf16 else if e = 4 then some .fp16
  else if e = 5 then some .e4m3 else if e = 6 then some .e5m2 else none

def OpDesc.elemF (d : OpDesc) : Fmt := (elemFmt d.elem).getD .fp32
def OpDesc.wireF (d : OpDesc) : Fmt := (elemFmt d.wire).getD .fp32
def OpDesc.outF (d : OpDesc) : Fmt := (elemFmt d.out).getD d.wireF

/-- Elements of a piece of an arithmetic operation. -/
def OpDesc.count (d : OpDesc) : Nat := d.piece / d.elemF.bytesOf 1

/-- Bytes of the wire form, the rounded form and the cross-site form of a piece (R331: MX blocks of 32 elements with their scales behind
them). -/
def OpDesc.wireBytes (d : OpDesc) : Nat := if d.arith then d.count * d.wireF.bytesOf 1 else d.piece
def OpDesc.outBytes (d : OpDesc) : Nat := if d.arith then d.count * d.outF.bytesOf 1 else d.piece
def OpDesc.crossBytes (d : OpDesc) : Nat := if d.xfmt = 3 then 2 * d.count else ceilDiv d.count 32 * 33

/-- Bytes of each receive part: a message fits a receive slot and 65,536 bytes (R322); a SHIFT's piece fills one slot by several (R330). -/
def OpDesc.part (d : OpDesc) : Nat := if d.slots = 0 ∨ d.opcode = opShift then 65536 else max 16 (min 65536 d.slotBytes)

/-- Reads a descriptor at a local address with its lists. -/
def State.opDesc (s : State) (a : Nat) : OpDesc :=
  let f := fun (o n : Nat) => s.loadLe (a + o) n
  let list := fun (at' n : Nat) => (List.range n).map fun i => s.loadLe (at' + 2 * i) 2
  ⟨f 0 1, f 1 1, f 2 1, f 3 1, f 4 2, f 6 2, f 8 2, f 0x0A 2, f 0x0C 1, f 0x0D 1, f 0x0E 1, f 0x0F 1, f 0x10 4, f 0x14 4,
    f 0x18 1, f 0x19 1, f 0x1A 1, f 0x1B 1, f 0x1C 4, f 0x20 8, f 0x28 8, f 0x30 8, f 0x38 8,
    (if (f 3 1).testBit 0 then list (f 0x40 8) (f 0x18 1) else []),
    (if (f 3 1).testBit 2 then list (f 0x48 8) (f 0x1B 1) else []), f 0x50 8, f 0x58 8, f 0x60 8, f 0x68 4⟩

/-- Whether a plot holds a trigger counter (R313). -/
def State.ownsCounter (s : State) (p t : Nat) : Bool :=
  match s.plot p with
  | some q => decide (q.ctrFirst ≤ t) && decide (t < q.ctrFirst + q.ctrCount)
  | none => false

/-- Senders that feed this member through receive slots, one area of RBUF each. -/
def OpDesc.resultBytes (d : OpDesc) (n : Nat) : Nat :=
  if d.opcode = opAllGather then n * d.piece
  else if d.opcode = opAllReduce ∧ d.shape = 0 then n * d.outBytes
  else if d.opcode = opAllToAll then n * d.piece
  else if d.opcode = opAllToAllV then n * d.cap + 4 * n
  else d.outBytes

/-! ### What a member sends and expects (R324 to R326) -/

/-- Stages: 0, 1, 2 upward (to the tray, the rack, the root), 3 downward or gathered, 4 between sites. -/
def stUp0 : Nat := 0
def stUp1 : Nat := 1
def stUp2 : Nat := 2
def stDown : Nat := 3
def stSite : Nat := 4

/-- Sites are named as members from this number on. -/
def siteBase : Nat := 8192

/-- A part of the plan: stage, piece, other member, bytes. -/
structure Leg where
  stage : Nat
  piece : Nat
  other : Nat
  bytes : Nat
  deriving DecidableEq, Repr

/-- Whether member `k` holds a summed piece at the end of the reduction, and which (R331). -/
def OpDesc.holds (d : OpDesc) (k : Nat) : Option Nat :=
  if !d.arith then none else if d.shape = 0 then some k else if k = d.root then some 0 else none

/-- The site legs of a holder. -/
def OpDesc.siteLegs (d : OpDesc) (g : ColGroup) : List Leg :=
  match d.holds g.self with
  | some j => if d.cross then ((List.range g.sites).filter (· != g.site)).map fun x => ⟨stSite, j, siteBase + x, d.crossBytes⟩ else []
  | none => []

/-- Upward legs of a tree for member `k`: to its collectors. -/
def upLegs (g : ColGroup) (root k bytes : Nat) : List Leg :=
  let t := g.trayCol root k
  let r := g.rackCol root k
  (if k ≠ t then [⟨stUp0, 0, t, bytes⟩] else []) ++
  (if g.oneSet 8 = false ∧ k = t ∧ k ≠ r then [⟨stUp1, 0, r, bytes⟩] else []) ++
  (if g.oneSet 128 = false ∧ k = r ∧ k ≠ root then [⟨stUp2, 0, root, bytes⟩] else [])

/-- Members that send upward to `k`. -/
def upFrom (g : ColGroup) (root k bytes : Nat) : List Leg :=
  (List.range g.n).flatMap fun m => (upLegs g root m bytes).filterMap fun l => if l.other = k then some { l with other := m } else none

/-- The member from which `k` receives downward. -/
def downParent (g : ColGroup) (root k : Nat) : Nat :=
  if g.oneSet 8 then root
  else if k ≠ g.trayCol root k then g.trayCol root k
  else if g.oneSet 128 then root
  else if k ≠ g.rackCol root k then g.rackCol root k else root

/-- The members to which `k` sends downward. -/
def downTo (g : ColGroup) (root k : Nat) : List Nat := (List.range g.n).filter fun m => m != root && m != k && downParent g root m == k

/-- Everything member SELF sends in one operation. -/
def OpDesc.sends (d : OpDesc) (g : ColGroup) : List Leg :=
  let n := g.n
  let k := g.self
  let next := (k + 1) % n
  let up := if d.shape = 0 then (List.range (n - 1)).map fun s => (⟨stUp0, (k + n + n - 1 - s) % n, next, d.wireBytes⟩ : Leg)
    else if d.shape = 3 then (if k = d.root then [] else [⟨stUp0, 0, d.root, d.wireBytes⟩])
    else upLegs g d.root k d.wireBytes
  let gather (b : Nat) := (List.range (n - 1)).map fun s => (⟨stDown, (k + n - s) % n, next, b⟩ : Leg)
  let down (b : Nat) := if d.shape = 3 then (if k = d.root then ((List.range n).filter (· != k)).map fun m => ⟨stDown, 0, m, b⟩ else [])
    else (downTo g d.root k).map fun m => (⟨stDown, 0, m, b⟩ : Leg)
  if d.opcode = opReduceScatter then up ++ d.siteLegs g
  else if d.opcode = opAllGather then gather d.piece
  else if d.opcode = opAllReduce then up ++ d.siteLegs g ++ (if d.shape = 0 then gather d.outBytes else down d.outBytes)
  else if d.opcode = opReduce then up ++ d.siteLegs g
  else if d.opcode = opMulticast then down d.piece
  else if d.opcode = opAllToAll ∨ d.opcode = opAllToAllV then ((List.range n).filter (· != k)).map fun m => ⟨stUp0, m, m, d.piece⟩
  else if d.opcode = opShift then [⟨stUp0, 0, (k + d.root) % n, d.piece⟩]
  else up

/-- Everything member SELF expects. -/
def OpDesc.expects (d : OpDesc) (g : ColGroup) : List Leg :=
  let n := g.n
  let k := g.self
  let prev := (k + n - 1) % n
  let up := if d.shape = 0 then (List.range (n - 1)).map fun s => (⟨stUp0, (k + n + n - 2 - s) % n, prev, d.wireBytes⟩ : Leg)
    else if d.shape = 3 then (if k = d.root then ((List.range n).filter (· != k)).map fun m => ⟨stUp0, 0, m, d.wireBytes⟩ else [])
    else upFrom g d.root k d.wireBytes
  let gather (b : Nat) := (List.range (n - 1)).map fun s => (⟨stDown, (k + n + n - 1 - s) % n, prev, b⟩ : Leg)
  let down (b : Nat) : List Leg := if k = d.root then [] else
    [⟨stDown, 0, if d.shape = 3 then d.root else downParent g d.root k, b⟩]
  if d.opcode = opReduceScatter then up ++ d.siteLegs g
  else if d.opcode = opAllGather then gather d.piece
  else if d.opcode = opAllReduce then up ++ d.siteLegs g ++ (if d.shape = 0 then gather d.outBytes else down d.outBytes)
  else if d.opcode = opReduce then up ++ d.siteLegs g
  else if d.opcode = opMulticast then down d.piece
  else if d.opcode = opAllToAll ∨ d.opcode = opAllToAllV then ((List.range n).filter (· != k)).map fun m => ⟨stUp0, k, m, d.piece⟩
  else if d.opcode = opShift then [⟨stUp0, 0, (k + n - d.root % n) % n, d.piece⟩]
  else up

/-! ### Values (R325, R327) -/

/-- Operation flags in the order of R120 from numeric flags. -/
def opFlags (f : NumFlags) : Nat :=
  (if f.has NumFlags.rangeExp then 1 else 0) + (if f.has NumFlags.rangeAcc || f.has NumFlags.rangeCvt then 2 else 0) +
    (if f.has NumFlags.under then 4 else 0) + (if f.has NumFlags.nanIn then 8 else 0)

/-- wire_add (R327). -/
def wireAdd (f : Fmt) (a b : Nat) : Nat × NumFlags :=
  if f = .wx32 then wx32Add a b
  else
    let t := Val.add (decodeVal f a) (decodeVal f b)
    let r := roundTo f NumFlags.rangeAcc t.1
    (r.1, t.2 ||| r.2)

/-- Adds two runs of wire codes. -/
def addRuns (f : Fmt) (a b : List Nat × NumFlags) : List Nat × NumFlags :=
  let r := (a.1.zip b.1).map fun e => wireAdd f e.1 e.2
  (r.map (·.1), a.2 ||| b.2 ||| orFlags (r.map (·.2)))

/-- Cuts bytes into codes of a format. -/
def codesOf (f : Fmt) (n : Nat) (bs : List Byte) : List Nat :=
  (List.range n).map fun i => leNat ((bs.drop (i * f.bytesOf 1)).take (f.bytesOf 1))

/-- Packs codes of a byte format. -/
def bytesOfCodes (f : Fmt) (cs : List Nat) : List Byte := cs.flatMap fun c => leBytes (f.bytesOf 1) c

/-- Converts codes under R45. -/
def convertRun (src dst : Fmt) (cs : List Nat) : List Nat × NumFlags :=
  let r := cs.map fun c => convertTo dst (decodeVal src c)
  (r.map (·.1), orFlags (r.map (·.2)))

/-- Address of the contribution of rank `i` to piece `j` (R320). -/
def OpDesc.contribAddr (d : OpDesc) (j i : Nat) : Nat := d.src + (j * d.contrib + i) * d.piece

/-- Whether every contribution to a piece has landed: all ranks of a fused operation (R320); of any other its source is in memory. -/
def OpRun.ready (x : OpRun) (j : Nat) : Bool :=
  !x.op.fused || (List.range x.op.contrib).all fun i => x.landed.any fun l => l.piece == j && l.rank == i

/-- local_sum of elements `e` to `e + n − 1` of a piece, in wire codes (R325). -/
def State.localSum (s : State) (x : OpRun) (j e n : Nat) : Option (List Nat × NumFlags) :=
  if !x.ready j then none
  else
    let d := x.op
    let w := d.elemF.bytesOf 1
    let run (i : Nat) := convertRun d.elemF d.wireF (codesOf d.elemF n (s.loadBytes (d.contribAddr j i + e * w) (n * w)))
    some (((List.range d.contrib).drop 1).foldl (fun acc i => addRuns d.wireF acc (run i)) (run 0))

/-- Messages of one operation from one sender for one stage and piece. -/
def State.arrivals (s : State) (x : OpRun) (stage j src : Nat) : List ColIn :=
  s.colIn.filter fun m => m.group == x.op.group && m.epoch == x.epoch && m.opseq == x.opseq && m.stage == stage && m.piece == j &&
    m.src == src

/-- Bytes `lo` to `lo + n − 1` of what a sender delivered, once all of them are in. -/
def gatherRange : Nat → List ColIn → Nat → Nat → Option (List Byte)
  | 0, _, _, n => if n = 0 then some [] else none
  | f + 1, l, lo, n =>
    if n = 0 then some []
    else match l.find? fun m => decide (m.off ≤ lo) && decide (lo < m.off + m.data.length) with
      | none => none
      | some m =>
        let part := (m.data.drop (lo - m.off)).take n
        (gatherRange f l (lo + part.length) (n - part.length)).map (part ++ ·)

def State.arrived (s : State) (x : OpRun) (stage j src lo n : Nat) : Option (List Byte) :=
  let l := s.arrivals x stage j src
  gatherRange (l.length + 1) l lo n

/-- Wire codes of elements `e` to `e + n − 1` that a sender delivered upward. -/
def State.arrivedCodes (s : State) (x : OpRun) (stage j src e n : Nat) : Option (List Nat × NumFlags) :=
  let w := x.op.wireF.bytesOf 1
  (s.arrived x stage j src (e * w) (n * w)).map fun bs => (codesOf x.op.wireF n bs, 0)

/-- Adds values in the order given; none while one of them is missing. -/
def foldRuns (f : Fmt) : List (Option (List Nat × NumFlags)) → Option (List Nat × NumFlags)
  | [] => none
  | v :: vs => vs.foldl (fun acc w => match acc, w with
    | some a, some b => some (addRuns f a b)
    | _, _ => none) v

/-- The value of a tray set at its collector, of a rack set at its collector, of the group at the root (R326). -/
def State.traySum (s : State) (x : OpRun) (g : ColGroup) (e n : Nat) : Option (List Nat × NumFlags) :=
  foldRuns x.op.wireF ((g.setOf 8 g.self).map fun m => if m = g.self then s.localSum x 0 e n else s.arrivedCodes x stUp0 0 m e n)

def State.rackSum (s : State) (x : OpRun) (g : ColGroup) (e n : Nat) : Option (List Nat × NumFlags) :=
  if g.oneSet 8 then s.traySum x g e n
  else foldRuns x.op.wireF ((g.rackTrays x.op.root g.self).map fun m =>
    if m = g.self then s.traySum x g e n else s.arrivedCodes x stUp1 0 m e n)

def State.rootSum (s : State) (x : OpRun) (g : ColGroup) (e n : Nat) : Option (List Nat × NumFlags) :=
  if x.op.shape = 3 then
    foldRuns x.op.wireF ((List.range g.n).map fun m => if m = g.self then s.localSum x 0 e n else s.arrivedCodes x stUp0 0 m e n)
  else if g.oneSet 128 then s.rackSum x g e n
  else foldRuns x.op.wireF ((g.racks x.op.root).map fun m =>
    if m = g.self then s.rackSum x g e n else s.arrivedCodes x stUp2 0 m e n)

/-- ring_piece at this member (R325): what has come round, with the local sum added last. -/
def State.ringSum (s : State) (x : OpRun) (g : ColGroup) (j e n : Nat) : Option (List Nat × NumFlags) :=
  if g.n = 1 ∨ j = (g.self + g.n - 1) % g.n then s.localSum x j e n
  else foldRuns x.op.wireF [s.arrivedCodes x stUp0 j ((g.self + g.n - 1) % g.n) e n, s.localSum x j e n]

/-- The sum that the holder of a piece has before it is rounded. -/
def State.heldSum (s : State) (x : OpRun) (g : ColGroup) (j e n : Nat) : Option (List Nat × NumFlags) :=
  if x.op.shape = 0 then s.ringSum x g j e n else s.rootSum x g e n

/-- The narrowed form of a piece for the other sites (R331 step 1): bfloat16, or MX blocks of 32. -/
def OpDesc.narrow (d : OpDesc) (cs : List Nat) : List Byte × NumFlags :=
  if d.xfmt = 3 then
    let r := convertRun d.wireF .bf16 cs
    (bytesOfCodes .bf16 r.1, r.2)
  else
    let f : Fmt := if d.xfmt = 5 then .e4m3 else .e5m2
    let blocks := (groups32 (cs.length + 1) (cs.map (decodeVal d.wireF))).map fun b => mxBlock f (padBlock b)
    ((blocks.flatMap fun b => b.2.1.map fun c => BitVec.ofNat 8 c) ++ blocks.map fun b => b.1, orFlags (blocks.map fun b => b.2.2))

/-- A narrowed piece widened to FP32 with the flags of its scales and conversions (R44, R53, R331 step 3). -/
def OpDesc.widen (d : OpDesc) (bs : List Byte) : List Nat × NumFlags :=
  if d.xfmt = 3 then convertRun .bf16 .fp32 (codesOf .bf16 d.count bs)
  else
    let f : Fmt := if d.xfmt = 5 then .e4m3 else .e5m2
    let m := ceilDiv d.count 32 * 32
    let r := (List.range d.count).map fun i =>
      let v := scaledVal f (bs.getD (m + i / 32) 0) (bs.getD i 0).toNat
      let c := convertTo .fp32 v.1
      (c.1, v.2 ||| c.2)
    (r.map (·.1), orFlags (r.map (·.2)))

/-- The whole summed piece rounded to OUT, after the site stage where CROSS is set (R327, R331). -/
def State.roundedPiece (s : State) (x : OpRun) (g : ColGroup) (j : Nat) : Option (List Byte × NumFlags) :=
  let d := x.op
  match s.heldSum x g j 0 d.count with
  | none => none
  | some (cs, f) =>
    if !d.cross then
      let r := convertRun d.wireF d.outF cs
      some (bytesOfCodes d.outF r.1, f ||| r.2)
    else
      let own := d.narrow cs
      let parts := (List.range g.sites).map fun x' =>
        if x' = g.site then some ((d.widen own.1).1, own.2 ||| (d.widen own.1).2)
        else (s.arrived x stSite j (siteBase + x') 0 d.crossBytes).map d.widen
      match foldRuns .fp32 parts with
      | none => none
      | some (t, f') =>
        let r := convertRun .fp32 d.outF t
        some (bytesOfCodes d.outF r.1, f ||| f' ||| r.2)

/-- The part of a rounded piece without a site stage, from the elements it needs only. -/
def State.roundedPart (s : State) (x : OpRun) (g : ColGroup) (j lo n : Nat) : Option (List Byte × NumFlags) :=
  let d := x.op
  if d.cross then (s.roundedPiece x g j).map fun r => ((r.1.drop lo).take n, r.2)
  else
    let o := d.outF.bytesOf 1
    match s.heldSum x g j (lo / o) (n / o) with
    | none => none
    | some (cs, f) =>
      let r := convertRun d.wireF d.outF cs
      some (bytesOfCodes d.outF r.1, f ||| r.2)

/-! ### Result blocks (R211, R214) -/

/-- One entry of a result block. -/
def hitOf (b : List Byte) : Hit := ⟨leNat ((b.drop 8).take 2), leNat (b.take 8), leNat ((b.drop 10).take 2), leNat ((b.drop 12).take 2), (b.getD 14 0) == 1⟩

def Hit.bytes (h : Hit) : List Byte := leBytes 8 h.id ++ leBytes 2 h.dist ++ leBytes 2 h.shard ++ leBytes 2 h.list ++ leBytes 1 h.side.toNat ++ leBytes 1 0

/-- The order of R211: distance, ID, shard, list. -/
def Hit.le (a b : Hit) : Bool :=
  if a.dist ≠ b.dist then decide (a.dist < b.dist)
  else if a.id ≠ b.id then decide (a.id < b.id)
  else if a.shard ≠ b.shard then decide (a.shard < b.shard)
  else decide (a.list ≤ b.list)

/-- topk_merge (R214); the first argument bounds the steps. -/
def topkMerge : Nat → List Hit → List Hit → Nat → List Hit
  | 0, _, _, _ => []
  | _, [], b, k => b.take k
  | _, a, [], k => a.take k
  | f + 1, x :: a, y :: b, k =>
    if k = 0 then []
    else if x.le y then x :: topkMerge f a (y :: b) (k - 1) else y :: topkMerge f (x :: a) b (k - 1)

/-- Entries of a result block. -/
def blockHits (b : List Byte) : List Hit :=
  (List.range (leNat (b.take 2))).map fun i => hitOf ((b.drop (32 + 16 * i)).take 16)

/-- Two result blocks of a query merged into one of `size` bytes: SHARDS adds, SHORT where fewer than K entries stand; the other header
fields are the first block's; MIXED where their FROM values differ (R215). -/
def mergeBlocks (size : Nat) (a b : List Byte) : List Byte :=
  let k := (size - 32) / 16
  let h := topkMerge (2 * k + 2) (blockHits a) (blockHits b) k
  let status := max (leNat ((a.drop 2).take 1)) (leNat ((b.drop 2).take 1))
  let mixed := (leNat ((a.drop 3).take 1) ||| leNat ((b.drop 3).take 1)).testBit 1 || (a.drop 16).take 8 != (b.drop 16).take 8
  let flags := (if h.length < k then 1 else 0) + (if mixed then 2 else 0)
  let body := leBytes 2 h.length ++ leBytes 1 status ++ leBytes 1 flags ++
    leBytes 2 (leNat ((a.drop 4).take 2) + leNat ((b.drop 4).take 2)) ++ leBytes 2 0 ++ (a.drop 8).take 24 ++ h.flatMap Hit.bytes
  body ++ List.replicate (size - body.length) 0

/-- Merges present blocks in order. -/
def foldBlocks (size : Nat) : List (Option (List Byte)) → Option (List Byte)
  | [] => none
  | v :: vs => vs.foldl (fun acc w => match acc, w with
    | some a, some b => some (mergeBlocks size a b)
    | _, _ => none) v

/-- Chain numbers from here on stand for the group checks of the plots (R178). -/
def checkChain : Nat := 256

/-- Chain numbers from here on stand for the retrieval batches whose shards meet in a TOPK of the engines' own (R213). -/
def batchChain : Nat := 264

/-- Whether an operation is the chip's own, of no chain of a plot: its data lies in no memory of the plot. -/
def OpRun.own (x : OpRun) : Bool := decide (checkChain ≤ x.chain)

/-- Whether an operation is a group check. -/
def OpRun.isCheck (x : OpRun) : Bool := x.own && decide (x.chain < batchChain)

/-- The record that a group check of plot `p` sends (R178). -/
def State.checkRecord (s : State) (x : OpRun) : List Byte :=
  let p := x.chain - checkChain
  ((Table.get s.groups p).map fun c => (s.ownRecord p c.desc).bytes).getD (List.replicate 16 0)

/-- K of a query (R208). -/
def State.queryK (s : State) (q : RQuery) : Nat := s.loadLe (q.entry + 0x38) 2

/-- A query's result block (R211): header and entries. -/
def State.queryBlock (s : State) (q : RQuery) : List Byte :=
  let flags := (if q.hits.length < s.queryK q then 1 else 0) + (if q.mixed then 2 else 0)
  leBytes 2 q.hits.length ++ leBytes 1 q.status ++ leBytes 1 flags ++ leBytes 2 q.shards ++ leBytes 2 0 ++ leBytes 8 q.snap ++
    leBytes 8 q.start ++ leBytes 8 q.epoch ++ q.hits.flatMap Hit.bytes

/-- The local block of an operation on a chain number from `batchChain` on, filled up to the piece. -/
def State.shardBlock (s : State) (x : OpRun) : Option (List Byte) :=
  match (Table.get s.rbatches (x.chain - batchChain)).bind fun b => b.queries[x.index]? with
  | some q => let l := s.queryBlock q; some (l ++ List.replicate (x.op.piece - l.length) 0)
  | none => none

/-- The merged block of this member for TOPK: its own and those of the children at and below each of its levels. -/
def State.topkValue (s : State) (x : OpRun) (g : ColGroup) : Option (List Byte) :=
  let own := if batchChain ≤ x.chain then s.shardBlock x else if x.ready 0 then some (s.loadBytes (x.op.contribAddr 0 0) x.op.piece) else none
  foldBlocks x.op.piece (own :: (upFrom g x.op.root g.self x.op.piece).map fun l =>
    s.arrived x l.stage 0 l.other 0 x.op.piece)

/-! ### The part of a piece that a leg carries -/

/-- Source bytes of a plain move. -/
def State.sourceBytes (s : State) (x : OpRun) (j lo n : Nat) : Option (List Byte) :=
  if x.isCheck then some ((s.checkRecord x).drop lo)
  else if x.ready j then some (s.loadBytes (x.op.contribAddr (if x.op.opcode = opAllGather ∧ x.op.fused = false then 0 else j) 0 + lo) n) else none

/-- The bytes of a piece of ALL_TO_ALL_V with its prefix (R329): original size, bytes sent, zeros. -/
def State.variablePiece (s : State) (x : OpRun) (m : Nat) : Option (List Byte × Bool × Nat) :=
  if !x.ready m then none
  else
    let size := min x.op.piece
      (if x.op.fused then ((x.landed.find? fun l => l.piece == m).map (·.len)).getD 0 else x.sizes.getD m 0)
    let sent := min size x.op.cap
    let addr := if x.op.fused then x.op.contribAddr m 0 else x.op.src + m * x.op.piece
    some (leBytes 4 size ++ leBytes 4 sent ++ leBytes 8 0 ++ s.loadBytes addr sent, decide (x.op.cap < size), size - sent)

/-- The bytes that a leg carries at an offset, with the flags of the engine's own additions; none while its inputs are missing. -/
def State.legPart (s : State) (x : OpRun) (g : ColGroup) (l : Leg) (lo n : Nat) : Option (List Byte × NumFlags) :=
  let d := x.op
  let w := d.wireF.bytesOf 1
  let wires (v : Option (List Nat × NumFlags)) := v.map fun r => (bytesOfCodes d.wireF r.1, r.2)
  let plain (v : Option (List Byte)) := v.map fun b => (b, (0 : NumFlags))
  if d.opcode = opAllToAllV then plain ((s.variablePiece x l.piece).map fun r => (r.1.drop lo).take n)
  else if d.opcode = opAllToAll then plain (s.sourceBytes x l.piece lo n)
  else if d.opcode = opShift then plain (s.sourceBytes x (if d.fused then l.other else 0) lo n)
  else if d.opcode = opTopk then plain ((s.topkValue x g).map fun b => (b.drop lo).take n)
  else if l.stage = stSite then
    (s.heldSum x g l.piece 0 d.count).map fun r => let t := d.narrow r.1; ((t.1.drop lo).take n, r.2 ||| t.2)
  else if l.stage = stDown then
    if d.opcode = opAllGather then plain (if l.piece = g.self then s.sourceBytes x l.piece lo n
      else s.arrived x stDown l.piece ((g.self + g.n - 1) % g.n) lo n)
    else if d.opcode = opMulticast then plain (if g.self = d.root then s.sourceBytes x 0 lo n
      else s.arrived x stDown 0 (downParent g d.root g.self) lo n)
    else if d.shape = 0 then (if l.piece = g.self then s.roundedPart x g l.piece lo n
      else plain (s.arrived x stDown l.piece ((g.self + g.n - 1) % g.n) lo n))
    else (if g.self = d.root then s.roundedPart x g 0 lo n
      else plain (s.arrived x stDown 0 (downParent g d.root g.self) lo n))
  else if d.shape = 0 then wires (s.ringSum x g l.piece (lo / w) (n / w))
  else if d.shape = 3 ∨ l.stage = stUp0 then wires (s.localSum x 0 (lo / w) (n / w))
  else if l.stage = stUp1 then wires (s.traySum x g (lo / w) (n / w))
  else wires (s.rackSum x g (lo / w) (n / w))

/-- The piece of this member's own contributions that a leg reads, if it reads one (R325 to R331). -/
def OpDesc.legSource (d : OpDesc) (g : ColGroup) (l : Leg) : Option Nat :=
  if d.opcode = opAllToAll ∨ d.opcode = opAllToAllV then some l.piece
  else if d.opcode = opShift then some (if d.fused then l.other else 0)
  else if l.stage = stDown then
    (if d.shape = 0 then (if l.piece = g.self then some l.piece else none) else if g.self = d.root then some 0 else none)
  else if d.shape = 0 then some l.piece
  else some 0

/-- The piece of this member's own contributions that its results read. -/
def OpDesc.resultSource (d : OpDesc) (g : ColGroup) : Option Nat :=
  if d.opcode = opShift then none
  else if d.rooted then (if g.self = d.root then some 0 else none)
  else some g.self

/-- The ranges of memory that hold this member's own piece `j` (R320, R329). -/
def State.sourceRanges (s : State) (x : OpRun) (j : Nat) : List (Nat × Nat) :=
  let d := x.op
  if x.own then []
  else if d.opcode = opAllToAllV then
    match s.variablePiece x j with
    | some (bs, _, _) => [(if d.fused then d.contribAddr j 0 else d.src + j * d.piece, bs.length - 16)]
    | none => []
  else if d.arith then (List.range d.contrib).map fun i => (d.contribAddr j i, d.piece)
  else [(d.contribAddr (if d.opcode = opAllGather ∧ d.fused = false then 0 else j) 0, d.piece)]

/-- The first poisoned line among a member's own piece (R259). -/
def State.sourcePoison (s : State) (x : OpRun) (j : Option Nat) : Option Nat :=
  match j with
  | some k => (s.sourceRanges x k).findSome? fun r => s.firstPoison r.1 r.2
  | none => none

/-- Bytes of a leg: those of ALL_TO_ALL_V depend on the piece. -/
def State.legBytes (s : State) (x : OpRun) (l : Leg) : Nat :=
  if x.op.opcode = opAllToAllV then ((s.variablePiece x l.piece).map fun r => r.1.length).getD 16 else l.bytes

end Sys2Proof.Machine
end

