-- ==== Sys2Proof/Machine/RecallCore.lean ====
section
/-!
DEFINITION. How query batches end (R201, R211 to R218): result blocks, the merge of shards, the recall list, completions.
-/

namespace Sys2Proof.Machine
open Sys2Proof

/-- The STATUS codes of R201. -/
def stRefused : Nat := 0x0C
def stFull : Nat := 0x0D
def stLate : Nat := 0x0E
def stFault : Nat := 0x0F
def stNoIndex : Nat := 0x10

/-- Query statuses of R212. -/
def qsOk : Nat := 0
def qsAborted : Nat := 1
def qsSnapRange : Nat := 2
def qsBadList : Nat := 3

def RBatch.sharded (b : RBatch) : Bool := b.flags.testBit 0
def RBatch.recalls (b : RBatch) : Bool := b.flags.testBit 1

def State.rbatch (s : State) (n : Nat) : Option RBatch := Table.get s.rbatches n

def State.setRBatch (s : State) (n : Nat) (b : RBatch) : State := { s with rbatches := Table.put s.rbatches n b }

/-- Whether this member takes a batch's results. -/
def RBatch.here (b : RBatch) : Bool := !b.sharded || b.self == b.root

/-- Address of a query's result block. -/
def State.queryResult (s : State) (q : RQuery) : Nat := s.loadLe (q.entry + 0x48) 8

/-! ### The recall list (R218) -/

/-- GROUPS of the sequence whose live index this is. -/
def State.groupsOf (s : State) (index : Nat) : Nat :=
  ((s.seqs.find? fun e => e.2.liveIndex == some index).map fun e => e.2.groups).getD 1

/-- Section of a query: (layer, group, row tile). -/
def State.sectionOf (s : State) (groups : Nat) (q : RQuery) : Nat × Nat × Nat :=
  let n := s.loadLe (q.entry + 0x50) 2
  (n / groups, n % groups, s.loadLe (q.entry + 0x3E) 1)

/-- Ascending order of triples. -/
def tripleLe (a b : Nat × Nat × Nat) : Bool :=
  if a.1 ≠ b.1 then decide (a.1 < b.1) else if a.2.1 ≠ b.2.1 then decide (a.2.1 < b.2.1) else decide (a.2.2 ≤ b.2.2)

/-- Ascending order of (MEMBER, FIRSTPOS). -/
def pairLe (a b : Nat × Nat) : Bool := if a.1 ≠ b.1 then decide (a.1 < b.1) else decide (a.2 ≤ b.2)

/-- Entries of a section: distinct pages with the rows of every query that returned them. -/
def State.sectionEntries (s : State) (qs : List RQuery) : List (Nat × Nat × Nat) :=
  let all := qs.flatMap fun q => (if q.status = qsOk then q.hits else []).map fun h => (h.shard, h.id % 2 ^ 32, s.loadLe (q.entry + 0x70) 8)
  let pages := ((all.map fun e => (e.1, e.2.1)).eraseDups).mergeSort pairLe
  pages.map fun p => (p.1, p.2, (all.filter fun e => e.1 == p.1 && e.2.1 == p.2).foldl (fun m e => m ||| e.2.2) 0)

/-- The recall list of a batch. -/
def State.recallBytes (s : State) (b : RBatch) : List Byte :=
  let groups := s.groupsOf b.index
  let keys := ((b.queries.map (s.sectionOf groups)).eraseDups).mergeSort tripleLe
  let sections := keys.map fun k => (k, s.sectionEntries (b.queries.filter fun q => s.sectionOf groups q == k))
  leBytes 8 ((b.queries.map (·.snap)).foldl max 0) ++ leBytes 2 keys.length ++ leBytes 6 0 ++
    sections.flatMap fun e => leBytes 1 e.1.1 ++ leBytes 1 e.1.2.1 ++ leBytes 1 e.1.2.2 ++ leBytes 1 0 ++ leBytes 2 e.2.length ++
      leBytes 2 0 ++ e.2.flatMap fun x => leBytes 4 x.2.1 ++ leBytes 2 x.1 ++ leBytes 2 0 ++ leBytes 8 x.2.2

/-! ### Ends -/

/-- Completes a command that may be owed. -/
def State.finishAny (s : State) (id : Option Nat) : State :=
  match id with
  | some id => s.finish id stOk 0
  | none => s

/-- Frees an index no query uses: its record, side lists, tombstones and device-made bases go, and the commands that waited for it
complete: an armed swap that the index no longer reaches, the swap whose predecessor is still held, the destroying command (R200, R206;
notes/assumptions/24). A sequence whose live index it was has none from then on. -/
def State.freeIndex (s : State) (n : Nat) (x : Index) (owed : Option Nat) : State :=
  let s := s.dropIndex n none
  let s : State := { s with
    events := s.events.filter fun e => e.kind != EventKind.indexSwap x.plot n
    seqs := s.seqs.map fun e => (e.1, if e.2.liveIndex = some n then { e.2 with liveIndex := none } else e.2) }
  ((s.finishAny x.owed).finishAny (x.swap.map (·.2))).finishAny owed

/-- Frees an index being destroyed once no query uses it (R200). -/
def State.sweepIndex (s : State) (n : Nat) : State :=
  match s.index n with
  | none => s
  | some x =>
    match x.dying with
    | none => s
    | some owed => if s.indexUsed n then s else s.freeIndex n x owed

/-- Takes a batch away: its reservation is released and its command completes. -/
def State.closeBatch' (s : State) (n : Nat) (b : RBatch) (status result : Nat) : State :=
  let s := { s with rbatches := Table.del s.rbatches n, tasks := Table.del s.tasks b.task }
  let s := s.sweepIndex b.index
  match b.tag with
  | some id => s.finish id status result
  | none => s

/-- Ends a batch whose queries have all ended: the recall list is folded, or the number of queries with status OK is the RESULT. -/
def State.endBatch (s : State) (n : Nat) (b : RBatch) : State :=
  let ok := (b.queries.filter fun q => q.status == qsOk).length
  if !b.here then s.closeBatch' n b stOk 0
  else if b.recalls then
    let l := s.recallBytes b
    if b.outSize < l.length then
      let s := if 16 ≤ b.outSize then s.putBytes (b.out + 8) (leBytes 2 0) else s
      let (v, s) := s.fresh
      s.closeBatch' n b stLimit v
    else (s.putBytes b.out l).closeBatch' n b stOk ok
  else s.closeBatch' n b stOk ok

/-- Stores a batch after one of its queries ended, and ends it after the last. -/
def State.putQuery (s : State) (n : Nat) (b : RBatch) (k : Nat) (q : RQuery) : State :=
  let b := { b with queries := b.queries.set k q }
  let s := s.setRBatch n b
  if b.queries.all (·.ended) then s.endBatch n b else s

/-- Writes a query's result block where it has one (R211). -/
def State.writeBlock (s : State) (b : RBatch) (q : RQuery) : State :=
  if b.recalls then s else s.putBytes (s.queryResult q) (s.queryBlock q)

/-- Takes the merged block of query `k` of a sharded batch (R213 to R215): at the root it becomes the query's result. -/
def State.shardMerged (s : State) (n k : Nat) (block : List Byte) : State :=
  match s.rbatch n with
  | none => s
  | some b =>
    match b.queries[k]? with
    | none => s
    | some q =>
      if !b.here then s.putQuery n b k { q with ended := true }
      else
        let q := { q with
          hits := blockHits block, status := leNat ((block.drop 2).take 1), shards := leNat ((block.drop 4).take 2)
          mixed := (leNat ((block.drop 3).take 1)).testBit 1, ended := true }
        let s := if q.mixed then s.setBit Fld.RCL_PLOT_FLAGS_MIXED b.plot true else s
        let s := if q.status = qsSnapRange then s.setBit Fld.RCL_PLOT_FLAGS_SNAP_RANGE b.plot true else s
        (s.writeBlock b q).putQuery n b k q

/-- Ends an aborted batch (R212, R221): every query still running ends ABORTED, its entries undefined. -/
def State.abortBatch (s : State) (n status result : Nat) : State :=
  match s.rbatch n with
  | none => s
  | some b =>
    let live := b.queries.filter fun q => !q.ended
    let s := if !b.here || b.recalls then s else live.foldl (fun s q =>
      let a := s.queryResult q
      let s := s.undefineBytes (a + 32) (16 * s.queryK q)
      s.putBytes a ((s.queryBlock { q with hits := [], status := qsAborted }).take 32)) s
    s.closeBatch' n b status result

end Sys2Proof.Machine
end

