-- ==== Sys2Proof/Machine/ColSend.lean ====
section
/-!
DEFINITION. Chains, counters and operations in flight: trigger counters (R314, R318), the parts that leave and the receive slots they
fill (R322, R325, R332), and the common error (R333 to R336).
-/

namespace Sys2Proof.Machine
open Sys2Proof

/-! ### Tables and status registers (R338) -/

def State.chain (s : State) (c : Nat) : Option Chain := Table.get s.chains c

def State.op (s : State) (id : Nat) : Option OpRun := s.ops.find? fun x => x.id == id

def State.setOp (s : State) (x : OpRun) : State := { s with ops := s.ops.map fun (y : OpRun) => if y.id = x.id then x else y }

/-- Operations of a chain in flight. -/
def State.chainOps (s : State) (c : Nat) : List OpRun := s.ops.filter fun x => x.chain == c

/-- Operations of an engine in flight (R313). -/
def State.engineOps (s : State) (e : Nat) : List OpRun := s.ops.filter fun x => x.chain / 64 == e

/-- The descriptor of a chain's head operation; none once the chain is done. -/
def Chain.headOp (h : Chain) : Option OpDesc := h.ops[h.head]?

/-- Brings COL_CHAIN_STATE of a chain and COL_STATUS of its engine up to date. -/
def State.colStatus (s : State) (c : Nat) : State :=
  if 256 ≤ c then s
  else
  let e := c / 64
  let s : State := match s.chain c with
    | none => s.setReg .COL_CHAIN_STATE c 0
    | some h =>
      let st := if h.releasing.isSome then 3 else if h.headOp.isNone then 2 else 1
      s.setReg .COL_CHAIN_STATE c (BitVec.ofNat 32 (h.plot * 2 ^ 29 + (s.chainOps c).length * 2 ^ 22 +
        (h.ops.length - 1) * 2 ^ 16 + min h.head (h.ops.length - 1) * 2 ^ 8 + st))
  let n := (s.engineOps e).length
  let s := s.setFld Fld.COL_STATUS_INFLIGHT e n
  let s := s.setFld Fld.COL_STATUS_CHAINS e (s.chains.filter fun q => q.1 / 64 == e).length
  if s.fld Fld.COL_STATUS_STATE e = 2 then s else s.setFld Fld.COL_STATUS_STATE e (if n = 0 then 0 else 1)

/-- Puts a chain. -/
def State.setChain (s : State) (c : Nat) (h : Chain) : State := ({ s with chains := Table.put s.chains c h }).colStatus c

/-! ### Trigger counters (R314, R318) -/

/-- The plot that holds a counter. -/
def State.counterOwner (s : State) (t : Nat) : Nat := ((List.range 8).find? fun p => s.ownsCounter p t).getD chipPlot

/-- The steps that make up a counter's count. -/
def State.stepsOf (s : State) (t : Nat) : List (Nat × Nat) := Sparse.get (fun _ => []) s.colSteps t

def State.setSteps (s : State) (t : Nat) (l : List (Nat × Nat)) : State := { s with colSteps := Sparse.set (fun _ => []) s.colSteps t l }

/-- Steps a counter `n` times for a task (0 for none); steps past 65,535 are dropped and recorded. -/
def State.stepCounter (s : State) (t n task : Nat) : State :=
  let v := s.fld Fld.COL_COUNTER_COUNT t
  let k := min n (65535 - v)
  let s := s.setFld Fld.COL_COUNTER_COUNT t (v + k)
  let s := if k = 0 then s else s.setSteps t (s.stepsOf t ++ [(task, k)])
  if k < n then (s.setBit Fld.COL_COUNTER_OVERFLOW t true).logEvent (s.counterOwner t) 9 3 30 t else s

/-- Sets a counter to zero (R335). -/
def State.clearCounter (s : State) (t : Nat) : State := (s.setFld Fld.COL_COUNTER_COUNT t 0).setSteps t []

/-- Takes `n` unit steps off the front of a counter's steps: the task of the last one, and the rest. -/
def takeSteps : List (Nat × Nat) → Nat → Nat → Nat × List (Nat × Nat)
  | [], _, last => (last, [])
  | (t, k) :: l, n, last =>
    if n = 0 then (last, (t, k) :: l)
    else if n < k then (t, (t, k - n) :: l)
    else takeSteps l (n - k) t

/-! ### Slots and credits (R332) -/

/-- Operations that receive through slots (R319, R332): the reductions, TOPK and SHIFT. -/
def OpDesc.usesSlots (d : OpDesc) : Bool := d.arith || d.opcode == opTopk || d.opcode == opShift

/-- Whether a leg fills receive slots: upward stages, a SHIFT and the site stage; gathered, multicast and exchanged pieces go straight to
DST. -/
def OpDesc.slotted (d : OpDesc) (stage : Nat) : Bool := d.usesSlots && d.slots != 0 && stage != stDown

/-- Bytes of a part of a leg. -/
def OpDesc.partBytes (d : OpDesc) (stage : Nat) : Nat := if d.slotted stage then d.part else 65536

/-- Credits left towards a member. -/
def OpRun.credits (x : OpRun) (dest : Nat) : Nat :=
  x.op.slots + ((x.back.filter fun e => e.1 == dest).map (·.2)).sum - (x.sent.filter fun k => k.dest == dest && x.op.slotted k.stage).length

/-- Key of the book of a SHIFT's slots at a member: they are shared by the group's successive SHIFT operations (R187, R330). -/
def shiftKey (gi dest : Nat) : Nat := gi * 65536 + dest

/-- Slots begun at a member by the group's SHIFT operations whose credits have not returned. -/
def State.shiftHeld (s : State) (gi dest : Nat) : Nat := Sparse.get (fun _ => 0) s.shiftBook (shiftKey gi dest)

def State.setShiftHeld (s : State) (gi dest n : Nat) : State :=
  { s with shiftBook := Sparse.set (fun _ => 0) s.shiftBook (shiftKey gi dest) n }

/-- Whether a part may begin or go on to fill a slot of its receiver. -/
def State.mayFill (s : State) (x : OpRun) (l : Leg) (lo : Nat) : Bool :=
  if !x.op.slotted l.stage then true
  else if x.op.opcode = opShift then
    (if lo = 0 then decide (s.shiftHeld x.op.group l.other < x.op.slots) else x.sent.contains ⟨l.stage, l.piece, l.other, 0⟩)
  else x.credits l.other != 0

/-- Members that feed this one through slots, one area of RBUF each, in ascending order. -/
def OpDesc.feeders (d : OpDesc) (g : ColGroup) : List Nat :=
  (((d.expects g).filter fun l => d.slotted l.stage).map (·.other)).eraseDups.mergeSort (fun a b => decide (a ≤ b))

/-- Address of the receive slot of the `n`-th message of a sender. -/
def OpDesc.slotAddr (d : OpDesc) (g : ColGroup) (src n : Nat) : Nat :=
  d.rbuf + ((d.feeders g).findIdx (· == src) * d.slots + n % d.slots) * d.slotBytes

/-- Where the data of a gathered, multicast or exchanged piece goes in DST. -/
def OpDesc.dstOff (d : OpDesc) (l : Leg) : Nat :=
  if d.opcode = opAllGather then l.piece * d.piece
  else if d.opcode = opAllReduce ∧ d.shape = 0 then l.piece * d.outBytes
  else if d.opcode = opAllToAll then l.other * d.piece
  else 0

/-- The leg of a message, if this member expects one. -/
def OpDesc.legOf (d : OpDesc) (g : ColGroup) (stage piece src : Nat) : Option Leg :=
  (d.expects g).find? fun l => l.stage == stage && l.piece == piece && l.other == src

/-- Longest data of a leg: a variable piece has its prefix and at most CAP bytes (R329). -/
def OpDesc.legLimit (d : OpDesc) (l : Leg) : Nat := if d.opcode = opAllToAllV then 16 + d.cap else l.bytes

/-- Bytes that a leg will have delivered: of a variable piece its prefix tells. -/
def State.legDue (s : State) (x : OpRun) (l : Leg) : Nat :=
  if x.op.opcode = opAllToAllV then
    match s.arrived x l.stage l.piece l.other 0 16 with
    | some h => 16 + leNat ((h.drop 4).take 4)
    | none => 16 + x.op.cap
  else l.bytes

/-! ### The engines' own accesses (R22, R65, R244, R258, R259) -/

/-- The clock of the collective engines stops in deep fallow (R28). -/
def State.colRuns (s : State) : Bool := s.fld Fld.PWR_STATE_STATE 0 != 3

/-- Meters bytes of an operation at a resource against its bound task's claim (R244, R318); answers whether all of them lie within it. -/
def State.meterOp (s : State) (x : OpRun) (k : Option Nat) (n : Nat) : Bool × State :=
  match x.task, k with
  | some t, some k => ((s.meter t k n).1 == n, (s.meter t k n).2)
  | _, _ => (true, s)

/-- An access of an operation met an error (R22, R259): its bound task aborts, and it sends and completes nothing more
(notes/assumptions/34). -/
def State.failOp (s : State) (id : Nat) : State :=
  match s.op id with
  | none => s
  | some x =>
    let s := s.setOp { x with failed := true }
    match x.task with
    | some t => s.abortTask t fcStream (some fcStream) none none
    | none => s

/-- Writes bytes of an operation piece by piece of the address map: into a scratchpad through the cell's fill port, in the tiles of its
operation (R65), elsewhere at once; answers whether every line took its bytes (R259). -/
def State.engineWrite : Nat → State → OpRun → Nat → List Byte → State × Bool
  | 0, s, _, _, _ => (s, true)
  | f + 1, s, x, a, bs =>
    if bs.isEmpty then (s, true)
    else
      let n := unitEnd a - a
      let now := bs.take n
      let s := (s.meterOp x (resourceOf a) now.length).2
      let r : State × Bool := match placeOf a with
        | .spad c o => (s.postTransfer c
            { port := .fill, bytes := now.length, tile := collectiveTile x.chain x.index, stream := none, tileNo := x.id, load := [(o, now)] },
            true)
        | _ => match s.storeBytes a now with
          | (s, some line) => (s.recordEcc line 3 false, false)
          | (s, none) => (s, true)
      let q := State.engineWrite f r.1 x (a + n) (bs.drop n)
      (q.1, r.2 && q.2)

/-- Writes bytes of an operation; an error ends it. -/
def State.opWrite (s : State) (x : OpRun) (a : Nat) (bs : List Byte) : State :=
  let r := State.engineWrite (bs.length / spadSize + 2) s x a bs
  if r.2 then r.1 else r.1.failOp x.id

/-- Whether bytes of an operation still wait at a fill port. -/
def State.opFills (s : State) (id : Nat) : Bool :=
  s.cells.any fun e => e.2.transfers.any fun q => q.stream.isNone && q.port == .fill && q.tileNo == id

/-- What a command says the error correction found in the operation's own source (R22, R258): a corrected error is counted, an
uncorrectable one recorded, and ends the operation; answers whether it may go on. -/
def State.opRead (s : State) (x : OpRun) (n : Nat) (e : Ecc) : State × Bool :=
  if x.own then (s, true)
  else match e with
  | .clean => (s, true)
  | .corrected => (s.countEccAt x.op.src 1, true)
  | .uncorrectable o =>
    if o < x.op.pieces n * x.op.contrib * x.op.piece then
      ((s.readError (x.op.src + o) 1 (s.taskPair (x.task.getD 0))).failOp x.id, false)
    else (s, true)

/-- Places the data of a message in the slot it fills, or in DST (R322, R325). -/
def State.placePart (s : State) (x : OpRun) (g : ColGroup) (l : Leg) (n : Nat) (m : ColIn) : State :=
  if x.own then s
  else if x.op.opcode = opShift then s.opWrite x (x.op.slotAddr g l.other x.opseq + m.off) m.data
  else if x.op.slotted l.stage then s.opWrite x (x.op.slotAddr g l.other n) m.data
  else if x.op.opcode = opAllToAllV then s
  else if l.stage = stDown ∨ x.op.opcode = opAllToAll then s.opWrite x (x.op.dst + x.op.dstOff l + m.off) m.data
  else s

/-! ### The common error (R334, R335) -/

def ccTimeout : Nat := 1
def ccRefused : Nat := 2
def ccPlot : Nat := 3
def ccMismatch : Nat := 4

/-- The 16 bytes of the record. -/
def ColErr.bytes (e : ColErr) (group : Nat) : List Byte :=
  leBytes 1 e.cause ++ leBytes 1 group ++ leBytes 1 e.epoch ++ leBytes 1 0 ++ leBytes 2 e.opseq ++ leBytes 2 e.origin ++ leBytes 8 e.tick

/-- Completes a release once no operation of the chain is in flight (R315): the chain and its semaphore pairs are free. -/
def State.endRelease (s : State) (c : Nat) : State :=
  match s.chain c with
  | none => s
  | some h =>
    if !(s.chainOps c).isEmpty then s
    else
      match h.releasing with
      | none => s
      | some id =>
        let cells := (h.ops.flatMap (·.notify)).eraseDups
        let s := cells.foldl (fun s c' =>
          let y := s.cell c'
          s.setCell c' { y with pairs := y.pairs.filter fun e => decide (e.2.owner ≠ .chain c) }) s
        let s := ({ s with chains := Table.del s.chains c }).colStatus c
        s.finish id stOk 0

/-- Gives `n` EMPTY or FULL back in a chain's pair of a cell (R316, R328). -/
def State.chainPair (s : State) (c : Nat) (d : OpDesc) (f : SemPair → SemPair) : State :=
  if !d.notifies then s
  else d.notify.foldl (fun s k =>
    let y := s.cell k
    match Table.get y.pairs d.sempair with
    | some q => if q.owner = .chain c then s.setCell k { y with pairs := Table.put y.pairs d.sempair (f q) } else s
    | none => s) s

/-- Ends an operation by the common error (R335): its arrived bytes are undefined data, its chain stands at its first operation with
its counters zero, and its task aborts with FROST. -/
def State.abortOp (s : State) (x : OpRun) : State :=
  let s : State := match (if x.own then none else s.colGroup x.op.group) with
    | none => s
    | some g =>
      let l := s.colIn.filter fun (m : ColIn) => m.group == x.op.group && m.epoch == x.epoch && m.opseq == x.opseq
      l.foldl (fun (s : State) (m : ColIn) => match x.op.legOf g m.stage m.piece m.src with
        | none => s
        | some k =>
          if x.op.slotted k.stage then
            s.undefineBytes (x.op.slotAddr g m.src 0) (x.op.slots * x.op.slotBytes)
          else s.undefineBytes (x.op.dst + x.op.dstOff k + m.off) m.data.length) s
  let s := { s with ops := s.ops.filter fun y => y.id != x.id }
  let s := s.chainPair x.chain x.op fun q => { q with empty := min q.depth (q.empty + 1) }
  let s : State := match s.chain x.chain with
    | none => s
    | some h =>
      let s := h.ops.foldl (fun s d => s.clearCounter d.trigger) s
      s.setChain x.chain { h with head := 0, landed := [], deferred := false }
  let s : State := match x.task with
    | some t => s.abortTask t fcFrost (some fcFrost) none none
    | none => s
  s.endRelease x.chain

/-- The lead discards its tray (R132, R192); one whose commit is open is left to R159. -/
def State.discardTray (s : State) (p : Nat) (d : GroupDesc) : State :=
  match (s.seq p d.seqNo).bind (·.tray) with
  | some a => if d.self = d.lead ∧ (s.trayState a = tsFilling ∨ s.trayState a = tsVerified) then s.emptyTray a else s
  | none => s

/-- A ring's buffers hold undefined data of the aborted task, and every slot of its SHIFT operations is free (R193). -/
def State.freeRing (s : State) (d : GroupDesc) : State :=
  let s := s.undefineBytes d.buf (2 * d.bufSize)
  let rings := s.chains.flatMap fun e => (e.2.ops.filter fun o => o.group == d.ngroup && o.opcode == opShift).map fun o => (e.1, o)
  rings.foldl (fun s e => s.chainPair e.1 e.2 fun q => { q with full := 0, empty := q.depth }) s

/-- Frost reaches a plot's sequence group (R192, R193): its task aborts whether or not an operation was in flight, the group check is due
before the next step, the attempt in force is over and the lead's tray discarded, or the ring's buffers are free. -/
def State.groupFrost (s : State) (p gi : Nat) : State :=
  match Table.get s.groups p with
  | none => s
  | some x =>
    let d := s.groupDesc x.desc
    if !d.needs.contains gi then s
    else
      let s := { s with groups := Table.put s.groups p { x with due := true, launched := none, late := false, stale := [] } }
      let s := s.abortTask x.task fcFrost (some fcFrost) none none
      if d.pattern = ptDecode then (s.voidStep p).discardTray p d
      else if d.pattern = ptKvRing then s.freeRing d
      else s

/-- A record of the group's present epoch, raised or received: the first ends every operation of the group in flight; the one with
the smallest TICK, then the smallest ORIGIN, is kept. -/
def State.takeError (s : State) (gi : Nat) (e : ColErr) : State :=
  match s.colGroup gi with
  | none => s
  | some g =>
    match g.err with
    | some k =>
      let keep := if e.tick < k.tick ∨ (e.tick = k.tick ∧ e.origin < k.origin) then { e with first := k.first } else k
      s.setGroup gi { g with err := some keep }
    | none =>
      let mine := s.ops.filter fun x => x.op.group == gi
      let s := s.setGroup gi { g with
        err := some { e with first := s.sundial }
        dead := (mine.filter fun x => !x.own).map fun x => ⟨x.op.status, x.opseq, x.flags + (if x.overflow then 16 else 0) + (if x.deferred then 32 else 0)⟩ }
      let s := (mine.foldl (fun s x => s.abortOp x) s).groupFrost g.plot gi
      { s with
        colIn := s.colIn.filter fun m => m.group != gi
        rbatches := s.rbatches.map fun (b : Nat × RBatch) =>
          (b.1, if b.2.flags.testBit 0 && b.2.group == gi then { b.2 with aborted := some (if e.cause = ccRefused then 0x0C else 0x0F) } else b.2)
        shiftBook := s.shiftBook.filter fun e => e.1 / 65536 != gi }

/-- Notes a member's refusal of a sharded batch (R213): the batches of the group end REFUSED, with the latest earliest-feasible tick. -/
def State.noteRefusal (s : State) (gi cause tick : Nat) : State :=
  if cause ≠ ccRefused then s
  else { s with rbatches := s.rbatches.map fun (b : Nat × RBatch) =>
    (b.1, if b.2.flags.testBit 0 && b.2.group == gi && b.2.aborted.isSome
      then { b.2 with aborted := some 0x0C, feasible := max b.2.feasible tick } else b.2) }

/-- Raises the common error (R334): a frost message to every other member, and the record is taken here. A refusal's earliest feasible tick
travels in ADDR (notes/assumptions/34). -/
def State.raiseError (s : State) (gi cause opseq : Nat) (feasible : Nat := 0) : State :=
  match s.colGroup gi with
  | none => s
  | some g =>
    let e : ColErr := ⟨cause, g.epoch, opseq, g.self, s.sundial, s.sundial⟩
    let others := (List.range g.n).filter (· != g.self)
    let s := others.foldl (fun s m => s.send { Msg.to .frost 0 g.plot (g.chip m) with
      addr := feasible, gen := s.chipTag, data := e.bytes gi }) s
    let s := s.logEvent g.plot 9 7 31 gi
    (s.takeError gi e).noteRefusal gi cause feasible

/-! ### Sending (R322, R325, R331) -/

/-- Flags that travel with a piece: those of its drains and of every message of it that has arrived (R327). -/
def State.pieceFlags (s : State) (x : OpRun) (j : Nat) : Nat :=
  let a := (s.colIn.filter fun (m : ColIn) => m.group == x.op.group && m.epoch == x.epoch && m.opseq == x.opseq && m.piece == j).map (·.flags)
  let b := (x.landed.filter fun l => l.piece == j).map (·.flags)
  (a ++ b).foldl (· ||| ·) 0

/-- Adds the engine's own flags to the operation and to the local contributors (R327). -/
def State.ownFlags (s : State) (id : Nat) (f : NumFlags) : State :=
  match s.op id with
  | none => s
  | some x =>
    let s := s.setOp { x with flags := x.flags ||| opFlags f }
    x.op.cells.foldl (fun s c => s.addNumFlags c f) s

/-- TAG of a collective message (R322). -/
def OpRun.tag (x : OpRun) : Nat := x.op.group * 2 ^ 24 + x.epoch * 2 ^ 16 + x.opseq

/-- The site partner of this member with an OPEN connection (R352). -/
def State.openPartner (s : State) (g : ColGroup) (site : Nat) : Option Nat :=
  (s.sitePartner (g.siteList.getD site site) (g.chip g.self)).filter fun i => (s.conn i).state == cnOpen

/-- The resource that a leg's bytes leave by: a link, or the field port of the site's partner (R282). -/
def State.legResource (s : State) (g : ColGroup) (l : Leg) : Option Nat :=
  if l.stage = stSite then (s.openPartner g (l.other - siteBase)).map fun i => 14 + (s.conn i).port
  else (s.route s.chipNo (g.chip l.other)).map (8 + ·)

/-- Meters what a leg reads of memory and what leaves the chip; answers whether the bytes that leave lie within the claim. -/
def State.meterLeg (s : State) (x : OpRun) (g : ColGroup) (l : Leg) (n : Nat) : Bool × State :=
  let s := match x.op.legSource g l with
    | some j => (s.meterOp x (resourceOf (x.op.contribAddr j 0)) (n * if x.op.arith then x.op.contrib else 1)).2
    | none => s
  s.meterOp x (s.legResource g l) n

/-- The decode step's piece that an operation moves (R181, R183): KIND 0 for the lead's queries over QGROUP, 1 for partials over RGROUP, with
the group work of its plot. -/
def State.stepPiece (s : State) (x : OpRun) : Option (Nat × GroupCtx × GroupDesc) :=
  match s.colGroup x.op.group with
  | none => none
  | some g => match Table.get s.groups g.plot with
    | none => none
    | some c =>
      let d := s.groupDesc c.desc
      if d.pattern ≠ ptDecode then none
      else if x.op.opcode = opMulticast ∧ x.op.group = d.qgroup then some (0, c, d)
      else if x.op.opcode = opReduce ∧ x.op.group = d.rgroup then some (1, c, d)
      else none

/-- Bytes of a piece header (R181). -/
def pieceHeadBytes : Nat := 16

/-- Bytes of a part of an operation's leg; a step's pieces leave room for their header. -/
def State.partSize (s : State) (x : OpRun) (stage : Nat) : Nat :=
  x.op.partBytes stage - (if (s.stepPiece x).isSome then pieceHeadBytes else 0)

/-- The rows of a group's pieces (R180, R181): one per node and query head. -/
def GroupCtx.rows (c : GroupCtx) (q : Seqn) : Nat := (c.header.getD 12 0).toNat * heads q

/-- The layer and group of an operation's piece, by its place among the group's operations under the header (R181; notes/assumptions/58). -/
def GroupCtx.unitOf (c : GroupCtx) (d : GroupDesc) (q : Seqn) (x : OpRun) : Nat × Nat :=
  let k := (x.opseq + 65536 - (Table.get c.opBase x.op.group).getD x.opseq) % 65536 / (if d.qgroup = d.rgroup then 2 else 1)
  (k / q.groups, k % q.groups)

/-- The header that a step's piece begins with (R181), for the plot's group work `c`. -/
def State.pieceHeader (s : State) (p kind : Nat) (c : GroupCtx) (d : GroupDesc) (x : OpRun) (flags : Nat) : List Byte :=
  match s.seq p d.seqNo with
  | none => List.replicate pieceHeadBytes 0
  | some q =>
    let u := c.unitOf d q x
    leBytes 4 (c.tag.getD 0) ++ leBytes 1 u.1 ++ leBytes 1 u.2 ++ leBytes 1 (c.rows q - 1) ++ leBytes 1 kind ++ leBytes 2 d.self ++
      leBytes 1 (if kind = 1 then flags % 16 else 0) ++ List.replicate 5 0

/-- A message of a step's piece begins with its header; any other goes as it is (R181). -/
def State.headed (s : State) (p : Nat) (x : OpRun) (flags : Nat) (m : Msg) : Msg :=
  match s.stepPiece x with
  | none => m
  | some (kind, c, d) => { m with
      kind := if kind = 0 then .queryPiece else .partialPiece, data := s.pieceHeader p kind c d x flags ++ m.data }

/-- Whether an operation's pieces wait for the step header (R182). -/
def State.headless (s : State) (x : OpRun) : Bool := (s.stepPiece x).any fun e => e.2.1.tag.isNone

/-- Sends the part of a leg at offset `lo`, once: when what it carries is complete and a credit is left. A poisoned line of its source ends
the operation (R259); bytes beyond the claim of its task travel as background (R244, R304). -/
def State.sendPart (s : State) (id : Nat) (l : Leg) (lo : Nat) : State :=
  match s.op id with
  | none => s
  | some x =>
    match s.colGroup x.op.group with
    | none => s
    | some g =>
      let key : SendKey := ⟨l.stage, l.piece, l.other, lo⟩
      if x.failed || x.sent.contains key || !s.mayFill x l lo || s.headless x then s
      else
        let n := min (s.partSize x l.stage) (s.legBytes x l - lo)
        match s.sourcePoison x (x.op.legSource g l), s.legPart x g l lo n with
        | _, none => s
        | some line, some _ => (s.recordEcc line 2 false).failOp id
        | none, some (bs, f) =>
          let (within, s) := s.meterLeg x g l bs.length
          let s := (s.setOp { x with sent := x.sent ++ [key] }).ownFlags id f
          let s := if x.op.opcode = opShift ∧ lo = 0 then s.setShiftHeld x.op.group l.other (s.shiftHeld x.op.group l.other + 1) else s
          let flags := s.pieceFlags x l.piece ||| opFlags f
          let op := x.op.opcode * 2 ^ 24 + flags * 2 ^ 20 + l.stage * 2 ^ 16 + l.piece
          let m := { Msg.to .collective (if within then 2 else 6) g.plot (g.chip l.other) with
            addr := lo, gen := s.chipTag, tag := x.tag, op := op, data := bs }
          let s : State := match (if x.op.opcode = opAllToAllV ∧ lo = 0 then s.variablePiece x l.piece else none) with
            | some (_, true, cut) =>
              (s.addSat Fld.COL_OVERFLOW_COUNT_COUNT g.plot cut).setOp { (s.op id).getD x with overflow := true }
            | _ => s
          if l.stage = stSite then
            match s.openPartner g (l.other - siteBase) with
            | some i => s.fldSend i { m with dest := g.chip g.self } none (some id)
            | none => s.raiseError x.op.group ccMismatch x.opseq
          else s.send (s.headed g.plot x flags m)

/-- Parts of a leg. -/
def State.partsOf (s : State) (x : OpRun) (l : Leg) : List Nat :=
  let b := s.partSize x l.stage
  (List.range (max 1 (ceilDiv (s.legBytes x l) b))).map (· * b)

/-- Whether the contents of a message have been added, written or forwarded (R332). -/
def State.consumed (s : State) (x : OpRun) (g : ColGroup) (m : ColIn) : Bool :=
  let d := x.op
  let w := d.wireF.bytesOf 1
  if d.opcode = opShift then false
  else if m.stage = stSite then (s.roundedPiece x g m.piece).isSome
  else if d.shape = 0 then
    if m.piece = g.self then (s.ringSum x g m.piece (m.off / w) (m.data.length / w)).isSome
    else x.sent.any fun k => k.stage == stUp0 && k.piece == m.piece && k.off == m.off
  else if d.opcode = opAllToAll ∨ d.opcode = opAllToAllV then true
  else if g.self ≠ d.root then x.sent.any fun k => k.stage != stDown && k.off == m.off
  else if d.opcode = opTopk then (s.topkValue x g).isSome
  else (s.rootSum x g (m.off / w) (m.data.length / w)).isSome

/-- Returns the credit of a slot to its sender (R322). -/
def State.returnCredit (s : State) (x : OpRun) (g : ColGroup) (src : Nat) : State :=
  let m := { Msg.to .credit 1 g.plot (g.chip src) with gen := s.chipTag, tag := x.tag, op := 0x81000000 }
  if siteBase ≤ src then
    match s.openPartner g (src - siteBase) with
    | some i => s.fldSend i { m with dest := g.chip g.self } none none
    | none => s
  else s.send m

/-- Releases every slot whose contents have been used. -/
def State.releaseSlots (s : State) (id : Nat) : State :=
  match s.op id with
  | none => s
  | some x =>
    match s.colGroup x.op.group with
    | none => s
    | some g =>
      let mine (m : ColIn) : Bool :=
        m.group == x.op.group && m.epoch == x.epoch && m.opseq == x.opseq && !m.freed && x.op.slotted m.stage && s.consumed x g m
      let done := s.colIn.filter mine
      let s := { s with colIn := s.colIn.map fun (m : ColIn) => if mine m then { m with freed := true } else m }
      done.foldl (fun s m => s.returnCredit x g m.src) s

/-- Sends every part whose inputs are complete, then releases slots. The chunks of a ring leave by RING_CHUNK. -/
def State.progress (s : State) (id : Nat) : State :=
  match s.op id with
  | none => s
  | some x =>
    match s.colGroup x.op.group with
    | none => s
    | some g =>
      let legs := (x.op.sends g).filter fun l => x.op.shape != 0 || l.stage == stSite
      let s := legs.foldl (fun s l => (s.partsOf x l).foldl (fun s lo => s.sendPart id l lo) s) s
      s.releaseSlots id

/-! ### Messages that arrive (R322, R323) -/

/-- Whether a message fits the operation it names: its opcode, and no byte beyond the piece. -/
def OpRun.fits (x : OpRun) (g : ColGroup) (m : ColIn) : Bool :=
  x.op.opcode == m.opcode && (match x.op.legOf g m.stage m.piece m.src with
    | some l => decide (m.off + m.data.length ≤ x.op.legLimit l)
    | none => false)

/-- Number of messages through slots that a sender has delivered for an operation before message `k` of the list. -/
def slotsBefore (x : OpRun) (src : Nat) (l : List ColIn) : Nat :=
  (l.filter fun m => m.group == x.op.group && m.epoch == x.epoch && m.opseq == x.opseq && m.src == src && x.op.slotted m.stage).length

/-- Takes a message of an operation in flight. -/
def State.acceptPart (s : State) (x : OpRun) (g : ColGroup) (m : ColIn) : State :=
  if !x.fits g m then s.raiseError m.group ccMismatch m.opseq
  else
    let n := slotsBefore x m.src s.colIn
    let s : State := match x.op.legOf g m.stage m.piece m.src with
      | some l => s.placePart x g l n m
      | none => s
    let s := { s with colIn := s.colIn ++ [m] }
    s.progress x.id

/-- Fires an operation of the chip's own on a group (R178, R213): it takes the group's next OPSEQ; parts that came early are taken. -/
def State.fireOwn (s : State) (chain index : Nat) (op : OpDesc) (g : ColGroup) : State :=
  let early := s.colIn.filter fun (m : ColIn) => m.group == op.group && m.epoch == g.epoch && m.opseq == g.opseq
  let x : OpRun := {
    id := s.opSeq, chain := chain, index := index, op := op, epoch := g.epoch, opseq := g.opseq
    task := none, fired := s.sundial, timer := (early.map (·.tick)).foldl min s.sundial, flags := 0, overflow := false, deferred := false
    landed := [], sent := [], back := [], sizes := [], posted := 0, failed := false }
  let s := s.setGroup op.group { g with opseq := (g.opseq + 1) % 65536 }
  let s := { s with
    ops := s.ops ++ [x], opSeq := s.opSeq + 1
    colIn := s.colIn.filter fun (m : ColIn) => !(m.group == op.group && m.epoch == g.epoch && m.opseq == g.opseq) }
  let s := early.foldl (fun (s : State) (m : ColIn) => match s.op x.id with
    | some y => s.acceptPart y g m
    | none => s) s
  s.progress x.id

/-- The member, or site, that a message comes from. -/
def ColGroup.sender (g : ColGroup) (chip : Nat) (site : Option Nat) : Option Nat :=
  match site with
  | some k => if k < g.sites ∧ k ≠ g.site ∧ chip = g.chip g.self then some (siteBase + k) else none
  | none => (List.range g.n).find? fun i => g.chip i == chip

/-- A collective message from a chip of this site, or from a partner at another (R323). -/
def State.pieceIn (s : State) (plot chip : Nat) (site : Option Nat) (tag op addr : Nat) (data : List Byte) : State :=
  let gi := bitsAt tag 24 8
  let epoch := bitsAt tag 16 8
  let opseq := bitsAt tag 0 16
  let drop := s.addSat Fld.COL_DROP_COUNT_COUNT plot 1
  match s.colGroup gi with
  | none => drop
  | some g =>
    match g.sender chip site with
    | none => drop
    | some src =>
      let m : ColIn := ⟨gi, epoch, opseq, bitsAt op 16 4, bitsAt op 0 16, src, addr, bitsAt op 24 8, bitsAt op 20 4, data, s.sundial, false⟩
      if g.plot ≠ plot ∨ epoch ≠ g.epoch ∨ g.err.isSome then drop
      else match s.ops.find? fun x => x.op.group == gi && x.opseq == opseq && x.epoch == epoch with
        | some x => s.acceptPart x g m
        | none => if (opseq + 65536 - g.opseq) % 65536 < 4 then { s with colIn := s.colIn ++ [m] } else drop

end Sys2Proof.Machine
end

