-- ==== Sys2Proof/Machine/GroupCore.lean ====
section
/-!
DEFINITION. The checks of sequence groups (R173 to R178) at submission and over the gathered member records, the row tables that a step
header gives, and what becomes of a group's pieces and ring blocks (R181 to R186).
-/

namespace Sys2Proof.Machine
open Sys2Proof

def State.group (s : State) (p : Nat) : Option GroupCtx := Table.get s.groups p

def State.setGroupCtx (s : State) (p : Nat) (x : GroupCtx) : State := { s with groups := Table.put s.groups p x }

/-! ### The checks at submission (R177) -/

/-- Field ranges and reserved bytes. -/
def State.groupFieldsOk (s : State) (a : Nat) : Bool :=
  let d := s.groupDesc a
  decide (1 ≤ d.n) && decide (d.n ≤ 8192) && decide (d.self < d.n) && decide (d.pattern ≤ 2) && decide (d.slicing ≤ 1) &&
  (if d.pattern = ptDecode then decide (d.lead < d.n) && d.slicing == 0 else d.lead == 0) &&
  (if d.slicing = 1 then d.slice != 0 else d.late == 0 && d.slice == 0) && d.bufSize % 4096 == 0 &&
  decide (1000 ≤ d.timeout) && s.loadLe (a + 0x34) 4 == 0

/-- Whether a sequence of the plot holds exactly the range given. -/
def State.holdsRange (s : State) (p n base len : Nat) : Bool :=
  match s.seq p n with
  | some q => q.base == base && q.maxSlice == len
  | none => false

/-- This member's part of R174. -/
def State.sliceOk (s : State) (p : Nat) (d : GroupDesc) : Bool :=
  if d.slicing = 1 then
    decide (2 * d.n * d.slice ≤ 2 ^ 32) && s.holdsRange p d.seqNo (d.self * d.slice) d.slice &&
      s.holdsRange p d.late ((2 * d.n - 1 - d.self) * d.slice) d.slice
  else match s.seq p d.seqNo with
    | some q => (d.self != 0 || q.base == 0) && decide (q.base + q.maxSlice ≤ 2 ^ 32)
    | none => false

/-- Whether a range lies in the plot's bonded-DRAM window. -/
def State.inDramWindow (s : State) (p a n : Nat) : Bool :=
  s.ownsRange p a n && (match placeOf a with
    | .dram _ _ => true
    | _ => false)

/-- The check of R177 when a task names the descriptor at an address. -/
def State.groupOk (s : State) (p a : Nat) : Bool :=
  let d := s.groupDesc a
  s.inDramWindow p a 64 && s.groupFieldsOk a &&
  (d.needs.all fun gi => match s.colGroup gi, s.colGroup (d.needs.headD 0) with
    | some g, some first => g.plot == p && g.n == d.n && g.members == first.members && g.self == d.self && g.members.eraseDups.length == g.n
    | _, _ => false) &&
  s.sliceOk p d && (d.pattern != ptKvRing || s.inDramWindow p d.buf (2 * d.bufSize))

/-! ### The group check (R178) -/

/-- Where CONTIGUOUS slices begin: the sum of those before. -/
def sliceStart (l : List MemberRec) (k : Nat) : Nat := ((l.take k).map (·.len)).sum

/-- Whether record `k` agrees with the member list, with record 0 and with R174. -/
def recordFits (d : GroupDesc) (members : List Nat) (l : List MemberRec) (k : Nat) : Bool :=
  match l[k]?, l[0]? with
  | some r, some z =>
    r.self == k && some r.chip == members[k]? && r.crc == z.crc &&
      (if d.slicing = 1 then r.base == k * d.slice && r.len == d.slice
       else r.base == sliceStart l k && decide (sliceStart l (k + 1) ≤ 2 ^ 32))
  | _, _ => false

/-- The all-gather of a group check: a piece of 16 bytes from every member, in no memory of the plot. -/
def checkOp (gi : Nat) : OpDesc :=
  ⟨opAllGather, 0, gi, 0, 0, 1, 0xFFFF, 0, 0, 0, 0, 0, 16, 0, 1, 0, 0, 0, 0, 0, 0, 0, 0, [], [], 2 ^ 64 - 1, 0, 0, 0⟩

/-- Starts the group check of a plot while it is due and its task runs (R178), but not before the report of a common error (R335). -/
def State.startCheck (s : State) (p : Nat) : State :=
  match Table.get s.groups p with
  | none => s
  | some x =>
    let gi := (s.groupDesc x.desc).needs.headD 0
    match s.colGroup gi with
    | none => s
    | some g =>
      if !x.due || (s.task x.task).isNone || g.err.isSome || g.plot != p || (s.chainOps (checkChain + p)).isEmpty = false then s
      else s.fireOwn (checkChain + p) 0 (checkOp gi) g

/-- The records that a group check gathered: this member's own and what arrived. -/
def State.gathered (s : State) (x : OpRun) (g : ColGroup) : List MemberRec :=
  (List.range g.n).map fun k => memberRec
    (if k = g.self then s.checkRecord x else (s.arrived x stDown k ((g.self + g.n - 1) % g.n) 0 16).getD (List.replicate 16 0))

/-- Judges the records of a group check (R178): on a mismatch the task aborts with the common error, the first mismatching record is
logged, its first twelve bytes and then its SHARED_CRC, and CHECK_FAIL set. -/
def State.judgeCheck (s : State) (p : Nat) (op : OpDesc) (g : ColGroup) (opseq : Nat) (l : List MemberRec) : State :=
  match Table.get s.groups p with
  | none => s
  | some x =>
    let d := s.groupDesc x.desc
    match (List.range g.n).find? fun k => !recordFits d g.members l k with
    | none => { s with groups := Table.put s.groups p { x with due := false, recs := l } }
    | some k =>
      let r := l.getD k (memberRec [])
      let s := (s.logEvent p 5 3 50 (leNat (r.bytes.take 12))).logEvent p 5 3 51 r.crc
      let s := s.setBit Fld.ATT_GROUP_STATUS_CHECK_FAIL p true
      (s.raiseError op.group ccMismatch opseq).abortTask x.task fcFrost (some fcFrost) none none

/-! ### Row tables (R180, R110) -/

/-- Offsets of the attention descriptors that a cell's program names in its ATS words. -/
def Cell.attDescs (x : Cell) : List Nat := ((x.ibuf.filter fun w => opcodeOf w == 0x20).map fun w => (atsWord w).doff).eraseDups

/-- Writes ROWTAB into the row table of one attention descriptor: each node gives its entry to one row per query head. -/
def State.expandRows (s : State) (c doff nodes : Nat) (rowtab : List Byte) : State :=
  let d := s.attDesc c doff
  let h := (d.rows + 1) / nodes
  (List.range (h * nodes)).foldl (fun s r =>
    s.writeBytes (spadBase c + d.qtab + 8 * r) ((rowtab.drop (8 * (r / h))).take 8)) s

/-- Expands a step header into the row tables of a task's cells. -/
def State.expandHeader (s : State) (tid : Nat) (header : List Byte) : State :=
  match s.task tid with
  | none => s
  | some t =>
    let nodes := (header.getD 12 0).toNat
    t.cells.foldl (fun s c => ((s.cell c).attDescs).foldl (fun s o => s.expandRows c o nodes (header.drop 24)) s) s

/-- Opens the group work of a task that starts (R176, R178): a descriptor that passed its check goes on under it; any other runs the check
first. A ring's TAG is its descriptor's; a decode step's is its header's. -/
def State.openGroup (s : State) (p tid a : Nat) : State :=
  let d := s.groupDesc a
  let ring := d.pattern != ptDecode
  let fresh : GroupCtx := ⟨a, tid, [], true, if ring then some d.tag else none, 0, [], [], 0, none, false, [], []⟩
  let x : GroupCtx := match Table.get s.groups p with
    | some x =>
      if x.desc = a then { x with task := tid, hop := 0, launched := none, late := false, stale := [], tag := if ring then some d.tag else x.tag }
      else fresh
    | none => fresh
  let s := ({ s with groups := Table.put s.groups p x }).setFld Fld.ATT_GROUP_STATUS_ATTEMPT p d.attempt
  (if x.header.isEmpty then s else s.expandHeader tid x.header).startCheck p

/-! ### Pieces of a decode step (R181, R182, R184, R219) -/

/-- The member that a chip is in a group's list. -/
def State.memberOf (s : State) (gi chip : Nat) : Option Nat := (s.colGroup gi).bind fun g => g.sender chip none

/-- A piece's header (R181). -/
structure PieceHead where
  tag : Nat
  layer : Nat
  group : Nat
  rows : Nat
  kind : Nat
  member : Nat
  sflags : Nat
  rest : Nat
  deriving DecidableEq, Repr

def pieceHead (b : List Byte) : PieceHead :=
  let f := fun (o n : Nat) => leNat ((b.drop o).take n)
  ⟨f 0 4, f 4 1, f 5 1, f 6 1, f 7 1, f 8 2, f 10 1, f 11 5⟩

/-- Bytes of a row of a piece: a query in the format of the keys, or the words of a partial (R118, R181). -/
def pieceRow (q : Seqn) (kind : Nat) : Nat := if kind = 0 then keyRun q else 4 * (dims q + 1)

/-- Whether a piece's message agrees with its header (R181): reserved bytes zero, no flags on a query, no byte beyond its rows; behind the
rows of a query stand a recall list's header and sections where the step header has RECALL (R219). -/
def State.pieceOk (s : State) (p : Nat) (x : GroupCtx) (h : PieceHead) (off n : Nat) : Bool :=
  h.rest == 0 && (h.kind != 0 || h.sflags == 0) && (match s.seq p (s.groupDesc x.desc).seqNo with
    | none => true
    | some q => (h.kind == 0 && (x.header.getD 13 0).toNat.testBit 1) || decide (off + n ≤ 16 * ceilDiv ((h.rows + 1) * pieceRow q h.kind) 16))

/-- Takes a query or partial piece (R181, R184): one of another TAG, or from outside the group, is dropped and counted; one that breaks its
own header is dropped and logged. The piece's rows go on as the collective message that carries them, a recall list behind them (R219); the
flags of its header join those of the message (R183). -/
def State.groupPiece (s : State) (m : InMsg) (kind : Nat) (gi : GroupDesc → Nat) : State :=
  let p := m.plot % 8
  let h := pieceHead m.data
  let stale := s.addSat Fld.ATT_GROUP_STALE_COUNT p 1
  match s.group p with
  | none => stale
  | some x =>
    let g := gi (s.groupDesc x.desc)
    if x.tag ≠ some h.tag ∨ h.kind ≠ kind ∨ s.memberOf g m.src ≠ some h.member ∨ bitsAt m.tag 24 8 ≠ g then stale
    else if !s.pieceOk p x h m.addr (m.data.length - pieceHeadBytes) then s.logEvent p 5 5 44 m.src
    else
      let s := s.setGroupCtx p { x with pieces := x.pieces ++ [(h.member, h.layer, h.group, h.kind)] }
      let flags := bitsAt m.op 20 4 ||| (h.sflags % 16)
      s.pieceIn p m.src none m.tag (setBits m.op 20 4 flags) m.addr (m.data.drop pieceHeadBytes)

/-! ### The ring (R184, R186) -/

/-- Whether an operation is the SHIFT of a plot's key-value ring whose task runs (R187, R330): it fires at its hop's launch. -/
def State.ringShift (s : State) (d : OpDesc) : Bool :=
  match s.colGroup d.group with
  | none => false
  | some g => match s.group g.plot with
    | none => false
    | some x =>
      let r := s.groupDesc x.desc
      r.pattern == ptKvRing && r.ngroup == d.group && d.opcode == opShift && (s.task x.task).isSome

/-- The header of a ring block (R186). -/
structure BlockHead where
  origin : Nat
  layer : Nat
  group : Nat
  count : Nat
  first : Nat
  firstLate : Nat
  early : Nat
  tag : Nat
  deriving DecidableEq, Repr

def blockHead (b : List Byte) : BlockHead :=
  let f := fun (o n : Nat) => leNat ((b.drop o).take n)
  ⟨f 0 2, f 2 1, f 3 1, f 4 4, f 8 4, f 12 4, f 16 4, f 20 4⟩

def BlockHead.bytes (h : BlockHead) : List Byte :=
  leBytes 2 h.origin ++ leBytes 1 h.layer ++ leBytes 1 h.group ++ leBytes 4 h.count ++ leBytes 4 h.first ++ leBytes 4 h.firstLate ++
    leBytes 4 h.early ++ leBytes 4 h.tag ++ List.replicate 40 0

/-- A message of a plot's ring (R184): a block of another TAG, or from outside the group, is dropped whole and counted once. -/
def State.ringPiece (s : State) (p : Nat) (x : GroupCtx) (m : InMsg) : State :=
  let count := if m.addr = 0 then s.addSat Fld.ATT_GROUP_STALE_COUNT p 1 else s
  match s.memberOf (bitsAt m.tag 24 8) m.src with
  | none => count
  | some k =>
    let key := (k, bitsAt m.tag 0 16)
    let rest := x.stale.filter (· != key)
    let take (s : State) : State := s.pieceIn p m.src none m.tag m.op m.addr m.data
    if m.addr = 0 then
      if some (blockHead m.data).tag ≠ x.tag then count.setGroupCtx p { x with stale := rest ++ [key] }
      else take (s.setGroupCtx p { x with stale := rest })
    else if x.stale.contains key then s else take s

/-- Takes a collective message; those of a decode step's pieces and of a ring's blocks by their own rules (R184). -/
def State.takePiece (s : State) (m : InMsg) : State :=
  let p := m.plot % 8
  let gi := bitsAt m.tag 24 8
  let op := bitsAt m.op 24 8
  let plain := s.pieceIn p m.src none m.tag m.op m.addr m.data
  match s.group p with
  | none => plain
  | some x =>
    let d := s.groupDesc x.desc
    if d.pattern = ptKvRing ∧ d.ngroup = gi ∧ op = opShift then s.ringPiece p x m
    else if d.pattern = ptDecode ∧ d.qgroup = gi ∧ op = opMulticast then s.groupPiece m 0 (·.qgroup)
    else if d.pattern = ptDecode ∧ d.rgroup = gi ∧ op = opReduce then s.groupPiece m 1 (·.rgroup)
    else plain

end Sys2Proof.Machine
end

