-- ==== Sys2Proof/Machine/Collectives.lean ====
section
/-!
DEFINITION. The collective engines' commands (R313 to R337): arming and releasing chains, triggers and fused drains, firing, ring
chunks, completion, messages, timeouts and the common error.
-/

namespace Sys2Proof.Machine
open Sys2Proof

/-! ### Arming (R315, R316) -/

/-- The root field of R319. -/
def OpDesc.rootOk (d : OpDesc) (n : Nat) : Bool :=
  if d.rooted then decide (d.root < n)
  else if d.opcode = opShift then decide (1 ≤ d.root) && decide (d.root < n)
  else d.root == 0

/-- The formats of R316 and R319. -/
def OpDesc.formatsOk (d : OpDesc) : Bool :=
  decide (d.elem ≤ 7) && decide (d.wire ≤ 2) && decide (d.out ≤ 6) && (d.xfmt == 0 || d.xfmt == 3 || d.xfmt == 5 || d.xfmt == 6) &&
  !(d.elem == 2 && d.wire == 1) && (!d.arith || (decide (1 ≤ d.elem) && decide (d.elem ≤ 6) && decide (1 ≤ d.wire))) &&
  (!d.cross || d.xfmt != 0)

/-- The number fields of R319. -/
def OpDesc.rangesOk (d : OpDesc) : Bool :=
  decide (1 ≤ d.opcode) && decide (d.opcode ≤ 9) && d.shapeOk && decide (d.oflags < 16) && decide (d.trigger < 1024) &&
  decide (1 ≤ d.threshold) && (d.donectr == 0xFFFF || decide (d.donectr < 1024)) && d.piece % 16 == 0 && decide (16 ≤ d.piece) &&
  decide (d.piece ≤ 2 ^ 31) && d.cap % 16 == 0 && decide (1 ≤ d.contrib) && decide (d.contrib ≤ 32) && decide (d.slots ≤ 64) &&
  d.slotBytes % 4096 == 0 && d.usesSlots == (d.slots != 0) && (d.slots == 0 || d.slotBytes != 0) && decide (d.sempair ≤ 31) &&
  (!d.notifies || (decide (1 ≤ d.ncells) && decide (d.ncells ≤ 16))) && (d.timeout == 0 || decide (1000 ≤ d.timeout)) &&
  d.cells.all (fun c => decide (c < 512)) && (d.cells.zip (d.cells.drop 1)).all (fun e => decide (e.1 < e.2)) && d.notify.all (fun c => decide (c < 512))

/-- The address ranges of R319 lie in the plot's windows. -/
def State.opWindows (s : State) (p a : Nat) (d : OpDesc) (g : ColGroup) : Bool :=
  s.ownsRange p d.src (d.pieces g.n * d.contrib * d.piece) &&
  (d.opcode == opShift || s.ownsRange p d.dst (d.resultBytes g.n)) &&
  (d.slots == 0 || s.ownsRange p d.rbuf ((d.feeders g).length * d.slots * d.slotBytes)) &&
  (!d.fused || s.ownsRange p (s.loadLe (a + 0x40) 8) (2 * d.contrib)) &&
  (!d.notifies || s.ownsRange p (s.loadLe (a + 0x48) 8) (2 * d.ncells)) &&
  (d.flagsAddr == 2 ^ 64 - 1 || s.ownsRange p d.flagsAddr 4) && s.ownsRange p d.status 16 &&
  (d.opcode != opAllToAllV || d.fused || s.ownsRange p d.sizes (4 * g.n))

/-- The checks of R316 on one descriptor. -/
def State.opOk (s : State) (p a c : Nat) : Bool :=
  let d := s.opDesc a
  d.rangesOk && d.formatsOk && s.loadLe (a + 0x6C) 20 == 0 && s.ownsCounter p d.trigger &&
  (d.donectr == 0xFFFF || s.ownsCounter p d.donectr) &&
  (match s.colGroup d.group with
    | none => false
    | some g => g.plot == p && d.rootOk g.n && (!d.cross || decide (2 ≤ g.sites)) && s.opWindows p a d g) &&
  (!d.notifies || d.notify.all fun k => decide (s.ownerOfCell k = some p) &&
    (match Table.get (s.cell k).pairs d.sempair with
      | none => true
      | some q => decide (q.owner = .chain c)))

/-- A free chain of an engine, or of any (R315). -/
def State.freeChain (s : State) (engine : Nat) : Option Nat :=
  if engine = 0xFF then Table.freeKey s.chains 256 0 else Table.freeKey s.chains 64 (64 * engine)

/-- Arms the NOTIFY pairs of an operation: FULL 0, EMPTY its slots, at least one and at most the eight a count holds
(R234, R316). -/
def State.armNotify (s : State) (c : Nat) (d : OpDesc) : State :=
  if !d.notifies then s
  else d.notify.foldl (fun s k =>
    let x := s.cell k
    s.setCell k { x with pairs := Table.put x.pairs d.sempair ⟨min 8 (max 1 d.slots), 0, min 8 (max 1 d.slots), .chain c, 0, none, none⟩ }) s

/-- CHAIN_ARM (R315, R316). -/
def execChainArm (p : PlotIx) (s : State) : Res :=
  .next (s.runCommand p.val 0x40 (fun c => c.cleanFrom 24 && c.seqNo == 0 && c.arg 10 6 == 0) fun c s =>
    let engine := c.arg 8 1
    let n := c.arg 9 1
    let a := c.arg 16 8
    let bad := (engine != 0xFF && decide (3 < engine)) || n == 0 || decide (64 < n) || !s.ownsRange p.val a (128 * n)
    let at' := (List.range n).map fun i => a + 128 * i
    if bad then s.finishOpen c.id stBadArg
    else if !at'.all fun b => s.opOk p.val b 256 then s.finishOpen c.id stBadArg
    else match s.freeChain engine with
      | none => s.finishOpen c.id stLimit
      | some k =>
        let ops := at'.map s.opDesc
        let s := s.setChain k ⟨p.val, ops, 0, [], false, none⟩
        (ops.foldl (fun s d => s.armNotify k d) s).finish c.id stOk k)

/-- The chain a command names, if the plot holds it. -/
def State.ownChain (s : State) (p k : Nat) : Option Chain := (s.chain k).filter fun h => h.plot == p

/-- CHAIN_RELEASE (R315). -/
def execChainRelease (p : PlotIx) (s : State) : Res :=
  .next (s.runCommand p.val 0x41 (fun c => c.cleanFrom 10 && c.seqNo == 0) fun c s =>
    match s.ownChain p.val (c.arg 8 2) with
    | none => s.finishOpen c.id stBadArg
    | some h =>
      if h.releasing.isSome then s.finishOpen c.id stBadArg
      else (s.setChain (c.arg 8 2) { h with releasing := some c.id }).endRelease (c.arg 8 2))

/-- OP_ABORT (R315): the common error with cause PLOT for every operation of the chain in flight. -/
def execOpAbort (p : PlotIx) (s : State) : Res :=
  .next (s.runCommand p.val 0x42 (fun c => c.cleanFrom 10 && c.seqNo == 0) fun c s =>
    match s.ownChain p.val (c.arg 8 2) with
    | none => s.finishOpen c.id stBadArg
    | some _ =>
      let s := (s.chainOps (c.arg 8 2)).foldl (fun s x => if (s.op x.id).isSome then s.raiseError x.op.group ccPlot x.opseq else s) s
      s.finishOpen c.id stOk)

/-! ### Triggers and drains (R314, R320) -/

/-- COL_TRIGGER (R314, R338): a plot steps one of its counters; zero steps are ignored, and in deep fallow nothing steps (R28). -/
def execColTrigger (a : Agent) (p : PlotIx) (v : W32) (s : State) : Res :=
  let off := Reg.COL_TRIGGER.offset + 4 * p.val
  if !s.plotReach a p.val then .next (s.refusedWrite a off)
  else
    let t := bitsAt v.toNat 0 10
    if !s.colRuns then .next s
    else if !s.ownsCounter p.val t then .next (s.logIgnored p.val 9 off)
    else .next (s.stepCounter t (bitsAt v.toNat 10 4) 0)

/-- Why an operation does not take a drain: its cell is not in the list, its length is wrong, or a SHIFT piece names another member. -/
def OpDesc.refusesDrain (d : OpDesc) (g : ColGroup) (c piece len : Nat) : Bool :=
  !d.cells.contains c || (if d.opcode = opAllToAllV then decide (d.piece < len) else len != d.piece) ||
    (d.opcode == opShift && piece != (g.self + d.root) % g.n)

/-- Where a drain lands: an operation in flight, or one of a chain yet to fire. -/
inductive DrainSink where
  | running (id : Nat)
  | waiting (chain index : Nat)
  deriving DecidableEq, Repr

/-- Whether a contribution is already there. -/
def hasLanded (l : List Landed) (index piece rank : Nat) : Bool :=
  l.any fun e => e.index == index && e.piece == piece && e.rank == rank

/-- The FUSED operations on a counter: those in flight first, then those of the chains from each head on. -/
def State.drainSinks (s : State) (t : Nat) : List (DrainSink × OpDesc × List Landed × Nat) :=
  ((s.ops.filter fun x => x.op.fused && x.op.trigger == t).map fun x => (.running x.id, x.op, x.landed, x.index)) ++
  s.chains.flatMap fun e =>
    let n := e.2.ops.length
    let order := (List.range n).map fun i => (e.2.head + i) % n
    (order.filterMap fun i => (e.2.ops[i]?).map fun d => (i, d)).filterMap fun q =>
      if q.2.fused && q.2.trigger == t then some (.waiting e.1 q.1, q.2, e.2.landed, q.1) else none

/-- The acknowledgement (R75): the drain leaves the cell, its slots are released and the counter steps for the cell's task. -/
def State.ackDrain (s : State) (c : Nat) (d : Drain) : State :=
  let x := s.cell c
  let s := s.setCell c ({ x with drains := x.drains.drop 1 }.releaseSlots d.release)
  (s.stepCounter (fusedTrigger d.fused) 1 (x.task.getD 0)).retire c

/-- Bytes of a drain: its ranges one behind the other (notes/assumptions/34). -/
def Drain.len (d : Drain) : Nat := (d.ranges.map (·.len)).sum

def State.drainBytes (s : State) (c : Nat) (d : Drain) : List Byte := d.ranges.flatMap fun r => s.readBytes (spadBase c + r.lo) r.len

/-- A contribution is in place: it is noted, its drain acknowledged, and what it completes goes on. -/
def State.noteDrain (s : State) (c : Nat) (d : Drain) (sink : DrainSink) (op : OpDesc) (index : Nat) : State :=
  let e : Landed := ⟨index, bitsAt d.fused 10 13, op.cells.findIdx (· == c), d.flags.toNat, d.len⟩
  let s : State := match sink with
    | .running id => match s.op id with
      | some x => s.setOp { x with landed := x.landed ++ [e] }
      | none => s
    | .waiting k _ => match s.chain k with
      | some h => s.setChain k { h with landed := h.landed ++ [e] }
      | none => s
  let s := s.ackDrain c d
  match sink with
  | .running id => s.progress id
  | .waiting _ _ => s

/-- Puts a contribution in place (R320). A poisoned line that it covers in part keeps it from landing, and its task aborts (R259). -/
def State.landDrain (s : State) (c : Nat) (d : Drain) (sink : DrainSink) (op : OpDesc) (index : Nat) : State :=
  match s.storeBytes (op.contribAddr (bitsAt d.fused 10 13) (op.cells.findIdx (· == c))) (s.drainBytes c d) with
  | (s, some line) => (s.recordEcc line 3 false).abortTask ((s.cell c).task.getD 0) fcStream (some fcStream) none none
  | (s, none) => s.noteDrain c d sink op index

/-- DRAIN_ACK (R75, R320): the last byte of the cell's oldest drain has landed. A drain that no FUSED operation on its counter takes
aborts the task with ADDR; one on a counter of no FUSED operation steps it only. -/
def execDrainAck (c : CellIx) (s : State) : Res :=
  let x := s.cell c.val
  match x.drains with
  | [] => .next s
  | d :: rest =>
    if (rest.flatMap (·.ranges)).length < (x.transfers.filter fun t => t.port == .drain && t.stream.isNone).length then .next s
    else
      let piece := bitsAt d.fused 10 13
      let all := s.drainSinks (fusedTrigger d.fused)
      let good := all.filter fun e => match s.colGroup e.2.1.group with
        | some g => !e.2.1.refusesDrain g c.val piece d.len
        | none => false
      if all.isEmpty then .next (s.ackDrain c.val d)
      else if good.isEmpty then .next (s.cellFault c.val fcAddr 0xFFFF)
      else match good.find? fun e => !hasLanded e.2.2.1 e.2.2.2 piece (e.2.1.cells.findIdx (· == c.val)) with
        | none => .next s
        | some e => .next (s.landDrain c.val d e.1 e.2.1 e.2.2.2)

/-! ### Firing (R317, R318) -/

/-- Links that an operation's sends leave by. -/
def State.opLinks (s : State) (d : OpDesc) (g : ColGroup) : List Nat :=
  (((d.sends g).filter fun l => l.stage != stSite).filterMap fun l => s.route s.chipNo (g.chip l.other)).eraseDups

/-- Whether every notified cell has an EMPTY to take. -/
def State.notifyReady (s : State) (c : Nat) (d : OpDesc) : Bool :=
  !d.notifies || d.notify.all fun k => match Table.get (s.cell k).pairs d.sempair with
    | some q => decide (q.owner = .chain c) && decide (0 < q.empty)
    | none => false

/-- Conditions of R317 but START, and the wait of R335. -/
def State.fireable (s : State) (c : Nat) (h : Chain) (d : OpDesc) (g : ColGroup) : Bool :=
  s.colRuns && h.releasing.isNone && g.err.isNone && decide (d.threshold ≤ s.fld Fld.COL_COUNTER_COUNT d.trigger) &&
  decide ((s.chainOps c).length < 4) && decide ((s.engineOps (c / 64)).length < 32) && s.notifyReady c d

/-- Fires the head operation (R317): the threshold is subtracted, the operation takes its group's OPSEQ and is bound to the task whose
step reached the threshold, the head moves on; messages that came early are taken. -/
def State.fire (s : State) (c : Nat) (h : Chain) (d : OpDesc) (g : ColGroup) : State :=
  let early := s.colIn.filter fun (m : ColIn) => m.group == d.group && m.epoch == g.epoch && m.opseq == g.opseq
  let ends := (s.lostDrains.filter fun e => e.1 == d.trigger).map (·.2)
  let timer := (early.map (·.tick) ++ ends).foldl min s.sundial
  let bound := takeSteps (s.stepsOf d.trigger) d.threshold 0
  let sizes := if d.opcode = opAllToAllV ∧ d.fused = false then (List.range g.n).map fun i => s.loadLe (d.sizes + 4 * i) 4 else []
  let x : OpRun := {
    id := s.opSeq, chain := c, index := h.head, op := d, epoch := g.epoch, opseq := g.opseq
    task := if bound.1 = 0 then none else some bound.1
    fired := s.sundial, timer := timer, flags := 0, overflow := false, deferred := h.deferred
    landed := h.landed.filter fun e => e.index == h.head, sent := [], back := [], sizes := sizes, posted := 0, failed := false }
  let s := (s.setFld Fld.COL_COUNTER_COUNT d.trigger (s.fld Fld.COL_COUNTER_COUNT d.trigger - d.threshold)).setSteps d.trigger bound.2
  let s := s.chainPair c d fun q => { q with empty := q.empty - 1 }
  let s := s.setGroup d.group { g with opseq := (g.opseq + 1) % 65536 }
  let s := if d.start = 0 then s else s.markUnsync g.plot
  let s := { s with
    ops := s.ops ++ [x], opSeq := s.opSeq + 1
    lostDrains := s.lostDrains.filter fun e => e.1 != d.trigger
    colIn := s.colIn.filter fun (m : ColIn) => !(m.group == d.group && m.epoch == g.epoch && m.opseq == g.opseq) }
  let next := if h.head + 1 < h.ops.length then h.head + 1 else if d.loop then 0 else h.ops.length
  let s := s.setChain c { h with head := next, deferred := false, landed := h.landed.filter fun e => e.index != h.head }
  let s := early.foldl (fun (s : State) (m : ColIn) => match s.op x.id with
    | some y => s.acceptPart y g m
    | none => s) s
  s.progress x.id

/-- OP_FIRE (R317, R279): the head operation of a chain fires when all its conditions hold; a ring's SHIFT only at its hop's launch (R188);
one with a START waits for its tick, and
is deferred while a link it sends on is beyond guard, until that link is SYNCED again. -/
def execOpFire (c : ChainIx) (s : State) : Res :=
  match s.chain c.val with
  | none => .next s
  | some h =>
    match h.headOp with
    | none => .next s
    | some d =>
      match s.colGroup d.group with
      | none => .next s
      | some g =>
        if !s.fireable c.val h d g || decide (s.sundial < d.start) || s.ringShift d then .next s
        else
          let links := s.opLinks d g
          let late := if h.deferred then links.any fun l => s.syncState l != sySynced else links.any s.beyondGuard
          if d.start ≠ 0 ∧ late = true then
            if h.deferred then .next s
            else .next ((s.setBit Fld.SDL_EVENT_FLAGS_DEFERRED h.plot true).setChain c.val { h with deferred := true })
          else .next (s.fire c.val h d g)

/-! ### Chunks and completion (R325, R328) -/

/-- RING_CHUNK (R325): one part of a piece leaves for the next member once the previous step's part has landed and been added. -/
def execRingChunk (id stage piece off : Nat) (e : Ecc) (s : State) : Res :=
  match s.op id with
  | none => .next s
  | some x =>
    match s.colGroup x.op.group with
    | none => .next s
    | some g =>
      if x.op.shape ≠ 0 ∨ s.colRuns = false ∨ x.failed = true then .next s
      else match (x.op.sends g).find? fun l => l.stage == stage && l.piece == piece && stage != stSite with
        | none => .next s
        | some l =>
          if !(s.partsOf x l).contains off then .next s
          else
            let r := s.opRead x g.n e
            .next (if r.2 then (r.1.sendPart id l off).releaseSlots id else r.1)

/-- The results that a member writes at the end: address, bytes and flags of the engine's own roundings; none while a part is missing. -/
def State.results (s : State) (x : OpRun) (g : ColGroup) : Option (List (Nat × List Byte) × NumFlags) :=
  let d := x.op
  let one (a : Nat) (v : Option (List Byte × NumFlags)) := v.map fun r => ([(a, r.1)], r.2)
  let plain (v : Option (List Byte)) := v.map fun b => (b, (0 : NumFlags))
  if x.isCheck then some ([], 0)
  else if d.opcode = opReduceScatter then one d.dst (s.roundedPiece x g g.self)
  else if d.opcode = opAllGather then one (d.dst + g.self * d.piece) (plain (s.sourceBytes x g.self 0 d.piece))
  else if d.opcode = opAllReduce ∧ d.shape = 0 then one (d.dst + g.self * d.outBytes) (s.roundedPiece x g g.self)
  else if d.opcode = opAllReduce ∨ d.opcode = opReduce then (if g.self = d.root then one d.dst (s.roundedPiece x g 0) else some ([], 0))
  else if d.opcode = opMulticast then (if g.self = d.root then one d.dst (plain (s.sourceBytes x 0 0 d.piece)) else some ([], 0))
  else if d.opcode = opAllToAll then one (d.dst + g.self * d.piece) (plain (s.sourceBytes x g.self 0 d.piece))
  else if batchChain ≤ x.chain then (s.topkValue x g).map fun _ => ([], 0)
  else if d.opcode = opTopk then (if g.self = d.root then one d.dst (plain (s.topkValue x g)) else some ([], 0))
  else if d.opcode = opShift then some ([], 0)
  else
    let piece (j : Nat) : Option (List Byte) :=
      if j = g.self then (s.variablePiece x j).map (·.1)
      else s.arrived x stUp0 g.self j 0 (s.legDue x ⟨stUp0, g.self, j, 0⟩)
    ((List.range g.n).mapM piece).map fun bs =>
      (((List.range g.n).zip bs).flatMap fun e =>
        let full := leNat (e.2.take 4)
        let got := leNat ((e.2.drop 4).take 4)
        [(d.dst + e.1 * d.cap, ((e.2.drop 16).take got) ++ List.replicate (d.cap - got) 0),
         (d.dst + g.n * d.cap + 4 * e.1, leBytes 4 (got + (if got < full then 2 ^ 31 else 0)))], 0)

/-- Whether every part is sent, every site datagram acknowledged and every piece in (R328). -/
def State.opSettled (s : State) (x : OpRun) (g : ColGroup) : Bool :=
  ((x.op.sends g).all fun l => (s.partsOf x l).all fun lo => x.sent.contains ⟨l.stage, l.piece, l.other, lo⟩) &&
  ((x.op.expects g).all fun l => (s.arrived x l.stage l.piece l.other 0 (s.legDue x l)).isSome) &&
  s.conns.all fun e => e.2.unacked.all fun q => q.op != some x.id

/-- Flags of the whole operation (R327). -/
def State.allFlags (s : State) (x : OpRun) : Nat :=
  let a := (s.colIn.filter fun (m : ColIn) => m.group == x.op.group && m.epoch == x.epoch && m.opseq == x.opseq).map (·.flags)
  (a ++ x.landed.map (·.flags)).foldl (· ||| ·) x.flags

/-- The status record of R337. -/
def opStatus (state flags opseq epoch cause tick : Nat) : List Byte :=
  leBytes 1 state ++ leBytes 1 flags ++ leBytes 2 0 ++ leBytes 2 opseq ++ leBytes 1 epoch ++ leBytes 1 cause ++ leBytes 8 tick

/-- The results of an operation leave for DST, with the engine's own flags (R327, R328). -/
def State.putResults (s : State) (x : OpRun) (g : ColGroup) (res : List (Nat × List Byte)) (f : NumFlags) : State :=
  let s := res.foldl (fun s e => s.opWrite x e.1 e.2) s
  let s := s.ownFlags x.id f
  let self := if x.op.opcode = opAllToAllV then s.variablePiece x g.self else none
  let cut := match self with
    | some (_, true, n) => n
    | _ => 0
  let s := if cut = 0 then s else s.addSat Fld.COL_OVERFLOW_COUNT_COUNT g.plot cut
  let x := (s.op x.id).getD x
  s.setOp { x with overflow := x.overflow || cut != 0, posted := 1 }

/-- The flags word and the status record follow the results (R328, R337). -/
def State.putRecords (s : State) (x : OpRun) : State :=
  let flags := s.allFlags x
  let s := if x.op.flagsAddr = 2 ^ 64 - 1 then s else s.opWrite x x.op.flagsAddr (leBytes 4 flags)
  let more := (if x.overflow then 16 else 0) + (if x.deferred then 32 else 0)
  let s := if x.own then s
    else s.opWrite x x.op.status (opStatus 1 (flags % 16 + more) x.opseq x.epoch 0 s.sundial)
  let x := (s.op x.id).getD x
  s.setOp { x with posted := 2 }

/-- Whether the operation of a ring brings the block that a later hop attends over: its cells get FULL at that hop's launch (R188). One that
brings back this member's own block, with its accumulators, attends over nothing more (R190). -/
def State.awaitsHop (s : State) (x : OpRun) (g : ColGroup) : Bool :=
  s.ringShift x.op && !(s.colIn.any fun (m : ColIn) => m.group == x.op.group && m.epoch == x.epoch && m.opseq == x.opseq && m.off == 0 &&
    (blockHead m.data).origin == g.self)

/-- Ends an operation on this member (R328): FULL to every notified cell, DONECTR; a batch's shards are merged (R213), a group check is
judged (R178). -/
def State.endOp (s : State) (x : OpRun) (g : ColGroup) : State :=
  let block := (s.topkValue x g).getD []
  let records := s.gathered x g
  let s := if s.awaitsHop x g then s else s.chainPair x.chain x.op fun q => { q with full := q.full + 1 }
  let s := if x.op.donectr = 0xFFFF then s else s.stepCounter x.op.donectr 1 (x.task.getD 0)
  let keep (m : ColIn) : Bool := x.op.opcode == opShift || !(m.group == x.op.group && m.epoch == x.epoch && m.opseq == x.opseq)
  let s := { s with ops := s.ops.filter fun y => y.id != x.id, colIn := s.colIn.filter keep }
  let s := (s.colStatus x.chain).endRelease x.chain
  if x.isCheck then s.judgeCheck (x.chain - checkChain) x.op g x.opseq records
  else if x.own then s.shardMerged (x.chain - batchChain) x.index block
  else s

/-- The steps of an operation's end in their order, each once what the last one wrote has passed the cells' fill ports (R65, R328). -/
def State.closeOp (s : State) (id : Nat) (g : ColGroup) : State :=
  match s.op id with
  | none => s
  | some x =>
    if x.failed || s.opFills id then s
    else
      let t := if x.posted = 1 then s.putRecords x else s
      match t.op id with
      | none => t
      | some y => if y.failed || t.opFills id then t else t.endOp y g

/-- OP_COMPLETE (R328): the earliest operation of a chain in flight (R317) completes once its sends have landed and its pieces are in. -/
def execOpComplete (id : Nat) (e : Ecc) (s : State) : Res :=
  match s.op id with
  | none => .next s
  | some x =>
    match s.colGroup x.op.group with
    | none => .next s
    | some g =>
      if (s.chainOps x.chain).head?.map (·.id) ≠ some id ∨ s.colRuns = false ∨ x.failed = true then .next s
      else if x.posted ≠ 0 then .next (s.closeOp id g)
      else if !s.opSettled x g then .next s
      else match s.sourcePoison x (x.op.resultSource g), s.results x g with
        | _, none => .next s
        | some line, some _ => .next ((s.recordEcc line 2 false).failOp id)
        | none, some (res, f) =>
          let r := s.opRead x g.n e
          .next (if r.2 then (r.1.putResults x g res f).closeOp id g else r.1)

/-! ### Messages (R322, R323, R332) -/

/-- COLLECTIVE_PIECE (R322, R323). -/
def execCollectivePiece (m : InMsg) (s : State) : Res :=
  .next (s.arriving .collective m fun s => s.takePiece m)

/-- A credit that a receiver returned (R332). -/
def State.creditIn (s : State) (plot chip : Nat) (site : Option Nat) (tag : Nat) : State :=
  let gi := bitsAt tag 24 8
  match s.colGroup gi with
  | none => s
  | some g =>
    match g.sender chip site with
    | none => s
    | some src =>
      if g.plot ≠ plot ∨ bitsAt tag 16 8 ≠ g.epoch then s
      else match s.ops.find? fun x => x.tag == tag && x.op.opcode != opShift with
        | none =>
          -- a slot of the group's SHIFT operations: the next one in flight may go on
          let s := s.setShiftHeld gi src (s.shiftHeld gi src - 1)
          (s.ops.filter fun x => x.op.group == gi && x.op.opcode == opShift).foldl (fun s x => s.progress x.id) s
        | some x =>
          let n := ((x.back.filter fun e => e.1 == src).map (·.2)).sum
          let x := { x with back := (x.back.filter fun e => e.1 != src) ++ [(src, n + 1)] }
          (s.setOp x).progress x.id

/-- CREDIT_RETURN (R322, R332). -/
def execCreditReturn (m : InMsg) (s : State) : Res :=
  .next (s.arriving .credit m fun s => if m.op ≠ 0x81000000 then s else s.creditIn (m.plot % 8) m.src none m.tag)

/-- A frost record received. -/
def State.frostIn (s : State) (m : InMsg) : State :=
  let f (o n : Nat) := leNat ((m.data.drop o).take n)
  let gi := f 1 1
  match s.colGroup gi with
  | none => s.addSat Fld.COL_DROP_COUNT_COUNT (m.plot % 8) 1
  | some g =>
    if (g.sender m.src none).isNone ∨ g.plot ≠ m.plot ∨ f 2 1 ≠ g.epoch then s.addSat Fld.COL_DROP_COUNT_COUNT (m.plot % 8) 1
    else ((s.logEvent g.plot 9 7 32 gi).takeError gi ⟨f 0 1, f 2 1, f 4 2, f 6 2, f 8 8, s.sundial⟩).noteRefusal gi (f 0 1) m.addr

/-- FROST (R334, R335): a record of another member; one of an older epoch is dropped and counted. -/
def execFrost (m : InMsg) (s : State) : Res := .next (s.arriving .frost m fun s => s.frostIn m)

/-! ### Timeout and report (R333, R335) -/

/-- TIMEOUT of a descriptor; 0 selects 100,000 ticks (R319). -/
def OpDesc.ticks (d : OpDesc) : Nat := if d.timeout = 0 then 100000 else d.timeout

/-- When the timer of an operation started, and how long it runs (R333): of one in flight; of one yet to fire, the arrival of its first
message or the end of a task whose step or drain it waits for. -/
def State.opTimer (s : State) (gi : Nat) (g : ColGroup) (opseq : Nat) : Option (Nat × Nat) :=
  match s.ops.find? fun x => x.op.group == gi && x.opseq == opseq with
  | some x => some (x.timer, x.op.ticks)
  | none =>
    let heads := (s.chains.filterMap fun e => e.2.headOp).filter fun d => d.group == gi
    let first := (s.colIn.filter fun (m : ColIn) => m.group == gi && m.opseq == opseq).map (·.tick)
    let lost := if opseq = g.opseq then (s.lostDrains.filter fun e => heads.any fun d => d.trigger == e.1).map (·.2) else []
    match first ++ lost with
    | [] => none
    | t :: ts => some (ts.foldl min t, (heads.head?.map OpDesc.ticks).getD 100000)

/-- COLLECTIVE_TIMEOUT (R333). -/
def execCollectiveTimeout (gi : GroupIx) (opseq : Nat) (s : State) : Res :=
  match s.colGroup gi.val with
  | none => .next s
  | some g =>
    if g.err.isSome || !s.colRuns then .next s
    else match s.opTimer gi.val g opseq with
      | none => .next s
      | some (t, n) =>
        if s.sundial < t + n then .next s
        else
          let lost := s.lostDrains.filter fun e => !s.chains.any fun q => match q.2.headOp with
            | some d => d.group == gi.val && d.trigger == e.1
            | none => false
          .next (({ s with lostDrains := lost }).raiseError gi.val ccTimeout opseq)

/-- ERROR_REPORT (R335): 5,000 ticks after the first record the kept one is written to the status records and registers; the epoch
steps and OPSEQ returns to 0; a group check that waited for the report begins. -/
def execErrorReport (gi : GroupIx) (s : State) : Res :=
  match s.colGroup gi.val with
  | none => .next s
  | some g =>
    match g.err with
    | none => .next s
    | some e =>
      if s.sundial < e.first + 5000 ∨ s.colRuns = false then .next s
      else
        let s := g.dead.foldl (fun s d => (s.storeBytes d.status (opStatus 2 d.flags d.opseq e.epoch e.cause e.tick)).1) s
        let s := if s.bit Fld.COL_ERROR_INFO_VALID g.plot then s.setBit Fld.COL_ERROR_INFO_OVERRUN g.plot true
          else
            let extra := if s.bit Fld.COL_ERROR_INFO_OVERRUN g.plot then 2 ^ 30 else 0
            (s.setReg .COL_ERROR_INFO g.plot (BitVec.ofNat 32 (2 ^ 31 + extra + e.cause % 16 * 2 ^ 26 + gi.val * 2 ^ 16 + e.origin % 8192))).setReg
              .COL_ERROR_OP g.plot (BitVec.ofNat 32 (e.epoch * 2 ^ 24 + e.opseq))
        .next ((s.setGroup gi.val { g with epoch := (g.epoch + 1) % 256, opseq := 0, err := none, dead := [] }).startCheck g.plot)

end Sys2Proof.Machine
end

