-- ==== Sys2Proof/Machine/Links.lean ====
section
/-!
DEFINITION. The links' layers (R299 to R310): flits, replay, lanes and width, training, discovery, coordinates and the states of a link.
-/

namespace Sys2Proof.Machine
open Sys2Proof

/-- FALLOW reasons of R312. -/
def frSwap : Nat := 1
def frLevel : Nat := 2
def frConfig : Nat := 3
def frLoopback : Nat := 4
def frPartner : Nat := 5
def frLanes : Nat := 6
def frFlap : Nat := 7
def frHost : Nat := 8
def frSwitch : Nat := 9

def State.linkState (s : State) (l : Nat) : Nat := s.fld Fld.LNK_STATUS_STATE l

/-! ### Width (R301) -/

/-- Whether lanes `w × i` to `w × i + w − 1` are all good, given the failed lanes of both ends. -/
def laneGroup (failed w i : Nat) : Bool := (List.range w).all fun k => !failed.testBit (w * i + k)

/-- The widest width with a good group (R301), 0 for none. -/
def widthOf (failed : Nat) : Nat :=
  ([16, 8, 4, 2, 1].find? fun w => (List.range (16 / w)).any fun i => laneGroup failed w i).getD 0

/-- Code of a width in LNK_STATUS.LANES. -/
def lanesCode (w : Nat) : Nat := if w = 0 then 0 else Nat.log2 w + 1

/-- Lanes in use. -/
def State.lanes (s : State) (l : Nat) : Nat :=
  let c := s.fld Fld.LNK_STATUS_LANES l
  if c = 0 then 0 else 2 ^ (c - 1)

/-! ### Changes of state (R310) -/

/-- Sets a link's state; a link that leaves UP is DOWN for the sundial, and the parent is chosen anew (R276). -/
def State.setLinkState (s : State) (l st : Nat) : State :=
  let up := s.linkUp l
  let s := s.setFld Fld.LNK_STATUS_STATE l st
  if up && st != lsUp then
    let s := (s.setFld Fld.SDL_LINK_SYNC_STATE l syDown).setLink l { s.link l with sent := none, good := 0, heard := false }
    (s.logEvent chipPlot 8 5 40 l).chooseParent
  else s

/-- OFF (R310): retry buffer and queue are discarded; failed lanes return with the next training. -/
def State.linkOff (s : State) (l : Nat) : State :=
  let s := s.setLinkState l lsOff
  let s := (s.setFld Fld.LNK_STATUS_LANES l 0).setFld Fld.LNK_STATUS_FALLOW_REASON l 0
  let y := s.phy l
  s.setPhy l { LinkPhy.off (isRack l) with retrains := y.retrains, last := y.last, silent := y.silent }

/-- FALLOW with a reason (R310). -/
def State.linkFallow (s : State) (l reason : Nat) : State :=
  let s := (s.setLinkState l lsFallow).setFld Fld.LNK_STATUS_FALLOW_REASON l reason
  let s := s.setFld Fld.LNK_STATUS_LANES l 0
  let y := s.phy l
  (s.setPhy l { LinkPhy.off (isRack l) with retrains := y.retrains, last := y.last, silent := y.silent }).logEvent chipPlot 8 5 41 (16 * l + reason)

/-- UP (R306, R310): the books stand full and synchronisation begins in RESYNC (R276). -/
def State.linkGoUp (s : State) (l : Nat) : State :=
  let y := s.phy l
  let s := s.setPhy l { y with held := creditSizes (isRack l), freed := List.replicate 17 0, counted := List.replicate 17 0, ackTick := s.clock }
  let s := s.setLinkState l lsUp
  let s := (s.setFld Fld.SDL_LINK_SYNC_STATE l syResync).setFld Fld.SDL_LINK_SYNC_MISSED l 0
  let s := s.setLink l { s.link l with sent := none, lastSent := none, good := 0, delay0 := none, lastGood := s.clock }
  (s.logEvent chipPlot 8 5 42 l).pump l

/-- RETRAIN (R310): the fourth entry within 1 s makes the link FALLOW with FLAP. -/
def State.linkRetrain (s : State) (l : Nat) : State :=
  let y := s.phy l
  let recent := y.retrains.filter fun t => decide (s.clock < t + 1000000000)
  let s := s.setPhy l { y with retrains := recent ++ [s.clock] }
  if 3 ≤ recent.length then s.linkFallow l frFlap else s.setLinkState l lsRetrain

/-! ### Flits (R300, R306) -/

/-- The sender of acknowledgements: the next SEQ expected and the counts freed, modulo 2^16. R300 and R306 give the flit's contents and no
layout: three bytes, then two for each class in the order of `creditSizes`, little-endian, are this model's choice (notes/assumptions/26). -/
def State.sendAck (s : State) (l : Nat) : State :=
  let y := s.phy l
  let data := leBytes 3 y.rx ++ y.freed.flatMap fun n => leBytes 2 n
  (s.setPhy l { y with fresh := 0, since := none }).sendLink l { Msg.to .ack 0 chipPlot 0 with tag := y.rx, data := data }

/-- DATA_FLIT (R299, R300, R306): a good flit in sequence is accepted and its credit freed; any other is dropped, a failure or a gap with
a NAK. `shared` says which credit the sender spent. -/
def execDataFlit (l : LinkIx) (seqNo vc : Nat) (phase isShared crcOk : Bool) (s : State) : Res :=
  if !s.linkUp l.val then .next s
  else
    let y := s.phy l.val
    let nak (s : State) : State :=
      if (s.phy l.val).nak then s
      else (s.setPhy l.val { s.phy l.val with nak := true }).sendLink l.val { Msg.to .nak 0 chipPlot 0 with tag := y.rx }
    if !crcOk then .next (nak (s.addSat Fld.LNK_CRC_COUNT_COUNT l.val 1))
    else if seqNo % 2 ^ 24 ≠ y.rx then
      if (seqNo + 2 ^ 24 - y.rx) % 2 ^ 24 < 2 ^ 23 then .next (nak s) else .next s
    else
      let c := if isShared then 16 else vc % 8 + (if phase && isRack l.val then 8 else 0)
      let y := { y with
        rx := (y.rx + 1) % 2 ^ 24, nak := false, fresh := y.fresh + 1, since := y.since.or (some s.clock)
        freed := y.freed.set c ((y.freed.getD c 0 + 1) % 65536) }
      let s := s.setPhy l.val y
      if 32 ≤ y.fresh then .next (s.sendAck l.val) else .next s

/-- Takes cumulative counts (R306): what the partner has freed since the last counts becomes credit again. -/
def LinkPhy.count (y : LinkPhy) (rack : Bool) (counts : List Nat) : LinkPhy :=
  let add (c : Nat) : Nat := ((counts.getD c (y.counted.getD c 0)) + 65536 - y.counted.getD c 0) % 65536
  { y with
    held := (List.range 17).map fun c => min ((creditSizes rack).getD c 0) (y.held.getD c 0 + add c)
    counted := (List.range 17).map fun c => counts.getD c (y.counted.getD c 0) % 65536 }

/-- Replays from a SEQ (R300): the eighth replay of the same SEQ without progress puts the link into RETRAIN. -/
def State.replayFrom (s : State) (l from' : Nat) : State :=
  let y := s.phy l
  if y.inFlight < (from' + 2 ^ 24 - y.base) % 2 ^ 24 then s
  else
    let n := if from' = y.base then y.replays + 1 else 1
    let y := { y with base := from', replays := n, ackTick := s.clock }
    let s := (s.setPhy l y).addSat Fld.LNK_RETRY_COUNT_COUNT l y.inFlight
    if 8 ≤ n then s.linkRetrain l
    else s.sendLink l { Msg.to .replay 0 chipPlot 0 with tag := from', op := y.inFlight }

/-- The width both ends agree on (R301); none leaves the link FALLOW with LANES. -/
def State.setWidth (s : State) (l : Nat) : State :=
  let w := widthOf (s.fld Fld.LNK_STATUS_LANE_FAIL l ||| (s.phy l).theirs)
  if w = 0 then s.linkFallow l frLanes else s.setFld Fld.LNK_STATUS_LANES l (lanesCode w)

/-- LINK_CONTROL_FLIT (R299, R300, R301, R306). -/
def execLinkControlFlit (l : LinkIx) (c : LinkCtl) (s : State) : Res :=
  if s.linkState l.val = lsOff ∨ s.linkState l.val = lsTraining ∨ s.linkState l.val = lsFallow then .next s
  else
    let y := s.phy l.val
    match c with
    | .bad => .next (s.addSat Fld.LNK_CRC_COUNT_COUNT l.val 1)
    | .ack n counts =>
      let y := y.count (isRack l.val) counts
      let fits := decide ((n + 2 ^ 24 - y.base) % 2 ^ 24 ≤ y.inFlight)
      let y := if fits && n != y.base then { y with base := n % 2 ^ 24, replays := 0, ackTick := s.clock } else y
      .next ((s.setPhy l.val y).pump l.val)
    | .nak n => if s.linkUp l.val then .next (s.replayFrom l.val (n % 2 ^ 24)) else .next s
    | .width failed =>
      if s.linkUp l.val then .next ((s.setPhy l.val { y with theirs := failed % 65536 }).setWidth l.val) else .next s

/-- REPLAY_TIMEOUT (R300): the oldest unacknowledged flit has seen no acknowledgement for 20 µs. -/
def execReplayTimeout (l : LinkIx) (s : State) : Res :=
  let y := s.phy l.val
  if s.linkUp l.val = false ∨ y.inFlight = 0 ∨ s.clock < y.ackTick + 20000 then .next s
  else .next (s.replayFrom l.val y.base)

/-- LANE_FAILURE (R301): a lane of an UP link fails; the ends agree the new width. -/
def execLaneFailure (l : LinkIx) (lane : Nat) (s : State) : Res :=
  if !s.linkUp l.val then .next s
  else
    let failed := s.fld Fld.LNK_STATUS_LANE_FAIL l.val ||| 2 ^ (lane % 16)
    let s := s.setFld Fld.LNK_STATUS_LANE_FAIL l.val failed
    let s := s.sendLink l.val { Msg.to .widthChange 0 chipPlot 0 with tag := failed }
    .next ((s.logEvent chipPlot 8 5 43 (16 * l.val + lane % 16)).setWidth l.val)

/-! ### Discovery (R307 to R309) -/

/-- The slot hint of the straps (R446): valid below 0x80. -/
def State.slotHint (s : State) : Option Nat :=
  let h := bitsAt (s.fld Fld.PWR_GRAFT_STRAP 0) 4 8
  if h < 128 then some h else none

/-- The axis of a link (R294). -/
def axisOf (l : Nat) : Nat := l / 2

/-- The bytes of this chip's discovery record (R307); with discovery not yet started, NOT_READY and nothing else. -/
def State.recordBytes (s : State) (l : Nat) : List Byte :=
  if !s.discovering then beBytes 1 0x10 ++ beBytes 1 1 ++ List.replicate 254 0
  else
    let held := match (s.phy l).partner with
      | some q => !q.notReady
      | none => false
    let flags := (if held then 2 else 0) + (if s.hasCoord then 4 else 0)
    beBytes 1 0x10 ++ beBytes 1 flags ++ beBytes 1 (axisOf l) ++ beBytes 1 l ++ beBytes 8 Config.serial.toNat ++
      beBytes 2 (if s.hasCoord then s.chipNo else 0) ++ beBytes 4 s.configHash ++ beBytes 1 (s.fld Fld.BOOT_STATUS_MAJOR 0) ++
      beBytes 1 (s.fld Fld.BOOT_STATUS_MINOR 0) ++ List.replicate 236 0

/-- Sends this chip's record. -/
def State.sendRecord (s : State) (l : Nat) : State :=
  (s.setPhy l { s.phy l with sentTick := some s.clock }).sendLink l
    { Msg.to .discovery 0 chipPlot 0 with data := s.recordBytes l }

/-- DISCOVERY_SEND (R307): every 10 µs, until the partner's record is held and it has acknowledged ours. -/
def execDiscoverySend (l : LinkIx) (s : State) : Res :=
  let y := s.phy l.val
  let due := match y.sentTick with
    | none => true
    | some t => decide (t + 10000 ≤ s.clock)
  let done := y.acked && (match y.partner with
    | some q => !q.notReady
    | none => false)
  if s.linkState l.val ≠ lsDiscovery ∨ due = false ∨ done = true then .next s else .next (s.sendRecord l.val)

/-- The first failing check of R309 on a chip's record: its reason, or none. -/
def State.checkPartner (s : State) (l : Nat) (q : Partner) : Option Nat :=
  let me := s.chipNo
  let place := if l = 0 then q.chip / 8 == me / 8 && q.chip % 8 == (me % 8 + 7) % 8
    else if l = 1 then q.chip / 8 == me / 8 && q.chip % 8 == (me % 8 + 1) % 8
    else q.chip / 128 != me / 128 && (s.hall.getD (l - 4) 0xFFFF == 0xFFFF || s.hall.getD (l - 4) 0xFFFF == q.chip)
  let swap := if l = 0 then !(q.axis == 0 && q.port == 1) else if l = 1 then !(q.axis == 0 && q.port == 0)
    else if isHall l then !(q.axis == 2 && (q.port == 4 || q.port == 5)) else true
  if q.serial = Config.serial.toNat then some frLoopback
  else if q.major ≠ s.fld Fld.BOOT_STATUS_MAJOR 0 then some frLevel
  else if q.config ≠ s.configHash then some frConfig
  else if swap then some frSwap
  else if !place then some frPartner
  else none

/-- Whether a partner presents the identity recorded at the last discovery (R309). -/
def Partner.same (a b : Partner) : Bool :=
  a.serial == b.serial && a.chip == b.chip && a.port == b.port && a.config == b.config && a.major == b.major

/-- Completes a tray or hall link's discovery (R308, R309): once both coordinates are known, the checks are made; a link that passes them
enters UP when the partner has acknowledged our record. -/
def State.tryUp (s : State) (l : Nat) : State :=
  let y := s.phy l
  match y.partner with
  | none => s
  | some q =>
    if s.linkState l ≠ lsDiscovery ∨ q.notReady = true ∨ q.coord = false ∨ s.hasCoord = false ∨ y.acked = false then s
    else
      let known := s.bit Fld.BOOT_STATUS_KIND 0 && (match y.last with
        | some k => q.same k
        | none => false)
      match (if known then none else s.checkPartner l q) with
      | some r => s.linkFallow l r
      | none =>
        let s := s.setReg .LNK_PEER l (BitVec.ofNat 32 (q.chip * 65536 + q.major % 256 * 256 + q.minor % 256))
        let s := (s.setPhy l { y with last := some q }).setLink l { s.link l with partnerChip := q.chip }
        s.linkGoUp l

/-- Sets the coordinates (R308) and completes the links that waited for them. -/
def State.setCoord (s : State) (source chip : Nat) (mismatch : Bool) : State :=
  let s := (s.setReg .LNK_COORD 0 (BitVec.ofNat 32 (source * 2 ^ 30 + (if mismatch then 2 ^ 29 else 0) + chip % 8192))).settleRoot
  [0, 1, 4, 5].foldl (fun s l => s.tryUp l) s

/-- Coordinates once neither rack link can bring a switch record (R308): from the slot hint, or none and every link is FALLOW with
PARTNER. -/
def State.settleCoord (s : State) : State :=
  let out (l : Nat) : Bool := (s.phy l).silent || s.linkState l == lsFallow
  if s.hasCoord || !(out 2 && out 3) || !s.discovering then s
  else match s.slotHint with
    | some h => s.setCoord 2 (s.defaultRack * 128 + h) false
    | none => (List.range 6).foldl (fun s l => s.linkFallow l frPartner) s

/-- DISCOVERY_RECORD (R307 to R309): a valid record of a chip. A link already UP answers with its own. -/
def execDiscoveryRecord (l : LinkIx) (q : Partner) (s : State) : Res :=
  if s.linkUp l.val then .next (s.sendRecord l.val)
  else if s.linkState l.val ≠ lsDiscovery then .next s
  else
    let y := s.phy l.val
    let s := s.setPhy l.val { y with partner := some q, acked := y.acked || q.ack, heard := s.clock, silent := false }
    if q.notReady || !s.discovering then .next s
    else
      let s := s.sendRecord l.val
      if isRack l.val then .next (match s.checkPartner l.val q with
        | some r => (s.linkFallow l.val r).settleCoord
        | none => s)
      else .next (s.tryUp l.val)

/-- SWITCH_RECORD (R307 to R309): a rack link's plane must be its own; the coordinates come from link 2's record, else link 3's; a record on
link 3 that disagrees with link 2's makes link 3 FALLOW with SWITCH. -/
def execSwitchRecord (l : LinkIx) (plane rack port : Nat) (s : State) : Res :=
  if s.linkState l.val ≠ lsDiscovery ∨ s.discovering = false then .next s
  else
    let s := s.setPhy l.val { s.phy l.val with switch := some (plane, rack % 64, port % 128), heard := s.clock, silent := false }
    if isRack l.val = false ∨ plane ≠ l.val - 2 then .next ((s.linkFallow l.val frSwap).settleCoord)
    else
      let chip := rack % 64 * 128 + port % 128
      let other := fun (k : Nat) => ((s.phy k).switch.filter fun q => q.1 == k - 2).map fun q => q.2.1 * 128 + q.2.2
      let bad := match s.slotHint with
        | some h => h != chip % 128
        | none => false
      if l.val = 3 ∧ (other 2).isSome = true ∧ other 2 ≠ some chip then .next (s.linkFallow 3 frSwitch)
      else
        let s := if l.val = 2 ∧ (other 3).isSome = true ∧ other 3 ≠ some chip then s.linkFallow 3 frSwitch else s
        let s := s.setReg .LNK_PEER l.val (BitVec.ofNat 32 ((port % 128) * 65536))
        let s := s.setLink l.val { s.link l.val with partnerChip := s.syncMap.getD (l.val - 2) 0xFFFF }
        let s := if l.val = 2 ∨ (other 2).isNone = true then s.setCoord 1 chip bad else s
        .next (s.linkGoUp l.val)

/-- DISCOVERY_SILENCE (R307): no valid record for 10 ms; the link returns to OFF. A partner that is NOT_READY is waited for. -/
def execDiscoverySilence (l : LinkIx) (s : State) : Res :=
  let y := s.phy l.val
  let waiting := match y.partner with
    | some q => q.notReady
    | none => false
  if s.linkState l.val ≠ lsDiscovery ∨ waiting = true ∨ s.clock < y.heard + 10000000 then .next s
  else
    let s := s.setPhy l.val { y with silent := true }
    .next ((s.linkOff l.val).settleCoord)

/-! ### Training (R301, R310) -/

/-- Whether links and ports train: the firmware has been entered (R388) and the chip is not in deep fallow (R456). -/
def State.mayTrain (s : State) : Bool := decide (5 ≤ s.fld Fld.BOOT_STATUS_STATE 0) && s.fld Fld.PWR_STATE_STATE 0 != 3

/-- TRAINING_COMPLETE (R301, R310): lanes lock, or none does and the link is FALLOW with LANES; the path delay is measured (R298). -/
def execTrainingComplete (l : LinkIx) (failed : Nat) (delay : Nat) (s : State) : Res :=
  if (s.linkState l.val ≠ lsTraining ∧ s.linkState l.val ≠ lsOff) ∨ s.mayTrain = false then .next s
  else
    let s := s.setFld Fld.LNK_STATUS_LANE_FAIL l.val (failed % 65536)
    let w := widthOf (failed % 65536)
    if w = 0 then .next ((s.linkFallow l.val frLanes).settleCoord)
    else
      let s := s.setFld Fld.LNK_STATUS_LANES l.val (lanesCode w)
      let s := s.setPhy l.val { s.phy l.val with heard := s.clock, partner := none, acked := false, sentTick := none, switch := none }
      let s := s.setLink l.val { s.link l.val with trained := delay }
      .next (s.setLinkState l.val lsDiscovery)

/-- RETRAIN_END (R310): lanes lock at some width and the link is UP again, replaying what is unacknowledged; or it goes to OFF. -/
def execRetrainEnd (l : LinkIx) (locked : Bool) (failed : Nat) (s : State) : Res :=
  if s.linkState l.val ≠ lsRetrain then .next s
  else if !locked then .next (s.linkOff l.val)
  else
    let s := s.setFld Fld.LNK_STATUS_LANE_FAIL l.val (s.fld Fld.LNK_STATUS_LANE_FAIL l.val ||| failed % 65536)
    let w := widthOf (s.fld Fld.LNK_STATUS_LANE_FAIL l.val ||| (s.phy l.val).theirs)
    if w = 0 then .next (s.linkOff l.val)
    else
      let s := s.setFld Fld.LNK_STATUS_LANES l.val (lanesCode w)
      let y := s.phy l.val
      let s := (s.setPhy l.val { y with replays := 0 }).addSat Fld.LNK_RETRY_COUNT_COUNT l.val y.inFlight
      let s := if y.inFlight = 0 then s else s.sendLink l.val { Msg.to .replay 0 chipPlot 0 with tag := y.base, op := y.inFlight }
      .next (s.linkGoUp l.val)

/-! ### LNK_CONTROL (R312) -/

/-- LNK_RELEASE: moves a FALLOW link to OFF; ignored in other states and while DISABLE holds it. -/
def execLnkRelease (a : Agent) (l : LinkIx) (s : State) : Res :=
  if !s.privOk a then .next s
  else if s.linkState l.val = lsFallow ∧ s.bit Fld.LNK_CONTROL_DISABLE l.val = false then .next (s.linkOff l.val)
  else .next s

/-- LNK_RETRAIN: moves an UP link to OFF for full retraining. -/
def execLnkRetrain (a : Agent) (l : LinkIx) (s : State) : Res :=
  if !s.privOk a then .next s else if s.linkUp l.val then .next (s.linkOff l.val) else .next s

/-- LNK_DISABLE: DISABLE set sends the link to FALLOW with HOST and holds it there. -/
def execLnkDisable (a : Agent) (l : LinkIx) (v : Bool) (s : State) : Res :=
  if !s.privOk a then .next s
  else
    let s := s.viaStore (s.setBit Fld.LNK_CONTROL_DISABLE l.val v)
    if v then .next ((s.linkFallow l.val frHost).settleCoord) else .next s

end Sys2Proof.Machine
end

