-- ==== Sys2Proof/Machine/Fabric.lean ====
section
/-!
DEFINITION. Messages that arrive over the fabric (R255, R302, R303): writes, read requests, read replies and ready notices.
-/

namespace Sys2Proof.Machine
open Sys2Proof

/-! ### What this chip serves (R255, R232, R168) -/

/-- Codes of a reply's OP: data, refused by the target check, failed, refused by a seed tray (notes/assumptions/32). -/
def rpOk : Nat := 0
def rpRefused : Nat := 1
def rpFailed : Nat := 2
def rpTray : Nat := 3

/-- Whether a frame belongs to a plot of a chip: the plot's own on this chip, or held here for it. -/
def Frame.ownedFrom (f : Frame) (src plot : Nat) : Bool :=
  if f.use = useHosted then f.ownerChip == src && f.ownerPlot == plot else f.owner == plot

/-- Whether every byte of a range lies where a plot of another chip may reach: its windows here, cold-frame segments aside, or a frame
hosted for it. -/
def State.servesRange (s : State) (src plot a n : Nat) : Bool :=
  match placeOf a with
  | .register _ | .cold _ _ | .none => false
  | _ =>
    match s.frameAt a with
    | some (b, f) =>
      if f.use = useHosted then f.ownedFrom src plot && decide (a + n ≤ b + frameBytes f.order) else s.ownsRange plot a n
    | none => s.ownsRange plot a n

/-- Whether a paged request names its frame as the record has it (R232): EPOCH, a frame still open counting at the epoch it will take, and
the owner. -/
def State.epochFits (s : State) (src plot a epoch : Nat) : Bool :=
  epoch == 0 ||
    (match s.frameAt a with
      | some (_, f) => f.ownedFrom src plot && (f.epoch == epoch || (f.use == useHosted && !f.sealed && f.newEpoch == epoch))
      | none => false)

/-- A write that arrived meets the memory; answers whether a line of it was dropped (R259). -/
def State.writeHere (s : State) (a : Nat) (bs : List Byte) (e : Ecc) : State × Bool :=
  let s := if e = .corrected then s.countEccAt a 1 else s
  let line := (a + e.offset) / 64 * 64
  if e.bad && partOfLine a bs.length line && lineMemory a then (s.storeBad a line bs, true)
  else match s.storeBytes a bs with
    | (s, some l) => (s.recordEcc l 3 false, true)
    | (s, none) => (s, false)

/-- The reply to a request (R302, R403): tag and generation echoed, virtual channel 4, to the requester's address. -/
def InMsg.replyTo (m : InMsg) (op : Nat) (stale : Bool) (bs : List Byte) : Msg :=
  { Msg.to .readReply 4 m.plot m.src with addr := m.reply, gen := m.gen, tag := m.tag, op := op, stale := stale, data := bs }

/-- Answers a write that carries a tag (R255; notes/assumptions/32). -/
def State.answerWrite (s : State) (m : InMsg) (op : Nat) (stale : Bool) : State :=
  if m.tag = 0 then s else s.send (m.replyTo op stale [])

/-- FABRIC_WRITE (R255, R259, R302): served where its bytes lie within the sender's reach; a stale or refused write changes nothing, and
the sender is told. -/
def execFabricWrite (m : InMsg) (e : Ecc) (s : State) : Res :=
  .next (s.arriving .write m fun s =>
    if !s.servesRange m.src m.plot m.addr m.data.length then
      s.answerWrite m (if m.epoch != 0 && (s.frameAt m.addr).isNone then rpOk else rpRefused)
        (m.epoch != 0 && (s.frameAt m.addr).isNone)
    else if !s.epochFits m.src m.plot m.addr m.epoch then s.answerWrite m rpOk true
    else if s.trayShut m.addr m.data.length then s.answerWrite m rpTray false
    else
      let r := s.writeHere m.addr m.data e
      r.1.answerWrite m (if r.2 then rpFailed else rpOk) false)

/-- READ_REQUEST (R255, R232, R259): checked against the windows and the frame record, then answered. -/
def execReadRequest (m : InMsg) (e : Ecc) (s : State) : Res :=
  .next (s.arriving .readRequest m fun s =>
    if !s.servesRange m.src m.plot m.addr m.len then
      if m.epoch != 0 && (s.frameAt m.addr).isNone then s.send (m.replyTo rpOk true [])
      else s.send (m.replyTo rpRefused false [])
    else if !s.epochFits m.src m.plot m.addr m.epoch then s.send (m.replyTo rpOk true [])
    else
      match s.firstPoison m.addr m.len with
      | some line => (s.recordEcc line 2 false).send (m.replyTo rpFailed false [])
      | none =>
        if e.bad ∧ e.offset < m.len then (s.readError (m.addr + e.offset) 1).send (m.replyTo rpFailed false [])
        else
          let s := if e = .corrected then s.countEccAt m.addr 1 else s
          s.send (m.replyTo rpOk false (s.loadBytes m.addr m.len)))

/-! ### Replies (R403, R246, R171) -/

/-- The tag that a requester's domain has now. -/
def State.requesterTag (s : State) : Requester → Nat
  | .stream i _ _ _ _ => s.regionTag (streamRegionOf i)
  | .move _ | .commit _ _ => s.chipTag

/-- Replaces part of a list from position `k`. -/
def overwrite {α : Type} (l : List α) (k : Nat) (new : List α) : List α := l.take k ++ new.take (l.length - k) ++ l.drop (k + new.length)

/-- Bytes of a COPY that came from another chip meet their destination (R132, R246, R259). -/
def State.copyLands (s : State) (i tile instr : Nat) (t : Stream) (q : Request) (x : Nat) (bs : List Byte) : State :=
  let a := x % 2 ^ 48
  if s.isSelf (x / 2 ^ 48) then
    if s.trayShut a bs.length then s.streamFaultAt i instr 0x9 0
    else
      match s.storeBytes a bs with
      | (s, some line) => ((s.recordEcc line 3 false).touch i tile a bs.length).streamFaultAt i instr 0x4 (detailOf line)
      | (s, none) => s.touch i tile a bs.length
  else s.writeParts (.stream i t.arming tile instr .write) { Msg.to .write (if s.isBackground t false then 6 else 5) t.plot (x / 2 ^ 48) with
    addr := a, epoch := q.epoch, gen := s.regionTag (streamRegionOf i), data := bs }

/-- Bytes for tile `k` of a GATHER or CHAIN: into the engine's copy of it, which leaves for the cells once it is whole (R17, R229). -/
def State.tileLands (s : State) (i k o : Nat) (t : Stream) (bs : List Byte) : State :=
  if k = t.tile then s.fillCur i o bs
  else
    match t.tiles.find? fun u => u.number == k with
    | none => s
    | some u =>
      let (s, u) := s.sendTile i t { u with data := u.data ++ [(o, bs)] }
      match s.stream i with
      | none => s
      | some t => s.setStream i { t with tiles := t.tiles.map fun x => if x.number = k then u else x }

/-- Data for a stream: into its tile, to the destination of its COPY, or into the words its index tile still lacks. -/
def State.streamData (s : State) (i tile instr : Nat) (t : Stream) (q : Request) (part : ReqPart) (bs : List Byte) : State :=
  match part with
  | .write => s
  | .index => s.setStream i { t with xq := overwrite t.xq (q.sinks.headD 0 - t.acked) (wordsOf (bs.length / 4) bs) }
  | .data =>
    if t.kind = 3 then q.sinks.foldl (fun s x => s.copyLands i tile instr t q x bs) s
    else s.tileLands i tile (q.sinks.headD 0) t bs

/-- A reply for a stream: dropped when its context was released or armed again (R403); STALE, a refusal, a tray that is shut and a failure
fault it at the instruction that asked (R132, R246). -/
def State.streamReply (s : State) (m : InMsg) (q : Request) (i arming tile instr : Nat) (part : ReqPart) : State :=
  match s.stream i with
  | none => s.countStale
  | some t =>
    if t.arming ≠ arming then s.countStale
    else if m.stale then s.streamFaultAt i instr 0x3 (detailOf q.addr)
    else if m.op = rpRefused then s.streamFaultAt i instr 0x1 (detailOf q.addr)
    else if m.op = rpTray then s.streamFaultAt i instr 0x9 0
    else if m.op = rpFailed then s.streamFaultAt i instr 0x5 0
    else s.streamData i tile instr t q part (m.data.take q.len)

/-- A reply for a page that moves here from a peer (R169): its bytes land in the destination; a failure rolls the entry back (R171). -/
def State.moveReply (s : State) (m : InMsg) (q : Request) (id : Nat) : State :=
  match s.entry id with
  | none => s.countStale
  | some j =>
    if m.stale ∨ m.op ≠ rpOk then s.rollBack id
    else (s.putBytes (q.sinks.headD 0 % 2 ^ 48) (m.data.take q.len)).putJournal { j with due := j.due - q.len }

/-- The answer to a write of a commit's scatter (R156): its bytes are acknowledged; after a failure they never are. -/
def State.commitReply (s : State) (m : InMsg) (q : Request) (p n : Nat) : State :=
  match s.seq p n with
  | none => s
  | some x => match x.commit with
    | none => s
    | some k => if m.stale ∨ m.op ≠ rpOk then s
      else s.setSeq p n { x with commit := some { k with acked := k.acked + q.len } }

/-- A reply to a request whose answer is due: one with an old tag, or that no request waits for, is dropped and counted. -/
def State.replyIn (s : State) (m : InMsg) : State :=
  match s.reqs.find? fun q => q.tag == m.tag && q.chip == m.src with
  | none => s.countStale
  | some q =>
    if m.gen ≠ s.requesterTag q.who then s.countStale
    else
      let s := { s with reqs := s.reqs.erase q }
      match q.who with
      | .stream i arming tile instr part => s.streamReply m q i arming tile instr part
      | .move id => s.moveReply m q id
      | .commit p n => s.commitReply m q p n

/-- READ_REPLY (R302, R403). -/
def execReadReply (m : InMsg) (s : State) : Res := .next (s.arriving .readReply m fun s => s.replyIn m)

/-- The tag of a lead chip that a ready notice gives, as the commits it forwarded here hold it (R159, R415). -/
def State.noteLead (s : State) (chip tag : Nat) : State :=
  { s with seqs := s.seqs.map fun e => (e.1, match e.2.commit with
      | some k => if k.lead = some chip then { e.2 with commit := some { k with leadTag := tag } } else e.2
      | none => e.2) }

/-- READY_NOTICE (R415): recorded in the plot's event log; the group's next task runs the group check first (R178), and the chip's new tag
decides on the commits it forwarded (R159). -/
def execReadyNotice (m : InMsg) (s : State) : Res :=
  .next (s.arriving .ready m fun s =>
    if m.op ≠ 0x82000000 then s
    else
      let s := match Table.get s.groups (m.plot % 8) with
        | some x => { s with groups := Table.put s.groups (m.plot % 8) { x with due := true } }
        | none => s
      let s := if m.data.headD 0 = 4 then s.noteLead m.src (leNat ((m.data.drop 4).take 2)) else s
      s.logEvent (m.plot % 8) 14 8 45 (m.src * 2 ^ 16 + leNat ((m.data.drop 0).take 2)))

end Sys2Proof.Machine
end

