-- ==== Sys2Proof/Machine/Groups.lean ====
section
/-!
DEFINITION. The work of sequence groups (R180 to R194): step headers, pieces, the hops of the key-value ring and its buffers.
-/

namespace Sys2Proof.Machine
open Sys2Proof

/-! ### The decode step (R180 to R184) -/

/-- A header is 152 bytes, zeros behind them to a multiple of 16 (R302); it names 1 to 16 nodes, its reserved bits are zero and so are the
row table entries beyond its nodes (R180). -/
def headerOk (b : List Byte) : Bool :=
  let f := fun (o n : Nat) => leNat ((b.drop o).take n)
  decide (152 ≤ b.length) && decide (b.length ≤ 160) && decide (1 ≤ f 12 1) && decide (f 12 1 ≤ 16) && decide (f 13 1 < 4) && f 15 1 == 0 &&
    (b.drop (24 + 8 * f 12 1)).all (· == 0)

/-- The OPSEQ of the first operation of a collective group from here on. -/
def State.nextOpseq (s : State) (gi : Nat) : Nat :=
  ((s.ops.find? fun x => x.op.group == gi).map (·.opseq)).getD ((s.colGroup gi).elim 0 (·.opseq))

/-- A step header comes into force (R180): its TAG, and its row table in the task's cells. -/
def State.takeHeader (s : State) (p : Nat) (x : GroupCtx) (d : GroupDesc) (b : List Byte) : State :=
  let attempt := leNat ((b.drop 14).take 1)
  let s := s.setGroupCtx p { x with
    tag := some (stepTag (leNat (b.take 8)) attempt), headTick := s.sundial, header := b.take 152, pieces := []
    opBase := [(d.qgroup, s.nextOpseq d.qgroup), (d.rgroup, s.nextOpseq d.rgroup)] }
  (s.setFld Fld.ATT_GROUP_STATUS_ATTEMPT p attempt).expandHeader x.task b

/-- The header that the lead forms (R180): STEP and BASEPOS are those that the tray reaches at the commit of the accepted path, ATTEMPT is
the descriptor's, DEADLINE the task's completion tick; nodes, flags and row table are the plot's. -/
def State.formHeader (s : State) (p : Nat) (x : GroupCtx) (d : GroupDesc) (b : List Byte) : List Byte :=
  let tray := (s.seq p d.seqNo).bind (·.tray)
  let ahead := tray.any fun a => s.trayState a == tsVerified || s.trayState a == tsCommitting
  let step := tray.elim 0 fun a => s.trayStep a + ahead.toNat
  let base := tray.elim 0 fun a => s.trayBase a + (if ahead then s.trayAccept a else 0)
  leBytes 8 step ++ leBytes 4 base ++ (b.drop 12).take 2 ++ leBytes 1 d.attempt ++ leBytes 1 0 ++
    leBytes 8 ((s.task x.task).elim 0 (·.completion)) ++ (b.drop 24).take 128

/-- Whether the lead's commit runs on another chip's tail and its point has not been returned (R182, R185). -/
def State.tailPending (s : State) (p : Nat) (d : GroupDesc) : Bool :=
  (s.seq p d.seqNo).any fun q => q.commit.any fun k => k.tail.isSome

/-- The lead opens the step (R180, R182): its header goes straight to every other member of QGROUP and comes into force here; query pieces
that waited for it leave. -/
def State.leadHeader (s : State) (p : Nat) (x : GroupCtx) (d : GroupDesc) (b : List Byte) : State :=
  match s.colGroup d.qgroup with
  | none => s
  | some g =>
    let h := s.formHeader p x d b
    let others := (List.range g.n).filter (· != g.self)
    let s := others.foldl (fun s m => s.send { Msg.to .stepHeader 1 p (g.chip m) with gen := s.chipTag, data := h }) s
    let s := s.takeHeader p x d h
    (s.ops.filter fun y => y.op.group == d.qgroup).foldl (fun s y => s.progress y.id) s

/-- STEP_HEADER (R180, R182): the lead's header for the step; no step starts while the group check is due (R178). On the lead it comes from
the chip itself, with what the plot gives, and waits for a commit that another chip's tail still runs (notes/assumptions/58). -/
def execStepHeader (m : InMsg) (s : State) : Res :=
  .next (s.arriving .stepHeader m fun s =>
    let p := m.plot % 8
    match s.group p with
    | none => s.addSat Fld.ATT_GROUP_STALE_COUNT p 1
    | some x =>
      let d := s.groupDesc x.desc
      if d.pattern ≠ ptDecode ∨ s.memberOf d.qgroup m.src ≠ some d.lead then s.addSat Fld.ATT_GROUP_STALE_COUNT p 1
      else if x.due || !headerOk m.data then s
      else if d.self = d.lead then (if s.tailPending p d then s else s.leadHeader p x d m.data)
      else s.takeHeader p x d m.data)

/-- QUERY_PIECE (R181, R182, R184). -/
def execQueryPiece (m : InMsg) (s : State) : Res :=
  .next (s.arriving .queryPiece m fun s => s.groupPiece m 0 (·.qgroup))

/-- PARTIAL_PIECE (R181, R183, R184). -/
def execPartialPiece (m : InMsg) (s : State) : Res :=
  .next (s.arriving .partialPiece m fun s => s.groupPiece m 1 (·.rgroup))

/-! ### The ring (R186 to R189) -/

/-- The block that hop `h` attends over, as it arrived whole: that of origin k − h, its SHIFT complete. -/
def State.blockOf (s : State) (x : GroupCtx) (d : GroupDesc) (h : Nat) : Option ColIn :=
  s.colIn.find? fun (m : ColIn) => m.group == d.ngroup && m.opcode == opShift && m.off == 0 && !m.freed &&
    (blockHead m.data).origin == (d.self + d.n - h) % d.n && some (blockHead m.data).tag == x.tag &&
    s.ops.all fun y => !(y.op.group == m.group && y.epoch == m.epoch && y.opseq == m.opseq)

/-- Whether that block is here: at hop 0 it is home. -/
def State.blockHere (s : State) (x : GroupCtx) (d : GroupDesc) (h : Nat) : Bool := h == 0 || (s.blockOf x d h).isSome

/-- Link to the successor. -/
def State.ringLink (s : State) (d : GroupDesc) : Option Nat :=
  (s.colGroup d.ngroup).bind fun g => s.route s.chipNo (g.chip ((d.self + 1) % d.n))

/-- Bytes of a ring block of `count` positions, and of the FP32 accumulators that travel beside it in the backward pass (R186, R190). -/
def blockBytes (q : Seqn) (count : Nat) : Nat := 64 + count * heads q * (keyRun q + valRun q)
def gradBytes (q : Seqn) (count : Nat) : Nat := count * heads q * dims q * 8

/-- The sequences of a member's home block: its slice, or its early half and its late half (R174, R186). -/
def State.homeParts (s : State) (p : Nat) (d : GroupDesc) : List Seqn :=
  (s.seq p d.seqNo).toList ++ (if d.slicing = 1 then (s.seq p d.late).toList else [])

/-- Whether the ring goes round with accumulators (R190): the SHIFT's pieces have room for those of full slices too
(notes/assumptions/58). -/
def State.backward (s : State) (p : Nat) (d : GroupDesc) (o : OpDesc) : Bool :=
  let l := s.homeParts p d
  let full := (l.map (·.maxSlice)).sum
  l.head?.any fun q => decide (blockBytes q full + gradBytes q full ≤ o.piece)

/-- The head operation of a chain that is the SHIFT of the ring: two slots of the ring buffers, to the next member (R187, R330). -/
def State.ringHead (s : State) (d : GroupDesc) : Option (Nat × Chain × OpDesc) :=
  s.chains.findSome? fun e => match e.2.headOp with
    | some o => if o.group = d.ngroup ∧ o.opcode = opShift ∧ o.root = 1 ∧ o.slots = 2 ∧ o.rbuf = d.buf ∧ o.slotBytes = d.bufSize then
        some (e.1, e.2, o) else none
    | none => none

/-- Number of the hop that a plot's ring launches next. -/
def GroupCtx.nextHop (x : GroupCtx) : Nat := if x.launched.isSome then x.hop + 1 else 0

/-- The forward that a hop launches, if its block goes on (R187, R190): not that of hop N − 1, but where accumulators return. -/
def State.hopSend (s : State) (p : Nat) (d : GroupDesc) (h : Nat) : Bool :=
  decide (1 < d.n) && (decide (h + 1 < d.n) || (s.ringHead d).any fun e => s.backward p d e.2.2)

/-- Whether the forward of a hop can fire now: its chain's head is the ring's SHIFT and meets R317. -/
def State.forwardReady (s : State) (d : GroupDesc) : Bool :=
  match s.ringHead d, s.colGroup d.ngroup with
  | some (c, ch, o), some g => s.fireable c ch o g
  | _, _ => false

/-- Whether the next hop of a plot's ring may launch now, its link apart: the task runs, the block is here, its forward can fire and the
tick has come. -/
def State.hopDue (s : State) (x : GroupCtx) (p : Nat) : Bool :=
  let d := s.groupDesc x.desc
  let k := x.nextHop
  let running := (s.task x.task).elim false fun t => t.started.isSome
  d.pattern == ptKvRing && d.n != 0 && !x.due && running && s.blockHere x d (k % d.n) &&
    (!s.hopSend p d (k % d.n) || s.forwardReady d) && (d.period == 0 || decide (d.start + k * d.period ≤ s.sundial))

/-! ### Home blocks (R186, R187) -/

/-- The layer and group of a rotation unit, in order (notes/assumptions/58). -/
def unitOf (q : Seqn) (u : Nat) : Nat × Nat := (u / q.groups, u % q.groups)

/-- The header of this member's home block for a unit. -/
def State.homeHead (s : State) (p : Nat) (d : GroupDesc) (tag u : Nat) : BlockHead :=
  match s.homeParts p d with
  | [] => ⟨d.self, 0, 0, 0, 0, 0, 0, tag⟩
  | q :: l =>
    ⟨d.self, (unitOf q u).1 % 256, (unitOf q u).2, ((q :: l).map (·.bound)).sum, q.base, (l.map (·.base)).headD 0, q.bound, tag⟩

/-- The committed keys and values of one part, gathered from its pages into a block at `a` of `count` positions, from place `i0` on: per
head the keys, then the values. -/
def State.gatherPart (s : State) (a : Nat) (q : Seqn) (lg : Nat × Nat) (count i0 : Nat) : State :=
  (List.range q.bound).foldl (fun s i => (List.range (heads q)).foldl (fun s h =>
    let e := s.pte q (vpageOf q lg.1 lg.2 (i / pagePos q))
    let (ks, s) := if e.cutting then s.peerBytes (keyRun q) else s.pageRead e (keyOff q (pagePos q) (i % pagePos q) h) (keyRun q)
    let (vs, s) := if e.cutting then s.peerBytes (valRun q) else s.pageRead e (valOff q (pagePos q) (i % pagePos q) h) (valRun q)
    let b := a + 64 + h * (count * (keyRun q + valRun q))
    (s.putBytes (b + (i0 + i) * keyRun q) ks).putBytes (b + count * keyRun q + (i0 + i) * valRun q) vs) s) s

/-- Forms the home block of a unit where the forward of hop 0 takes it: header, then for each head the keys and the values of the early
half and the late half. -/
def State.formHome (s : State) (p : Nat) (d : GroupDesc) (tag u a : Nat) : State :=
  let h := s.homeHead p d tag u
  let parts := s.homeParts p d
  let s := s.putBytes a h.bytes
  (parts.zipIdx).foldl (fun s e => s.gatherPart a e.1 (unitOf e.1 u) h.count (if e.2 = 0 then 0 else h.early)) s

/-- Whether a block exceeds a ring buffer or the pieces of its SHIFT (R186). -/
def State.tooBig (s : State) (p : Nat) (d : GroupDesc) (h : BlockHead) (o : OpDesc) : Bool :=
  (s.homeParts p d).head?.any fun q => decide (min d.bufSize o.piece < blockBytes q h.count)

/-- The first and last positions of a block's halves: one range for a whole slice (R186). -/
def BlockHead.halves (h : BlockHead) (folded : Bool) : List (Nat × Nat) :=
  if folded then [(h.first, h.early), (h.firstLate, h.count - h.early)] else [(h.first, h.count)]

/-- Offset of KPOS_BASE in an attention descriptor, KPOS_LAST behind it (R106). -/
def kposOff : Nat := 0x20

/-- Sets KPOS_BASE and KPOS_LAST of the attention descriptors of a ring's cells for a visiting block (R186): in the order in which a
cell's program names them, the early half's and the late half's in turn (notes/assumptions/58). -/
def State.setHalves (s : State) (tid : Nat) (h : BlockHead) (folded : Bool) : State :=
  match s.task tid with
  | none => s
  | some t => t.cells.foldl (fun s c => ((s.cell c).attDescs.zipIdx).foldl (fun s e =>
      let l := h.halves folded
      let r := l.getD (e.2 % l.length) (0, 0)
      s.writeBytes (spadBase c + e.1 + kposOff) (leBytes 4 r.1 ++ leBytes 4 ((r.1 + r.2 + 2 ^ 32 - 1) % 2 ^ 32))) s) s

/-- The SHIFT operation of a group on the chip's chains, with its chain. -/
def State.shiftOp (s : State) (gi : Nat) : Option (Nat × OpDesc) :=
  s.chains.findSome? fun e => (e.2.ops.find? fun d => d.group == gi && d.opcode == opShift).map fun d => (e.1, d)

/-- HOP_LAUNCH (R187, R188, R190): the next hop of the ring launches at its tick or at readiness, whichever is later: its block goes on to the
successor and attention over it begins, the cells that its arrival notifies getting FULL. A scheduled forward on a link beyond its guard is
deferred and flagged until the link is SYNCED; a block larger than a ring buffer raises the common error. -/
def execHopLaunch (p : PlotIx) (s : State) : Res :=
  match s.group p.val with
  | none => .next s
  | some x =>
    let d := s.groupDesc x.desc
    let h := x.nextHop % d.n
    if !s.hopDue x p.val then .next s
    else
      let sends := s.hopSend p.val d h
      let held := match s.ringLink d with
        | some l => if x.late then s.syncState l != sySynced else s.beyondGuard l
        | none => false
      if d.period ≠ 0 ∧ sends = true ∧ held = true then
        let s := (s.setBit Fld.ATT_GROUP_STATUS_DEFERRED p.val true).setBit Fld.SDL_EVENT_FLAGS_DEFERRED p.val true
        .next (s.setGroupCtx p.val { x with late := true })
      else
        let home := s.homeHead p.val d (x.tag.getD 0) (x.nextHop / d.n)
        let block := if h = 0 then home else ((s.blockOf x d h).map fun m => blockHead m.data).getD home
        if h = 0 ∧ sends = true ∧ (s.ringHead d).any (fun e => s.tooBig p.val d home e.2.2) = true then
          .next (s.raiseError d.ngroup ccMismatch ((s.colGroup d.ngroup).elim 0 (·.opseq)))
        else
          let s := if d.period = 0 then s else s.markUnsync p.val
          let s := s.setGroupCtx p.val { x with hop := x.nextHop, launched := some s.sundial, late := false }
          let s := s.setHalves x.task block (d.slicing == 1)
          let s := match h, s.shiftOp d.ngroup with
            | 0, _ => s
            | _, some (c, o) => s.chainPair c o fun q => { q with full := q.full + 1 }
            | _, none => s
          if !sends then .next s
          else match s.ringHead d, s.colGroup d.ngroup with
            | some (c, ch, o), some g => .next ((if h = 0 then s.formHome p.val d (x.tag.getD 0) (x.nextHop / d.n) o.src else s).fire c ch o g)
            | _, _ => .next s

/-- Whether a piece that a member of a decode group awaits has not arrived: at the lead every member's partial, elsewhere the query piece. -/
def GroupCtx.lacks (x : GroupCtx) (d : GroupDesc) (layer group : Nat) : Bool :=
  if d.self = d.lead then
    (List.range d.n).any fun m => m != d.self && !x.pieces.contains (m, layer, group, 1)
  else !x.pieces.contains (d.lead, layer, group, 0)

/-- RING_TIMEOUT (R188): TIMEOUT ticks after a hop's launch without the block it brings, or after the step header without the piece of a
layer and group, the task aborts with the common error. -/
def execRingTimeout (p : PlotIx) (layer group : Nat) (s : State) : Res :=
  match s.group p.val with
  | none => .next s
  | some x =>
    let d := s.groupDesc x.desc
    let due := if d.pattern = ptDecode then
        x.tag.isSome && x.lacks d layer group && decide (x.headTick + d.timeout ≤ s.sundial)
      else match x.launched with
        | some t => d.pattern == ptKvRing && decide (x.hop % d.n + 1 < d.n) && !s.blockHere x d (x.hop % d.n + 1) &&
            decide (t + d.timeout ≤ s.sundial)
        | none => false
    if !due || (s.task x.task).isNone then .next s
    else
      let gi := if d.pattern = ptDecode then d.rgroup else d.ngroup
      let opseq := (s.colGroup gi).elim 0 (·.opseq)
      .next ((s.raiseError gi ccTimeout opseq).abortTask x.task fcFrost (some fcFrost) none none)

/-- Whether every notified cell has given EMPTY for the oldest held piece (R330): of the EMPTYs that held pieces and operations in flight
took, at least one is back. -/
def State.shiftDone (s : State) (c : Nat) (d : OpDesc) (held : Nat) : Bool :=
  !d.notifies || d.notify.all fun k => match Table.get (s.cell k).pairs d.sempair with
    | some q => decide (q.depth - q.empty < held + (s.chainOps c).length)
    | none => false

/-- RING_BUFFER_RELEASE (R187, R330): the oldest piece of the group's SHIFT operations that is held: its slot is free once every notified
cell has given EMPTY, no operation in flight reads from the slot, and in a ring its forward has been launched; the credit returns. -/
def execRingBufferRelease (gi : GroupIx) (s : State) : Res :=
  match s.colGroup gi.val, s.shiftOp gi.val with
  | some g, some (c, d) =>
    let busy (m : ColIn) : Bool := s.ops.any fun y => y.op.group == gi.val && y.epoch == m.epoch && y.opseq == m.opseq
    let held := s.colIn.filter fun (m : ColIn) => m.group == gi.val && m.opcode == opShift && m.off == 0 && !busy m
    match held with
    | [] => .next s
    | m :: _ =>
      let a := d.slotAddr g m.src m.opseq
      let read := s.ops.any fun y => decide (a ≤ y.op.src) && decide (y.op.src < a + d.slotBytes)
      let ahead := match s.group g.plot with
        | some x =>
          let r := s.groupDesc x.desc
          -- the hop that attends over this block has launched with its forward
          r.pattern == ptKvRing && r.ngroup == gi.val && x.launched.isSome &&
            decide ((r.self + r.n - (blockHead m.data).origin % r.n) % r.n > x.hop % r.n)
        | none => false
      if read || ahead || !s.shiftDone c d held.length then .next s
      else
        let keep (y : ColIn) : Bool := !(y.group == m.group && y.epoch == m.epoch && y.opseq == m.opseq && y.opcode == opShift)
        .next ({ s with colIn := s.colIn.filter keep }.send { Msg.to .credit 1 g.plot (g.chip m.src) with
          gen := s.chipTag, tag := gi.val * 2 ^ 24 + m.epoch * 2 ^ 16 + m.opseq, op := 0x81000000 })
  | _, _ => .next s

end Sys2Proof.Machine
end

