-- ==== Sys2Proof/Machine/Admission.lean ====
section
/-!
DEFINITION. Admission (R281 to R292): requests, capacities, budgets and durations, placement, the replies, and the start, end and abort
of tasks.
-/

namespace Sys2Proof.Machine
open Sys2Proof

/-! ### Requests (R282) -/

/-- A claim before it is placed. -/
structure AdmReq where
  plot : Nat
  tag : Nat
  noRebase : Bool
  notBefore : Nat
  deadline : Nat
  work : Nat
  linkWork : Nat
  blocks : Nat
  cellMask : Nat
  desc : Nat
  claim : List Nat
  deriving DecidableEq, Repr

/-- Reads a request entry's 128 bytes. -/
def admReq (p w : Nat) : AdmReq :=
  let f := fun (o n : Nat) => bitsAt w (8 * o) (8 * n)
  let u32 := fun (o n : Nat) => (List.range n).map fun i => f (o + 4 * i) 4
  ⟨p, f 0 4, (f 4 1).testBit 0, f 8 8, f 0x10 8, f 0x18 4, f 0x1C 4, f 0x20 4, f 0x24 2, f 0x28 8,
    u32 0x30 4 ++ u32 0x40 4 ++ u32 0x50 6 ++ u32 0x68 2 ++ [f 0x70 4] ++ ((List.range 4).map fun i => f (0x74 + 2 * i) 2) ++
      (List.range 4).map fun i => f (0x7C + i) 1⟩

/-- Reserved bits and the relations of R282. -/
def admClean (w : Nat) : Bool :=
  bitsAt w 33 31 == 0 && bitsAt w (8 * 0x26) 16 == 0

def AdmReq.ok (r : AdmReq) : Bool := decide (r.linkWork ≤ r.work) && !(r.cellMask == 0 && r.blocks != 0)

def AdmReq.of (r : AdmReq) (k : Nat) : Nat := r.claim.getD k 0

/-- Cells of a claim. -/
def AdmReq.cells (r : AdmReq) : List Nat :=
  (List.range 512).filter fun c => r.blocks.testBit (c / 16) && r.cellMask.testBit (c % 16)

/-- Regions a claim names. -/
def AdmReq.regions (r : AdmReq) : List Nat :=
  (List.range 4).filter fun g =>
    bitsAt r.blocks (8 * g) 8 != 0 || [0, 4, 17, 21].any fun k => r.of (k + g) != 0

/-- Links a claim names. -/
def AdmReq.links (r : AdmReq) : List Nat := (List.range 6).filter fun l => r.of (8 + l) != 0

/-! ### Capacities, budgets and durations (R283 to R285) -/

/-- Admissible units of the host interface (R250, R283). -/
def State.hostCapacity (s : State) : Nat :=
  let full := (if s.pcieGen = 6 then 400 else if s.pcieGen = 5 then 200 else if s.pcieGen = 4 then 100 else 0) * s.pcieLanes / 16
  full - ceilDiv full 16

/-- Admissible units of a field port (R339). -/
def State.portCapacity (s : State) (q : Nat) : Nat :=
  if !s.portUp q then 0
  else match s.fld Fld.FLD_STATUS_MODE q with
    | 1 => 750
    | 2 => 375
    | 3 => 187
    | _ => 0

/-- Admissible power units of a region (R283): floor((cap − 32.5 − reserve) / 4). -/
def State.powerCapacity (s : State) (r : Nat) : Nat :=
  (2 * s.fld Fld.PWR_REGION_CAP_CAP r - 65 - 2 * s.fld Fld.ADM_POLICY_POWER_RESERVE 0) / 8

/-- Whether a resource belongs to a region out of service. -/
def State.resourceOut (s : State) (k : Nat) : Bool :=
  if k < 4 then s.regionOut k else if k < 8 then s.regionOut (k - 4)
  else if 17 ≤ k ∧ k < 21 then s.regionOut (k - 17) || s.fld Fld.RCL_STATUS_STATE (k - 17) == 4
  else if 21 ≤ k then s.regionOut (k - 21) else false

/-- Admissible capacity of resource `k` per slot (R283). -/
def State.admissible (s : State) (k : Nat) : Nat :=
  if s.resourceOut k then 0
  else if k < 4 then 199999
  else if k < 8 then 31999
  else if k < 14 then (if s.linkUp (k - 8) then s.lanes (k - 8) * 1500 / 16 else 0)
  else if k < 16 then s.portCapacity (k - 14)
  else if k = 16 then s.hostCapacity
  else if k < 21 then 1536
  else s.powerCapacity (k - 21)

/-- The budget field of a resource. -/
def budgetField (k : Nat) : Fld :=
  if k < 4 then Fld.ADM_BUDGET_MEM_DRAM else if k < 8 then Fld.ADM_BUDGET_MEM_STACK
  else if k < 14 then Fld.ADM_BUDGET_NET_LINK else if k < 16 then Fld.ADM_BUDGET_NET_FIELD
  else if k = 16 then Fld.ADM_BUDGET_MEM_HOST else if k < 21 then Fld.ADM_BUDGET_MEM_RCL else Fld.ADM_BUDGET_NET_POWER

/-- A plot's budget of resource `k` per slot (R284). -/
def State.budget (s : State) (p k : Nat) : Nat := (s.fld (budgetField k) p + 1) * s.admissible k / 256

/-- The least KEEP over the regions a claim names (R285). -/
def State.keepOf (s : State) (r : AdmReq) : Nat := (r.regions.map fun g => s.fld Fld.ADM_REGION_STATE_KEEP g).foldl min 15

/-- The duration of R285, exactly: with M the droop margin, K the keep and L the lanes. -/
def duration (work linkWork m k l : Nat) : Nat :=
  ceilDiv ((work - linkWork) * (65537 + 64 * m) * 16 * l + linkWork * 16 * 65536 * (k + 1)) (65536 * (k + 1) * l)

def State.durationOf (s : State) (r : AdmReq) : Nat :=
  duration r.work r.linkWork (s.fld Fld.ADM_POLICY_DROOP_MARGIN 0) (s.keepOf r) ((r.links.map s.lanes).foldl min 16)

/-! ### Reservations (R283, R286) -/

/-- Slot of a tick. -/
def slotOf (t : Nat) : Nat := t / 1024

/-- Units of a resource that tasks hold in a slot; `skip` is left out. -/
def State.held (s : State) (skip : Nat) (only : Task → Bool) (k j : Nat) : Nat :=
  ((s.tasks.filter fun e => e.1 != skip && only e.2 && decide (e.2.first ≤ j) && decide (j ≤ e.2.last)).map fun e =>
    e.2.claim.getD k 0).sum

/-- Whether a slot cannot take a claim: a capacity, a budget or a cell would be taken twice. -/
def State.slotBad (s : State) (skip : Nat) (r : AdmReq) (cells : List Nat) (j : Nat) : Bool :=
  ((List.range 25).any fun k => r.of k != 0 &&
    (decide (s.admissible k < s.held skip (fun _ => true) k j + r.of k) ||
      decide (s.budget r.plot k < s.held skip (fun t => t.plot == r.plot) k j + r.of k))) ||
  s.tasks.any fun e => e.1 != skip && decide (e.2.first ≤ j) && decide (j ≤ e.2.last) && e.2.cells.any fun c => cells.contains c

/-- Whether every slot from `a` to `b` can take a claim: load changes for the worse only where a reservation begins. -/
def State.slotsFit (s : State) (skip : Nat) (r : AdmReq) (cells : List Nat) (a b : Nat) : Bool :=
  (a :: ((s.tasks.map fun e => e.2.first).filter fun j => decide (a < j) && decide (j ≤ b))).all fun j => !s.slotBad skip r cells j

/-- The last slot from `a` to `b` that cannot take a claim, if any: load falls only where a reservation ends. -/
def State.lastBad (s : State) (r : AdmReq) (cells : List Nat) (a b : Nat) : Option Nat :=
  let ends := (s.tasks.map fun e => e.2.last).filter fun j => decide (a ≤ j) && decide (j ≤ b)
  match (b :: ends).filter (s.slotBad 0 r cells) with
  | [] => none
  | j :: js => some (js.foldl max j)

/-- What placement answers. -/
inductive Placed where
  | at' (start completion : Nat)
  | refused (reason tick : Nat)
  deriving DecidableEq, Repr

/-- Refusal reasons of R287. -/
def rfTime : Nat := 1
def rfHorizon : Nat := 2
def rfCapacity : Nat := 3
def rfQueue : Nat := 4
def rfOutOfService : Nat := 5
def rfUnsync : Nat := 6
def rfGroup : Nat := 7
def rfStream : Nat := 8
def rfBadArg : Nat := 9
def rfStopped : Nat := 0x0A

/-- The search of R286 from start `t`; the first argument bounds the visits (each passes the end of a reservation). -/
def State.search (s : State) (r : AdmReq) (cells : List Nat) (d : Nat) : Nat → Nat → Placed
  | 0, _ => .refused rfHorizon ((slotOf s.sundial + 65536) * 1024)
  | f + 1, t =>
    if slotOf s.sundial + 65536 ≤ slotOf t then .refused rfHorizon ((slotOf s.sundial + 65536) * 1024)
    else
      let a := slotOf t
      let b := slotOf (t + d - 1)
      match s.lastBad r cells a b with
      | none =>
        if r.deadline < t + d then .refused rfTime (t + d)
        else if cells.any fun c => decide (2 ≤ (s.tasks.filter fun e => e.2.cells.contains c).length) then .refused rfQueue (t + d)
        else .at' t (t + d)
      | some j =>
        -- every slot up to the end of a reservation that holds slot j stays bad
        let ends := (s.tasks.map fun e => e.2.last).filter fun e => decide (j ≤ e)
        State.search s r cells d f ((ends.foldl min (ends.headD j) + 1) * 1024)

/-- Whether a claim names the domain of a reset (R404, R409). -/
def AdmReq.inDomain (r : AdmReq) (q : ResetReq) : Bool :=
  if q.level = 1 then r.cells.contains q.index
  else if q.level = 2 then r.blocks.testBit q.index
  else if q.level = 3 then r.regions.contains q.index
  else true

/-- Whether a claim names something out of service or untrained, or a domain being reset or replayed (R283, R287, R404, R409). -/
def State.claimOut (s : State) (r : AdmReq) : Bool :=
  s.resets.any r.inDomain || s.chipWait.any r.inDomain || s.replay.any (fun x => r.inDomain x.req) ||
  r.regions.any s.regionOut ||
  (List.range 32).any (fun b => r.blocks.testBit b && (s.block b).outOfService) ||
  (List.range 25).any (fun k => r.of k != 0 && s.resourceOut k) ||
  r.links.any fun l => !s.linkUp l || s.lanes l == 0

/-- Whether a claim names a tier in a region where the plot's window is empty (R265). -/
def State.noWindow (s : State) (r : AdmReq) : Bool :=
  (List.range 4).any fun g =>
    (r.of g != 0 && (s.plot r.plot).all fun q => q.dramSize.getD g 0 == 0) ||
    (r.of (4 + g) != 0 && (s.plot r.plot).all fun q => q.stackSize.getD g 0 == 0)

/-- Whether a claim can never fit (R265, R283, R284, R366): a rate above a capacity, a budget or the plot's window, or cells not the plot's
or of a draining block. -/
def State.claimTooBig (s : State) (r : AdmReq) : Bool :=
  s.noWindow r ||
  (List.range 25).any (fun k => decide (s.admissible k < r.of k) || decide (s.budget r.plot k < r.of k)) ||
  (List.range 32).any fun b => r.blocks.testBit b && (s.ownerOfBlock b != some r.plot || (s.fld Fld.PLT_PENDING_DRAINING r.plot).testBit b)

/-- The decision on a request (R286, R287). -/
def State.decide' (s : State) (r : AdmReq) (clean : Bool) : Placed :=
  if s.admStopped r.plot then .refused rfStopped 0
  else if !clean || !r.ok then .refused rfBadArg 0
  else if s.claimOut r then .refused rfOutOfService 0
  else if r.links.any fun l => s.syncState l != sySynced then .refused rfUnsync 0
  else if s.claimTooBig r then .refused rfCapacity 0
  else s.search r r.cells (s.durationOf r) (2 * s.tasks.length + 2) (max r.notBefore s.sundial)

/-- The task of an accepted request. -/
def Task.of (r : AdmReq) (body : TaskBody) (dur start completion : Nat) (checking service : Bool) : Task where
  plot := r.plot
  tag := r.tag
  noRebase := r.noRebase
  notBefore := r.notBefore
  deadline := r.deadline
  work := r.work
  linkWork := r.linkWork
  blocks := r.blocks
  cellMask := r.cellMask
  cells := r.cells
  desc := r.desc
  claim := r.claim
  body := body
  dur := dur
  start := start
  completion := completion
  first := slotOf start
  last := slotOf (start + dur - 1)
  checking := checking
  accepted := !checking
  started := none
  streams := []
  service := service
  used := []
  ctx := []

/-- A refusal: the record and the count (R287, R293). -/
def State.refuse (s : State) (p tag reason tick : Nat) : State :=
  (s.reply p tag 0x02 reason tick 0).addSat Fld.ADM_REFUSE_COUNT_COUNT p 1

/-- Writes ACCEPTED; a task that never starts early is armed as an event of the sundial (R279). -/
def State.acceptTask (s : State) (tid : Nat) (t : Task) : State :=
  let s := s.setTask tid { t with checking := false, accepted := true }
  let s := s.reply t.plot t.tag 0x01 0 t.completion t.start
  if t.noRebase then { s with
      events := s.events ++ [⟨t.start, s.eventSeq, .taskStart tid, some tid⟩], eventSeq := s.eventSeq + 1 }
  else s

/-! ### Taking requests (R281) -/

/-- Keeps the tick since which a plot's head request waits to be taken (R400); `fresh` when a request was taken just now. -/
def State.noteWait (s : State) (p : Nat) (fresh : Bool) : State :=
  match s.plot p with
  | none => { s with admWait := Table.del s.admWait p }
  | some q =>
    if s.ringIx q ringAdmHead q.admOrder = q.admTail then { s with admWait := Table.del s.admWait p }
    else if fresh || (Table.get s.admWait p).isNone then { s with admWait := Table.put s.admWait p s.clock }
    else s

/-- ADM_DOORBELL (R281, R293): the plot's next free request index. -/
def execAdmDoorbell (a : Agent) (p : PlotIx) (v : W32) (s : State) : Res :=
  let off := Reg.ADM_DOORBELL.offset + 4 * p.val
  if !s.plotReach a p.val then .next (s.refusedWrite a off)
  else
    match s.plot p.val with
    | none => .next s
    | some q =>
      if !s.ringsOpen p.val then .next s
      else
        let t := bitsAt v.toNat 0 12
        if 2 ^ q.admOrder ≤ t then .next (s.logIgnored p.val 11 off)
        else .next ((s.setPlot p.val { q with admTail := t }).noteWait p.val false)

/-- Entries that the reply ring must have free (R281): two for each accepted task, three for each still checked and for the request. -/
def State.replyRoom (s : State) (p : Nat) : Nat :=
  let mine := s.tasks.filter fun e => e.2.plot == p && !e.2.service
  2 * (mine.filter fun e => e.2.accepted).length + 3 * (mine.filter fun e => !e.2.accepted).length + 3

/-- The head request of a plot, where its reply ring has room. -/
def State.headRequest (s : State) (p : Nat) : Option Nat :=
  match s.plot p with
  | none => none
  | some q =>
    let h := s.ringIx q ringAdmHead q.admOrder
    if !s.ringsOpen p || h == q.admTail ||
        decide (ringFree q.admOrder (s.ringIx q ringRplHead q.admOrder) (s.ringIx q ringRplTail q.admOrder) < s.replyRoom p) then none
    else some (s.readLe (q.admAddr h) 128)

/-- The plot whose request is taken next: round-robin. -/
def State.admNext (s : State) : Option Nat :=
  ((List.range 8).map fun i => (s.admTurn + 1 + i) % 8).find? fun p => (s.headRequest p).isSome

/-- Whether a task body holds anything to check (R288): a stream list or a group descriptor. -/
def TaskBody.needsCheck (body : TaskBody) : Bool := !body.streams.isEmpty || body.group.isSome

/-- Whether a check costs nothing: every stream is parked for the plot, and the group descriptor passed before. -/
def State.checkFree' (s : State) (p : Nat) (body : TaskBody) : Bool :=
  body.streams.all (fun a => (s.parkedStream p a).isSome) && body.group.elim true fun a => (s.group p).elim false fun x => x.desc == a

/-- Ends the check of a task's stream list and group descriptor (R177, R227, R245, R288): ACCEPTED, or the decision withdrawn. -/
def State.endCheck (s : State) (tid : Nat) (t : Task) : State :=
  let drop (reason : Nat) : State := ({ s with tasks := Table.del s.tasks tid }).refuse t.plot t.tag reason 0
  if t.body.group.any fun a => !s.groupOk t.plot a then drop rfGroup
  else match s.checkStreams t.plot tid t.body.streams with
    | none => drop rfStream
    | some ctx => s.acceptTask tid { t with ctx := ctx, streams := ctx.map (·.1) }

/-- ADMISSION_REQUEST (R281, R282, R286 to R288): the request is taken in its turn and decided; `body` is what lies at TASKDESC. A body
with streams or a group waits for its check unless the check costs nothing. -/
def execAdmissionRequest (p : PlotIx) (body : TaskBody) (s : State) : Res :=
  if s.admNext ≠ some p.val then .next s
  else match s.plot p.val, s.headRequest p.val with
    | some q, some w =>
      let h := s.ringIx q ringAdmHead q.admOrder
      let s := { s.putLe (q.rings + ringAdmHead) 4 ((h + 1) % 2 ^ q.admOrder) with admTurn := p.val, taskSeq := s.taskSeq + 1 }
      let s := s.noteWait p.val true
      let r := admReq p.val w
      match s.decide' r (admClean w) with
      | .refused reason tick => .next (s.refuse p.val r.tag reason tick)
      | .at' start completion =>
        let tid := s.taskSeq
        let check := body.needsCheck
        let t := Task.of r body (completion - start) start completion check false
        let s := s.setTask tid t
        if check = false then .next (s.acceptTask tid t)
        else if s.checkFree' p.val body then .next (s.endCheck tid t)
        else .next s
    | _, _ => .next s

/-- STREAM_CHECK_END (R288). -/
def execStreamCheckEnd (tid : Nat) (s : State) : Res := s.byService <|
  match s.task tid with
  | none => .next s
  | some t => if t.checking then .next (s.endCheck tid t) else .next s

/-! ### Starting and ending (R245, R286, R289) -/

/-- Whether every cell of a task can queue it (R245). -/
def State.mayQueue (s : State) (tid : Nat) (t : Task) : Bool :=
  t.cells.all fun c => (s.cell c).queued.isNone || (s.cell c).queued == some tid

/-- Whether a task waits in the queue of its cells, its streams armed. -/
def State.isQueued (s : State) (tid : Nat) (t : Task) : Bool :=
  match t.cells with
  | c :: _ => (s.cell c).queued == some tid
  | [] => t.streams.any fun i => (s.stream i).elim false fun x => x.task == tid

/-- Puts a task into its cells' queues and arms its streams (R245); what walks posted for it moves into the queue of the stream they are
for (R151, R232). -/
def State.queueTask (s : State) (tid : Nat) (t : Task) : State :=
  let s := t.cells.foldl (fun s c => s.setCell c { s.cell c with queued := some tid }) s
  let s := t.ctx.foldl (fun s e => s.armStream tid e.1 e.2) s
  match s.walkStream t.plot t.tag with
  | some i => s.feedQueue i
  | none => s

/-- Program of a cell in a task body; none is listed for a cell with nothing to run. -/
def TaskBody.program (b : TaskBody) (c : Nat) : List W128 := (Table.get b.programs c).getD []

/-- The program that goes into a cell's instruction buffer: one of more than 2,048 words is not loaded (R64). -/
def TaskBody.loaded (b : TaskBody) (c : Nat) : List W128 := if 2048 < (b.program c).length then [] else b.program c

/-- Loads a task into a cell (R64). -/
def State.loadCell (s : State) (tid : Nat) (body : TaskBody) (c : Nat) : State :=
  let s := s.setCell c { s.cell c with
    task := some tid, queued := none, ended := (body.program c).isEmpty, ibuf := body.loaded c, next := 0, loops := [], slots := [], tiles := [],
    norm := none, scoreArea := none, visible := [], inflight := [], sfn := none, drains := [], held := 0, since := s.clock,
    stopping := false }
  s.setFld Fld.CEL_STATE_STATE c csRunning

/-- The first cell whose program or head map does not fit (R64, R73). -/
def TaskBody.tooLarge (b : TaskBody) (cells : List Nat) : Option Nat :=
  cells.find? fun c => decide (2048 < (b.program c).length) || b.heads.any fun h => h.cell == c && decide (256 < h.slots)

/-- Starts a task on its free cells: STARTED, its group work, and the checks made before its first instruction. -/
def State.startTask (s : State) (tid : Nat) (t : Task) : State :=
  let s := s.setTask tid { t with started := some s.sundial }
  let s := { s with events := s.events.filter fun e => e.kind != EventKind.taskStart tid }
  let s := if t.noRebase then s.markUnsync t.plot else s
  let s := s.reply t.plot t.tag 0x03 0 t.completion s.sundial
  let s := t.cells.foldl (fun s c => s.loadCell tid t.body c) s
  let s := match t.body.group with
    | some a => s.openGroup t.plot tid a
    | none => s
  match t.body.tooLarge t.cells with
  | some c => s.cellFault c fcAddr 0xFFFF
  | none => s

/-- TASK_START (R245, R286): an accepted task joins the queue of its cells; once they are free it starts, at its placed start or, re-based,
before it where every slot fits. -/
def execTaskStart (tid : Nat) (s : State) : Res :=
  match s.task tid with
  | none => .next s
  | some t =>
    if t.accepted = false ∨ t.service = true ∨ t.started.isSome = true ∨ s.mayQueue tid t = false then .next s
    else
      -- arming is the service pair's (R26)
      if !s.isQueued tid t && !t.ctx.isEmpty && s.halted.contains 1 then .next s
      else
      let s := if s.isQueued tid t then s else s.queueTask tid t
      if t.cells.any fun c => (s.cell c).task.isSome then .next s
      else if t.start ≤ s.sundial then .next (s.startTask tid t)
      else
        let r : AdmReq := ⟨t.plot, t.tag, t.noRebase, t.notBefore, t.deadline, t.work, t.linkWork, t.blocks, t.cellMask, t.desc, t.claim⟩
        let b := slotOf (s.sundial + t.dur - 1)
        if t.cells.isEmpty || t.noRebase || decide (s.sundial < t.notBefore) || !s.slotsFit tid r t.cells (slotOf s.sundial) b then .next s
        else .next (s.startTask tid { t with
          start := s.sundial, completion := s.sundial + t.dur, first := slotOf s.sundial, last := b })

/-- Whether nothing of a task is left to do (R289). -/
def State.taskDone (s : State) (tid : Nat) (t : Task) : Bool :=
  (t.cells.all fun c =>
    let x := s.cell c
    x.task == some tid && x.ended && x.inflight.isEmpty && x.drains.isEmpty && x.sfn.isNone &&
      x.transfers.all fun q => q.port != .drain) &&
  t.streams.all fun i => (s.stream i).elim true fun x => x.task != tid || x.sflags.testBit 0

/-- Parks the persistent streams of a task that ended (R239): a run under way stops, what it had posted leaves the cells, its pairs stay. -/
def State.parkStreams (s : State) (tid : Nat) : State :=
  (s.streams.filter fun e => e.2.task == tid).foldl (fun s e =>
    (e.2.cellSet.foldl (fun s c => s.setCell c { s.cell c with
      transfers := (s.cell c).transfers.filter fun q => decide (q.stream ≠ some e.1) }) s).endStream e.1 e.2 ssParked) s

/-- Whether a pair belongs to a persistent stream, which keeps it when a task ends (R239). -/
def State.pairKept (s : State) (q : SemPair) : Bool :=
  match q.owner with
  | .stream i => (s.stream i).any fun t => t.sflags.testBit 0
  | _ => false

/-- Empties a cell whose task ended. -/
def State.clearCell (s : State) (tid c : Nat) : State :=
  let x := s.cell c
  let s := s.setCell c { x with
    task := none, ended := false, ibuf := [], next := 0, loops := [], slots := [], tiles := [], norm := none, scoreArea := none,
    visible := [], pairs := (x.pairs.filter fun e => e.2.task != tid || s.pairKept e.2).map fun e =>
      (e.1, if e.2.task = tid then { e.2 with task := 0 } else e.2) }
  s.setFld Fld.CEL_STATE_STATE c csIdle

/-- TASK_END (R289): ENDED is written and the reservation released; persistent streams of the task park until a task names them again. -/
def execTaskEnd (tid : Nat) (s : State) : Res :=
  match s.task tid with
  | none => .next s
  | some t =>
    if t.started.isNone ∨ t.service = true ∨ s.taskDone tid t = false then .next s
    else
      let s := t.cells.foldl (fun s c => s.clearCell tid c) s
      let s := s.parkStreams tid
      let s := { s with
        tasks := Table.del s.tasks tid
        events := s.events.filter fun e => decide (e.task ≠ some tid)
        endedTasks := s.endedTasks ++ [(t.plot, t.tag, s.sundial)] }
      .next ((s.noteTaskEnd tid).reply t.plot t.tag 0x04 0 s.sundial 0)

/-- DEADLINE_ABORT (R289): at the completion tick of an unfinished task. -/
def execDeadlineAbort (tid : Nat) (s : State) : Res :=
  match s.task tid with
  | none => .next s
  | some t =>
    if t.accepted = false ∨ s.sundial < t.completion then .next s
    else .next (s.abortLate tid)

/-! ### Fallen capacity (R290) -/

/-- Whether a resource is reserved above its capacity in some slot from the present one on. -/
def State.overbooked (s : State) (k : Nat) : Bool :=
  let now := slotOf s.sundial
  let at' := now :: (s.tasks.map fun e => e.2.first).filter fun j => decide (now < j)
  at'.any fun j => decide (s.admissible k < s.held 0 (fun t => t.accepted) k j)

/-- Order of R290: latest completion first, then the higher plot, then the higher TASK. -/
def laterTask (a b : Nat × Task) : Bool :=
  if a.2.completion = b.2.completion then
    if a.2.plot = b.2.plot then decide (b.2.tag ≤ a.2.tag) else decide (b.2.plot < a.2.plot)
  else decide (b.2.completion < a.2.completion)

/-- Aborts accepted tasks that claim an overbooked resource until every slot fits. -/
def State.shedLoad : Nat → State → State
  | 0, s => s
  | f + 1, s =>
    match (List.range 25).find? s.overbooked with
    | none => s
    | some k =>
      let claims (e : Nat × Task) : Bool := e.2.accepted && e.2.claim.getD k 0 != 0
      match ((s.tasks.filter claims).mergeSort laterTask).head? with
      | none => s
      | some e => State.shedLoad f (s.abortLate e.1)

/-- CAPACITY_LOSS (R290). -/
def execCapacityLoss (s : State) : Res := .next (State.shedLoad s.tasks.length s)

end Sys2Proof.Machine
end

