-- ==== Sys2Proof/Machine/Retrieval.lean ====
section
/-!
DEFINITION. The retrieval commands and engines (R195 to R215, R221): indexes and their versions, inserts and deletes, compaction, query
batches, chunks and their faults, results and shards.
-/

namespace Sys2Proof.Machine
open Sys2Proof

/-! ### Directories and indexes (R197, R198, R200) -/

/-- Region of an address in bonded DRAM or the stacks. -/
def bulkRegion (a : Nat) : Option Nat :=
  match placeOf a with
  | .stack r _ | .dram r _ => some r
  | _ => none

/-- One directory entry. -/
def State.listDir (s : State) (a : Nat) : ListDir := ⟨s.loadLe a 8, s.loadLe (a + 8) 8, s.loadLe (a + 16) 4, s.loadLe (a + 20) 1⟩

/-- The rule of R198 on one entry. -/
def State.listDirOk (s : State) (p a : Nat) : Bool :=
  let d := s.listDir a
  s.loadLe (a + 21) 11 == 0 && decide (d.region < 4) && d.codes % 64 == 0 &&
  (d.count == 0 || (s.ownsRange p d.codes (32 * d.count) && s.ownsRange p d.ids (8 * d.count) &&
    [d.codes, d.codes + 32 * d.count - 1, d.ids, d.ids + 8 * d.count - 1].all fun b => bulkRegion b == some d.region))

/-- Reads a directory of `n` entries; none where it breaks R198. -/
def State.listDirs (s : State) (p a n : Nat) : Option (List ListDir) :=
  let at' := (List.range n).map fun i => a + 32 * i
  if s.ownsRange p a (32 * n) && at'.all (s.listDirOk p) then some (at'.map s.listDir) else none

/-- IDX_CREATE (R200). -/
def execIdxCreate (p : PlotIx) (s : State) : Res :=
  .next (s.runCommand p.val 0x20 (fun c => c.cleanFrom 24 && c.seqNo == 0 && c.arg 9 1 == 0 && c.arg 14 2 == 0) fun c s =>
    let live := c.arg 8 1 == 1
    let n := c.arg 10 2
    let cap := c.arg 12 2
    if 1 < c.arg 8 1 ∨ n = 0 ∨ (if live then cap < 64 else cap ≠ 0) then s.finishOpen c.id stBadArg
    else match s.listDirs p.val (c.arg 16 8) n with
      | none => s.finishOpen c.id stBadArg
      | some dirs => match Table.freeKey s.indexes 4096 0 with
        | none => s.finishOpen c.id stLimit
        | some k =>
          let x : Index := {
            plot := p.val, live := live, sideCap := cap, count := n
            corpus := if live then [] else [⟨dirs, s.sundial⟩]
            staged := none, swap := none, owed := none
            lists := if live then dirs.map fun d => LiveList.fresh d.region s.sundial d else []
            epoch := 0, dying := none, ofSeq := false }
          (s.setIndex k x).finish c.id stOk k)

/-- Runs a command on an index of the plot: NOINDEX where there is none, STATE where the class is the other one (R200, R201). -/
def State.runIndexCommand (s : State) (p op : Nat) (live : Option Bool) (ok : Cmd → Bool) (body : Cmd → Nat → Index → State → State) :
    State :=
  s.runCommand p op (fun c => c.seqNo == 0 && ok c) fun c s =>
    match s.plotIndex p (c.arg 8 2) with
    | none => s.finishOpen c.id stNoIndex
    | some x => if live.any fun b => b != x.live then s.finishOpen c.id stState else body c (c.arg 8 2) x s

/-- IDX_DESTROY (R200). -/
def execIdxDestroy (p : PlotIx) (s : State) : Res :=
  .next (s.runIndexCommand p.val 0x21 none (fun c => c.cleanFrom 10) fun c k x s =>
    if s.indexUsed k then s.setIndex k { x with dying := some (some c.id) } else s.freeIndex k x (some c.id))

/-- IDX_STAGE (R206). -/
def execIdxStage (p : PlotIx) (s : State) : Res :=
  .next (s.runIndexCommand p.val 0x22 (some false) (fun c => c.cleanFrom 24 && c.arg 10 6 == 0) fun c k x s =>
    if x.staged.isSome ∨ 1 < x.corpus.length then s.finishOpen c.id stBusy
    else match s.listDirs p.val (c.arg 16 8) x.count with
      | none => s.finishOpen c.id stBadArg
      | some dirs => (s.setIndex k { x with staged := some dirs }).finishOpen c.id stOk)

/-- IDX_SWAP (R206): the swap is armed against the sundial (R279); its completion waits until the replaced version is released. -/
def execIdxSwap (p : PlotIx) (s : State) : Res :=
  .next (s.runIndexCommand p.val 0x23 (some false) (fun c => c.cleanFrom 24 && c.arg 10 6 == 0) fun c k x s =>
    let tick := c.arg 16 8
    if x.staged.isNone ∨ x.swap.isSome then s.finishOpen c.id stState
    else if tick < s.sundial + 1000 then (s.setBit Fld.RCL_PLOT_FLAGS_LATE p.val true).finishOpen c.id stLate
    else { s.setIndex k { x with swap := some (tick, c.id) } with
      events := s.events ++ [⟨tick, s.eventSeq, .indexSwap p.val k, none⟩], eventSeq := s.eventSeq + 1 })

/-- The swap of an index at its tick (R206): one step for every list. -/
def State.swapIndex (s : State) (k : Nat) : State :=
  match s.index k with
  | none => s
  | some x =>
    match x.swap, x.staged with
    | some (tick, id), some dirs =>
      if s.sundial < tick then s
      else { s.setIndex k { x with corpus := ⟨dirs, tick⟩ :: x.corpus, staged := none, swap := none, owed := some id } with
        events := s.events.filter fun e => e.kind != EventKind.indexSwap x.plot k }.markUnsync x.plot
    | _, _ => s

/-- INDEX_SWAP (R206). -/
def execIndexSwap (ix : IndexIx) (s : State) : Res := .next (s.swapIndex ix.val)

/-! ### Changes of live lists (R199, R200, R202) -/

/-- INSERT (R202): the requested stamp is the tick at which the command is taken. -/
def execInsertEntry (p : PlotIx) (s : State) : Res :=
  .next (s.runIndexCommand p.val 0x24 (some true) (fun c => c.cleanFrom 32 && c.arg 12 4 == 0) fun c k x s =>
    if x.count ≤ c.arg 10 2 ∨ s.ownsRange p.val (c.arg 24 8) 32 = false then s.finishOpen c.id stBadArg
    else match x.append (c.arg 10 2) (s.loadLe (c.arg 24 8) 32) (c.arg 16 8) s.sundial with
      | some x => (s.setIndex k x).finishOpen c.id stOk
      | none => (s.setBit Fld.RCL_PLOT_FLAGS_SIDE_FULL p.val true).finishOpen c.id stFull)

/-- DELETE (R202). -/
def execDeleteEntry (p : PlotIx) (s : State) : Res :=
  .next (s.runIndexCommand p.val 0x25 (some true) (fun c => c.cleanFrom 24 && c.arg 12 4 == 0) fun c k x s =>
    if x.count ≤ c.arg 10 2 then s.finishOpen c.id stBadArg
    else match x.bury (c.arg 10 2) (c.arg 16 8) s.sundial with
      | some x => (s.setIndex k x).finishOpen c.id stOk
      | none => (s.setBit Fld.RCL_PLOT_FLAGS_TOMB_FULL p.val true).finishOpen c.id stFull)

/-- COMPACT (R200). -/
def execCompact (p : PlotIx) (s : State) : Res :=
  .next (s.runIndexCommand p.val 0x26 (some true) (fun c => c.cleanFrom 12) fun c k x s =>
    let n := c.arg 10 2
    if n ≠ 0xFFFF ∧ x.count ≤ n then s.finishOpen c.id stBadArg
    else
      let lists := x.lists.zipIdx.map fun e => if n = 0xFFFF ∨ e.2 = n then { e.1 with wanted := true } else e.1
      (s.setIndex k { x with lists := lists }).finishOpen c.id stOk)

/-! ### Visibility (R204) -/

/-- killed: a delete after the insert, at or before t. -/
def killed (tombs : List Tomb) (id after t : Nat) : Bool :=
  tombs.any fun y => y.id == id && decide (after < y.stamp) && decide (y.stamp ≤ t)

/-- One entry of a base: its ID and code. -/
def State.baseEntry (s : State) (d : ListDir) (i : Nat) : Nat × Nat := (s.loadLe (d.ids + 8 * i) 8, s.loadLe (d.codes + 32 * i) 32)

/-- Side entries that a snapshot sees beside a base of tick `after`. -/
def LiveList.sideVisible (l : LiveList) (after t : Nat) : List SideEntry :=
  l.side.filter fun x => decide (after < x.stamp) && decide (x.stamp ≤ t) && !killed l.tombs x.id x.stamp t

/-! ### Compaction (R205) -/

/-- Entries of the new base that takes in everything stamped at or below C. -/
def State.compacted (s : State) (l : LiveList) (v : BaseVersion) (c : Nat) : List (Nat × Nat) :=
  (((List.range v.dir.count).map (s.baseEntry v.dir)).filter fun e => !killed l.tombs e.1 v.tick c) ++
    (l.sideVisible v.tick c).map fun x => (x.id, x.code)

/-- A buffer of the plot's pool in a region: in the stacks, else in bonded DRAM. -/
def State.listBuffer (s : State) (p region n : Nat) : Option (Nat × State) :=
  match s.allocFrame p 1 (orderFor n) useBuffer 0 (some region) with
  | some r => some r
  | none => s.allocFrame p 0 (orderFor n) useBuffer 0 (some region)

/-- Writes a base into new buffers of the list's region; none without pool room. -/
def State.writeBase (s : State) (p region tick : Nat) (es : List (Nat × Nat)) : Option (BaseVersion × State) :=
  if es.isEmpty then some (⟨ListDir.none region, tick, []⟩, s)
  else match s.listBuffer p region (32 * es.length) with
    | none => none
    | some (a, s) => match s.listBuffer p region (8 * es.length) with
      | none => none
      | some (b, s) =>
        let s := s.putBytes a (es.flatMap fun e => leBytes 32 e.2)
        let s := s.putBytes b (es.flatMap fun e => leBytes 8 e.1)
        some (⟨⟨a, b, es.length, region⟩, tick, [a, b]⟩, s)

/-- COMPACTION (R205): a requested compaction of a list without a predecessor writes and publishes a new base; without pool room it is
abandoned and logged, and so is one that meets a poisoned line of the old base (R259). -/
def execCompaction (ix : IndexIx) (list : Nat) (s : State) : Res :=
  match s.index ix.val with
  | none => .next s
  | some x => match x.lists[list]? with
    | none => .next s
    | some l =>
      if !l.wanted || !s.serviceRuns then .next s
      else match l.versions with
        | [v] =>
          let l' := { l with wanted := false, promoted := false }
          match (s.firstPoison v.dir.codes (32 * v.dir.count)).or (s.firstPoison v.dir.ids (8 * v.dir.count)) with
          | some line =>
            .next (((s.recordEcc line 2 false).setIndex ix.val { x with lists := x.lists.set list l' }).logEvent x.plot 7 2 51
              (4096 * list + ix.val))
          | none => match s.writeBase x.plot l.region l.lastStamp (s.compacted l v l.lastStamp) with
          | none => .next ((s.setIndex ix.val { x with lists := x.lists.set list l' }).logEvent x.plot 7 2 51 (4096 * list + ix.val))
          | some (new, s) =>
            .next (s.setIndex ix.val { x with lists := x.lists.set list { l' with versions := [new, v] }, epoch := x.epoch + 1 })
        | _ => .next s

/-- Whether a running query uses the version of a list with the given tick. -/
def State.versionUsed (s : State) (k : Nat) (hit : Nat × Nat → Bool) : Bool :=
  s.rbatches.any fun (e : Nat × RBatch) => e.2.index == k && e.2.queries.any fun q => q.begun && !q.ended && q.versions.any hit

/-- VERSION_RELEASE (R205, R206): a predecessor that no query uses is released; its side entries and tombstones are reclaimed, or the
swap that replaced it completes. -/
def execVersionRelease (ix : IndexIx) (list : Nat) (s : State) : Res := s.byService <|
  match s.index ix.val with
  | none => .next s
  | some x =>
    if x.live then match x.lists[list]? with
      | none => .next s
      | some l => match l.versions with
        | [new, old] =>
          if s.versionUsed ix.val (fun e => e.1 == list && e.2 == old.tick) then .next s
          else
            let l := { l with
              versions := [new], side := l.side.filter fun e => decide (new.tick < e.stamp)
              tombs := l.tombs.filter fun e => decide (new.tick < e.stamp) }
            .next (old.frames.foldl State.freeFrame (s.setIndex ix.val { x with lists := x.lists.set list l }))
        | _ => .next s
    else match x.corpus with
      | [new, old] =>
        if s.versionUsed ix.val (fun e => e.2 == old.start) then .next s
        else
          let s := s.setIndex ix.val { x with corpus := [new], owed := none }
          match x.owed with
          | some id => .next (s.finishOpen id stOk)
          | none => .next s
      | _ => .next s

/-! ### Batch descriptors and query entries (R207, R208) -/

/-- A batch descriptor. -/
structure BatchDesc where
  index : Nat
  seqNo : Nat
  count : Nat
  flags : Nat
  group : Nat
  queries : Nat
  deadline : Nat
  out : Nat
  root : Nat
  outSize : Nat
  gdesc : Nat
  deriving DecidableEq, Repr

def State.batchDesc (s : State) (a : Nat) : BatchDesc :=
  let f := fun (o n : Nat) => s.loadLe (a + o) n
  ⟨f 0 2, f 2 2, f 4 2, f 6 1, f 7 1, f 8 8, f 0x10 8, f 0x18 8, f 0x20 2, f 0x24 4, f 0x28 8⟩

def BatchDesc.sharded (d : BatchDesc) : Bool := d.flags.testBit 0
def BatchDesc.recalls (d : BatchDesc) : Bool := d.flags.testBit 1
def BatchDesc.groupSeq (d : BatchDesc) : Bool := d.flags.testBit 2

/-- Address of query entry `i`. -/
def BatchDesc.entry (d : BatchDesc) (i : Nat) : Nat := d.queries + 128 * i

/-- Lists that an entry probes. -/
def State.probes (s : State) (e : Nat) : List Nat :=
  ((List.range (s.loadLe (e + 0x3B) 1)).map fun i => s.loadLe (e + 0x50 + 2 * i) 2).eraseDups

/-- The checks of R207, R208 and R218 on one entry. -/
def State.entryOk (s : State) (p : Nat) (recalls here : Bool) (e : Nat) : Bool :=
  let k := s.loadLe (e + 0x38) 2
  let flags := s.loadLe (e + 0x3A) 1
  let n := s.loadLe (e + 0x3B) 1
  let result := s.loadLe (e + 0x48) 8
  s.loadLe (e + 0x3F) 1 == 0 && s.loadLe (e + 0x78) 8 == 0 && decide (flags < 4) && decide (1 ≤ k) && decide (k ≤ 1024) &&
  decide (1 ≤ n) && decide (n ≤ 16) && s.loadLe (e + 0x50 + 2 * n) (32 - 2 * n) == 0 &&
  !(flags.testBit 1 && decide (s.loadLe (e + 0x44) 4 < s.loadLe (e + 0x40) 4)) &&
  (if recalls then result == 0 && n == 1 && decide (k ≤ 256) else !here || s.ownsRange p result (32 + 16 * k))

/-- Queries of one section have disjoint ROWMASKs (R218). -/
def State.masksDisjoint (s : State) (groups : Nat) (es : List Nat) : Bool :=
  let rows := es.map fun e => ((s.loadLe (e + 0x50) 2 / groups, s.loadLe (e + 0x50) 2 % groups, s.loadLe (e + 0x3E) 1), s.loadLe (e + 0x70) 8)
  (List.range rows.length).all fun i => match rows[i]? with
    | some a => (rows.drop (i + 1)).all fun b => a.1 != b.1 || Nat.land a.2 b.2 == 0
    | none => true

/-- The checks of R207 on a descriptor and its entries; `here` says that this member takes the results. -/
def State.batchOk (s : State) (p a : Nat) (here : Bool) : Bool :=
  let d := s.batchDesc a
  let es := (List.range d.count).map d.entry
  decide (1 ≤ d.count) && decide (d.count ≤ 4096) && decide (d.flags < 8) && s.loadLe (a + 0x22) 2 == 0 && s.loadLe (a + 0x30) 16 == 0 &&
  s.ownsRange p d.queries (128 * d.count) && es.all (s.entryOk p d.recalls here) &&
  (if d.recalls then !here || s.ownsRange p d.out d.outSize else d.out == 0) && (!d.groupSeq || s.ownsRange p d.gdesc 64)

/-- The index that a batch searches, or the STATUS that says why there is none: its INDEX, or the live index of a sequence (R207). -/
def State.batchIndex (s : State) (p : Nat) (d : BatchDesc) : Except Nat Nat :=
  if d.index ≠ 0xFFFF then (if (s.plotIndex p d.index).isSome then .ok d.index else .error stNoIndex)
  else
    let n := if d.groupSeq then (s.groupDesc d.gdesc).seqNo else d.seqNo
    match s.seq p n with
    | none => .error stNoSeq
    | some q => match q.liveIndex with
      | some k => .ok k
      | none => .error stNoIndex

/-! ### The claim (R209, R210) -/

/-- Cycles of a chunk of `l` entries at `w` entries a cycle. -/
def chunkCycles (l w : Nat) : Nat := 8 + max 8 (ceilDiv l w)

/-- Query slots of a pass of `m` queries: the next power of two. -/
def passSlots (m : Nat) : Nat := ([1, 2, 4, 8].find? fun k => decide (m ≤ k)).getD 16

/-- Entries a cycle that the stacks supply (R210). -/
def stackCeiling : Nat := 133

/-- Entries a cycle that bonded DRAM supplies (R210). -/
def dramCeiling : Nat := 833

/-- Cycles of one pass over a list of `n` entries and `side` side entries; `ceiling` is the base's tier's, the side list lies in the
stacks (R199, R209, R210). -/
def passCycles (n side qb ceiling : Nat) : Nat :=
  let w := min (1024 / qb) ceiling
  n / 65536 * chunkCycles 65536 w + (if n % 65536 = 0 ∧ n ≠ 0 then 0 else chunkCycles (n % 65536) w) +
    (if side = 0 then 0 else chunkCycles side (min (1024 / qb) stackCeiling))

/-- What a list of an index holds now: directory entry and side entries. -/
def Index.newest (x : Index) (n : Nat) : Option (ListDir × Nat) :=
  if x.live then match x.lists[n]? with
    | some l => match l.versions with
      | v :: _ => some (v.dir, l.side.length)
      | [] => none
    | none => none
  else match x.corpus with
    | v :: _ => (v.lists[n]?).map fun d => (d, 0)
    | [] => none

/-- Whether a list lies in bonded DRAM. -/
def ListDir.inDram (d : ListDir) : Bool :=
  match placeOf d.codes with
  | .dram _ _ => d.count != 0
  | _ => false

/-- What a list costs a batch (R209, R210): its region, engine cycles, and the bytes read of each tier. -/
structure ListPrice where
  region : Nat
  cycles : Nat
  dram : Nat
  stack : Nat
  deriving DecidableEq, Repr

/-- The price of a list that `m` queries of a batch probe: 40 bytes for each entry of its base, 48 for each side entry, in each pass. -/
def listPrice (d : ListDir) (side m : Nat) : ListPrice :=
  let ceiling := if d.inDram then dramCeiling else stackCeiling
  let last := if m % 16 = 0 then 0 else passCycles d.count side (passSlots (m % 16)) ceiling
  let passes := ceilDiv m 16
  let base := passes * (40 * d.count)
  ⟨d.region, m / 16 * passCycles d.count side 16 ceiling + last, if d.inDram then base else 0,
    (if d.inDram then 0 else base) + passes * (48 * side)⟩

/-- Units of a resource that a batch needs in all: 256-byte units of the tiers, cycles of the engines. -/
def batchNeed (prices : List ListPrice) (k : Nat) : Nat :=
  let of (r : Nat) (f : ListPrice → Nat) : Nat := ((prices.filter fun e => e.region == r).map f).sum
  if k < 4 then ceilDiv (of k (·.dram)) 256
  else if k < 8 then ceilDiv (of (k - 4) (·.stack)) 256
  else if 17 ≤ k ∧ k < 21 then of (k - 17) (·.cycles)
  else 0

/-- The claim that the service pair presents for a batch (notes/assumptions/34): its need spread over as few slots as the plot's budgets
allow; a later snapshot's wait is part of its work. -/
def State.batchClaim (s : State) (p : Nat) (x : Index) (deadline wait : Nat) (probes : List (List Nat)) : AdmReq :=
  let all := probes.flatten
  let prices := all.eraseDups.filterMap fun n => (x.newest n).map fun e => listPrice e.1 e.2 (all.filter (· == n)).length
  let need (k : Nat) : Nat := batchNeed prices k
  let slots (k : Nat) : Nat := let cap := min (s.admissible k) (s.budget p k); if cap = 0 then 1 else ceilDiv (need k) cap
  let n := max 1 (((List.range 25).map slots).foldl max 0)
  ⟨p, 0, false, 0, deadline, 1024 * n + wait, 0, 0, 0, 0, (List.range 25).map fun k => ceilDiv (need k) n⟩

/-! ### Engine status (R223) -/

def reIdle : Nat := 0
def reScanning : Nat := 1
def reMerging : Nat := 2
def reTesting : Nat := 3
def reOut : Nat := 4

/-- The version of a list for a snapshot: its tick and directory entry (R204, R206). -/
def Index.versionFor (x : Index) (n t : Nat) : Option (Nat × ListDir) :=
  if x.live then (x.lists[n]?).bind fun l => (l.versions.find? fun v => decide (v.tick ≤ t)).map fun v => (v.tick, v.dir)
  else (x.corpus.find? fun v => decide (v.start ≤ t)).bind fun v => (v.lists[n]?).map fun d => (v.start, d)

/-- The directory entry of a version a query uses. -/
def Index.versionAt (x : Index) (n tick : Nat) : Option ListDir :=
  if x.live then (x.lists[n]?).bind fun l => (l.versions.find? fun v => v.tick == tick).map (·.dir)
  else (x.corpus.find? fun v => v.start == tick).bind fun v => v.lists[n]?

/-- Region whose engine scans a list for a query (R198): that of the version the query uses, or of the one it will use when it starts. -/
def State.regionFor (s : State) (x : Index) (q : RQuery) (n : Nat) : Nat :=
  if x.live then ((x.lists[n]?).map (·.region)).getD 0
  else
    let mine : Option ListDir := match q.versions.find? fun e => e.1 == n with
      | some v => x.versionAt n v.2
      | none => (x.versionFor n (if q.snap = 0 then s.sundial else q.snap)).map fun v => v.2
    let newest : Option ListDir := (x.newest n).map fun e => e.1
    ((mine.or newest).map fun d => d.region).getD 0

/-- Whether a query has lists to scan on engine `r`. -/
def State.scans (s : State) (x : Index) (r : Nat) (q : RQuery) : Bool := !q.ended && q.todo.any fun e => s.regionFor x q e.1 == r

/-- Whether a query whose lists are all scanned waits for its end, one of them on engine `r`. -/
def State.waitsOn (s : State) (x : Index) (r : Nat) (q : RQuery) : Bool :=
  !q.ended && q.begun && q.todo.isEmpty && q.versions.any fun e => s.regionFor x q e.1 == r

/-- Whether a query may start or go on. -/
def RQuery.ready (q : RQuery) (now : Nat) : Bool := !q.ended && q.status == qsOk && (q.begun || decide (q.snap ≤ now))

/-- Batches that engine `r` may scan: accepted, at or after their start, not aborted, with a query ready on one of its lists. -/
def State.scannable (s : State) (r : Nat) (b : RBatch) : Bool :=
  b.aborted.isNone && (match s.task b.task, s.index b.index with
    | some t, some x => decide (t.start ≤ s.sundial) && b.queries.any fun q => q.ready s.sundial && s.scans x r q
    | _, _ => false)

/-- Brings RCL_STATUS of an engine up to date (R223): the batches with lists to scan on it, one of them in the engine where one can be
scanned now, the others waiting; testing and out of service stand until they end. -/
def State.rclEngine (s : State) (r : Nat) : State :=
  let st := s.fld Fld.RCL_STATUS_STATE r
  let has (f : Index → RQuery → Bool) (b : RBatch) : Bool := (s.index b.index).any fun x => b.queries.any (f x)
  let here := (s.rbatches.filter fun (e : Nat × RBatch) => has (fun x q => s.scans x r q) e.2).length
  let scanning := s.rbatches.any fun (e : Nat × RBatch) => s.scannable r e.2
  let merging := s.rbatches.any fun (e : Nat × RBatch) => has (fun x q => s.waitsOn x r q) e.2
  let now := if scanning then reScanning else if merging then reMerging else reIdle
  let busy := scanning && st != reTesting && st != reOut
  let s := s.setFld Fld.RCL_STATUS_QUEUE r (min 4095 (here - busy.toNat))
  if st = reTesting ∨ st = reOut then s else s.setFld Fld.RCL_STATUS_STATE r now

def State.rclStatus (s : State) : State := (List.range 4).foldl State.rclEngine s

/-! ### Taking a batch (R203, R207, R210, R213) -/

/-- How far ahead a snapshot may lie (R203). -/
def snapReach : Nat := 1000000

/-- A query as it is taken: BADLIST and a snapshot too far ahead end it alone (R203, R208), under the tick and the index's epoch at
which it was taken. -/
def State.newQuery (s : State) (count epoch e snap : Nat) : RQuery :=
  let lists := s.probes e
  let status := if lists.any fun n => decide (count ≤ n) then qsBadList else if s.sundial + snapReach < snap then qsSnapRange else qsOk
  let at' := if status = qsOk ∨ snap ≠ 0 then snap else s.sundial
  ⟨e, at', [], false, false, status, 0, if status = qsOk then 0 else epoch, if status = qsOk then lists.map fun n => (n, 0) else [], [], 1, false⟩

/-- Arms the waits for later snapshots (R203, R279). -/
def State.armSnapshots (s : State) (n tid : Nat) (qs : List RQuery) : State :=
  (((qs.filter fun q => q.status == qsOk).map (·.snap)).eraseDups.filter fun t => decide (s.sundial < t)).foldl (fun s t =>
    { s with events := s.events ++ [⟨t, s.eventSeq, .snapshot n, some tid⟩], eventSeq := s.eventSeq + 1 }) s

/-- Presents a batch to admission and takes it (R210); the refusal's tick where it is refused. -/
def State.takeBatch (s : State) (p : Nat) (tag : Option Nat) (k : Nat) (x : Index) (d : BatchDesc) (self : Nat) (snaps : List Nat) :
    Except Nat State :=
  let qs := snaps.zipIdx.map fun e => s.newQuery x.count x.epoch (d.entry e.2) e.1
  let wait := ((qs.filter fun q => q.status == qsOk).map fun q => q.snap - s.sundial).foldl max 0
  let r := s.batchClaim p x d.deadline wait (qs.map fun q => q.todo.map (·.1))
  let s := { s with taskSeq := s.taskSeq + 1 }
  match s.decide' r true with
  | .refused _ tick => .error tick
  | .at' start completion =>
    let tid := s.taskSeq
    let n := s.rbatchSeq
    let b : RBatch := ⟨p, tag, k, d.deadline, d.flags, d.group, d.root, self, d.out, d.outSize, qs, tid, 0, none, 0⟩
    let t := Task.of r ⟨[], [], [], none, none⟩ (completion - start) start completion false true
    let s := (({ s with rbatchSeq := n + 1 }.setTask tid t).setRBatch n b).armSnapshots n tid qs
    let s := if qs.any fun q => q.status == qsSnapRange then s.setBit Fld.RCL_PLOT_FLAGS_SNAP_RANGE p true else s
    .ok s.rclStatus

/-- The bytes that a sharded batch sends: descriptor and entries, each zero SNAP replaced (R213). -/
def State.shardBytes (s : State) (a : Nat) (d : BatchDesc) (snaps : List Nat) : List Byte :=
  s.loadBytes a 64 ++ snaps.zipIdx.flatMap fun e =>
    let at' := d.entry e.2
    s.loadBytes at' 0x30 ++ leBytes 8 e.1 ++ s.loadBytes (at' + 0x38) 72

/-- QUERY (R207, R210, R213). -/
def execQueryBatch (p : PlotIx) (s : State) : Res :=
  .next (s.runCommand p.val 0x27 (fun c => c.cleanFrom 16 && c.seqNo == 0) fun c s =>
    let a := c.arg 8 8
    if !s.inDramWindow p.val a 64 || !s.batchOk p.val a true then s.finishOpen c.id stBadArg
    else
      let d := s.batchDesc a
      let g := (s.colGroup d.group).filter fun g => g.plot == p.val && g.self == d.root
      match s.batchIndex p.val d with
      | .error st => s.finishOpen c.id st
      | .ok k => match s.index k with
        | none => s.finishOpen c.id stNoIndex
        | some x =>
          let es := (List.range d.count).map d.entry
          let bad := (d.sharded && g.isNone) || (d.recalls && (!x.ofSeq || !s.masksDisjoint (s.groupsOf k) es))
          let snaps := es.map fun e => let t := s.loadLe (e + 0x30) 8; if d.sharded && t == 0 then s.sundial else t
          if bad then s.finishOpen c.id stBadArg
          else match s.takeBatch p.val (some c.id) k x d d.root snaps with
            | .error tick => ({ s with taskSeq := s.taskSeq + 1 }.addSat Fld.ADM_REFUSE_COUNT_COUNT p.val 1).finish c.id stRefused tick
            | .ok s' => match g with
              | some g =>
                if !d.sharded then s'
                else ((List.range g.n).filter (· != g.self)).foldl (fun s' m =>
                  s'.sendParts { Msg.to .batch 2 p.val (g.chip m) with gen := s.chipTag, tag := d.group, data := s.shardBytes a d snaps }) s'
              | none => s')

/-- Bytes of a sharded batch with its descriptor (R207, R208, R213). -/
def BatchDesc.bytes (d : BatchDesc) : Nat := 64 + 128 * d.count

/-- SHARDED_BATCH (R213): descriptor and entries land in the plot's receive area, message by message; with the last one the member's own
index and admission take the batch, and a refusal is the group's common error with the earliest feasible tick. -/
def execShardedBatch (m : InMsg) (s : State) : Res :=
  .next (s.arriving .batch m fun s =>
    match s.colGroup m.tag with
    | none => s.addSat Fld.COL_DROP_COUNT_COUNT (m.plot % 8) 1
    | some g => match s.plot g.plot with
      | none => s
      | some pl =>
        if (g.sender m.src none).isNone || decide (0x100000 < m.addr + m.data.length) then
          s.addSat Fld.COL_DROP_COUNT_COUNT g.plot 1
        else
          let s := s.putBytes (pl.recv + m.addr) m.data
          let d := { s.batchDesc pl.recv with queries := pl.recv + 64 }
          if m.addr + m.data.length < d.bytes then s
          else
            let refuse (s : State) (tick : Nat) : State := s.raiseError m.tag ccRefused g.opseq tick
            match s.batchIndex g.plot d with
            | .error _ => refuse s 0
            | .ok k => match s.index k with
              | none => refuse s 0
              | some x =>
                let snaps := (List.range d.count).map fun i => s.loadLe (d.entry i + 0x30) 8
                match s.takeBatch g.plot none k x d g.self snaps with
                | .error tick => refuse ({ s with taskSeq := s.taskSeq + 1 }.addSat Fld.ADM_REFUSE_COUNT_COUNT g.plot 1) tick
                | .ok s => s)

/-! ### Passes and chunks (R203, R204, R209, R211) -/

/-- Starts a query (R203): its snapshot, its versions, FROM and EPOCH; older than a retained version it ends with SNAP_RANGE. -/
def State.beginQuery (s : State) (x : Index) (q : RQuery) : RQuery :=
  let t := if q.snap = 0 then s.sundial else q.snap
  let found := q.todo.map fun e => (e.1, x.versionFor e.1 t)
  if found.any fun e => e.2.isNone then { q with snap := t, status := qsSnapRange, todo := [], begun := true, epoch := x.epoch }
  else
    let vs := found.filterMap fun e => e.2.map fun v => (e.1, v.1)
    { q with
      snap := t, begun := true, epoch := x.epoch, versions := vs
      start := if x.live then 0 else ((vs.map (·.2)).head?).getD 0 }

/-- Set bits of a byte. -/
def popcount8 (v : Nat) : Nat := ((List.range 8).map fun i => (v.testBit i).toNat).sum

/-- The distance of a code (R196). -/
def distance (sig weights : Nat) (weighted : Bool) (code : Nat) : Nat :=
  ((List.range 32).map fun i =>
    popcount8 (Nat.xor (bitsAt sig (8 * i) 8) (bitsAt code (8 * i) 8)) * (if weighted then bitsAt weights (4 * i) 4 else 1)).sum

/-- What a query admits of the entries it is given: not excluded, within MAXDIST (R208, R211). -/
def State.admitted (s : State) (q : RQuery) (shard list : Nat) (side : Bool) (es : List (Nat × Nat)) : List Hit :=
  let f := fun (o n : Nat) => s.loadLe (q.entry + o) n
  let flags := f 0x3A 1
  es.filterMap fun e =>
    let low := e.1 % 2 ^ 32
    let dist := distance (f 0 32) (f 0x20 16) (flags.testBit 0) e.2
    if (flags.testBit 1 && decide (f 0x40 4 ≤ low) && decide (low < f 0x44 4)) || decide (f 0x3C 2 < dist) then none
    else some ⟨dist, e.1, shard, list, side⟩

/-- Keeps the K smallest (R211). -/
def State.keepBest (s : State) (q : RQuery) (new : List Hit) : RQuery :=
  let new := new.mergeSort Hit.le
  let k := s.queryK q
  { q with hits := topkMerge (q.hits.length + new.length + 1) q.hits new k }

/-- Scans one chunk of a list for a query: up to 65,536 entries of its base, then the side list (R204, R209). -/
def State.scanFor (s : State) (x : Index) (shard n pos : Nat) (q : RQuery) : RQuery :=
  let tick := ((q.versions.find? fun e => e.1 == n).map (·.2)).getD 0
  let d := (x.versionAt n tick).getD (ListDir.none 0)
  let l := x.lists[n]?
  let done (q : RQuery) : RQuery := { q with todo := q.todo.filter fun e => e.1 != n }
  if pos < d.count then
    let m := min 65536 (d.count - pos)
    let es := (List.range m).map fun i => s.baseEntry d (pos + i)
    let es := es.filter fun e => match l with
      | some l => !killed l.tombs e.1 tick q.snap
      | none => true
    let q := s.keepBest q (s.admitted q shard n false es)
    if pos + m < d.count ∨ (l.elim false fun l => !l.side.isEmpty) = true then
      { q with todo := q.todo.map fun e => if e.1 = n then (n, pos + m) else e }
    else done q
  else match l with
    | some l => done (s.keepBest q (s.admitted q shard n true ((l.sideVisible tick q.snap).map fun e => (e.id, e.code))))
    | none => done q

/-- The batch with the earliest deadline (R210). -/
def State.nextBatch (s : State) (r : Nat) : Option (Nat × RBatch) :=
  (s.rbatches.filter fun (e : Nat × RBatch) => s.scannable r e.2).foldl (fun acc e => match acc with
    | some a => if e.2.deadline < a.2.deadline then some e else acc
    | none => some e) none

/-- The pass that comes next (R209): the lowest list with work, the first group of 16 queries, and those of it at the lowest position. -/
def State.nextPass (s : State) (r : Nat) (b : RBatch) (x : Index) : Option (Nat × Nat × List Nat) :=
  let ready := b.queries.zipIdx.filter fun e => e.1.ready s.sundial
  let lists := ready.flatMap fun e => (e.1.todo.filter fun t => s.regionFor x e.1 t.1 == r).map (·.1)
  match lists with
  | [] => none
  | n0 :: ns =>
    let n := ns.foldl min n0
    let rank (k : Nat) : Nat := ((b.queries.take k).filter fun q => (s.probes q.entry).contains n).length
    let work := ready.filterMap fun e =>
      (e.1.todo.find? fun t => t.1 == n && s.regionFor x e.1 n == r).map fun t => (rank e.2 / 16, t.2, e.2)
    match work with
    | [] => none
    | w :: ws =>
      let g := (ws.map (·.1)).foldl min w.1
      let mine := work.filter fun e => e.1 == g
      let pos := (mine.map fun e => e.2.1).foldl min ((mine.map fun e => e.2.1).headD 0)
      some (n, pos, (mine.filter fun e => e.2.1 == pos).map fun e => e.2.2)

/-- Raises LAST_SNAP of a list to the largest snapshot of the queries that begin on it (R203). -/
def Index.raiseSnap (x : Index) (n t : Nat) : Index :=
  match x.lists[n]? with
  | some l => { x with lists := x.lists.set n { l with lastSnap := max l.lastSnap t } }
  | none => x

/-- The first poisoned line of a range. -/
def State.poisonIn (s : State) (a n : Nat) : Option Nat :=
  (s.poison.find? fun e => decide (a / 64 ≤ e.1) && decide (64 * e.1 < a + n)).map fun e => 64 * e.1

/-- The bytes of a chunk that hold a query's entries: codes and IDs. -/
def chunkSpan (d : ListDir) (pos : Nat) : List (Nat × Nat) :=
  let m := min 65536 (d.count - pos)
  [(d.codes + 32 * pos, 32 * m), (d.ids + 8 * pos, 8 * m)]

/-- A fault of an engine in a chunk (R221): recorded, the batch ends with FAULT; after a mismatch or a parity error the engine tests
itself. -/
def State.chunkFault (s : State) (r n : Nat) (b : RBatch) (kind list : Nat) : State :=
  let s := s.recordInfo .RCL_FAULT_INFO r (kind * 2 ^ 24 + b.plot * 2 ^ 21 + list)
  let s := s.logEvent b.plot 7 3 52 (256 * list + kind)
  let (v, s) := s.fresh
  let s := s.abortBatch n stFault v
  (if kind = 3 then s else s.setFld Fld.RCL_STATUS_STATE r reTesting).rclStatus

/-- Whether a query of a batch has newly ended with SNAP_RANGE (R212). -/
def newlyOut (old new : List RQuery) : Bool :=
  (old.zip new).any fun e => e.2.status == qsSnapRange && e.1.status != qsSnapRange

/-- Meters what a chunk reads against the batch's claim (R210, R244): 40 bytes of each base entry, 48 of each side entry. -/
def State.meterChunk (s : State) (b : RBatch) (r : Nat) (dirs : List ListDir) (pos side : Nat) : State :=
  match dirs with
  | [] => s
  | d :: _ =>
    if pos < d.count then (s.meter b.task (if d.inDram then r else 4 + r) (40 * min 65536 (d.count - pos))).2
    else (s.meter b.task (4 + r) (48 * side)).2

/-- CHUNK (R203, R209, R210, R221): engine `r` scans one chunk for the batch of the earliest deadline; its queries begin as they are first
scanned. -/
def execChunk (r : RegionIx) (e : ChunkEvent) (s : State) : Res :=
  if s.fld Fld.RCL_STATUS_STATE r.val = reTesting ∨ s.fld Fld.RCL_STATUS_STATE r.val = reOut then .next s
  else match s.nextBatch r.val with
    | none => .next s
    | some (k, b) => match s.index b.index with
      | none => .next s
      | some x => match s.nextPass r.val b x with
        | none => .next s
        | some (n, pos, members) =>
          let s := s.setFld Fld.RCL_STATUS_PLOT r.val b.plot
          let start (i : Nat) (q : RQuery) : RQuery := if members.contains i && !q.begun then s.beginQuery x q else q
          let qs := b.queries.zipIdx.map fun e => start e.2 e.1
          let s := if newlyOut b.queries qs then s.setBit Fld.RCL_PLOT_FLAGS_SNAP_RANGE b.plot true else s
          let top := ((qs.zipIdx.filter fun e => members.contains e.2 && e.1.status == qsOk).map fun e => e.1.snap).foldl max 0
          let x := if pos = 0 then x.raiseSnap n top else x
          let s := (s.setIndex b.index x).setRBatch k { b with queries := qs }
          let dir (q : RQuery) : Option ListDir :=
            (q.versions.find? fun v => v.1 == n).bind fun v => x.versionAt n v.2
          let dirs := (qs.zipIdx.filter fun e => members.contains e.2 && e.1.status == qsOk).filterMap fun e => dir e.1
          let spans := dirs.flatMap fun d => chunkSpan d pos
          let s := s.meterChunk b r.val dirs pos (((x.lists[n]?).map fun l => l.side.length).getD 0)
          match e with
          | .adder => .next (s.chunkFault r.val k b 1 n)
          | .parity => .next (s.chunkFault r.val k b 2 n)
          | .uncorrectable off =>
            .next ((s.recordEcc ((spans.head?.map (·.1)).getD 0 + off) 1 false).chunkFault r.val k b 3 n)
          | .clean =>
            match spans.findSome? fun a => s.poisonIn a.1 a.2 with
            | some a => .next ((s.recordEcc a 2 false).chunkFault r.val k b 3 n)
            | none =>
              let qs := qs.zipIdx.map fun e =>
                if members.contains e.2 && e.1.status == qsOk then s.scanFor x (if b.sharded then b.self else 0) n pos e.1 else e.1
              .next (s.setRBatch k { b with queries := qs }).rclStatus

/-- KNOWN_ANSWER_TEST (R221): the test of an engine ends; an engine that fails it is out of service. -/
def execKnownAnswerTest (r : RegionIx) (ok : Bool) (s : State) : Res :=
  if s.fld Fld.RCL_STATUS_STATE r.val ≠ reTesting then .next s
  else if ok then .next (s.setFld Fld.RCL_STATUS_STATE r.val reIdle).rclStatus
  else
    let p := s.fld Fld.RCL_STATUS_PLOT r.val
    let s := s.recordInfo .RCL_FAULT_INFO r.val (4 * 2 ^ 24 + p * 2 ^ 21)
    .next ((s.setFld Fld.RCL_STATUS_STATE r.val reOut).logEvent chipPlot 7 3 53 r.val)

/-- Starts the waiting queries of a batch whose snapshot has come (R203). -/
def State.startWaiting (s : State) (n : Nat) : State :=
  match s.rbatch n with
  | none => s
  | some b => match s.index b.index with
    | none => s
    | some x =>
      let due (q : RQuery) : Bool := q.snap != 0 && !q.begun && q.ready s.sundial
      let s := if b.queries.any due then s.markUnsync b.plot else s
      let qs := b.queries.map fun q => if due q then s.beginQuery x q else q
      let s := if newlyOut b.queries qs then s.setBit Fld.RCL_PLOT_FLAGS_SNAP_RANGE b.plot true else s
      { s.setRBatch n { b with queries := qs } with
        events := s.events.filter fun e => e.kind != EventKind.snapshot n || decide (s.sundial < e.tick) }.rclStatus

/-- SNAPSHOT_WAIT (R203). -/
def execSnapshotWait (batch : Nat) (s : State) : Res := .next (s.startWaiting batch)

/-! ### Results (R211 to R213) -/

/-- The merge of one query's shards: TOPK over the group, taken in query order by every member (R213). -/
def shardOp (g root k : Nat) : OpDesc :=
  ⟨opTopk, 1, g, 0, 0, 1, 0xFFFF, root, 0, 0, 0, 0, 32 + 16 * k, 0, 1, 0, 0, 0, 0, 0, 0, 0, 0, [], [], 2 ^ 64 - 1, 0, 0, 0⟩

/-- Starts the merge of query `k` of a sharded batch. -/
def State.fireShard (s : State) (n k : Nat) (b : RBatch) (q : RQuery) (g : ColGroup) : State :=
  (s.setRBatch n { b with fired := k + 1 }).fireOwn (batchChain + n) k (shardOp b.group b.root (s.queryK q)) g

/-- RESULT_WRITE (R211 to R213, R221): a query whose lists are scanned, or which ended alone, writes its result, or its shard goes to the
merge; an aborted batch ends, a sharded one once every record of the group's error has arrived (R335), REFUSED with the latest tick. -/
def execResultWrite (batch query : Nat) (s : State) : Res :=
  match s.rbatch batch with
  | none => .next s
  | some b =>
    match b.aborted with
    | some st =>
      if b.sharded && (s.colGroup b.group).any (·.err.isSome) then .next s
      else if st = stRefused then .next (s.abortBatch batch st b.feasible).rclStatus
      else
        let (v, s) := s.fresh
        .next (s.abortBatch batch st v).rclStatus
    | none => match b.queries[query]? with
      | none => .next s
      | some q =>
        if q.ended ∨ (q.status = qsOk ∧ (q.begun = false ∨ q.todo.isEmpty = false)) then .next s
        else if b.sharded then
          if query ≠ b.fired then .next s
          else match s.colGroup b.group with
            | some g => if g.err.isSome then .next s else .next (s.fireShard batch query b q g)
            | none => .next s
        else .next ((s.writeBlock b q).putQuery batch b query { q with ended := true }).rclStatus

end Sys2Proof.Machine
end

