-- ==== Sys2Proof/Machine/FieldPorts.lean ====
section
/-!
DEFINITION. Field ports (R339 to R358): port states, connections, datagrams and their acknowledgements, FLD_SEND, and PTP at the group
root.
-/

namespace Sys2Proof.Machine
open Sys2Proof

/-! ### Connections (R346) -/

/-- Counts a dropped frame of a port (R341). -/
def State.dropFrame (s : State) (q : Nat) : State := s.addSat Fld.FLD_DROP_COUNT_COUNT q 1

/-- Sends OPEN, OPEN_ACK or RESET: no message header, no data (R343). -/
def State.sendBare (s : State) (i : Nat) (kind : MsgKind) (epoch : Nat) : State :=
  s.sendPort (s.conn i).port { Msg.to kind 7 0 0 with
    epoch := epoch, tag := i, op := s.fld Fld.BOOT_STATUS_MAJOR 0, head := s.transportHeader kind i epoch 0 0 0 0 0 }

/-- Units of a port's mode (R339). -/
def modeUnits (mode : Nat) : Nat := if mode = 1 then 800 else if mode = 2 then 400 else if mode = 3 then 200 else 0

/-- Enters OPENING (R346): EPOCH steps by one, wrapping, and OPEN is sent. -/
def State.startOpening (s : State) (i : Nat) (e : Peer) : State :=
  let q := e.port % 2
  let c := { Conn.closed with
    state := cnOpening, epoch := ((s.conn i).epoch + 1) % 65536, port := q, lastOpen := s.clock
    rate := 64 * modeUnits (s.fld Fld.FLD_STATUS_MODE q) }
  (s.setConn i c).sendBare i .afithOpen c.epoch

/-- Enters CLOSED (R346): FLD_SEND commands that wait complete with FAULT (R353); operations end by their own timeouts (R357). -/
def State.closeConn (s : State) (i : Nat) (level : Bool) : State :=
  let c := s.conn i
  let s := s.setConn i { Conn.closed with epoch := c.epoch, port := c.port, level := level }
  ((c.unacked.filterMap (·.command)).eraseDups).foldl (fun s id => s.finishOpen id stFault) s

/-- A port loses its connections: those that may fail over go on over the other port while that one is UP; every other is CLOSED. -/
def State.losePort (s : State) (q : Nat) : State :=
  let mine := (s.peers.map (·.1)).filter fun i => (s.conn i).state != cnClosed && (s.conn i).port == q
  mine.foldl (fun s i =>
    if (s.peer i).any (fun e => e.failover) && s.portUp (1 - q) then s.setConn i { s.conn i with port := 1 - q }
    else s.closeConn i false) s

/-- Whether a datagram comes from a peer over a port that is UP, on the port its connection uses, and carries its EPOCH (R341, R346). -/
def State.heardFrom (s : State) (q i : Nat) (known : Bool) (epoch : Nat) : Bool :=
  known && s.portUp q && (s.peer i).isSome && (s.conn i).port == q && (s.conn i).epoch == epoch

/-- OPEN (R346): another MAJOR is answered RESET with reason LEVEL; an OPEN of this EPOCH is answered and the connection is OPEN. -/
def execOpenConn (q : PortIx) (i : PeerIx) (known : Bool) (major epoch : Nat) (s : State) : Res :=
  if !s.portUp q.val then .next s
  else if known = false ∨ (s.peer i.val).isNone = true then .next (s.dropFrame q.val)
  else if major ≠ s.fld Fld.BOOT_STATUS_MAJOR 0 then
    .next (((s.closeConn i.val true).sendBare i.val .afithReset epoch).logEvent chipPlot 10 5 22 i.val)
  else if s.heardFrom q.val i.val known epoch = false ∨ (s.conn i.val).state = cnClosed then .next (s.dropFrame q.val)
  else .next ((s.setConn i.val { s.conn i.val with state := cnOpen }).sendBare i.val .afithOpenAck epoch)

/-- OPEN_ACK (R346). -/
def execOpenAck (q : PortIx) (i : PeerIx) (known : Bool) (epoch : Nat) (s : State) : Res :=
  if !s.portUp q.val then .next s
  else if s.heardFrom q.val i.val known epoch = false ∨ (s.conn i.val).state = cnClosed then .next (s.dropFrame q.val)
  else .next (s.setConn i.val { s.conn i.val with state := cnOpen })

/-- AFITH_RESET (R346): CLOSED; a RESET that answers OPEN is for LEVEL. -/
def execAfithReset (q : PortIx) (i : PeerIx) (known : Bool) (epoch : Nat) (s : State) : Res :=
  if !s.portUp q.val then .next s
  else if s.heardFrom q.val i.val known epoch = false then .next (s.dropFrame q.val)
  else
    let level := (s.conn i.val).state == cnOpening
    let s := if level then s.logEvent chipPlot 10 5 22 i.val else s
    .next (s.closeConn i.val level)

/-- OPEN_RETRY (R346): a CLOSED connection whose port is UP enters OPENING; an OPENING one sends OPEN every 1 ms. -/
def execOpenRetry (i : PeerIx) (s : State) : Res :=
  let c := s.conn i.val
  match s.peer i.val with
  | none => .next s
  | some e =>
    if c.state = cnClosed ∧ s.portUp (e.port % 2) = true then .next (s.startOpening i.val e)
    else if c.state = cnOpening ∧ c.lastOpen + 1000000 ≤ s.clock then
      .next ((s.setConn i.val { c with lastOpen := s.clock }).sendBare i.val .afithOpen c.epoch)
    else .next s

/-! ### Receiving (R344, R347, R349) -/

/-- Distance of a PSN above another, modulo 2^32. -/
def psnAbove (psn base : Nat) : Nat := (psn + 2 ^ 32 - base % 2 ^ 32) % 2 ^ 32

/-- CUMACK passes every PSN that has landed. -/
def advanceCum : Nat → Nat → List Nat → Nat × List Nat
  | 0, c, l => (c, l)
  | f + 1, c, l => if l.contains c then advanceCum f ((c + 1) % 2 ^ 32) (l.filter (· != c)) else (c, l)

/-- Sends an ACK (R343, R347): EPOCH, ECE, CUMACK, HIGHEST and SACK in its transport header; no data. -/
def State.sendDgramAck (s : State) (i : Nat) : State :=
  let c := s.conn i
  let sack := (List.range 64).foldl (fun n k => if c.landed.contains ((c.cum + 1 + k) % 2 ^ 32) then n + 2 ^ k else n) 0
  let s := s.sendPort c.port { Msg.to .afithAck 7 0 0 with
    epoch := c.epoch, tag := i, reply := c.cum, addr := c.highest, op := c.ce.toNat
    head := s.transportHeader .afithAck i c.epoch (4 * c.ce.toNat) 0 c.cum c.highest sack }
  s.setConn i { c with count := 0, since := none, ce := false }

/-- Whether a message of a peer is dropped (R344, R351, R353): its TYPE, DEST, SRC or PLOT, or a write outside the endpoint's windows. -/
def State.refusesDgram (s : State) (e : Peer) (d : DataDgram) : Bool :=
  d.m.malformed || !s.isSelf d.m.dest || d.m.src != e.chip ||
  (if e.endpoint then d.typ != 1 || d.m.plot != e.plot || !s.ownsRange e.plot d.m.addr d.m.data.length
   else d.typ != 4 && d.typ != 5)

/-- The effect of a message from a peer. -/
def State.takeDgram (s : State) (e : Peer) (d : DataDgram) : State :=
  if d.typ = 1 then (s.putBytes d.m.addr d.m.data)
  else if d.typ = 4 then s.pieceIn (d.m.plot % 8) d.m.src (some e.site) d.m.tag d.m.op d.m.addr d.m.data
  else if d.m.op = 0x81000000 then s.creditIn (d.m.plot % 8) d.m.src (some e.site) d.m.tag
  else s

/-- AFITH_DATA (R341, R344, R346, R347, R349): a datagram within the map and not yet landed is written, once; an ACK leaves after every
16, at once for LAST. -/
def execAfithData (q : PortIx) (d : DataDgram) (s : State) : Res :=
  let i := d.conn.val
  if !s.portUp q.val || s.hubHeld then .next s
  else match s.peer i with
    | none => .next (s.dropFrame q.val)
    | some e =>
      let c := s.conn i
      if s.heardFrom q.val i d.known d.epoch = false ∨ c.state ≠ cnOpen ∨ s.refusesDgram e d = true then .next (s.dropFrame q.val)
      else
        let fresh := decide (psnAbove d.psn c.cum < connWindow) && !c.landed.contains (d.psn % 2 ^ 32)
        let s := if fresh then s.takeDgram e d else s
        let c := s.conn i
        let r := if fresh then advanceCum (c.landed.length + 1) c.cum (c.landed ++ [d.psn % 2 ^ 32]) else (c.cum, c.landed)
        let c := { c with
          cum := r.1, landed := r.2, count := c.count + 1, ce := c.ce || d.ce
          highest := if fresh && decide (psnAbove d.psn c.highest < 2 ^ 31) then d.psn % 2 ^ 32 else c.highest
          since := some (c.since.getD s.clock) }
        let s := s.setConn i c
        if d.last ∨ 16 ≤ c.count then .next (s.sendDgramAck i) else .next s

/-- ACK_TIMER (R347): at least every 10 µs while a datagram is unacknowledged. -/
def execAckTimer (i : PeerIx) (s : State) : Res :=
  match (s.conn i.val).since with
  | some t => if (s.conn i.val).state = cnOpen ∧ t + 10000 ≤ s.clock then .next (s.sendDgramAck i.val) else .next s
  | none => .next s

/-! ### Acknowledgements and retransmission (R348, R350) -/

/-- RTTMIN: the least round trip measured in the last second. -/
def State.rttMin (s : State) (c : Conn) : Option Nat :=
  ((c.rtts.filter fun e => decide (s.clock < e.1 + 1000000000)).head?).map (·.2)

/-- A round trip before the first measurement: 2 × PATHMAX. -/
def State.roundTrip (s : State) (i : Nat) : Nat :=
  (s.rttMin (s.conn i)).getD (2 * ((s.peer i).map (·.pathMax)).getD 0)

/-- Enters a measured round trip: those not less than it are superseded. -/
def Conn.measure (c : Conn) (now v : Nat) : Conn :=
  { c with rtts := (c.rtts.filter fun e => decide (now < e.1 + 1000000000) && decide (e.2 < v)) ++ [(now, v)] }

/-- Sends a datagram again: FLD_RETX_COUNT steps. -/
def State.resend (s : State) (i : Nat) (psn : Nat) : State :=
  let c := s.conn i
  match c.unacked.find? fun d => d.psn == psn with
  | none => s
  | some d =>
    let d := { d with again := d.again + 1, sent := s.clock }
    let s := s.setConn i { c with unacked := c.unacked.map fun (x : Dgram) => if x.psn = psn then d else x }
    (s.addSat Fld.FLD_RETX_COUNT_COUNT c.port 1).emitDgram i c d

/-- The sender's rate above its reservation (R350): an eighth off for ECE, 1/64 of the port rate back without it, once per round trip. -/
def State.paceConn (s : State) (i : Nat) (ece : Bool) : State :=
  let c := s.conn i
  let full := 64 * modeUnits (s.fld Fld.FLD_STATUS_MODE c.port)
  if s.clock < c.rateTick + s.roundTrip i then s
  else s.setConn i { c with rateTick := s.clock, rate := if ece then c.rate - c.rate / 8 else min full (c.rate + full / 64) }

/-- AFITH_ACK (R348): what has landed leaves the connection; those that the window now covers are sent; what HIGHEST exceeds by more than
three and is not in SACK is sent again, at most once per round trip; a FLD_SEND with nothing left completes (R353). -/
def State.takeAck (s : State) (i : Nat) (d : AckDgram) : State :=
  let c := s.conn i
  let gone (x : Dgram) : Bool :=
    decide (psnAbove x.psn d.cum ≥ 2 ^ 31) || (decide (0 < psnAbove x.psn d.cum) && decide (psnAbove x.psn d.cum ≤ 64) &&
      d.sack.testBit (psnAbove x.psn d.cum - 1))
  let acked := c.unacked.filter gone
  let sent := ((c.unacked.take connWindow).filter fun x => !gone x).length
  let rest := c.unacked.filter fun x => !gone x
  let c := (acked.filter fun x => x.again == 0).foldl (fun c x => c.measure s.clock (s.clock - x.first)) c
  let moved := match c.unacked.head? with
    | some x => gone x
    | none => false
  let s := s.setConn i { c with
    unacked := rest.zipIdx.map fun e => if sent ≤ e.2 ∧ e.2 < connWindow then { e.1 with first := s.clock, sent := s.clock } else e.1
    advanced := if moved then s.clock else c.advanced }
  let s := ((rest.take connWindow).drop sent).foldl (fun s x => s.emitDgram i (s.conn i) x) s
  let s := s.paceConn i d.ece
  let missing := (rest.take sent).filter fun x =>
    decide (3 < psnAbove d.highest x.psn) && decide (psnAbove d.highest x.psn < 2 ^ 31) && decide (x.sent + s.roundTrip i ≤ s.clock)
  let s := missing.foldl (fun s x => s.resend i x.psn) s
  let s := ((acked.filterMap (·.command)).eraseDups.filter fun id => rest.all fun x => x.command != some id).foldl
    (fun s id => s.finishOpen id stOk) s
  ((acked.filterMap (·.op)).eraseDups).foldl (fun s id => s.progress id) s

/-- AFITH_ACK (R346, R348, R350). -/
def execAfithAck (q : PortIx) (d : AckDgram) (s : State) : Res :=
  if !s.portUp q.val || s.hubHeld then .next s
  else if s.heardFrom q.val d.conn.val d.known d.epoch = false ∨ (s.conn d.conn.val).state ≠ cnOpen then .next (s.dropFrame q.val)
  else .next (s.takeAck d.conn.val d)

/-- The retransmission timeout (R348). -/
def State.resendAfter (s : State) (i : Nat) : Nat :=
  match s.rttMin (s.conn i) with
  | some v => max (2 * v) 20000
  | none => 2 * ((s.peer i).map (·.pathMax)).getD 0

/-- RETRANSMIT_TIMEOUT (R348). -/
def execRetransmitTimeout (i : PeerIx) (psn : Nat) (s : State) : Res :=
  let c := s.conn i.val
  if c.state ≠ cnOpen then .next s
  else match (c.unacked.take connWindow).find? fun d => d.psn == psn with
    | none => .next s
    | some d =>
      if s.clock < d.sent + s.resendAfter i.val ∨ 16 ≤ d.again then .next s else .next (s.resend i.val psn)

/-- GIVE_UP (R348): a PSN sent again 16 times, or CUMACK at a stand for 100 ms with datagrams outstanding: RESET is sent, CLOSED. -/
def execGiveUp (i : PeerIx) (s : State) : Res :=
  let c := s.conn i.val
  let stuck := !c.unacked.isEmpty && decide (c.advanced + 100000000 ≤ s.clock)
  if c.state = cnOpen ∧ (stuck || c.unacked.any fun d => decide (16 ≤ d.again)) = true then
    .next ((s.sendBare i.val .afithReset c.epoch).closeConn i.val false)
  else .next s

/-! ### FLD_SEND (R353) -/

/-- FLD_SEND: the plot's bytes leave for an endpoint; OK once every byte is acknowledged, FAULT when the connection gives up or is not
OPEN, or when a line of the source is poisoned (R259; notes/assumptions/57). -/
def execFldSend (p : PlotIx) (s : State) : Res :=
  .next (s.runCommand p.val 0x50 (fun c => c.cleanFrom 40 && c.seqNo == 0 && c.arg 9 7 == 0 && c.arg 28 4 == 0) fun c s =>
    let i := c.arg 8 1
    let a := c.arg 16 8
    let n := c.arg 24 4
    match (s.peer i).filter fun e => e.endpoint && e.plot == p.val with
    | none => s.finishOpen c.id stBadArg
    | some e =>
      if s.ownsRange p.val a n = false ∨ n % 16 ≠ 0 then s.finishOpen c.id stBadArg
      else if n = 0 then s.finishOpen c.id stOk
      else if (s.firstPoison a n).isSome then (s.noteRead a n).finishOpen c.id stFault
      else if (s.conn i).state ≠ cnOpen then s.finishOpen c.id stFault
      else s.fldSend i { Msg.to .write 7 p.val e.chip with
        src := s.chipNo, addr := c.arg 32 8, gen := s.chipTag, data := s.loadBytes a n } (some c.id) none)

/-! ### Ports (R339 to R341, R346, R358) -/

/-- NEIGHBOR_SOLICITATION (R341): one for the port's own address is answered with a Neighbor Advertisement; any other is dropped. -/
def execNeighborSolicitation (q : PortIx) (own : Bool) (s : State) : Res :=
  if !s.portUp q.val then .next s
  else if own then .next (s.sendPort q.val (Msg.to .neighbor 7 0 0)) else .next (s.dropFrame q.val)

/-- PCS_ALIGNMENT_LOSS (R340): the port goes DOWN as a whole. -/
def execPcsAlignmentLoss (q : PortIx) (s : State) : Res :=
  if s.portUp q.val then
    .next (((s.setFld Fld.FLD_STATUS_STATE q.val fpDown).losePort q.val).logEvent chipPlot 10 5 23 q.val)
  else .next s

/-- Retrains a port with the MODE of FLD_CONTROL (R339, R358, R456): mode 0, DISABLE or deep fallow leaves it off. -/
def State.retrainPort (s : State) (q : Nat) : State :=
  let mode := s.fld Fld.FLD_CONTROL_MODE q
  let off := mode == 0 || s.bit Fld.FLD_CONTROL_DISABLE q || s.fld Fld.PWR_STATE_STATE 0 == 3
  let s := (s.setFld Fld.FLD_STATUS_STATE q (if off then fpOff else fpTraining)).losePort q
  s.setFld Fld.FLD_STATUS_MODE q mode

/-- FLD_RETRAIN (R358). -/
def execFldRetrain (a : Agent) (q : PortIx) (s : State) : Res :=
  if !s.privOk a || s.bit Fld.FLD_CONTROL_DISABLE q.val then .next s else .next (s.retrainPort q.val)

/-- FLD_DISABLE (R358): 1 holds the port off; 0 lets it train again. -/
def execFldDisable (a : Agent) (q : PortIx) (v : Bool) (s : State) : Res :=
  if !s.privOk a then .next s
  else if s.bit Fld.FLD_CONTROL_DISABLE q.val = v then .next (s.viaStore (s.setBit Fld.FLD_CONTROL_DISABLE q.val v))
  else .next ((s.viaStore (s.setBit Fld.FLD_CONTROL_DISABLE q.val v)).retrainPort q.val)

/-- FIELD_PORT_UP (R346): training completes and the port's CLOSED connections enter OPENING. -/
def execFieldPortUp (q : PortIx) (s : State) : Res :=
  if s.fld Fld.FLD_STATUS_STATE q.val ≠ fpTraining then .next s
  else
    let s := s.setFld Fld.FLD_STATUS_STATE q.val fpUp
    let mine := s.peers.filter fun e => e.2.port % 2 == q.val && (s.conn e.1).state == cnClosed
    .next (mine.foldl (fun s e => s.startOpening e.1 e.2) s)

/-! ### PTP (R278, R354, R355) -/

/-- The root loses lock: it holds over and clears PTP (R278). -/
def State.ptpLoss (s : State) : State :=
  if !s.bit Fld.FLD_PTP_STATUS_LOCKED 0 then s
  else
    let s := ((s.setBit Fld.FLD_PTP_STATUS_LOCKED 0 false).setBit Fld.SDL_STATUS_PTP 0 false).setFld Fld.SDL_STATUS_STATE 0 sdHoldover
    s.logEvent chipPlot 11 5 24 0

/-- OFFSET in ns, two's complement, saturating (R358). -/
def ptpOffset (offset : Int) : Nat := ((max (-32768) (min 32767 (offset.tdiv 64))) % 65536).toNat

/-- PTP_SYNC (R271, R354, R355): the root slews toward PTP time, or past 4,096 ticks drops its work and steps; 16 Syncs within 20 ns lock
it, four beyond 50 ns or another grandmaster lose the lock. -/
def execPtpSync (q : PortIx) (f : PtpSync) (s : State) : Res :=
  if !s.portUp q.val then .next s
  else if !s.isRoot || !s.ptpUse || q.val != s.ptpPort || f.domain != s.ptpDomain || decide (f.interval < 62500000) || decide (1000000000 < f.interval) then
    .next (s.dropFrame q.val)
  else
    let x := s.ptp
    let s := if x.master.any (· != f.master) then s.ptpLoss else s
    let same := x.master == some f.master
    let good := if f.offset.natAbs ≤ 20 * 64 then (if same then x.good else 0) + 1 else 0
    let bad := if 50 * 64 < f.offset.natAbs then (if same then x.bad else 0) + 1 else 0
    let s := if 4 ≤ bad then s.ptpLoss else s
    let s := { s with ptp := ⟨some f.master, good, bad, s.clock, f.interval⟩ }
    let s := (s.setBit Fld.FLD_PTP_STATUS_PORT 0 (q.val == 1)).setFld Fld.FLD_PTP_STATUS_OFFSET 0 (ptpOffset f.offset)
    let s : State := if 4096 * 64 < f.offset.natAbs then
        let s := if s.holdsWork then s.dropWork else s
        let s := s.stepBy (-2 * f.offset)
        { s with ptp := { s.ptp with last := s.clock, good := 0 } }
      else { s with slew := (-f.offset).tdiv 64 }
    if 16 ≤ s.ptp.good then
      .next (((s.setBit Fld.FLD_PTP_STATUS_LOCKED 0 true).setBit Fld.SDL_STATUS_PTP 0 true).setFld Fld.SDL_STATUS_STATE 0 sdSync)
    else .next s

/-- PTP_LOCK_LOSS (R355): no valid Sync and Follow_Up for 8 intervals. -/
def execPtpLockLoss (s : State) : Res :=
  if s.ptp.master.isSome ∧ s.ptp.last + 8 * s.ptp.interval ≤ s.clock then
    .next { s.ptpLoss with ptp := { s.ptp with good := 0, bad := 0 } }
  else .next s

end Sys2Proof.Machine
end

