-- ==== Sys2Proof/Machine/Mailbox.lean ====
section
/-!
DEFINITION. The host mailbox (R440, R441), and the commands that read the event log and the harvest (R407, R420, R421).
-/

namespace Sys2Proof.Machine
open Sys2Proof

/-! ### The mailbox (R440) -/

/-- The command words as one entry; its plot is byte 1. -/
def State.mboxCommand (s : State) : Cmd :=
  let w := leNat ((List.range 16).flatMap fun i => leBytes 4 (s.reg .HUB_MBOX_CMD i).toNat)
  ⟨0, bitsAt w 8 8, w⟩

/-- Whether the unused bytes from offset `o` on, and SEQ, are zero. -/
def Cmd.mboxClean (c : Cmd) (o : Nat) : Bool := c.seqNo == 0 && c.arg o (64 - o) == 0

/-- The opcodes of R441. -/
def mboxKnown (op : Nat) : Bool := (decide (1 ≤ op) && decide (op ≤ 9)) || op == 0x30 || op == 0x60 || op == 0x61

/-- Writes the completion (R137): DONE is set while BUSY is cleared. -/
def State.mboxDone (s : State) (status result : Nat) : State :=
  let bytes := leBytes 4 s.mboxCommand.tag ++ leBytes 1 status ++ leBytes 3 0 ++ leBytes 8 result
  let s := (List.range 4).foldl (fun s i => s.setReg .HUB_MBOX_RESULT i (BitVec.ofNat 32 (leNat ((bytes.drop (4 * i)).take 4)))) s
  ((s.setBit Fld.HUB_MBOX_STATUS_BUSY 0 false).setBit Fld.HUB_MBOX_STATUS_DONE 0 true).stepFld Fld.HUB_MBOX_STATUS_COUNT 0

/-- A completion whose RESULT the manual does not state (notes/assumptions/23). -/
def State.mboxOpen (s : State) (status : Nat) : State :=
  let (v, s) := s.fresh
  s.mboxDone status v

/-- Whether the management pair runs firmware that serves commands: SERVICE or HELD (R395, R400). -/
def State.bootedFw (s : State) : Bool := decide (6 ≤ s.fld Fld.BOOT_STATUS_STATE 0) && !s.halted.contains 0

/-- Runs the mailbox's command where its OPCODE is `op`: an argument out of range completes with BADARG, else its body runs. -/
def State.runMbox (s : State) (op : Nat) (ok : Cmd → Bool) (body : Cmd → State → State) : State :=
  let c := s.mboxCommand
  if !s.bit Fld.HUB_MBOX_STATUS_BUSY 0 || s.hubHeld || !s.bootedFw || c.op != op then s
  else if ok c then body c s else s.mboxOpen stBadArg

/-- MBOX_GO (R440, R441): starts the command; ignored with REJECTED set while one runs; an unknown OPCODE completes with BADARG. -/
def execMboxGo (a : Agent) (s : State) : Res :=
  if !s.privOk a then .next s
  else if s.bit Fld.HUB_MBOX_STATUS_BUSY 0 then .next (s.setBit Fld.HUB_MBOX_STATUS_REJECTED 0 true)
  else
    let s := s.setBit Fld.HUB_MBOX_STATUS_BUSY 0 true
    if mboxKnown s.mboxCommand.op then .next s else .next (s.mboxOpen stBadArg)

/-! ### The event log (R420, R421) -/

/-- The 32 bytes of an entry. -/
def LogEntry.bytes (e : LogEntry) : List Byte :=
  leBytes 8 e.seqNo ++ leBytes 8 e.tick ++ leBytes 1 e.plot ++ leBytes 1 e.source ++ leBytes 2 e.code ++ leBytes 12 e.detail

/-- The bytes of a log read and its RESULT: the reader's entries from `first` on, at most `most`. -/
def State.logBytes (s : State) (who : Option Nat) (first most : Nat) : List Byte × Nat :=
  let floor := match who with
    | some p => Sparse.get (fun _ => 0) s.logFloor p
    | none => 0
  let mine := s.log.filter fun e => decide (first ≤ e.seqNo) && (match who with
    | some p => e.plot == p && decide (floor ≤ e.seqNo)
    | none => true)
  let taken := mine.take most
  let gap := match s.log.head? with
    | some e => decide (first < e.seqNo)
    | none => false
  let next := match mine.drop most, taken.getLast? with
    | [], _ => s.logSeq
    | _ :: _, some e => e.seqNo + 1
    | e :: _, none => e.seqNo
  (leBytes 4 taken.length ++ leBytes 1 gap.toNat ++ leBytes 11 0 ++ taken.flatMap LogEntry.bytes, next)

/-- LOG_READ (R421, R441): a plot's own entries into its windows, or every entry into host memory for the mailbox. -/
def execLogRead (who : Option PlotIx) (s : State) : Res :=
  match who with
  | some p =>
    .next (s.runCommand p.val 0x60 (fun c => c.cleanFrom 26 && c.seqNo == 0) fun c s =>
      if !s.ownsRange p.val (c.arg 16 8) (16 + 32 * c.arg 24 2) then s.finishOpen c.id stBadArg
      else
        let r := s.logBytes (some p.val) (c.arg 8 8) (c.arg 24 2)
        ((s.storeBytes (c.arg 16 8) r.1).1).finish c.id stOk r.2)
  | none =>
    .next (s.runMbox 0x60 (fun c => c.mboxClean 26) fun c s =>
      let r := s.logBytes none (c.arg 8 8) (c.arg 24 2)
      (s.writeHost (c.arg 16 8) r.1).mboxDone stOk r.2)

/-- HARVEST_READ (R408, R441): a slot's header and records go to host memory. -/
def execHarvestRead (s : State) : Res :=
  .next (s.runMbox 0x61 (fun c => c.mboxClean 24 && c.arg 10 6 == 0 && decide (c.arg 8 1 < 4) && decide (c.arg 9 1 < 16)) fun c s =>
    match Table.get s.harvest (16 * c.arg 8 1 + c.arg 9 1) with
    | some bs => (s.writeHost (c.arg 16 8) bs).mboxOpen stOk
    | none => s.mboxOpen stState)

end Sys2Proof.Machine
end

