-- ==== Sys2Proof/Machine/Plots.lean ====
section
/-!
DEFINITION. Plot commands (R359 to R370): creating, changing, stopping and destroying plots, moving blocks, group entries and user
function tables.
-/

namespace Sys2Proof.Machine
open Sys2Proof

/-! ### Records (R361, R362) -/

/-- A plot record read from host memory. -/
structure PlotRecord where
  bytes : List Byte
  deriving DecidableEq, Repr

def PlotRecord.get (r : PlotRecord) (o n : Nat) : Nat := leNat ((r.bytes.drop o).take n)

/-- Four region fields of `n` bytes. -/
def PlotRecord.four (r : PlotRecord) (o n : Nat) : List Nat := (List.range 4).map fun i => r.get (o + n * i) n

def PlotRecord.plot (r : PlotRecord) : Nat := r.get 0 1
def PlotRecord.compat (r : PlotRecord) : Bool := (r.get 1 1).testBit 0
def PlotRecord.blocks (r : PlotRecord) : Nat := r.get 4 4

/-- The plot that a record describes. -/
def PlotRecord.build (r : PlotRecord) : Plot where
  dramBase := r.four 0x08 1
  dramSize := r.four 0x0C 1
  stackBase := r.four 0x10 2
  stackSize := r.four 0x18 2
  coldFirst := r.get 0x20 2
  coldCount := r.get 0x22 2
  poolDram := r.four 0x24 1
  poolStack := r.four 0x28 2
  poolHosted := r.four 0x30 1
  kvmOrder := r.get 0x34 1
  admOrder := r.get 0x35 1
  ctrFirst := r.get 0x36 2
  ctrCount := r.get 0x38 2
  rings := r.get 0x50 8
  recv := r.get 0x58 8
  cutTab := r.get 0x60 8
  sigProj := r.get 0x68 8
  hosts := r.get 0x70 8
  user := []
  cmdTail := 0
  admTail := 0

/-- Bytes of the ring area. -/
def Plot.ringBytes (q : Plot) : Nat := 64 + 80 * 2 ^ q.kvmOrder + 160 * 2 ^ q.admOrder

/-- The relations of R362 between the fields of windows, pools, segments, orders and counters. -/
def Plot.rangesOk (q : Plot) : Bool :=
  let at' (l : List Nat) (i : Nat) : Nat := l.getD i 0
  ((List.range 4).all fun i =>
    decide (at' q.dramBase i ≤ 15) && decide (at' q.dramBase i + at' q.dramSize i ≤ 16) && decide (at' q.stackBase i ≤ 179) &&
    decide (at' q.stackBase i + at' q.stackSize i ≤ 180) && decide (at' q.poolDram i ≤ at' q.dramSize i) &&
    decide (at' q.poolStack i ≤ at' q.stackSize i) && decide (at' q.poolHosted i ≤ at' q.poolStack i)) &&
  decide (q.coldFirst + q.coldCount ≤ 2048) && decide (6 ≤ q.kvmOrder) && decide (q.kvmOrder ≤ 12) && decide (6 ≤ q.admOrder) &&
  decide (q.admOrder ≤ 12) && decide (q.ctrFirst + q.ctrCount ≤ 1024)

/-- Whether the areas of a plot lie in its windows (R362); a state that holds the plot is asked. -/
def State.areasOk (s : State) (p : Nat) (q : Plot) : Bool :=
  s.inDramWindow p q.rings q.ringBytes && s.inDramWindow p q.recv 0x100000 &&
  [q.cutTab, q.sigProj, q.hosts].all fun a => a == 0 || s.ownsByte p a

/-- The values of KVM_POLICY and KVM_DECAY that a write takes (R172). -/
def policyOk (v : Nat) : Bool := bitsAt v 27 2 == 0 && decide (0x10 ≤ bitsAt v 16 8) && decide (bitsAt v 0 8 < bitsAt v 8 8)

def decayOk (v : Nat) : Bool := decide (0 < v) && decide (v ≤ 0x3F800000)

/-- The budget registers of R367. -/
def budgetRegs : List Reg := [.ADM_BUDGET_MEM, .ADM_BUDGET_NET]

/-- Whether a budget value of plot `p` keeps every field's sum of (v + 1) at 256 or below (R367). -/
def State.budgetFits (s : State) (r : Reg) (p v : Nat) : Bool :=
  r.fields.all fun f =>
    let others := ((List.range 8).filter fun k => k != p && s.fld Fld.PLT_STATE_STATE k != plFree).map fun k =>
      bitsAt (s.reg r k).toNat f.lo f.width + 1
    decide (others.sum + (bitsAt v f.lo f.width + 1) ≤ 256)

/-- Bits of a register that its fields name. -/
def Reg.mask (r : Reg) : Nat := r.fields.foldl (fun m f => m ||| ((2 ^ f.width - 1) * 2 ^ f.lo)) 0

/-- Whether a value uses only bits that fields name. -/
def Reg.holds (r : Reg) (v : Nat) : Bool := Nat.land v r.mask == v

/-! ### Blocks (R365, R366) -/

/-- Blocks of a mask. -/
def maskBlocks (m : Nat) : List Nat := (List.range 32).filter fun b => m.testBit b

/-- Sets PLT_BLOCKS and BLOCKCOUNT. -/
def State.setBlocks (s : State) (p m : Nat) : State :=
  (s.setFld Fld.PLT_BLOCKS_BLOCKS p m).setFld Fld.PLT_STATE_BLOCKCOUNT p (maskBlocks m).length

/-- Gives a block the user tables of its plot (R95, R368); the copy rewrites the user area (R96). -/
def State.loadTables (s : State) (p b : Nat) : State :=
  let tables := ((s.plot p).map (·.user)).getD []
  let bl := s.block b
  let s := s.setBlock b { bl with user := tables, upset := bl.upset.filter fun e => decide (e.1 < 0x3000) }
  s.setFld Fld.SFU_MODE_USER_LOADED b (tables.foldl (fun a e => a ||| 2 ^ e.1) 0)

/-- Gives a block the mode and the user tables of its plot as it is assigned (R95, R104, R365). -/
def State.dressBlock (s : State) (p b : Nat) : State :=
  let compat := s.fld Fld.PLT_STATE_COMPAT p
  let s := s.loadTables p b
  (s.setFld Fld.SFU_MODE_COMPAT b compat).setFld Fld.SFU_STATUS_COMPAT b compat

/-- Gives every plot's blocks their mode and tables again. -/
def State.dressPlots (s : State) : State :=
  (List.range 8).foldl (fun s p => (maskBlocks (s.fld Fld.PLT_BLOCKS_BLOCKS p)).foldl (fun s b => s.dressBlock p b) s) s

/-- Clears the cells and the memory of a block (R266). -/
def State.wipeBlock (s : State) (b : Nat) : State :=
  let cells := (List.range 16).map (16 * b + ·)
  let s := cells.foldl (fun s c =>
    ((s.setCell c Cell.empty).clearRange (spadBase c) spadSize).setFld Fld.CEL_STATE_STATE c
      (if s.fld Fld.CEL_STATE_STATE c = csOut then csOut else csIdle)) s
  (s.setBlock b { s.block b with pipe := [], merges := [], maskTile := [] }).clearRange (blockBase b) blockSize

/-- The outcome of a block's load and test: what the command carries, or a pass with a free CRC; a unit out of service stays so (R100).
The user area is zeroed first (R95, R366). -/
def State.sfuRun (s : State) (loads : List SfuRun) (b : Nat) : State :=
  let s := (s.setBlock b { s.block b with user := [] }).setFld Fld.SFU_MODE_USER_LOADED b 0
  if s.fld Fld.SFU_STATUS_STATE b = 5 then s
  else
  match loads.find? fun r => r.block == b with
  | some r => s.sfuLoadTest b r.t1 r.t2
  | none =>
    let (v, s) := s.fresh
    s.sfuLoadTest b ⟨v % 2 ^ 32, true, true⟩ ⟨v % 2 ^ 32, true, true⟩

/-- The pairs that a context armed are free with it. -/
def State.dropStreamPairs (s : State) (i : Nat) : State :=
  match s.stream i with
  | none => s
  | some t => (List.range t.cells).foldl (fun s k =>
      let c := t.firstCell + k
      let x := s.cell c
      s.setCell c { x with pairs := x.pairs.filter fun e => decide (e.2.owner ≠ PairOwner.stream i) }) s

/-- Releases a stream's context, with the pairs it armed. -/
def State.dropStream (s : State) (i : Nat) : State :=
  (({ s.dropStreamPairs i with streams := Table.del s.streams i }).setFld Fld.STM_STREAM_STATE_STATE i ssFree).engineStatus (i / 8)

/-- Releases the pairs that a chain armed, in the cells given. -/
def State.dropChainPairs (s : State) (c : Nat) (cells : List Nat) : State :=
  cells.foldl (fun s k =>
    let x := s.cell k
    s.setCell k { x with pairs := x.pairs.filter fun e => decide (e.2.owner ≠ .chain c) }) s

/-- Takes blocks from a plot once no task holds them (R366): persistent streams and notification pairs on them are released, they are
cleared, and their units are reloaded in native mode. -/
def State.freeBlocks (s : State) (p m : Nat) (loads : List SfuRun) : State :=
  let cellIn (c : Nat) : Bool := m.testBit (blockOfCell c)
  let gone := s.streams.filter fun e => e.2.plot == p && (List.range e.2.cells).any fun i => cellIn (e.2.firstCell + i)
  let s := gone.foldl (fun s e => s.dropStream e.1) s
  let chains := s.chains.filter fun e => e.2.plot == p && e.2.ops.any fun d => d.notifies && d.notify.any cellIn
  let s := chains.foldl (fun s e =>
    let s := s.dropChainPairs e.1 (e.2.ops.flatMap (·.notify))
    (s.setChain e.1 { e.2 with
      ops := e.2.ops.map fun d => { d with notify := [], ncells := 0, oflags := setBits d.oflags 2 1 0 } }).colStatus e.1) s
  let s := (maskBlocks m).foldl State.wipeBlock s
  let s := s.setBlocks p (setBits (s.fld Fld.PLT_BLOCKS_BLOCKS p) 0 32 (Nat.land (s.fld Fld.PLT_BLOCKS_BLOCKS p) (2 ^ 32 - 1 - m)))
  let s := s.setFld Fld.PLT_PENDING_DRAINING p (Nat.land (s.fld Fld.PLT_PENDING_DRAINING p) (2 ^ 32 - 1 - m))
  (maskBlocks m).foldl (fun s b => s.sfuRun loads b) s

/-! ### Windows -/

/-- The windows of a plot in bonded DRAM and the stacks. -/
def Plot.windows (q : Plot) : List Range :=
  (List.range 4).flatMap fun r =>
    [⟨Machine.dramBase r + q.dramBase.getD r 0 * 2 ^ 30, q.dramSize.getD r 0 * 2 ^ 30⟩,
     ⟨Machine.stackBase r + q.stackBase.getD r 0 * 2 ^ 30, q.stackSize.getD r 0 * 2 ^ 30⟩]

/-- Whether two ranges, neither empty, share a byte. -/
def Range.cuts (a b : Range) : Bool := a.len != 0 && b.len != 0 && a.meets b

/-- The parts of a range outside another. -/
def Range.minus (a b : Range) : List Range :=
  if !a.meets b then [a] else [⟨a.lo, b.lo - a.lo⟩, ⟨b.lo + b.len, a.lo + a.len - (b.lo + b.len)⟩]

/-- Whether a plot's windows, segments or counters meet another plot's (R362). -/
def State.sharesWindows (s : State) (p : Nat) (q : Plot) : Bool :=
  s.plots.any fun e => e.1 != p && ((q.windows.any fun a => e.2.windows.any a.cuts) ||
    (Range.mk q.coldFirst q.coldCount).cuts ⟨e.2.coldFirst, e.2.coldCount⟩ ||
    (Range.mk q.ctrFirst q.ctrCount).cuts ⟨e.2.ctrFirst, e.2.ctrCount⟩)

/-- Whether every segment of a plot is valid (R256, R361). -/
def State.segmentsValid (s : State) (q : Plot) : Bool := (List.range q.coldCount).all fun i => s.bit Fld.MEM_COLD_SEG_VALID (q.coldFirst + i)

/-- Granules of a pool. -/
def Plot.poolTotal (q : Plot) (t : Nat) : Nat := ((q.poolRanges t).map fun r => r.len / 4096).sum

/-! ### Commands (R360) -/

/-- Runs a command on a plot in one of the states it is allowed in; STATE in another. -/
def State.runPlot (s : State) (op : Nat) (states : List Nat) (ok : Cmd → Bool) (body : Cmd → Nat → State → State) : State :=
  s.runMbox op (fun c => decide (c.plot < 8) && ok c) fun c s =>
    if states.contains (s.fld Fld.PLT_STATE_STATE c.plot) then body c c.plot s else s.mboxOpen stState

/-- The registers of PLOT_SET, with where their values lie in a record. -/
def policyRegs : List (Reg × Nat) :=
  [(.KVM_POLICY, 0x3C), (.KVM_DECAY, 0x40), (.ADM_BUDGET_MEM, 0x44), (.ADM_BUDGET_NET, 0x48), (.LNK_PLOT_WEIGHT, 0x4C)]

/-- The STATUS of a value of one of those registers: OK, BADARG or LIMIT (R367). -/
def State.policyStatus (s : State) (r : Reg) (p v : Nat) : Nat :=
  if !r.holds v then stBadArg
  else if r = .KVM_POLICY then (if policyOk v then stOk else stBadArg)
  else if r = .KVM_DECAY then (if decayOk v then stOk else stBadArg)
  else if budgetRegs.contains r then (if s.budgetFits r p v then stOk else stLimit)
  else stOk

/-- The checks of R362 that give BADARG. -/
def State.recordOk (s : State) (p : Nat) (r : PlotRecord) : Bool :=
  let q := r.build
  r.plot == p && decide (r.get 1 1 < 2) && r.get 2 2 == 0 && r.get 0x3A 2 == 0 && r.get 0x78 8 == 0 && q.rangesOk && s.segmentsValid q &&
  (s.setPlot p q).areasOk p q && policyRegs.all fun e => s.policyStatus e.1 p (r.get e.2 4) == stOk

/-- Makes a plot from its record (R361): windows cleared, policy and budgets set, blocks dressed, ACTIVE. -/
def State.makePlot (s : State) (p : Nat) (r : PlotRecord) (clear : Bool) : State :=
  let q := r.build
  let s := if clear then q.windows.foldl (fun s w => s.clearRange w.lo w.len) s else s
  let s := s.setPlot p q
  let s := (List.range 4).foldl (fun s t => s.setPool p t { Pool.empty with total := q.poolTotal t, free := q.poolTotal t }) s
  let s := policyRegs.foldl (fun s e => s.setReg e.1 p (BitVec.ofNat 32 (r.get e.2 4))) s
  let s := (s.setBlocks p r.blocks).setBit Fld.PLT_STATE_COMPAT p r.compat
  let s := (maskBlocks r.blocks).foldl (fun s b => s.dressBlock p b) s
  s.setFld Fld.PLT_STATE_STATE p plActive

/-- PLOT_CREATE (R361, R362). -/
def execPlotCreate (s : State) : Res :=
  .next (s.runPlot 1 [plFree] (fun c => c.mboxClean 16) fun c p s =>
    let r : PlotRecord := ⟨s.readHost (c.arg 8 8) 128⟩
    if !s.recordOk p r then s.mboxOpen stBadArg
    else if s.sharesWindows p r.build || (maskBlocks r.blocks).any fun b => (s.ownerOfBlock b).isSome then s.mboxOpen stShared
    else (s.viaStore (s.makePlot p r true)).mboxOpen stOk)

/-- PLOT_SET (R360, R367). -/
def execPlotSet (s : State) : Res :=
  .next (s.runPlot 2 [plActive, plStopped] (fun c => c.mboxClean 16 && c.arg 9 3 == 0 && decide (c.arg 8 1 ≤ 5)) fun c p s =>
    let v := c.arg 12 4
    match policyRegs[c.arg 8 1]? with
    | some (r, _) =>
      let st := s.policyStatus r p v
      if st = stOk then (s.viaStore (s.setReg r p (BitVec.ofNat 32 v))).mboxOpen stOk else s.mboxOpen st
    | none =>
      let blocks := maskBlocks (s.fld Fld.PLT_BLOCKS_BLOCKS p)
      if 1 < v then s.mboxOpen stBadArg
      else if blocks.any s.blockBusy then s.mboxOpen stBusy
      else
        let s' := s.setFld Fld.PLT_STATE_COMPAT p v
        let s' := blocks.foldl (fun s b => (s.setFld Fld.SFU_MODE_COMPAT b v).setFld Fld.SFU_STATUS_COMPAT b v) s'
        (s.viaStore s').mboxOpen stOk)

/-- PLOT_GROW (R365): blocks of no plot. -/
def execPlotGrow (s : State) : Res :=
  .next (s.runPlot 3 [plActive, plStopped] (fun c => c.mboxClean 12) fun c p s =>
    let m := c.arg 8 4
    if (maskBlocks m).any fun b => (s.ownerOfBlock b).isSome then s.mboxOpen stShared
    else
      let s' := (maskBlocks m).foldl (fun s b => s.dressBlock p b) s
      (s.viaStore (s'.setBlocks p (Nat.lor (s.fld Fld.PLT_BLOCKS_BLOCKS p) m))).mboxOpen stOk)

/-- Whether an accepted task has cells in blocks of a mask (R366). -/
def State.blocksHeld (s : State) (m : Nat) : Bool := s.tasks.any fun e => e.2.accepted && e.2.cells.any fun c => m.testBit (blockOfCell c)

/-- PLOT_SHRINK (R366): the blocks drain; once their last task has ended they are released, cleared and reloaded, and the command
completes. -/
def execPlotShrink (loads : List SfuRun) (s : State) : Res :=
  .next (s.runPlot 4 [plActive, plStopped] (fun c => c.mboxClean 12) fun c p s =>
    let m := c.arg 8 4
    if Nat.land m (s.fld Fld.PLT_BLOCKS_BLOCKS p) ≠ m then s.mboxOpen stBadArg
    else
      let s := s.setFld Fld.PLT_PENDING_DRAINING p (Nat.lor (s.fld Fld.PLT_PENDING_DRAINING p) m)
      if s.blocksHeld m then s else (s.viaStore (s.freeBlocks p m loads)).mboxOpen stOk)

/-- PLOT_STOP (R369). -/
def execPlotStop (s : State) : Res :=
  .next (s.runPlot 5 [plActive] (fun c => c.mboxClean 8) fun _ p s => (s.setFld Fld.PLT_STATE_STATE p plStopped).mboxOpen stOk)

/-- PLOT_START (R360). -/
def execPlotStart (s : State) : Res :=
  .next (s.runPlot 6 [plStopped] (fun c => c.mboxClean 8) fun _ p s => (s.setFld Fld.PLT_STATE_STATE p plActive).mboxOpen stOk)

/-- Whether the plot has an accepted, unfinished task. -/
def State.plotBusy (s : State) (p : Nat) : Bool := s.tasks.any fun e => e.2.plot == p && e.2.accepted

/-- Whether an allocated frame of the plot's pools would lie outside its new pools (R364). -/
def State.framesStranded (s : State) (p : Nat) (q : Plot) : Bool :=
  s.frames.any fun e => e.2.allocated && e.2.owner == p &&
    !(List.range 4).any fun t => (q.poolRanges t).any fun r => decide (r.lo ≤ e.1) && decide (e.1 + frameBytes e.2.order ≤ r.lo + r.len)

/-- Changes a plot's windows and pools (R364): removed and added parts are cleared. -/
def State.resizePlot (s : State) (p : Nat) (old new : Plot) : State :=
  let parts := ((old.windows.zip new.windows).flatMap fun e => e.1.minus e.2 ++ e.2.minus e.1)
  let s := parts.foldl (fun s r => s.clearRange r.lo r.len) s
  let s := s.setPlot p { old with
    dramBase := new.dramBase, dramSize := new.dramSize, stackBase := new.stackBase, stackSize := new.stackSize
    coldFirst := new.coldFirst, coldCount := new.coldCount, poolDram := new.poolDram, poolStack := new.poolStack
    poolHosted := new.poolHosted }
  (List.range 4).foldl (fun s t =>
    let x := s.pool p t
    s.setPool p t { x with total := new.poolTotal t, free := new.poolTotal t - (x.total - x.free) }) s

/-- PLOT_RESIZE (R364, R441). -/
def execPlotResize (s : State) : Res :=
  .next (s.runPlot 7 [plStopped] (fun c => c.mboxClean 16) fun c p s =>
    match s.plot p with
    | none => s.mboxOpen stState
    | some old =>
      let r : PlotRecord := ⟨s.readHost (c.arg 8 8) 128⟩
      let now := s.plotRecord p old
      if r.bytes.take 8 != now.take 8 || r.bytes.drop 0x34 != now.drop 0x34 || !r.build.rangesOk || !s.segmentsValid r.build ||
          !(s.setPlot p r.build).areasOk p r.build then s.mboxOpen stBadArg
      else if s.sharesWindows p r.build then s.mboxOpen stShared
      else if s.plotBusy p || s.framesStranded p r.build then s.mboxOpen stBusy
      else (s.viaStore (s.resizePlot p old r.build)).mboxOpen stOk)

/-! ### Destruction (R369) -/

/-- Step 1: commands still in the rings, and those not yet complete, complete with STATE; scheduled writes are dropped. -/
def State.drainRing (p : Nat) : Nat → State → State
  | 0, s => s
  | f + 1, s =>
    match s.takeHead p with
    | none => s
    | some (c, s) => State.drainRing p f (s.finishOpen c.id stState)

def State.destroyStep1 (s : State) (p : Nat) : State :=
  let s := State.drainRing p 4096 s
  let s := ((s.kvmOwed.filter fun o => o.plot == p && o.result.isNone).map (·.id)).foldl (fun s id => s.finishOpen id stState) s
  { s with events := s.events.filter fun e => match e.kind with
      | .write q _ _ _ => q != p
      | _ => true }

/-- Step 2: chains, persistent streams and collective groups; operations in flight meet the common error with cause PLOT. -/
def State.destroyStep2 (s : State) (p : Nat) : State :=
  let groups := (s.colGroups.filter fun e => e.2.plot == p).map (·.1)
  let s := groups.foldl (fun s g =>
    match s.ops.find? fun x => x.op.group == g with
    | some x => s.raiseError g ccPlot x.opseq
    | none => s) s
  let chains := s.chains.filter fun (e : Nat × Chain) => e.2.plot == p
  let s : State := chains.foldl (fun (s : State) (e : Nat × Chain) =>
    ({ s.dropChainPairs e.1 (e.2.ops.flatMap OpDesc.notify) with chains := Table.del s.chains e.1 }).colStatus e.1) s
  let s := ((s.streams.filter fun e => e.2.plot == p).map (·.1)).foldl State.dropStream s
  { s with
    colGroups := s.colGroups.filter fun e => e.2.plot != p
    colIn := s.colIn.filter fun m => !groups.contains m.group
    shiftBook := s.shiftBook.filter fun e => !groups.contains (e.1 / 65536)
    groups := Table.del s.groups p }

/-- Steps 3 and 4: sequences, indexes and every frame of the plot's pools, those it holds for peers included. -/
def State.destroyStep3 (s : State) (p : Nat) : State :=
  let mine := s.seqs.filter fun e => e.1 / 65536 == p
  let s := mine.foldl (fun s e => s.destroySeq p (e.1 % 65536) e.2) s
  let s := ((s.indexes.filter fun e => e.2.plot == p)).foldl (fun s e => s.freeIndex e.1 e.2 none) s
  let s := { s with
    frames := s.frames.map fun (e : Nat × Frame) => (e.1, if e.2.owner = p then { e.2 with allocated := false, sealed := false } else e.2)
    draining := s.draining.filter fun d => d.plot != p
    journal := s.journal.filter fun j => j.plot != p
    batches := s.batches.filter fun e => e.2.plot != p
    walks := s.walks.filter fun w => w.plot != p
    signing := s.signing.filter fun j => j.plot != p }
  (List.range 4).foldl (fun s t => s.setPool p t Pool.empty) s

/-- Steps 5 and 6: blocks, counters, the event log's entries, windows, segments, budgets, weights and policy. -/
def State.destroyStep5 (s : State) (p : Nat) (q : Plot) (loads : List SfuRun) : State :=
  let s := s.freeBlocks p (s.fld Fld.PLT_BLOCKS_BLOCKS p) loads
  let s := (List.range q.ctrCount).foldl (fun s i => s.clearCounter (q.ctrFirst + i)) s
  let s := q.windows.foldl (fun s w => s.clearRange w.lo w.len) s
  let s := policyRegs.foldl (fun s e => s.setReg e.1 p 0) s
  let s := (s.setReg .PLT_STATE p 0).setReg .PLT_PENDING p 0
  { s with
    logFloor := Sparse.set (fun _ => 0) s.logFloor p s.logSeq
    plots := Table.del s.plots p
    kvmOwed := s.kvmOwed.filter fun o => o.plot != p }

/-- PLOT_DESTROY (R369). -/
def execPlotDestroy (loads : List SfuRun) (s : State) : Res :=
  .next (s.runPlot 8 [plStopped] (fun c => c.mboxClean 8) fun _ p s =>
    match s.plot p with
    | none => s.mboxOpen stState
    | some q =>
      if s.plotBusy p then s.mboxOpen stBusy
      else
        let s' := (((s.destroyStep1 p).setFld Fld.PLT_STATE_STATE p plClearing).destroyStep2 p).destroyStep3 p
        (s.viaStore (s'.destroyStep5 p q loads)).mboxOpen stOk)

/-! ### Groups (R321, R370) -/

/-- Reads a member list from host memory (notes/assumptions/33): N, then N chip numbers. -/
def State.memberList (s : State) (a : Nat) : List Nat :=
  let n := leNat (s.readHost a 2)
  (List.range n).map fun i => leNat (s.readHost (a + 2 + 2 * i) 2)

/-- Reads a site list: the number of sites, this site's index, the sites. -/
def State.siteList (s : State) (a : Nat) : Nat × Nat × List Nat :=
  let n := leNat (s.readHost a 1)
  (n, leNat (s.readHost (a + 1) 1), (List.range n).map fun i => leNat (s.readHost (a + 2 + i) 1))

/-- GROUP_SET (R173, R321, R370): a list that names a chip twice is BADARG. -/
def execGroupSet (s : State) : Res :=
  .next (s.runPlot 9 [plActive, plStopped] (fun c => c.mboxClean 32 && c.arg 9 7 == 0) fun c p s =>
    let g := c.arg 8 1
    let members := s.memberList (c.arg 16 8)
    let sites := if c.arg 24 8 = 0 then (0, 0, []) else s.siteList (c.arg 24 8)
    let self := members.findIdx (· == s.chipNo)
    if (s.colGroup g).any fun x => x.plot != p then s.mboxOpen stShared
    else if s.chains.any fun e => e.2.plot == p && e.2.ops.any fun d => d.group == g then s.mboxOpen stBusy
    else if members.isEmpty then (s.viaStore { s with colGroups := Table.del s.colGroups g }).mboxOpen stOk
    else if 8192 < members.length ∨ members.eraseDups.length ≠ members.length ∨ members.length ≤ self ∨ (c.arg 24 8 ≠ 0 ∧ (sites.1 < 2 ∨ 16 < sites.1 ∨ sites.1 ≤ sites.2.1)) then
      s.mboxOpen stBadArg
    else (s.viaStore (s.setGroup g ⟨p, members, self, 0, 0, sites.1, sites.2.1, sites.2.2, none, []⟩)).mboxOpen stOk)

/-! ### User function tables (R94, R95, R368) -/

/-- Whether a user table's header is accepted: E, NSEG and LO in range. -/
def tableOk (h : List Byte) : Bool :=
  let e := leNat ((h.drop 4).take 1)
  let lo := leNat (h.take 4)
  (decide (e ≤ 127) || decide (130 ≤ e)) && decide (leNat ((h.drop 5).take 1) ≤ 8) && bitsAt lo 23 8 != 255

/-- SFU_LOAD (R94, R95, R368); a poisoned table is recorded and answers STATE (R259; notes/assumptions/57). -/
def execSfuLoad (p : PlotIx) (s : State) : Res :=
  .next (s.runCommand p.val 0x70 (fun c => c.cleanFrom 24 && c.seqNo == 0 && c.arg 9 7 == 0 && decide (c.arg 8 1 < 4)) fun c s =>
    let a := c.arg 16 8
    let blocks := maskBlocks (s.fld Fld.PLT_BLOCKS_BLOCKS p.val)
    let h := s.loadBytes a 16
    let n := 16 + 16 * 2 ^ leNat ((h.drop 5).take 1)
    if s.ownsRange p.val a 16 = false ∨ tableOk h = false then s.finishOpen c.id stBadArg
    else if s.ownsRange p.val a n = false then s.finishOpen c.id stBadArg
    else if (s.firstPoison a n).isSome then (s.noteRead a n).finishOpen c.id stState
    else if blocks.any s.blockBusy then s.finishOpen c.id stBusy
    else match s.plot p.val with
      | none => s.finishOpen c.id stBadArg
      | some q =>
        let s := s.setPlot p.val { q with user := Table.put q.user (c.arg 8 1) (s.loadBytes a n) }
        (blocks.foldl (fun s b => s.loadTables p.val b) s).finish c.id stOk 0)

/-- SFU_UNLOAD (R368). -/
def execSfuUnload (p : PlotIx) (s : State) : Res :=
  .next (s.runCommand p.val 0x71 (fun c => c.cleanFrom 9 && c.seqNo == 0 && decide (c.arg 8 1 < 4)) fun c s =>
    let blocks := maskBlocks (s.fld Fld.PLT_BLOCKS_BLOCKS p.val)
    if blocks.any s.blockBusy then s.finishOpen c.id stBusy
    else match s.plot p.val with
      | none => s.finishOpen c.id stBadArg
      | some q =>
        let s := s.setPlot p.val { q with user := Table.del q.user (c.arg 8 1) }
        (blocks.foldl (fun s b => s.loadTables p.val b) s).finish c.id stOk 0)

end Sys2Proof.Machine
end

