-- ==== Sys2Proof/Machine/Boot.lean ====
section
/-!
DEFINITION. Start-up (R373 to R396): power-on and resets by pin, the boot NVM and its handover, the seedbed, the firmware image, and the
steps of a cold and a warm start.
-/

namespace Sys2Proof.Machine
open Sys2Proof

/-! ### States and reasons (R396) -/

def bsReset : Nat := 0
def bsRom : Nat := 1
def bsWait : Nat := 3
def bsFetch : Nat := 4
def bsFirmware : Nat := 5
def bsService : Nat := 6
def bsHeld : Nat := 7

def brFormat : Nat := 0x01
def brKey : Nat := 0x02
def brRollback : Nat := 0x03
def brSig : Nat := 0x04
def brMinCrc : Nat := 0x10
def brMainFormat : Nat := 0x11
def brMainCrc : Nat := 0x12
def brConfig : Nat := 0x13
def brForced : Nat := 0x14
def brRefCrc : Nat := 0x15
def brFloor : Nat := 0x20

def State.bootState (s : State) : Nat := s.fld Fld.BOOT_STATUS_STATE 0

def State.setBoot (s : State) (st : Nat) : State := s.setFld Fld.BOOT_STATUS_STATE 0 st

def State.bootReason (s : State) (r : Nat) : State := s.setFld Fld.BOOT_STATUS_REASON 0 r

/-! ### Regions out of service (R24) -/

/-- Takes a region out of service: its cells, units and engines with it; the plots with blocks there are told. -/
def State.regionDown (s : State) (r : Nat) : State :=
  let s := s.setBit Fld.ADM_REGION_STATE_OUT_OF_SERVICE r true
  let s := (List.range 8).foldl (fun s k =>
    (List.range 16).foldl (fun s i => s.setFld Fld.CEL_STATE_STATE (128 * r + 16 * k + i) csOut)
      (s.setFld Fld.SFU_STATUS_STATE (8 * r + k) 5)) s
  let s := (List.range 16).foldl (fun s e => s.setFld Fld.STM_STATUS_STATE (16 * r + e) 2) s
  let s := s.setFld Fld.RCL_STATUS_STATE r reOut
  (List.range 8).foldl (fun s p =>
    if bitsAt (s.fld Fld.PLT_BLOCKS_BLOCKS p) (8 * r) 8 ≠ 0 then s.logEvent p 14 3 60 r else s) s

/-- Returns a region to service; its units are loaded and tested by the reset or start that does so. -/
def State.regionBack (s : State) (r : Nat) : State :=
  let s := s.setBit Fld.ADM_REGION_STATE_OUT_OF_SERVICE r false
  let s := (List.range 128).foldl (fun s i =>
    let c := 128 * r + i
    if (s.block (blockOfCell c)).outOfService then s else s.setFld Fld.CEL_STATE_STATE c csIdle) s
  let s := (List.range 16).foldl (fun s e => (s.setFld Fld.STM_STATUS_STATE (16 * r + e) 0).engineStatus (16 * r + e)) s
  s.setFld Fld.RCL_STATUS_STATE r reIdle

/-- Loads and tests the units of a region's blocks (R99, R100). -/
def State.loadRegion (s : State) (loads : List SfuRun) (r : Nat) : State :=
  ((List.range 8).map (8 * r + ·)).foldl (fun s b => s.sfuRun loads b) s

/-- Clears the SRAM of a region (R266, R267). -/
def State.wipeRegion (s : State) (r : Nat) : State := ((List.range 8).map (8 * r + ·)).foldl State.wipeBlock s

/-! ### Beginning a start (R373, R374) -/

/-- Registers that keep their plots' values in the management pair's copies (R391). -/
def plotRegs : List Reg := [.PLT_STATE, .PLT_BLOCKS, .PLT_PENDING] ++ policyRegs.map (·.1)

/-- The plot registers as they stand. -/
def State.plotRegsNow (s : State) : List (Nat × W32) := plotRegs.flatMap fun r => (List.range 8).map fun p => (Reg.key r p, s.reg r p)

/-- Commands and requests of a plot not completed (R391). -/
def State.unfinished (s : State) (p : Nat) : Nat :=
  let ring := match s.plot p with
    | some q =>
      (q.cmdTail + 2 ^ q.kvmOrder - s.ringIx q ringCmdHead q.kvmOrder) % 2 ^ q.kvmOrder +
        (q.admTail + 2 ^ q.admOrder - s.ringIx q ringAdmHead q.admOrder) % 2 ^ q.admOrder
    | none => 0
  ring + (s.kvmOwed.filter fun o => o.plot == p && o.result.isNone).length +
    (s.tasks.filter fun e => e.2.plot == p && e.2.checking && !e.2.service).length

/-- Whether the chip is fallow (R413). -/
def State.isFallow (s : State) : Bool := s.fld Fld.SAFE_STATUS_FALLOW_REASON 0 == 1 || s.fld Fld.SAFE_STATUS_FALLOW_REASON 0 == 2

/-- What a reset by pin or a start leaves of the machine (R374): links and ports leave UP and every accepted task is lost; the always-on
domain, the memories and the books held in the firmware area stand. -/
def State.toReset (s : State) : State :=
  let kept := [Reg.BOOT_CONTROL, .PWR_GRAFT, .HUB_LOG_LOST].map fun r => (r, s.reg r 0)
  let fallow := s.isFallow
  let b := s.boot
  let regs := if b.plotRegs.isEmpty && s.bootState == bsService then s.plotRegsNow else b.plotRegs
  let lost := if b.plotRegs.isEmpty && s.bootState == bsService then (List.range 8).map fun p => (p, s.unfinished p) else b.lost
  let z : State := { State.reset with
    mem := s.mem, hostMem := s.hostMem, poison := s.poison, log := s.log, logSeq := s.logSeq, sundial := s.sundial, phase := s.phase
    clock := s.clock
    free := s.free, pending := s.pending, plots := s.plots, pools := s.pools, frames := s.frames, seqs := s.seqs
    journal := s.journal, batches := s.batches, draining := s.draining, peerHandles := s.peerHandles, moveSeq := s.moveSeq
    taskSeq := s.taskSeq, kvmOwed := s.kvmOwed, kvmSeq := s.kvmSeq, signing := s.signing, indexes := s.indexes, out := s.out
    logFloor := s.logFloor, harvest := s.harvest, harvestSeq := s.harvestSeq, domainCounts := s.domainCounts
    chipCounts := s.chipCounts, hubLost := s.hubLost, mainLost := s.mainLost, pcieLost := s.pcieLost
    phys := (s.phys.map fun (e : Nat × LinkPhy) => (e.1, { LinkPhy.off (isRack e.1) with last := e.2.last })).filter
      fun e => decide (e.2 ≠ LinkPhy.off (isRack e.1))
    boot := { b with
      nvmSince := s.clock, nvmTotal := 0, imageOk := false, seed := none, seedDone := false, powerOn := false, training := false
      region := none, plotRegs := regs, lost := lost } }
  let z := kept.foldl (fun (z : State) e => z.setReg e.1 0 e.2) z
  if fallow then (z.setFld Fld.SAFE_STATUS_STATE 0 3).setFld Fld.SAFE_STATUS_FALLOW_REASON 0 (s.fld Fld.SAFE_STATUS_FALLOW_REASON 0)
  else z

/-- The event log at C9 of a cold start: SEQNO counts from the start's own first entry (R266, R420); the harvest area is empty. -/
def State.freshLog (s : State) : State :=
  let mine := s.log.filter fun e => decide (s.boot.logFrom ≤ e.seqNo)
  { s with
    log := mine.zipIdx.map fun (e : LogEntry × Nat) => { e.1 with seqNo := e.2 }
    logSeq := mine.length, logFloor := [], harvest := [], harvestSeq := [] }.setReg .HUB_LOG_LOST 0 0

/-- The first region whose SRAM passes its self-test (R383). -/
def firstPass (pass : Nat) : Option Nat := (List.range 4).find? fun r => pass.testBit r

/-- Begins a start of a kind (R373): ROM runs, the staging region is chosen, the seedbed read begins when the NVM is free; without a region
the start stops in ROM with FLOOR. A start that is interrupted in C7 or later makes the next one cold (R392). -/
def State.beginStart (s : State) (power cold : Bool) (pass : Nat) : State :=
  let half := s.boot.training
  let served := s.boot.served && !half
  let cold := cold || half
  let s := s.toReset
  let s := { s with boot := { s.boot with powerOn := power, region := firstPass pass, served := served, logFrom := s.logSeq } }
  let s := (s.setBoot bsRom).setBit Fld.BOOT_STATUS_KIND 0 (!cold)
  let s := s.setFld Fld.BOOT_NVM_MODE 0 (bitsAt (s.fld Fld.PWR_GRAFT_STRAP 0) 0 4)
  let s := (s.setBit Fld.BOOT_NVM_OWNED 0 s.boot.nvmLow).setFld Fld.BOOT_NVM_STATE 0 (if s.boot.nvmLow then 2 else 1)
  if (firstPass pass).isNone then s.bootReason brFloor else s

/-- Latches the straps at the release of reset (R375, R446): a 1 on bit 15 acts as 0 and is logged. -/
def State.latchStraps (s : State) (straps : Nat) : State :=
  let s := s.setFld Fld.PWR_GRAFT_STRAP 0 straps
  if straps.testBit 15 then s.logEvent chipPlot 14 4 61 straps else s

/-- The kind that NEXT asks for. -/
def State.nextCold (s : State) : Bool := s.bit Fld.BOOT_CONTROL_NEXT 0

/-- POWER_ON (R373, R393, R451): PWR_SEQ_OK and HUB_PERST_N have risen; a cold start begins. `pass` says which regions' SRAM passes its
self-test. -/
def execPowerOn (straps pass : Nat) (s : State) : Res :=
  if s.boot.seqOk then .next s
  else
    let b := { Boot.off with seqOk := true, perst := true, nvmLow := s.boot.nvmLow }
    let s := { State.reset with hostMem := s.hostMem, free := s.free, pending := s.pending, out := s.out, boot := b }
    .next (((s.setFld Fld.PWR_GRAFT_STRAP 0 straps).beginStart true true pass).latchStraps straps)

/-- Loss of power (R452): everything is lost but what lies outside the chip. -/
def State.powerLost (s : State) (b : Boot) : State :=
  { State.reset with hostMem := s.hostMem, free := s.free, pending := s.pending, out := s.out, boot := { b with nvmLow := s.boot.nvmLow } }

/-- PWR_SEQ_OK_FALL (R452). -/
def execPwrSeqOkFall (s : State) : Res :=
  if !s.boot.seqOk then .next s else .next (s.powerLost { Boot.off with tripped := s.boot.tripped, perst := s.boot.perst })

/-- PERST_ASSERT (R444, R452): the device is in reset and its pins high-impedance until the next fault summary. -/
def execPerstAssert (s : State) : Res :=
  if !s.boot.seqOk || !s.boot.perst || s.boot.tripped then .next s
  else
    let half := s.boot.training
    let s := s.toReset
    .next { s with boot := { s.boot with perst := false, outputs := false, training := half } }

/-- PERST_RELEASE (R373, R375): the straps are latched and a start of kind NEXT begins. -/
def execPerstRelease (straps pass : Nat) (s : State) : Res :=
  if !s.boot.seqOk || s.boot.perst || s.boot.tripped then .next s
  else
    let s := { s with boot := { s.boot with perst := true } }
    let s := s.setFld Fld.PWR_GRAFT_STRAP 0 straps
    .next ((s.beginStart false s.nextCold pass).latchStraps straps)

/-- Whether the host reaches the chip: reset is released and PCIe answers. -/
def State.reachable (s : State) : Bool := s.boot.seqOk && s.boot.perst && !s.boot.tripped && s.pcieGen != 0 && !s.pcieLost

/-- Whether a pair runs in machine mode, the secure mode (R26, R27). -/
def State.secure (s : State) (k : Nat) : Bool := (s.harts[k]?).any fun h => h.mode == .machine

/-- Whether an agent's access arrives: the host's needs PCIe, a pair's in secure mode that the pair runs in it. -/
def State.arrives (s : State) (a : Agent) : Bool :=
  match a with
  | .pf0 | .vf _ => s.reachable
  | .mgmt => s.boot.seqOk && !s.halted.contains 0 && s.secure 0
  | .service => s.boot.seqOk && !s.halted.contains 1 && s.secure 1
  | .coreOther => s.boot.seqOk

/-- A write of RESTART (R373, R396). -/
def State.restart (s : State) (pass : Nat) : State := s.beginStart false s.nextCold pass

/-- BOOT_RESTART: a write of 1 begins a start of kind NEXT. -/
def execBootRestart (a : Agent) (pass : Nat) (s : State) : Res :=
  if !s.arrives a || !s.privOk a then .next s else .next (s.restart pass)

/-- PCIE_TRAINED (R250, R388 step C4): at 4.0 to 6.0 and any width; in ROM the state becomes WAIT_IMAGE. -/
def execPcieTrained (gen lanes : Nat) (s : State) : Res :=
  if !s.boot.seqOk || !s.boot.perst || s.boot.tripped || s.pcieLost || decide (gen < 4) || decide (6 < gen) || decide (lanes = 0) || decide (16 < lanes) then
    .next s
  else
    let s := { s with pcieGen := gen, pcieLanes := lanes }
    if s.bootState = bsRom ∧ s.boot.region.isSome = true then .next (s.setBoot bsWait) else .next s

/-! ### The firmware image (R384, R385) -/

/-- Where the image is staged: the staging region's scratchpads from its first cell on (R383). -/
def imageBase (r : Nat) : Nat := spadBase (128 * r)

/-- Whether the range of the image registers is one that GO takes (R396). -/
def State.imageRangeOk (s : State) : Bool :=
  let n := (s.reg .BOOT_IMAGE_SIZE 0).toNat
  n % 4096 == 0 && decide (4096 ≤ n) && decide (n ≤ 134217728) && (s.reg .BOOT_IMAGE_LOW 0).toNat % 4096 == 0

/-- A write of GO (R385): in WAIT_IMAGE the image is fetched from host memory into the staging region; during a fetch it is ignored and
logged. -/
def State.bootGo (s : State) : State :=
  if s.bootState = bsFetch then s.logIgnored chipPlot 14 (Reg.offset .BOOT_CONTROL)
  else if s.bootState ≠ bsWait then s
  else if !s.imageRangeOk then s.bootReason brFormat
  else match s.boot.region with
    | none => s
    | some r =>
      let a := (s.reg .BOOT_IMAGE_LOW 0).toNat + 2 ^ 32 * (s.reg .BOOT_IMAGE_HIGH 0).toNat
      let n := (s.reg .BOOT_IMAGE_SIZE 0).toNat
      { (s.writeBytes (imageBase r) (s.readHost a n)).setBoot bsFetch with boot := { s.boot with imageOk := false } }

/-- BOOT_GO. -/
def execBootGo (a : Agent) (s : State) : Res := if !s.arrives a || !s.privOk a then .next s else .next s.bootGo

/-- Bytes `lo` to `hi` of a byte string. -/
def slice (bs : List Byte) (lo hi : Nat) : List Byte := (bs.drop lo).take (hi + 1 - lo)

def allZero (bs : List Byte) : Bool := bs.all (· == 0)

/-- The ASCII codes of a MAGIC. -/
def ascii (t : String) : List Byte := t.toList.map fun c => BitVec.ofNat 8 c.toNat

/-- The image with SIGNATURE read as zeros. -/
def unsigned (im : List Byte) : List Byte := im.take 0x200 ++ List.replicate 96 0 ++ im.drop 0x260

/-- The reason for which an image is refused, or none (R385): in the order of the list. -/
def imageRefused (im : List Byte) (size : Nat) : Option Nat :=
  let h := im.take 4096
  let key := leNat (slice h 0x0B 0x0B)
  let pub := slice h 0x100 0x160
  if slice h 0 7 != ascii "CLH1AFW0" || leNat (slice h 8 8) != 1 || leNat (slice h 0x10 0x13) != size || !allZero (slice h 0x28 0xFF) ||
      !allZero (slice h 0x161 0x1FF) || !allZero (slice h 0x260 0xFFF) then some brFormat
  else if 3 < key ∨ Config.sha384 pub ≠ Config.fuseKey key ∨ Config.fuseRevoked key = true then some brKey
  else if leNat (slice h 0x0C 0x0F) < Config.fuseMinSvn then some brRollback
  else if Config.ecdsaVerify pub (Config.sha384 (unsigned im)) (slice h 0x200 0x25F) then none
  else some brSig

/-- IMAGE_VERIFIED (R385): a refused image clears the staging scratchpads, records its reason and returns to WAIT_IMAGE. -/
def execImageVerified (s : State) : Res :=
  match s.boot.region with
  | none => .next s
  | some r =>
    if s.bootState ≠ bsFetch ∨ s.boot.imageOk = true then .next s
    else
      let n := (s.reg .BOOT_IMAGE_SIZE 0).toNat
      let im := s.readBytes (imageBase r) n
      match imageRefused im n with
      | some k => .next (((s.clearRange (imageBase r) (128 * spadSize)).bootReason k).setBoot bsWait)
      | none => .next { s with boot := { s.boot with imageOk := true, image := im, digest := some (Config.sha384 (unsigned im)) } }

/-! ### The boot NVM (R377) -/

/-- Nanoseconds for which NVM_OWN_N has been low in this start. -/
def State.nvmHeld (s : State) : Nat := s.boot.nvmTotal + (if s.boot.nvmLow then s.clock - s.boot.nvmSince else 0)

/-- NVM_OWN_FALL: the controller owns the NVM; a read under way stops once its command has ended. -/
def execNvmOwnFall (s : State) : Res :=
  if s.boot.nvmLow then .next s
  else
    let s := { s with boot := { s.boot with nvmLow := true, nvmSince := s.clock } }
    if !s.boot.seqOk then .next s
    else
      let s := s.setBit Fld.BOOT_NVM_OWNED 0 true
      .next (if s.fld Fld.BOOT_NVM_STATE 0 = 1 then s.setFld Fld.BOOT_NVM_STATE 0 2 else s)

/-- NVM_OWN_RISE: the whole seedbed read restarts and WAITS steps. -/
def execNvmOwnRise (s : State) : Res :=
  if !s.boot.nvmLow then .next s
  else
    let s := { s with boot := { s.boot with nvmLow := false, nvmTotal := s.nvmHeld } }
    if !s.boot.seqOk then .next s
    else
      let s := s.setBit Fld.BOOT_NVM_OWNED 0 false
      .next (if s.fld Fld.BOOT_NVM_STATE 0 = 2 then (s.setFld Fld.BOOT_NVM_STATE 0 1).addSat Fld.BOOT_NVM_WAITS 0 1 else s)

/-- NVM_WAIT_EXPIRY: low for a total of 5 s over one start; the start goes on with no seedbed. -/
def execNvmWaitExpiry (s : State) : Res :=
  if s.fld Fld.BOOT_NVM_STATE 0 ≠ 2 ∨ s.nvmHeld < 5000000000 then .next s
  else .next { s.setFld Fld.BOOT_NVM_STATE 0 4 with boot := { s.boot with seedDone := true, seed := none } }

/-! ### The seedbed (R378 to R382, R419) -/

/-- A safety limit block, if its CRC and its ranges hold (R419). -/
def safetyOf (b : List Byte) : Option SafetyLimits :=
  let g (lo hi : Nat) : Nat := leNat (slice b lo hi)
  let x : SafetyLimits := ⟨(g 1 1).testBit 0, g 2 2, g 4 7, g 8 8, g 9 9, g 10 10⟩
  if b.length == 64 && g 0 0 == 1 && decide (g 1 1 < 2) && decide (1 ≤ x.replayMax) && decide (x.replayMax ≤ 16) && g 3 3 == 0 &&
      decide (1000000 ≤ x.budget) && decide (x.budget ≤ 100000000) && decide (60 ≤ x.warn) && decide (x.warn ≤ 105) &&
      decide (x.warn < x.throttle) && decide (x.throttle ≤ 110) && decide (x.throttle < x.trip) && decide (x.trip ≤ 115) &&
      allZero (slice b 0x0B 0x3B) && g 0x3C 0x3F == crc32c (b.take 0x3C) then some x
  else none

/-- Whether a copy of the minimal section is usable (R378, R419). -/
def copyUsable (b : List Byte) : Bool :=
  b.length == 4096 && slice b 0 7 == ascii "SEEDBED1" && leNat (slice b 0xFFC 0xFFF) == crc32c (b.take 0xFFC) &&
    (safetyOf (slice b 0x40 0x7F)).isSome

/-- The minimal section in use: the first usable copy. -/
def SeedbedImage.minimal (i : SeedbedImage) : Option (List Byte) := [i.copy0, i.copy1].find? copyUsable

/-- Entry `k` of the main section's directory (R379): TYPE, SFLAGS, OFFSET, LENGTH, CRC. -/
structure DirEntry where
  typ : Nat
  flags : Nat
  off : Nat
  len : Nat
  crc : Nat
  deriving DecidableEq, Repr

def SeedbedImage.dir (i : SeedbedImage) : List DirEntry :=
  (List.range (leNat (slice i.main 0x0A 0x0B))).map fun k =>
    let e := (i.main.drop (64 + 16 * k)).take 16
    ⟨leNat (slice e 0 1), leNat (slice e 2 3), leNat (slice e 4 7), leNat (slice e 8 11), leNat (slice e 12 15)⟩

/-- Bytes of the section of a type, if there is one. -/
def SeedbedImage.sec (i : SeedbedImage) (t : Nat) : Option (List Byte) :=
  (i.dir.find? fun e => e.typ == t).map fun e => (i.main.drop e.off).take e.len

/-- The configuration hash (R382). -/
def SeedbedImage.hash (i : SeedbedImage) : Nat := crc32c ((i.sec 3).getD [] ++ (i.sec 4).getD [])

/-- FORMAT_MAJOR supported by a firmware level: 1 by level 3 (R381); by others as the release says. -/
def supportsFormat (major format : Nat) : Bool := if major = 3 then format == 1 else Config.formatSupported major format

/-- Why the main section is not readable, or none (R381, R419). -/
def SeedbedImage.unreadable (i : SeedbedImage) (min : List Byte) (major : Nat) : Option Nat :=
  let off := leNat (slice min 8 0xB)
  let len := leNat (slice min 0xC 0xF)
  let dir := i.dir
  if off % 4096 ≠ 0 ∨ off < 0x2000 ∨ 62914560 < len ∨ i.main.length ≠ len ∨ crc32c i.main ≠ leNat (slice min 0x10 0x13) then some brMainCrc
  else if slice i.main 0 7 != ascii "SEEDMAIN" || !supportsFormat major (leNat (slice i.main 8 8)) then some brMainFormat
  else if dir.isEmpty || decide (64 < dir.length) || decide (len < 64 + 16 * dir.length) then some brMainCrc
  else if dir.any fun e => e.off % 64 != 0 || decide (len < e.off + e.len) || crc32c ((i.main.drop e.off).take e.len) != e.crc then
    some brMainCrc
  else if (dir.map (·.typ)).eraseDups.length != dir.length || [1, 2, 3, 5].any (fun t => (i.sec t).isNone) ||
      dir.any fun e => (e.typ == 0 || decide (7 < e.typ)) && !e.flags.testBit 0 then some brMainFormat
  else if (safetyOf ((i.sec 2).getD [])).isNone || ((i.sec 5).getD []).length % 128 != 0 || decide (1024 < ((i.sec 5).getD []).length) ||
      ((i.sec 6).getD []).length % 64 != 0 || decide (16384 < ((i.sec 6).getD []).length) then some brMainCrc
  else if i.hash ≠ leNat (slice min 0x14 0x17) then some brConfig
  else none

/-- SEEDBED_READ_DONE (R377, R378, R383): the read ends; the minimal section in use and the main section are staged in the block memories of
the staging region. -/
def execSeedbedReadDone (img : SeedbedImage) (s : State) : Res :=
  match s.boot.region with
  | none => .next s
  | some r =>
    if s.fld Fld.BOOT_NVM_STATE 0 ≠ 1 then .next s
    else
      let s := s.writeBytes (blockBase (8 * r)) ((img.minimal.getD []) ++ (if img.minimal.isSome then img.main else []))
      .next { s.setFld Fld.BOOT_NVM_STATE 0 3 with boot := { s.boot with seedDone := true, seed := some img } }

/-! ### The firmware's entry (R386, R390, R394) -/

/-- HELD with a reason (R395): no admission; the fault summary is written. -/
def State.hold (s : State) (reason : Nat) : State :=
  let s := ((s.bootReason reason).setBoot bsHeld).setBit Fld.ADM_POLICY_STOPPED 0 true
  { s.logEvent chipPlot 14 3 62 reason with boot := { s.boot with outputs := true, training := false, served := false, plotRegs := [] } }

/-- A requested warm start runs as cold (R390). -/
def State.demote (s : State) : State := (s.setBit Fld.BOOT_STATUS_KIND 0 false).setBit Fld.BOOT_STATUS_DEMOTED 0 true

/-- Forgets what the stacks' copies recorded: a cold start clears it. -/
def State.dropRetained (s : State) : State :=
  { s with plots := [], pools := [], frames := [], seqs := [], journal := [], batches := [], draining := [], peerHandles := []
           kvmOwed := [], signing := [], indexes := [], walks := [], taskSeq := 0
           boot := { s.boot with plotRegs := [], lost := [], kept := none } }

/-- The ROM enters the image in machine mode (R27, R386): ENTRY on the management pair, SERVICE on the service pair; `base` is where it
lies. -/
def State.enterImage (s : State) (base : Nat) (im : List Byte) : State :=
  { s with harts := [Hart.enter (base + leNat (slice im 0x14 0x17)), Hart.enter (base + leNat (slice im 0x18 0x1B))] }

/-- FIRMWARE_ENTRY (R386, R390, R394): once image and seedbed are done. Without a usable minimal section the chip is HELD; sparse service is
chosen where it is forced or the main section is not readable; the retained state's conditions are judged. `copyOk` says whether the
management pair's copy passes its CRC-32C. -/
def execFirmwareEntry (copyOk : Bool) (s : State) : Res :=
  if s.bootState ≠ bsFetch ∨ s.boot.imageOk = false ∨ s.boot.seedDone = false then .next s
  else
    let im := s.boot.image
    let major := leNat (slice im 9 9)
    let s := (s.setBoot bsFirmware).setFld Fld.BOOT_STATUS_MAJOR 0 major
    let s := (s.setFld Fld.BOOT_STATUS_MINOR 0 (leNat (slice im 10 10))).enterImage (imageBase (s.boot.region.getD 0)) im
    match s.boot.seed.bind fun i => i.minimal.map fun m => (i, m) with
    | none => .next (s.hold brMinCrc)
    | some (i, m) =>
      let bad := if s.bit Fld.BOOT_CONTROL_FORCE_SPARSE 0 then some brForced else i.unreadable m major
      let s := match bad with
        | some r => ((s.setBit Fld.BOOT_STATUS_SPARSE 0 true).bootReason r).logEvent chipPlot 14 3 63 r
        | none => s
      let retained := copyOk && s.boot.served && s.boot.kept == some (major, leNat (slice m 0x10 0x13)) && bad.isNone
      let s := if s.bit Fld.BOOT_STATUS_KIND 0 && !retained then s.demote else s
      .next { s with boot := { s.boot with training := true } }

/-! ### Memory and configuration (R388, R389, R391, R394) -/

/-- Undoes an open commit (R159): BOUND stays, a local tray goes to EMPTY, a lead is answered, the command completes with STATE. -/
def State.undoCommit (s : State) (p n : Nat) : State :=
  match s.seq p n with
  | none => s
  | some q => match q.commit with
    | some k => s.dropCommit p n q k stState
    | none => s

/-- The recovery of an open commit (R159): re-run from its source with the same offset and count where the source is intact and BOUND has
not moved, rolled back otherwise. -/
def State.recoverCommit (s : State) (p n : Nat) : State :=
  match s.seq p n with
  | none => s
  | some q => match q.commit with
    | none => s.takeHeld p n
    | some k =>
      if k.pointed then s
      else if k.tail.isNone && s.sourceIntact p k && q.bound == k.first then s.runScatter p n q k
      else s.undoCommit p n

/-- The recovery of every open commit. -/
def State.recoverCommits (s : State) : State := s.seqs.foldl (fun s e => s.recoverCommit (e.1 / 65536) (e.1 % 65536)) s

/-- Whether a sequence held state in bonded DRAM (R391): a page of TIER 0, a seed tray or a global area. -/
def State.hadDram (s : State) (q : Seqn) : Bool :=
  q.tray.isSome || q.garea.isSome || (List.range (vpages q)).any fun v => (s.pte q v).valid && (s.pte q v).tier == 0

/-- Whether the source of a commit lay in bonded DRAM of this chip: its tray, or a staging buffer there. -/
def Commit.fromDram (c : Commit) : Bool :=
  match c.handle with
  | some h => hTier h == 0
  | none => c.lead.isNone

/-- W1 for a sequence (R391): LOST where bonded DRAM held part of it; a commit whose source lay there rolls back, a forwarded one is taken
no more. -/
def State.restoreSeq (s : State) (k : Nat) (q : Seqn) : State :=
  let q := { q with lost := q.lost || s.hadDram q, held := [] }
  let s := { s with seqs := Table.put s.seqs k q }
  if q.commit.any Commit.fromDram then s.undoCommit (k / 65536) (k % 65536) else s.recoverCommit (k / 65536) (k % 65536)

/-- Whether the destination of an open entry can have been sealed: on this chip its record reads, on a peer it is asked (R171, R418). -/
def State.recoverEntry (s : State) (j : Journal) : State :=
  match j.dst with
  | none => s.rollBack j.id
  | some a =>
    if j.dstTier = 2 then
      let h := (Table.get s.peerHandles (j.dstChip * 2 ^ 48 + a)).getD 0
      let s := s.putJournal { j with step := 5, sent := some s.clock }
      s.sendHost .hostQuery j.plot j.dstChip j.id (leBytes 8 h ++ leBytes 1 j.plot)
    else match Table.get s.frames a with
      | some f =>
        if f.sealed && f.epoch == (j.epoch + 1) % 2 ^ 32 then match s.seq j.plot j.seqNo with
          | some q => s.commitMove j q a
          | none => s.rollBack j.id
        else s.rollBack j.id
      | none => s.rollBack j.id

/-- Recovery of the journal (R171, R418): pages of a batch never started stay, open hosted frames of peers are freed. -/
def State.recoverJournal (s : State) : State :=
  let s := { s with batches := s.batches.map fun (e : Nat × Batch) =>
    let open' := (s.journal.filter fun (j : Journal) => j.batch == some e.1).length
    (e.1, { e.2 with count := e.2.closed + open' }) }
  let idle := s.batches.filter fun (e : Nat × Batch) => e.2.closed == e.2.count
  let s := idle.foldl (fun (s : State) (e : Nat × Batch) => s.endMoves e.1 e.2) s
  let s := s.batches.foldl (fun (s : State) (e : Nat × Batch) => s.showBatch e.2 mgRecovering) s
  let orphans := s.frames.filter fun (e : Nat × Frame) => e.2.allocated && e.2.use == useHosted && !e.2.sealed
  let s : State := orphans.foldl (fun (s : State) (e : Nat × Frame) => s.freeFrame e.1) s
  (s.journal).foldl State.recoverEntry s

/-- Recovery of retrieval (R217, R222): the manager's appends are replayed. -/
def State.recoverSigning (s : State) : State := { s with signing := s.signing.map fun j => { j with replay := true } }

/-- Index swaps that a start found armed are armed again (R206, R222, R279). -/
def State.rearmSwaps (s : State) : State :=
  s.indexes.foldl (fun (s : State) (e : Nat × Index) => match e.2.swap with
    | some (tick, _) => { s with
        events := s.events ++ [⟨tick, s.eventSeq, .indexSwap e.2.plot e.1, none⟩], eventSeq := s.eventSeq + 1 }
    | none => s) s

/-- W1 (R390, R391): the plots of the management pair's copies, their rings empty, sequences, journals, commits and indexes. -/
def State.warmRestore (s : State) : State :=
  let s := s.boot.plotRegs.foldl (fun (s : State) e => { s with regs := Sparse.set regReset s.regs e.1 e.2 }) s
  let s := { s with plots := s.plots.map fun (e : Nat × Plot) => (e.1, { e.2 with cmdTail := 0, admTail := 0 }), kvmOwed := [] }
  let s := (s.boot.lost.filter fun e => (s.plot e.1).isSome).foldl (fun s e => s.logEvent e.1 14 1 64 e.2) s
  let s := s.dressPlots
  let s := s.seqs.foldl (fun s e => s.restoreSeq e.1 e.2) s
  let s := s.recoverJournal.recoverSigning.rearmSwaps
  s.setBit Fld.BOOT_STATUS_RETAINED 0 true

/-- A peer entry from its 64 bytes, where its VALID bit is set (R345). -/
def peerOf (b : List Byte) : Option Peer :=
  let g (lo hi : Nat) : Nat := leNat (slice b lo hi)
  if (g 0 0).testBit 0 then
    some ⟨(g 0 0).testBit 1, (g 0 0).testBit 2, g 1 1, g 2 2, g 3 3, g 4 5, g 6 7, g 8 0x17, g 0x18 0x1D, g 0x1E 0x1F, g 0x20 0x20,
      g 0x22 0x25⟩
  else none

/-- Whether every block and window of a record lies in regions in service (R388, R395). -/
def State.regionsServe (s : State) (r : PlotRecord) : Bool :=
  let q := r.build
  (maskBlocks r.blocks).all (fun b => !s.regionOut (b / 8)) &&
    (List.range 4).all fun k => !s.regionOut k || (q.dramSize.getD k 0 == 0 && q.stackSize.getD k 0 == 0)

/-- Creates a plot from a record as by PLOT_CREATE, or logs why it stays FREE (R388). -/
def State.plotFromRecord (s : State) (r : PlotRecord) : State :=
  let p := r.plot
  if decide (p < 8) && s.fld Fld.PLT_STATE_STATE p == plFree && s.regionsServe r && s.recordOk p r && !s.sharesWindows p r.build &&
      !(maskBlocks r.blocks).any fun b => (s.ownerOfBlock b).isSome then s.makePlot p r true
  else s.logEvent p 14 3 65 p

/-- Policy of a section (C13): GUARD, DROOP_MARGIN, POWER_RESERVE, region caps. -/
def State.applyPolicy (s : State) (guard droop reserve : Nat) (caps : List Nat) : State :=
  let s := s.setFld Fld.SDL_STATUS_GUARD 0 guard
  let s := (s.setFld Fld.ADM_POLICY_DROOP_MARGIN 0 droop).setFld Fld.ADM_POLICY_POWER_RESERVE 0 reserve
  (List.range 4).foldl (fun s r => s.setFld Fld.PWR_REGION_CAP_CAP r (caps.getD r 0)) s

/-- Settings of the minimal section (R394). -/
def State.applyMinimal (s : State) (m : List Byte) : State :=
  let g (lo hi : Nat) : Nat := leNat (slice m lo hi)
  let s := s.applyPolicy (g 0x24 0x24) (g 0x25 0x25) (g 0x26 0x26) ((List.range 4).map fun r => g (0x1C + 2 * r) (0x1D + 2 * r))
  { s with
    rootChip := g 0x18 0x19, defaultRack := g 0x1A 0x1A, ptpUse := false, configHash := g 0x14 0x17
    safety := (safetyOf (slice m 0x40 0x7F)).getD s.safety }

/-- Settings of the main section beside its plots (R380, C13). -/
def State.applyMain (s : State) (i : SeedbedImage) : State :=
  let s := s.applyPolicy i.guard i.droop i.reserve i.caps
  let s := { s with
    rootChip := i.root, defaultRack := i.rack, ptpUse := i.ptp, ptpPort := i.ptpPort, ptpDomain := i.ptpDomain, configHash := i.hash
    safety := (safetyOf ((i.sec 2).getD [])).getD s.safety, hall := i.hall, syncMap := i.sync, linkMap := (i.sec 3).getD []
    colGroups := i.groups.foldl (fun t g =>
      Table.put t (g.number % 256) ⟨g.plot, g.members, g.self, 0, 0, g.sites.length, g.site, g.sites, none, []⟩) []
    peers := (List.range 256).filterMap fun k => (peerOf ((((i.sec 6).getD []).drop (64 * k)).take 64)).map fun x => (k, x)
    portAddr := i.ports.map fun x => (x.addr6, x.mac, x.udp) }
  (List.range 2).foldl (fun s q =>
    (s.setFld Fld.FLD_CONTROL_MODE q ((i.ports[q]?).elim 0 fun x => x.mode)).retrainPort q) s

/-- The units that R395 asks of sparse and of full service. -/
def State.floorMet (s : State) (m : List Byte) : Bool :=
  (List.range 4).any (fun r => !s.regionOut r && (List.range 8).any fun k => s.fld Fld.SFU_STATUS_STATE (8 * r + k) == 3) &&
    (!(leNat (slice m 0x1B 0x1B)).testBit 0 || s.regionsServe ⟨slice m 0x80 0xFF⟩)

/-- Records an attempt on a locked field (R434, R442): HUB_LOCK_VIOL and the event log. -/
def State.lockViol (s : State) (a : Agent) (off : Nat) : State :=
  let who := match a with
    | .mgmt => 0
    | .service | .coreOther => 2 ^ 28
    | .pf0 => 2 * 2 ^ 28
    | .vf p => 3 * 2 ^ 28 + p.val * 2 ^ 25
  (s.recordInfo .HUB_LOCK_VIOL 0 (who + off / 4 % 2 ^ 25)).logEvent chipPlot 13 4 2 off

/-- A write of HUB_CONFIG_REF (R434, R439): the first locks it. -/
def State.writeRef (s : State) (a : Agent) (v : W32) : State :=
  if s.bit Fld.HUB_CONFIG_STATUS_COMMITTED 0 then s.lockViol a (Reg.offset .HUB_CONFIG_REF)
  else (s.setReg .HUB_CONFIG_REF 0 v).setBit Fld.HUB_CONFIG_STATUS_COMMITTED 0 true

/-- The first complete running CRC against its reference (R386, R439): equal, it is committed and SERVICE begins; else HELD. -/
def State.commitConfig (s : State) (ref kept : Nat) : State :=
  let crc := s.storeCrc
  let s := s.setReg .HUB_CONFIG_CRC 0 (BitVec.ofNat 32 crc)
  if crc ≠ ref then s.hold brRefCrc
  else
    let s := s.writeRef .mgmt (BitVec.ofNat 32 crc)
    let s := ((s.setBoot bsService).setFld Fld.KVM_STATUS_STATE 0 1).setFld Fld.PWR_STATE_STATE 0 1
    { s with boot := { s.boot with
        outputs := true, training := false, served := true, kept := some (s.fld Fld.BOOT_STATUS_MAJOR 0, kept), plotRegs := [], lost := []
        copies := (List.range 4).foldl (fun a r => if s.regionOut r then a else a + 2 ^ r) 0 } }

/-- The steps from C9 on. -/
def State.finishStart (s : State) (i : SeedbedImage) (m : List Byte) (failed : Nat) (loads : List SfuRun) : State :=
  let warm := s.bit Fld.BOOT_STATUS_KIND 0
  let sparse := s.bit Fld.BOOT_STATUS_SPARSE 0
  let regions := List.range 4
  -- C9: the memories are cleared; what bonded DRAM held is judged first, while it stands (R391)
  let s := if warm then { s with seqs := s.seqs.map fun (e : Nat × Seqn) => (e.1, { e.2 with lost := e.2.lost || s.hadDram e.2 }) }
    else { s.freshLog.dropRetained with mem := [], poison := [] }
  let s := regions.foldl (fun s r => (s.wipeRegion r).clearRange (dramBase r) 0x400000000) s
  let s := (regions.filter fun r => failed.testBit r).foldl State.regionDown s
  -- C10
  let s := (regions.filter fun r => !failed.testBit r).foldl (fun s r => s.loadRegion loads r) s
  let s := if warm then s.warmRestore else s
  if !s.floorMet m then s.hold brFloor
  else
    let s := if sparse then s.applyMinimal m else s.applyMain i
    let records : List PlotRecord := if sparse then (if (leNat (slice m 0x1B 0x1B)).testBit 0 then [⟨slice m 0x80 0xFF⟩] else [])
      else (List.range (((i.sec 5).getD []).length / 128)).map fun k => ⟨(((i.sec 5).getD []).drop (128 * k)).take 128⟩
    let s := if warm then s else records.foldl State.plotFromRecord s
    -- C11: discovery begins; coordinates may already stand
    let s := { s with discovering := true }
    let ref := if sparse then leNat (slice m 0x28 0x2B) else leNat (slice i.main 0xC 0xF)
    s.commitConfig ref (leNat (slice m 0x10 0x13))

/-- The regions that are lost with the memory (R253): bit r of `failed`, or a stack of the region: bit k of `stackBits` is stack k. -/
def lostRegions (failed stackBits : Nat) : Nat :=
  ((List.range 4).map fun r =>
    (failed.testBit r || (List.range 16).any fun k => stackBits.testBit k && regionOfStack k == r).toNat * 2 ^ r).sum

/-- MEMORY_TRAINING_DONE (R253, R388 to R395): C7 ends; bit r of `failed` says that region r failed its training or its check, bit k of
`stackBits` that stack k did. A warm start with a failed check is demoted and trains in full; otherwise the steps from C9 to C14 follow, with
`loads` the units' tests. -/
def execMemoryTrainingDone (failed stackBits : Nat) (loads : List SfuRun) (s : State) : Res :=
  if s.bootState ≠ bsFirmware ∨ s.boot.training = false then .next s
  else match s.boot.seed.bind fun i => i.minimal.map fun m => (i, m) with
    | none => .next s
    | some (i, m) =>
      if s.bit Fld.BOOT_STATUS_KIND 0 && lostRegions failed stackBits != 0 then .next s.demote
      else .next (s.finishStart i m (lostRegions failed stackBits) loads)

/-! ### The start value (R393) -/

/-- Writes BOOT_SUNDIAL_HIGH and arms the value. -/
def State.armSundial (s : State) (v : W32) : State :=
  let s := s.setReg .BOOT_SUNDIAL_HIGH 0 v
  { s with boot := { s.boot with armed := some ((s.reg .BOOT_SUNDIAL_LOW 0).toNat + 2 ^ 32 * v.toNat, s.clock) } }

/-- BOOT_SUNDIAL_HIGH. -/
def execBootSundialHigh (a : Agent) (v : W32) (s : State) : Res :=
  if !s.arrives a || !s.privOk a then .next s else .next (s.armSundial v)

end Sys2Proof.Machine
end

