-- ==== Sys2Proof/Machine/Resets.lean ====
section
/-!
DEFINITION. Resets of the domains (R22 to R24, R399 to R418, R458): the sequence of a reset, harvest, replay of suspects, escalation,
and the watch of the host.
-/

namespace Sys2Proof.Machine
open Sys2Proof

/-! ### Domains (R402) -/

/-- Whether domain (level, number) encloses another. -/
def encloses (l i l' i' : Nat) : Bool :=
  decide (l' < l) && (if l = 4 then true else if l = 3 then (if l' = 2 then i' / 8 == i else i' / 128 == i) else i' / 16 == i)

/-- Cells of a domain, ascending. -/
def domainCells (l i : Nat) : List Nat :=
  if l = 1 then [i] else if l = 2 then (List.range 16).map (16 * i + ·) else if l = 3 then (List.range 128).map (128 * i + ·) else List.range 512

/-- Blocks of a domain: whole ones. -/
def domainBlocks (l i : Nat) : List Nat :=
  if l = 2 then [i] else if l = 3 then (List.range 8).map (8 * i + ·) else if l = 4 then List.range 32 else []

/-- Regions of a domain: whole ones. -/
def domainRegions (l i : Nat) : List Nat := if l = 3 then [i] else if l = 4 then List.range 4 else []

/-- The regions whose harvest area a domain's cells use. -/
def harvestRegions (l i : Nat) : List Nat := if l = 1 then [i / 128] else if l = 2 then [i / 8] else domainRegions l i

/-- The tag of a domain (R402). -/
def tagOf (l : Nat) : Fld :=
  if l = 1 then Fld.CEL_STATE_GENERATION else if l = 2 then Fld.BLK_GENERATION_TAG else if l = 3 then Fld.RGN_GENERATION_TAG
  else Fld.HUB_GENERATION_TAG

/-- Number of a domain's tag: the chip has one. -/
def tagIx (l i : Nat) : Nat := if l = 4 then 0 else i

/-- Steps the tag of a domain and of every domain nested in it. -/
def State.stepTags (s : State) (l i : Nat) : State :=
  let s := (domainCells l i).foldl (fun s c => s.stepFld Fld.CEL_STATE_GENERATION c) s
  let s := (domainBlocks l i).foldl (fun s b => s.stepFld Fld.BLK_GENERATION_TAG b) s
  let s := (domainRegions l i).foldl (fun s r => s.stepFld Fld.RGN_GENERATION_TAG r) s
  if l = 4 then s.stepFld Fld.HUB_GENERATION_TAG 0 else s

/-! ### Which reset runs (R23) -/

/-- Whether two requests fall within the same 1 µs of local time. -/
def ResetReq.within (q e : ResetReq) : Bool := decide (e.asked < q.asked + 1000) && decide (q.asked < e.asked + 1000)

/-- The request to run: the oldest, or the outermost requested for an enclosing domain within 1 µs. -/
def outermost (l : List ResetReq) : Nat → ResetReq → ResetReq
  | 0, q => q
  | f + 1, q =>
    match l.find? fun e => encloses e.level e.index q.level q.index && q.within e with
    | some e => outermost l f e
    | none => q

/-- Requests that a reset takes in: those for nested domains within the same 1 µs. -/
def ResetReq.takesIn (q e : ResetReq) : Bool := encloses q.level q.index e.level e.index && q.within e

/-- Whether a reset under way takes a request in: its domain is resetting, itself or within one that is. -/
def ResetReq.holds (q e : ResetReq) : Bool :=
  (q.level == e.level && q.index == e.index) || encloses q.level q.index e.level e.index

/-- Records the requests of inner domains that did not run (R23). -/
def State.logInner (s : State) (l : List ResetReq) : State :=
  l.foldl (fun s e => s.logEvent chipPlot 14 1 66 (e.level * 2 ^ 24 + e.cause * 2 ^ 16 + e.index)) s

/-- Resets under way: one that waits for the hub PLL, one in replay. -/
def State.resetsUnderWay (s : State) : List ResetReq := s.chipWait.toList ++ (s.replay.map (·.req)).toList

/-- Takes out the requests that a reset under way holds, and those of inner domains asked for within 1 µs of one that has run; the inner
ones are recorded (R23). -/
def State.mergeResets (s : State) : State :=
  let busy := s.resetsUnderWay
  let merged (e : ResetReq) : Bool := busy.any (·.holds e) || s.resetsRun.any (·.takesIn e)
  let inner := s.resets.filter fun e => (busy ++ s.resetsRun).any fun q => merged e && encloses q.level q.index e.level e.index
  ({ s with resets := s.resets.filter fun e => !merged e }).logInner inner

/-- Removes the request that runs and the nested ones, which are recorded; their faults' tasks join it. -/
def State.takeReset (s : State) : Option (ResetReq × State) :=
  match s.resets with
  | [] => none
  | h :: _ =>
    let q := outermost s.resets 3 h
    let inner := s.resets.filter q.takesIn
    let s := { s with
      resets := s.resets.filter fun e => e != q && !q.takesIn e
      resetsRun := (s.resetsRun.filter fun (e : ResetReq) => decide (s.clock < e.asked + 1000)) ++ [q] }
    some ({ q with ended := q.ended ++ inner.flatMap (·.ended) }, s.logInner inner)

/-! ### Step 1: aborts (R404) -/

/-- Whether a task has a cell, stream context or, for the chip, anything in a domain. -/
def Task.inDomain (t : Task) (l i : Nat) : Bool :=
  l == 4 || t.cells.any (domainCells l i).contains || t.streams.any fun x => l == 3 && streamRegionOf x == i

/-- Accepted tasks of a domain. -/
def State.tasksIn (s : State) (l i : Nat) : List (Nat × Task) := s.tasks.filter fun e => e.2.accepted && !e.2.service && e.2.inDomain l i

/-- Query batches with lists in a region, or all of them at a chip reset. -/
def State.batchesIn (s : State) (l i : Nat) : List Nat :=
  (s.rbatches.filter fun e => l == 4 || (l == 3 && (match s.index e.2.index with
    | some x => e.2.queries.any fun q => s.scans x i q
    | none => false))).map (·.1)

/-- Ends what a domain holds: accepted tasks abort with RESET, requests still checked are refused, batches end with FAULT. -/
def State.abortDomain (s : State) (l i : Nat) : State :=
  let s := (s.tasksIn l i).foldl (fun (s : State) (e : Nat × Task) => s.abortTask e.1 fcReset (some fcReset) none none) s
  let waiting := s.tasks.filter fun (e : Nat × Task) => !e.2.accepted && !e.2.service && e.2.inDomain l i
  let s := waiting.foldl (fun (s : State) (e : Nat × Task) =>
    ({ s with tasks := Table.del s.tasks e.1 }).refuse e.2.plot e.2.tag rfOutOfService 0) s
  (s.batchesIn l i).foldl (fun s n => s.abortBatch n stFault 0) s

/-! ### Step 2: frost (R414) -/

/-- The groups that a reset tells: at a chip reset every configured group of more than one member, otherwise those named by an operation
bound to an aborted task or by an aborted task's group descriptor. -/
def State.frostGroups (s : State) (q : ResetReq) : List Nat :=
  if q.level = 4 then (s.colGroups.filter fun e => decide (1 < e.2.n)).map (·.1)
  else
    let dead := s.tasksIn q.level q.index ++ q.ended
    let byOp := (s.ops.filter fun x => x.task.any fun t => dead.any fun e => e.1 == t).map (·.op.group)
    let byDesc := (s.colGroups.map (·.1)).filter fun g => dead.any fun e => e.2.body.group.any fun a => (s.groupDesc a).needs.contains g
    (byOp ++ byDesc).eraseDups

/-- Sends a reset's record to the other members; every member but a chip under reset handles it under R335. -/
def State.resetFrost (s : State) (q : ResetReq) (gi : Nat) : State :=
  match s.colGroup gi with
  | none => s
  | some g =>
    let e : ColErr := ⟨5, g.epoch, g.opseq, g.self, q.tick, s.sundial⟩
    let others := (List.range g.n).filter (· != g.self)
    let s := others.foldl (fun s m => s.send { Msg.to .frost 0 g.plot (g.chip m) with gen := s.chipTag, data := e.bytes gi }) s
    if q.level = 4 then s.setGroup gi { g with epoch := (g.epoch + 1) % 256, opseq := 0, err := none, dead := [] }
    else (s.logEvent g.plot 9 7 31 gi).takeError gi e

/-! ### Step 3: harvest (R407, R408) -/

/-- TASK of a task number, or zero. -/
def State.tagOfTask (s : State) (t : Option Nat) : Nat := ((t.bind s.task).map (·.tag)).getD 0

/-- TASK of the task that ran on a cell: one that the fault has ended counts. -/
def State.runningTag (s : State) (q : ResetReq) (c : Nat) : Nat :=
  match (s.cell c).task with
  | some t => s.tagOfTask (some t)
  | none => ((q.ended.find? fun e => e.2.cells.contains c).map fun e => e.2.tag).getD 0

/-- The state record of a cell: `was` is the state before the reset, `now` the state after the aborts. -/
def cellRecord (was now : State) (q : ResetReq) (bad : List Nat) (c : Nat) : List Byte :=
  let x := was.cell c
  let board := ((x.inflight.flatMap (·.dst) ++ x.drains.flatMap (·.ranges)).map fun r => leBytes 4 r.lo ++ leBytes 4 r.len).take 8
  let pairs := (List.range 32).flatMap fun k => match Table.get x.pairs k with
    | some p => leBytes 1 (p.full * 16 + p.empty)
    | none => leBytes 1 0
  let flags := (bad.contains c).toNat + 2 * (x.queued.isSome).toNat
  leBytes 4 (was.reg .CEL_STATE c).toNat ++ leBytes 4 (now.reg .CEL_FAULT_INFO c).toNat ++ leBytes 4 (now.reg .CEL_NUM_STATUS c).toNat ++
    leBytes 2 x.next ++ leBytes 1 ((was.ownerOfCell c).getD chipPlot) ++ leBytes 1 flags ++ leBytes 4 (was.runningTag q c) ++
    leBytes 4 (was.tagOfTask x.queued) ++ board.flatten ++ List.replicate (64 - 8 * board.length) 0 ++ pairs ++ List.replicate 136 0

/-- The bytes of a harvest slot: header, then state record and sample of each cell. -/
def harvestSlot (was now : State) (q : ResetReq) (bad cells : List Nat) : List Byte :=
  leBytes 8 q.tick ++ leBytes 1 q.level ++ leBytes 1 q.cause ++ leBytes 2 (tagIx q.level q.index) ++
    leBytes 2 (was.fld (tagOf q.level) (tagIx q.level q.index)) ++ leBytes 2 cells.length ++ leBytes 2 (cells.headD 0) ++
    List.replicate 46 0 ++ cells.flatMap fun c => cellRecord was now q bad c ++ now.readBytes (spadBase c) 4096

/-- Whether a region's harvest is skipped: its stacks are out of service, or the scratchpads are lost in deep fallow (R408, R458). -/
def State.noHarvest (s : State) (r : Nat) : Bool := s.regionOut r || s.fld Fld.PWR_STATE_STATE 0 == 3

/-- Writes the slots of a reset: one for each region that the domain has cells in. -/
def State.writeHarvest (now was : State) (q : ResetReq) (bad : List Nat) : State :=
  (harvestRegions q.level q.index).foldl (fun s r =>
    if was.noHarvest r then s
    else
      let n := Sparse.get (fun _ => 0) s.harvestSeq r
      let cells := (domainCells q.level q.index).filter fun c => regionOfCell c == r
      let s := if 16 ≤ n then s.addSat Fld.SAFE_HARVEST_LOST 0 1 else s
      let s := { s with
        harvest := Table.put s.harvest (16 * r + n % 16) (harvestSlot was now q bad cells)
        harvestSeq := Sparse.set (fun _ => 0) s.harvestSeq r (n + 1) }
      (s.setFld Fld.SAFE_HARVEST_REGION 0 r).setFld Fld.SAFE_HARVEST_SLOT 0 (n % 16)) now

/-! ### Step 5: memory (R266, R267) -/

/-- Clears a cell and its scratchpad; it reads in reset until the reset ends (R79). A pair of a context or chain that stays armed stays
armed, FULL 0 and EMPTY DEPTH. -/
def State.clearDomainCell (s : State) (c : Nat) : State :=
  let kept := (s.cell c).pairs.filter fun e => match e.2.owner with
    | .stream i => (s.stream i).isSome
    | .chain k => (s.chain k).isSome
  let pairs := kept.map fun (e : Nat × SemPair) => (e.1, { e.2 with full := 0, empty := e.2.depth, blocked := none, lastTake := none })
  let s := (s.setCell c { Cell.empty with pairs := pairs }).clearRange (spadBase c) spadSize
  let out := s.regionOut (regionOfCell c) || (s.block (blockOfCell c)).outOfService
  (s.setFld Fld.CEL_STATE_STATE c (if out then csOut else csReset)).setFld Fld.CEL_STATE_HOLDER c 0

/-- The cells of a domain leave the reset. -/
def State.cellsBack (s : State) (l i : Nat) : State :=
  (domainCells l i).foldl (fun s c => if s.fld Fld.CEL_STATE_STATE c = csReset then s.setFld Fld.CEL_STATE_STATE c csIdle else s) s

/-- Clears a domain's scratchpads and block memories. -/
def State.clearDomain (s : State) (l i : Nat) : State :=
  let s := (domainCells l i).foldl State.clearDomainCell s
  (domainBlocks l i).foldl (fun s b =>
    (s.setBlock b { s.block b with pipe := [], merges := [], maskTile := [] }).clearRange (blockBase b) blockSize) s

/-! ### The record of a reset (R412, R413, R423) -/

/-- Whether a cause counts toward escalation (R399, R411). -/
def countsCause (k : Nat) : Bool := k != 0x0C && k != 0x0D

/-- Counted chip resets within `n` ticks before now. -/
def State.chipResets (s : State) (n : Nat) : Nat := (s.chipCounts.filter fun t => decide (s.sundial ≤ t + n)).length

/-- Key of a cell, block or region domain in the counting histories. -/
def domainKey (l i : Nat) : Nat := 1024 * l + i

/-- Region that a domain's key lies in. -/
def regionOfKey (k : Nat) : Nat := (harvestRegions (k / 1024) (k % 1024)).headD 0

/-- Counted resets of one cell, block or region domain within 10 s (R411, R412). -/
def State.domainResets (s : State) (l i : Nat) : Nat :=
  ((Sparse.get (fun _ => []) s.domainCounts (domainKey l i)).filter fun t => decide (s.sundial ≤ t + 10000000000)).length

/-- CHIP_10S and CHIP_HOUR as they stand. -/
def State.resetWindows (s : State) : State :=
  (s.setFld Fld.SAFE_STATUS_CHIP_10S 0 (min 3 (s.chipResets 10000000000))).setFld Fld.SAFE_STATUS_CHIP_HOUR 0 (min 8 (s.chipResets 3600000000000))

/-- Records a reset: its level and cause, SAFE_RESET_INFO, the counts and the event log. -/
def State.recordReset (s : State) (q : ResetReq) (skipped : Bool) : State :=
  let i := tagIx q.level q.index
  let counted := countsCause q.cause
  let s := (s.setFld Fld.SAFE_STATUS_LAST_LEVEL 0 q.level).setFld Fld.SAFE_STATUS_LAST_CAUSE 0 q.cause
  let info := skipped.toNat * 2 ^ 29 + counted.toNat * 2 ^ 28 + q.level * 2 ^ 25 + q.cause * 2 ^ 16 + i
  let s := (s.recordInfo .SAFE_RESET_INFO 0 info).logCoded chipPlot 14 1 q.cause (q.level * 2 ^ 16 + i)
  let s : State :=
    if !counted then s
    else if q.level = 4 then { s with chipCounts := s.chipCounts ++ [q.tick] }
    else
      let k := domainKey q.level q.index
      { s with domainCounts := Sparse.set (fun _ => []) s.domainCounts k (Sparse.get (fun _ => []) s.domainCounts k ++ [q.tick]) }
  s.resetWindows

/-- SAFE_STATUS.STATE once no reset and no replay runs. -/
def State.settleSafe (s : State) : State :=
  s.setFld Fld.SAFE_STATUS_STATE 0 (if s.isFallow then 3 else if s.cooling then 4 else 0)

/-! ### Steps 4 and 8 of a chip reset -/

/-- A chip reset lets FALLOW links go to OFF, but for those that DISABLE holds (R310). -/
def State.freeLinks (s : State) : State :=
  (List.range 6).foldl (fun s l => if s.linkState l = lsFallow ∧ s.bit Fld.LNK_CONTROL_DISABLE l = false then s.linkOff l else s) s

/-- Step 4: every OPEN connection is sent RESET and every connection is CLOSED (R357). -/
def State.closeAll (s : State) : State :=
  (s.conns.map (·.1)).foldl (fun s i =>
    let c := s.conn i
    let s := if c.state = cnOpen then s.sendBare i .afithReset c.epoch else s
    if c.state = cnClosed then s else s.closeConn i false) s

/-- Connections open again after a chip reset (R357). -/
def State.reopenAll (s : State) : State :=
  s.peers.foldl (fun s e => if s.portUp (e.2.port % 2) then s.startOpening e.1 e.2 else s) s

/-- The collective engines, events, walks and requests that a chip reset ends; armed index swaps stand (notes/assumptions/36). -/
def State.clearHub (s : State) : State :=
  let owed := s.chains.filterMap fun (e : Nat × Chain) => e.2.releasing
  let chains := s.chains.map (·.1)
  let s := { s with
    ops := [], colIn := [], shiftBook := [], lostDrains := [], reqs := [], walks := [], chains := []
    events := s.events.filter fun e => match e.kind with
      | .indexSwap _ _ => true
      | _ => false
    groups := s.groups.map fun (e : Nat × GroupCtx) => (e.1, { e.2 with due := true, pieces := [], launched := none, late := false, tag := none, header := [], stale := [] }) }
  let s := chains.foldl (fun s c => s.colStatus c) s
  let s := (List.range 1024).foldl (fun s t => s.clearCounter t) s
  owed.foldl (fun s id => s.finish id stOk 0) s

/-- Journals, commits and retrieval records are recovered (R159, R171, R222, R418). -/
def State.recoverManager (s : State) : State := s.recoverJournal.recoverCommits.recoverSigning

/-- The control cores restart in machine mode from the retained image of the lowest region whose copy passes the digest check (R387). -/
def State.restartCores (s : State) (o : ResetRun) : State :=
  match (List.range 4).find? fun r => !s.regionOut r && s.boot.copies.testBit r && o.copies.testBit r with
  | some r => s.enterImage (firmwareBase r) s.boot.image
  | none => s

/-! ### The sequence (R405) -/

/-- The suspects of a reset (R409): by completion, plot and TASK. -/
def suspectLe (a b : Suspect) : Bool :=
  if a.completion ≠ b.completion then decide (a.completion < b.completion)
  else if a.plot ≠ b.plot then decide (a.plot < b.plot) else decide (a.tag ≤ b.tag)

def State.suspects (s : State) (q : ResetReq) : List Suspect :=
  ((s.tasksIn q.level q.index).map fun e => (⟨e.2.plot, e.2.tag, e.2.completion, e.2.work, e.2.cells⟩ : Suspect)).mergeSort suspectLe

/-- The units of blocks in service read loading until they are tested (R99); none in deep fallow. -/
def State.unitsLoading (s : State) (blocks : List Nat) : State :=
  if s.fld Fld.PWR_STATE_STATE 0 = 3 then s
  else (blocks.filter fun b => !s.regionOut (b / 8) && !(s.block b).outOfService).foldl (fun s b => s.setFld Fld.SFU_STATUS_STATE b 1) s

/-- Steps 1 to 5. A reset of cause WATCHDOG leaves its suspects for replay (R409). -/
def State.resetDown (s : State) (o : ResetRun) (q : ResetReq) : State :=
  let was := s
  let suspects := if s.safety.replay && q.cause == 0x0A then s.suspects q else []
  let told := s.frostGroups q
  let s := (s.setFld Fld.SAFE_STATUS_STATE 0 1).stepTags q.level q.index
  let s := s.abortDomain q.level q.index
  let s := told.foldl (fun s g => s.resetFrost q g) s
  let s := s.writeHarvest was q o.bad
  let s : State := if q.level = 4 then { s with hubHeld := true }.closeAll.freeLinks else s
  let s := s.recordReset q ((harvestRegions q.level q.index).any was.noHarvest)
  let s := (s.clearDomain q.level q.index).unitsLoading (domainBlocks q.level q.index)
  let s : State := if suspects.isEmpty || s.replay.isSome then s
    else { s with replay := some ⟨q, suspects.take s.safety.replayMax, suspects.drop s.safety.replayMax, 0, told⟩ }
  if q.level = 4 then s.setFld Fld.KVM_STATUS_STATE 0 (if s.bootState = bsService then 2 else 0) else s

/-- Loads and tests the units of the blocks of a domain (R99, R100): not of blocks out of service, and none in deep fallow. -/
def State.reloadDomain (s : State) (o : ResetRun) (blocks : List Nat) : State :=
  if s.fld Fld.PWR_STATE_STATE 0 = 3 then s
  else (blocks.filter fun b => !s.regionOut (b / 8) && !(s.block b).outOfService).foldl (fun s b => s.sfuRun o.loads b) s

/-- The known-answer test of a region's retrieval engine (R221). -/
def State.testEngine (s : State) (o : ResetRun) (r : Nat) : State :=
  if s.regionOut r then s
  else if o.kat.testBit r then (s.setFld Fld.RCL_STATUS_STATE r reIdle).rclStatus
  else ((s.recordInfo .RCL_FAULT_INFO r (4 * 2 ^ 24)).setFld Fld.RCL_STATUS_STATE r reOut).logEvent chipPlot 7 3 53 r

/-- Releases the stream contexts of a region (R405 step 8). -/
def State.releaseStreams (s : State) (r : Nat) : State :=
  let s := (s.streams.filter fun e => streamRegionOf e.1 == r).foldl (fun (s : State) e =>
    s.dropStream e.1) s
  if s.regionOut r then s else (List.range 16).foldl (fun s e => s.setFld Fld.STM_STATUS_STATE (16 * r + e) 0) s

/-- Steps 6 to 9. In service, a chip reset restarts the control cores from a retained image whose digest is right (R387), recovers the
manager and compares the running CRC with the reference; a failure of either ends in HELD. -/
def State.resetUp (s : State) (o : ResetRun) (q : ResetReq) : State :=
  if q.level = 1 then s
  else if q.level = 2 then s.reloadDomain o [q.index]
  else if q.level = 3 then
    let s := if q.cause = 0x0C then (s.regionBack q.index).unitsLoading (domainBlocks 3 q.index) else s
    ((s.reloadDomain o (domainBlocks 3 q.index)).releaseStreams q.index).testEngine o q.index
  else
    let s := { s with halted := [] }
    if s.bootState ≠ bsService then s.clearHub
    else if !(List.range 4).any fun r => !s.regionOut r && s.boot.copies.testBit r && o.copies.testBit r then s.clearHub.hold brSig
    else
      let s := (List.range 32).foldl (fun s b => s.setBlock b { s.block b with outOfService := false }) s
      let s := (List.range 512).foldl (fun s c => if s.regionOut (regionOfCell c) then s else s.setFld Fld.CEL_STATE_STATE c csReset) s
      let s := ((s.restartCores o).unitsLoading (List.range 32)).reloadDomain o (List.range 32)
      let s := (List.range 4).foldl (fun s r => (s.releaseStreams r).testEngine o r) s
      let s := s.clearHub.recoverManager
      let s := { s with storeUpset := [] }
      let s := s.setReg .HUB_CONFIG_CRC 0 (BitVec.ofNat 32 s.storeCrc)
      if s.reg .HUB_CONFIG_CRC 0 != s.reg .HUB_CONFIG_REF 0 then s.hold brRefCrc else s.setFld Fld.KVM_STATUS_STATE 0 1

/-- Takes a region out of service at step 10 (R412): what still runs there aborts. -/
def State.retireRegion (s : State) (r : Nat) : State :=
  let s := (s.abortDomain 3 r).releaseStreams r
  let s := s.regionDown r
  let s := s.setFld Fld.SAFE_STATUS_REGION_OOS 0 (Nat.lor (s.fld Fld.SAFE_STATUS_REGION_OOS 0) (2 ^ r))
  if (List.range 4).all s.regionOut then
    let s := s.setBit Fld.ADM_POLICY_STOPPED 0 true
    if s.isFallow then s else s.setFld Fld.SAFE_STATUS_FALLOW_REASON 0 3
  else s

/-- The escalation at step 10 (R412, R413): answers whether the domain returns to service. -/
def State.escalate (s : State) (q : ResetReq) : State × Bool :=
  if q.level = 4 then
    if q.cause = 0x0C then
      (({ s with chipCounts := [], cooling := false }.setFld Fld.SAFE_STATUS_FALLOW_REASON 0
        (if (List.range 4).all s.regionOut then 3 else 0)).resetWindows, true)
    else if s.isFallow then (s, false)
    else if q.cause = 0x09 then ({ s with cooling := true }, false)
    else if countsCause q.cause && decide (3 ≤ s.chipResets 10000000000) then (s.setFld Fld.SAFE_STATUS_FALLOW_REASON 0 1, false)
    else if countsCause q.cause && decide (8 ≤ s.chipResets 3600000000000) then (s.setFld Fld.SAFE_STATUS_FALLOW_REASON 0 2, false)
    else (s, true)
  else
    let r := (harvestRegions q.level q.index).headD 0
    if q.cause = 0x0C then
      let s := { s with domainCounts := s.domainCounts.filter fun e => regionOfKey e.1 != r }
      let s := s.setFld Fld.SAFE_STATUS_REGION_OOS 0 (setBits (s.fld Fld.SAFE_STATUS_REGION_OOS 0) r 1 0)
      let s := if s.fld Fld.SAFE_STATUS_FALLOW_REASON 0 = 3 then s.setFld Fld.SAFE_STATUS_FALLOW_REASON 0 0 else s
      (if s.bootState = bsService then s.setBit Fld.ADM_POLICY_STOPPED 0 false else s, true)
    else if s.regionOut r then (s, false)
    else if countsCause q.cause && decide (3 ≤ s.domainResets q.level q.index) then (s.retireRegion r, false)
    else (s, true)

/-- The 16 bytes of a ready notice (R415). -/
def State.readyBytes (s : State) (q : ResetReq) : List Byte :=
  leBytes 1 q.level ++ leBytes 1 q.cause ++ leBytes 2 (tagIx q.level q.index) ++
    leBytes 2 (s.fld (tagOf q.level) (tagIx q.level q.index)) ++ leBytes 2 0 ++ leBytes 8 s.sundial

/-- Ready notices to every other member of the groups that received frost (R415). -/
def State.sendReady (s : State) (q : ResetReq) (told : List Nat) : State :=
  told.foldl (fun s gi => match s.colGroup gi with
    | none => s
    | some g => ((List.range g.n).filter (· != g.self)).foldl (fun s m =>
        s.send { Msg.to .ready 1 g.plot (g.chip m) with op := 0x82000000, gen := s.chipTag, data := s.readyBytes q }) s) s

/-- Step 10. -/
def State.resetEnd (s : State) (q : ResetReq) (told : List Nat) : State :=
  let held := s.bootState == bsHeld
  let s : State :=
    if q.level = 4 then
      let s := { s with hubHeld := false }
      if s.bootState = bsService then
        (s.setBit Fld.ADM_POLICY_STOPPED 0 ((List.range 4).all s.regionOut)).reopenAll
      else s
    else s
  let (s, back) := (s.cellsBack q.level q.index).escalate q
  let s := s.settleSafe
  if back && !held then s.sendReady q told else s

/-- Steps 6 to 10, or the wait for the hub PLL at step 6 (R454), or for the replay of suspects (R409). -/
def State.resetRest (s : State) (o : ResetRun) (q : ResetReq) (told : List Nat) : State :=
  if q.level = 4 ∧ s.hubLost = true then { s with chipWait := some q }
  else
    let s := { s with chipWait := none }.resetUp o q
    if s.replay.isSome && s.bootState == bsService then s.setFld Fld.SAFE_STATUS_STATE 0 2
    else { s with replay := none }.resetEnd q told

/-- DOMAIN_RESET (R402 to R418): the reset that is due runs. One that is already under way, at step 6 or in replay, takes in a request for
its domain or an inner one, and one that has run within the last 1 µs an inner one (R23). -/
def execDomainReset (o : ResetRun) (s : State) : Res :=
  let s := s.mergeResets
  match s.takeReset with
    | none => .next s
    | some (q, s) =>
      let inside (x : Replay) : Bool := encloses q.level q.index x.req.level x.req.index
      let s : State := if s.replay.any inside then { s with replay := none } else s
      let told := s.frostGroups q
      .next ((s.resetDown o q).resetRest o q told)

/-! ### Host requests (R401, R412, R413, R423, R458) -/

/-- SAFE_RESET as a register write: a bad LEVEL, CAUSE or number, or deep fallow, is ignored and logged. -/
def State.safeReset (s : State) (v : Nat) : State :=
  let level := bitsAt v 29 3
  let cause := bitsAt v 16 8
  let index := bitsAt v 0 9
  let bound := if level = 1 then 512 else if level = 2 then 32 else if level = 3 then 4 else if level = 4 then 512 else 0
  if s.fld Fld.PWR_STATE_STATE 0 = 3 ∨ (cause ≠ 0x0A ∧ cause ≠ 0x0B) ∨ bound ≤ index then
    s.logIgnored chipPlot 14 (Reg.offset .SAFE_RESET)
  else s.requestReset level cause (tagIx level index) none

/-- SAFE_RESET. -/
def execSafeReset (a : Agent) (v : W32) (s : State) : Res :=
  if !s.arrives a || !s.privOk a then .next s else .next (s.safeReset v.toNat)

/-- A write of RELEASE_CHIP: a fallow chip runs a chip reset of cause RELEASE. -/
def State.releaseChip (s : State) : State :=
  if s.fld Fld.SAFE_STATUS_STATE 0 = 3 then s.requestReset 4 0x0C 0 none else s

/-- RELEASE_CHIP. -/
def execReleaseChip (a : Agent) (s : State) : Res :=
  if !s.arrives a || !s.privOk a then .next s else .next s.releaseChip

/-- A write of RELEASE_REGION: a region out of service under R412 runs a region reset of cause RELEASE. -/
def State.releaseRegion (s : State) (r : Nat) : State :=
  if (s.fld Fld.SAFE_STATUS_REGION_OOS 0).testBit r then s.requestReset 3 0x0C r none else s

/-- RELEASE_REGION. -/
def execReleaseRegion (a : Agent) (r : RegionIx) (s : State) : Res :=
  if !s.arrives a || !s.privOk a then .next s else .next (s.releaseRegion r.val)

/-! ### Replay (R409, R410) -/

/-- Ticks for which the suspect at the head may run. -/
def State.replayLimit (s : State) (x : Replay) (k : Suspect) : Nat := min (4 * k.work) (s.safety.budget - x.spent)

/-- Writes a verdict: `k` 70 CLEARED, 71 FAULTED, 72 GUILTY, 73 UNRESOLVED. -/
def State.verdict (s : State) (k : Nat) (t : Suspect) (code : Nat) : State := s.logEvent t.plot 14 6 k (t.tag + code * 2 ^ 32)

/-- Goes on to the next suspect, or ends the replay: those left are UNRESOLVED, the memory is cleared again, step 10 follows. -/
def State.nextSuspect (s : State) (x : Replay) : State :=
  if !x.suspects.isEmpty && decide (x.spent < s.safety.budget) then { s with replay := some x }
  else
    let s := (x.suspects ++ x.beyond).foldl (fun s t => s.verdict 73 t 0) s
    let s := { s with replay := none }.clearDomain x.req.level x.req.index
    s.resetEnd x.req x.notify

/-- REPLAY (R410): the suspect at the head ends CLEARED, or FAULTED with a code, after `spent` ticks. -/
def execReplay (spent : Nat) (fault : Option Nat) (s : State) : Res :=
  match s.replay with
  | some x =>
    match x.suspects with
    | t :: rest =>
      if s.chipWait.isSome || decide (s.replayLimit x t ≤ spent) then .next s
      else
        let s := match fault with
          | none => s.verdict 70 t 0
          | some k => s.verdict 71 t k
        .next (s.nextSuspect { x with suspects := rest, spent := x.spent + spent })
    | [] => .next s
  | none => .next s

/-- REPLAY_GUILTY (R410): the suspect ran out its time; the domain is reset with cause REPLAY and the replay goes on. -/
def execReplayGuilty (o : ResetRun) (s : State) : Res :=
  match s.replay with
  | some x =>
    match x.suspects with
    | t :: rest =>
      if s.chipWait.isSome then .next s
      else
        let q := { x.req with cause := 0x0D, tick := s.sundial, asked := s.clock, ended := [] }
        let x' := { x with suspects := rest, spent := x.spent + s.replayLimit x t }
        let s := ((s.verdict 72 t 0).resetDown o q).resetUp o q
        if s.bootState = bsService then .next ((s.setFld Fld.SAFE_STATUS_STATE 0 2).nextSuspect x')
        else .next ({ s with replay := none }.resetEnd x.req [])
    | [] => .next s
  | none => .next s

/-! ### Signs of life (R400, R447) -/

/-- Whether the management pair runs firmware. -/
def State.firmwareRuns (s : State) : Bool := decide (bsFirmware ≤ s.bootState) && !s.halted.contains 0

/-- HEARTBEAT (R400, R447): COUNT steps and the pin toggles; during a chip reset the pin alone. -/
def execHeartbeat (s : State) : Res :=
  if s.hubHeld then .next { s with heartPin := !s.heartPin }
  else if !s.firmwareRuns then .next s
  else .next { s.stepFld Fld.HUB_HEARTBEAT_COUNT 0 with heartPin := !s.heartPin }

/-- HUB_WATCH as it stands (R400). -/
def State.watchWord (s : State) : Nat :=
  let late := s.tasks.filter fun e => e.2.accepted && decide (e.2.completion + 1000000 < s.sundial)
  let extra := (List.range 4).filter fun r => late.any fun e => e.2.cells.any fun c => regionOfCell c == r
  (extra.map (2 ^ ·)).sum + (late.any fun e => e.2.cells.isEmpty).toNat * 16 +
    (s.admWait.any fun e => decide (e.2 + 1000000 < s.clock)).toNat * 32

/-- WATCH_OVERDUE (R400). -/
def execWatchOverdue (s : State) : Res := .next (s.setReg .HUB_WATCH 0 (BitVec.ofNat 32 s.watchWord))

/-- COOLING_END (R413): every sensor has read below TEMP_WARN for 10^9 ticks. -/
def execCoolingEnd (s : State) : Res :=
  match s.coolSince with
  | some t => if s.cooling && decide (t + 1000000000 ≤ s.sundial) then .next { s with cooling := false }.settleSafe else .next s
  | none => .next s

/-! ### Chip-level failures (R22, R26, R29, R454) -/

/-- LOCKSTEP_MISMATCH (R22, R26): the pair halts and a chip reset is requested. -/
def execLockstepMismatch (service : Bool) (s : State) : Res :=
  if !s.boot.seqOk || !s.boot.perst then .next s
  else
    let k := if service then 1 else 0
    let s := { s with halted := if s.halted.contains k then s.halted else s.halted ++ [k] }
    let s := if service then s.setFld Fld.KVM_STATUS_STATE 0 3 else s
    .next (s.requestReset 4 0x07 0 none)

/-- PLL_LOSS (R29, R399, R454, R458): in deep fallow the chip is reset whichever it is; else the region is reset for its own PLL, the chip for the hub's or the main reference's; without the main
reference the sundial runs in holdover. -/
def execPllLoss (k : PllKind) (s : State) : Res :=
  if !s.boot.seqOk then .next s
  else match k with
    | .region r => .next (if s.fld Fld.PWR_STATE_STATE 0 = 3 then s.requestReset 4 0x06 0 none else s.requestReset 3 0x06 r.val none)
    | .hub => .next ({ s with hubLost := true }.requestReset 4 0x06 0 none)
    | .mainRef => .next (({ s with hubLost := true, mainLost := true }.setFld Fld.SDL_STATUS_STATE 0 sdHoldover).requestReset 4 0x06 0 none)

/-- PLL_RELOCK (R454): the hub PLL is in lock again; a chip reset that waits goes on. A chip that lost the main reference steps to its
parent again. -/
def execPllRelock (o : ResetRun) (s : State) : Res :=
  if !s.hubLost then .next s
  else
    let s := if s.mainLost then s.setFld Fld.SDL_STATUS_STATE 0 (if s.isRoot then sdSync else if s.hasCoord then sdJoining else sdFree) else s
    let s := { s with hubLost := false, mainLost := false }
    match s.chipWait with
    | none => .next s
    | some q =>
      let told := (s.colGroups.filter fun (e : Nat × ColGroup) => decide (1 < e.2.n)).map (·.1)
      .next (s.resetRest o q told)

/-- PCIE_REFCLK_LOSS (R454): only the host interface goes down. -/
def execPcieRefclkLoss (s : State) : Res := .next { s with pcieLost := true, pcieGen := 0, pcieLanes := 0 }

/-- PCIE_REFCLK_RETURN: the host interface may train again. -/
def execPcieRefclkReturn (s : State) : Res := .next { s with pcieLost := false }

end Sys2Proof.Machine
end

