-- ==== Sys2Proof/Machine/Power.lean ====
section
/-!
DEFINITION. Power and temperature (R33, R34, R290, R447 to R449, R452, R455 to R466): caps, governors, droop, thermal limits, deep
fallow, and the sideband pins.
-/

namespace Sys2Proof.Machine
open Sys2Proof

/-! ### Caps, governors and the excursion (R33, R459 to R461) -/

/-- Whether the droop throttle is in force (R463). -/
def State.droopThrottle (s : State) : Bool := s.droopTick.isSome

/-- The least of the three values of R461. -/
def State.leastKeep (s : State) (r : Nat) : Nat :=
  min (s.fld Fld.PWR_REGION_POWER_GOVKEEP r) (min (if s.droopThrottle then 11 else 15) (if s.bit Fld.TMP_STATUS_THROTTLE 0 then 7 else 15))

/-- Brings KEEP and THROTTLE of a region up to date (R290, R461). -/
def State.applyKeep (s : State) (r : Nat) : State :=
  let k := s.leastKeep r
  let t := decide (k < 15)
  let s := (s.setFld Fld.ADM_REGION_STATE_KEEP r k).setBit Fld.ADM_REGION_STATE_THROTTLE r t
  s.setFld Fld.PWR_STATE_THROTTLE 0 (setBits (s.fld Fld.PWR_STATE_THROTTLE 0) r 1 t.toNat)

def State.applyKeepAll (s : State) : State := (List.range 4).foldl State.applyKeep s

/-- THROTTLE_CHANGE (R290, R461). -/
def execThrottleChange (r : RegionIx) (s : State) : Res := .next (s.applyKeep r.val)

/-- A write of a region's cap (R33): ignored and logged where the four caps would exceed 1,830 W. -/
def State.writeCap (s : State) (r v : Nat) : State :=
  let sum := ((List.range 4).map fun k => if k = r then v % 65536 else s.fld Fld.PWR_REGION_CAP_CAP k).sum
  if 1830 < sum then s.logIgnored chipPlot 14 (Reg.offset .PWR_REGION_CAP + 4 * r)
  else s.viaStore (s.setFld Fld.PWR_REGION_CAP_CAP r v)

/-- PWR_REGION_CAP_WRITE. -/
def execPwrRegionCapWrite (a : Agent) (r : RegionIx) (v : W32) (s : State) : Res :=
  if !s.arrives a || !s.privOk a then .next s else .next (s.writeCap r.val v.toNat)

/-- The allowance spent in the window of 100 ms, in µs. -/
def spentIn (l : List (Nat × Nat)) : Nat := (l.map (·.2)).sum

/-- Brings ALLOWANCE up to date: what lies 100 ms back has returned. -/
def State.slideWindow (s : State) : State :=
  let l := s.excursion.filter fun e => decide (s.clock < e.1 + 100000000)
  { s with excursion := l }.setFld Fld.PWR_STATE_ALLOWANCE 0 (10000 - spentIn l)

/-- Whether an excursion is allowed: allowance remains and no sensor reads above TEMP_THROTTLE (R460). -/
def State.mayExceed (s : State) : Bool := s.fld Fld.PWR_STATE_ALLOWANCE 0 != 0 && !s.bit Fld.TMP_STATUS_THROTTLE 0

/-- Chip power in W above which the allowance is spent (R34, R460). -/
def chipLimit : Nat := 2200

/-- PEAK, and the microsecond of allowance that a sample above 2,200 W spends; the four regions' samples of one µs spend one. -/
def State.spendPeak (s : State) (chip : Nat) : State :=
  let s := s.slideWindow
  let peak := decide (chipLimit < chip) && s.mayExceed
  let s := s.setBit Fld.PWR_STATE_PEAK 0 peak
  let spent := s.excursion.any fun e => decide (s.clock < e.1 + 1000)
  if peak && !spent then { s with excursion := s.excursion ++ [(s.clock, 1)] }.slideWindow else s

def State.governor (s : State) (r : Nat) : Governor := Sparse.get (fun _ => ⟨0, none, false, none⟩) s.governors r

def State.setGovernor (s : State) (r : Nat) (g : Governor) : State :=
  { s with governors := Sparse.set (fun _ => ⟨0, none, false, none⟩) s.governors r g }

/-- The cap that a governor holds: 100 W more while an excursion is allowed. -/
def State.capNow (s : State) (r : Nat) : Nat := s.fld Fld.PWR_REGION_CAP_CAP r + (if s.mayExceed then 100 else 0)

/-- A governor's rule (R459). -/
def State.govern (s : State) (r : Nat) (p : PowerSample) : State :=
  let cap := s.capNow r
  let g := s.governor r
  let keep := s.fld Fld.PWR_REGION_POWER_GOVKEEP r
  let under := decide (100 * p.avg100 < 95 * cap)
  let due := decide (g.rise + 10000 ≤ s.clock)
  let next := if cap < p.now then max 3 (keep - 1) else if under && due then min 15 (keep + 1) else keep
  let floor := if next = 3 then some (g.floor.getD s.clock) else none
  let long := match floor with
    | some t => decide (t + 1000000 ≤ s.clock)
    | none => false
  let half := if cap < p.now then g.half || long else g.half && decide (p.now = cap)
  let rise := if !under || (decide (p.now ≤ cap) && due) then s.clock else g.rise
  (s.setFld Fld.PWR_REGION_POWER_GOVKEEP r next).setGovernor r { g with rise := rise, floor := floor, half := half }

/-- GOVERNOR_SAMPLE (R459 to R461, R466). -/
def execGovernorSample (r : RegionIx) (p : PowerSample) (s : State) : Res :=
  let s := s.spendPeak p.chip
  let s := s.govern r.val p
  let s := (s.setFld Fld.PWR_REGION_POWER_POWER r.val (min p.avg1000 0xFFFF)).setFld Fld.PWR_CHIP_POWER_POWER 0 (min p.chip1000 0xFFFF)
  let s := s.setFld Fld.PWR_CHIP_POWER_MAX 0 (max (s.fld Fld.PWR_CHIP_POWER_MAX 0) (min p.chip100 0xFFFF))
  .next (s.applyKeep r.val)

/-- EXCURSION_SPENT (R34, R460): no allowance is left and PEAK ends. -/
def execExcursionSpent (s : State) : Res :=
  let s := s.slideWindow
  if s.fld Fld.PWR_STATE_ALLOWANCE 0 = 0 then .next (s.setBit Fld.PWR_STATE_PEAK 0 false) else .next s

/-! ### Droop (R22, R462, R463) -/

/-- Whether a region has held level 2 for more than 10 µs (R462). -/
def State.level2Long (s : State) (r : Nat) : Bool := (s.governor r).level2.any fun t => decide (t + 10000 < s.clock)

/-- DROOP_LEVEL: levels 0 to 2 are handled, level 2 for up to 10 µs; any other is beyond the handled range. -/
def execDroopLevel (r : RegionIx) (level : Nat) (s : State) : Res :=
  let was := s.fld Fld.PWR_REGION_POWER_LEVEL r.val
  let level := if level = 2 ∧ s.level2Long r.val = true then 3 else min level 3
  let g := s.governor r.val
  let s := s.setGovernor r.val { g with level2 := if 2 ≤ level then some (g.level2.getD s.clock) else none }
  let s := s.setFld Fld.PWR_REGION_POWER_LEVEL r.val level
  if level < 3 then .next (if level = 2 ∧ was ≠ 2 then s.addSat Fld.PWR_DROOP_COUNT_STRETCH r.val 1 else s)
  else
    let s := (s.addSat Fld.PWR_DROOP_COUNT_BEYOND r.val 1).logEvent chipPlot 14 3 67 r.val
    .next { s with droopTick := some s.clock }.applyKeepAll

/-- DROOP_THROTTLE_END (R463): 1 ms after the last droop beyond the handled range. -/
def execDroopThrottleEnd (s : State) : Res :=
  match s.droopTick with
  | some t => if t + 1000000 ≤ s.clock then .next { s with droopTick := none }.applyKeepAll else .next s
  | none => .next s

/-! ### Temperature (R464, R465) -/

/-- A sensor's stored reading in 1/16 °C. -/
def State.sensor (s : State) (i : Nat) : Int := (s.reg .TMP_SENSOR i).extractLsb' 0 16 |>.toInt

/-- Whether some sensor reads above a limit in °C. -/
def State.above (s : State) (limit : Nat) : Bool := (List.range 36).any fun i => decide ((16 * limit : Int) < s.sensor i)

/-- The hottest sensor: the lowest index of the highest reading. -/
def State.hottest (s : State) : Nat := (List.range 36).foldl (fun b i => if s.sensor b < s.sensor i then i else b) 0

/-- SENSOR_READ (R464, R465): the readings, WARN, THROTTLE and HOTTEST; a sensor that reaches TEMP_TRIP asks for a THERMAL reset. -/
def execSensorRead (temps : List Int) (s : State) : Res :=
  let was := s
  let s := (temps.take 36).zipIdx.foldl (fun (s : State) (e : Int × Nat) =>
    s.setFld Fld.TMP_SENSOR_TEMP e.2 (e.1 % 65536).toNat) s
  let armed := s.safety.trip != 0
  let warn := armed && s.above s.safety.warn
  let hot := armed && s.above s.safety.throttle
  let s := (s.setBit Fld.TMP_STATUS_WARN 0 warn).setBit Fld.TMP_STATUS_THROTTLE 0 hot
  let h := s.hottest
  let s := (s.setFld Fld.TMP_STATUS_SENSOR 0 h).setFld Fld.TMP_STATUS_HOTTEST 0 (max 0 (s.sensor h / 16)).toNat
  let cold := armed && (List.range 36).all fun i => decide (s.sensor i < 16 * s.safety.warn)
  let s := { s with coolSince := if cold then some (s.coolSince.getD s.sundial) else none }
  let trip := armed && (List.range 36).any fun i => decide (was.sensor i < 16 * s.safety.trip) && decide ((16 * s.safety.trip : Int) ≤ s.sensor i)
  let s := if trip then s.requestReset 4 0x09 0 none else s
  .next s.applyKeepAll

/-- HARDWARE_TRIP (R465): at 125 °C, or 118 °C with TRIP_LOW, the device is held in reset until power is removed, and what it holds is
lost. -/
def execHardwareTrip (temp : Nat) (s : State) : Res :=
  let limit := if (s.fld Fld.PWR_GRAFT_STRAP 0).testBit 12 then 118 else 125
  if !s.boot.seqOk || s.boot.tripped || decide (temp < limit) then .next s
  else .next (s.powerLost { Boot.off with seqOk := true, perst := s.boot.perst, tripped := true })

/-! ### Rails (R450, R452) -/

/-- RAIL_EXCURSION: rail `n` of the sixteen falls below −3 % or rises above +3 %. -/
def execRailExcursion (rail : Nat) (low : Bool) (s : State) : Res :=
  if 16 ≤ rail then .next s
  else
    let f := if low then Fld.PWR_RAIL_STATUS_LOW else Fld.PWR_RAIL_STATUS_HIGH
    .next (s.setFld f 0 (Nat.lor (s.fld f 0) (2 ^ rail)))

/-! ### Deep fallow (R455 to R457) -/

/-- Releases the persistent streams and the notification pairs of chains (R366, R456). -/
def State.releaseParked (s : State) : State :=
  let s := (s.streams.map (·.1)).foldl (fun s i => s.dropStream i) s
  let chains := s.chains.filter fun (e : Nat × Chain) => e.2.ops.any fun d => d.notifies
  chains.foldl (fun (s : State) (e : Nat × Chain) =>
    let s := s.dropChainPairs e.1 (e.2.ops.flatMap (·.notify))
    (s.setChain e.1 { e.2 with
      ops := e.2.ops.map fun d => { d with notify := [], ncells := 0, oflags := setBits d.oflags 2 1 0 } }).colStatus e.1) s

/-- A write of FALLOW_ENTER: admission stops; outside service it is ignored and logged. -/
def State.enterFallow (s : State) : State :=
  if s.fld Fld.PWR_STATE_STATE 0 ≠ 1 then s.logIgnored chipPlot 14 (Reg.offset .PWR_CONTROL) else s.setFld Fld.PWR_STATE_STATE 0 2

/-- FALLOW_ENTER. -/
def execFallowEnter (a : Agent) (s : State) : Res :=
  if !s.arrives a || !s.privOk a then .next s else .next s.enterFallow

/-- Registers of the units that PWR_VCORE supplies (R450, R456); the generation tags stand (notes/assumptions/37). -/
def coreRegs : List Reg :=
  [.CEL_SFU_WEIGHT, .CEL_NUM_STATUS, .CEL_ISSUE_QUANTUM, .CEL_FAULT_INFO, .SFU_MODE, .SFU_FAULT_INFO, .SFU_ECC_COUNT, .SFU_TABLE_CRC,
    .STM_FAULT_INFO, .RCL_FAULT_INFO]

/-- The registers of units whose power is gated hold their reset values again. -/
def State.gateRegs (s : State) : State :=
  let gated (k : Nat) : Bool := coreRegs.any fun r => decide (r.offset / 4 ≤ k) && decide (k < r.offset / 4 + r.count)
  { s with regs := s.regs.filter fun e => !gated e.1 }

/-- FALLOW_GATING (R456): once the last task has ended, the contexts that wait are released, links and ports go OFF, and the units of
PWR_VCORE lose their state. -/
def execFallowGating (s : State) : Res :=
  if s.fld Fld.PWR_STATE_STATE 0 ≠ 2 ∨ s.tasks.isEmpty = false ∨ s.rbatches.isEmpty = false then .next s
  else
    let s := s.releaseParked.gateRegs.setFld Fld.PWR_STATE_STATE 0 3
    let s := (List.range 6).foldl (fun s l => if s.bit Fld.LNK_CONTROL_DISABLE l then s else s.linkOff l) s
    let s := (List.range 2).foldl State.retrainPort s
    let s := (List.range 512).foldl (fun s c =>
      let s := s.setCell c Cell.empty
      if s.fld Fld.CEL_STATE_STATE c = csOut then s else s.setFld Fld.CEL_STATE_STATE c csIdle) s
    .next ((List.range 32).foldl (fun (s : State) b =>
      let s := s.setBlock b { Block.empty with outOfService := (s.block b).outOfService, failures := (s.block b).failures }
      if s.fld Fld.SFU_STATUS_STATE b = 5 then s else s.setFld Fld.SFU_STATUS_STATE b 0) s)

/-- A write of FALLOW_EXIT: before the links have gone OFF it cancels the entry; in deep fallow SRAM is cleared, the units are loaded and
tested, and links and ports train again; otherwise it is ignored. -/
def State.exitFallow (s : State) (loads : List SfuRun) (kat : Nat) : State :=
  if s.fld Fld.PWR_STATE_STATE 0 = 2 then s.setFld Fld.PWR_STATE_STATE 0 1
  else if s.fld Fld.PWR_STATE_STATE 0 ≠ 3 then s
  else
    let o : ResetRun := ⟨loads, kat, 0, []⟩
    let s := s.setFld Fld.PWR_STATE_STATE 0 1
    let s := ((s.clearDomain 4 0).cellsBack 4 0).dressPlots
    let s := s.reloadDomain o (List.range 32)
    let s := (List.range 4).foldl (fun s r => s.testEngine o r) s
    (List.range 2).foldl State.retrainPort s

/-- FALLOW_EXIT. -/
def execFallowExit (a : Agent) (loads : List SfuRun) (kat : Nat) (s : State) : Res :=
  if !s.arrives a || !s.privOk a then .next s else .next (s.exitFallow loads kat)

/-! ### Graft and sideband pins (R447 to R449) -/

/-- Whether something is out of service or a link is fallow. -/
def State.partsOut (s : State) : Bool :=
  (List.range 4).any (fun r => s.regionOut r || s.fld Fld.RCL_STATUS_STATE r == reOut) ||
    (List.range 32).any (fun b => (s.block b).outOfService) ||
    (List.range 6).any fun l => s.linkState l == lsFallow

/-- The fault summary (R448). -/
def State.faultSummary (s : State) : Nat :=
  let st := s.fld Fld.SAFE_STATUS_STATE 0
  let pw := s.fld Fld.PWR_STATE_STATE 0
  if st = 1 ∨ st = 2 then 7
  else if st = 4 then 5
  else if st = 3 then 4
  else if s.bootState = bsHeld then 3
  else if pw = 2 ∨ pw = 3 ∨ pw = 4 then 6
  else if s.bit Fld.BOOT_STATUS_SPARSE 0 then 2
  else if s.partsOut then 1
  else 0

/-- PWR_GRAFT.OUT (R447): zero while the pins are high-impedance. -/
def State.graftOut (s : State) : Nat :=
  if !s.boot.outputs then 0
  else
    let beats := ((List.range 6).map fun l =>
      (s.syncState l == sySynced && (s.link l).beat.any fun t => decide (s.clock < t + 1000)).toNat * 2 ^ (6 + l)).sum
    s.faultSummary + s.heartPin.toNat * 16 + s.beatPin.toNat * 32 + beats +
      (s.fld Fld.PWR_STATE_THROTTLE 0 != 0).toNat * 2 ^ 12 + (s.bit Fld.PWR_STATE_PEAK 0).toNat * 2 ^ 13 +
      (s.tasks.any fun e => e.2.accepted && !e.2.service).toNat * 2 ^ 14 + s.admClosed.toNat * 2 ^ 15

/-- SAFE_ALERT_N asserted (R449). -/
def State.alert (s : State) : Bool :=
  s.boot.outputs && (s.bit Fld.SAFE_RESET_INFO_VALID 0 || s.isFallow || s.bootState == bsHeld || s.bit Fld.TMP_STATUS_WARN 0 ||
    ((s.fld Fld.PWR_GRAFT_STRAP 0).testBit 13 && s.log.any fun e => decide (s.alertFrom ≤ e.seqNo) && e.code / 4096 == 3))

/-- SAFE_TRIP_N asserted (R444, R465). -/
def State.tripPin (s : State) : Bool := s.boot.tripped

/-- SUNDIAL_BEAT (R447): the pin is high for 100 ticks from every tick that is a multiple of 1,000,000. -/
def execSundialBeat (s : State) : Res := .next { s with beatPin := s.boot.outputs && decide (s.sundial % 1000000 < 100) }

/-- MANAGEMENT_BUS_READ (R444, R449): the five registers, by offset within their page, with no side effect; any other offset reads zero. -/
def execManagementBusRead (off : Nat) (s : State) : Res :=
  if !s.boot.outputs then .next s
  else .next { s with rdata :=
    if off = 0 then s.reg .BOOT_STATUS 0
    else if off = 0x100 then s.slideWindow.reg .PWR_STATE 0
    else if off = 0x108 then s.reg .PWR_CHIP_POWER 0
    else if off = 0x180 then s.reg .TMP_STATUS 0
    else if 0x200 ≤ off ∧ off < 0x290 ∧ off % 4 = 0 then s.reg .TMP_SENSOR ((off - 0x200) / 4)
    else 0 }

end Sys2Proof.Machine
end

