-- ==== Sys2Proof/Machine/Registers.lean ====
section
/-!
DEFINITION. Register accesses (R10, R422, R424 to R434, R437 to R439): the two views, ownership of instances, what a write of each register
does, aliases, reads that clear, write-once fields, performance counters and the configuration scanner.
-/

namespace Sys2Proof.Machine
open Sys2Proof

/-! ### Instances and views (R425, R426) -/

/-- Whose a register instance is. -/
inductive Owner where
  | chip
  | free
  | plot (p : Nat)
  deriving DecidableEq, Repr

def Owner.of : Option Nat → Owner
  | some p => .plot p
  | none => .free

/-- Registers with one instance per plot. -/
def perPlot : List Reg :=
  [.KVM_DOORBELL, .KVM_POLICY, .KVM_DECAY, .KVM_BAD_FREE_COUNT, .KVM_BAD_FREE_INFO, .KVM_MIGRATE_STATUS, .ATT_GROUP_STATUS,
   .ATT_GROUP_STALE, .RCL_PLOT_FLAGS, .SDL_EVENT_FLAGS, .ADM_DOORBELL, .ADM_BUDGET_MEM, .ADM_BUDGET_NET, .ADM_REFUSE_COUNT,
   .ADM_ABORT_COUNT, .LNK_PLOT_WEIGHT, .COL_TRIGGER, .COL_ERROR_INFO, .COL_ERROR_OP, .COL_DROP_COUNT, .COL_OVERFLOW_COUNT,
   .PLT_STATE, .PLT_BLOCKS, .PLT_PENDING]

/-- Registers with one instance per cell. -/
def perCell : List Reg := [.CEL_SFU_WEIGHT, .CEL_NUM_STATUS, .CEL_ISSUE_QUANTUM, .CEL_STATE, .CEL_FAULT_INFO]

/-- The owner of an instance: of a plot, cell, block's unit, stream, counter, chain, pool or group. -/
def State.ownerOf (s : State) (r : Reg) (i : Nat) : Owner :=
  if perPlot.contains r then .plot i
  else if perCell.contains r then .of (s.ownerOfCell i)
  else match r with
    | .SFU_MODE | .SFU_STATUS | .SFU_FAULT_INFO | .SFU_ECC_COUNT | .SFU_TABLE_CRC => .of (s.ownerOfBlock i)
    | .STM_STREAM_STATE | .STM_FAULT_INFO | .STM_REARM_COUNT =>
      if s.fld Fld.STM_STREAM_STATE_STATE i = ssFree then .free else .plot (s.fld Fld.STM_STREAM_STATE_PLOT i)
    | .COL_COUNTER => .of ((s.plots.find? fun e => s.ownsCounter e.1 i).map (·.1))
    | .COL_CHAIN_STATE => .of ((s.chain i).map (·.plot))
    | .COL_GROUP_INFO => .of ((s.colGroup i).map (·.plot))
    | .KVM_POOL_FREE | .KVM_POOL_DRAIN => .plot (i / 4)
    | _ => .chip

/-- The plot of an agent. -/
def Agent.plot? : Agent → Option Nat
  | .vf p => some p.val
  | _ => none

/-- Whether an agent reaches an instance: in the privileged view every one, in the general view the chip's and its own plot's. -/
def State.reaches (s : State) (a : Agent) (priv : Bool) (r : Reg) (i : Nat) : Bool :=
  if priv then s.privOk a
  else match s.ownerOf r i with
    | .chip => true
    | .free => false
    | .plot p => a.plot? == some p

/-- Bits of a register's fields that satisfy a condition. -/
def Reg.bitsOf (r : Reg) (p : FieldSpec → Bool) : Nat := (r.fields.filter p).foldl (fun m f => m ||| ((2 ^ f.width - 1) * 2 ^ f.lo)) 0

/-- Bits of fields of an access code that a view reaches. -/
def Reg.accBits (r : Reg) (c : Acc) (priv : Bool) : Nat := r.bitsOf fun f => f.acc == c && (priv || !f.priv)

/-- Bits that a read in a view returns: write-only fields read zero, and fields with PV in the general view. -/
def Reg.readBits (r : Reg) (priv : Bool) : Nat := r.bitsOf fun f => f.acc != .wo && (priv || !f.priv)

/-- Clears the bits of a mask. -/
def clearMask (v m : Nat) : Nat := Nat.xor v (Nat.land v m)

/-! ### Values that are formed at the read -/

/-- A register's value as it stands. -/
def State.regNow (s : State) (r : Reg) (i : Nat) : Nat :=
  let v := s.stored r i
  match r with
  | .KVM_STATUS =>
    let queued := ((List.range 8).map fun p => match s.plot p with
      | some q => (q.cmdTail + 2 ^ q.kvmOrder - s.ringIx q ringCmdHead q.kvmOrder) % 2 ^ q.kvmOrder
      | none => 0).sum
    setBits (setBits v 4 8 (min 255 queued)) 12 8 s.journal.length
  | .KVM_POOL_FREE => (s.pool (i / 4) (i % 4)).free
  | .KVM_POOL_DRAIN => (s.pool (i / 4) (i % 4)).drain
  | .SDL_TIME_LOW => s.sundial % 2 ^ 32
  | .SDL_LINK_SYNC => setBits v 8 16 (s.uncertainty i)
  | .ADM_REGION_STATE => setBits v 8 8 (s.powerCapacity i)
  | .LNK_STATUS => setBits v 8 2 (axisOf i)
  | .COL_GROUP_INFO => match s.colGroup i with
    | some g => 1 + (g.sites - 1) * 2 + g.self * 2 ^ 5 + g.n * 2 ^ 18
    | none => 0
  | .HUB_WATCH => s.watchWord
  | .SAFE_STATUS => (s.resetWindows.reg .SAFE_STATUS 0).toNat
  | .PWR_GRAFT => setBits v 0 16 s.graftOut
  | .PWR_STATE => (s.slideWindow.reg .PWR_STATE 0).toNat
  | .RCL_STATUS => ((s.rclEngine i).reg .RCL_STATUS i).toNat
  | _ => v

/-! ### Chip resets and starts (R9, R406) -/

/-- Whether a register's unit lies in a chip reset (R402): not the links, field PHYs, sundial reference, safety monitor and always-on
domain. -/
def Reg.inChipReset (r : Reg) : Bool :=
  let page := r.offset / 65536
  page == 4 || decide (8 ≤ page)

/-- Registers of the mailbox, which wait while the hub is held (R406, R430). -/
def mailboxRegs : List Reg := [.HUB_MBOX_CMD, .HUB_MBOX_DOORBELL, .HUB_MBOX_RESULT, .HUB_MBOX_STATUS]

/-- Whether the seedbed's values have been loaded (R9, R386). -/
def State.configured (s : State) : Bool := s.bit Fld.HUB_CONFIG_STATUS_COMMITTED 0 || s.bootState == bsService

/-- Registers whose fields come from the seedbed (R9). -/
def seedbedRegs : List Reg :=
  [.KVM_POLICY, .KVM_DECAY, .ADM_POLICY, .ADM_BUDGET_MEM, .ADM_BUDGET_NET, .LNK_PLOT_WEIGHT, .PWR_REGION_CAP]

/-! ### Writes (R430 to R434) -/

/-- The state that an outcome goes on to. -/
def ranTo (r : Res) (s : State) : State :=
  match r with
  | .next t => t
  | _ => s

def plotIx (i : Nat) : PlotIx := ⟨i % 8, Nat.mod_lt _ (by decide)⟩
def linkIx (i : Nat) : LinkIx := ⟨i % 6, Nat.mod_lt _ (by decide)⟩
def portIx (i : Nat) : PortIx := ⟨i % 2, Nat.mod_lt _ (by decide)⟩
def blockIx (i : Nat) : BlockIx := ⟨i % 32, Nat.mod_lt _ (by decide)⟩
def segIx (i : Nat) : SegIx := ⟨i % 2048, Nat.mod_lt _ (by decide)⟩

/-- A start whose self-test outcomes are not supplied: they are free (notes/assumptions/37). -/
def State.restartFree (s : State) : State :=
  let (v, s) := s.fresh
  s.restart (v % 16)

/-- An exit from deep fallow whose tests' outcomes are not supplied: the retrieval engines' are free (notes/assumptions/37). -/
def State.exitFree (s : State) : State :=
  let (v, s) := s.fresh
  s.exitFallow [] (v % 16)

/-- What a write of value `v` to a register does, for an agent that reaches it; bits of other fields are zero in `v`. -/
def State.applyWrite (s : State) (a : Agent) (r : Reg) (i v : Nat) : State :=
  let w : W32 := BitVec.ofNat 32 v
  let off := r.offset + 4 * i
  let ignored := s.logIgnored chipPlot 13 off
  match r with
  | .CEL_SFU_WEIGHT | .CEL_ISSUE_QUANTUM => s.setReg r i w
  | .SFU_MODE =>
    let s := ranTo (execSfuModeCompat a (blockIx i) (v.testBit 0) s) s
    if v.testBit 31 && !s.blockBusy i then ranTo (execSfuModeTest a (blockIx i) s) s else s
  | .KVM_DOORBELL => ranTo (execKvmDoorbell a (plotIx i) w s) s
  | .ADM_DOORBELL => ranTo (execAdmDoorbell a (plotIx i) w s) s
  | .COL_TRIGGER => ranTo (execColTrigger a (plotIx i) w s) s
  | .KVM_POLICY => if policyOk v then s.viaStore (s.setReg r i w) else ignored
  | .KVM_DECAY => if decayOk v then s.viaStore (s.setReg r i w) else ignored
  | .ADM_BUDGET_MEM | .ADM_BUDGET_NET => if s.budgetFits r i v then s.viaStore (s.setReg r i w) else ignored
  | .LNK_PLOT_WEIGHT => s.viaStore (s.setReg r i w)
  | .MEM_COLD_SEG => ranTo (execMemColdSegWrite a (segIx i) w s) s
  | .SDL_STATUS => if s.configured then s.viaStore (s.setFld Fld.SDL_STATUS_GUARD 0 (bitsAt v 24 8)) else s
  | .ADM_POLICY =>
    s.viaStore ((s.setFld Fld.ADM_POLICY_DROOP_MARGIN 0 (bitsAt v 24 8)).setFld Fld.ADM_POLICY_POWER_RESERVE 0 (bitsAt v 16 8))
  | .LNK_CONTROL =>
    let s := if v.testBit 0 != s.bit Fld.LNK_CONTROL_DISABLE i then ranTo (execLnkDisable a (linkIx i) (v.testBit 0) s) s else s
    let s := if v.testBit 30 then ranTo (execLnkRetrain a (linkIx i) s) s else s
    if v.testBit 31 then ranTo (execLnkRelease a (linkIx i) s) s else s
  | .FLD_CONTROL =>
    let s := if s.configured then s.viaStore (s.setFld Fld.FLD_CONTROL_MODE i (bitsAt v 0 2)) else s
    let s := ranTo (execFldDisable a (portIx i) (v.testBit 2) s) s
    if v.testBit 31 then ranTo (execFldRetrain a (portIx i) s) s else s
  | .BOOT_CONTROL =>
    let s := (s.setBit Fld.BOOT_CONTROL_FORCE_SPARSE 0 (v.testBit 1)).setBit Fld.BOOT_CONTROL_NEXT 0 (v.testBit 0)
    let s := if v.testBit 31 then s.bootGo else s
    if v.testBit 30 then s.restartFree else s
  | .BOOT_IMAGE_LOW | .BOOT_IMAGE_HIGH | .BOOT_IMAGE_SIZE => if s.bootState = bsFetch then s.logIgnored chipPlot 14 off else s.setReg r i w
  | .BOOT_SUNDIAL_LOW => s.setReg r i w
  | .BOOT_SUNDIAL_HIGH => s.armSundial w
  | .SAFE_RESET => s.safeReset v
  | .SAFE_CONTROL =>
    let s := if v.testBit 31 then s.releaseChip else s
    (List.range 4).foldl (fun s g => if v.testBit g then s.releaseRegion g else s) s
  | .HUB_PRIV_LOCK =>
    if s.privLocked then s.lockViol a off else { s.setBit Fld.HUB_PRIV_LOCK_DROP 0 (v.testBit 0) with privLocked := true }
  | .HUB_CONFIG_REF => s.writeRef a w
  | .HUB_MBOX_CMD => if s.bit Fld.HUB_MBOX_STATUS_BUSY 0 then s.setBit Fld.HUB_MBOX_STATUS_REJECTED 0 true else s.setReg r i w
  | .HUB_MBOX_DOORBELL => if v.testBit 31 then ranTo (execMboxGo a s) s else s
  | .PWR_REGION_CAP => s.writeCap i v
  | .PWR_CONTROL =>
    let s := if v.testBit 31 then s.enterFallow else s
    if v.testBit 30 then s.exitFree else s
  | _ => s

/-- A write that reaches its register. -/
def State.acceptWrite (s : State) (a : Agent) (r : Reg) (i v : Nat) : State := (s.applyWrite a r i v).overUpset r i v

/-- A write in the general view to an instance that is not the agent's: another plot's is recorded in the writing plot's log alone, one that
no plot holds is ignored (R371, R426). -/
def State.foreignWrite (s : State) (a : Agent) (r : Reg) (i off : Nat) : State :=
  match s.ownerOf r i with
  | .plot _ => s.refusedWrite a off
  | _ => s

/-- Bits that a base write changes or acts on. -/
def Reg.writeBits (r : Reg) (priv : Bool) : Nat :=
  r.bitsOf fun f => (f.acc == .rw || f.acc == .wo || f.acc == .w1l) && (priv || !f.priv)

/-- Whether a register takes writes now: the mailbox not while the hub is held, seedbed registers not before they are loaded. -/
def State.writable (s : State) (r : Reg) : Bool :=
  !(mailboxRegs.contains r && s.hubHeld) && (!seedbedRegs.contains r || s.configured)

/-- A base-view write by an agent (R426, R430, R433): unaligned it is ignored and recorded; a location without a register, a field the
view does not reach and an instance of another plot or of none ignore it. -/
def State.writeReg (s : State) (a : Agent) (priv : Bool) (off : Nat) (v : W32) : State :=
  if off % 4 ≠ 0 then s.logIgnored ((a.plot?).getD chipPlot) 13 off
  else match Reg.atKey (off / 4) with
    | none => s
    | some (r, i) =>
      if !s.reaches a priv r i then (if priv then s else s.foreignWrite a r i off)
      else
        let m := r.writeBits priv
        if m = 0 ∨ s.writable r = false then s else s.acceptWrite a r i (Nat.land v.toNat m)

/-- Offset within a view. -/
def viewSize : Nat := 0x8000000

/-- The alias of an offset: 0 base, 1 set, 2 clear, 3 toggle (R428). -/
def aliasOf (off : Nat) : Nat := off % 65536 / 0x4000

/-- The base offset of an alias. -/
def baseOf (off : Nat) : Nat := off / 65536 * 65536 + off % 0x4000

/-- A write through an alias (R429): RW fields change; ones on a WO field are ignored and recorded; ones on a W1L field are a lock
violation. -/
def State.writeAlias (s : State) (a : Agent) (priv : Bool) (off : Nat) (v : W32) : State :=
  if off % 4 ≠ 0 then s.logIgnored ((a.plot?).getD chipPlot) 13 off
  else if aliasOf off = 0 then s.writeReg a priv off v
  else match Reg.atKey (baseOf off / 4) with
    | none => s
    | some (r, i) =>
      if !s.reaches a priv r i then (if priv then s else s.foreignWrite a r i off)
      else
        let rw := r.accBits .rw priv
        let n := Nat.land v.toNat rw
        let old := Nat.land (s.stored r i) rw
        let new := if aliasOf off = 1 then Nat.lor old n else if aliasOf off = 2 then clearMask old n else Nat.xor old n
        let s := if Nat.land v.toNat (r.accBits .wo priv) ≠ 0 then s.logIgnored ((a.plot?).getD chipPlot) 13 off else s
        let s := if Nat.land v.toNat (r.accBits .w1l priv) ≠ 0 then s.lockViol a (baseOf off) else s
        if rw = 0 ∨ s.writable r = false then s else s.acceptWrite a r i new

/-- REGISTER_WRITE (R424 to R434). -/
def execRegisterWrite (a : Agent) (priv : Bool) (off : Nat) (v : W32) (s : State) : Res :=
  if !s.arrives a || decide (viewSize ≤ off) then .next s else .next (s.writeAlias a priv off v)

/-- ALIAS_WRITE (R428, R429). -/
def execAliasWrite (a : Agent) (priv : Bool) (off : Nat) (v : W32) (s : State) : Res :=
  if !s.arrives a || decide (viewSize ≤ off) || aliasOf off == 0 then .next s else .next (s.writeAlias a priv off v)

/-- W1L_WRITE (R434): a base-view write of a register with a W1L field. -/
def execW1lWrite (a : Agent) (off : Nat) (v : W32) (s : State) : Res :=
  if !s.arrives a || aliasOf off != 0 || ((Reg.atKey (off / 4)).elim true fun e => e.1.accBits .w1l true == 0) then .next s
  else .next (s.writeReg a true off v)

/-- PRIV_LOCK_DROP (R427, R434): a write of 1 to HUB_PRIV_LOCK.DROP. -/
def execPrivLockDrop (a : Agent) (s : State) : Res :=
  if !s.arrives a then .next s else .next (s.writeReg a true (Reg.offset .HUB_PRIV_LOCK) 1)

/-! ### Reads (R270, R422, R430, R432) -/

/-- The number of the performance counter at an offset, and whether it is the high register (R435). -/
def perfAt (off : Nat) : Option (Nat × Bool) :=
  if 0x1000000 ≤ off ∧ off < 0x1800000 ∧ aliasOf off = 0 then
    some ((off / 65536 - 0x100) * 2048 + off % 65536 / 8, off % 8 == 4)
  else none

def State.perfOf (s : State) (n : Nat) : Perf := Sparse.get (fun _ => ⟨0, false, 0⟩) s.perf n

def State.setPerf (s : State) (n : Nat) (x : Perf) : State := { s with perf := Sparse.set (fun _ => ⟨0, false, 0⟩) s.perf n x }

/-- A read of a performance counter (R422): the low register latches the high half; the high register returns the latched half and OVF,
which it clears. -/
def State.readPerf (s : State) (n : Nat) (high : Bool) : State :=
  let x := s.perfOf n
  if high then { s.setPerf n { x with ovf := false } with rdata := BitVec.ofNat 32 (x.high % 65536 + x.ovf.toNat * 2 ^ 31) }
  else { s.setPerf n { x with high := x.count / 2 ^ 32 } with rdata := BitVec.ofNat 32 x.count }

/-- What a read in a view returns, side effects apart: zero where the agent reaches nothing, where the location has no register, where
the access is not aligned, and in BAR0 for a unit under a chip reset. -/
def State.readValue (s : State) (a : Agent) (priv : Bool) (off : Nat) : Nat :=
  if off % 4 ≠ 0 then 0
  else match Reg.atKey (baseOf off / 4) with
    | none => 0
    | some (r, i) =>
      if !s.reaches a priv r i || (!priv && s.hubHeld && r.inChipReset) then 0
      else if r = .SDL_TIME_HIGH then Sparse.get (fun _ => 0) s.latch a.number
      else Nat.land (s.regNow r i) (r.readBits priv)

/-- The side effects of a base-view read that returned `v`: the bits of RC fields that read one are cleared, a read of SDL_TIME_LOW
latches, one of SAFE_RESET_INFO starts its log window anew (R449). -/
def State.readEffect (s : State) (a : Agent) (priv : Bool) (off v : Nat) : State :=
  match Reg.atKey (off / 4) with
  | none => s
  | some (r, i) =>
    if off % 4 ≠ 0 ∨ s.reaches a priv r i = false ∨ (priv = false ∧ s.hubHeld = true ∧ r.inChipReset = true) then s
    else if r = .SDL_TIME_LOW then ranTo (execSdlTimeLowRead a s) s
    else
      let rc := r.accBits .rc priv
      let s := if rc = 0 then s else s.setReg r i (BitVec.ofNat 32 (clearMask (s.reg r i).toNat (Nat.land v rc)))
      if r = .SAFE_RESET_INFO ∧ priv = true then { s with alertFrom := s.logSeq } else s

/-- RC_READ (R426, R429, R430, R432): a register read, with its side effects; through an alias it has none, and an unaligned one is ignored,
recorded and reads zero. A mailbox register waits while the
hub is held. -/
def execRcRead (a : Agent) (priv : Bool) (off : Nat) (s : State) : Res :=
  if !s.arrives a || decide (viewSize ≤ off) then .next s
  else if off % 4 ≠ 0 then .next { s.logIgnored ((a.plot?).getD chipPlot) 13 off with rdata := 0 }
  else match perfAt off with
    | some (n, high) => .next (s.readPerf n high)
    | none =>
      if s.hubHeld && (Reg.atKey (baseOf off / 4)).any fun e => mailboxRegs.contains e.1 then .next s
      else
        let v := s.readValue a priv off
        let s := if aliasOf off = 0 then s.readEffect a priv off v else s
        .next { s with rdata := BitVec.ofNat 32 v }

/-- PERF_COUNTER_READ (R422): counter `n` has counted `steps` more of its events, wrapping at 48 bits with OVF; its low register is read. -/
def execPerfCounterRead (a : Agent) (n : Nat) (steps : Nat) (s : State) : Res :=
  if !s.arrives a || decide (128 * 2048 ≤ n) then .next s
  else
    let x := s.perfOf n
    let c := x.count + steps
    .next ((s.setPerf n { x with count := c % 2 ^ 48, ovf := x.ovf || decide (2 ^ 48 ≤ c) }).readPerf n false)

/-! ### The configuration scanner (R22, R398, R437, R439) -/

/-- CONFIG_SCAN_START (R437): a pass starts; `flips` are the bits of the store that something other than its write path has changed. -/
def execConfigScanStart (flips : List WordFlip) (s : State) : Res :=
  if !s.boot.seqOk then .next s
  else
    let upset := flips.foldl (fun u f =>
      if f.word < 16384 then Sparse.set (fun _ => 0) u f.word (Nat.xor (Sparse.get (fun _ => 0) u f.word) (f.bits % 2 ^ 32)) else u) s.storeUpset
    .next { s with storeUpset := upset, scanStart := some s.sundial }

/-- A mismatch (R22, R398, R439): MISMATCH, admission stops, a chip reset is requested, and the tasks that ended within 2,000,000 ticks are
suspects in their plots' logs. -/
def State.configMismatch (s : State) : State :=
  let s := (s.setBit Fld.HUB_CONFIG_STATUS_MISMATCH 0 true).setBit Fld.ADM_POLICY_STOPPED 0 true
  let s := (s.endedTasks.filter fun e => decide (s.sundial ≤ e.2.2 + 2000000)).foldl (fun (s : State) e =>
    s.logEvent e.1 14 3 68 (e.2.1 + e.2.2 * 2 ^ 32)) s
  s.requestReset 4 0x08 0 none

/-- CONFIG_SCAN_PASS (R437, R439): a pass ends. -/
def execConfigScanPass (s : State) : Res :=
  match s.scanStart with
  | none => .next s
  | some _ =>
    let crc : W32 := BitVec.ofNat 32 s.storeCrc
    let s := ({ s with scanStart := none }.stepFld Fld.HUB_CONFIG_STATUS_PASSES 0).setReg .HUB_CONFIG_CRC 0 crc
    if s.bit Fld.HUB_CONFIG_STATUS_COMMITTED 0 && crc != s.reg .HUB_CONFIG_REF 0 then .next s.configMismatch else .next s

end Sys2Proof.Machine
end

