-- ==== Sys2Proof/Machine/Events.lean ====
section
/-!
DEFINITION. The events of the sundial (R279, R280): what fires next, deferred launches, and scheduled register writes.
-/

namespace Sys2Proof.Machine
open Sys2Proof

/-! ### What is due (R279) -/

/-- The place of a kind of event in the order of R279. -/
def EventKind.rank : EventKind → Nat
  | .taskStart _ => 0
  | .streamRun _ => 1
  | .hop _ => 2
  | .collective _ => 3
  | .indexSwap _ _ => 4
  | .snapshot _ => 5
  | .write _ _ _ _ => 6

/-- Whether a task that waits for its start can take its cells. -/
def State.canStart (s : State) (tid : Nat) : Bool :=
  match s.task tid with
  | some t => t.accepted && s.mayQueue tid t && t.cells.all fun c => (s.cell c).task.isNone
  | none => false

/-- The events that stand armed in what arms them: runs of persistent contexts, hops and collective launches at a tick. -/
def State.standing (s : State) : List Event :=
  (s.streams.filterMap fun (e : Nat × Stream) =>
    if s.runDue e.2 && s.nextStart e.2 != 0 then some ⟨s.nextStart e.2, e.2.arming, .streamRun e.1, some e.2.task⟩ else none) ++
  (s.groups.filterMap fun (e : Nat × GroupCtx) =>
    let d := s.groupDesc e.2.desc
    if s.hopDue e.2 e.1 && d.period != 0 && !e.2.late then
      some ⟨d.start + e.2.nextHop * d.period, e.1, .hop e.1, some e.2.task⟩ else none) ++
  s.chains.filterMap fun (e : Nat × Chain) =>
    match e.2.headOp with
    | some d => match s.colGroup d.group with
      | some g =>
        if s.fireable e.1 e.2 d g && !s.ringShift d && d.start != 0 && !e.2.deferred && decide (d.start ≤ s.sundial) then
          some ⟨d.start, e.1, .collective e.1, none⟩
        else none
      | none => none
    | none => none

/-- Every event that is due now. -/
def State.dueEvents (s : State) : List Event :=
  (s.events.filter fun e => decide (e.tick ≤ s.sundial) && (match e.kind with
    | .taskStart t => s.canStart t
    | _ => true)) ++ s.standing

/-- The order of firing: by tick, then the table's order, then arming order. -/
def Event.before (a b : Event) : Bool :=
  if a.tick ≠ b.tick then decide (a.tick < b.tick)
  else if a.kind.rank ≠ b.kind.rank then decide (a.kind.rank < b.kind.rank) else decide (a.order ≤ b.order)

def State.nextEvent (s : State) : Option Event :=
  match s.dueEvents with
  | [] => none
  | e :: l => some (l.foldl (fun a b => if a.before b then a else b) e)

/-! ### Scheduled register writes (R280, R441) -/

/-- Writes pending on the chip. -/
def State.pendingWrites (s : State) : Nat := (s.events.filter fun e => e.kind.rank == 6).length

/-- Whether a plot, or the privileged side, may write what lies at an offset. -/
def State.mayWrite (s : State) (who : Option Nat) (off : Nat) : Bool :=
  decide (off < viewSize) && off % 4 == 0 && match Reg.atKey (baseOf off / 4) with
    | none => false
    | some (r, i) =>
      let priv := who.isNone
      let bits := if aliasOf off = 0 then r.writeBits priv else r.accBits .rw priv
      bits != 0 && (priv || s.ownerOf r i == .of who)

/-- The STATUS of a write to be scheduled; an accepted one is armed. -/
def State.schedule (s : State) (who : Option Nat) (tick off v : Nat) : Nat × State :=
  if !s.mayWrite who off then (stBadArg, s)
  else if tick < s.sundial + 1000 then (stLate, s)
  else if 64 ≤ s.pendingWrites then (stLimit, s)
  else (stOk, { s with
    events := s.events ++ [⟨tick, s.eventSeq, .write (who.getD chipPlot) off v who.isNone, none⟩], eventSeq := s.eventSeq + 1 })

/-- SCHED_WRITE (R280, R441), from a plot's ring or the host mailbox. -/
def execSchedWrite (who : Option PlotIx) (s : State) : Res :=
  match who with
  | some p =>
    .next (s.runCommand p.val 0x30 (fun c => c.cleanFrom 24 && c.seqNo == 0) fun c s =>
      let r := s.schedule (some p.val) (c.arg 8 8) (c.arg 16 4) (c.arg 20 4)
      r.2.finishOpen c.id r.1)
  | none =>
    .next (s.runMbox 0x30 (fun c => c.mboxClean 24) fun c s =>
      let r := s.schedule none (c.arg 8 8) (c.arg 16 4) (c.arg 20 4)
      r.2.mboxOpen r.1)

/-- A scheduled write takes effect as if its poster made it now. -/
def State.fireWrite (s : State) (e : Event) (p off v : Nat) (priv : Bool) : State :=
  let s := { s with events := s.events.filter fun x => x != e }
  let s := if p < 8 then s.markUnsync p else s
  let w : W32 := BitVec.ofNat 32 v
  if priv then s.writeAlias .mgmt true off w else s.writeAlias (.vf (plotIx p)) false off w

/-! ### Firing -/

def streamIx (i : Nat) : StreamIx := ⟨i % 512, Nat.mod_lt _ (by decide)⟩
def chainIx (i : Nat) : ChainIx := ⟨i % 256, Nat.mod_lt _ (by decide)⟩

/-- An event takes effect. -/
def State.fireEvent (s : State) (e : Event) : State :=
  match e.kind with
  | .taskStart t => ranTo (execTaskStart t s) s
  | .streamRun i => ranTo (execPersistentRun (streamIx i) .clean s) s
  | .hop p => ranTo (execHopLaunch (plotIx p) s) s
  | .collective c => ranTo (execOpFire (chainIx c) s) s
  | .indexSwap _ k => s.swapIndex k
  | .snapshot n => { s.startWaiting n with events := (s.startWaiting n).events.filter fun x => x != e }
  | .write p off v priv => s.fireWrite e p off v priv

/-- SUNDIAL_EVENT (R279): the event that is due first takes effect. -/
def execSundialEvent (s : State) : Res :=
  match s.nextEvent with
  | some e => .next (s.fireEvent e)
  | none => .next s

/-- DEFERRED_EVENT (R279): link `l` is SYNCED; the hops and launches deferred for it fire. -/
def execDeferredEvent (l : LinkIx) (s : State) : Res :=
  if s.syncState l.val ≠ sySynced then .next s
  else
    let hops := s.groups.filter fun (e : Nat × GroupCtx) => e.2.late && s.ringLink (s.groupDesc e.2.desc) == some l.val
    let s := hops.foldl (fun (s : State) e => ranTo (execHopLaunch (plotIx e.1) s) s) s
    let heads := s.chains.filter fun (e : Nat × Chain) => e.2.deferred && (match e.2.headOp with
      | some d => match s.colGroup d.group with
        | some g => (s.opLinks d g).contains l.val
        | none => false
      | none => false)
    .next (heads.foldl (fun (s : State) e => ranTo (execOpFire (chainIx e.1) s) s) s)

end Sys2Proof.Machine
end

