-- ==== Sys2Proof/Machine/Dispatch.lean ====
section
/-!
DEFINITION. The dispatch of commands to their meanings: one arm per constructor.
-/

namespace Sys2Proof.Machine
open Sys2Proof

/-- The effect of a command on everything but the queue. -/
def exec (i : Instr) (s : State) : Host.Outcome State Fault Refusal :=
  match i with
  | .mma c w o e => Sys2Proof.Machine.execMma c w o e s
  | .ats c w e => Sys2Proof.Machine.execAts c w e s
  | .maskTileFetch c e => Sys2Proof.Machine.execMaskTileFetch c e s
  | .atv c w e => Sys2Proof.Machine.execAtv c w e s
  | .vop c w o e => Sys2Proof.Machine.execVop c w o e s
  | .cvt c w o e => Sys2Proof.Machine.execCvt c w o e s
  | .rowoutPartial c w e => Sys2Proof.Machine.execRowoutPartial c w e s
  | .rowoutFinalSlots c w e => Sys2Proof.Machine.execRowoutFinalSlots c w e s
  | .rowoutFinalScratchpad c w e => Sys2Proof.Machine.execRowoutFinalScratchpad c w e s
  | .rowoutMerge c w e => Sys2Proof.Machine.execRowoutMerge c w e s
  | .blockMerge c e => Sys2Proof.Machine.execBlockMerge c e s
  | .sfn c w e => Sys2Proof.Machine.execSfn c w e s
  | .sqacc c w e => Sys2Proof.Machine.execSqacc c w e s
  | .rmsr c w e => Sys2Proof.Machine.execRmsr c w e s
  | .mul3 c w e => Sys2Proof.Machine.execMul3 c w e s
  | .sfnVectorGrant b t => Sys2Proof.Machine.execSfnVectorGrant b t s
  | .sfnResult c => Sys2Proof.Machine.execSfnResult c s
  | .checkLaneMismatch c lane => Sys2Proof.Machine.execCheckLaneMismatch c lane s
  | .waitSem c w => Sys2Proof.Machine.execWaitSem c w s
  | .postSem c w => Sys2Proof.Machine.execPostSem c w s
  | .cellLoop c w count target => Sys2Proof.Machine.execCellLoop c w count target s
  | .cellJump c w target => Sys2Proof.Machine.execCellJump c w target s
  | .cellEnd c w => Sys2Proof.Machine.execCellEnd c w s
  | .residueCheckReport c lanes ok => Sys2Proof.Machine.execResidueCheckReport c lanes ok s
  | .drainAck c => Sys2Proof.Machine.execDrainAck c s
  | .transferTile c => Sys2Proof.Machine.execTransferTile c s
  | .quantumMet c => Sys2Proof.Machine.execQuantumMet c s
  | .chainTile st => Sys2Proof.Machine.execChainTile st s
  | .sfuLoadTest b t1 t2 => Sys2Proof.Machine.execSfuLoadTest b t1 t2 s
  | .sfuModeTest a b => Sys2Proof.Machine.execSfuModeTest a b s
  | .sfuModeCompat a b v => Sys2Proof.Machine.execSfuModeCompat a b v s
  | .sfuLoad p => Sys2Proof.Machine.execSfuLoad p s
  | .sfuUnload p => Sys2Proof.Machine.execSfuUnload p s
  | .trayFill p => Sys2Proof.Machine.execTrayFill p s
  | .trayAccept p => Sys2Proof.Machine.execTrayAccept p s
  | .trayDiscard p => Sys2Proof.Machine.execTrayDiscard p s
  | .trayCommit p => Sys2Proof.Machine.execTrayCommit p s
  | .dibberDone p n tail => Sys2Proof.Machine.execDibberDone p n tail s
  | .dibberRolledBack p n tail => Sys2Proof.Machine.execDibberRolledBack p n tail s
  | .kvmDoorbell a p v => Sys2Proof.Machine.execKvmDoorbell a p v s
  | .seqCreate p => Sys2Proof.Machine.execSeqCreate p s
  | .seqDestroy p => Sys2Proof.Machine.execSeqDestroy p s
  | .append p => Sys2Proof.Machine.execAppend p s
  | .globalAdd p => Sys2Proof.Machine.execGlobalAdd p s
  | .walk p rows => Sys2Proof.Machine.execWalk p rows s
  | .peerWalk m p n a rows recalls => Sys2Proof.Machine.execPeerWalk m p n a rows recalls s
  | .prefetch p => Sys2Proof.Machine.execPrefetch p s
  | .pin p => Sys2Proof.Machine.execPin p s
  | .copyPrefix p => Sys2Proof.Machine.execCopyPrefix p s
  | .bufAlloc p => Sys2Proof.Machine.execBufAlloc p s
  | .bufFree p => Sys2Proof.Machine.execBufFree p s
  | .migrate p => Sys2Proof.Machine.execMigrate p s
  | .bucket p => Sys2Proof.Machine.execBucket p s
  | .commitPoint p n => Sys2Proof.Machine.execCommitPoint p n s
  | .signatureAppend c => Sys2Proof.Machine.execSignatureAppend c s
  | .pressureHandling p t => Sys2Proof.Machine.execPressureHandling p t s
  | .convertToCutting id c => Sys2Proof.Machine.execConvertToCutting id c s
  | .hostAlloc m hosting seqNo order epoch => Sys2Proof.Machine.execHostAlloc m hosting seqNo order epoch s
  | .hostSeal m handle count crc => Sys2Proof.Machine.execHostSeal m handle count crc s
  | .hostQuery m handle => Sys2Proof.Machine.execHostQuery m handle s
  | .hostFree m handle => Sys2Proof.Machine.execHostFree m handle s
  | .hostReplyTimeout id => Sys2Proof.Machine.execHostReplyTimeout id s
  | .pageMoveCommit id => Sys2Proof.Machine.execPageMoveCommit id s
  | .sourceFree => Sys2Proof.Machine.execSourceFree s
  | .orphanReclaim => Sys2Proof.Machine.execOrphanReclaim s
  | .stepHeader m => Sys2Proof.Machine.execStepHeader m s
  | .queryPiece m => Sys2Proof.Machine.execQueryPiece m s
  | .partialPiece m => Sys2Proof.Machine.execPartialPiece m s
  | .peerCommit lead p n pos count generation data => Sys2Proof.Machine.execPeerCommit lead p n pos count generation data s
  | .hopLaunch p => Sys2Proof.Machine.execHopLaunch p s
  | .ringTimeout p layer group => Sys2Proof.Machine.execRingTimeout p layer group s
  | .ringBufferRelease gi => Sys2Proof.Machine.execRingBufferRelease gi s
  | .idxCreate p => Sys2Proof.Machine.execIdxCreate p s
  | .idxDestroy p => Sys2Proof.Machine.execIdxDestroy p s
  | .idxStage p => Sys2Proof.Machine.execIdxStage p s
  | .idxSwap p => Sys2Proof.Machine.execIdxSwap p s
  | .indexSwap ix => Sys2Proof.Machine.execIndexSwap ix s
  | .insertEntry p => Sys2Proof.Machine.execInsertEntry p s
  | .deleteEntry p => Sys2Proof.Machine.execDeleteEntry p s
  | .compact p => Sys2Proof.Machine.execCompact p s
  | .compaction ix list => Sys2Proof.Machine.execCompaction ix list s
  | .versionRelease ix list => Sys2Proof.Machine.execVersionRelease ix list s
  | .queryBatch p => Sys2Proof.Machine.execQueryBatch p s
  | .snapshotWait batch => Sys2Proof.Machine.execSnapshotWait batch s
  | .chunk r e => Sys2Proof.Machine.execChunk r e s
  | .resultWrite batch query => Sys2Proof.Machine.execResultWrite batch query s
  | .shardedBatch m => Sys2Proof.Machine.execShardedBatch m s
  | .knownAnswerTest r ok => Sys2Proof.Machine.execKnownAnswerTest r ok s
  | .progLoop st => Sys2Proof.Machine.execProgLoop st s
  | .nextLoop st => Sys2Proof.Machine.execNextLoop st s
  | .seta st => Sys2Proof.Machine.execSeta st s
  | .adda st => Sys2Proof.Machine.execAdda st s
  | .moveBytes st e => Sys2Proof.Machine.execMoveBytes st e s
  | .zeroBytes st => Sys2Proof.Machine.execZeroBytes st s
  | .flush st => Sys2Proof.Machine.execFlush st s
  | .idx st => Sys2Proof.Machine.execIdx st s
  | .page st e => Sys2Proof.Machine.execPage st e s
  | .trail st header e => Sys2Proof.Machine.execTrail st header e s
  | .progEnd st => Sys2Proof.Machine.execProgEnd st s
  | .tileComplete st => Sys2Proof.Machine.execTileComplete st s
  | .persistentRun st e => Sys2Proof.Machine.execPersistentRun st e s
  | .backgroundPromotion st => Sys2Proof.Machine.execBackgroundPromotion st s
  | .slotMeter => Sys2Proof.Machine.execSlotMeter s
  | .eccReport => Sys2Proof.Machine.execEccReport s
  | .scrubPassStart k => Sys2Proof.Machine.execScrubPassStart k s
  | .scrubPromote k => Sys2Proof.Machine.execScrubPromote k s
  | .scrubPassEnd k found => Sys2Proof.Machine.execScrubPassEnd k found s
  | .memColdSegWrite a j v => Sys2Proof.Machine.execMemColdSegWrite a j v s
  | .syncExchange l => Sys2Proof.Machine.execSyncExchange l s
  | .syncFlit l f => Sys2Proof.Machine.execSyncFlit l f s
  | .sundialJoin l => Sys2Proof.Machine.execSundialJoin l s
  | .exchangeMiss l => Sys2Proof.Machine.execExchangeMiss l s
  | .linkDormant l => Sys2Proof.Machine.execLinkDormant l s
  | .sdlTimeLowRead a => Sys2Proof.Machine.execSdlTimeLowRead a s
  | .sundialEvent => Sys2Proof.Machine.execSundialEvent s
  | .deferredEvent l => Sys2Proof.Machine.execDeferredEvent l s
  | .schedWrite who => Sys2Proof.Machine.execSchedWrite who s
  | .admDoorbell a p v => Sys2Proof.Machine.execAdmDoorbell a p v s
  | .admissionRequest p body => Sys2Proof.Machine.execAdmissionRequest p body s
  | .streamCheckEnd tid => Sys2Proof.Machine.execStreamCheckEnd tid s
  | .taskStart tid => Sys2Proof.Machine.execTaskStart tid s
  | .taskEnd tid => Sys2Proof.Machine.execTaskEnd tid s
  | .deadlineAbort tid => Sys2Proof.Machine.execDeadlineAbort tid s
  | .throttleChange r => Sys2Proof.Machine.execThrottleChange r s
  | .capacityLoss => Sys2Proof.Machine.execCapacityLoss s
  | .dataFlit l seqNo vc phase isShared crcOk => Sys2Proof.Machine.execDataFlit l seqNo vc phase isShared crcOk s
  | .linkControlFlit l c => Sys2Proof.Machine.execLinkControlFlit l c s
  | .replayTimeout l => Sys2Proof.Machine.execReplayTimeout l s
  | .laneFailure l lane => Sys2Proof.Machine.execLaneFailure l lane s
  | .trainingComplete l failed delay => Sys2Proof.Machine.execTrainingComplete l failed delay s
  | .retrainEnd l locked failed => Sys2Proof.Machine.execRetrainEnd l locked failed s
  | .discoverySend l => Sys2Proof.Machine.execDiscoverySend l s
  | .discoveryRecord l q => Sys2Proof.Machine.execDiscoveryRecord l q s
  | .switchRecord l plane rack port => Sys2Proof.Machine.execSwitchRecord l plane rack port s
  | .discoverySilence l => Sys2Proof.Machine.execDiscoverySilence l s
  | .lnkRelease a l => Sys2Proof.Machine.execLnkRelease a l s
  | .lnkRetrain a l => Sys2Proof.Machine.execLnkRetrain a l s
  | .lnkDisable a l v => Sys2Proof.Machine.execLnkDisable a l v s
  | .fabricWrite m e => Sys2Proof.Machine.execFabricWrite m e s
  | .readRequest m e => Sys2Proof.Machine.execReadRequest m e s
  | .readReply m => Sys2Proof.Machine.execReadReply m s
  | .collectivePiece m => Sys2Proof.Machine.execCollectivePiece m s
  | .creditReturn m => Sys2Proof.Machine.execCreditReturn m s
  | .readyNotice m => Sys2Proof.Machine.execReadyNotice m s
  | .frost m => Sys2Proof.Machine.execFrost m s
  | .chainArm p => Sys2Proof.Machine.execChainArm p s
  | .chainRelease p => Sys2Proof.Machine.execChainRelease p s
  | .opAbort p => Sys2Proof.Machine.execOpAbort p s
  | .colTrigger a p v => Sys2Proof.Machine.execColTrigger a p v s
  | .opFire c => Sys2Proof.Machine.execOpFire c s
  | .ringChunk id stage piece off e => Sys2Proof.Machine.execRingChunk id stage piece off e s
  | .opComplete id e => Sys2Proof.Machine.execOpComplete id e s
  | .collectiveTimeout gi opseq => Sys2Proof.Machine.execCollectiveTimeout gi opseq s
  | .errorReport gi => Sys2Proof.Machine.execErrorReport gi s
  | .neighborSolicitation q own => Sys2Proof.Machine.execNeighborSolicitation q own s
  | .afithData q d => Sys2Proof.Machine.execAfithData q d s
  | .afithAck q d => Sys2Proof.Machine.execAfithAck q d s
  | .ackTimer conn => Sys2Proof.Machine.execAckTimer conn s
  | .openConn q conn known major epoch => Sys2Proof.Machine.execOpenConn q conn known major epoch s
  | .openAck q conn known epoch => Sys2Proof.Machine.execOpenAck q conn known epoch s
  | .afithReset q conn known epoch => Sys2Proof.Machine.execAfithReset q conn known epoch s
  | .openRetry conn => Sys2Proof.Machine.execOpenRetry conn s
  | .retransmitTimeout conn psn => Sys2Proof.Machine.execRetransmitTimeout conn psn s
  | .giveUp conn => Sys2Proof.Machine.execGiveUp conn s
  | .fldSend p => Sys2Proof.Machine.execFldSend p s
  | .pcsAlignmentLoss q => Sys2Proof.Machine.execPcsAlignmentLoss q s
  | .fldRetrain a q => Sys2Proof.Machine.execFldRetrain a q s
  | .fldDisable a q v => Sys2Proof.Machine.execFldDisable a q v s
  | .ptpSync q f => Sys2Proof.Machine.execPtpSync q f s
  | .ptpLockLoss => Sys2Proof.Machine.execPtpLockLoss s
  | .plotCreate => Sys2Proof.Machine.execPlotCreate s
  | .plotSet => Sys2Proof.Machine.execPlotSet s
  | .plotGrow => Sys2Proof.Machine.execPlotGrow s
  | .plotShrink loads => Sys2Proof.Machine.execPlotShrink loads s
  | .plotStop => Sys2Proof.Machine.execPlotStop s
  | .plotStart => Sys2Proof.Machine.execPlotStart s
  | .plotResize => Sys2Proof.Machine.execPlotResize s
  | .plotDestroy loads => Sys2Proof.Machine.execPlotDestroy loads s
  | .groupSet => Sys2Proof.Machine.execGroupSet s
  | .powerOn straps pass => Sys2Proof.Machine.execPowerOn straps pass s
  | .pwrSeqOkFall => Sys2Proof.Machine.execPwrSeqOkFall s
  | .perstAssert => Sys2Proof.Machine.execPerstAssert s
  | .perstRelease straps pass => Sys2Proof.Machine.execPerstRelease straps pass s
  | .bootRestart a pass => Sys2Proof.Machine.execBootRestart a pass s
  | .bootGo a => Sys2Proof.Machine.execBootGo a s
  | .imageVerified => Sys2Proof.Machine.execImageVerified s
  | .nvmOwnFall => Sys2Proof.Machine.execNvmOwnFall s
  | .nvmOwnRise => Sys2Proof.Machine.execNvmOwnRise s
  | .nvmWaitExpiry => Sys2Proof.Machine.execNvmWaitExpiry s
  | .seedbedReadDone img => Sys2Proof.Machine.execSeedbedReadDone img s
  | .firmwareEntry copyOk => Sys2Proof.Machine.execFirmwareEntry copyOk s
  | .memoryTrainingDone failed stackBits loads => Sys2Proof.Machine.execMemoryTrainingDone failed stackBits loads s
  | .bootSundialHigh a v => Sys2Proof.Machine.execBootSundialHigh a v s
  | .domainReset o => Sys2Proof.Machine.execDomainReset o s
  | .safeReset a v => Sys2Proof.Machine.execSafeReset a v s
  | .releaseChip a => Sys2Proof.Machine.execReleaseChip a s
  | .releaseRegion a r => Sys2Proof.Machine.execReleaseRegion a r s
  | .replay spent fault => Sys2Proof.Machine.execReplay spent fault s
  | .replayGuilty o => Sys2Proof.Machine.execReplayGuilty o s
  | .heartbeat => Sys2Proof.Machine.execHeartbeat s
  | .watchOverdue => Sys2Proof.Machine.execWatchOverdue s
  | .coolingEnd => Sys2Proof.Machine.execCoolingEnd s
  | .lockstepMismatch service => Sys2Proof.Machine.execLockstepMismatch service s
  | .pllLoss k => Sys2Proof.Machine.execPllLoss k s
  | .pcieRefclkLoss => Sys2Proof.Machine.execPcieRefclkLoss s
  | .logRead who => Sys2Proof.Machine.execLogRead who s
  | .harvestRead => Sys2Proof.Machine.execHarvestRead s
  | .perfCounterRead a n steps => Sys2Proof.Machine.execPerfCounterRead a n steps s
  | .registerWrite a priv off v => Sys2Proof.Machine.execRegisterWrite a priv off v s
  | .aliasWrite a priv off v => Sys2Proof.Machine.execAliasWrite a priv off v s
  | .rcRead a priv off => Sys2Proof.Machine.execRcRead a priv off s
  | .w1lWrite a off v => Sys2Proof.Machine.execW1lWrite a off v s
  | .privLockDrop a => Sys2Proof.Machine.execPrivLockDrop a s
  | .configScanPass => Sys2Proof.Machine.execConfigScanPass s
  | .mboxGo a => Sys2Proof.Machine.execMboxGo a s
  | .pwrRegionCapWrite a r v => Sys2Proof.Machine.execPwrRegionCapWrite a r v s
  | .fallowEnter a => Sys2Proof.Machine.execFallowEnter a s
  | .fallowGating => Sys2Proof.Machine.execFallowGating s
  | .fallowExit a loads kat => Sys2Proof.Machine.execFallowExit a loads kat s
  | .governorSample r p => Sys2Proof.Machine.execGovernorSample r p s
  | .excursionSpent => Sys2Proof.Machine.execExcursionSpent s
  | .droopLevel r level => Sys2Proof.Machine.execDroopLevel r level s
  | .droopThrottleEnd => Sys2Proof.Machine.execDroopThrottleEnd s
  | .sensorRead temps => Sys2Proof.Machine.execSensorRead temps s
  | .hardwareTrip temp => Sys2Proof.Machine.execHardwareTrip temp s
  | .managementBusRead off => Sys2Proof.Machine.execManagementBusRead off s
  | .fieldPortUp q => Sys2Proof.Machine.execFieldPortUp q s
  | .remoteTimeout st => Sys2Proof.Machine.execRemoteTimeout st s
  | .hostingReply id gen r => Sys2Proof.Machine.execHostingReply id gen r s
  | .pllRelock o => Sys2Proof.Machine.execPllRelock o s
  | .pcieRefclkReturn => Sys2Proof.Machine.execPcieRefclkReturn s
  | .pcieTrained gen lanes => Sys2Proof.Machine.execPcieTrained gen lanes s
  | .configScanStart flips => Sys2Proof.Machine.execConfigScanStart flips s
  | .sundialBeat => Sys2Proof.Machine.execSundialBeat s
  | .railExcursion rail low => Sys2Proof.Machine.execRailExcursion rail low s

end Sys2Proof.Machine
end

