-- ==== Sys2Proof/Machine/Tick.lean ====
section
/-!
DEFINITION. What happens at a tick of 1 ns whatever is commanded: the sundial counts (R269) and slews (R271), acknowledgements and
credits leave (R300, R306), and links at OFF begin to train (R310).
-/

namespace Sys2Proof.Machine
open Sys2Proof

/-- The sundial counts; an offset is slewed out by at most one tick in every 1,024 (R271). -/
def State.count (s : State) : State :=
  let s := { s with sundial := s.sundial + 1, clock := s.clock + 1 }
  if s.slew ≠ 0 ∧ s.slewTick + 1024 ≤ s.sundial then
    if 0 < s.slew then { s with sundial := s.sundial + 1, slew := s.slew - 1, slewTick := s.sundial }
    else { s with sundial := s.sundial - 1, slew := s.slew + 1, slewTick := s.sundial }
  else s

/-- A link's own work at a tick: what it has accepted is acknowledged within 100 ns; at OFF it begins to train where it may. -/
def State.linkTick (s : State) (l : Nat) : State :=
  if s.linkUp l then
    match (s.phy l).since with
    | some t => if t + 100 ≤ s.clock then s.sendAck l else s
    | none => s
  else if s.linkState l = lsOff ∧ s.mayTrain = true ∧ s.bit Fld.LNK_CONTROL_DISABLE l = false then s.setLinkState l lsTraining
  else s

/-- The sundial beat (R447): the pin is high for 100 ticks from every tick that is a multiple of 1,000,000. -/
def State.beatTick (s : State) : State := { s with beatPin := s.boot.outputs && decide (s.sundial % 1000000 < 100) }

/-- One tick (notes/assumptions/10). -/
def State.tick (s : State) : State := ((List.range 6).foldl State.linkTick s.count.beatTick).scrubTick

end Sys2Proof.Machine
end

