-- ==== Sys2Proof/Safety.lean ====
section
/-!
DEFINITION. What counts as a sound state, and the terms that claims are stated in: a command completing with an effect, what a command
leaves as it was, and when an instruction of a cell is free to issue.
-/

namespace Sys2Proof.Machine
open Sys2Proof

/-- The canonical form of every sparse map of the state (Sparse.wf): the memories, the register file and the tables of units. -/
def State.canonical (s : State) : Bool :=
  Sparse.wf regReset s.regs && Sparse.wf (fun _ => (0 : Byte)) s.mem && Sparse.wf (fun _ => (0 : Byte)) s.hostMem &&
  Sparse.wf (fun _ => false) s.poison && Sparse.wf (fun _ => Cell.empty) s.cells && Sparse.wf (fun _ => Block.empty) s.blocks &&
  Sparse.wf (fun _ => Scrubber.idle) s.scrub && Sparse.wf (fun _ => LinkSync.empty) s.sync &&
  Sparse.wf (fun l => LinkPhy.off (isRack l)) s.phys && Sparse.wf (fun _ => Conn.closed) s.conns &&
  Sparse.wf (fun _ => Pool.empty) s.pools && Sparse.wf (fun _ => []) s.colSteps && Sparse.wf (fun _ => 0) s.shiftBook &&
  Sparse.wf (fun _ => 0) s.storeUpset && Sparse.wf (fun _ => 0) s.logFloor && Sparse.wf (fun _ => ⟨0, none, false, none⟩) s.governors &&
  Sparse.wf (fun _ => ⟨0, false, 0⟩) s.perf && Sparse.wf (fun _ => 0) s.latch && Sparse.wf (fun _ => 0) s.harvestSeq &&
  Sparse.wf (fun _ => []) s.domainCounts

/-- A task's cells and streams are units that exist. -/
def Task.inRange (t : Task) : Bool := t.cells.all (fun c => decide (c < 512)) && t.streams.all fun i => decide (i < 512)

/-- A command answers a next state, and that state has the effect stated. -/
def Completes (c : Instr) (s : State) (effect : State → Prop) : Prop := ∃ t, exec c s = .next t ∧ effect t

/-- Every register instance but those listed holds what it held. -/
def RegsKept (s t : State) (but : List (Reg × Nat)) : Prop :=
  ∀ r i, i < r.count → (r, i) ∉ but → t.reg r i = s.reg r i

/-- Every byte of local memory outside `n` bytes from `lo`, and every byte of host memory, reads as it did. -/
def MemKept (s t : State) (lo n : Nat) : Prop :=
  (∀ a, a < lo ∨ lo + n ≤ a → t.byteAt a = s.byteAt a) ∧ ∀ a, t.hostByte a = s.hostByte a

/-- Local and host memory, poison included, are as they were. -/
def MemSame (s t : State) : Prop := t.mem = s.mem ∧ t.hostMem = s.hostMem ∧ t.poison = s.poison

/-- An instruction of cell `c` with issue plan `p` is free to issue and meets no fault (R63, R64, R66, R78); what stands at the head of
the flight list still owes a check, a result or a merge. -/
def Issues (s : State) (c : Nat) (w : W128) (p : IssuePlan) : Prop :=
  s.canIssue c w = true ∧ (s.cell c).conflicts p = false ∧ s.issueFault c w .clean p = none ∧
    ((s.cell c).inflight.head?.all fun f => f.due || f.merging) = true

/-- The effect of an instruction that issued: its own effect `u`, then its entry in flight, the next word, and the cell RUNNING. -/
def InFlightAfter (s : State) (c : Nat) (w : W128) (p : IssuePlan) (u : State) (flags : BitVec 4) (t : State) : Prop :=
  (t.cell c).next = (u.cell c).next + 1 ∧
  (t.cell c).inflight = (u.cell c).inflight ++
    [⟨(u.cell c).next, p.exUnit, p.dst, p.slotDst ++ p.hold, fusedOf w, p.due, p.merging, p.release, flags⟩] ∧
  t.fld Fld.CEL_STATE_STATE c = csRunning ∧ t.mem = u.mem ∧ t.hostMem = s.hostMem ∧
  (∀ d, d ≠ c → t.cell d = s.cell d) ∧ RegsKept u t [(.CEL_STATE, c)] ∧ RegsKept s t [(.CEL_STATE, c), (.CEL_NUM_STATUS, c)]

/-- Stream `i` stands at a MOVE or ZERO word `w` that one grant completes inside the open tile (R228, R229, R242): its length and
registers are aligned, its tile is open, and what is left of the tile holds more than the length. -/
def MoveAtHand (s : State) (i op : Nat) (t : Stream) (w : Nat) : Prop :=
  s.atWord i op = some (t, w) ∧ t.aligned (t.moveRegs (moveWordOf w)) (moveWordOf w).len = true ∧ t.taken = true ∧ t.moved = 0 ∧
    0 < (moveWordOf w).len ∧ t.fill + (moveWordOf w).len < t.tileBytes ∧ s.granted i t (moveWordOf w) = true

/-- A stream whose MOVE or ZERO is done: the next word, the tile filled further, POSTINC on the registers that the word uses (R228, R229). -/
def MoveDone (t : Stream) (w : Nat) (x : Stream) : Prop :=
  x.pc = t.pc + 1 ∧ x.moved = 0 ∧ x.fill = t.fill + (moveWordOf w).len ∧ x.tile = t.tile ∧ x.taken = true ∧ x.tiles = t.tiles ∧
    x.areg = ((if (moveWordOf w).inc then (t.moveRegs (moveWordOf w)).eraseDups else []).foldl
      (fun t r => t.setAddr r (addrAdd (t.reg r) (moveWordOf w).len)) t).areg

/-- The mailbox runs a command of the opcode: BUSY, the hub not held, the management pair's firmware running (R440). -/
def MailboxRuns (s : State) (op : Nat) : Prop :=
  s.bit Fld.HUB_MBOX_STATUS_BUSY 0 = true ∧ s.hubHeld = false ∧ s.bootedFw = true ∧ s.mboxCommand.op = op

/-- The mailbox runs a plot command of the opcode for plot `p`, its unused bytes from offset `n` on zero (R360). -/
def PlotCommand (s : State) (op n p : Nat) : Prop :=
  MailboxRuns s op ∧ s.mboxCommand.plot = p ∧ p < 8 ∧ s.mboxCommand.mboxClean n = true

end Sys2Proof.Machine
end

