-- ==== Sys2Proof/Certificates/Slice0/Obligations.lean ====
section
/-!
DEFINITION. The statements for the provers.
-/

open Sys2Proof Sys2Proof.Machine

/-- MMA, VOP and CVT complete with their own effect and enter flight (R46, R60, R62, R45; operands and opcodes: notes/assumptions/13). -/
def Obligations.MatrixAndVectorInstructionsEnterFlight : Prop :=
  ∀ (s : State) (c : CellIx) (w : W128), s.canonical = true →
    (∀ o, opcodeOf w = opcodeFor 0 → Issues s c.val w (mmaPlan w o) → Completes (.mma c w o .clean) s fun t =>
      InFlightAfter s c.val w (mmaPlan w o) (mmaEffect c.val o s).1 (mmaEffect c.val o s).2 t) ∧
    (∀ o, opcodeOf w = opcodeFor 1 → Issues s c.val w (vopPlan w o) → Completes (.vop c w o .clean) s fun t =>
      InFlightAfter s c.val w (vopPlan w o) (vopEffect c.val o s).1 (vopEffect c.val o s).2 t) ∧
    (∀ o, opcodeOf w = opcodeFor 2 → Issues s c.val w (cvtPlan w o) → Completes (.cvt c w o .clean) s fun t =>
      InFlightAfter s c.val w (cvtPlan w o) (cvtEffect c.val o s).1 (cvtEffect c.val o s).2 t)

/-- Every element of a VOP's destination, and the frame of its store (R62). -/
def Obligations.VopWritesOneFusedMultiplyAddPerLane : Prop :=
  ∀ (s : State) (c : CellIx) (w : W128) (o : VopOps), s.canonical = true → opcodeOf w = opcodeFor 1 → Issues s c.val w (vopPlan w o) →
    Completes (.vop c w o .clean) s fun t =>
      (∀ j, j < o.n → t.spadLe c.val (o.dst + 4 * j) 4 =
        (vopLane ((s.vecSrc c.val o.x o.n).getD j 0) ((s.vecSrc c.val o.y o.n).getD j 0)
          (o.z.map fun z => (s.vecSrc c.val z o.n).getD j 0)).1 % 2 ^ 32) ∧
      MemKept s t (spadBase c.val + o.dst) (4 * o.n)

/-- The accumulator tile after an MMA without a scratchpad copy (R46, R61). -/
def Obligations.FreshMatrixTileHoldsRoundedDotProducts : Prop :=
  ∀ (s : State) (c : CellIx) (w : W128) (o : MmaOps), s.canonical = true → opcodeOf w = opcodeFor 0 → Issues s c.val w (mmaPlan w o) → o.dst = none →
    (s.cell c.val).tileUsable o.slot (decide (o.a.fmt = .int8)) = true → o.a.fmt ≠ .int8 →
    Completes (.mma c w o .clean) s fun t =>
      (∀ r j, r < o.rows → j < o.cols →
        (Table.get (t.cell c.val).tiles o.slot).bind (fun x => Table.get x.elems (64 * r + j)) =
          some (dotAcc ((Table.get (s.cell c.val).tiles o.slot).bind fun x => Table.get x.elems (64 * r + j))
            (s.tensorRow c.val o.a r o.k) (s.tensorRow c.val o.b j o.k)).1) ∧
      MemSame s t

/-- ATS, ATV and ROWOUT complete with their own effect and enter flight (R109, R116 to R121). -/
def Obligations.AttentionInstructionsEnterFlight : Prop :=
  ∀ (s : State) (c : CellIx) (w : W128), s.canonical = true →
    (opcodeOf w = 0x20 → atsWaits s c.val w = false → Issues s c.val w (atsPlan s c.val w) →
      Completes (.ats c w .clean) s fun t =>
        InFlightAfter s c.val w (atsPlan s c.val w) (atsEffect c.val w s).1 (atsEffect c.val w s).2 t) ∧
    (opcodeOf w = 0x21 → Issues s c.val w (atvPlan s c.val w) →
      Completes (.atv c w .clean) s fun t =>
        InFlightAfter s c.val w (atvPlan s c.val w) (atvEffect c.val w s).1 (atvEffect c.val w s).2 t) ∧
    (isRowout w 0 = true → Issues s c.val w (partialPlan s c.val w) →
      Completes (.rowoutPartial c w .clean) s fun t =>
        InFlightAfter s c.val w (partialPlan s c.val w) (partialEffect c.val w s).1 (partialEffect c.val w s).2 t) ∧
    (isRowout w 1 = true → Issues s c.val w (finalPlan s c.val w true) →
      Completes (.rowoutFinalSlots c w .clean) s fun t =>
        InFlightAfter s c.val w (finalPlan s c.val w true)
          ((List.range (rowoutWord w).rows).foldl
            (finalSlotRow c.val (rowoutWord w) (s.attDesc c.val (rowoutWord w).doff)) s) 0 t) ∧
    (isRowout w 2 = true → Issues s c.val w (finalPlan s c.val w false) →
      Completes (.rowoutFinalScratchpad c w .clean) s fun t =>
        InFlightAfter s c.val w (finalPlan s c.val w false)
          ((List.range (rowoutWord w).rows).foldl
            (finalSpadRow c.val (rowoutWord w) (s.attDesc c.val (rowoutWord w).doff)) s) 0 t) ∧
    (isRowout w 3 = true → Issues s c.val w (mergePlan s c.val w) →
      Completes (.rowoutMerge c w .clean) s fun t =>
        InFlightAfter s c.val w (mergePlan s c.val w) (mergeEffect c.val w s).1 (mergeEffect c.val w s).2 t)

/-- The first score row of an ATS (R109, R111, R113). -/
def Obligations.AtsWritesSentinelAtMaskedKeys : Prop :=
  ∀ (s : State) (c : CellIx) (w : W128), s.canonical = true → opcodeOf w = 0x20 → (atsWord w).bitmap = false →
    Issues s c.val w (atsPlan s c.val w) →
    Completes (.ats c w .clean) s fun t =>
      (∀ i, i < 64 →
        t.spadLe c.val ((atsWord w).soff + 4 * i) 4 =
          (if i < (atsWord w).cols ∧ keyVisible (s.attDesc c.val (atsWord w).doff)
              (s.rowEntry c.val (s.attDesc c.val (atsWord w).doff) 0)
              (s.keyEntry c.val (s.attDesc c.val (atsWord w).doff) (atsWord w).kindex i) true = true
            then (scoreOf (s.attDesc c.val (atsWord w).doff).score
              ((s.elemVals c.val (atsWord w).qoff (s.attDesc c.val (atsWord w).doff).qkFmt
                (s.attDesc c.val (atsWord w).doff).dim).map fun v => (v, 0))
              ((s.elemVals c.val ((atsWord w).koff +
                  i * (s.attDesc c.val (atsWord w).doff).dim * (s.attDesc c.val (atsWord w).doff).qkFmt.bytesOf 1)
                (s.attDesc c.val (atsWord w).doff).qkFmt (s.attDesc c.val (atsWord w).doff).dim).map fun v => (v, 0))).1 % 2 ^ 32
            else 0xC4800000)) ∧
      MemKept s t (spadBase c.val + (atsWord w).soff)
        (((atsWord w).rows - 1) * (s.attDesc c.val (atsWord w).doff).sstride + 256)

/-- The four special-function instructions reach the grant stage (R84). -/
def Obligations.SfnInstructionsReachGrantStage : Prop :=
  ∀ (s : State) (c : CellIx) (w : W128), s.canonical = true → sfnWaits s c.val w = false →
    Issues s c.val w (sfnPlan s c.val w) →
    let waiting : State → Prop := fun t =>
      (t.cell c.val).sfn = some ⟨(s.cell c.val).next, w, 0, false, foldArea (s.cell c.val) (sfnWord w)⟩ ∧
      InFlightAfter s c.val w (sfnPlan s c.val w) (sfnEffect c.val w s).1 0 t ∧ MemSame s t
    (opcodeOf w = 0x30 → (sfnWord w).func ≠ 0x10 → (sfnWord w).func ≠ 0x11 → (sfnWord w).func ≠ 0x12 →
      Completes (.sfn c w .clean) s waiting) ∧
    (opcodeOf w = 0x30 → (sfnWord w).func = 0x10 → Completes (.sqacc c w .clean) s waiting) ∧
    (opcodeOf w = 0x30 → (sfnWord w).func = 0x11 → Completes (.rmsr c w .clean) s waiting) ∧
    (opcodeOf w = 0x30 → (sfnWord w).func = 0x12 → Completes (.mul3 c w .clean) s waiting)

/-- SFN_VECTOR_GRANT and SFN_RESULT (R18, R92, R93, R97). -/
def Obligations.VectorGrantAndResultMoveThroughPipeline : Prop :=
  ∀ (s : State), s.canonical = true →
    (∀ (b : BlockIx) (i turn left zt : Nat) (job : SfnJob), s.fld Fld.SFU_STATUS_STATE b.val = 3 →
      s.sfuArbiter b.val = some (i, turn, left, zt) → (s.cell (16 * b.val + i)).sfn = some job →
      (s.block b.val).deadWord (s.bit Fld.SFU_STATUS_COMPAT b.val) (sfnWord job.word).func = none →
      (s.block b.val).softWords (s.bit Fld.SFU_STATUS_COMPAT b.val) (sfnWord job.word).func = [] →
      Completes (.sfnVectorGrant b .clean) s fun t =>
        (t.block b.val).pipe = (s.block b.val).pipe ++
          [⟨i, job.index, ((s.block b.val).seqNo + 16) % 16, job.granted + 1 == (sfnWord job.word).vectors,
            (s.sfnVector (16 * b.val + i) job none).1, (s.sfnVector (16 * b.val + i) job none).2.1,
            (s.sfnVector (16 * b.val + i) job none).2.2⟩] ∧
        (t.cell (16 * b.val + i)).sfn =
          (if job.granted + 1 = (sfnWord job.word).vectors then none else some { job with granted := job.granted + 1 }) ∧
        (t.block b.val).turn = turn ∧ (t.block b.val).left = left ∧ (t.block b.val).zeroTurn = zt ∧
        (t.block b.val).seqNo = ((s.block b.val).seqNo + 1) % 16 ∧ t.regs = s.regs ∧ MemSame s t) ∧
    (∀ (c : CellIx) (v : SfnVec) (d : Nat) (data : List Byte),
      (s.block (blockOfCell c.val)).pipe.find? (fun v => v.cell == c.val % 16) = some v → v.payload = .bytes d data →
      (s.cell c.val).inReset = false →
      Completes (.sfnResult c) s fun t =>
        t.readBytes (spadBase c.val + d) data.length = data ∧ MemKept s t (spadBase c.val + d) data.length ∧
        t.reg .CEL_NUM_STATUS c.val = s.reg .CEL_NUM_STATUS c.val ||| v.flags.setWidth 32 ∧
        RegsKept s t [(.CEL_NUM_STATUS, c.val), (.CEL_STATE, c.val)] ∧
        ((s.cell c.val).stopping = false → t.reg .CEL_STATE c.val = s.reg .CEL_STATE c.val) ∧
        (t.block (blockOfCell c.val)).pipe = dropVec (c.val % 16) (s.block (blockOfCell c.val)).pipe)

/-- MASK_TILE_FETCH (R19, R112) and BLOCK_MERGE (R19, R119): each completes when the block memory serves the cell's port, the fetch with the
tile in the block's mask buffer, the merge with every row of the slices added in rank order and rounded into its owner's slots. -/
def Obligations.MaskTileAndBlockMergeUseBlockMemory : Prop :=
  ∀ (s : State) (c : CellIx), s.canonical = true → s.memTurnOf c.val = true →
    (∀ off, s.maskFor c.val = some off →
      Completes (.maskTileFetch c .clean) s fun t =>
        Table.get (t.block (blockOfCell c.val)).maskTile (c.val % 16) =
          some (s.readBytes (blockBase (blockOfCell c.val) + off) 512) ∧
        (t.block (blockOfCell c.val)).memTurn = c.val % 16 ∧ (∀ d, t.cell d = s.cell d) ∧ t.regs = s.regs ∧ MemSame s t) ∧
    (∀ m : Merge, s.mergeFor c.val = some m → m.dim = 64 ∨ m.dim = 128 ∨ m.dim = 256 →
      Completes (.blockMerge c .clean) s fun t =>
        t = (s.takeMem (blockOfCell c.val) (c.val % 16)).mergeRows c.val m ∧
        (t.block (blockOfCell c.val)).merges = (s.block (blockOfCell c.val)).merges.filter (fun q => decide (q ≠ m)) ∧
        (∀ r e, r < m.rows → e ≤ m.dim →
          (((List.range m.rows).foldl (mergeRow c.val m (mergeCells m.mset).length)
              (s.takeMem (blockOfCell c.val) (c.val % 16))).cell c.val).rowWord (m.slot + (if m.dim = 256 then 2 else 1) * r) e =
            (accRound (decodeVal .wx32 (mergeWord s (blockBase (blockOfCell c.val) + m.buf) (sliceBytes m.rows m.dim)
              (mergeCells m.mset).length (r * (m.dim + 1) + e)).1)).1) ∧
        (t.cell c.val).next = (s.cell c.val).next ∧ RegsKept s t [(.CEL_NUM_STATUS, c.val)] ∧ MemSame s t)

/-- WAIT and POST (R234, R235, R241): the count moves whole, and the side that waits on the stream keeps the tick of its last take and that
since which it is blocked. -/
def Obligations.SemaphoreInstructionsMoveCounts : Prop :=
  ∀ (s : State) (c : CellIx) (w : W128) (p : SemPair), s.canonical = true → s.canIssue c.val w = true →
    (s.cell c.val).armedPair (semWord w).pair = some p → (semWord w).bad w = false →
    (opcodeOf w = 0x40 → (semWord w).count ≤ (if (semWord w).empty then p.empty else p.full) →
      Completes (.waitSem c w) s fun t =>
        Table.get (t.cell c.val).pairs (semWord w).pair = some { p with
          full := if (semWord w).empty then p.full else p.full - (semWord w).count
          empty := if (semWord w).empty then p.empty - (semWord w).count else p.empty
          blocked := if s.waitSide p (semWord w).empty then none else p.blocked
          lastTake := if s.waitSide p (semWord w).empty then some s.sundial else p.lastTake } ∧
        (t.cell c.val).next = (s.cell c.val).next + 1 ∧ t.fld Fld.CEL_STATE_STATE c.val = 1 ∧ MemSame s t) ∧
    (opcodeOf w = 0x40 → (if (semWord w).empty then p.empty else p.full) < (semWord w).count →
      Completes (.waitSem c w) s fun t =>
        Table.get (t.cell c.val).pairs (semWord w).pair =
          some { p with blocked := if s.waitSide p (semWord w).empty then some (p.blocked.getD s.sundial) else p.blocked } ∧
        (t.cell c.val).next = (s.cell c.val).next ∧ t.fld Fld.CEL_STATE_STATE c.val = 2 ∧ MemSame s t) ∧
    (opcodeOf w = 0x41 → s.accessesLeft c.val = false →
      (if (semWord w).empty then p.empty else p.full) + (semWord w).count ≤ p.depth →
      Completes (.postSem c w) s fun t =>
        Table.get (t.cell c.val).pairs (semWord w).pair = some (if (semWord w).empty
          then { p with empty := p.empty + (semWord w).count } else { p with full := p.full + (semWord w).count }) ∧
        (t.cell c.val).next = (s.cell c.val).next + 1 ∧ t.fld Fld.CEL_STATE_STATE c.val = 1 ∧ MemSame s t)

/-- LOOP, JUMP and END (R64; opcodes: notes/assumptions/13); a word that is reserved under R74 or R78 aborts the task with OPCODE. -/
def Obligations.CellControlInstructionsMoveNextWord : Prop :=
  ∀ (s : State) (c : CellIx) (w : W128), s.canonical = true → s.canIssue c.val w = true →
    (controlReserved w = false →
      (∀ count target, opcodeOf w = opcodeFor 3 → 2 ≤ (Table.get (s.cell c.val).loops (s.cell c.val).next).getD count →
        exec (.cellLoop c w count target) s = .next ((s.setCell c.val { s.cell c.val with
          loops := Table.put (s.cell c.val).loops (s.cell c.val).next
            ((Table.get (s.cell c.val).loops (s.cell c.val).next).getD count - 1)
          next := target }).setFld Fld.CEL_STATE_STATE c.val 1)) ∧
      (∀ count target, opcodeOf w = opcodeFor 3 → (Table.get (s.cell c.val).loops (s.cell c.val).next).getD count ≤ 1 →
        Completes (.cellLoop c w count target) s fun t =>
          (t.cell c.val).next = (s.cell c.val).next + 1 ∧
          (t.cell c.val).loops = Table.del (s.cell c.val).loops (s.cell c.val).next ∧ MemSame s t) ∧
      (∀ target, opcodeOf w = opcodeFor 4 → exec (.cellJump c w target) s =
        .next ((s.setCell c.val { s.cell c.val with next := target }).setFld Fld.CEL_STATE_STATE c.val 1)) ∧
      (opcodeOf w = opcodeFor 5 → Completes (.cellEnd c w) s fun t =>
        (t.cell c.val).ended = true ∧ t.fld Fld.CEL_STATE_STATE c.val = 0 ∧
        RegsKept s t [(.CEL_STATE, c.val)] ∧ MemSame s t)) ∧
    (controlReserved w = true →
      (∀ count target, isClass 3 w = true →
        exec (.cellLoop c w count target) s = .next (s.cellFault c.val fcOpcode (s.cell c.val).next)) ∧
      (∀ target, isClass 4 w = true → exec (.cellJump c w target) s = .next (s.cellFault c.val fcOpcode (s.cell c.val).next)) ∧
      (isClass 5 w = true → exec (.cellEnd c w) s = .next (s.cellFault c.val fcOpcode (s.cell c.val).next)))

/-- RESIDUE_CHECK_REPORT of the matrix unit or of the vector lanes (R70 to R72, R75). -/
def Obligations.ResidueReportRetiresOrAborts : Prop :=
  ∀ (s : State) (c : CellIx) (lanes : Bool) (f : InFlight), s.canonical = true → (s.cell c.val).inflight = [f] → f.due = true →
    f.exUnit = (if lanes then .vector else .matrix) → f.merging = false →
    (fusedKind f.fused = 0 →
      Completes (.residueCheckReport c lanes true) s fun t =>
        (t.cell c.val).inflight = [] ∧ (∀ i, i ∈ f.release → Table.get (t.cell c.val).slots i = none) ∧
        t.regs = s.regs ∧ MemSame s t) ∧
    (f.dst ≠ [] → fusedKind f.fused ≠ 0 →
      Completes (.residueCheckReport c lanes true) s fun t =>
        (t.cell c.val).inflight = [] ∧
        (t.cell c.val).drains = (s.cell c.val).drains ++ [⟨f.dst, f.fused, f.drainFlags, f.release⟩] ∧
        (t.cell c.val).transfers = (s.cell c.val).transfers ++
          f.dst.map (fun r => ⟨.drain, r.len, s.drainTile f.fused, none, 0, [], []⟩) ∧
        t.regs = s.regs ∧ MemSame s t) ∧
    (∀ tid, (s.cell c.val).task = some tid →
      Completes (.residueCheckReport c lanes false) s fun t =>
        (t.cell c.val).task = none ∧ ∃ q, q ∈ t.resets ∧ q.level = 1 ∧ q.index = c.val)

/-- TRANSFER_TILE and QUANTUM_MET (R17, R65, R66, R68): with nothing ready the issue side yields and the oldest transfer of the first port
moves a tile, a fill's bytes coming into the scratchpad; at the quantum it yields too, at once where no granted vector is under way. -/
def Obligations.ScratchpadPassesBetweenIssueAndPorts : Prop :=
  ∀ (s : State) (c : CellIx), s.canonical = true → s.fld Fld.CEL_STATE_HOLDER c.val = 0 →
    (∀ x, (s.cell c.val).nextTransfer = some x → s.scrubUrgent c.val = false → x.port ≠ .chain → s.issueReady c.val = false →
      s.grantsLeft c.val = false →
      Completes (.transferTile c) s fun t =>
        (t.cell c.val).transfers = moveTile x (s.cell c.val).transfers ∧ (t.cell c.val).held = 0 ∧
        RegsKept s t [(.CEL_STATE, c.val)] ∧
        (x.load = [] → MemSame s t) ∧
        (∀ o bs, x.load = [(o, bs)] → bs.length ≤ x.tile →
          t.readBytes (spadBase c.val + o) bs.length = bs ∧ MemKept s t (spadBase c.val + o) bs.length)) ∧
    (s.nextHolder c.val ≠ 0 → max 256 (s.fld Fld.CEL_ISSUE_QUANTUM_QUANTUM c.val) ≤ s.heldCycles c.val →
      Completes (.quantumMet c) s fun t =>
        t.fld Fld.CEL_STATE_HOLDER c.val = (if s.grantsLeft c.val then 0 else s.nextHolder c.val) ∧
        (t.cell c.val).stopping = true ∧
        (∀ j, (s.cell c.val).sfn = some j → (t.cell c.val).sfn = some { j with yielded := true }) ∧
        RegsKept s t [(.CEL_STATE, c.val)] ∧ MemSame s t)

/-- SFU_LOAD_TEST, SFU_MODE_TEST, SFU_MODE_COMPAT and CHECK_LANE_MISMATCH (R98 to R101, R104). -/
def Obligations.SpecialFunctionUnitLoadTestAndMode : Prop :=
  ∀ (s : State) (b : BlockIx), s.canonical = true →
    (∀ t1 t2, s.fld Fld.SFU_STATUS_STATE b.val ≤ 1 → t1.crcOk = true → t1.katOk = true →
      Completes (.sfuLoadTest b t1 t2) s fun t =>
        t.fld Fld.SFU_STATUS_STATE b.val = 3 ∧ t.reg .SFU_TABLE_CRC b.val = BitVec.ofNat 32 t1.crc ∧ MemSame s t) ∧
    (∀ t1 t2, s.fld Fld.SFU_STATUS_STATE b.val ≤ 1 → t1.crcOk = false → t2.crcOk = false →
      Completes (.sfuLoadTest b t1 t2) s fun t =>
        t.fld Fld.SFU_STATUS_STATE b.val = 5 ∧ (t.block b.val).outOfService = true ∧ MemSame s t) ∧
    (∀ a, s.privOk a = true → s.blockBusy b.val = false → s.fld Fld.SFU_STATUS_STATE b.val ≠ 5 →
      Completes (.sfuModeTest a b) s fun t =>
        t.fld Fld.SFU_STATUS_STATE b.val = 1 ∧ RegsKept s t [(.SFU_STATUS, b.val)] ∧ MemSame s t) ∧
    (∀ a v, s.privOk a = true → s.blockBusy b.val = false →
      Completes (.sfuModeCompat a b v) s fun t =>
        t.bit Fld.SFU_MODE_COMPAT b.val = v ∧ t.bit Fld.SFU_STATUS_COMPAT b.val = v ∧
        RegsKept s t [(.SFU_MODE, b.val), (.SFU_STATUS, b.val), (.HUB_CONFIG_REF, 0)] ∧ MemSame s t) ∧
    (∀ (c : CellIx) lane v, (s.cell c.val).task.isSome = true →
      (s.block (blockOfCell c.val)).pipe.find? (fun v => v.cell == c.val % 16 && v.seqNo == lane / 8) = some v →
      Completes (.checkLaneMismatch c lane) s fun t =>
        (t.cell c.val).task = none ∧ ∃ q, q ∈ t.resets ∧ q.level = 2 ∧ q.index = blockOfCell c.val)

/-- The control and address instructions of a stream (R228 to R232). -/
def Obligations.AddressInstructionsMoveLoopsAndRegisters : Prop :=
  ∀ (s : State) (i : StreamIx) (t : Stream) (w : Nat),
    (s.atWord i.val aopLoop = some (t, w) →
      (∀ n, (if w.testBit 32 then t.base.getD (bitsAt w 0 3) 0 % 2 ^ 32 else bitsAt w 0 32) = n + 1 →
        exec (.progLoop i) s = .next (s.nextWord i.val { t with loops := (t.pc, n + 1) :: t.loops })) ∧
      ((if w.testBit 32 then t.base.getD (bitsAt w 0 3) 0 % 2 ^ 32 else bitsAt w 0 32) = 0 →
        exec (.progLoop i) s = .next (s.nextWord i.val { t with pc := matchingNext (t.prog.drop (t.pc + 1)) (t.pc + 1) 0 }))) ∧
    (s.atWord i.val aopNext = some (t, w) → ∀ start left rest, t.loops = (start, left) :: rest →
      (2 ≤ left → exec (.nextLoop i) s = .next (s.nextWord i.val { t with loops := (start, left - 1) :: rest, pc := start })) ∧
      (left ≤ 1 → exec (.nextLoop i) s = .next (s.nextWord i.val { t with loops := rest }))) ∧
    (s.atWord i.val aopSeta = some (t, w) →
      (w.testBit 47 = true → exec (.seta i) s = .next (s.nextWord i.val
        ((t.setAddr (bitsAt w 48 3) (addrAdd (t.reg (bitsAt w 44 3)) (signedOf 40 (bitsAt w 0 40)))).setBind (bitsAt w 48 3)
          (Table.get t.bind (bitsAt w 44 3))))) ∧
      (w.testBit 47 = false → exec (.seta i) s = .next (s.nextWord i.val
        ((t.setAddr (bitsAt w 48 3) (t.base.getD (bitsAt w 44 3) 0 / 2 ^ 48 * 2 ^ 48 +
          (((t.base.getD (bitsAt w 44 3) 0 % 2 ^ 48 : Nat) + signedOf 40 (bitsAt w 0 40)) % 2 ^ 48).toNat)).setBind
            (bitsAt w 48 3) none)))) ∧
    (s.atWord i.val aopAdda = some (t, w) → exec (.adda i) s = .next (s.nextWord i.val
      (t.setAddr (bitsAt w 48 3) (addrAdd (t.reg (bitsAt w 48 3)) (signedOf 48 (bitsAt w 0 48)))))) ∧
    (s.atWord i.val aopIdx = some (t, w) → ∀ x rest, t.xq = x :: rest →
      exec (.idx i) s = .next (s.nextWord i.val (({ t with xq := rest }.setAddr (bitsAt w 48 3)
        (if x = 0xFFFFFFFF then nullAddr else t.base.getD (bitsAt w 44 3) 0 / 2 ^ 48 * 2 ^ 48 +
          (t.base.getD (bitsAt w 44 3) 0 % 2 ^ 48 + x * 2 ^ bitsAt w 32 5) % 2 ^ 48)).setBind (bitsAt w 48 3) none))) ∧
    ((s.feedQueue i.val).atWord i.val aopPage = some (t, w) → ∀ d u, (s.feedQueue i.val).nextDesc t = some (d, u) →
      pdBad t.plot d = false → (s.feedQueue i.val).firstPoison (t.dtable + 64 * t.dpos) t.pageRead = none →
      exec (.page i .clean) s = .next ((s.feedQueue i.val).nextWord i.val (({ u with page := some d, trailT := 0 }.setAddr
        (bitsAt w 48 3) (pdFabric d)).setBind (bitsAt w 48 3) (some ((s.feedQueue i.val).bindOf d)))))

/-- FLUSH, TRAIL, END and TILE_COMPLETE (R17, R229, R233, R235, R237). -/
def Obligations.TileInstructionsCloseAndCompleteTiles : Prop :=
  ∀ (s : State) (i : StreamIx) (t : Stream) (w : Nat), s.canonical = true →
    (s.atWord i.val aopFlush = some (t, w) →
      exec (.flush i) s = .next ((s.closeTile i.val t).1.nextWord i.val (s.closeTile i.val t).2)) ∧
    (∀ d bytes c header, s.atWord i.val aopTrail = some (t, w) → t.page = some d → t.tileCells t.tile = [c] →
      trailOutside t d c = none → bytes.length = 512 → s.firstPoison (s.trailRead t d).1 (s.trailRead t d).2 = none →
      s.trailBytes t d (if s.isSelf (pdChip d) then s.loadBytes (pdAddr d) 128 else header) = some bytes →
      Completes (.trail i header .clean) s fun u =>
        (u.cell c).transfers = (s.cell c).transfers ++
          [⟨.fill, 512, 512, some i.val, t.tile, [(t.trailDest + 512 * (Table.get t.trailN c).getD 0, bytes)], []⟩] ∧
        (pdKind d ≠ 2 → MemSame s u) ∧
        (pdKind d = 2 →
          u.readBytes (blockBase (blockOfCell c) + t.maskDest + 512 * (Table.get t.trailN c).getD 0) 512 = trailMask d ∧
          MemKept s u (blockBase (blockOfCell c) + t.maskDest + 512 * (Table.get t.trailN c).getD 0) 512) ∧
        RegsKept s u [(.STM_STREAM_STATE, i.val)]) ∧
    (s.atWord i.val aopEnd = some (t, w) →
      exec (.progEnd i) s = .next (if (s.closeTile i.val t).2.tiles.isEmpty
        then (s.closeTile i.val t).1.finishRun i.val { (s.closeTile i.val t).2 with ended := true }
        else (s.closeTile i.val t).1.putStream i.val { (s.closeTile i.val t).2 with ended := true } 2)) ∧
    (∀ x later c q, s.stream i.val = some t → t.tiles = x :: later → s.tileLanded i.val t x = true → t.kind ≠ 4 →
      t.cells ≠ 0 → x.cells = [c] → s.linkPair i.val t c = some q → t.ended = false →
      Completes (.tileComplete i) s fun u =>
        u.stream i.val = some { t with
          tiles := later, acked := t.acked + x.bytes
          touched := if t.kind = 1 ∨ t.kind = 3 then t.touched.filter (fun e => e.1 != x.number) else t.touched } ∧
        Table.get (u.cell c).pairs t.semPair = some (t.giveOne q) ∧ u.regs = s.regs ∧ MemSame s u)

/-- MOVE and ZERO inside an open tile (R228, R229, R230, R242): a GATHER or CHAIN gathers the source's bytes at its engine behind those the
tile has, an INDEX stream their words, a COPY or DRAIN writes them at its destination; the next word follows. -/
def Obligations.MoveAndZeroFillTileFromSource : Prop :=
  ∀ (s : State) (i : StreamIx) (t : Stream) (w len : Nat), s.canonical = true → len = (moveWordOf w).len →
    (MoveAtHand s i.val aopMove t w →
      (∀ a, t.kind = 0 ∨ t.kind = 2 → s.chunk t (moveWordOf w) = (len, .here a, .null) → s.firstPoison a len = none →
        Completes (.moveBytes i .clean) s fun u =>
          (∃ x, u.stream i.val = some x ∧ MoveDone t w x ∧ x.cur = t.cur ++ [(t.fill, s.loadBytes a len)] ∧ x.xq = t.xq) ∧
          RegsKept s u [(.STM_STREAM_STATE, i.val)] ∧ MemSame s u) ∧
      (∀ a, t.kind = 4 → s.chunk t (moveWordOf w) = (len, .here a, .null) → s.firstPoison a len = none →
        Completes (.moveBytes i .clean) s fun u =>
          (∃ x, u.stream i.val = some x ∧ MoveDone t w x ∧ x.xq = t.xq ++ wordsOf (len / 4) (s.loadBytes a len) ∧ x.cur = t.cur) ∧
          RegsKept s u [(.STM_STREAM_STATE, i.val)] ∧ MemSame s u) ∧
      (∀ a b, t.kind = 3 → s.chunk t (moveWordOf w) = (len, .here a, .here b) → s.firstPoison a len = none →
        s.trayShut b len = false → (s.storeBytes b (s.loadBytes a len)).2 = none →
        Completes (.moveBytes i .clean) s fun u =>
          (∃ x, u.stream i.val = some x ∧ MoveDone t w x) ∧ u.mem = (s.storeBytes b (s.loadBytes a len)).1.mem ∧
          u.hostMem = (s.storeBytes b (s.loadBytes a len)).1.hostMem ∧ RegsKept s u [(.STM_STREAM_STATE, i.val)]) ∧
      (∀ a b o bs l, t.kind = 1 → t.cur = (o, bs) :: l → t.fill + len ≤ bs.length →
        s.chunk t (moveWordOf w) = (len, .here a, .here b) → s.trayShut b len = false →
        (s.storeBytes b ((bs.drop t.fill).take len)).2 = none →
        Completes (.moveBytes i .clean) s fun u =>
          (∃ x, u.stream i.val = some x ∧ MoveDone t w x) ∧ u.mem = (s.storeBytes b ((bs.drop t.fill).take len)).1.mem ∧
          u.hostMem = (s.storeBytes b ((bs.drop t.fill).take len)).1.hostMem ∧
          RegsKept s u [(.STM_STREAM_STATE, i.val)])) ∧
    (MoveAtHand s i.val aopZero t w →
      (t.kind = 0 ∨ t.kind = 2 →
        Completes (.zeroBytes i) s fun u =>
          (∃ x, u.stream i.val = some x ∧ MoveDone t w x ∧ x.cur = t.cur ++ [(t.fill, List.replicate len 0)] ∧ x.xq = t.xq) ∧
          RegsKept s u [(.STM_STREAM_STATE, i.val)] ∧ MemSame s u) ∧
      (∀ b, t.kind = 3 → s.chunk t (moveWordOf w) = (len, .null, .here b) → s.trayShut b len = false →
        (s.storeBytes b (List.replicate len 0)).2 = none →
        Completes (.zeroBytes i) s fun u =>
          (∃ x, u.stream i.val = some x ∧ MoveDone t w x) ∧ u.mem = (s.storeBytes b (List.replicate len 0)).1.mem ∧
          u.hostMem = (s.storeBytes b (List.replicate len 0)).1.hostMem ∧ RegsKept s u [(.STM_STREAM_STATE, i.val)]))

/-- PERSISTENT_RUN, BACKGROUND_PROMOTION, SLOT_METER, REMOTE_TIMEOUT and CHAIN_TILE (R231, R238, R239, R243, R244, R246). -/
def Obligations.StreamRunsArePromotedRearmedAndTimedOut : Prop :=
  ∀ (s : State) (i : StreamIx) (t : Stream), s.canonical = true → s.stream i.val = some t →
    (s.runDue t = true → (s.runGroup i.val).all (fun x => s.runDue x.2) = true → s.firstPoison t.record 64 = none →
      exec (.persistentRun i .clean) s = .next ((s.runGroup i.val).foldl State.startRun s)) ∧
    (s.runDue t = true → s.runGroup i.val = [(i.val, t)] → s.firstPoison t.record 64 = none →
      Completes (.persistentRun i .clean) s fun u =>
        u.fld Fld.STM_REARM_COUNT_RUNS i.val =
          (s.fld Fld.STM_REARM_COUNT_RUNS i.val + 1) % 2 ^ Fld.STM_REARM_COUNT_RUNS.width ∧
        ((u.stream i.val).map fun x => (x.running, x.pc, x.run, x.base.take 6, x.deadline)) =
          some (true, 0, t.run + 1,
            (List.range 6).map (fun k => s.loadLe (t.rarm + 64 * (t.run % t.rcount) + 8 * k) 8),
            s.loadLe (t.rarm + 64 * (t.run % t.rcount) + 0x38) 8) ∧ MemSame s u) ∧
    (t.sflags.testBit 3 = true → t.deadline ≤ s.sundial + t.period →
      exec (.backgroundPromotion i) s = .next (s.setStream i.val { t with promoted := true })) ∧
    (s.sundial % 1024 = 0 →
      exec .slotMeter s = .next { s with tasks := s.tasks.map fun e => (e.1, { e.2 with used := [] }) }) ∧
    (∀ q place index part, (∀ k, s.task t.task = some k → k.inRange = true) → q ∈ s.reqs →
      q.who = .stream i.val t.arming place index part → q.tick + 100000 ≤ s.clock →
      Completes (.remoteTimeout i) s fun u => q ∉ u.reqs ∧ u.bit Fld.STM_FAULT_INFO_VALID i.val = true) ∧
    (t.kind = 2 → (∀ c, c ∈ t.cellSet → s.fld Fld.CEL_STATE_HOLDER c = 1 ∧
        ∃ x, (s.cell c).portTransfer .chain = some x ∧ x.stream = some i.val ∧ ∀ p, p ∈ x.load → p.1 + p.2.length ≤ spadSize) →
      Completes (.chainTile i) s fun u =>
        (∀ c x, c ∈ t.cellSet → (s.cell c).portTransfer .chain = some x →
          (u.cell c).transfers = (s.cell c).transfers.erase x ∧
          ∀ o bs, x.load = [(o, bs)] → bs.length ≤ x.tile →
            u.readBytes (spadBase c + o) bs.length = bs) ∧
        u.stream i.val = some t)

/-- SCRUB_PASS_START, SCRUB_PROMOTE and SCRUB_PASS_END (R261, R262), ECC_REPORT (R260) and MEM_COLD_SEG_WRITE (R256). -/
def Obligations.ScrubbersEccReportsAndColdSegments : Prop :=
  (∀ (s : State) (k : ScrubIx), s.canonical = true → s.fld Fld.PWR_STATE_STATE 0 ≠ 3 →
      ((s.scrubber k.val).running = false → s.sundial % scrubInterval k.val = 0 →
        Completes (.scrubPassStart k) s fun t =>
          t.scrubber k.val = ⟨s.sundial, scrubBytes k.val, false, true, 0⟩ ∧ MemSame s t) ∧
      ((s.scrubber k.val).running = true → (s.scrubber k.val).promoted = false →
        scrubAtRisk k.val (s.scrubber k.val) s.sundial = true →
        Completes (.scrubPromote k) s fun t =>
          t.scrubber k.val = { s.scrubber k.val with promoted := true } ∧
          t.bit Fld.MEM_SCRUB_STATUS_PROMOTED (3 * (scrubTier k.val).1 + (scrubTier k.val).2) = true ∧ MemSame s t) ∧
      ((s.scrubber k.val).running = true → (s.scrubber k.val).remain = 0 →
        Completes (.scrubPassEnd k []) s fun t =>
          (t.scrubber k.val).running = false ∧
          t.fld Fld.MEM_SCRUB_STATUS_PASSES (3 * (scrubTier k.val).1 + (scrubTier k.val).2) =
            (s.fld Fld.MEM_SCRUB_STATUS_PASSES (3 * (scrubTier k.val).1 + (scrubTier k.val).2) + 1) %
              2 ^ Fld.MEM_SCRUB_STATUS_PASSES.width ∧
          t.bit Fld.MEM_SCRUB_STATUS_LATE (3 * (scrubTier k.val).1 + (scrubTier k.val).2) =
            (decide (scrubEnd k.val (s.scrubber k.val).start ≤ s.sundial) ||
              s.bit Fld.MEM_SCRUB_STATUS_LATE (3 * (scrubTier k.val).1 + (scrubTier k.val).2)) ∧ MemSame s t)) ∧
  (∀ (s : State), s.canonical = true →
      (∀ a rest r k off, s.serviceRuns = true → s.eccReports = a :: rest → tierOf a = some (r, k, off) → s.tableState a = true →
        Completes .eccReport s fun t =>
          t.eccReports = rest ∧ t.bit Fld.MEM_ECC_INFO_TABLE r = true ∧
          RegsKept s t [(.MEM_ECC_INFO, r)] ∧ ∃ q, q ∈ t.resets ∧ q.level = 3 ∧ q.index = r) ∧
      (∀ (j : SegIx) v, s.privOk .pf0 = true → s.segmentHeld j.val = false →
        Completes (.memColdSegWrite .pf0 j v) s fun t =>
          t.reg .MEM_COLD_SEG j.val = v ∧ RegsKept s t [(.MEM_COLD_SEG, j.val), (.HUB_CONFIG_REF, 0)] ∧ MemSame s t) ∧
      (∀ (j : SegIx) a v, a ≠ .pf0 ∨ s.segmentHeld j.val = true →
        exec (.memColdSegWrite a j v) s = .next (s.logIgnored chipPlot 3 (Reg.MEM_COLD_SEG.offset + 4 * j.val))))

/-- SYNC_EXCHANGE, SYNC_FLIT, EXCHANGE_MISS and LINK_DORMANT (R273, R274, R276). -/
def Obligations.SynchronisationExchangesAreSentAndJudged : Prop :=
  ∀ (s : State) (l : LinkIx), s.canonical = true → s.syncState l.val ≠ 0 →
    ((s.link l.val).sent = none → (∀ n, (s.link l.val).lastSent = some n → n + s.cadence l.val ≤ s.clock) →
      Completes (.syncExchange l) s fun t =>
        (t.link l.val).sent = some s.time64 ∧ (t.link l.val).seqNo = ((s.link l.val).seqNo + 1) % 65536 ∧
        (∃ m, t.out = s.out ++ [m] ∧ m.kind = .sync ∧ m.link = some l.val) ∧ t.regs = s.regs ∧ MemSame s t) ∧
    (∀ f, f.root = s.rootChip → f.reply = false →
      Completes (.syncFlit l f) s fun t =>
        (t.link l.val).heard = true ∧ (t.link l.val).partnerDepth = f.depth ∧
        (∃ m, t.out = s.out ++ [m] ∧ m.kind = .sync ∧ m.link = some l.val) ∧ t.regs = s.regs ∧ MemSame s t) ∧
    (∀ t1, (s.link l.val).sent = some t1 → (s.link l.val).window ≤ 2 * ((s.time64 : Int) - t1) →
      Completes (.exchangeMiss l) s fun t =>
        (t.link l.val).sent = none ∧ t.fld Fld.SDL_LINK_SYNC_MISSED l.val = min 15 (s.fld Fld.SDL_LINK_SYNC_MISSED l.val + 1) ∧
        MemSame s t) ∧
    (s.syncState l.val = 3 → s.beyondGuard l.val = true →
      Completes (.linkDormant l) s fun t =>
        t.fld Fld.SDL_LINK_SYNC_STATE l.val = 4 ∧ RegsKept s t [(.SDL_LINK_SYNC, l.val)] ∧ MemSame s t)

/-- The shared completion of the ring commands (R136, R137). -/
def Obligations.CompletionEntryIsWrittenThenTailSteps : Prop :=
  ∀ (s : State) (p tag status result : Nat) (q : Plot), s.canonical = true → s.plot p = some q →
    lineMemory (q.cplAddr (s.ringIx q ringCplTail q.kvmOrder)) = true →
    s.firstPoison (q.cplAddr (s.ringIx q ringCplTail q.kvmOrder)) 16 = none →
    lineMemory (q.rings + ringCplTail) = true → s.firstPoison (q.rings + ringCplTail) 4 = none →
    (s.complete p tag status result).readBytes (q.cplAddr (s.ringIx q ringCplTail q.kvmOrder)) 16 =
      leBytes 4 tag ++ leBytes 1 status ++ leBytes 3 0 ++ leBytes 8 result ∧
    ((s.complete p tag status result).readLe (q.rings + ringCplTail) 4 =
      (s.ringIx q ringCplTail q.kvmOrder + 1) % 2 ^ q.kvmOrder % 2 ^ 32) ∧
    (∀ a, (a < q.rings + 4 ∨ q.rings + 8 ≤ a) →
      (a < q.cplAddr (s.ringIx q ringCplTail q.kvmOrder) ∨ q.cplAddr (s.ringIx q ringCplTail q.kvmOrder) + 16 ≤ a) →
      (s.complete p tag status result).byteAt a = s.byteAt a) ∧
    RegsKept s (s.complete p tag status result) [(.HUB_LOG_LOST, 0)]

/-- KVM_DOORBELL and ADM_DOORBELL (R135, R172, R281, R293). -/
def Obligations.DoorbellsSetTails : Prop :=
  ∀ (s : State) (a : Agent) (p : PlotIx) (v : W32) (q : Plot), s.plotReach a p.val = true → s.plot p.val = some q →
    s.ringsOpen p.val = true →
    (v.toNat % 2 ^ 12 < 2 ^ q.kvmOrder →
      exec (.kvmDoorbell a p v) s =
        .next (State.dropUnknown ringFuel (s.setPlot p.val { q with cmdTail := v.toNat % 2 ^ 12 }))) ∧
    (2 ^ q.kvmOrder ≤ v.toNat % 2 ^ 12 →
      exec (.kvmDoorbell a p v) s = .next (s.logIgnored p.val 6 (Reg.KVM_DOORBELL.offset + 4 * p.val))) ∧
    (v.toNat % 2 ^ 12 < 2 ^ q.admOrder →
      exec (.admDoorbell a p v) s =
        .next ((s.setPlot p.val { q with admTail := v.toNat % 2 ^ 12 }).noteWait p.val false)) ∧
    (2 ^ q.admOrder ≤ v.toNat % 2 ^ 12 →
      exec (.admDoorbell a p v) s = .next (s.logIgnored p.val 11 (Reg.ADM_DOORBELL.offset + 4 * p.val)))

/-- TRAY_FILL, TRAY_ACCEPT, TRAY_DISCARD (R132, R133). -/
def Obligations.TrayCommandsFollowTrayStates : Prop :=
  ∀ (s u : State) (p : PlotIx) (c : Cmd) (q : Seqn) (a : Nat), u.seq p.val c.seqNo = some q → q.lost = false →
    u.tablePoison q = none → q.tray = some a →
    (s.take p.val 0x10 = some (c, u) → c.cleanFrom 16 = true →
      (u.trayState a = 0 → u.inDram p.val (c.arg 8 8) 128 = true →
        u.firstPoison (c.arg 8 8) 128 = none → fillOk (u.loadBytes (c.arg 8 8) 128) = true →
        exec (.trayFill p) s = .next (State.dropUnknown ringFuel
          ((((((u.putLe a 1 1).putBytes (a + 1) ((u.loadBytes (c.arg 8 8) 128).take 1)).putBytes (a + 0x10)
            (((u.loadBytes (c.arg 8 8) 128).drop 0x10).take 16)).putBytes (a + 0x30)
            (((u.loadBytes (c.arg 8 8) 128).drop 0x20).take 64)).putLe (a + 0x72) 2 u.chipTag).finish c.id 0 0))) ∧
      (u.trayState a ≠ 0 → exec (.trayFill p) s = .next (State.dropUnknown ringFuel (u.refuseTray c)))) ∧
    (s.take p.val 0x11 = some (c, u) → (c.cleanFrom 32 && c.arg 9 7 == 0 && decide (c.arg 8 1 ≤ 16) &&
        ((List.range 16).drop (c.arg 8 1)).all fun k => c.arg (16 + k) 1 == 0xFF) = true →
      (u.trayState a = 1 → u.pathOk a ((List.range (c.arg 8 1)).map fun k => c.arg (16 + k) 1) = true →
        exec (.trayAccept p) s = .next (State.dropUnknown ringFuel
          ((((u.putLe a 1 2).putLe (a + 2) 1 (c.arg 8 1)).putLe (a + 0x20) 16 (c.arg 16 16)).finish c.id 0 0))) ∧
      (u.trayState a ≠ 1 → exec (.trayAccept p) s = .next (State.dropUnknown ringFuel (u.refuseTray c)))) ∧
    (s.take p.val 0x12 = some (c, u) → c.cleanFrom 8 = true →
      (u.trayState a = 1 ∨ u.trayState a = 2 →
        exec (.trayDiscard p) s = .next (State.dropUnknown ringFuel ((u.emptyTray a).finish c.id 0 0))) ∧
      (u.trayState a ≠ 1 ∧ u.trayState a ≠ 2 →
        exec (.trayDiscard p) s = .next (State.dropUnknown ringFuel (u.refuseTray c))))

/-- TRAY_COMMIT, APPEND, COMMIT_POINT, DIBBER_DONE, DIBBER_ROLLED_BACK and PEER_COMMIT (R132, R156, R157, R159, R185). -/
def Obligations.CommitsReachTheirPointAndEnd : Prop :=
  ∀ (s u v : State) (p : PlotIx) (c : Cmd) (q : Seqn) (a n : Nat),
    (s.take p.val 0x13 = some (c, u) → c.cleanFrom 8 = true → u.seq p.val c.seqNo = some q → q.lost = false →
      u.tablePoison q = none → q.tray = some a → u.trayState a = 2 →
      u.firstPoison (a + 4096) (q.layers * layerBlock q 16) = none →
      (u.trayBase a = q.base + q.bound → q.bound < q.maxSlice →
        u.prepareCommit p.val c.seqNo q q.bound (u.trayAccept a) = .ready v →
        exec (.trayCommit p) s = .next (State.dropUnknown ringFuel ((v.putLe a 1 3).runScatter p.val c.seqNo q
          ⟨none, u.trayBase a - q.base, u.trayAccept a, c.id, none, 0, u.trayGen a, none, false, [], 0, 0, []⟩))) ∧
      (∀ chip, ¬ (u.trayBase a = q.base + q.bound ∧ q.bound < q.maxSlice) → u.tailChip p.val (u.trayBase a) = some chip →
        exec (.trayCommit p) s = .next (State.dropUnknown ringFuel (((u.send { Msg.to .peerCommit 1 p.val chip with
          addr := a, gen := u.chipTag, tag := c.id,
          data := leBytes 4 (u.trayBase a) ++ leBytes 1 (u.trayAccept a) ++ leBytes 2 (u.trayGen a) ++
            u.pathData q a ((List.range (u.trayAccept a)).map (u.trayPath a)) }).putLe a 1 3).setSeq p.val c.seqNo { q with
              commit := some ⟨none, u.trayBase a - q.base, u.trayAccept a, c.id, none, 0, u.trayGen a, some chip, false, [], 0, 0, []⟩ })))) ∧
    (s.take p.val 0x03 = some (c, u) → c.cleanFrom 20 = true → u.seq p.val c.seqNo = some q → q.lost = false →
      u.tablePoison q = none → (∀ b, q.tray = some b → u.trayState b = 0) →
      u.checkFree p.val (c.arg 8 8) none = .ok → c.arg 16 4 ≠ 0 →
      q.layers * layerBlock q (c.arg 16 4) ≤ (Table.get u.frames (hAddr (c.arg 8 8))).elim 0 (fun f => frameBytes f.order) →
      u.firstPoison (hAddr (c.arg 8 8)) (q.layers * layerBlock q (c.arg 16 4)) = none →
      u.prepareCommit p.val c.seqNo q q.bound (c.arg 16 4) = .ready v →
      exec (.append p) s = .next (State.dropUnknown ringFuel (v.runScatter p.val c.seqNo q
        ⟨some (c.arg 8 8), q.bound, c.arg 16 4, c.id, none, 0, hGen (c.arg 8 8), none, false, [], 0, 0, []⟩))) ∧
    (s.serviceRuns = true → s.seq p.val n = some q → ∀ k, q.commit = some k →
      (k.tail = none → k.pointed = false → q.bound = k.first → k.acked = k.bytes →
        (k.handle = none → k.lead = none → exec (.commitPoint p n) s =
          .next (s.commitPoint p.val n { q with commit := some { k with pointed := true } } k.first k.count)) ∧
        (∀ h, k.handle = some h → exec (.commitPoint p n) s =
          .next ((((s.commitPoint p.val n { q with commit := none } k.first k.count).advanceBase q
            (k.first + k.count)).finishOpen k.tag 0).takeHeld p.val n)) ∧
        (∀ chip, k.handle = none → k.lead = some chip → exec (.commitPoint p n) s =
          .next (((s.commitPoint p.val n { q with commit := none } k.first k.count).answerLead p.val chip k.tag
            k.generation 0).takeHeld p.val n))) ∧
      (∀ t, q.tray = some a → k.handle = none → k.lead = none →
        (k.tail = none ∧ k.pointed = true ∧ t = none ∨ ∃ m, t = some m ∧ m.gen = s.chipTag ∧ k.answeredBy m = true) →
        ∀ x, x = (((s.putLe (a + 4) 4 (s.trayBase a + k.count)).putLe (a + 8) 8 (s.trayStep a + 1)).emptyTray a).setSeq p.val n
          { q with commit := none } →
        exec (.dibberDone p n t) s = .next (x.finish k.tag 0 (x.trayStep a))) ∧
      (q.tray = some a → k.handle = none → k.lead = none → k.tail = none → k.pointed = false →
        (s.sourceIntact p.val k = false ∨ q.bound ≠ k.first ∨ s.commitBroken p.val n k = true) →
        exec (.dibberRolledBack p n none) s = .next (((((({ s with reqs := s.reqs.filter (fun r =>
          r.who != Requester.commit p.val n) } : State).setSeq p.val n { q with commit := none }).emptyTray a).abandonStep p.val
            n).finishOpen k.tag 4).takeHeld p.val n))) ∧
    (∀ m pos count gen data, s.seq p.val n = some q →
      (q.commit = none → q.held = [] → q.lost = false → gen = m.gen → pos = q.base + q.bound →
        ((s.setSeq p.val n { q with held := [⟨m, pos, count, gen, data⟩] }).setSeq p.val n { q with held := [] }).prepareCommit
          p.val n { q with held := [] } q.bound count = .ready v →
        exec (.peerCommit m p n pos count gen data) s = .next (v.runScatter p.val n { q with held := [] }
          ⟨none, q.bound, count, m.tag, some m.chip, m.gen, gen, none, false, [], 0, 0, data⟩)) ∧
      (q.commit.isSome = true → exec (.peerCommit m p n pos count gen data) s =
        .next (s.setSeq p.val n { q with held := q.held ++ [⟨m, pos, count, gen, data⟩] })))

/-- The single write of BOUND (R157). -/
def Obligations.CommitPointMovesBoundOnly : Prop :=
  ∀ (s : State) (p n first count : Nat) (q : Seqn),
    (∃ m, (s.commitPoint p n q first count).seq p n = some { q with bound := first + count, mass := m } ∧ (q.mass.isSome = true → m = q.mass)) ∧
    ∀ k, k ≠ seqKey p n → Table.get (s.commitPoint p n q first count).seqs k = Table.get s.seqs k

/-- Commands on sequences and buffers (R137, R140, R146 to R148, R154, R155). -/
def Obligations.SequenceAndBufferCommandsComplete : Prop :=
  ∀ (s u v : State) (p : PlotIx) (c : Cmd) (q : Seqn),
    (∀ key r, s.take p.val 0x01 = some (c, u) → c.seqArgsOk = true → c.newSeq.live = false →
      Table.freeKey u.seqs 65535 (seqKey p.val 1) = some key → u.newSeq p.val (key % 65536) c.newSeq = some (r, v) →
      exec (.seqCreate p) s = .next (State.dropUnknown ringFuel
        ((v.setSeq p.val (key % 65536) { r with liveIndex := none }).finish c.id 0 (key % 65536)))) ∧
    (s.take p.val 0x02 = some (c, u) → c.cleanFrom 8 = true → u.seq p.val c.seqNo = some q → q.commit = none → q.held = [] →
      u.tablePoison q = none →
      exec (.seqDestroy p) s = .next (State.dropUnknown ringFuel ((u.destroySeq p.val c.seqNo q).finishOpen c.id 0))) ∧
    (∀ a, s.take p.val 0x09 = some (c, u) → c.cleanFrom 10 = true → bufferTier (c.arg 8 1) = true → c.arg 9 1 ≤ 16 →
      u.allocFrame p.val (c.arg 8 1) (c.arg 9 1) useBuffer 0 = some (a, v) →
      exec (.bufAlloc p) s = .next (State.dropUnknown ringFuel (v.finish c.id 0 (v.handleOf a)))) ∧
    (s.take p.val 0x0A = some (c, u) → c.cleanFrom 16 = true →
      (u.checkFree p.val (c.arg 8 8) none = .ok →
        exec (.bufFree p) s = .next (State.dropUnknown ringFuel ((u.freeFrame (hAddr (c.arg 8 8))).finishOpen c.id 0))) ∧
      (∀ kind st, u.checkFree p.val (c.arg 8 8) none = .bad kind st →
        exec (.bufFree p) s = .next (State.dropUnknown ringFuel ((u.badFree p.val kind (c.arg 8 8)).finishOpen c.id st)))) ∧
    (∀ bs, s.take p.val 0x0C = some (c, u) → c.cleanFrom 18 = true → u.ownsRange p.val (c.arg 8 8) (2 * c.arg 16 2) = true →
      u.firstPoison (c.arg 8 8) (2 * c.arg 16 2) = none →
      ((List.range (c.arg 16 2)).map fun i => u.loadLe (c.arg 8 8 + 2 * i) 2).mapM
        (fun k => (u.seq p.val k).map fun q => (bucketOf q.bound, k, q.lost)) = some bs →
      bs.any (fun e => e.2.2) = false →
      exec (.bucket p) s = .next (State.dropUnknown ringFuel ((u.putBytes (c.arg 8 8)
        ((bs.foldl (fun acc e => bucketInsert (e.1, e.2.1) acc) []).flatMap fun e => leBytes 2 e.2)).finishOpen c.id 0))) ∧
    (∀ area, s.take p.val 0x04 = some (c, u) → c.cleanFrom 12 = true → u.seq p.val c.seqNo = some q → q.lost = false →
      u.tablePoison q = none → q.base ≤ c.arg 8 4 → c.arg 8 4 < q.base + q.bound → (q.globals.any fun e => e.1 == c.arg 8 4) = false →
      q.garea = some area → q.globals.length < q.gquota → u.keyPoison q (c.arg 8 4 - q.base) 1 = none →
      exec (.globalAdd p) s = .next (State.dropUnknown ringFuel
        ((((u.copyGlobal q area (c.arg 8 4 - q.base) q.globals.length).putLe
          (area + gposOff q (q.globals.length / 64) + 4 * (q.globals.length % 64)) 4 (c.arg 8 4)).setSeq p.val c.seqNo
            { q with globals := insertGlobal (c.arg 8 4, q.globals.length) q.globals }).finishOpen c.id 0))) ∧
    (∀ x e, s.take p.val 0x07 = some (c, u) → c.cleanFrom 17 = true → c.arg 16 1 ≤ 1 → u.seq p.val c.seqNo = some q →
      q.lost = false → u.tablePoison q = none → rangeOk q (c.arg 8 4) (c.arg 12 4) = true → coverPages q (c.arg 8 4) (c.arg 12 4) = [x] →
      u.pte q x = e → e.valid = true →
      exec (.pin p) s = .next (State.dropUnknown ringFuel
        ((u.setPte q x { e with pinned := c.arg 16 1 == 1 }).finishOpen c.id 0))) ∧
    (∀ src, s.take p.val 0x08 = some (c, u) → c.cleanFrom 16 = true → c.arg 10 2 = 0 → u.seq p.val c.seqNo = some q →
      q.lost = false → u.tablePoison q = none → c.arg 8 2 ≠ c.seqNo → u.seq p.val (c.arg 8 2) = some src → src.lost = false → c.arg 12 4 ≤ src.bound →
      sameShape src q = true → q.commit = none → q.bound = 0 → c.arg 12 4 ≤ q.maxSlice →
      u.keyPoison src 0 (c.arg 12 4) = none →
      u.withRoom p.val [q.home, 1] (fun s => s.mapAll p.val c.seqNo q ((pageSpan q 0 (c.arg 12 4)).flatMap (pagesAt q))) = .inl v →
      exec (.copyPrefix p) s = .next (State.dropUnknown ringFuel
        ((((v.copyPositions p.val src q (c.arg 12 4)).commitPoint p.val c.seqNo q 0 (c.arg 12 4)).advanceBase q
          (c.arg 12 4)).finishOpen c.id 0)))

/-- WALK, PEER_WALK, PREFETCH and MIGRATE (R151 to R153, R167, R169). The place of a row table and the number of its rows are the model's
choice (notes/assumptions/31). -/
def Obligations.WalkAndPageCommandsComplete : Prop :=
  ∀ (s u : State) (p : PlotIx) (c : Cmd) (q : Seqn),
    (∀ (n b : Nat) (x : State) (a : WalkArgs) (w : WalkAcc), s.take p.val 0x05 = some (c, u) → c.cleanFrom 41 = true →
      c.arg 12 4 = 0 → c.arg 40 1 < 4 → u.seq p.val c.seqNo = some q → q.lost = false → u.tablePoison q = none →
      (c.arg 32 8 = 0 ∨ u.ownsByte p.val (c.arg 32 8) = true) → b = (u.rowBase p.val).elim 0 (· + c.arg 28 4) →
      u.ownsRange p.val b (8 * n) = true → x = u.noteRead b (8 * n) →
      a = WalkArgs.mk (c.arg 16 8) (c.arg 24 1) (c.arg 25 1) (c.arg 26 2) ((c.arg 40 1).testBit 0) ((c.arg 40 1).testBit 1) →
      a.ok q = true →
      w = x.walk p.val c.seqNo q a (x.walkRows b n) (x.selfMember p.val) (x.recallList (c.arg 32 8)) →
      (w.failed = none → exec (.walk p n) s = .next (State.dropUnknown ringFuel
        ((({ w with st := w.st.postWalk p.val (c.arg 8 4) w.descs } : WalkAcc).close p.val c.seqNo q).finish c.id 0 w.descs.length))) ∧
      (∀ st, w.failed = some st → exec (.walk p n) s = .next (State.dropUnknown ringFuel
        ((({ w with st := w.st.postWalk p.val (c.arg 8 4) w.descs } : WalkAcc).close p.val c.seqNo q).finishOpen c.id st)))) ∧
    (∀ m n a rows recalls w, s.seq p.val n = some q → q.lost = false → a.ok q = true →
      w = s.walk p.val n q a rows (s.selfMember p.val) recalls →
      exec (.peerWalk m p n a rows recalls) s =
        .next ((w.descs.foldl (fun s d => s.send { Msg.to .walkDescriptor 1 m.plot m.chip with
          tag := m.tag, gen := m.gen, data := leBytes 64 d }) (w.close p.val n q)).send
            { Msg.to .walkDescriptor 1 m.plot m.chip with
              tag := m.tag, gen := m.gen, op := w.failed.getD 0, data := leBytes 4 w.descs.length })) ∧
    (s.take p.val 0x06 = some (c, u) → c.cleanFrom 16 = true → u.seq p.val c.seqNo = some q → q.lost = false →
      u.tablePoison q = none → rangeOk q (c.arg 8 4) (c.arg 12 4) = true →
      exec (.prefetch p) s = .next (State.dropUnknown ringFuel
        (((coverPages q (c.arg 8 4) (c.arg 12 4)).foldl (fun s v => s.prefetch p.val c.seqNo q v) u).finishOpen c.id 0))) ∧
    (∀ vs, s.take p.val 0x0B = some (c, u) → c.cleanFrom 17 = true → c.arg 16 1 ≤ 3 → u.seq p.val c.seqNo = some q →
      q.lost = false → u.tablePoison q = none → rangeOk q (c.arg 8 4) (c.arg 12 4) = true →
      vs = ((coverPages q (c.arg 8 4) (c.arg 12 4)).filter fun v =>
        (u.pte q v).valid && (u.pte q v).tier != c.arg 16 1 && !(u.pte q v).moving) →
      (vs = [] → exec (.migrate p) s = .next (State.dropUnknown ringFuel (u.finish c.id 0 0))) ∧
      (64 < vs.length → exec (.migrate p) s = .next (State.dropUnknown ringFuel (u.finishOpen c.id 0x0A))) ∧
      (∀ v x b w, vs = [v] →
        x = (u.setSeq p.val c.seqNo { q with busy := q.busy + 1 }).stepFld Fld.KVM_MIGRATE_STATUS_BATCH p.val →
        b = Batch.mk p.val c.id c.seqNo 1 0 0 (x.fld Fld.KVM_MIGRATE_STATUS_BATCH p.val) →
        ((({ x with batches := Table.put x.batches c.id b } : State).showBatch b 1).setFld Fld.KVM_MIGRATE_STATUS_COUNT
          p.val 1).startMove p.val c.seqNo q v (c.arg 16 1) false (some c.id) = some (.ok w) →
        exec (.migrate p) s = .next (State.dropUnknown ringFuel w)))

/-- PAGE_MOVE_COMMIT, CONVERT_TO_CUTTING, HOSTING_REPLY and HOST_REPLY_TIMEOUT (R165, R168, R169, R171). -/
def Obligations.PageMovesCommitOrRollBack : Prop :=
  ∀ (s : State) (id a : Nat) (j : Journal) (q : Seqn), s.entry id = some j →
    (s.serviceRuns = true → s.seq j.plot j.seqNo = some q → j.dst = some a → j.cut = false → j.dstTier ≠ 2 → j.step = 2 → j.due = 0 → j.srcTier ≠ 2 →
      s.firstPoison j.srcAddr (formBytes q (s.pte q j.page)) = none →
      exec (.pageMoveCommit id) s =
        .next ((s.putBytes a (s.loadBytes j.srcAddr (formBytes q (s.pte q j.page)))).commitMove j q a)) ∧
    (∀ line, s.serviceRuns = true → s.seq j.plot j.seqNo = some q → j.dst = some a → j.cut = false → j.dstTier ≠ 2 → j.step = 2 →
      j.due = 0 → j.srcTier ≠ 2 → s.firstPoison j.srcAddr (formBytes q (s.pte q j.page)) = some line →
      exec (.pageMoveCommit id) s = .next ((s.recordEcc line 2 false).rollBack id)) ∧
    (∀ (pl : Plot) (c : CellIx) (k : Nat) (x : List Byte × NumFlags), s.serviceRuns = true → s.seq j.plot j.seqNo = some q → s.plot j.plot = some pl → j.dst = some a → j.cut = true → fp8Pages q = true →
      s.ownerOfCell c.val = some j.plot → k = j.page / npages q → s.firstPoison j.srcAddr (pageBytes q) = none →
      s.firstPoison (cutColumn pl.cutTab q (32 * (j.rank + 1)) k 0).1 (cutTable q (32 * (j.rank + 1))) = none →
      x = s.cutting pl.cutTab q (32 * (j.rank + 1)) k (s.loadBytes j.srcAddr (pageBytes q)) →
      exec (.convertToCutting id c) s = .next (((s.putBytes a x.1).addNumFlags c.val x.2).commitMove j q a)) ∧
    (j.sent.isSome = true →
      (∀ h, j.step = 1 → exec (.hostingReply id s.chipTag (.handle h)) s = .next (s.fillPeer j h)) ∧
      (j.step = 3 → exec (.hostingReply id s.chipTag .sealed) s = .next (s.putJournal { j with step := 4, sent := none })) ∧
      (s.seq j.plot j.seqNo = some q → j.dst = some a → j.step = 5 →
        exec (.hostingReply id s.chipTag (.frame true true ((j.epoch + 1) % 2 ^ 32))) s = .next (s.commitMove j q a)) ∧
      exec (.hostingReply id s.chipTag .refused) s = .next (s.hostFailed j)) ∧
    (∀ gen r, gen ≠ s.chipTag → exec (.hostingReply id gen r) s = .next s.countStale) ∧
    (∀ t, j.sent = some t → t + 100000 ≤ s.clock → exec (.hostReplyTimeout id) s = .next (s.hostFailed j))

/-- HOST_ALLOC, HOST_SEAL, HOST_QUERY, HOST_FREE, ORPHAN_RECLAIM, SOURCE_FREE and PRESSURE_HANDLING (R161, R162, R168, R170, R171). -/
def Obligations.HostingSideServesItsFrames : Prop :=
  ∀ (s u : State) (m : HostMsg) (p : PlotIx) (h count seqNo order epoch : Nat) (f : Frame),
    (∀ a, s.ringsOpen p.val = true → order ≤ 16 → s.allocFrame p.val 2 order useHosted seqNo = some (a, u) →
      Table.get u.frames a = some f →
      exec (.hostAlloc m p seqNo order epoch) s =
        .next (({ u with frames := Table.put u.frames a { f with
          ownerChip := m.chip, ownerPlot := m.plot, newEpoch := epoch, epoch := 0, sealed := false } } : State).answerHost m
            (leBytes 1 0 ++ leBytes 8 (({ u with frames := Table.put u.frames a { f with
              ownerChip := m.chip, ownerPlot := m.plot, newEpoch := epoch, epoch := 0, sealed := false } } : State).handleOf a)))) ∧
    (s.hostedFrame m h = some f → count ≤ frameBytes f.order →
      exec (.hostSeal m h count (crc32c (s.loadBytes (hAddr h) count))) s =
        .next (({ s with frames := Table.put s.frames (hAddr h) { f with sealed := true, epoch := f.newEpoch } } : State).answerHost
          m (leBytes 1 0))) ∧
    (s.hostedFrame m h = some f →
      exec (.hostQuery m h) s = .next (s.answerHost m (leBytes 1 1 ++ leBytes 1 f.sealed.toNat ++ leBytes 4 f.epoch))) ∧
    (s.hostedFrame m h = none → ∀ crc,
      exec (.hostSeal m h count crc) s = .next (s.answerHost m (leBytes 1 7)) ∧
      exec (.hostQuery m h) s = .next (s.answerHost m (leBytes 1 0 ++ leBytes 1 0 ++ leBytes 4 0))) ∧
    (∀ x, s.hostingPlot h = some x → s.checkFree x h (some (m.chip, m.plot)) = .ok →
      exec (.hostFree m h) s = .next ((s.freeFrame (hAddr h)).answerHost m (leBytes 1 0))) ∧
    (∀ a, s.serviceRuns = true → s.frames = [(a, f)] → f.allocated = true → f.use = 3 → f.sealed = false → f.tick + 10000000 ≤ s.clock →
      exec .orphanReclaim s = .next ((s.freeFrame a).logEvent f.owner 6 3 2 a)) ∧
    (∀ d, s.serviceRuns = true → s.draining = [d] → d.hold ≤ s.sundial →
      exec .sourceFree s = .next (({ s with draining := [] } : State).endDrain d)) ∧
    (∀ t : TierIx, s.serviceRuns = true → s.ringsOpen p.val = true → t.val ≠ 2 →
      (s.belowLow p.val t.val = true ∨ (p.val, t.val) ∈ s.pressed) →
      exec (.pressureHandling p t) s = .next (({ s with pressed := s.pressed.erase (p.val, t.val) } : State).relieve p.val t.val))

/-- Frames and pool books (R145, R148, R149). -/
def Obligations.FrameAllocationAndFreeKeepPoolBooks : Prop :=
  ∀ (s u : State) (p t order use seqNo a : Nat), s.canonical = true →
    (s.allocFrame p t order use seqNo = some (a, u) →
      (∃ f, Table.get u.frames a = some f ∧ f.allocated = true ∧ f.owner = p ∧ f.order = order ∧ f.use = use ∧
        f.generation = ((Table.get s.frames a).elim 0 (·.generation) + 1) % 65536) ∧
      (u.pool p t).free = (s.pool p t).free - 2 ^ order ∧ u.regs = s.regs ∧ MemSame s u) ∧
    (∀ f, Table.get s.frames a = some f → f.allocated = true → f.use ≠ useHosted →
      (∃ g, Table.get (s.freeFrame a).frames a = some g ∧ g.allocated = false ∧ g.generation = f.generation) ∧
      ((s.freeFrame a).pool f.owner (poolTier a)).free = (s.pool f.owner (poolTier a)).free + 2 ^ f.order ∧
      (s.freeFrame a).regs = s.regs ∧ MemSame s (s.freeFrame a))

/-- SIGNATURE_APPEND (R53, R216, R217): a signing task's signature enters the live list with its commit tick; a full side list delays it. -/
def Obligations.SignatureReachesLiveIndex : Prop :=
  ∀ (s : State) (c : CellIx) (j : SignJob) (rest : List SignJob) (q : Seqn) (pl : Plot) (n k : Nat) (x : Index) (r : Nat × NumFlags),
    s.serviceRuns = true → s.signing = j :: rest → s.ownerOfCell c.val = some j.plot → s.seq j.plot j.seqNo = some q →
    s.plot j.plot = some pl → q.liveIndex = some n → s.index n = some x → j.replay = false → j.code = none →
    (s.pte q j.page).valid = true → (s.pte q j.page).cutting = false → (s.pte q j.page).tier ≠ 2 → k = j.page / npages q →
    s.firstPoison (s.pte q j.page).addr (keyBlock q) = none → s.firstPoison (projAddr pl.sigProj q k 0 0) (512 * dims q) = none →
    r = s.signature pl.sigProj q k (s.loadBytes ((s.pte q j.page).addr + 0) (keyBlock q)) →
    (∀ y, x.append k r.1 (q.base + j.page % npages q * pagePos q) j.tick = some y →
      exec (.signatureAppend c) s = .next ((({ s with signing := rest } : State).addNumFlags c.val r.2).setIndex n y)) ∧
    (x.append k r.1 (q.base + j.page % npages q * pagePos q) j.tick = none →
      exec (.signatureAppend c) s = .next { (({ s with signing := rest } : State).addNumFlags c.val r.2).setBit
        Fld.RCL_PLOT_FLAGS_SIDE_FULL j.plot true with signing := rest ++ [{ j with code := some r.1 }] })

/-- SDL_TIME_LOW_READ, SUNDIAL_JOIN, SUNDIAL_EVENT, DEFERRED_EVENT and SCHED_WRITE (R270 to R272, R279, R280). -/
def Obligations.SundialIsReadJoinedAndFiresEvents : Prop :=
  ∀ (s u : State), s.canonical = true →
    (∀ a, Completes (.sdlTimeLowRead a) s fun t =>
      t.rdata = BitVec.ofNat 32 s.sundial ∧ Sparse.get (fun _ => 0) t.latch a.number = s.sundial / 2 ^ 32 % 2 ^ 32 ∧
      t.regs = s.regs ∧ MemSame s t) ∧
    (∀ l : LinkIx, s.isRoot = false → s.mainLost = false → s.holdsWork = false → s.fld Fld.SDL_STATUS_STATE 0 = sdJoining →
      s.bestParent = some l.val →
      Completes (.sundialJoin l) s fun t =>
        t.time64 = ((s.time64 : Int) + (s.link l.val).theta / 2).toNat ∧ t.fld Fld.SDL_STATUS_STATE 0 = sdSync ∧
        t.fld Fld.SDL_STATUS_DEPTH 0 = (s.link l.val).partnerDepth + 1 ∧ t.fld Fld.SDL_STATUS_PARENT 0 = l.val ∧
        RegsKept s t [(.SDL_STATUS, 0)] ∧ MemSame s t) ∧
    (∀ e, s.nextEvent = some e →
      exec .sundialEvent s = .next (s.fireEvent e) ∧ e ∈ s.dueEvents ∧ ∀ x, x ∈ s.dueEvents → e.tick ≤ x.tick) ∧
    (∀ e p off v priv, s.nextEvent = some e → e.kind = .write p off v priv →
      exec .sundialEvent s = .next (s.fireWrite e p off v priv)) ∧
    (∀ (p : PlotIx) (c : Cmd), s.take p.val 0x30 = some (c, u) → c.cleanFrom 24 = true → c.seqNo = 0 →
      u.mayWrite (some p.val) (c.arg 16 4) = true →
      (u.sundial + 1000 ≤ c.arg 8 8 → u.pendingWrites < 64 →
        exec (.schedWrite (some p)) s = .next (State.dropUnknown ringFuel
          (({ u with
              events := u.events ++ [⟨c.arg 8 8, u.eventSeq, .write p.val (c.arg 16 4) (c.arg 20 4) false, none⟩]
              eventSeq := u.eventSeq + 1 } : State).finishOpen c.id 0))) ∧
      (c.arg 8 8 < u.sundial + 1000 →
        exec (.schedWrite (some p)) s = .next (State.dropUnknown ringFuel (u.finishOpen c.id 0x0E)))) ∧
    (∀ (l : LinkIx) p x v, s.syncState l.val = sySynced → s.groups = [(p, x)] → x.late = true →
      s.ringLink (s.groupDesc x.desc) = some l.val → v = ranTo (execHopLaunch (plotIx p) s) s →
      (∀ e, e ∈ v.chains → e.2.deferred = false) → exec (.deferredEvent l) s = .next v) ∧
    (∀ (l : LinkIx) k x d g, s.syncState l.val = sySynced → s.groups = [] → s.chains = [(k, x)] → x.deferred = true →
      x.headOp = some d → s.colGroup d.group = some g → (s.opLinks d g).contains l.val = true →
      exec (.deferredEvent l) s = .next (ranTo (execOpFire (chainIx k) s) s))

/-- The search of R286 never answers an overbooked placement, although it looks at the ends of reservations only. -/
def Obligations.PlacementFitsEverySlot : Prop :=
  ∀ (s : State) (r : AdmReq) (cells : List Nat) (d fuel t a b : Nat), 0 < d → s.search r cells d fuel t = .at' a b →
    b = a + d ∧ t ≤ a ∧ b ≤ r.deadline ∧ slotOf a < slotOf s.sundial + 65536 ∧
    ∀ j, slotOf a ≤ j → j ≤ slotOf (a + d - 1) → s.slotBad 0 r cells j = false

/-- ADMISSION_REQUEST and STREAM_CHECK_END (R281, R286 to R288). -/
def Obligations.RequestsAreDecidedAndAnswered : Prop :=
  ∀ (s u : State) (p : PlotIx) (q : Plot) (w : Nat) (body : TaskBody), s.admNext = some p.val → s.plot p.val = some q →
    s.headRequest p.val = some w →
    u = (({ s.putLe (q.rings + ringAdmHead) 4 ((s.ringIx q ringAdmHead q.admOrder + 1) % 2 ^ q.admOrder) with
            admTurn := p.val, taskSeq := s.taskSeq + 1 } : State).noteWait p.val true) →
    (∀ reason tick, u.decide' (admReq p.val w) (admClean w) = .refused reason tick →
      exec (.admissionRequest p body) s = .next (u.refuse p.val (admReq p.val w).tag reason tick)) ∧
    (∀ start completion, u.decide' (admReq p.val w) (admClean w) = .at' start completion →
      (body.streams = [] → body.group = none →
        exec (.admissionRequest p body) s =
          .next ((u.setTask u.taskSeq (Task.of (admReq p.val w) body (completion - start) start completion false false)).acceptTask
            u.taskSeq (Task.of (admReq p.val w) body (completion - start) start completion false false))) ∧
      (body.needsCheck = true →
        (u.setTask u.taskSeq (Task.of (admReq p.val w) body (completion - start) start completion true false)).checkFree' p.val
          body = false →
        exec (.admissionRequest p body) s =
          .next (u.setTask u.taskSeq (Task.of (admReq p.val w) body (completion - start) start completion true false)))) ∧
    (u.fld Fld.PLT_STATE_STATE p.val ≠ 1 → u.decide' (admReq p.val w) (admClean w) = .refused 0x0A 0) ∧
    (u.admStopped p.val = false → admClean w = false → u.decide' (admReq p.val w) (admClean w) = .refused 9 0) ∧
    (∀ tid t, s.serviceRuns = true → s.task tid = some t → t.checking = true → t.body.group = none →
      (∀ ctx, s.checkStreams t.plot tid t.body.streams = some ctx →
        exec (.streamCheckEnd tid) s = .next (s.acceptTask tid { t with ctx := ctx, streams := ctx.map (·.1) })) ∧
      (s.checkStreams t.plot tid t.body.streams = none →
        exec (.streamCheckEnd tid) s = .next (({ s with tasks := Table.del s.tasks tid } : State).refuse t.plot t.tag 8 0)))

/-- TASK_START, TASK_END, DEADLINE_ABORT and CAPACITY_LOSS (R245, R286, R289, R290). -/
def Obligations.TasksStartEndAndAbort : Prop :=
  ∀ (s : State) (tid : Nat) (t : Task), s.canonical = true → s.task tid = some t →
    (∀ u, t.accepted = true → t.service = false → t.started = none → s.mayQueue tid t = true →
      (s.isQueued tid t = true ∨ t.ctx = [] ∨ s.serviceRuns = true) →
      u = (if s.isQueued tid t = true then s else s.queueTask tid t) → (t.cells.any fun c => (u.cell c).task.isSome) = false →
      (t.start ≤ u.sundial → exec (.taskStart tid) s = .next (u.startTask tid t)) ∧
      (u.sundial < t.start → t.cells ≠ [] → t.noRebase = false → t.notBefore ≤ u.sundial →
        u.slotsFit tid ⟨t.plot, t.tag, t.noRebase, t.notBefore, t.deadline, t.work, t.linkWork, t.blocks, t.cellMask, t.desc, t.claim⟩
          t.cells (slotOf u.sundial) (slotOf (u.sundial + t.dur - 1)) = true →
        exec (.taskStart tid) s = .next (u.startTask tid { t with
          start := u.sundial, completion := u.sundial + t.dur, first := slotOf u.sundial, last := slotOf (u.sundial + t.dur - 1) }))) ∧
    (t.started.isSome = true → t.service = false → s.taskDone tid t = true → t.inRange = true →
      Completes (.taskEnd tid) s fun u =>
        u.tasks = Table.del s.tasks tid ∧ u.endedTasks = s.endedTasks ++ [(t.plot, t.tag, s.sundial)] ∧
        (∀ c, c ∈ t.cells → (u.cell c).task = none ∧ (u.cell c).ibuf = [] ∧ u.fld Fld.CEL_STATE_STATE c = 0) ∧
        (∀ c, c ∉ t.cells → { u.cell c with transfers := (s.cell c).transfers } = s.cell c ∧
          ((∀ e, e ∈ s.streams → e.2.task = tid → c ∉ e.2.cellSet) → u.cell c = s.cell c)) ∧
        RegsKept s u ((t.cells.map fun c => (.CEL_STATE, c)) ++
          ((s.streams.filter fun e => e.2.task == tid).flatMap fun e => [(.STM_STREAM_STATE, e.1), (.STM_STATUS, e.1 / 8)]) ++
          (List.range 4).flatMap fun r => [(.MEM_ECC_INFO, r), (.MEM_ECC_ADDR, r)]) ∧
        (∀ e, e ∈ u.events → e.task ≠ some tid)) ∧
    (t.accepted = true → t.completion ≤ s.sundial → t.inRange = true → t.plot < 8 →
      Completes (.deadlineAbort tid) s fun u =>
        u.tasks = Table.del s.tasks tid ∧
        u.fld Fld.ADM_ABORT_COUNT_COUNT t.plot =
          min (s.fld Fld.ADM_ABORT_COUNT_COUNT t.plot + 1) (2 ^ Fld.ADM_ABORT_COUNT_COUNT.width - 1) ∧
        (∀ c, c ∈ t.cells → (s.cell c).task = some tid → (u.cell c).task = none ∧ u.fld Fld.CEL_STATE_STATE c = 4) ∧
        (∀ e, e ∈ u.events → e.task ≠ some tid)) ∧
    (∀ k, s.tasks = [(tid, t)] → t.accepted = true → k < 25 → s.overbooked k = true →
      Completes .capacityLoss s fun u => u.tasks = []) ∧
    ((∀ k, k < 25 → s.overbooked k = false) → exec .capacityLoss s = .next s)

/-- STEP_HEADER, QUERY_PIECE, PARTIAL_PIECE, HOP_LAUNCH, RING_TIMEOUT, RING_BUFFER_RELEASE and DRAIN_ACK (R180 to R188, R330, R75). Where the
lead's header input comes from, and which attention descriptors a hop sets, are the model's choice (notes/assumptions/58). -/
def Obligations.GroupStepsPiecesAndRingHops : Prop :=
  ∀ (s : State) (m : InMsg) (p : PlotIx) (x : GroupCtx) (d : GroupDesc), d = s.groupDesc x.desc →
    (s.hubHeld = false → m.malformed = false → s.isSelf m.dest = true → s.group (m.plot % 8) = some x →
      (d.pattern = 0 → s.memberOf d.qgroup m.src = some d.lead → x.due = false → headerOk m.data = true →
        (d.self ≠ d.lead →
          exec (.stepHeader m) s = .next (((s.setGroupCtx (m.plot % 8) { x with
            tag := some (stepTag (leNat (m.data.take 8)) (leNat ((m.data.drop 14).take 1)))
            headTick := s.sundial, header := m.data.take 152, pieces := []
            opBase := [(d.qgroup, s.nextOpseq d.qgroup), (d.rgroup, s.nextOpseq d.rgroup)] }).setFld
              Fld.ATT_GROUP_STATUS_ATTEMPT (m.plot % 8) (leNat ((m.data.drop 14).take 1))).expandHeader x.task m.data)) ∧
        (d.self = d.lead → s.tailPending (m.plot % 8) d = false →
          exec (.stepHeader m) s = .next (s.leadHeader (m.plot % 8) x d m.data)) ∧
        (d.self = d.lead → s.tailPending (m.plot % 8) d = true → exec (.stepHeader m) s = .next s)) ∧
      (∀ h : PieceHead, h = pieceHead m.data → x.tag = some h.tag → s.pieceOk (m.plot % 8) x h m.addr (m.data.length - 16) = true →
        (h.kind = 0 → s.memberOf d.qgroup m.src = some h.member → bitsAt m.tag 24 8 = d.qgroup →
          exec (.queryPiece m) s = .next ((s.setGroupCtx (m.plot % 8) { x with
            pieces := x.pieces ++ [(h.member, h.layer, h.group, 0)] }).pieceIn (m.plot % 8) m.src none m.tag
              (setBits m.op 20 4 (bitsAt m.op 20 4 ||| (h.sflags % 16))) m.addr (m.data.drop 16))) ∧
        (h.kind = 1 → s.memberOf d.rgroup m.src = some h.member → bitsAt m.tag 24 8 = d.rgroup →
          exec (.partialPiece m) s = .next ((s.setGroupCtx (m.plot % 8) { x with
            pieces := x.pieces ++ [(h.member, h.layer, h.group, 1)] }).pieceIn (m.plot % 8) m.src none m.tag
              (setBits m.op 20 4 (bitsAt m.op 20 4 ||| (h.sflags % 16))) m.addr (m.data.drop 16))))) ∧
    (∀ (h : Nat) (sends held : Bool) (home block : BlockHead) (v w : State), s.group p.val = some x → s.hopDue x p.val = true →
      h = x.nextHop % d.n → sends = s.hopSend p.val d h →
      held = (s.ringLink d).any (fun l => if x.late then s.syncState l != sySynced else s.beyondGuard l) →
      home = s.homeHead p.val d (x.tag.getD 0) (x.nextHop / d.n) →
      block = (if h = 0 then home else ((s.blockOf x d h).map fun y => blockHead y.data).getD home) →
      v = ((if d.period = 0 then s else s.markUnsync p.val).setGroupCtx p.val
        { x with hop := x.nextHop, launched := some s.sundial, late := false }).setHalves x.task block (d.slicing == 1) →
      w = (if h = 0 then v else (v.shiftOp d.ngroup).elim v fun e => v.chainPair e.1 e.2 fun q => { q with full := q.full + 1 }) →
      (d.period ≠ 0 → sends = true → held = true →
        exec (.hopLaunch p) s = .next (((s.setBit Fld.ATT_GROUP_STATUS_DEFERRED p.val true).setBit
          Fld.SDL_EVENT_FLAGS_DEFERRED p.val true).setGroupCtx p.val { x with late := true })) ∧
      ((d.period = 0 ∨ sends = false ∨ held = false) →
        (sends = false → exec (.hopLaunch p) s = .next w) ∧
        (∀ c ch o g, sends = true → s.ringHead d = some (c, ch, o) → w.ringHead d = some (c, ch, o) →
          w.colGroup d.ngroup = some g →
          (h = 0 → s.tooBig p.val d home o = false → exec (.hopLaunch p) s =
            .next ((w.formHome p.val d (x.tag.getD 0) (x.nextHop / d.n) o.src).fire c ch o g)) ∧
          (h = 0 → s.tooBig p.val d home o = true → exec (.hopLaunch p) s =
            .next (s.raiseError d.ngroup ccMismatch ((s.colGroup d.ngroup).elim 0 (·.opseq)))) ∧
          (h ≠ 0 → exec (.hopLaunch p) s = .next (w.fire c ch o g))))) ∧
    (∀ layer group, s.group p.val = some x → (s.task x.task).isSome = true →
      (∀ t, d.pattern = 1 → x.launched = some t → x.hop % d.n + 1 < d.n → s.blockHere x d (x.hop % d.n + 1) = false →
        t + d.timeout ≤ s.sundial →
        exec (.ringTimeout p layer group) s = .next ((s.raiseError d.ngroup ccTimeout
          ((s.colGroup d.ngroup).elim 0 (·.opseq))).abortTask x.task fcFrost (some fcFrost) none none)) ∧
      (d.pattern = 0 → x.tag.isSome = true → x.lacks d layer group = true → x.headTick + d.timeout ≤ s.sundial →
        exec (.ringTimeout p layer group) s = .next ((s.raiseError d.rgroup ccTimeout
          ((s.colGroup d.rgroup).elim 0 (·.opseq))).abortTask x.task fcFrost (some fcFrost) none none))) ∧
    (∀ (gi : GroupIx) g c o y, s.colGroup gi.val = some g → s.shiftOp gi.val = some (c, o) → s.ops = [] → s.colIn = [y] →
      y.group = gi.val → y.opcode = opShift → y.off = 0 → s.group g.plot = none → o.notifies = false →
      exec (.ringBufferRelease gi) s = .next (({ s with colIn := [] } : State).send { Msg.to .credit 1 g.plot (g.chip y.src) with
        gen := s.chipTag, tag := gi.val * 2 ^ 24 + y.epoch * 2 ^ 16 + y.opseq, op := 0x81000000 })) ∧
    (∀ (c : CellIx) f rest, (s.cell c.val).drains = f :: rest →
      ((s.cell c.val).transfers.filter fun t => t.port == .drain && t.stream.isNone).length ≤ (rest.flatMap (·.ranges)).length →
      (s.drainSinks (fusedTrigger f.fused) = [] → exec (.drainAck c) s = .next (s.ackDrain c.val f)) ∧
      (∀ e g u, s.drainSinks (fusedTrigger f.fused) = [e] → s.colGroup e.2.1.group = some g →
        e.2.1.refusesDrain g c.val (bitsAt f.fused 10 13) f.len = false →
        hasLanded e.2.2.1 e.2.2.2 (bitsAt f.fused 10 13) (e.2.1.cells.findIdx (· == c.val)) = false →
        s.storeBytes (e.2.1.contribAddr (bitsAt f.fused 10 13) (e.2.1.cells.findIdx (· == c.val))) (s.drainBytes c.val f) = (u, none) →
        exec (.drainAck c) s = .next (u.noteDrain c.val f e.1 e.2.1 e.2.2.2)))

/-- The commands on indexes (R200 to R202, R206). -/
def Obligations.IndexCommandsComplete : Prop :=
  ∀ (s u : State) (p : PlotIx) (c : Cmd) (x : Index),
    (∀ dirs k, s.take p.val 0x20 = some (c, u) → c.cleanFrom 24 = true → c.seqNo = 0 → c.arg 9 1 = 0 → c.arg 14 2 = 0 →
      c.arg 10 2 ≠ 0 → u.listDirs p.val (c.arg 16 8) (c.arg 10 2) = some dirs → Table.freeKey u.indexes 4096 0 = some k →
      (c.arg 8 1 = 0 → c.arg 12 2 = 0 →
        exec (.idxCreate p) s = .next (State.dropUnknown ringFuel ((u.setIndex k
          ⟨p.val, false, 0, c.arg 10 2, [⟨dirs, u.sundial⟩], none, none, none, [], 0, none, false⟩).finish c.id 0 k))) ∧
      (c.arg 8 1 = 1 → 64 ≤ c.arg 12 2 →
        exec (.idxCreate p) s = .next (State.dropUnknown ringFuel ((u.setIndex k
          ⟨p.val, true, c.arg 12 2, c.arg 10 2, [], none, none, none,
            dirs.map fun d => LiveList.fresh d.region u.sundial d, 0, none, false⟩).finish c.id 0 k)))) ∧
    (s.take p.val 0x21 = some (c, u) → c.seqNo = 0 → c.cleanFrom 10 = true →
      (u.plotIndex p.val (c.arg 8 2) = some x →
        (u.indexUsed (c.arg 8 2) = false →
          exec (.idxDestroy p) s = .next (State.dropUnknown ringFuel (u.freeIndex (c.arg 8 2) x (some c.id)))) ∧
        (u.indexUsed (c.arg 8 2) = true →
          exec (.idxDestroy p) s = .next (State.dropUnknown ringFuel (u.setIndex (c.arg 8 2) { x with dying := some (some c.id) })))) ∧
      (u.plotIndex p.val (c.arg 8 2) = none →
        exec (.idxDestroy p) s = .next (State.dropUnknown ringFuel (u.finishOpen c.id 0x10)))) ∧
    (∀ dirs, s.take p.val 0x22 = some (c, u) → c.seqNo = 0 → c.cleanFrom 24 = true → c.arg 10 6 = 0 →
      u.plotIndex p.val (c.arg 8 2) = some x → x.live = false → x.staged = none → x.corpus.length ≤ 1 →
      u.listDirs p.val (c.arg 16 8) x.count = some dirs →
      exec (.idxStage p) s = .next (State.dropUnknown ringFuel
        ((u.setIndex (c.arg 8 2) { x with staged := some dirs }).finishOpen c.id 0))) ∧
    (s.take p.val 0x23 = some (c, u) → c.seqNo = 0 → c.cleanFrom 24 = true → c.arg 10 6 = 0 →
      u.plotIndex p.val (c.arg 8 2) = some x → x.live = false → x.staged.isSome = true → x.swap = none →
      (u.sundial + 1000 ≤ c.arg 16 8 →
        exec (.idxSwap p) s = .next (State.dropUnknown ringFuel { u.setIndex (c.arg 8 2) { x with swap := some (c.arg 16 8, c.id) } with
          events := u.events ++ [⟨c.arg 16 8, u.eventSeq, .indexSwap p.val (c.arg 8 2), none⟩], eventSeq := u.eventSeq + 1 })) ∧
      (c.arg 16 8 < u.sundial + 1000 →
        exec (.idxSwap p) s =
          .next (State.dropUnknown ringFuel ((u.setBit Fld.RCL_PLOT_FLAGS_LATE p.val true).finishOpen c.id 0x0E)))) ∧
    (s.take p.val 0x24 = some (c, u) → c.seqNo = 0 → c.cleanFrom 32 = true → c.arg 12 4 = 0 →
      u.plotIndex p.val (c.arg 8 2) = some x → x.live = true → c.arg 10 2 < x.count → u.ownsRange p.val (c.arg 24 8) 32 = true →
      (∀ y, x.append (c.arg 10 2) (u.loadLe (c.arg 24 8) 32) (c.arg 16 8) u.sundial = some y →
        exec (.insertEntry p) s = .next (State.dropUnknown ringFuel ((u.setIndex (c.arg 8 2) y).finishOpen c.id 0))) ∧
      (x.append (c.arg 10 2) (u.loadLe (c.arg 24 8) 32) (c.arg 16 8) u.sundial = none →
        exec (.insertEntry p) s =
          .next (State.dropUnknown ringFuel ((u.setBit Fld.RCL_PLOT_FLAGS_SIDE_FULL p.val true).finishOpen c.id 0x0D)))) ∧
    (∀ y, s.take p.val 0x25 = some (c, u) → c.seqNo = 0 → c.cleanFrom 24 = true → c.arg 12 4 = 0 →
      u.plotIndex p.val (c.arg 8 2) = some x → x.live = true → c.arg 10 2 < x.count →
      x.bury (c.arg 10 2) (c.arg 16 8) u.sundial = some y →
      exec (.deleteEntry p) s = .next (State.dropUnknown ringFuel ((u.setIndex (c.arg 8 2) y).finishOpen c.id 0))) ∧
    (s.take p.val 0x26 = some (c, u) → c.seqNo = 0 → c.cleanFrom 12 = true → u.plotIndex p.val (c.arg 8 2) = some x →
      x.live = true → c.arg 10 2 = 0xFFFF ∨ c.arg 10 2 < x.count →
      exec (.compact p) s = .next (State.dropUnknown ringFuel ((u.setIndex (c.arg 8 2) { x with
        lists := x.lists.zipIdx.map fun e => if c.arg 10 2 = 0xFFFF ∨ e.2 = c.arg 10 2 then { e.1 with wanted := true } else e.1
        }).finishOpen c.id 0)))

/-- Stamps (R202) and what earlier snapshots see (R204). -/
def Obligations.LiveListStampsRiseAndCompactionKeepsSight : Prop :=
  ∀ (x y : Index) (n code id requested : Nat),
    (x.append n code id requested = some y →
      ∃ l m st, x.lists[n]? = some l ∧ y.lists[n]? = some m ∧ m.side = l.side ++ [⟨code, id, st⟩] ∧ m.tombs = l.tombs ∧
        requested ≤ st ∧ l.lastSnap < st ∧ l.lastStamp < st ∧ m.lastStamp = st ∧ m.versions = l.versions ∧
        (∀ after t, t ≤ l.lastSnap → m.sideVisible after t = l.sideVisible after t) ∧
        ∀ k, k ≠ n → y.lists[k]? = x.lists[k]?) ∧
    (x.bury n id requested = some y →
      ∃ l m st, x.lists[n]? = some l ∧ y.lists[n]? = some m ∧ m.tombs = l.tombs ++ [⟨id, st⟩] ∧ m.side = l.side ∧
        requested ≤ st ∧ l.lastSnap < st ∧ l.lastStamp < st ∧ m.lastStamp = st ∧ m.versions = l.versions ∧
        (∀ after t, t ≤ l.lastSnap → m.sideVisible after t = l.sideVisible after t) ∧
        ∀ k, k ≠ n → y.lists[k]? = x.lists[k]?)

/-- INDEX_SWAP, COMPACTION and VERSION_RELEASE (R205, R206). -/
def Obligations.IndexVersionsAreSwappedCompactedAndReleased : Prop :=
  ∀ (s u : State) (ix : IndexIx) (x : Index), s.index ix.val = some x →
    (∀ tick id dirs, x.swap = some (tick, id) → x.staged = some dirs →
      (tick ≤ s.sundial →
        exec (.indexSwap ix) s = .next ({ s.setIndex ix.val { x with
            corpus := ⟨dirs, tick⟩ :: x.corpus, staged := none, swap := none, owed := some id } with
          events := s.events.filter fun e => e.kind != EventKind.indexSwap x.plot ix.val }.markUnsync x.plot)) ∧
      (s.sundial < tick → exec (.indexSwap ix) s = .next s)) ∧
    (∀ n l v new, s.serviceRuns = true → x.lists[n]? = some l → l.wanted = true → l.versions = [v] →
      s.firstPoison v.dir.codes (32 * v.dir.count) = none → s.firstPoison v.dir.ids (8 * v.dir.count) = none →
      s.writeBase x.plot l.region l.lastStamp (s.compacted l v l.lastStamp) = some (new, u) →
      exec (.compaction ix n) s = .next (u.setIndex ix.val { x with
        lists := x.lists.set n { l with wanted := false, promoted := false, versions := [new, v] }, epoch := x.epoch + 1 })) ∧
    (∀ n l new old, s.serviceRuns = true → x.live = true → x.lists[n]? = some l → l.versions = [new, old] →
      s.versionUsed ix.val (fun e => e.1 == n && e.2 == old.tick) = false →
      exec (.versionRelease ix n) s = .next (old.frames.foldl State.freeFrame (s.setIndex ix.val { x with lists := x.lists.set n { l with
        versions := [new], side := l.side.filter fun e => decide (new.tick < e.stamp)
        tombs := l.tombs.filter fun e => decide (new.tick < e.stamp) } }))) ∧
    (∀ n new old id, s.serviceRuns = true → x.live = false → x.corpus = [new, old] → s.versionUsed ix.val (fun e => e.2 == old.start) = false →
      x.owed = some id →
      exec (.versionRelease ix n) s = .next ((s.setIndex ix.val { x with corpus := [new], owed := none }).finishOpen id 0))

/-- QUERY, SHARDED_BATCH, SNAPSHOT_WAIT, CHUNK, RESULT_WRITE and KNOWN_ANSWER_TEST (R203, R207 to R213, R221). -/
def Obligations.QueriesAreTakenScannedAndAnswered : Prop :=
  ∀ (s u v : State) (x : Index) (b : RBatch) (n k : Nat),
    (∀ (p : PlotIx) (c : Cmd), s.take p.val 0x27 = some (c, u) → c.seqNo = 0 → c.cleanFrom 16 = true →
      u.inDramWindow p.val (c.arg 8 8) 64 = true → u.batchOk p.val (c.arg 8 8) true = true →
      (u.batchDesc (c.arg 8 8)).sharded = false → (u.batchDesc (c.arg 8 8)).recalls = false →
      u.batchIndex p.val (u.batchDesc (c.arg 8 8)) = .ok k → u.index k = some x →
      (u.takeBatch p.val (some c.id) k x (u.batchDesc (c.arg 8 8)) (u.batchDesc (c.arg 8 8)).root
          ((List.range (u.batchDesc (c.arg 8 8)).count).map fun i => u.loadLe ((u.batchDesc (c.arg 8 8)).entry i + 0x30) 8) = .ok v →
        exec (.queryBatch p) s = .next (State.dropUnknown ringFuel v)) ∧
      (∀ tick, u.takeBatch p.val (some c.id) k x (u.batchDesc (c.arg 8 8)) (u.batchDesc (c.arg 8 8)).root
          ((List.range (u.batchDesc (c.arg 8 8)).count).map fun i => u.loadLe ((u.batchDesc (c.arg 8 8)).entry i + 0x30) 8) =
            .error tick →
        exec (.queryBatch p) s = .next (State.dropUnknown ringFuel
          ((({ u with taskSeq := u.taskSeq + 1 } : State).addSat Fld.ADM_REFUSE_COUNT_COUNT p.val 1).finish c.id 0x0C tick)))) ∧
    (∀ (m : InMsg) g pl, s.hubHeld = false → m.malformed = false → s.isSelf m.dest = true → s.colGroup m.tag = some g →
      s.plot g.plot = some pl → (g.sender m.src none).isSome = true → m.addr + m.data.length ≤ 0x100000 →
      u = s.putBytes (pl.recv + m.addr) m.data → (u.batchDesc pl.recv).bytes ≤ m.addr + m.data.length →
      u.batchIndex g.plot { u.batchDesc pl.recv with queries := pl.recv + 64 } = .ok k → u.index k = some x →
      u.takeBatch g.plot none k x { u.batchDesc pl.recv with queries := pl.recv + 64 } g.self
        ((List.range (u.batchDesc pl.recv).count).map fun i => u.loadLe (pl.recv + 64 + 128 * i + 0x30) 8) = .ok v →
      exec (.shardedBatch m) s = .next v) ∧
    (∀ (r : RegionIx) list pos members dirs, s.fld Fld.RCL_STATUS_STATE r.val < 3 → s.nextBatch r.val = some (k, b) →
      s.index b.index = some x → s.nextPass r.val b x = some (list, pos, members) → 0 < pos →
      (∀ q, q ∈ b.queries → q.begun = true ∧ (q.status = 0 ∨ q.ended = true)) → s.poison = [] →
      dirs = ((b.queries.zipIdx.filter fun e => members.contains e.2 && e.1.status == 0).filterMap fun e =>
        (e.1.versions.find? fun v => v.1 == list).bind fun v => x.versionAt list v.2) →
      u = (((s.setFld Fld.RCL_STATUS_PLOT r.val b.plot).setIndex b.index x).setRBatch k b).meterChunk b r.val dirs pos
        (((x.lists[list]?).map fun l => l.side.length).getD 0) → u.poison = [] →
      exec (.chunk r .clean) s = .next (u.setRBatch k
        { b with queries := b.queries.zipIdx.map fun e => if members.contains e.2 && e.1.status == 0 then
            u.scanFor x (if b.sharded then b.self else 0) list pos e.1 else e.1 }).rclStatus) ∧
    (∀ q, s.rbatch n = some b → b.aborted = none → b.queries[k]? = some q → q.ended = false → q.begun = true → q.todo = [] →
      b.sharded = false →
      exec (.resultWrite n k) s = .next ((s.writeBlock b q).putQuery n b k { q with ended := true }).rclStatus) ∧
    (∀ q g, s.rbatch n = some b → b.aborted = none → b.queries[k]? = some q → q.ended = false → q.begun = true → q.todo = [] →
      b.sharded = true → k = b.fired → s.colGroup b.group = some g → g.err = none →
      exec (.resultWrite n k) s = .next (s.fireShard n k b q g)) ∧
    (∀ q, s.rbatch n = some b → s.index b.index = some x → b.queries = [q] → q.snap ≠ 0 → q.begun = false →
      q.ready s.sundial = true → (s.beginQuery x q).status = 0 →
      exec (.snapshotWait n) s = .next ({ (s.markUnsync b.plot).setRBatch n { b with queries := [(s.markUnsync b.plot).beginQuery x q] } with
        events := (s.markUnsync b.plot).events.filter fun e => e.kind != EventKind.snapshot n || decide (s.sundial < e.tick) } : State).rclStatus) ∧
    (∀ r : RegionIx, s.canonical = true → s.fld Fld.RCL_STATUS_STATE r.val = 3 →
      exec (.knownAnswerTest r true) s = .next (s.setFld Fld.RCL_STATUS_STATE r.val 0).rclStatus ∧
      Completes (.knownAnswerTest r false) s fun t =>
        t.fld Fld.RCL_STATUS_STATE r.val = 4 ∧ t.bit Fld.RCL_FAULT_INFO_VALID r.val = true ∧
        RegsKept s t [(.RCL_STATUS, r.val), (.RCL_FAULT_INFO, r.val), (.HUB_LOG_LOST, 0)] ∧ MemSame s t)

/-- DATA_FLIT, LINK_CONTROL_FLIT, REPLAY_TIMEOUT and LANE_FAILURE (R299 to R301, R306). -/
def Obligations.LinkFlitsAreAcceptedReplayedAndAcknowledged : Prop :=
  (∀ (s : State) (l : LinkIx) (y : LinkPhy), s.linkUp l.val = true → y = s.phy l.val →
    (∀ vc phase sh, y.rx < 2 ^ 24 → y.fresh + 1 < 32 →
      exec (.dataFlit l y.rx vc phase sh true) s = .next (s.setPhy l.val { y with
        rx := (y.rx + 1) % 2 ^ 24, nak := false, fresh := y.fresh + 1, since := y.since.or (some s.clock)
        freed := y.freed.set (if sh then 16 else vc % 8 + (if phase && isRack l.val then 8 else 0))
          ((y.freed.getD (if sh then 16 else vc % 8 + (if phase && isRack l.val then 8 else 0)) 0 + 1) % 65536) })) ∧
    (∀ n vc phase sh, y.nak = false →
      exec (.dataFlit l n vc phase sh false) s = .next (((s.addSat Fld.LNK_CRC_COUNT_COUNT l.val 1).setPhy l.val
        { y with nak := true }).sendLink l.val { Msg.to .nak 0 chipPlot 0 with tag := y.rx })) ∧
    (∀ n counts, n ≠ y.base → (n + 2 ^ 24 - y.base) % 2 ^ 24 ≤ y.inFlight →
      exec (.linkControlFlit l (.ack n counts)) s = .next ((s.setPhy l.val { y.count (isRack l.val) counts with
        base := n % 2 ^ 24, replays := 0, ackTick := s.clock }).pump l.val)) ∧
    (y.inFlight ≠ 0 → y.ackTick + 20000 ≤ s.clock → y.replays < 7 →
      exec (.replayTimeout l) s = .next (((s.setPhy l.val { y with replays := y.replays + 1, ackTick := s.clock }).addSat
        Fld.LNK_RETRY_COUNT_COUNT l.val y.inFlight).sendLink l.val
          { Msg.to .replay 0 chipPlot 0 with tag := y.base, op := y.inFlight })) ∧
    (y.inFlight ≠ 0 → y.ackTick + 20000 ≤ s.clock → 7 ≤ y.replays →
      exec (.replayTimeout l) s = .next (((s.setPhy l.val { y with replays := y.replays + 1, ackTick := s.clock }).addSat
        Fld.LNK_RETRY_COUNT_COUNT l.val y.inFlight).linkRetrain l.val)) ∧
    (∀ lane, s.canonical = true → widthOf ((s.fld Fld.LNK_STATUS_LANE_FAIL l.val ||| 2 ^ (lane % 16)) ||| y.theirs) ≠ 0 →
      Completes (.laneFailure l lane) s fun t =>
        t.fld Fld.LNK_STATUS_LANE_FAIL l.val = s.fld Fld.LNK_STATUS_LANE_FAIL l.val ||| 2 ^ (lane % 16) ∧
        t.lanes l.val = widthOf ((s.fld Fld.LNK_STATUS_LANE_FAIL l.val ||| 2 ^ (lane % 16)) ||| y.theirs) ∧
        t.linkUp l.val = true ∧ RegsKept s t [(.LNK_STATUS, l.val), (.HUB_LOG_LOST, 0)] ∧ MemSame s t)) ∧
  ∀ failed, (widthOf failed ≠ 0 → ∃ i, i < 16 / widthOf failed ∧ laneGroup failed (widthOf failed) i = true) ∧
    ∀ w, w ∈ [16, 8, 4, 2, 1] → widthOf failed < w → ∀ i, i < 16 / w → laneGroup failed w i = false

/-- TRAINING_COMPLETE, RETRAIN_END, LNK_RELEASE, LNK_RETRAIN, LNK_DISABLE (R301, R310, R312). -/
def Obligations.LinksTrainRetrainAndObeyTheirControl : Prop :=
  ∀ (s : State) (l : LinkIx), s.canonical = true →
    (∀ failed delay, s.linkState l.val = lsTraining → s.mayTrain = true → widthOf (failed % 65536) ≠ 0 →
      Completes (.trainingComplete l failed delay) s fun t =>
        t.linkState l.val = lsDiscovery ∧ t.fld Fld.LNK_STATUS_LANE_FAIL l.val = failed % 65536 ∧
        t.lanes l.val = widthOf (failed % 65536) ∧ (t.link l.val).trained = (delay : Int) ∧
        RegsKept s t [(.LNK_STATUS, l.val)] ∧ MemSame s t) ∧
    (∀ failed, s.linkState l.val = lsRetrain →
      exec (.retrainEnd l false failed) s = .next (s.linkOff l.val) ∧
      (widthOf ((s.fld Fld.LNK_STATUS_LANE_FAIL l.val ||| failed % 65536) ||| (s.phy l.val).theirs) ≠ 0 →
        Completes (.retrainEnd l true failed) s fun t =>
          t.linkUp l.val = true ∧ t.fld Fld.SDL_LINK_SYNC_STATE l.val = syResync ∧
          t.lanes l.val = widthOf ((s.fld Fld.LNK_STATUS_LANE_FAIL l.val ||| failed % 65536) ||| (s.phy l.val).theirs) ∧
          MemSame s t)) ∧
    (∀ a, s.privOk a = true →
      (s.linkState l.val = lsFallow → s.bit Fld.LNK_CONTROL_DISABLE l.val = false →
        exec (.lnkRelease a l) s = .next (s.linkOff l.val)) ∧
      (s.linkUp l.val = true → exec (.lnkRetrain a l) s = .next (s.linkOff l.val)) ∧
      exec (.lnkDisable a l true) s =
        .next (((s.viaStore (s.setBit Fld.LNK_CONTROL_DISABLE l.val true)).linkFallow l.val frHost).settleCoord) ∧
      exec (.lnkDisable a l false) s = .next (s.viaStore (s.setBit Fld.LNK_CONTROL_DISABLE l.val false))) ∧
    ((s.linkOff l.val).linkState l.val = lsOff ∧ (s.linkOff l.val).fld Fld.LNK_STATUS_LANES l.val = 0 ∧
      (s.linkOff l.val).fld Fld.LNK_STATUS_FALLOW_REASON l.val = 0) ∧
    ∀ r, r < 16 → (s.linkFallow l.val r).linkState l.val = lsFallow ∧ (s.linkFallow l.val r).fld Fld.LNK_STATUS_LANES l.val = 0 ∧
      (s.linkFallow l.val r).fld Fld.LNK_STATUS_FALLOW_REASON l.val = r

/-- DISCOVERY_SEND, DISCOVERY_RECORD, SWITCH_RECORD and DISCOVERY_SILENCE (R307 to R309). -/
def Obligations.DiscoveryRecordsBringLinksUp : Prop :=
  ∀ (s u : State) (l : LinkIx), s.canonical = true →
    (s.linkState l.val = lsDiscovery → (s.phy l.val).partner = none →
      ((s.phy l.val).sentTick = none ∨ ∃ t, (s.phy l.val).sentTick = some t ∧ t + 10000 ≤ s.clock) →
      exec (.discoverySend l) s = .next (s.sendRecord l.val)) ∧
    (∀ q, s.linkUp l.val = true → exec (.discoveryRecord l q) s = .next (s.sendRecord l.val)) ∧
    (∀ q : Partner, s.linkState l.val = lsDiscovery → s.discovering = true → q.notReady = false → q.coord = true → q.ack = true →
      isRack l.val = false → s.hasCoord = true → s.bit Fld.BOOT_STATUS_KIND 0 = false →
      u = (s.setPhy l.val { s.phy l.val with partner := some q, acked := true, heard := s.clock, silent := false }).sendRecord l.val →
      (∀ r, s.checkPartner l.val q = some r → exec (.discoveryRecord l q) s = .next (u.linkFallow l.val r)) ∧
      (s.checkPartner l.val q = none →
        Completes (.discoveryRecord l q) s fun t =>
          t.linkUp l.val = true ∧ t.fld Fld.LNK_PEER_CHIP l.val = q.chip % 65536 ∧ (t.link l.val).partnerChip = q.chip ∧
          MemSame s t)) ∧
    (∀ plane rack port, s.linkState l.val = lsDiscovery → s.discovering = true →
      ((isRack l.val = false ∨ plane ≠ l.val - 2) →
        exec (.switchRecord l plane rack port) s = .next (((s.setPhy l.val { s.phy l.val with
          switch := some (plane, rack % 64, port % 128), heard := s.clock, silent := false }).linkFallow l.val frSwap).settleCoord)) ∧
      (l.val = 2 → plane = 0 → (s.phy 3).switch = none → (s.phy 0).partner = none → (s.phy 1).partner = none →
        (s.phy 4).partner = none → (s.phy 5).partner = none →
        Completes (.switchRecord l plane rack port) s fun t =>
          t.linkUp 2 = true ∧ t.hasCoord = true ∧ t.fld Fld.LNK_COORD_SOURCE 0 = 1 ∧ t.chipNo = rack % 64 * 128 + port % 128 ∧
          MemSame s t)) ∧
    (s.linkState l.val = lsDiscovery → (s.phy l.val).partner = none → (s.phy l.val).heard + 10000000 ≤ s.clock →
      exec (.discoverySilence l) s = .next (((s.setPhy l.val { s.phy l.val with silent := true }).linkOff l.val).settleCoord))

/-- FABRIC_WRITE, READ_REQUEST, READ_REPLY and READY_NOTICE (R255, R302, R403, R405, R415). -/
def Obligations.MessagesOfOtherChipsAreServed : Prop :=
  ∀ (s u : State) (m : InMsg),
    (s.hubHeld = true → exec (.fabricWrite m .clean) s = .next s ∧ exec (.readRequest m .clean) s = .next s ∧
      exec (.readReply m) s = .next s ∧ exec (.readyNotice m) s = .next s) ∧
    (s.hubHeld = false → m.malformed = false → s.isSelf m.dest = true →
      (s.servesRange m.src m.plot m.addr m.data.length = true → s.epochFits m.src m.plot m.addr m.epoch = true →
        s.trayShut m.addr m.data.length = false → s.storeBytes m.addr m.data = (u, none) →
        exec (.fabricWrite m .clean) s = .next (u.answerWrite m rpOk false)) ∧
      (s.servesRange m.src m.plot m.addr m.data.length = false → m.epoch = 0 →
        exec (.fabricWrite m .clean) s = .next (s.answerWrite m rpRefused false)) ∧
      (s.servesRange m.src m.plot m.addr m.data.length = true →
        (s.epochFits m.src m.plot m.addr m.epoch = false → exec (.fabricWrite m .clean) s = .next (s.answerWrite m rpOk true)) ∧
        (s.epochFits m.src m.plot m.addr m.epoch = true → s.trayShut m.addr m.data.length = true →
          exec (.fabricWrite m .clean) s = .next (s.answerWrite m rpTray false))) ∧
      (s.servesRange m.src m.plot m.addr m.len = true →
        (s.epochFits m.src m.plot m.addr m.epoch = true → s.firstPoison m.addr m.len = none →
          exec (.readRequest m .clean) s = .next (s.send (m.replyTo rpOk false (s.loadBytes m.addr m.len)))) ∧
        (s.epochFits m.src m.plot m.addr m.epoch = false →
          exec (.readRequest m .clean) s = .next (s.send (m.replyTo rpOk true [])))) ∧
      (s.servesRange m.src m.plot m.addr m.len = false → m.epoch = 0 →
        exec (.readRequest m .clean) s = .next (s.send (m.replyTo rpRefused false []))) ∧
      (∀ q, s.reqs.find? (fun q => q.tag == m.tag && q.chip == m.src) = some q →
        (∀ id j, m.gen = s.requesterTag q.who → q.who = .move id → s.entry id = some j → m.stale = false → m.op = 0 →
          exec (.readReply m) s = .next ((({ s with reqs := s.reqs.erase q } : State).putBytes (q.sinks.headD 0 % 2 ^ 48)
            (m.data.take q.len)).putJournal { j with due := j.due - q.len })) ∧
        (∀ i arming tile instr part, m.gen = s.requesterTag q.who → q.who = .stream i arming tile instr part →
          exec (.readReply m) s = .next (({ s with reqs := s.reqs.erase q } : State).streamReply m q i arming tile instr part)) ∧
        (∀ p n x k, m.gen = s.requesterTag q.who → q.who = .commit p n → s.seq p n = some x → x.commit = some k → m.stale = false →
          m.op = 0 → exec (.readReply m) s = .next (({ s with reqs := s.reqs.erase q } : State).setSeq p n
            { x with commit := some { k with acked := k.acked + q.len } })) ∧
        (m.gen ≠ s.requesterTag q.who → exec (.readReply m) s = .next s.countStale)) ∧
      (s.reqs.find? (fun q => q.tag == m.tag && q.chip == m.src) = none → exec (.readReply m) s = .next s.countStale) ∧
      (∀ x v, m.op = 0x82000000 → Table.get s.groups (m.plot % 8) = some x →
        v = { s with groups := Table.put s.groups (m.plot % 8) { x with due := true } } →
        exec (.readyNotice m) s = .next ((if m.data.headD 0 = 4 then v.noteLead m.src (leNat ((m.data.drop 4).take 2)) else v).logEvent
          (m.plot % 8) 14 8 45 (m.src * 2 ^ 16 + leNat (m.data.take 2)))))

/-- R184. -/
def Obligations.StalePiecesAreDroppedAndCounted : Prop :=
  ∀ (s : State) (m : InMsg) (x : GroupCtx) (c : Instr) (g : Nat), s.canonical = true → s.hubHeld = false → m.malformed = false →
    s.isSelf m.dest = true → s.group (m.plot % 8) = some x →
    ((c = .queryPiece m ∧ g = (s.groupDesc x.desc).qgroup) ∨ (c = .partialPiece m ∧ g = (s.groupDesc x.desc).rgroup)) →
    (x.tag ≠ some (pieceHead m.data).tag ∨ s.memberOf g m.src = none) →
    Completes c s fun t =>
      t.fld Fld.ATT_GROUP_STALE_COUNT (m.plot % 8) =
        min (s.fld Fld.ATT_GROUP_STALE_COUNT (m.plot % 8) + 1) (2 ^ Fld.ATT_GROUP_STALE_COUNT.width - 1) ∧
      RegsKept s t [(.ATT_GROUP_STALE, m.plot % 8)] ∧ MemSame s t ∧ t.cells = s.cells ∧ t.blocks = s.blocks ∧ t.ops = s.ops ∧
      t.colIn = s.colIn ∧ t.groups = s.groups

/-- CHAIN_ARM, CHAIN_RELEASE, OP_ABORT, COL_TRIGGER, OP_FIRE, RING_CHUNK and OP_COMPLETE (R314 to R318, R325, R328). -/
def Obligations.ChainsAreArmedTriggeredFiredAndCompleted : Prop :=
  ∀ (s u : State) (p : PlotIx) (c : Cmd),
    (∀ k, s.take p.val 0x40 = some (c, u) → c.cleanFrom 24 = true → c.seqNo = 0 → c.arg 10 6 = 0 →
      (c.arg 8 1 = 0xFF ∨ c.arg 8 1 ≤ 3) → 1 ≤ c.arg 9 1 → c.arg 9 1 ≤ 64 → u.ownsRange p.val (c.arg 16 8) (128 * c.arg 9 1) = true →
      (∀ i, i < c.arg 9 1 → u.opOk p.val (c.arg 16 8 + 128 * i) 256 = true) → u.freeChain (c.arg 8 1) = some k →
      exec (.chainArm p) s = .next (State.dropUnknown ringFuel
        ((((List.range (c.arg 9 1)).map fun i => u.opDesc (c.arg 16 8 + 128 * i)).foldl (fun s d => s.armNotify k d)
          (u.setChain k ⟨p.val, (List.range (c.arg 9 1)).map fun i => u.opDesc (c.arg 16 8 + 128 * i), 0, [], false, none⟩)).finish
            c.id 0 k))) ∧
    (s.take p.val 0x41 = some (c, u) → c.cleanFrom 10 = true → c.seqNo = 0 →
      (∀ h, u.ownChain p.val (c.arg 8 2) = some h → h.releasing = none →
        exec (.chainRelease p) s = .next (State.dropUnknown ringFuel
          ((u.setChain (c.arg 8 2) { h with releasing := some c.id }).endRelease (c.arg 8 2)))) ∧
      (u.ownChain p.val (c.arg 8 2) = none →
        exec (.chainRelease p) s = .next (State.dropUnknown ringFuel (u.finishOpen c.id 3)))) ∧
    (s.take p.val 0x42 = some (c, u) → c.cleanFrom 10 = true → c.seqNo = 0 →
      (∀ h, u.ownChain p.val (c.arg 8 2) = some h → u.chainOps (c.arg 8 2) = [] →
        exec (.opAbort p) s = .next (State.dropUnknown ringFuel (u.finishOpen c.id 0))) ∧
      (∀ h x, u.ownChain p.val (c.arg 8 2) = some h → u.chainOps (c.arg 8 2) = [x] →
        exec (.opAbort p) s =
          .next (State.dropUnknown ringFuel ((u.raiseError x.op.group ccPlot x.opseq).finishOpen c.id 0))) ∧
      (u.ownChain p.val (c.arg 8 2) = none →
        exec (.opAbort p) s = .next (State.dropUnknown ringFuel (u.finishOpen c.id 3)))) ∧
    (∀ (a : Agent) (v : W32) t n, s.canonical = true → s.plotReach a p.val = true → s.colRuns = true → t = v.toNat % 1024 → n = v.toNat / 1024 % 16 →
      s.ownsCounter p.val t = true → s.fld Fld.COL_COUNTER_COUNT t + n ≤ 65535 → n ≠ 0 →
      Completes (.colTrigger a p v) s fun w =>
        w.fld Fld.COL_COUNTER_COUNT t = s.fld Fld.COL_COUNTER_COUNT t + n ∧ w.stepsOf t = s.stepsOf t ++ [(0, n)] ∧
        RegsKept s w [(.COL_COUNTER, t)] ∧ MemSame s w) ∧
    (∀ (k : ChainIx) h d g, s.chain k.val = some h → h.headOp = some d → s.colGroup d.group = some g →
      s.fireable k.val h d g = true → d.start ≤ s.sundial → s.ringShift d = false →
      ((d.start = 0 ∨ (h.deferred = false ∧ (s.opLinks d g).any s.beyondGuard = false) ∨
          (h.deferred = true ∧ ((s.opLinks d g).any fun l => s.syncState l != sySynced) = false)) →
        exec (.opFire k) s = .next (s.fire k.val h d g)) ∧
      (d.start ≠ 0 → h.deferred = false → (s.opLinks d g).any s.beyondGuard = true →
        exec (.opFire k) s = .next ((s.setBit Fld.SDL_EVENT_FLAGS_DEFERRED h.plot true).setChain k.val { h with deferred := true }))) ∧
    (∀ id x g, s.op id = some x → s.colGroup x.op.group = some g → s.colRuns = true → x.failed = false →
      (∀ stage piece off l, x.op.shape = 0 → stage ≠ stSite →
        (x.op.sends g).find? (fun l => l.stage == stage && l.piece == piece && stage != stSite) = some l →
        (s.partsOf x l).contains off = true →
        exec (.ringChunk id stage piece off .clean) s = .next ((s.sendPart id l off).releaseSlots id)) ∧
      ((s.chainOps x.chain).head?.map (·.id) = some id →
        (∀ res f, x.posted = 0 → s.opSettled x g = true → s.sourcePoison x (x.op.resultSource g) = none →
          s.results x g = some (res, f) →
          exec (.opComplete id .clean) s = .next ((s.putResults x g res f).closeOp id g)) ∧
        (x.posted ≠ 0 → exec (.opComplete id .clean) s = .next (s.closeOp id g))))

/-- COLLECTIVE_PIECE, CREDIT_RETURN, FROST, COLLECTIVE_TIMEOUT and ERROR_REPORT (R322, R323, R332 to R335). -/
def Obligations.PiecesCreditsAndTheCommonError : Prop :=
  ∀ (s : State) (m : InMsg) (gi : GroupIx) (g : ColGroup), s.canonical = true →
    (s.hubHeld = false → m.malformed = false → s.isSelf m.dest = true →
      ((s.group (m.plot % 8) = none ∨ ∃ x, s.group (m.plot % 8) = some x ∧ (s.groupDesc x.desc).pattern = 2) →
        exec (.collectivePiece m) s = .next (s.pieceIn (m.plot % 8) m.src none m.tag m.op m.addr m.data)) ∧
      (∀ x, s.group (m.plot % 8) = some x → (s.groupDesc x.desc).pattern = 1 → (s.groupDesc x.desc).ngroup = bitsAt m.tag 24 8 →
        bitsAt m.op 24 8 = opShift → m.addr = 0 →
        (∀ k, s.memberOf (bitsAt m.tag 24 8) m.src = some k → some (blockHead m.data).tag = x.tag →
          exec (.collectivePiece m) s = .next ((s.setGroupCtx (m.plot % 8) { x with
            stale := x.stale.filter (· != (k, bitsAt m.tag 0 16)) }).pieceIn (m.plot % 8) m.src none m.tag m.op m.addr m.data)) ∧
        (s.memberOf (bitsAt m.tag 24 8) m.src = none →
          exec (.collectivePiece m) s = .next (s.addSat Fld.ATT_GROUP_STALE_COUNT (m.plot % 8) 1))) ∧
      (∀ src x, m.op = 0x81000000 → s.colGroup (bitsAt m.tag 24 8) = some g → g.sender m.src none = some src →
        g.plot = m.plot % 8 → bitsAt m.tag 16 8 = g.epoch →
        s.ops.find? (fun x => x.tag == m.tag && x.op.opcode != opShift) = some x →
        exec (.creditReturn m) s = .next ((s.setOp { x with
          back := (x.back.filter fun e => e.1 != src) ++ [(src, ((x.back.filter fun e => e.1 == src).map (·.2)).sum + 1)] }).progress
            x.id)) ∧
      (s.colGroup (leNat ((m.data.drop 1).take 1)) = some g → g.plot = m.plot →
        (leNat ((m.data.drop 2).take 1) = g.epoch → (g.sender m.src none).isSome = true →
          exec (.frost m) s = .next (((s.logEvent g.plot 9 7 32 (leNat ((m.data.drop 1).take 1))).takeError
            (leNat ((m.data.drop 1).take 1)) ⟨leNat ((m.data.drop 0).take 1), g.epoch, leNat ((m.data.drop 4).take 2),
              leNat ((m.data.drop 6).take 2), leNat ((m.data.drop 8).take 8), s.sundial⟩).noteRefusal
                (leNat ((m.data.drop 1).take 1)) (leNat ((m.data.drop 0).take 1)) m.addr)) ∧
        (leNat ((m.data.drop 2).take 1) ≠ g.epoch →
          exec (.frost m) s = .next (s.addSat Fld.COL_DROP_COUNT_COUNT (m.plot % 8) 1)))) ∧
    (∀ opseq t n, s.colGroup gi.val = some g → g.err = none → s.opTimer gi.val g opseq = some (t, n) → t + n ≤ s.sundial →
      s.lostDrains = [] → s.colRuns = true → exec (.collectiveTimeout gi opseq) s = .next (s.raiseError gi.val ccTimeout opseq)) ∧
    (∀ e, s.colGroup gi.val = some g → g.err = some e → e.first + 5000 ≤ s.sundial → g.plot < 8 → s.colRuns = true →
      ∃ t, exec (.errorReport gi) s = .next (t.startCheck g.plot) ∧
        t.colGroup gi.val = some { g with epoch := (g.epoch + 1) % 256, opseq := 0, err := none, dead := [] } ∧
        t.bit Fld.COL_ERROR_INFO_VALID g.plot = true ∧
        (s.bit Fld.COL_ERROR_INFO_VALID g.plot = false →
          t.reg .COL_ERROR_OP g.plot = BitVec.ofNat 32 (e.epoch * 2 ^ 24 + e.opseq)) ∧
        RegsKept s t [(.COL_ERROR_INFO, g.plot), (.COL_ERROR_OP, g.plot)])

/-- OPEN, OPEN_ACK, AFITH_RESET, OPEN_RETRY, AFITH_DATA, AFITH_ACK, ACK_TIMER, RETRANSMIT_TIMEOUT, GIVE_UP, FLD_SEND (R341 to R353). -/
def Obligations.ConnectionsOpenCarryAndClose : Prop :=
  ∀ (s u : State) (q : PortIx) (i : PeerIx) (e : Peer), s.canonical = true → s.portUp q.val = true → s.peer i.val = some e →
    (∀ epoch, s.heardFrom q.val i.val true epoch = true →
      ((s.conn i.val).state ≠ cnClosed →
        exec (.openConn q i true (s.fld Fld.BOOT_STATUS_MAJOR 0) epoch) s =
          .next ((s.setConn i.val { s.conn i.val with state := cnOpen }).sendBare i.val .afithOpenAck epoch) ∧
        exec (.openAck q i true epoch) s = .next (s.setConn i.val { s.conn i.val with state := cnOpen })) ∧
      ((s.conn i.val).state = cnOpen → exec (.afithReset q i true epoch) s = .next (s.closeConn i.val false)) ∧
      ((s.conn i.val).state = cnOpening →
        exec (.afithReset q i true epoch) s = .next ((s.logEvent chipPlot 10 5 22 i.val).closeConn i.val true))) ∧
    (∀ major epoch, major ≠ s.fld Fld.BOOT_STATUS_MAJOR 0 →
      exec (.openConn q i true major epoch) s =
        .next (((s.closeConn i.val true).sendBare i.val .afithReset epoch).logEvent chipPlot 10 5 22 i.val)) ∧
    ((s.conn i.val).state = cnClosed → s.portUp (e.port % 2) = true → exec (.openRetry i) s = .next (s.startOpening i.val e)) ∧
    ((s.conn i.val).state = cnOpening → (s.conn i.val).lastOpen + 1000000 ≤ s.clock →
      exec (.openRetry i) s =
        .next ((s.setConn i.val { s.conn i.val with lastOpen := s.clock }).sendBare i.val .afithOpen (s.conn i.val).epoch)) ∧
    (∀ d : DataDgram, d.conn = i → s.hubHeld = false → s.heardFrom q.val i.val d.known d.epoch = true →
      (s.conn i.val).state = cnOpen → s.refusesDgram e d = false → d.last = false → (s.conn i.val).count + 1 < 16 → d.typ = 1 →
      (psnAbove d.psn (s.conn i.val).cum < connWindow → (s.conn i.val).landed.contains (d.psn % 2 ^ 32) = false →
        Completes (.afithData q d) s fun t =>
          t.mem = (s.storeBytes d.m.addr d.m.data).1.mem ∧ (t.conn i.val).count = (s.conn i.val).count + 1 ∧
          ((t.conn i.val).cum, (t.conn i.val).landed) = advanceCum ((s.conn i.val).landed.length + 1) (s.conn i.val).cum
            ((s.conn i.val).landed ++ [d.psn % 2 ^ 32])) ∧
      ((connWindow ≤ psnAbove d.psn (s.conn i.val).cum ∨ (s.conn i.val).landed.contains (d.psn % 2 ^ 32) = true) →
        Completes (.afithData q d) s fun t =>
          MemSame s t ∧ (t.conn i.val).count = (s.conn i.val).count + 1 ∧ (t.conn i.val).cum = (s.conn i.val).cum ∧
          (t.conn i.val).landed = (s.conn i.val).landed)) ∧
    (∀ d : AckDgram, d.conn = i → s.hubHeld = false → s.heardFrom q.val i.val d.known d.epoch = true →
      (s.conn i.val).state = cnOpen →
      (∀ x, x ∈ (s.conn i.val).unacked → 2 ^ 31 ≤ psnAbove x.psn d.cum ∧ x.op = none ∧ x.command = none) →
      Completes (.afithAck q d) s fun t => (t.conn i.val).unacked = [] ∧ (t.conn i.val).state = cnOpen ∧ MemSame s t) ∧
    ((s.conn i.val).state = cnOpen →
      (∀ n, (s.conn i.val).since = some n → n + 10000 ≤ s.clock → exec (.ackTimer i) s = .next (s.sendDgramAck i.val)) ∧
      (∀ psn x, ((s.conn i.val).unacked.take connWindow).find? (fun d => d.psn == psn) = some x →
        x.sent + s.resendAfter i.val ≤ s.clock → x.again < 16 →
        exec (.retransmitTimeout i psn) s = .next (s.resend i.val psn)) ∧
      (((s.conn i.val).unacked ≠ [] ∧ (s.conn i.val).advanced + 100000000 ≤ s.clock ∨
          ∃ x, x ∈ (s.conn i.val).unacked ∧ 16 ≤ x.again) →
        exec (.giveUp i) s = .next ((s.sendBare i.val .afithReset (s.conn i.val).epoch).closeConn i.val false))) ∧
    (∀ (p : PlotIx) (c : Cmd), s.take p.val 0x50 = some (c, u) → c.cleanFrom 40 = true → c.seqNo = 0 → c.arg 9 7 = 0 →
      c.arg 28 4 = 0 → u.peer (c.arg 8 1) = some e → e.endpoint = true → e.plot = p.val →
      u.ownsRange p.val (c.arg 16 8) (c.arg 24 4) = true → c.arg 24 4 % 16 = 0 → c.arg 24 4 ≠ 0 →
      u.firstPoison (c.arg 16 8) (c.arg 24 4) = none →
      ((u.conn (c.arg 8 1)).state = cnOpen →
        exec (.fldSend p) s = .next (State.dropUnknown ringFuel (u.fldSend (c.arg 8 1) { Msg.to .write 7 p.val e.chip with
          src := u.chipNo, addr := c.arg 32 8, gen := u.chipTag, data := u.loadBytes (c.arg 16 8) (c.arg 24 4) } (some c.id) none))) ∧
      ((u.conn (c.arg 8 1)).state ≠ cnOpen →
        exec (.fldSend p) s = .next (State.dropUnknown ringFuel (u.finishOpen c.id 0x0F))))

/-- NEIGHBOR_SOLICITATION, PCS_ALIGNMENT_LOSS, FLD_RETRAIN, FLD_DISABLE, FIELD_PORT_UP, PTP_SYNC and PTP_LOCK_LOSS (R339 to R358, R278). -/
def Obligations.FieldPortsAndTimeOfTheRoot : Prop :=
  ∀ (s : State) (q : PortIx), s.canonical = true →
    (s.portUp q.val = true →
      exec (.neighborSolicitation q true) s = .next (s.sendPort q.val (Msg.to .neighbor 7 0 0)) ∧
      exec (.neighborSolicitation q false) s = .next (s.addSat Fld.FLD_DROP_COUNT_COUNT q.val 1) ∧
      exec (.pcsAlignmentLoss q) s =
        .next (((s.setFld Fld.FLD_STATUS_STATE q.val fpDown).losePort q.val).logEvent chipPlot 10 5 23 q.val)) ∧
    (∀ a, s.privOk a = true →
      (s.bit Fld.FLD_CONTROL_DISABLE q.val = false → exec (.fldRetrain a q) s = .next (s.retrainPort q.val)) ∧
      (∀ v, s.bit Fld.FLD_CONTROL_DISABLE q.val ≠ v →
        exec (.fldDisable a q v) s = .next ((s.viaStore (s.setBit Fld.FLD_CONTROL_DISABLE q.val v)).retrainPort q.val))) ∧
    (s.fld Fld.FLD_STATUS_STATE q.val = fpTraining →
      (s.peers = [] → exec (.fieldPortUp q) s = .next (s.setFld Fld.FLD_STATUS_STATE q.val fpUp)) ∧
      (∀ k e, s.peers = [(k, e)] → e.port % 2 = q.val → (s.conn k).state = cnClosed →
        exec (.fieldPortUp q) s = .next ((s.setFld Fld.FLD_STATUS_STATE q.val fpUp).startOpening k e))) ∧
    (∀ f : PtpSync, s.portUp q.val = true → s.isRoot = true → s.ptpUse = true → q.val = s.ptpPort → f.domain = s.ptpDomain →
      62500000 ≤ f.interval → f.interval ≤ 1000000000 → s.ptp.master = some f.master → f.offset.natAbs ≤ 1280 →
      15 ≤ s.ptp.good →
      Completes (.ptpSync q f) s fun t =>
        t.bit Fld.FLD_PTP_STATUS_LOCKED 0 = true ∧ t.bit Fld.SDL_STATUS_PTP 0 = true ∧ t.fld Fld.SDL_STATUS_STATE 0 = sdSync ∧
        t.slew = (-f.offset).tdiv 64 ∧ t.ptp = ⟨some f.master, s.ptp.good + 1, 0, s.clock, f.interval⟩ ∧
        RegsKept s t [(.FLD_PTP_STATUS, 0), (.SDL_STATUS, 0)] ∧ MemSame s t) ∧
    (s.ptp.master.isSome = true → s.ptp.last + 8 * s.ptp.interval ≤ s.clock → s.bit Fld.FLD_PTP_STATUS_LOCKED 0 = true →
      Completes .ptpLockLoss s fun t =>
        t.bit Fld.FLD_PTP_STATUS_LOCKED 0 = false ∧ t.bit Fld.SDL_STATUS_PTP 0 = false ∧
        t.fld Fld.SDL_STATUS_STATE 0 = sdHoldover ∧ t.ptp.good = 0 ∧ t.ptp.bad = 0 ∧ MemSame s t)

/-- PLOT_CREATE, SET, GROW, SHRINK, STOP, START, RESIZE, DESTROY and GROUP_SET (R359 to R370). -/
def Obligations.PlotCommandsCompleteInTheirStates : Prop :=
  ∀ (s : State) (p : Nat) (c : Cmd), c = s.mboxCommand →
    (∀ r : PlotRecord, PlotCommand s 1 16 p → r = ⟨s.readHost (c.arg 8 8) 128⟩ →
      (s.fld Fld.PLT_STATE_STATE p = plFree → s.recordOk p r = true → s.sharesWindows p r.build = false →
        ((maskBlocks r.blocks).any fun b => (s.ownerOfBlock b).isSome) = false →
        exec .plotCreate s = .next ((s.viaStore (s.makePlot p r true)).mboxOpen 0)) ∧
      (s.fld Fld.PLT_STATE_STATE p ≠ plFree → exec .plotCreate s = .next (s.mboxOpen 4))) ∧
    ((s.fld Fld.PLT_STATE_STATE p = plActive ∨ s.fld Fld.PLT_STATE_STATE p = plStopped) →
      (∀ r o, PlotCommand s 2 16 p → c.arg 9 3 = 0 → policyRegs[c.arg 8 1]? = some (r, o) → c.arg 8 1 ≤ 5 →
        s.policyStatus r p (c.arg 12 4) = 0 →
        exec .plotSet s = .next ((s.viaStore (s.setReg r p (BitVec.ofNat 32 (c.arg 12 4)))).mboxOpen 0)) ∧
      (PlotCommand s 2 16 p → c.arg 9 3 = 0 → c.arg 8 1 = 5 → c.arg 12 4 ≤ 1 →
        ((maskBlocks (s.fld Fld.PLT_BLOCKS_BLOCKS p)).any s.blockBusy = true → exec .plotSet s = .next (s.mboxOpen 0x0B)) ∧
        ((maskBlocks (s.fld Fld.PLT_BLOCKS_BLOCKS p)).any s.blockBusy = false → exec .plotSet s =
          .next ((s.viaStore ((maskBlocks (s.fld Fld.PLT_BLOCKS_BLOCKS p)).foldl (fun s b =>
            (s.setFld Fld.SFU_MODE_COMPAT b (c.arg 12 4)).setFld Fld.SFU_STATUS_COMPAT b (c.arg 12 4))
            (s.setFld Fld.PLT_STATE_COMPAT p (c.arg 12 4)))).mboxOpen 0))) ∧
      (PlotCommand s 3 12 p → ((maskBlocks (c.arg 8 4)).any fun b => (s.ownerOfBlock b).isSome) = false →
        exec .plotGrow s = .next ((s.viaStore (((maskBlocks (c.arg 8 4)).foldl (fun s b => s.dressBlock p b) s).setBlocks p
          (Nat.lor (s.fld Fld.PLT_BLOCKS_BLOCKS p) (c.arg 8 4)))).mboxOpen 0)) ∧
      (∀ loads u, PlotCommand s 4 12 p → Nat.land (c.arg 8 4) (s.fld Fld.PLT_BLOCKS_BLOCKS p) = c.arg 8 4 →
        u = s.setFld Fld.PLT_PENDING_DRAINING p (Nat.lor (s.fld Fld.PLT_PENDING_DRAINING p) (c.arg 8 4)) →
        (s.blocksHeld (c.arg 8 4) = true → exec (.plotShrink loads) s = .next u) ∧
        (s.blocksHeld (c.arg 8 4) = false →
          exec (.plotShrink loads) s = .next ((u.viaStore (u.freeBlocks p (c.arg 8 4) loads)).mboxOpen 0))) ∧
      (∀ l v, PlotCommand s 9 32 p → c.arg 9 7 = 0 → (∀ x, s.colGroup (c.arg 8 1) = some x → x.plot = p) →
        (s.chains.any fun e => e.2.plot == p && e.2.ops.any fun d => d.group == c.arg 8 1) = false → l = s.memberList (c.arg 16 8) →
        v = (if c.arg 24 8 = 0 then (0, 0, []) else s.siteList (c.arg 24 8)) →
        (l = [] → exec .groupSet s = .next ((s.viaStore { s with colGroups := Table.del s.colGroups (c.arg 8 1) }).mboxOpen 0)) ∧
        (s.chipNo ∈ l → l.length ≤ 8192 → l.eraseDups.length = l.length → (c.arg 24 8 ≠ 0 → 2 ≤ v.1 ∧ v.1 ≤ 16 ∧ v.2.1 < v.1) →
          exec .groupSet s = .next ((s.viaStore (s.setGroup (c.arg 8 1)
            ⟨p, l, l.findIdx (· == s.chipNo), 0, 0, v.1, v.2.1, v.2.2, none, []⟩)).mboxOpen 0)))) ∧
    (PlotCommand s 5 8 p →
      (s.fld Fld.PLT_STATE_STATE p = plActive → exec .plotStop s = .next ((s.setFld Fld.PLT_STATE_STATE p plStopped).mboxOpen 0)) ∧
      (s.fld Fld.PLT_STATE_STATE p ≠ plActive → exec .plotStop s = .next (s.mboxOpen 4))) ∧
    (PlotCommand s 6 8 p →
      (s.fld Fld.PLT_STATE_STATE p = plStopped → exec .plotStart s = .next ((s.setFld Fld.PLT_STATE_STATE p plActive).mboxOpen 0)) ∧
      (s.fld Fld.PLT_STATE_STATE p ≠ plStopped → exec .plotStart s = .next (s.mboxOpen 4))) ∧
    (∀ (q : Plot) (r : PlotRecord), PlotCommand s 7 16 p → s.fld Fld.PLT_STATE_STATE p = plStopped → s.plot p = some q →
      r = ⟨s.readHost (c.arg 8 8) 128⟩ → r.bytes.take 8 = (s.plotRecord p q).take 8 →
      r.bytes.drop 0x34 = (s.plotRecord p q).drop 0x34 → r.build.rangesOk = true → s.segmentsValid r.build = true →
      (s.setPlot p r.build).areasOk p r.build = true → s.sharesWindows p r.build = false → s.plotBusy p = false →
      s.framesStranded p r.build = false →
      exec .plotResize s = .next ((s.viaStore (s.resizePlot p q r.build)).mboxOpen 0)) ∧
    (∀ loads, PlotCommand s 8 8 p →
      (∀ q, s.fld Fld.PLT_STATE_STATE p = plStopped → s.plot p = some q →
        (s.plotBusy p = true → exec (.plotDestroy loads) s = .next (s.mboxOpen 0x0B)) ∧
        (s.plotBusy p = false →
          exec (.plotDestroy loads) s = .next ((s.viaStore (((((s.destroyStep1 p).setFld Fld.PLT_STATE_STATE p plClearing).destroyStep2
            p).destroyStep3 p).destroyStep5 p q loads)).mboxOpen 0))) ∧
      (s.fld Fld.PLT_STATE_STATE p ≠ plStopped → exec (.plotDestroy loads) s = .next (s.mboxOpen 4)))

/-- SFU_LOAD and SFU_UNLOAD (R94, R95, R368). -/
def Obligations.UserTablesAreLoadedAndUnloaded : Prop :=
  ∀ (s u : State) (p : PlotIx) (c : Cmd) (q : Plot),
    (∀ n, s.take p.val 0x70 = some (c, u) → c.cleanFrom 24 = true → c.seqNo = 0 → c.arg 9 7 = 0 → c.arg 8 1 < 4 →
      u.ownsRange p.val (c.arg 16 8) 16 = true → tableOk (u.loadBytes (c.arg 16 8) 16) = true →
      n = 16 + 16 * 2 ^ leNat (((u.loadBytes (c.arg 16 8) 16).drop 5).take 1) → u.ownsRange p.val (c.arg 16 8) n = true →
      u.firstPoison (c.arg 16 8) n = none →
      u.plot p.val = some q →
      ((maskBlocks (u.fld Fld.PLT_BLOCKS_BLOCKS p.val)).any u.blockBusy = false →
        exec (.sfuLoad p) s = .next (State.dropUnknown ringFuel (((maskBlocks (u.fld Fld.PLT_BLOCKS_BLOCKS p.val)).foldl
          (fun s b => s.loadTables p.val b)
          (u.setPlot p.val { q with user := Table.put q.user (c.arg 8 1) (u.loadBytes (c.arg 16 8) n) })).finish c.id 0 0))) ∧
      ((maskBlocks (u.fld Fld.PLT_BLOCKS_BLOCKS p.val)).any u.blockBusy = true →
        exec (.sfuLoad p) s = .next (State.dropUnknown ringFuel (u.finishOpen c.id 0x0B)))) ∧
    (s.take p.val 0x71 = some (c, u) → c.cleanFrom 9 = true → c.seqNo = 0 → c.arg 8 1 < 4 → u.plot p.val = some q →
      ((maskBlocks (u.fld Fld.PLT_BLOCKS_BLOCKS p.val)).any u.blockBusy = true →
        exec (.sfuUnload p) s = .next (State.dropUnknown ringFuel (u.finishOpen c.id 0x0B))) ∧
      ((maskBlocks (u.fld Fld.PLT_BLOCKS_BLOCKS p.val)).any u.blockBusy = false →
        exec (.sfuUnload p) s = .next (State.dropUnknown ringFuel (((maskBlocks (u.fld Fld.PLT_BLOCKS_BLOCKS p.val)).foldl
          (fun s b => s.loadTables p.val b) (u.setPlot p.val { q with user := Table.del q.user (c.arg 8 1) })).finish c.id 0 0))))

/-- The commands of a start (R373 to R396, R444, R452). -/
def Obligations.StartsRunThroughTheirStates : Prop :=
  ∀ (s : State), s.canonical = true →
    (∀ straps pass, s.boot.seqOk = false → (firstPass pass).isSome = true → straps < 2 ^ 16 →
      Completes (.powerOn straps pass) s fun t =>
        t.bootState = bsRom ∧ t.bit Fld.BOOT_STATUS_KIND 0 = false ∧ t.fld Fld.PWR_GRAFT_STRAP 0 = straps ∧
        t.boot.seqOk = true ∧ t.boot.perst = true ∧ t.boot.powerOn = true ∧ t.boot.region = firstPass pass ∧
        t.mem = [] ∧ t.hostMem = s.hostMem) ∧
    (s.boot.seqOk = true →
      Completes .pwrSeqOkFall s fun t =>
        t.boot.seqOk = false ∧ t.mem = [] ∧ t.regs = [] ∧ t.hostMem = s.hostMem ∧ t.bootState = bsReset) ∧
    (s.boot.seqOk = true → s.boot.tripped = false → s.boot.perst = true →
      Completes .perstAssert s fun t =>
        t.boot.perst = false ∧ t.boot.outputs = false ∧ t.bootState = bsReset ∧ t.tasks = [] ∧
        (∀ l, l < 6 → t.linkUp l = false) ∧ MemSame s t) ∧
    (∀ straps pass, s.boot.seqOk = true → s.boot.tripped = false → s.boot.perst = false →
      exec (.perstRelease straps pass) s = .next ((({ s with boot := { s.boot with perst := true } } : State).setFld
        Fld.PWR_GRAFT_STRAP 0 straps).beginStart false
          (({ s with boot := { s.boot with perst := true } } : State).setFld Fld.PWR_GRAFT_STRAP 0 straps).nextCold pass |>.latchStraps straps)) ∧
    (∀ a pass, s.arrives a = true → s.privOk a = true →
      exec (.bootRestart a pass) s = .next (s.beginStart false s.nextCold pass)) ∧
    (∀ gen lanes, s.boot.seqOk = true → s.boot.perst = true → s.boot.tripped = false → s.pcieLost = false → 4 ≤ gen → gen ≤ 6 →
      1 ≤ lanes → lanes ≤ 16 → s.bootState = bsRom → s.boot.region.isSome = true →
      Completes (.pcieTrained gen lanes) s fun t =>
        t.pcieGen = gen ∧ t.pcieLanes = lanes ∧ t.bootState = bsWait ∧ RegsKept s t [(.BOOT_STATUS, 0)] ∧ MemSame s t) ∧
    (∀ a r n, s.arrives a = true → s.privOk a = true → s.bootState = bsWait → s.imageRangeOk = true → s.boot.region = some r →
      n = (s.reg .BOOT_IMAGE_SIZE 0).toNat →
      Completes (.bootGo a) s fun t =>
        t.bootState = bsFetch ∧ t.readBytes (imageBase r) n =
          s.readHost ((s.reg .BOOT_IMAGE_LOW 0).toNat + 2 ^ 32 * (s.reg .BOOT_IMAGE_HIGH 0).toNat) n ∧
        MemKept s t (imageBase r) n ∧ RegsKept s t [(.BOOT_STATUS, 0)]) ∧
    (∀ r im, s.boot.region = some r → s.bootState = bsFetch → s.boot.imageOk = false →
      im = s.readBytes (imageBase r) (s.reg .BOOT_IMAGE_SIZE 0).toNat →
      exec .imageVerified s = .next (match imageRefused im (s.reg .BOOT_IMAGE_SIZE 0).toNat with
        | none => { s with boot := { s.boot with imageOk := true, image := im, digest := some (Config.sha384 (unsigned im)) } }
        | some k => ((s.clearRange (imageBase r) (128 * spadSize)).bootReason k).setBoot bsWait)) ∧
    (s.boot.seqOk = true → s.boot.nvmLow = false → s.fld Fld.BOOT_NVM_STATE 0 = 1 →
      Completes .nvmOwnFall s fun t =>
        t.boot.nvmLow = true ∧ t.boot.nvmSince = s.clock ∧ t.bit Fld.BOOT_NVM_OWNED 0 = true ∧ t.fld Fld.BOOT_NVM_STATE 0 = 2 ∧
        RegsKept s t [(.BOOT_NVM, 0)]) ∧
    (s.boot.seqOk = true → s.boot.nvmLow = true → s.fld Fld.BOOT_NVM_STATE 0 = 2 →
      Completes .nvmOwnRise s fun t =>
        t.boot.nvmLow = false ∧ t.boot.nvmTotal = s.boot.nvmTotal + (s.clock - s.boot.nvmSince) ∧
        t.bit Fld.BOOT_NVM_OWNED 0 = false ∧ t.fld Fld.BOOT_NVM_STATE 0 = 1 ∧
        t.fld Fld.BOOT_NVM_WAITS 0 = min (s.fld Fld.BOOT_NVM_WAITS 0 + 1) (2 ^ Fld.BOOT_NVM_WAITS.width - 1) ∧
        RegsKept s t [(.BOOT_NVM, 0)]) ∧
    (s.fld Fld.BOOT_NVM_STATE 0 = 2 → 5000000000 ≤ s.nvmHeld →
      exec .nvmWaitExpiry s =
        .next { s.setFld Fld.BOOT_NVM_STATE 0 4 with boot := { s.boot with seedDone := true, seed := none } }) ∧
    (∀ img r, s.boot.region = some r → s.fld Fld.BOOT_NVM_STATE 0 = 1 →
      Completes (.seedbedReadDone img) s fun t =>
        t.boot.seedDone = true ∧ t.boot.seed = some img ∧ t.fld Fld.BOOT_NVM_STATE 0 = 3 ∧ RegsKept s t [(.BOOT_NVM, 0)] ∧
        (∀ m, img.minimal = some m → t.readBytes (blockBase (8 * r)) (m ++ img.main).length = m ++ img.main ∧
          MemKept s t (blockBase (8 * r)) (m ++ img.main).length) ∧
        (img.minimal = none → MemSame s t)) ∧
    (∀ copyOk, s.bootState = bsFetch → s.boot.imageOk = true → s.boot.seedDone = true →
      ((s.boot.seed.bind SeedbedImage.minimal) = none →
        Completes (.firmwareEntry copyOk) s fun t =>
          t.bootState = bsHeld ∧ t.fld Fld.BOOT_STATUS_REASON 0 = brMinCrc ∧ t.bit Fld.ADM_POLICY_STOPPED 0 = true ∧
          t.boot.outputs = true ∧ MemSame s t) ∧
      (∀ i m, s.boot.seed = some i → i.minimal = some m →
        Completes (.firmwareEntry copyOk) s fun t =>
          t.bootState = bsFirmware ∧ t.fld Fld.BOOT_STATUS_MAJOR 0 = leNat (slice s.boot.image 9 9) ∧ t.boot.training = true ∧
          t.secure 0 = true ∧ t.secure 1 = true ∧
          (s.bit Fld.BOOT_CONTROL_FORCE_SPARSE 0 = true → t.bit Fld.BOOT_STATUS_SPARSE 0 = true ∧
            t.fld Fld.BOOT_STATUS_REASON 0 = brForced) ∧ MemSame s t)) ∧
    (∀ failed stackBits loads i m, s.bootState = bsFirmware → s.boot.training = true → s.boot.seed = some i → i.minimal = some m →
      (∀ r, r < 4 → (lostRegions failed stackBits).testBit r =
        (failed.testBit r || (List.range 16).any fun k => stackBits.testBit k && decide (k / 4 = r))) ∧
      (s.bit Fld.BOOT_STATUS_KIND 0 = false ∨ lostRegions failed stackBits = 0 →
        exec (.memoryTrainingDone failed stackBits loads) s = .next (s.finishStart i m (lostRegions failed stackBits) loads)) ∧
      (s.bit Fld.BOOT_STATUS_KIND 0 = true → lostRegions failed stackBits ≠ 0 →
        exec (.memoryTrainingDone failed stackBits loads) s = .next s.demote)) ∧
    (∀ a v, s.arrives a = true → s.privOk a = true →
      Completes (.bootSundialHigh a v) s fun t =>
        t.reg .BOOT_SUNDIAL_HIGH 0 = v ∧
        t.boot.armed = some ((s.reg .BOOT_SUNDIAL_LOW 0).toNat + 2 ^ 32 * v.toNat, s.clock) ∧
        RegsKept s t [(.BOOT_SUNDIAL_HIGH, 0)] ∧ MemSame s t)

/-- The commands of resets, replay, watch and clock failures (R22, R23, R400 to R413, R447, R454). -/
def Obligations.ResetsRunReplayAndChipFailures : Prop :=
  ∀ (s u : State) (o : ResetRun), s.canonical = true →
    (∀ q, s.resets = [q] → s.chipWait = none → s.replay = none → s.resetsRun.any (·.takesIn q) = false →
      u = { s with resets := [], resetsRun := (s.resetsRun.filter fun e => decide (s.clock < e.asked + 1000)) ++ [q] } →
      exec (.domainReset o) s = .next ((u.resetDown o q).resetRest o q (u.frostGroups q))) ∧
    (∀ l i, (l = 1 ∧ i < 512) ∨ (l = 2 ∧ i < 32) ∨ (l = 3 ∧ i < 4) ∨ l = 4 →
      (s.stepTags l i).fld (tagOf l) (tagIx l i) = (s.fld (tagOf l) (tagIx l i) + 1) % 2 ^ 16 ∧
      ∀ c, c < 512 → (s.stepTags l i).fld Fld.CEL_STATE_GENERATION c =
        (if c ∈ domainCells l i then (s.fld Fld.CEL_STATE_GENERATION c + 1) % 2 ^ 16 else s.fld Fld.CEL_STATE_GENERATION c)) ∧
    (∀ a, s.arrives a = true → s.privOk a = true →
      (∀ v : W32, s.fld Fld.PWR_STATE_STATE 0 ≠ 3 → bitsAt v.toNat 16 8 = 0x0A ∨ bitsAt v.toNat 16 8 = 0x0B →
        bitsAt v.toNat 29 3 = 1 → s.resets = [] →
        exec (.safeReset a v) s = .next { s with resets := [⟨1, bitsAt v.toNat 16 8, bitsAt v.toNat 0 9, s.sundial, none, [], s.clock⟩] }) ∧
      (∀ v : W32, bitsAt v.toNat 16 8 ≠ 0x0A → bitsAt v.toNat 16 8 ≠ 0x0B →
        exec (.safeReset a v) s = .next (s.logIgnored chipPlot 14 (Reg.offset .SAFE_RESET))) ∧
      (s.fld Fld.SAFE_STATUS_STATE 0 = 3 → s.resets = [] →
        exec (.releaseChip a) s = .next { s with resets := [⟨4, 0x0C, 0, s.sundial, none, [], s.clock⟩] }) ∧
      (∀ r : RegionIx, (s.fld Fld.SAFE_STATUS_REGION_OOS 0).testBit r.val = true → s.resets = [] →
        exec (.releaseRegion a r) s = .next { s with resets := [⟨3, 0x0C, r.val, s.sundial, none, [], s.clock⟩] })) ∧
    (∀ x t rest spent, s.replay = some x → x.suspects = t :: rest → s.chipWait = none →
      (spent < s.replayLimit x t →
        exec (.replay spent none) s = .next ((s.verdict 70 t 0).nextSuspect { x with suspects := rest, spent := x.spent + spent }) ∧
        ∀ k, exec (.replay spent (some k)) s =
          .next ((s.verdict 71 t k).nextSuspect { x with suspects := rest, spent := x.spent + spent })) ∧
      (u = ((s.verdict 72 t 0).resetDown o { x.req with cause := 0x0D, tick := s.sundial, asked := s.clock, ended := [] }).resetUp o
          { x.req with cause := 0x0D, tick := s.sundial, asked := s.clock, ended := [] } →
        u.bootState = bsService →
        exec (.replayGuilty o) s = .next ((u.setFld Fld.SAFE_STATUS_STATE 0 2).nextSuspect
          { x with suspects := rest, spent := x.spent + s.replayLimit x t }))) ∧
    (s.hubHeld = false → s.firmwareRuns = true →
      Completes .heartbeat s fun t =>
        t.heartPin = !s.heartPin ∧
        t.fld Fld.HUB_HEARTBEAT_COUNT 0 = (s.fld Fld.HUB_HEARTBEAT_COUNT 0 + 1) % 2 ^ Fld.HUB_HEARTBEAT_COUNT.width ∧
        RegsKept s t [(.HUB_HEARTBEAT, 0)] ∧ MemSame s t) ∧
    (Completes .watchOverdue s fun t =>
      t.reg .HUB_WATCH 0 = BitVec.ofNat 32 s.watchWord ∧ RegsKept s t [(.HUB_WATCH, 0)] ∧ MemSame s t) ∧
    (∀ n, s.coolSince = some n → s.cooling = true → n + 1000000000 ≤ s.sundial → s.isFallow = false →
      Completes .coolingEnd s fun t =>
        t.cooling = false ∧ t.fld Fld.SAFE_STATUS_STATE 0 = 0 ∧ RegsKept s t [(.SAFE_STATUS, 0)] ∧ MemSame s t) ∧
    (s.boot.seqOk = true → s.boot.perst = true → s.resets = [] →
      (Completes (.lockstepMismatch false) s fun t =>
        0 ∈ t.halted ∧ t.resets = [⟨4, 0x07, 0, s.sundial, none, [], s.clock⟩] ∧ t.regs = s.regs) ∧
      (Completes (.lockstepMismatch true) s fun t =>
        1 ∈ t.halted ∧ t.resets = [⟨4, 0x07, 0, s.sundial, none, [], s.clock⟩] ∧ t.fld Fld.KVM_STATUS_STATE 0 = 3 ∧
        RegsKept s t [(.KVM_STATUS, 0)]) ∧
      (∀ r, s.fld Fld.PWR_STATE_STATE 0 ≠ 3 → exec (.pllLoss (.region r)) s = .next { s with resets := [⟨3, 0x06, r.val, s.sundial, none, [], s.clock⟩] }) ∧
      (∀ r, s.fld Fld.PWR_STATE_STATE 0 = 3 → exec (.pllLoss (.region r)) s =
        .next { s with resets := [⟨4, 0x06, 0, s.sundial, none, [], s.clock⟩] }) ∧
      exec (.pllLoss .hub) s = .next { s with hubLost := true, resets := [⟨4, 0x06, 0, s.sundial, none, [], s.clock⟩] } ∧
      (Completes (.pllLoss .mainRef) s fun t =>
        t.hubLost = true ∧ t.mainLost = true ∧ t.fld Fld.SDL_STATUS_STATE 0 = sdHoldover ∧
        t.resets = [⟨4, 0x06, 0, s.sundial, none, [], s.clock⟩] ∧ RegsKept s t [(.SDL_STATUS, 0)])) ∧
    (s.hubLost = true → s.mainLost = true → s.chipWait = none →
      Completes (.pllRelock o) s fun t =>
        t.hubLost = false ∧ t.mainLost = false ∧ RegsKept s t [(.SDL_STATUS, 0)] ∧ MemSame s t ∧
        t.fld Fld.SDL_STATUS_STATE 0 = (if s.isRoot then sdSync else if s.hasCoord then sdJoining else sdFree)) ∧
    (s.hubLost = true → s.mainLost = false →
      (s.chipWait = none → exec (.pllRelock o) s = .next { s with hubLost := false, mainLost := false }) ∧
      (∀ q, s.chipWait = some q → exec (.pllRelock o) s =
        .next (({ s with hubLost := false, mainLost := false } : State).resetRest o q
          ((s.colGroups.filter fun (e : Nat × ColGroup) => decide (1 < e.2.n)).map (·.1))))) ∧
    exec .pcieRefclkLoss s = .next { s with pcieLost := true, pcieGen := 0, pcieLanes := 0 } ∧
    exec .pcieRefclkReturn s = .next { s with pcieLost := false }

/-- The register, mailbox and log commands (R408, R421, R422, R426 to R440). -/
def Obligations.RegistersAreReadWrittenAndScanned : Prop :=
  ∀ (s u : State), s.canonical = true →
    (∀ a priv off (v : W32) r i, s.arrives a = true → off < viewSize → off % 4 = 0 → Reg.atKey (baseOf off / 4) = some (r, i) →
      (s.reaches a priv r i = true → s.writable r = true →
        (aliasOf off = 0 → r.writeBits priv ≠ 0 →
          exec (.registerWrite a priv off v) s = .next (s.acceptWrite a r i (Nat.land v.toNat (r.writeBits priv)))) ∧
        (r.accBits .rw priv ≠ 0 → Nat.land v.toNat (r.accBits .wo priv) = 0 → Nat.land v.toNat (r.accBits .w1l priv) = 0 →
          (aliasOf off = 1 → exec (.aliasWrite a priv off v) s = .next (s.acceptWrite a r i
            (Nat.lor (Nat.land (s.stored r i) (r.accBits .rw priv)) (Nat.land v.toNat (r.accBits .rw priv))))) ∧
          (aliasOf off = 2 → exec (.aliasWrite a priv off v) s = .next (s.acceptWrite a r i
            (clearMask (Nat.land (s.stored r i) (r.accBits .rw priv)) (Nat.land v.toNat (r.accBits .rw priv))))) ∧
          (aliasOf off = 3 → exec (.aliasWrite a priv off v) s = .next (s.acceptWrite a r i
            (Nat.xor (Nat.land (s.stored r i) (r.accBits .rw priv)) (Nat.land v.toNat (r.accBits .rw priv))))))) ∧
      (∀ p, a = .vf p → s.reaches a false r i = false → s.ownerOf r i ≠ .free →
        exec (.registerWrite a false off v) s = .next (s.logIgnored p.val 13 off)) ∧
      (s.reaches a false r i = false → s.ownerOf r i = .free → exec (.registerWrite a false off v) s = .next s) ∧
      (s.reaches a priv r i = true → s.hubHeld = false → aliasOf off = 0 → perfAt off = none → r ≠ .SDL_TIME_LOW →
        r ≠ .SDL_TIME_HIGH → r.accBits .rc priv ≠ 0 →
        Completes (.rcRead a priv off) s fun t =>
          t.rdata = BitVec.ofNat 32 (Nat.land (s.regNow r i) (r.readBits priv)) ∧
          t.reg r i = BitVec.ofNat 32 (clearMask (s.reg r i).toNat
            (Nat.land (Nat.land (s.regNow r i) (r.readBits priv)) (r.accBits .rc priv))) ∧
          RegsKept s t [(r, i)] ∧ MemSame s t)) ∧
    (∀ a (v : W32), s.arrives a = true → s.privOk a = true →
      (s.bit Fld.HUB_CONFIG_STATUS_COMMITTED 0 = false →
        Completes (.w1lWrite a (Reg.offset .HUB_CONFIG_REF) v) s fun t =>
          t.reg .HUB_CONFIG_REF 0 = v ∧ t.bit Fld.HUB_CONFIG_STATUS_COMMITTED 0 = true ∧
          RegsKept s t [(.HUB_CONFIG_REF, 0), (.HUB_CONFIG_STATUS, 0)] ∧ MemSame s t) ∧
      (s.bit Fld.HUB_CONFIG_STATUS_COMMITTED 0 = true →
        exec (.w1lWrite a (Reg.offset .HUB_CONFIG_REF) v) s = .next (s.lockViol a (Reg.offset .HUB_CONFIG_REF))) ∧
      (s.privLocked = false →
        Completes (.privLockDrop a) s fun t =>
          t.bit Fld.HUB_PRIV_LOCK_DROP 0 = true ∧ t.privLocked = true ∧ t.privOk .pf0 = false ∧
          RegsKept s t [(.HUB_PRIV_LOCK, 0)] ∧ MemSame s t)) ∧
    (∀ a n steps, s.arrives a = true → n < 262144 →
      Completes (.perfCounterRead a n steps) s fun t =>
        t.rdata = BitVec.ofNat 32 (((s.perfOf n).count + steps) % 2 ^ 48) ∧
        t.perfOf n = ⟨((s.perfOf n).count + steps) % 2 ^ 48, (s.perfOf n).ovf || decide (2 ^ 48 ≤ (s.perfOf n).count + steps),
          ((s.perfOf n).count + steps) % 2 ^ 48 / 2 ^ 32⟩ ∧ t.regs = s.regs ∧ MemSame s t) ∧
    (∀ f : WordFlip, s.boot.seqOk = true → f.word < 16384 →
      Completes (.configScanStart [f]) s fun t =>
        t.scanStart = some s.sundial ∧ t.storeWord f.word = (s.storeWord f.word).xor (f.bits % 2 ^ 32) ∧
        (∀ w, w ≠ f.word → t.storeWord w = s.storeWord w) ∧ t.regs = s.regs) ∧
    (∀ n, s.scanStart = some n →
      Completes .configScanPass s fun t =>
        t.fld Fld.HUB_CONFIG_STATUS_PASSES 0 =
          (s.fld Fld.HUB_CONFIG_STATUS_PASSES 0 + 1) % 2 ^ Fld.HUB_CONFIG_STATUS_PASSES.width ∧
        t.reg .HUB_CONFIG_CRC 0 = BitVec.ofNat 32 s.storeCrc ∧
        (s.bit Fld.HUB_CONFIG_STATUS_COMMITTED 0 = true → s.reg .HUB_CONFIG_REF 0 ≠ BitVec.ofNat 32 s.storeCrc →
          t.bit Fld.HUB_CONFIG_STATUS_MISMATCH 0 = true ∧ t.bit Fld.ADM_POLICY_STOPPED 0 = true ∧
          ∃ q, q ∈ t.resets ∧ q.level = 4 ∧ q.index = 0) ∧
        (s.reg .HUB_CONFIG_REF 0 = BitVec.ofNat 32 s.storeCrc → t.resets = s.resets ∧
          RegsKept s t [(.HUB_CONFIG_STATUS, 0), (.HUB_CONFIG_CRC, 0)])) ∧
    (∀ a, s.privOk a = true →
      (s.bit Fld.HUB_MBOX_STATUS_BUSY 0 = true → exec (.mboxGo a) s = .next (s.setBit Fld.HUB_MBOX_STATUS_REJECTED 0 true)) ∧
      (s.bit Fld.HUB_MBOX_STATUS_BUSY 0 = false →
        (mboxKnown s.mboxCommand.op = true → exec (.mboxGo a) s = .next (s.setBit Fld.HUB_MBOX_STATUS_BUSY 0 true)) ∧
        (mboxKnown s.mboxCommand.op = false →
          exec (.mboxGo a) s = .next ((s.setBit Fld.HUB_MBOX_STATUS_BUSY 0 true).mboxOpen 3)))) ∧
    (∀ (p : PlotIx) (c : Cmd) r, s.take p.val 0x60 = some (c, u) → c.cleanFrom 26 = true → c.seqNo = 0 →
      u.ownsRange p.val (c.arg 16 8) (16 + 32 * c.arg 24 2) = true → r = u.logBytes (some p.val) (c.arg 8 8) (c.arg 24 2) →
      exec (.logRead (some p)) s =
        .next (State.dropUnknown ringFuel (((u.storeBytes (c.arg 16 8) r.1).1).finish c.id 0 r.2))) ∧
    (∀ (c : Cmd) r, MailboxRuns s 0x60 → c = s.mboxCommand → c.mboxClean 26 = true →
      r = s.logBytes none (c.arg 8 8) (c.arg 24 2) →
      exec (.logRead none) s = .next ((s.writeHost (c.arg 16 8) r.1).mboxDone 0 r.2)) ∧
    (∀ (c : Cmd) bs, MailboxRuns s 0x61 → c = s.mboxCommand → c.mboxClean 24 = true → c.arg 10 6 = 0 → c.arg 8 1 < 4 → c.arg 9 1 < 16 →
      Table.get s.harvest (16 * c.arg 8 1 + c.arg 9 1) = some bs →
      exec .harvestRead s = .next ((s.writeHost (c.arg 16 8) bs).mboxOpen 0))

/-- R433. -/
def Obligations.UnimplementedLocationsReadZeroAndIgnoreWrites : Prop :=
  ∀ (s : State) (a : Agent) (priv : Bool) (off : Nat), s.arrives a = true → off < viewSize → off % 4 = 0 →
    (∀ v, Reg.atKey (baseOf off / 4) = none → perfAt off = none →
      exec (.registerWrite a priv off v) s = .next s ∧ exec (.aliasWrite a priv off v) s = .next s ∧
      exec (.rcRead a priv off) s = .next { s with rdata := 0 }) ∧
    (∀ r i, Reg.atKey (baseOf off / 4) = some (r, i) → perfAt off = none →
      (s.hubHeld = false → Completes (.rcRead a priv off) s fun t =>
        ∀ b, b < 32 → (∀ f, f ∈ r.fields → b < f.lo ∨ f.lo + f.width ≤ b) → t.rdata.getLsbD b = false) ∧
      ∀ v w : W32, Nat.land v.toNat r.mask = Nat.land w.toNat r.mask →
        exec (.registerWrite a priv off v) s = exec (.registerWrite a priv off w) s ∧
        exec (.aliasWrite a priv off v) s = exec (.aliasWrite a priv off w) s)

/-- R461. -/
def Obligations.KeepIsTheLeastOfThreeValues : Prop :=
  ∀ (s : State) (r : RegionIx) (k : Nat), s.canonical = true →
    k = min (s.fld Fld.PWR_REGION_POWER_GOVKEEP r.val)
      (min (if s.droopTick.isSome then 11 else 15) (if s.bit Fld.TMP_STATUS_THROTTLE 0 then 7 else 15)) →
    Completes (.throttleChange r) s fun t =>
      t.fld Fld.ADM_REGION_STATE_KEEP r.val = k ∧ t.bit Fld.ADM_REGION_STATE_THROTTLE r.val = decide (k < 15) ∧
      RegsKept s t [(.ADM_REGION_STATE, r.val), (.PWR_STATE, 0)] ∧ MemSame s t

/-- The commands of power, temperature and the sideband (R33, R34, R447 to R465). -/
def Obligations.PowerThermalAndSidebandCommands : Prop :=
  ∀ (s : State), s.canonical = true →
    (∀ a (r : RegionIx) (v : W32) sum, s.arrives a = true → s.privOk a = true →
      sum = ((List.range 4).map fun k => if k = r.val then v.toNat % 65536 else s.fld Fld.PWR_REGION_CAP_CAP k).sum →
      (sum ≤ 1830 → exec (.pwrRegionCapWrite a r v) s = .next (s.viaStore (s.setFld Fld.PWR_REGION_CAP_CAP r.val v.toNat))) ∧
      (1830 < sum → exec (.pwrRegionCapWrite a r v) s =
        .next (s.logIgnored chipPlot 14 (Reg.offset .PWR_REGION_CAP + 4 * r.val)))) ∧
    (∀ a, s.arrives a = true → s.privOk a = true →
      (s.fld Fld.PWR_STATE_STATE 0 = 1 → exec (.fallowEnter a) s = .next (s.setFld Fld.PWR_STATE_STATE 0 2)) ∧
      (∀ loads kat, s.fld Fld.PWR_STATE_STATE 0 = 2 →
        exec (.fallowExit a loads kat) s = .next (s.setFld Fld.PWR_STATE_STATE 0 1)) ∧
      (∀ loads kat, s.fld Fld.PWR_STATE_STATE 0 = 3 →
        Completes (.fallowExit a loads kat) s fun t => t.fld Fld.PWR_STATE_STATE 0 = 1 ∧ t.hostMem = s.hostMem)) ∧
    (s.fld Fld.PWR_STATE_STATE 0 = 2 → s.tasks = [] → s.rbatches = [] →
      Completes .fallowGating s fun t =>
        t.fld Fld.PWR_STATE_STATE 0 = 3 ∧
        (∀ l, l < 6 → s.bit Fld.LNK_CONTROL_DISABLE l = false → t.linkState l = lsOff) ∧ ∀ c, c < 512 → t.cell c = Cell.empty) ∧
    (∀ (r : RegionIx) (p : PowerSample), (s.spendPeak p.chip).capNow r.val < p.now →
      Completes (.governorSample r p) s fun t =>
        t.fld Fld.PWR_REGION_POWER_GOVKEEP r.val = max 3 (s.fld Fld.PWR_REGION_POWER_GOVKEEP r.val - 1) ∧
        t.fld Fld.PWR_REGION_POWER_POWER r.val = min p.avg1000 0xFFFF ∧
        t.fld Fld.ADM_REGION_STATE_KEEP r.val = t.leastKeep r.val ∧ MemSame s t) ∧
    (10000 ≤ spentIn (s.excursion.filter fun e => decide (s.clock < e.1 + 100000000)) →
      Completes .excursionSpent s fun t =>
        t.fld Fld.PWR_STATE_ALLOWANCE 0 = 0 ∧ t.bit Fld.PWR_STATE_PEAK 0 = false ∧ RegsKept s t [(.PWR_STATE, 0)] ∧ MemSame s t) ∧
    (∀ (r : RegionIx) level,
      (level < 2 → Completes (.droopLevel r level) s fun t =>
        t.fld Fld.PWR_REGION_POWER_LEVEL r.val = level ∧ RegsKept s t [(.PWR_REGION_POWER, r.val)] ∧ MemSame s t) ∧
      (level = 2 → s.level2Long r.val = false → Completes (.droopLevel r level) s fun t =>
        t.fld Fld.PWR_REGION_POWER_LEVEL r.val = 2 ∧
        t.fld Fld.PWR_DROOP_COUNT_STRETCH r.val = (if s.fld Fld.PWR_REGION_POWER_LEVEL r.val = 2 then s.fld Fld.PWR_DROOP_COUNT_STRETCH r.val
          else min (s.fld Fld.PWR_DROOP_COUNT_STRETCH r.val + 1) (2 ^ Fld.PWR_DROOP_COUNT_STRETCH.width - 1)) ∧
        RegsKept s t [(.PWR_REGION_POWER, r.val), (.PWR_DROOP_COUNT, r.val)] ∧ MemSame s t) ∧
      (3 ≤ level ∨ (level = 2 ∧ s.level2Long r.val = true) → Completes (.droopLevel r level) s fun t =>
        t.fld Fld.PWR_REGION_POWER_LEVEL r.val = 3 ∧ t.droopTick = some s.clock ∧
        t.fld Fld.PWR_DROOP_COUNT_BEYOND r.val =
          min (s.fld Fld.PWR_DROOP_COUNT_BEYOND r.val + 1) (2 ^ Fld.PWR_DROOP_COUNT_BEYOND.width - 1) ∧
        (∀ k, k < 4 → t.fld Fld.ADM_REGION_STATE_KEEP k ≤ 11) ∧ MemSame s t)) ∧
    (∀ n, s.droopTick = some n → n + 1000000 ≤ s.clock →
      exec .droopThrottleEnd s = .next ({ s with droopTick := none } : State).applyKeepAll) ∧
    (∀ temps : List Int, temps.length = 36 → (∀ x, x ∈ temps → -32768 ≤ x ∧ x < 32768) →
      Completes (.sensorRead temps) s fun t =>
        (∀ i x, temps[i]? = some x → t.sensor i = x) ∧
        t.bit Fld.TMP_STATUS_WARN 0 = (s.safety.trip != 0 && temps.any fun x => decide ((16 * s.safety.warn : Int) < x)) ∧
        t.bit Fld.TMP_STATUS_THROTTLE 0 = (s.safety.trip != 0 && temps.any fun x => decide ((16 * s.safety.throttle : Int) < x)) ∧
        MemSame s t) ∧
    (∀ temp, s.boot.seqOk = true → s.boot.tripped = false →
      125 ≤ temp ∨ (118 ≤ temp ∧ (s.fld Fld.PWR_GRAFT_STRAP 0).testBit 12 = true) →
      Completes (.hardwareTrip temp) s fun t =>
        t.tripPin = true ∧ t.mem = [] ∧ t.regs = [] ∧ t.tasks = [] ∧ t.hostMem = s.hostMem) ∧
    (∀ rail, rail < 16 →
      (Completes (.railExcursion rail true) s fun t =>
        t.fld Fld.PWR_RAIL_STATUS_LOW 0 = Nat.lor (s.fld Fld.PWR_RAIL_STATUS_LOW 0) (2 ^ rail) ∧
        RegsKept s t [(.PWR_RAIL_STATUS, 0)] ∧ MemSame s t) ∧
      (Completes (.railExcursion rail false) s fun t =>
        t.fld Fld.PWR_RAIL_STATUS_HIGH 0 = Nat.lor (s.fld Fld.PWR_RAIL_STATUS_HIGH 0) (2 ^ rail) ∧
        RegsKept s t [(.PWR_RAIL_STATUS, 0)] ∧ MemSame s t)) ∧
    (s.boot.outputs = true →
      exec (.managementBusRead 0) s = .next { s with rdata := s.reg .BOOT_STATUS 0 } ∧
      exec (.managementBusRead 0x100) s = .next { s with rdata := s.slideWindow.reg .PWR_STATE 0 } ∧
      exec (.managementBusRead 0x108) s = .next { s with rdata := s.reg .PWR_CHIP_POWER 0 } ∧
      exec (.managementBusRead 0x180) s = .next { s with rdata := s.reg .TMP_STATUS 0 } ∧
      (∀ i, i < 36 → exec (.managementBusRead (0x200 + 4 * i)) s = .next { s with rdata := s.reg .TMP_SENSOR i })) ∧
    exec .sundialBeat s = .next { s with beatPin := s.boot.outputs && decide (s.sundial % 1000000 < 100) }

/-- R436 to R438: Δ is the change of the CRC, because CRC-32C is linear up to its constants. -/
def Obligations.StoreWritesKeepTheReference : Prop :=
  ∀ (s : State), s.canonical = true → s.reg .HUB_CONFIG_REF 0 = BitVec.ofNat 32 s.storeCrc →
    (∀ u : State, u.canonical = true → u.bit Fld.HUB_CONFIG_STATUS_COMMITTED 0 = true →
      u.reg .HUB_CONFIG_REF 0 = s.reg .HUB_CONFIG_REF 0 →
      (s.viaStore u).reg .HUB_CONFIG_REF 0 = BitVec.ofNat 32 (s.viaStore u).storeCrc) ∧
    (∀ a (l : LinkIx), s.privOk a = true → s.bit Fld.HUB_CONFIG_STATUS_COMMITTED 0 = true →
      Completes (.lnkDisable a l false) s fun t =>
        t.bit Fld.LNK_CONTROL_DISABLE l.val = false ∧ t.reg .HUB_CONFIG_REF 0 = BitVec.ofNat 32 t.storeCrc)

/-- The step (the row's cut), and the tick on an empty queue (notes/assumptions/10). -/
def Obligations.StepRunsTheFrontCommand : Prop :=
  ∀ (c : Instr) (s : State),
    step { s with pending := c :: s.pending } = exec c s ∧
    (s.pending = [] → step s = .next s.tick ∧ (s.slew = 0 → s.tick.sundial = s.sundial + 1))

/-- The invariant of the state's sparse maps over every command and the tick. -/
def Obligations.EveryStepKeepsCanonicalForm : Prop :=
  ∀ (s t : State), s.canonical = true → step s = .next t → t.canonical = true ∧ t.pending = s.pending.tail

/-- Reset (R9 and the reset columns of the registers). -/
def Obligations.ResetStateIsCanonicalAndIdle : Prop :=
  State.reset.canonical = true ∧ State.reset.pending = [] ∧ State.reset.mem = [] ∧
  (∀ c, c < 512 → State.reset.fld Fld.CEL_STATE_STATE c = 0 ∧ State.reset.cell c = Cell.empty) ∧
  (∀ i, i < 512 → State.reset.fld Fld.STM_STREAM_STATE_STATE i = 0 ∧ State.reset.stream i = none) ∧
  (∀ p, p < 8 → State.reset.fld Fld.PLT_STATE_STATE p = 0 ∧ State.reset.plot p = none) ∧
  (∀ l, l < 6 → State.reset.linkState l = lsOff) ∧ (∀ k, k < 1024 → State.reset.fld Fld.COL_COUNTER_COUNT k = 0) ∧
  State.reset.bootState = bsReset
end

