-- ==== Sys2Proof/Laws/Frames.lean ====
section
/-!
SUPPORT. Frames: what an allocation answers where only one place fits, whatever place the manager would start from.
-/

namespace Sys2Proof.Machine
open Sys2Proof

/-- An allocation with one place to choose takes it (R145). -/
theorem State.allocFrame_one (s : State) (p t order use seqNo a : Nat) (region : Option Nat) (q : Plot) (h : s.plot p = some q)
    (ho : ¬ order > 16)
    (hp : s.framePlaces q t (frameBytes order) region = [a]) :
    s.allocFrame p t order use seqNo region =
      some (a, (({ s with free := s.free + 1 } : State).putFrame a (frameBytes order)
        ⟨0, p, true, false, use, order, 0, 0, s.chipNo, seqNo, 0, s.clock⟩).setPool p t ((s.pool p t).take use (2 ^ order))) := by
  unfold State.allocFrame
  simp only [h, ho, if_false]
  rw [hp]
  simp [Nat.mod_one]

end Sys2Proof.Machine
end

