-- ==== Sys2Proof/Laws/Sparse.lean ====
section
/-!
SUPPORT. Laws of sparse maps: what a key reads as after a write, and that every operation keeps the canonical form.
-/

namespace Sys2Proof.Machine

variable {α : Type}

theorem Sparse.get_insert_same (d : Nat → α) (m : List (Nat × α)) (k : Nat) (v : α) :
    Sparse.get d (Sparse.insert m k v) k = v := by
  induction m with
  | nil => simp [Sparse.insert, Sparse.get]
  | cons e m ih =>
    obtain ⟨k', v'⟩ := e
    unfold Sparse.insert
    split
    · simp [Sparse.get]
    · split
      · simp [Sparse.get]
      · simp [Sparse.get, *]

theorem Sparse.get_insert_other (d : Nat → α) (m : List (Nat × α)) {k j : Nat} (v : α) (h : j ≠ k) :
    Sparse.get d (Sparse.insert m k v) j = Sparse.get d m j := by
  induction m with
  | nil => simp [Sparse.insert, Sparse.get, h]
  | cons e m ih =>
    obtain ⟨k', v'⟩ := e
    unfold Sparse.insert
    split
    · simp [Sparse.get, h]
    · split
      · subst k'; simp [Sparse.get, h]
      · simp [Sparse.get, ih]

theorem Sparse.get_of_above (d : Nat → α) (m : List (Nat × α)) {k j : Nat} (h : Sparse.above k m = true) (hj : j ≤ k) :
    Sparse.get d m j = d j := by
  induction m with
  | nil => rfl
  | cons e m ih =>
    obtain ⟨k', v'⟩ := e
    simp [Sparse.above] at h ih
    have : ¬ j = k' := by omega
    simp [Sparse.get, this]
    exact ih h.2

theorem Sparse.get_erase_same [DecidableEq α] (d : Nat → α) (m : List (Nat × α)) (k : Nat) (h : Sparse.wf d m = true) :
    Sparse.get d (Sparse.erase m k) k = d k := by
  induction m with
  | nil => rfl
  | cons e m ih =>
    obtain ⟨k', v'⟩ := e
    simp [Sparse.wf] at h
    unfold Sparse.erase
    split
    · subst k'; exact Sparse.get_of_above d m h.1.2 (Nat.le_refl _)
    · simp [Sparse.get, *]

theorem Sparse.get_erase_other (d : Nat → α) (m : List (Nat × α)) {k j : Nat} (h : j ≠ k) :
    Sparse.get d (Sparse.erase m k) j = Sparse.get d m j := by
  induction m with
  | nil => rfl
  | cons e m ih =>
    obtain ⟨k', v'⟩ := e
    unfold Sparse.erase
    split
    · subst k'; simp [Sparse.get, h]
    · simp [Sparse.get, ih]

/-- A read after a write to the same key gives the value written. -/
theorem Sparse.get_set_same [DecidableEq α] (d : Nat → α) (m : List (Nat × α)) (k : Nat) (v : α) (h : Sparse.wf d m = true) :
    Sparse.get d (Sparse.set d m k v) k = v := by
  unfold Sparse.set
  split
  · rename_i hv; rw [Sparse.get_erase_same d m k h, hv]
  · exact Sparse.get_insert_same d m k v

/-- A write leaves every other key alone. -/
theorem Sparse.get_set_other [DecidableEq α] (d : Nat → α) (m : List (Nat × α)) {k j : Nat} (v : α) (h : j ≠ k) :
    Sparse.get d (Sparse.set d m k v) j = Sparse.get d m j := by
  unfold Sparse.set
  split
  · exact Sparse.get_erase_other d m h
  · exact Sparse.get_insert_other d m v h

@[simp] theorem Sparse.above_nil (j : Nat) : Sparse.above j ([] : List (Nat × α)) = true := rfl

@[simp] theorem Sparse.above_cons (j k : Nat) (v : α) (m : List (Nat × α)) :
    Sparse.above j ((k, v) :: m) = (decide (j < k) && Sparse.above j m) := rfl

theorem Sparse.above_insert {j k : Nat} (m : List (Nat × α)) (v : α) (h : Sparse.above j m = true) (hk : j < k) :
    Sparse.above j (Sparse.insert m k v) = true := by
  induction m with
  | nil => simp [Sparse.insert, hk]
  | cons e m ih =>
    obtain ⟨k', v'⟩ := e
    simp at h
    unfold Sparse.insert
    split
    · simp [hk, h.1, h.2]
    · split
      · simp [hk, h.2]
      · simp [h.1, ih h.2]

theorem Sparse.above_erase {j k : Nat} (m : List (Nat × α)) (h : Sparse.above j m = true) :
    Sparse.above j (Sparse.erase m k) = true := by
  induction m with
  | nil => rfl
  | cons e m ih =>
    obtain ⟨k', v'⟩ := e
    simp at h
    unfold Sparse.erase
    split
    · exact h.2
    · simp [h.1, ih h.2]

theorem Sparse.above_trans {j k : Nat} (m : List (Nat × α)) (h : Sparse.above k m = true) (hj : j < k) :
    Sparse.above j m = true := by
  simp [Sparse.above] at h ⊢
  intro a b hab
  have := h a b hab
  omega

theorem Sparse.wf_insert [DecidableEq α] (d : Nat → α) (m : List (Nat × α)) (k : Nat) (v : α) (h : Sparse.wf d m = true)
    (hv : v ≠ d k) : Sparse.wf d (Sparse.insert m k v) = true := by
  induction m with
  | nil => simp [Sparse.insert, Sparse.wf, Sparse.above, hv]
  | cons e m ih =>
    obtain ⟨k', v'⟩ := e
    have hw := h
    simp [Sparse.wf] at hw
    unfold Sparse.insert
    split
    · rename_i hk
      have ha : Sparse.above k ((k', v') :: m) = true := by
        have := Sparse.above_trans m hw.1.2 hk
        simp [Sparse.above] at this ⊢
        exact ⟨hk, this⟩
      rw [Sparse.wf, h, ha]
      simp [hv]
    · split
      · rename_i hk; subst k'; simp [Sparse.wf, hv, hw.1.2, hw.2]
      · have hlt : k' < k := by omega
        simp [Sparse.wf, hw.1.1, Sparse.above_insert m v hw.1.2 hlt, ih hw.2]

theorem Sparse.wf_erase [DecidableEq α] (d : Nat → α) (m : List (Nat × α)) (k : Nat) (h : Sparse.wf d m = true) :
    Sparse.wf d (Sparse.erase m k) = true := by
  induction m with
  | nil => rfl
  | cons e m ih =>
    obtain ⟨k', v'⟩ := e
    simp [Sparse.wf] at h
    unfold Sparse.erase
    split
    · exact h.2
    · simp [Sparse.wf, h.1.1, Sparse.above_erase m h.1.2, ih h.2]

/-- A write keeps the canonical form. -/
theorem Sparse.wf_set [DecidableEq α] (d : Nat → α) (m : List (Nat × α)) (k : Nat) (v : α) (h : Sparse.wf d m = true) :
    Sparse.wf d (Sparse.set d m k v) = true := by
  unfold Sparse.set
  split
  · exact Sparse.wf_erase d m k h
  · rename_i hv; exact Sparse.wf_insert d m k v h hv

theorem Sparse.above_filter {j : Nat} (p : Nat × α → Bool) (m : List (Nat × α)) (h : Sparse.above j m = true) :
    Sparse.above j (m.filter p) = true := by
  simp [Sparse.above] at h ⊢
  intro a b hab
  exact Or.inr (h a b hab)

/-- Dropping entries keeps the canonical form. -/
theorem Sparse.wf_filter [DecidableEq α] (d : Nat → α) (p : Nat × α → Bool) (m : List (Nat × α)) (h : Sparse.wf d m = true) :
    Sparse.wf d (m.filter p) = true := by
  induction m with
  | nil => rfl
  | cons e m ih =>
    obtain ⟨k', v'⟩ := e
    simp [Sparse.wf] at h
    rw [List.filter_cons]
    split
    · simp [Sparse.wf, h.1.1, Sparse.above_filter p m h.1.2, ih h.2]
    · exact ih h.2

/-- A key of a filtered map reads as before where the filter keeps it. -/
theorem Sparse.get_filter_kept (d : Nat → α) (p : Nat × α → Bool) (m : List (Nat × α)) (k : Nat)
    (hp : ∀ v, p (k, v) = true) : Sparse.get d (m.filter p) k = Sparse.get d m k := by
  induction m with
  | nil => rfl
  | cons e m ih =>
    obtain ⟨k', v'⟩ := e
    rw [List.filter_cons]
    split
    · simp [Sparse.get, ih]
    · rename_i hn
      have : ¬ k = k' := by intro hk; subst k'; exact hn (hp v')
      simp [Sparse.get, this, ih]

/-- A key that the filter drops reads as unlisted. -/
theorem Sparse.get_filter_dropped (d : Nat → α) (p : Nat × α → Bool) (m : List (Nat × α)) (k : Nat)
    (hp : ∀ v, p (k, v) = false) : Sparse.get d (m.filter p) k = d k := by
  induction m with
  | nil => rfl
  | cons e m ih =>
    obtain ⟨k', v'⟩ := e
    rw [List.filter_cons]
    split
    · rename_i hn
      have : ¬ k = k' := by intro hk; subst k'; simp [hp] at hn
      simp [Sparse.get, this, ih]
    · exact ih

/-- An entry put into a table is there. -/
theorem Table.get_put_same (m : List (Nat × α)) (k : Nat) (v : α) : Table.get (Table.put m k v) k = some v := by
  induction m with
  | nil => simp [Table.put, Table.get, Sparse.insert]
  | cons e m ih =>
    obtain ⟨k', v'⟩ := e
    simp only [Table.put, Table.get] at ih ⊢
    unfold Sparse.insert
    split
    · simp
    · split
      · simp
      · have : ¬ k' = k := by omega
        simp [this, ih]

/-- Putting an entry into a table leaves every other key alone. -/
theorem Table.get_put_other (m : List (Nat × α)) {k j : Nat} (v : α) (h : j ≠ k) :
    Table.get (Table.put m k v) j = Table.get m j := by
  induction m with
  | nil => simp [Table.put, Table.get, Sparse.insert, Ne.symm h]
  | cons e m ih =>
    obtain ⟨k', v'⟩ := e
    simp only [Table.put, Table.get] at ih ⊢
    unfold Sparse.insert
    split
    · simp [Ne.symm h]
    · split
      · subst k'; simp [Ne.symm h]
      · by_cases hk : k' = j
        · simp [hk]
        · simp [hk, ih]

/-- Taking an entry out of a table leaves every other key alone. -/
theorem Table.get_del_other (m : List (Nat × α)) {k j : Nat} (h : j ≠ k) : Table.get (Table.del m k) j = Table.get m j := by
  induction m with
  | nil => rfl
  | cons e m ih =>
    obtain ⟨k', v'⟩ := e
    simp only [Table.del, Table.get] at ih ⊢
    unfold Sparse.erase
    split
    · subst k'; simp [Ne.symm h]
    · by_cases hk : k' = j
      · simp [hk]
      · simp [hk, ih]

end Sys2Proof.Machine
end

