-- ==== Sys2Proof/Laws/Memory.lean ====
section
/-!
SUPPORT. Laws of the memories: bytes read as they were last written, a write leaves every byte outside its range alone, and every
memory operation keeps the canonical form.
-/

namespace Sys2Proof.Machine
open Sys2Proof

/-- The canonical form of a memory (the guide's Memory.wf). -/
abbrev Memory.wf (m : List (Nat × Byte)) : Bool := Sparse.wf (fun _ => (0 : Byte)) m

/-- Writing bytes keeps the canonical form. -/
theorem memWrite_wf (m : List (Nat × Byte)) (a : Nat) (bs : List Byte) (h : Memory.wf m = true) :
    Memory.wf (memWrite m a bs) = true := by
  induction bs generalizing m a with
  | nil => exact h
  | cons b bs ih => exact ih _ _ (Sparse.wf_set _ _ _ _ h)

/-- Writing bytes leaves every byte outside their range alone. -/
theorem memWrite_outside (m : List (Nat × Byte)) (a : Nat) (bs : List Byte) (x : Nat) (h : x < a ∨ a + bs.length ≤ x) :
    Sparse.get (fun _ => 0) (memWrite m a bs) x = Sparse.get (fun _ => 0) m x := by
  induction bs generalizing m a with
  | nil => rfl
  | cons b bs ih =>
    simp at h
    rw [memWrite, ih _ _ (by omega), Sparse.get_set_other _ _ _ (by omega)]

/-- Bytes read as they were written. -/
theorem memWrite_inside (m : List (Nat × Byte)) (a : Nat) (bs : List Byte) (i : Nat) (hi : i < bs.length)
    (h : Memory.wf m = true) : Sparse.get (fun _ => 0) (memWrite m a bs) (a + i) = bs[i] := by
  induction bs generalizing m a i with
  | nil => simp at hi
  | cons b bs ih =>
    have hw := Sparse.wf_set (fun _ => (0 : Byte)) m a b h
    cases i with
    | zero =>
      rw [memWrite, memWrite_outside _ _ _ _ (by omega)]
      exact Sparse.get_set_same _ _ _ _ h
    | succ i =>
      have e : a + (i + 1) = a + 1 + i := by omega
      simp at hi
      rw [memWrite, e, ih _ _ i hi hw]
      rfl

theorem State.byteAt_writeBytes_outside (s : State) (a : Nat) (bs : List Byte) (x : Nat) (h : x < a ∨ a + bs.length ≤ x) :
    (s.writeBytes a bs).byteAt x = s.byteAt x := memWrite_outside s.mem a bs x h

theorem State.byteAt_writeBytes_inside (s : State) (a : Nat) (bs : List Byte) (i : Nat) (hi : i < bs.length)
    (h : Memory.wf s.mem = true) : (s.writeBytes a bs).byteAt (a + i) = bs[i] := memWrite_inside s.mem a bs i hi h

/-- Bytes read back as they were written. -/
theorem State.readBytes_writeBytes_same (s : State) (a : Nat) (bs : List Byte) (h : Memory.wf s.mem = true) :
    (s.writeBytes a bs).readBytes a bs.length = bs := by
  apply List.ext_getElem
  · simp [State.readBytes]
  · intro i h1 h2
    simp only [State.readBytes, List.getElem_map, List.getElem_range]
    exact State.byteAt_writeBytes_inside s a bs i h2 h

/-- Bytes of a range that a write does not meet read as before. -/
theorem State.readBytes_writeBytes_apart (s : State) (a : Nat) (bs : List Byte) (x n : Nat)
    (h : x + n ≤ a ∨ a + bs.length ≤ x) : (s.writeBytes a bs).readBytes x n = s.readBytes x n := by
  unfold State.readBytes
  apply List.map_congr_left
  intro i hi
  simp at hi
  exact State.byteAt_writeBytes_outside s a bs (x + i) (by omega)

@[simp] theorem leBytes_length (n v : Nat) : (leBytes n v).length = n := by
  induction n generalizing v with
  | zero => rfl
  | succ n ih => simp [leBytes, ih]

/-- The bytes of a number spell it, modulo what they hold (R8). -/
theorem leNat_leBytes (n v : Nat) : leNat (leBytes n v) = v % 256 ^ n := by
  induction n generalizing v with
  | zero => simp [leBytes, leNat, Nat.mod_one]
  | succ n ih =>
    simp only [leBytes, leNat, ih, BitVec.toNat_ofNat]
    rw [show (2 : Nat) ^ 8 = 256 from rfl, Nat.pow_succ, Nat.mul_comm (256 ^ n) 256, Nat.mod_mul]

/-- A number reads back as it was written. -/
theorem State.readLe_writeLe_same (s : State) (a n v : Nat) (h : Memory.wf s.mem = true) :
    (s.writeLe a n v).readLe a n = v % 256 ^ n := by
  unfold State.readLe State.writeLe
  have := State.readBytes_writeBytes_same s a (leBytes n v) h
  rw [leBytes_length] at this
  rw [this, leNat_leBytes]

/-- A number of a range that a write does not meet reads as before. -/
theorem State.readLe_writeBytes_apart (s : State) (a : Nat) (bs : List Byte) (x n : Nat)
    (h : x + n ≤ a ∨ a + bs.length ≤ x) : (s.writeBytes a bs).readLe x n = s.readLe x n := by
  unfold State.readLe
  rw [State.readBytes_writeBytes_apart s a bs x n h]

/-- Clearing a range keeps the canonical form. -/
theorem State.clearRange_wf (s : State) (lo len : Nat) (h : Memory.wf s.mem = true) :
    Memory.wf (s.clearRange lo len).mem = true := Sparse.wf_filter _ _ _ h

/-- Every byte of a cleared range reads zero (R266). -/
theorem State.byteAt_clearRange_inside (s : State) (lo len a : Nat) (h : lo ≤ a) (h' : a < lo + len) :
    (s.clearRange lo len).byteAt a = 0 := by
  apply Sparse.get_filter_dropped
  intro v
  simp [h, h']

/-- Every byte outside a cleared range reads as before. -/
theorem State.byteAt_clearRange_outside (s : State) (lo len a : Nat) (h : a < lo ∨ lo + len ≤ a) :
    (s.clearRange lo len).byteAt a = s.byteAt a := by
  apply Sparse.get_filter_kept
  intro v
  simp
  omega

end Sys2Proof.Machine
end

