-- ==== Sys2Proof/Laws/Registers.lean ====
section
/-!
SUPPORT. Laws of the register file: no two register instances share a word, a register reads as it was last written, a write leaves
every other register alone, and the same for fields and for the log.
-/

namespace Sys2Proof.Machine
open Sys2Proof

/-- Whether the words of two registers lie apart. -/
def Reg.apart (r q : Reg) : Bool :=
  decide (r.offset / 4 + r.count ≤ q.offset / 4) || decide (q.offset / 4 + q.count ≤ r.offset / 4)

/-- Every register is listed. -/
theorem Reg.mem_all (r : Reg) : r ∈ Reg.all := by cases r <;> decide

/-- The words of the registers that `Reg.all` lists lie apart, one pair at a time. -/
theorem Reg.all_apart : (Reg.all.all fun r => Reg.all.all fun q => decide (r = q) || Reg.apart r q) = true := by
  decide

/-- No two register instances share a word (R435). -/
theorem Reg.key_inj {r q : Reg} {i j : Nat} (hi : i < r.count) (hj : j < q.count) (h : Reg.key r i = Reg.key q j) :
    r = q ∧ i = j := by
  have ha := Reg.all_apart
  rw [List.all_eq_true] at ha
  have hr := ha r (Reg.mem_all r)
  rw [List.all_eq_true] at hr
  have hq := hr q (Reg.mem_all q)
  unfold Reg.key at h
  by_cases e : r = q
  · subst e; exact ⟨rfl, by omega⟩
  · simp [e, Reg.apart] at hq; omega

/-- A register reads as it was last written. -/
theorem State.reg_setReg_same (s : State) (r : Reg) (i : Nat) (v : W32) (h : Sparse.wf regReset s.regs = true) :
    (s.setReg r i v).reg r i = v := Sparse.get_set_same _ _ _ _ h

/-- A write leaves every other register alone. -/
theorem State.reg_setReg_other (s : State) {r q : Reg} {i j : Nat} (v : W32) (hi : i < r.count) (hj : j < q.count)
    (h : ¬(q = r ∧ j = i)) : (s.setReg r i v).reg q j = s.reg q j := by
  apply Sparse.get_set_other
  intro e
  exact h (Reg.key_inj hj hi e)

/-- A register write keeps the canonical form of the register file. -/
theorem State.wf_setReg (s : State) (r : Reg) (i : Nat) (v : W32) (h : Sparse.wf regReset s.regs = true) :
    Sparse.wf regReset (s.setReg r i v).regs = true := Sparse.wf_set _ _ _ _ h

theorem bitsAt_lt (w lo n : Nat) : bitsAt w lo n < 2 ^ n := Nat.mod_lt _ (Nat.pos_of_ne_zero (by simp))

/-- A number is its three parts. -/
theorem bitsAt_split (w lo n : Nat) : w = w % 2 ^ lo + bitsAt w lo n * 2 ^ lo + w / 2 ^ (lo + n) * 2 ^ (lo + n) := by
  unfold bitsAt
  have h1 := Nat.div_add_mod w (2 ^ lo)
  have h2 := Nat.div_add_mod (w / 2 ^ lo) (2 ^ n)
  rw [Nat.pow_add, ← Nat.div_div_eq_div_mul]
  generalize w % 2 ^ lo = a at *
  generalize w / 2 ^ lo = b at *
  generalize b % 2 ^ n = c at *
  generalize b / 2 ^ n = d at *
  subst h2
  rw [← h1, Nat.mul_add]
  have : 2 ^ lo * (2 ^ n * d) = d * (2 ^ lo * 2 ^ n) := by
    rw [← Nat.mul_assoc, Nat.mul_comm]
  rw [this, Nat.mul_comm (2 ^ lo) c]
  omega

/-- Setting a field leaves the bits below and above it. -/
theorem setBits_eq (w lo n v : Nat) :
    setBits w lo n v = w % 2 ^ lo + (v % 2 ^ n) * 2 ^ lo + w / 2 ^ (lo + n) * 2 ^ (lo + n) := by
  have h := bitsAt_split w lo n
  have : w - bitsAt w lo n * 2 ^ lo = w % 2 ^ lo + w / 2 ^ (lo + n) * 2 ^ (lo + n) := by omega
  unfold setBits
  omega

/-- A field reads as it was last set. -/
theorem bitsAt_setBits_same (w lo n v : Nat) : bitsAt (setBits w lo n v) lo n = v % 2 ^ n := by
  rw [setBits_eq]
  have hp : 0 < 2 ^ lo := Nat.pos_of_ne_zero (by simp)
  have hx : w % 2 ^ lo < 2 ^ lo := Nat.mod_lt _ hp
  have e : w % 2 ^ lo + v % 2 ^ n * 2 ^ lo + w / 2 ^ (lo + n) * 2 ^ (lo + n)
      = w % 2 ^ lo + 2 ^ lo * (v % 2 ^ n + 2 ^ n * (w / 2 ^ (lo + n))) := by
    rw [Nat.pow_add, Nat.mul_add, Nat.mul_comm (2 ^ lo) (v % 2 ^ n), ← Nat.mul_assoc (2 ^ lo) (2 ^ n),
      Nat.mul_comm (w / (2 ^ lo * 2 ^ n)), Nat.add_assoc]
  unfold bitsAt
  rw [e, Nat.add_mul_div_left _ _ hp, Nat.div_eq_of_lt hx, Nat.zero_add, Nat.add_mul_mod_self_left, Nat.mod_mod]

/-- A field below or above the one set reads as before. -/
theorem bitsAt_setBits_other (w lo n v lo' n' : Nat) (h : lo' + n' ≤ lo ∨ lo + n ≤ lo') :
    bitsAt (setBits w lo n v) lo' n' = bitsAt w lo' n' := by
  have tb : ∀ x i, (bitsAt x lo' n').testBit i = (decide (i < n') && x.testBit (lo' + i)) := by
    intro x i
    unfold bitsAt
    rw [Nat.testBit_mod_two_pow, Nat.testBit_div_two_pow, Nat.add_comm i lo']
  apply Nat.eq_of_testBit_eq
  intro i
  rw [tb, tb]
  by_cases hi : i < n'
  · simp only [hi, decide_true, Bool.true_and]
    rcases h with h | h
    · have hlt : lo' + i < lo := by omega
      have e1 : (setBits w lo n v) % 2 ^ lo = w % 2 ^ lo := by
        rw [setBits_eq, Nat.pow_add]
        have : w % 2 ^ lo + v % 2 ^ n * 2 ^ lo + w / (2 ^ lo * 2 ^ n) * (2 ^ lo * 2 ^ n)
            = w % 2 ^ lo + 2 ^ lo * (v % 2 ^ n + w / (2 ^ lo * 2 ^ n) * 2 ^ n) := by
          rw [Nat.mul_add, Nat.mul_comm (2 ^ lo) (v % 2 ^ n)]
          have : w / (2 ^ lo * 2 ^ n) * (2 ^ lo * 2 ^ n) = 2 ^ lo * (w / (2 ^ lo * 2 ^ n) * 2 ^ n) := by
            rw [Nat.mul_comm (2 ^ lo) (w / (2 ^ lo * 2 ^ n) * 2 ^ n), Nat.mul_assoc, Nat.mul_comm (2 ^ n)]
          omega
        rw [this, Nat.add_mul_mod_self_left, Nat.mod_mod]
      have := congrArg (fun x => x.testBit (lo' + i)) e1
      simpa [Nat.testBit_mod_two_pow, hlt] using this
    · have e1 : (setBits w lo n v) / 2 ^ (lo + n) = w / 2 ^ (lo + n) := by
        rw [setBits_eq]
        have hb : w % 2 ^ lo + v % 2 ^ n * 2 ^ lo < 2 ^ (lo + n) := by
          have h1 : w % 2 ^ lo < 2 ^ lo := Nat.mod_lt _ (Nat.pos_of_ne_zero (by simp))
          have h2 : v % 2 ^ n < 2 ^ n := Nat.mod_lt _ (Nat.pos_of_ne_zero (by simp))
          have h3 : (v % 2 ^ n + 1) * 2 ^ lo ≤ 2 ^ n * 2 ^ lo := Nat.mul_le_mul_right _ h2
          rw [Nat.add_mul, Nat.one_mul] at h3
          rw [Nat.pow_add, Nat.mul_comm (2 ^ lo)]
          omega
        rw [Nat.add_mul_div_right _ _ (Nat.pos_of_ne_zero (by simp)), Nat.div_eq_of_lt hb, Nat.zero_add]
      have := congrArg (fun x => x.testBit (lo' + i - (lo + n))) e1
      simp only [Nat.testBit_div_two_pow] at this
      have e2 : lo' + i - (lo + n) + (lo + n) = lo' + i := by omega
      rwa [e2] at this
  · simp [hi]

/-- Reading a field of a number stored in a word. -/
theorem bitsAt_ofNat (w lo n : Nat) (h : lo + n ≤ 32) : bitsAt (BitVec.ofNat 32 w).toNat lo n = bitsAt w lo n := by
  apply Nat.eq_of_testBit_eq
  intro i
  unfold bitsAt
  rw [Nat.testBit_mod_two_pow, Nat.testBit_mod_two_pow, Nat.testBit_div_two_pow, Nat.testBit_div_two_pow,
    BitVec.toNat_ofNat, Nat.testBit_mod_two_pow]
  by_cases hi : i < n
  · have : i + lo < 32 := by omega
    simp [hi, this]
  · simp [hi]

/-- A field of a register reads as it was last set. -/
theorem State.fld_setFld_same (s : State) (f : Fld) (i v : Nat) (h : Sparse.wf regReset s.regs = true)
    (hf : f.lo + f.width ≤ 32) : (s.setFld f i v).fld f i = v % 2 ^ f.width := by
  unfold State.fld State.setFld
  rw [State.reg_setReg_same _ _ _ _ h, bitsAt_ofNat _ _ _ hf, bitsAt_setBits_same]

/-- Setting a field leaves the other fields of its register. -/
theorem State.fld_setFld_beside (s : State) (f g : Fld) (i v : Nat) (h : Sparse.wf regReset s.regs = true) (hr : g.reg = f.reg)
    (hg : g.lo + g.width ≤ 32) (hd : g.lo + g.width ≤ f.lo ∨ f.lo + f.width ≤ g.lo) :
    (s.setFld f i v).fld g i = s.fld g i := by
  unfold State.fld State.setFld
  rw [hr, State.reg_setReg_same _ _ _ _ h, bitsAt_ofNat _ _ _ hg, bitsAt_setBits_other _ _ _ _ _ _ hd]

/-- Setting a field leaves every other register. -/
theorem State.reg_setFld_other (s : State) (f : Fld) {q : Reg} {i j : Nat} (v : Nat) (hi : i < f.reg.count)
    (hj : j < q.count) (h : ¬(q = f.reg ∧ j = i)) : (s.setFld f i v).reg q j = s.reg q j :=
  State.reg_setReg_other s _ hi hj h

theorem State.wf_setFld (s : State) (f : Fld) (i v : Nat) (h : Sparse.wf regReset s.regs = true) :
    Sparse.wf regReset (s.setFld f i v).regs = true := State.wf_setReg _ _ _ _ h

end Sys2Proof.Machine
end

