-- ==== Sys2Proof/Laws/State.lean ====
section
/-!
SUPPORT. One lemma per field per update of the state: what a named update leaves as it was. Proofs cite these and unfold no record
update.
-/

namespace Sys2Proof.Machine
open Sys2Proof

@[simp] theorem State.mem_setReg (s : State) (r : Reg) (i : Nat) (v : W32) : (s.setReg r i v).mem = s.mem := rfl
@[simp] theorem State.hostMem_setReg (s : State) (r : Reg) (i : Nat) (v : W32) : (s.setReg r i v).hostMem = s.hostMem := rfl
@[simp] theorem State.poison_setReg (s : State) (r : Reg) (i : Nat) (v : W32) : (s.setReg r i v).poison = s.poison := rfl
@[simp] theorem State.cells_setReg (s : State) (r : Reg) (i : Nat) (v : W32) : (s.setReg r i v).cells = s.cells := rfl
@[simp] theorem State.blocks_setReg (s : State) (r : Reg) (i : Nat) (v : W32) : (s.setReg r i v).blocks = s.blocks := rfl
@[simp] theorem State.tasks_setReg (s : State) (r : Reg) (i : Nat) (v : W32) : (s.setReg r i v).tasks = s.tasks := rfl
@[simp] theorem State.taskSeq_setReg (s : State) (r : Reg) (i : Nat) (v : W32) : (s.setReg r i v).taskSeq = s.taskSeq := rfl
@[simp] theorem State.streams_setReg (s : State) (r : Reg) (i : Nat) (v : W32) : (s.setReg r i v).streams = s.streams := rfl
@[simp] theorem State.armSeq_setReg (s : State) (r : Reg) (i : Nat) (v : W32) : (s.setReg r i v).armSeq = s.armSeq := rfl
@[simp] theorem State.resetsRun_setReg (s : State) (r : Reg) (i : Nat) (v : W32) : (s.setReg r i v).resetsRun = s.resetsRun := rfl
@[simp] theorem State.harts_setReg (s : State) (r : Reg) (i : Nat) (v : W32) : (s.setReg r i v).harts = s.harts := rfl
@[simp] theorem State.clock_setReg (s : State) (r : Reg) (i : Nat) (v : W32) : (s.setReg r i v).clock = s.clock := rfl
@[simp] theorem State.hubTurn_setReg (s : State) (r : Reg) (i : Nat) (v : W32) : (s.setReg r i v).hubTurn = s.hubTurn := rfl
@[simp] theorem State.hubLeft_setReg (s : State) (r : Reg) (i : Nat) (v : W32) : (s.setReg r i v).hubLeft = s.hubLeft := rfl
@[simp] theorem State.pressed_setReg (s : State) (r : Reg) (i : Nat) (v : W32) : (s.setReg r i v).pressed = s.pressed := rfl
@[simp] theorem State.domainCounts_setReg (s : State) (r : Reg) (i : Nat) (v : W32) : (s.setReg r i v).domainCounts = s.domainCounts := rfl
@[simp] theorem State.events_setReg (s : State) (r : Reg) (i : Nat) (v : W32) : (s.setReg r i v).events = s.events := rfl
@[simp] theorem State.eventSeq_setReg (s : State) (r : Reg) (i : Nat) (v : W32) : (s.setReg r i v).eventSeq = s.eventSeq := rfl
@[simp] theorem State.sync_setReg (s : State) (r : Reg) (i : Nat) (v : W32) : (s.setReg r i v).sync = s.sync := rfl
@[simp] theorem State.scrub_setReg (s : State) (r : Reg) (i : Nat) (v : W32) : (s.setReg r i v).scrub = s.scrub := rfl
@[simp] theorem State.resets_setReg (s : State) (r : Reg) (i : Nat) (v : W32) : (s.setReg r i v).resets = s.resets := rfl
@[simp] theorem State.log_setReg (s : State) (r : Reg) (i : Nat) (v : W32) : (s.setReg r i v).log = s.log := rfl
@[simp] theorem State.logSeq_setReg (s : State) (r : Reg) (i : Nat) (v : W32) : (s.setReg r i v).logSeq = s.logSeq := rfl
@[simp] theorem State.sundial_setReg (s : State) (r : Reg) (i : Nat) (v : W32) : (s.setReg r i v).sundial = s.sundial := rfl
@[simp] theorem State.phase_setReg (s : State) (r : Reg) (i : Nat) (v : W32) : (s.setReg r i v).phase = s.phase := rfl
@[simp] theorem State.slew_setReg (s : State) (r : Reg) (i : Nat) (v : W32) : (s.setReg r i v).slew = s.slew := rfl
@[simp] theorem State.slewTick_setReg (s : State) (r : Reg) (i : Nat) (v : W32) : (s.setReg r i v).slewTick = s.slewTick := rfl
@[simp] theorem State.latch_setReg (s : State) (r : Reg) (i : Nat) (v : W32) : (s.setReg r i v).latch = s.latch := rfl
@[simp] theorem State.free_setReg (s : State) (r : Reg) (i : Nat) (v : W32) : (s.setReg r i v).free = s.free := rfl
@[simp] theorem State.pending_setReg (s : State) (r : Reg) (i : Nat) (v : W32) : (s.setReg r i v).pending = s.pending := rfl
@[simp] theorem State.plots_setReg (s : State) (r : Reg) (i : Nat) (v : W32) : (s.setReg r i v).plots = s.plots := rfl
@[simp] theorem State.pools_setReg (s : State) (r : Reg) (i : Nat) (v : W32) : (s.setReg r i v).pools = s.pools := rfl
@[simp] theorem State.frames_setReg (s : State) (r : Reg) (i : Nat) (v : W32) : (s.setReg r i v).frames = s.frames := rfl
@[simp] theorem State.seqs_setReg (s : State) (r : Reg) (i : Nat) (v : W32) : (s.setReg r i v).seqs = s.seqs := rfl
@[simp] theorem State.journal_setReg (s : State) (r : Reg) (i : Nat) (v : W32) : (s.setReg r i v).journal = s.journal := rfl
@[simp] theorem State.batches_setReg (s : State) (r : Reg) (i : Nat) (v : W32) : (s.setReg r i v).batches = s.batches := rfl
@[simp] theorem State.draining_setReg (s : State) (r : Reg) (i : Nat) (v : W32) : (s.setReg r i v).draining = s.draining := rfl
@[simp] theorem State.kvmTurn_setReg (s : State) (r : Reg) (i : Nat) (v : W32) : (s.setReg r i v).kvmTurn = s.kvmTurn := rfl
@[simp] theorem State.kvmOwed_setReg (s : State) (r : Reg) (i : Nat) (v : W32) : (s.setReg r i v).kvmOwed = s.kvmOwed := rfl
@[simp] theorem State.kvmSeq_setReg (s : State) (r : Reg) (i : Nat) (v : W32) : (s.setReg r i v).kvmSeq = s.kvmSeq := rfl
@[simp] theorem State.admTurn_setReg (s : State) (r : Reg) (i : Nat) (v : W32) : (s.setReg r i v).admTurn = s.admTurn := rfl
@[simp] theorem State.out_setReg (s : State) (r : Reg) (i : Nat) (v : W32) : (s.setReg r i v).out = s.out := rfl
@[simp] theorem State.reqs_setReg (s : State) (r : Reg) (i : Nat) (v : W32) : (s.setReg r i v).reqs = s.reqs := rfl
@[simp] theorem State.msgTag_setReg (s : State) (r : Reg) (i : Nat) (v : W32) : (s.setReg r i v).msgTag = s.msgTag := rfl
@[simp] theorem State.eccReports_setReg (s : State) (r : Reg) (i : Nat) (v : W32) : (s.setReg r i v).eccReports = s.eccReports := rfl
@[simp] theorem State.rdata_setReg (s : State) (r : Reg) (i : Nat) (v : W32) : (s.setReg r i v).rdata = s.rdata := rfl
@[simp] theorem State.rootChip_setReg (s : State) (r : Reg) (i : Nat) (v : W32) : (s.setReg r i v).rootChip = s.rootChip := rfl
@[simp] theorem State.peerHandles_setReg (s : State) (r : Reg) (i : Nat) (v : W32) : (s.setReg r i v).peerHandles = s.peerHandles := rfl
@[simp] theorem State.moveSeq_setReg (s : State) (r : Reg) (i : Nat) (v : W32) : (s.setReg r i v).moveSeq = s.moveSeq := rfl
@[simp] theorem State.walks_setReg (s : State) (r : Reg) (i : Nat) (v : W32) : (s.setReg r i v).walks = s.walks := rfl
@[simp] theorem State.signing_setReg (s : State) (r : Reg) (i : Nat) (v : W32) : (s.setReg r i v).signing = s.signing := rfl
@[simp] theorem State.indexes_setReg (s : State) (r : Reg) (i : Nat) (v : W32) : (s.setReg r i v).indexes = s.indexes := rfl
@[simp] theorem State.rbatches_setReg (s : State) (r : Reg) (i : Nat) (v : W32) : (s.setReg r i v).rbatches = s.rbatches := rfl
@[simp] theorem State.rbatchSeq_setReg (s : State) (r : Reg) (i : Nat) (v : W32) : (s.setReg r i v).rbatchSeq = s.rbatchSeq := rfl
@[simp] theorem State.groups_setReg (s : State) (r : Reg) (i : Nat) (v : W32) : (s.setReg r i v).groups = s.groups := rfl
@[simp] theorem State.colGroups_setReg (s : State) (r : Reg) (i : Nat) (v : W32) : (s.setReg r i v).colGroups = s.colGroups := rfl
@[simp] theorem State.chains_setReg (s : State) (r : Reg) (i : Nat) (v : W32) : (s.setReg r i v).chains = s.chains := rfl
@[simp] theorem State.ops_setReg (s : State) (r : Reg) (i : Nat) (v : W32) : (s.setReg r i v).ops = s.ops := rfl
@[simp] theorem State.opSeq_setReg (s : State) (r : Reg) (i : Nat) (v : W32) : (s.setReg r i v).opSeq = s.opSeq := rfl
@[simp] theorem State.colIn_setReg (s : State) (r : Reg) (i : Nat) (v : W32) : (s.setReg r i v).colIn = s.colIn := rfl
@[simp] theorem State.colSteps_setReg (s : State) (r : Reg) (i : Nat) (v : W32) : (s.setReg r i v).colSteps = s.colSteps := rfl
@[simp] theorem State.lostDrains_setReg (s : State) (r : Reg) (i : Nat) (v : W32) : (s.setReg r i v).lostDrains = s.lostDrains := rfl
@[simp] theorem State.peers_setReg (s : State) (r : Reg) (i : Nat) (v : W32) : (s.setReg r i v).peers = s.peers := rfl
@[simp] theorem State.conns_setReg (s : State) (r : Reg) (i : Nat) (v : W32) : (s.setReg r i v).conns = s.conns := rfl
@[simp] theorem State.phys_setReg (s : State) (r : Reg) (i : Nat) (v : W32) : (s.setReg r i v).phys = s.phys := rfl
@[simp] theorem State.discovering_setReg (s : State) (r : Reg) (i : Nat) (v : W32) : (s.setReg r i v).discovering = s.discovering := rfl
@[simp] theorem State.configHash_setReg (s : State) (r : Reg) (i : Nat) (v : W32) : (s.setReg r i v).configHash = s.configHash := rfl
@[simp] theorem State.hall_setReg (s : State) (r : Reg) (i : Nat) (v : W32) : (s.setReg r i v).hall = s.hall := rfl
@[simp] theorem State.syncMap_setReg (s : State) (r : Reg) (i : Nat) (v : W32) : (s.setReg r i v).syncMap = s.syncMap := rfl
@[simp] theorem State.defaultRack_setReg (s : State) (r : Reg) (i : Nat) (v : W32) : (s.setReg r i v).defaultRack = s.defaultRack := rfl
@[simp] theorem State.hubHeld_setReg (s : State) (r : Reg) (i : Nat) (v : W32) : (s.setReg r i v).hubHeld = s.hubHeld := rfl
@[simp] theorem State.linkMap_setReg (s : State) (r : Reg) (i : Nat) (v : W32) : (s.setReg r i v).linkMap = s.linkMap := rfl
@[simp] theorem State.ptpPort_setReg (s : State) (r : Reg) (i : Nat) (v : W32) : (s.setReg r i v).ptpPort = s.ptpPort := rfl
@[simp] theorem State.ptpDomain_setReg (s : State) (r : Reg) (i : Nat) (v : W32) : (s.setReg r i v).ptpDomain = s.ptpDomain := rfl
@[simp] theorem State.storeUpset_setReg (s : State) (r : Reg) (i : Nat) (v : W32) : (s.setReg r i v).storeUpset = s.storeUpset := rfl
@[simp] theorem State.scanStart_setReg (s : State) (r : Reg) (i : Nat) (v : W32) : (s.setReg r i v).scanStart = s.scanStart := rfl
@[simp] theorem State.shiftBook_setReg (s : State) (r : Reg) (i : Nat) (v : W32) : (s.setReg r i v).shiftBook = s.shiftBook := rfl
@[simp] theorem State.endedTasks_setReg (s : State) (r : Reg) (i : Nat) (v : W32) : (s.setReg r i v).endedTasks = s.endedTasks := rfl
@[simp] theorem State.pcieGen_setReg (s : State) (r : Reg) (i : Nat) (v : W32) : (s.setReg r i v).pcieGen = s.pcieGen := rfl
@[simp] theorem State.pcieLanes_setReg (s : State) (r : Reg) (i : Nat) (v : W32) : (s.setReg r i v).pcieLanes = s.pcieLanes := rfl
@[simp] theorem State.ptp_setReg (s : State) (r : Reg) (i : Nat) (v : W32) : (s.setReg r i v).ptp = s.ptp := rfl
@[simp] theorem State.logFloor_setReg (s : State) (r : Reg) (i : Nat) (v : W32) : (s.setReg r i v).logFloor = s.logFloor := rfl
@[simp] theorem State.harvest_setReg (s : State) (r : Reg) (i : Nat) (v : W32) : (s.setReg r i v).harvest = s.harvest := rfl
@[simp] theorem State.harvestSeq_setReg (s : State) (r : Reg) (i : Nat) (v : W32) : (s.setReg r i v).harvestSeq = s.harvestSeq := rfl
@[simp] theorem State.boot_setReg (s : State) (r : Reg) (i : Nat) (v : W32) : (s.setReg r i v).boot = s.boot := rfl
@[simp] theorem State.safety_setReg (s : State) (r : Reg) (i : Nat) (v : W32) : (s.setReg r i v).safety = s.safety := rfl
@[simp] theorem State.ptpUse_setReg (s : State) (r : Reg) (i : Nat) (v : W32) : (s.setReg r i v).ptpUse = s.ptpUse := rfl
@[simp] theorem State.portAddr_setReg (s : State) (r : Reg) (i : Nat) (v : W32) : (s.setReg r i v).portAddr = s.portAddr := rfl
@[simp] theorem State.perf_setReg (s : State) (r : Reg) (i : Nat) (v : W32) : (s.setReg r i v).perf = s.perf := rfl
@[simp] theorem State.regionCounts_setReg (s : State) (r : Reg) (i : Nat) (v : W32) : (s.setReg r i v).domainCounts = s.domainCounts := rfl
@[simp] theorem State.chipCounts_setReg (s : State) (r : Reg) (i : Nat) (v : W32) : (s.setReg r i v).chipCounts = s.chipCounts := rfl
@[simp] theorem State.replay_setReg (s : State) (r : Reg) (i : Nat) (v : W32) : (s.setReg r i v).replay = s.replay := rfl
@[simp] theorem State.chipWait_setReg (s : State) (r : Reg) (i : Nat) (v : W32) : (s.setReg r i v).chipWait = s.chipWait := rfl
@[simp] theorem State.hubLost_setReg (s : State) (r : Reg) (i : Nat) (v : W32) : (s.setReg r i v).hubLost = s.hubLost := rfl
@[simp] theorem State.pcieLost_setReg (s : State) (r : Reg) (i : Nat) (v : W32) : (s.setReg r i v).pcieLost = s.pcieLost := rfl
@[simp] theorem State.halted_setReg (s : State) (r : Reg) (i : Nat) (v : W32) : (s.setReg r i v).halted = s.halted := rfl
@[simp] theorem State.coolSince_setReg (s : State) (r : Reg) (i : Nat) (v : W32) : (s.setReg r i v).coolSince = s.coolSince := rfl
@[simp] theorem State.governors_setReg (s : State) (r : Reg) (i : Nat) (v : W32) : (s.setReg r i v).governors = s.governors := rfl
@[simp] theorem State.excursion_setReg (s : State) (r : Reg) (i : Nat) (v : W32) : (s.setReg r i v).excursion = s.excursion := rfl
@[simp] theorem State.droopTick_setReg (s : State) (r : Reg) (i : Nat) (v : W32) : (s.setReg r i v).droopTick = s.droopTick := rfl
@[simp] theorem State.heartPin_setReg (s : State) (r : Reg) (i : Nat) (v : W32) : (s.setReg r i v).heartPin = s.heartPin := rfl
@[simp] theorem State.beatPin_setReg (s : State) (r : Reg) (i : Nat) (v : W32) : (s.setReg r i v).beatPin = s.beatPin := rfl
@[simp] theorem State.alertFrom_setReg (s : State) (r : Reg) (i : Nat) (v : W32) : (s.setReg r i v).alertFrom = s.alertFrom := rfl
@[simp] theorem State.admWait_setReg (s : State) (r : Reg) (i : Nat) (v : W32) : (s.setReg r i v).admWait = s.admWait := rfl
@[simp] theorem State.mainLost_setReg (s : State) (r : Reg) (i : Nat) (v : W32) : (s.setReg r i v).mainLost = s.mainLost := rfl
@[simp] theorem State.cooling_setReg (s : State) (r : Reg) (i : Nat) (v : W32) : (s.setReg r i v).cooling = s.cooling := rfl
@[simp] theorem State.privLocked_setReg (s : State) (r : Reg) (i : Nat) (v : W32) : (s.setReg r i v).privLocked = s.privLocked := rfl

@[simp] theorem State.mem_setFld (s : State) (f : Fld) (i v : Nat) : (s.setFld f i v).mem = s.mem := rfl
@[simp] theorem State.hostMem_setFld (s : State) (f : Fld) (i v : Nat) : (s.setFld f i v).hostMem = s.hostMem := rfl
@[simp] theorem State.poison_setFld (s : State) (f : Fld) (i v : Nat) : (s.setFld f i v).poison = s.poison := rfl
@[simp] theorem State.cells_setFld (s : State) (f : Fld) (i v : Nat) : (s.setFld f i v).cells = s.cells := rfl
@[simp] theorem State.blocks_setFld (s : State) (f : Fld) (i v : Nat) : (s.setFld f i v).blocks = s.blocks := rfl
@[simp] theorem State.tasks_setFld (s : State) (f : Fld) (i v : Nat) : (s.setFld f i v).tasks = s.tasks := rfl
@[simp] theorem State.taskSeq_setFld (s : State) (f : Fld) (i v : Nat) : (s.setFld f i v).taskSeq = s.taskSeq := rfl
@[simp] theorem State.streams_setFld (s : State) (f : Fld) (i v : Nat) : (s.setFld f i v).streams = s.streams := rfl
@[simp] theorem State.armSeq_setFld (s : State) (f : Fld) (i v : Nat) : (s.setFld f i v).armSeq = s.armSeq := rfl
@[simp] theorem State.resetsRun_setFld (s : State) (f : Fld) (i v : Nat) : (s.setFld f i v).resetsRun = s.resetsRun := rfl
@[simp] theorem State.harts_setFld (s : State) (f : Fld) (i v : Nat) : (s.setFld f i v).harts = s.harts := rfl
@[simp] theorem State.clock_setFld (s : State) (f : Fld) (i v : Nat) : (s.setFld f i v).clock = s.clock := rfl
@[simp] theorem State.hubTurn_setFld (s : State) (f : Fld) (i v : Nat) : (s.setFld f i v).hubTurn = s.hubTurn := rfl
@[simp] theorem State.hubLeft_setFld (s : State) (f : Fld) (i v : Nat) : (s.setFld f i v).hubLeft = s.hubLeft := rfl
@[simp] theorem State.pressed_setFld (s : State) (f : Fld) (i v : Nat) : (s.setFld f i v).pressed = s.pressed := rfl
@[simp] theorem State.domainCounts_setFld (s : State) (f : Fld) (i v : Nat) : (s.setFld f i v).domainCounts = s.domainCounts := rfl
@[simp] theorem State.events_setFld (s : State) (f : Fld) (i v : Nat) : (s.setFld f i v).events = s.events := rfl
@[simp] theorem State.eventSeq_setFld (s : State) (f : Fld) (i v : Nat) : (s.setFld f i v).eventSeq = s.eventSeq := rfl
@[simp] theorem State.sync_setFld (s : State) (f : Fld) (i v : Nat) : (s.setFld f i v).sync = s.sync := rfl
@[simp] theorem State.scrub_setFld (s : State) (f : Fld) (i v : Nat) : (s.setFld f i v).scrub = s.scrub := rfl
@[simp] theorem State.resets_setFld (s : State) (f : Fld) (i v : Nat) : (s.setFld f i v).resets = s.resets := rfl
@[simp] theorem State.log_setFld (s : State) (f : Fld) (i v : Nat) : (s.setFld f i v).log = s.log := rfl
@[simp] theorem State.logSeq_setFld (s : State) (f : Fld) (i v : Nat) : (s.setFld f i v).logSeq = s.logSeq := rfl
@[simp] theorem State.sundial_setFld (s : State) (f : Fld) (i v : Nat) : (s.setFld f i v).sundial = s.sundial := rfl
@[simp] theorem State.phase_setFld (s : State) (f : Fld) (i v : Nat) : (s.setFld f i v).phase = s.phase := rfl
@[simp] theorem State.slew_setFld (s : State) (f : Fld) (i v : Nat) : (s.setFld f i v).slew = s.slew := rfl
@[simp] theorem State.slewTick_setFld (s : State) (f : Fld) (i v : Nat) : (s.setFld f i v).slewTick = s.slewTick := rfl
@[simp] theorem State.latch_setFld (s : State) (f : Fld) (i v : Nat) : (s.setFld f i v).latch = s.latch := rfl
@[simp] theorem State.free_setFld (s : State) (f : Fld) (i v : Nat) : (s.setFld f i v).free = s.free := rfl
@[simp] theorem State.pending_setFld (s : State) (f : Fld) (i v : Nat) : (s.setFld f i v).pending = s.pending := rfl
@[simp] theorem State.plots_setFld (s : State) (f : Fld) (i v : Nat) : (s.setFld f i v).plots = s.plots := rfl
@[simp] theorem State.pools_setFld (s : State) (f : Fld) (i v : Nat) : (s.setFld f i v).pools = s.pools := rfl
@[simp] theorem State.frames_setFld (s : State) (f : Fld) (i v : Nat) : (s.setFld f i v).frames = s.frames := rfl
@[simp] theorem State.seqs_setFld (s : State) (f : Fld) (i v : Nat) : (s.setFld f i v).seqs = s.seqs := rfl
@[simp] theorem State.journal_setFld (s : State) (f : Fld) (i v : Nat) : (s.setFld f i v).journal = s.journal := rfl
@[simp] theorem State.batches_setFld (s : State) (f : Fld) (i v : Nat) : (s.setFld f i v).batches = s.batches := rfl
@[simp] theorem State.draining_setFld (s : State) (f : Fld) (i v : Nat) : (s.setFld f i v).draining = s.draining := rfl
@[simp] theorem State.kvmTurn_setFld (s : State) (f : Fld) (i v : Nat) : (s.setFld f i v).kvmTurn = s.kvmTurn := rfl
@[simp] theorem State.kvmOwed_setFld (s : State) (f : Fld) (i v : Nat) : (s.setFld f i v).kvmOwed = s.kvmOwed := rfl
@[simp] theorem State.kvmSeq_setFld (s : State) (f : Fld) (i v : Nat) : (s.setFld f i v).kvmSeq = s.kvmSeq := rfl
@[simp] theorem State.admTurn_setFld (s : State) (f : Fld) (i v : Nat) : (s.setFld f i v).admTurn = s.admTurn := rfl
@[simp] theorem State.out_setFld (s : State) (f : Fld) (i v : Nat) : (s.setFld f i v).out = s.out := rfl
@[simp] theorem State.reqs_setFld (s : State) (f : Fld) (i v : Nat) : (s.setFld f i v).reqs = s.reqs := rfl
@[simp] theorem State.msgTag_setFld (s : State) (f : Fld) (i v : Nat) : (s.setFld f i v).msgTag = s.msgTag := rfl
@[simp] theorem State.eccReports_setFld (s : State) (f : Fld) (i v : Nat) : (s.setFld f i v).eccReports = s.eccReports := rfl
@[simp] theorem State.rdata_setFld (s : State) (f : Fld) (i v : Nat) : (s.setFld f i v).rdata = s.rdata := rfl
@[simp] theorem State.rootChip_setFld (s : State) (f : Fld) (i v : Nat) : (s.setFld f i v).rootChip = s.rootChip := rfl
@[simp] theorem State.peerHandles_setFld (s : State) (f : Fld) (i v : Nat) : (s.setFld f i v).peerHandles = s.peerHandles := rfl
@[simp] theorem State.moveSeq_setFld (s : State) (f : Fld) (i v : Nat) : (s.setFld f i v).moveSeq = s.moveSeq := rfl
@[simp] theorem State.walks_setFld (s : State) (f : Fld) (i v : Nat) : (s.setFld f i v).walks = s.walks := rfl
@[simp] theorem State.signing_setFld (s : State) (f : Fld) (i v : Nat) : (s.setFld f i v).signing = s.signing := rfl
@[simp] theorem State.indexes_setFld (s : State) (f : Fld) (i v : Nat) : (s.setFld f i v).indexes = s.indexes := rfl
@[simp] theorem State.rbatches_setFld (s : State) (f : Fld) (i v : Nat) : (s.setFld f i v).rbatches = s.rbatches := rfl
@[simp] theorem State.rbatchSeq_setFld (s : State) (f : Fld) (i v : Nat) : (s.setFld f i v).rbatchSeq = s.rbatchSeq := rfl
@[simp] theorem State.groups_setFld (s : State) (f : Fld) (i v : Nat) : (s.setFld f i v).groups = s.groups := rfl
@[simp] theorem State.colGroups_setFld (s : State) (f : Fld) (i v : Nat) : (s.setFld f i v).colGroups = s.colGroups := rfl
@[simp] theorem State.chains_setFld (s : State) (f : Fld) (i v : Nat) : (s.setFld f i v).chains = s.chains := rfl
@[simp] theorem State.ops_setFld (s : State) (f : Fld) (i v : Nat) : (s.setFld f i v).ops = s.ops := rfl
@[simp] theorem State.opSeq_setFld (s : State) (f : Fld) (i v : Nat) : (s.setFld f i v).opSeq = s.opSeq := rfl
@[simp] theorem State.colIn_setFld (s : State) (f : Fld) (i v : Nat) : (s.setFld f i v).colIn = s.colIn := rfl
@[simp] theorem State.colSteps_setFld (s : State) (f : Fld) (i v : Nat) : (s.setFld f i v).colSteps = s.colSteps := rfl
@[simp] theorem State.lostDrains_setFld (s : State) (f : Fld) (i v : Nat) : (s.setFld f i v).lostDrains = s.lostDrains := rfl
@[simp] theorem State.peers_setFld (s : State) (f : Fld) (i v : Nat) : (s.setFld f i v).peers = s.peers := rfl
@[simp] theorem State.conns_setFld (s : State) (f : Fld) (i v : Nat) : (s.setFld f i v).conns = s.conns := rfl
@[simp] theorem State.phys_setFld (s : State) (f : Fld) (i v : Nat) : (s.setFld f i v).phys = s.phys := rfl
@[simp] theorem State.discovering_setFld (s : State) (f : Fld) (i v : Nat) : (s.setFld f i v).discovering = s.discovering := rfl
@[simp] theorem State.configHash_setFld (s : State) (f : Fld) (i v : Nat) : (s.setFld f i v).configHash = s.configHash := rfl
@[simp] theorem State.hall_setFld (s : State) (f : Fld) (i v : Nat) : (s.setFld f i v).hall = s.hall := rfl
@[simp] theorem State.syncMap_setFld (s : State) (f : Fld) (i v : Nat) : (s.setFld f i v).syncMap = s.syncMap := rfl
@[simp] theorem State.defaultRack_setFld (s : State) (f : Fld) (i v : Nat) : (s.setFld f i v).defaultRack = s.defaultRack := rfl
@[simp] theorem State.hubHeld_setFld (s : State) (f : Fld) (i v : Nat) : (s.setFld f i v).hubHeld = s.hubHeld := rfl
@[simp] theorem State.linkMap_setFld (s : State) (f : Fld) (i v : Nat) : (s.setFld f i v).linkMap = s.linkMap := rfl
@[simp] theorem State.ptpPort_setFld (s : State) (f : Fld) (i v : Nat) : (s.setFld f i v).ptpPort = s.ptpPort := rfl
@[simp] theorem State.ptpDomain_setFld (s : State) (f : Fld) (i v : Nat) : (s.setFld f i v).ptpDomain = s.ptpDomain := rfl
@[simp] theorem State.storeUpset_setFld (s : State) (f : Fld) (i v : Nat) : (s.setFld f i v).storeUpset = s.storeUpset := rfl
@[simp] theorem State.scanStart_setFld (s : State) (f : Fld) (i v : Nat) : (s.setFld f i v).scanStart = s.scanStart := rfl
@[simp] theorem State.shiftBook_setFld (s : State) (f : Fld) (i v : Nat) : (s.setFld f i v).shiftBook = s.shiftBook := rfl
@[simp] theorem State.endedTasks_setFld (s : State) (f : Fld) (i v : Nat) : (s.setFld f i v).endedTasks = s.endedTasks := rfl
@[simp] theorem State.pcieGen_setFld (s : State) (f : Fld) (i v : Nat) : (s.setFld f i v).pcieGen = s.pcieGen := rfl
@[simp] theorem State.pcieLanes_setFld (s : State) (f : Fld) (i v : Nat) : (s.setFld f i v).pcieLanes = s.pcieLanes := rfl
@[simp] theorem State.ptp_setFld (s : State) (f : Fld) (i v : Nat) : (s.setFld f i v).ptp = s.ptp := rfl
@[simp] theorem State.logFloor_setFld (s : State) (f : Fld) (i v : Nat) : (s.setFld f i v).logFloor = s.logFloor := rfl
@[simp] theorem State.harvest_setFld (s : State) (f : Fld) (i v : Nat) : (s.setFld f i v).harvest = s.harvest := rfl
@[simp] theorem State.harvestSeq_setFld (s : State) (f : Fld) (i v : Nat) : (s.setFld f i v).harvestSeq = s.harvestSeq := rfl
@[simp] theorem State.boot_setFld (s : State) (f : Fld) (i v : Nat) : (s.setFld f i v).boot = s.boot := rfl
@[simp] theorem State.safety_setFld (s : State) (f : Fld) (i v : Nat) : (s.setFld f i v).safety = s.safety := rfl
@[simp] theorem State.ptpUse_setFld (s : State) (f : Fld) (i v : Nat) : (s.setFld f i v).ptpUse = s.ptpUse := rfl
@[simp] theorem State.portAddr_setFld (s : State) (f : Fld) (i v : Nat) : (s.setFld f i v).portAddr = s.portAddr := rfl
@[simp] theorem State.perf_setFld (s : State) (f : Fld) (i v : Nat) : (s.setFld f i v).perf = s.perf := rfl
@[simp] theorem State.regionCounts_setFld (s : State) (f : Fld) (i v : Nat) : (s.setFld f i v).domainCounts = s.domainCounts := rfl
@[simp] theorem State.chipCounts_setFld (s : State) (f : Fld) (i v : Nat) : (s.setFld f i v).chipCounts = s.chipCounts := rfl
@[simp] theorem State.replay_setFld (s : State) (f : Fld) (i v : Nat) : (s.setFld f i v).replay = s.replay := rfl
@[simp] theorem State.chipWait_setFld (s : State) (f : Fld) (i v : Nat) : (s.setFld f i v).chipWait = s.chipWait := rfl
@[simp] theorem State.hubLost_setFld (s : State) (f : Fld) (i v : Nat) : (s.setFld f i v).hubLost = s.hubLost := rfl
@[simp] theorem State.pcieLost_setFld (s : State) (f : Fld) (i v : Nat) : (s.setFld f i v).pcieLost = s.pcieLost := rfl
@[simp] theorem State.halted_setFld (s : State) (f : Fld) (i v : Nat) : (s.setFld f i v).halted = s.halted := rfl
@[simp] theorem State.coolSince_setFld (s : State) (f : Fld) (i v : Nat) : (s.setFld f i v).coolSince = s.coolSince := rfl
@[simp] theorem State.governors_setFld (s : State) (f : Fld) (i v : Nat) : (s.setFld f i v).governors = s.governors := rfl
@[simp] theorem State.excursion_setFld (s : State) (f : Fld) (i v : Nat) : (s.setFld f i v).excursion = s.excursion := rfl
@[simp] theorem State.droopTick_setFld (s : State) (f : Fld) (i v : Nat) : (s.setFld f i v).droopTick = s.droopTick := rfl
@[simp] theorem State.heartPin_setFld (s : State) (f : Fld) (i v : Nat) : (s.setFld f i v).heartPin = s.heartPin := rfl
@[simp] theorem State.beatPin_setFld (s : State) (f : Fld) (i v : Nat) : (s.setFld f i v).beatPin = s.beatPin := rfl
@[simp] theorem State.alertFrom_setFld (s : State) (f : Fld) (i v : Nat) : (s.setFld f i v).alertFrom = s.alertFrom := rfl
@[simp] theorem State.admWait_setFld (s : State) (f : Fld) (i v : Nat) : (s.setFld f i v).admWait = s.admWait := rfl
@[simp] theorem State.mainLost_setFld (s : State) (f : Fld) (i v : Nat) : (s.setFld f i v).mainLost = s.mainLost := rfl
@[simp] theorem State.cooling_setFld (s : State) (f : Fld) (i v : Nat) : (s.setFld f i v).cooling = s.cooling := rfl
@[simp] theorem State.privLocked_setFld (s : State) (f : Fld) (i v : Nat) : (s.setFld f i v).privLocked = s.privLocked := rfl

@[simp] theorem State.mem_setBit (s : State) (f : Fld) (i : Nat) (b : Bool) : (s.setBit f i b).mem = s.mem := rfl
@[simp] theorem State.hostMem_setBit (s : State) (f : Fld) (i : Nat) (b : Bool) : (s.setBit f i b).hostMem = s.hostMem := rfl
@[simp] theorem State.poison_setBit (s : State) (f : Fld) (i : Nat) (b : Bool) : (s.setBit f i b).poison = s.poison := rfl
@[simp] theorem State.cells_setBit (s : State) (f : Fld) (i : Nat) (b : Bool) : (s.setBit f i b).cells = s.cells := rfl
@[simp] theorem State.blocks_setBit (s : State) (f : Fld) (i : Nat) (b : Bool) : (s.setBit f i b).blocks = s.blocks := rfl
@[simp] theorem State.tasks_setBit (s : State) (f : Fld) (i : Nat) (b : Bool) : (s.setBit f i b).tasks = s.tasks := rfl
@[simp] theorem State.taskSeq_setBit (s : State) (f : Fld) (i : Nat) (b : Bool) : (s.setBit f i b).taskSeq = s.taskSeq := rfl
@[simp] theorem State.streams_setBit (s : State) (f : Fld) (i : Nat) (b : Bool) : (s.setBit f i b).streams = s.streams := rfl
@[simp] theorem State.armSeq_setBit (s : State) (f : Fld) (i : Nat) (b : Bool) : (s.setBit f i b).armSeq = s.armSeq := rfl
@[simp] theorem State.resetsRun_setBit (s : State) (f : Fld) (i : Nat) (b : Bool) : (s.setBit f i b).resetsRun = s.resetsRun := rfl
@[simp] theorem State.harts_setBit (s : State) (f : Fld) (i : Nat) (b : Bool) : (s.setBit f i b).harts = s.harts := rfl
@[simp] theorem State.clock_setBit (s : State) (f : Fld) (i : Nat) (b : Bool) : (s.setBit f i b).clock = s.clock := rfl
@[simp] theorem State.hubTurn_setBit (s : State) (f : Fld) (i : Nat) (b : Bool) : (s.setBit f i b).hubTurn = s.hubTurn := rfl
@[simp] theorem State.hubLeft_setBit (s : State) (f : Fld) (i : Nat) (b : Bool) : (s.setBit f i b).hubLeft = s.hubLeft := rfl
@[simp] theorem State.pressed_setBit (s : State) (f : Fld) (i : Nat) (b : Bool) : (s.setBit f i b).pressed = s.pressed := rfl
@[simp] theorem State.domainCounts_setBit (s : State) (f : Fld) (i : Nat) (b : Bool) : (s.setBit f i b).domainCounts = s.domainCounts := rfl
@[simp] theorem State.events_setBit (s : State) (f : Fld) (i : Nat) (b : Bool) : (s.setBit f i b).events = s.events := rfl
@[simp] theorem State.eventSeq_setBit (s : State) (f : Fld) (i : Nat) (b : Bool) : (s.setBit f i b).eventSeq = s.eventSeq := rfl
@[simp] theorem State.sync_setBit (s : State) (f : Fld) (i : Nat) (b : Bool) : (s.setBit f i b).sync = s.sync := rfl
@[simp] theorem State.scrub_setBit (s : State) (f : Fld) (i : Nat) (b : Bool) : (s.setBit f i b).scrub = s.scrub := rfl
@[simp] theorem State.resets_setBit (s : State) (f : Fld) (i : Nat) (b : Bool) : (s.setBit f i b).resets = s.resets := rfl
@[simp] theorem State.log_setBit (s : State) (f : Fld) (i : Nat) (b : Bool) : (s.setBit f i b).log = s.log := rfl
@[simp] theorem State.logSeq_setBit (s : State) (f : Fld) (i : Nat) (b : Bool) : (s.setBit f i b).logSeq = s.logSeq := rfl
@[simp] theorem State.sundial_setBit (s : State) (f : Fld) (i : Nat) (b : Bool) : (s.setBit f i b).sundial = s.sundial := rfl
@[simp] theorem State.phase_setBit (s : State) (f : Fld) (i : Nat) (b : Bool) : (s.setBit f i b).phase = s.phase := rfl
@[simp] theorem State.slew_setBit (s : State) (f : Fld) (i : Nat) (b : Bool) : (s.setBit f i b).slew = s.slew := rfl
@[simp] theorem State.slewTick_setBit (s : State) (f : Fld) (i : Nat) (b : Bool) : (s.setBit f i b).slewTick = s.slewTick := rfl
@[simp] theorem State.latch_setBit (s : State) (f : Fld) (i : Nat) (b : Bool) : (s.setBit f i b).latch = s.latch := rfl
@[simp] theorem State.free_setBit (s : State) (f : Fld) (i : Nat) (b : Bool) : (s.setBit f i b).free = s.free := rfl
@[simp] theorem State.pending_setBit (s : State) (f : Fld) (i : Nat) (b : Bool) : (s.setBit f i b).pending = s.pending := rfl
@[simp] theorem State.plots_setBit (s : State) (f : Fld) (i : Nat) (b : Bool) : (s.setBit f i b).plots = s.plots := rfl
@[simp] theorem State.pools_setBit (s : State) (f : Fld) (i : Nat) (b : Bool) : (s.setBit f i b).pools = s.pools := rfl
@[simp] theorem State.frames_setBit (s : State) (f : Fld) (i : Nat) (b : Bool) : (s.setBit f i b).frames = s.frames := rfl
@[simp] theorem State.seqs_setBit (s : State) (f : Fld) (i : Nat) (b : Bool) : (s.setBit f i b).seqs = s.seqs := rfl
@[simp] theorem State.journal_setBit (s : State) (f : Fld) (i : Nat) (b : Bool) : (s.setBit f i b).journal = s.journal := rfl
@[simp] theorem State.batches_setBit (s : State) (f : Fld) (i : Nat) (b : Bool) : (s.setBit f i b).batches = s.batches := rfl
@[simp] theorem State.draining_setBit (s : State) (f : Fld) (i : Nat) (b : Bool) : (s.setBit f i b).draining = s.draining := rfl
@[simp] theorem State.kvmTurn_setBit (s : State) (f : Fld) (i : Nat) (b : Bool) : (s.setBit f i b).kvmTurn = s.kvmTurn := rfl
@[simp] theorem State.kvmOwed_setBit (s : State) (f : Fld) (i : Nat) (b : Bool) : (s.setBit f i b).kvmOwed = s.kvmOwed := rfl
@[simp] theorem State.kvmSeq_setBit (s : State) (f : Fld) (i : Nat) (b : Bool) : (s.setBit f i b).kvmSeq = s.kvmSeq := rfl
@[simp] theorem State.admTurn_setBit (s : State) (f : Fld) (i : Nat) (b : Bool) : (s.setBit f i b).admTurn = s.admTurn := rfl
@[simp] theorem State.out_setBit (s : State) (f : Fld) (i : Nat) (b : Bool) : (s.setBit f i b).out = s.out := rfl
@[simp] theorem State.reqs_setBit (s : State) (f : Fld) (i : Nat) (b : Bool) : (s.setBit f i b).reqs = s.reqs := rfl
@[simp] theorem State.msgTag_setBit (s : State) (f : Fld) (i : Nat) (b : Bool) : (s.setBit f i b).msgTag = s.msgTag := rfl
@[simp] theorem State.eccReports_setBit (s : State) (f : Fld) (i : Nat) (b : Bool) : (s.setBit f i b).eccReports = s.eccReports := rfl
@[simp] theorem State.rdata_setBit (s : State) (f : Fld) (i : Nat) (b : Bool) : (s.setBit f i b).rdata = s.rdata := rfl
@[simp] theorem State.rootChip_setBit (s : State) (f : Fld) (i : Nat) (b : Bool) : (s.setBit f i b).rootChip = s.rootChip := rfl
@[simp] theorem State.peerHandles_setBit (s : State) (f : Fld) (i : Nat) (b : Bool) : (s.setBit f i b).peerHandles = s.peerHandles := rfl
@[simp] theorem State.moveSeq_setBit (s : State) (f : Fld) (i : Nat) (b : Bool) : (s.setBit f i b).moveSeq = s.moveSeq := rfl
@[simp] theorem State.walks_setBit (s : State) (f : Fld) (i : Nat) (b : Bool) : (s.setBit f i b).walks = s.walks := rfl
@[simp] theorem State.signing_setBit (s : State) (f : Fld) (i : Nat) (b : Bool) : (s.setBit f i b).signing = s.signing := rfl
@[simp] theorem State.indexes_setBit (s : State) (f : Fld) (i : Nat) (b : Bool) : (s.setBit f i b).indexes = s.indexes := rfl
@[simp] theorem State.rbatches_setBit (s : State) (f : Fld) (i : Nat) (b : Bool) : (s.setBit f i b).rbatches = s.rbatches := rfl
@[simp] theorem State.rbatchSeq_setBit (s : State) (f : Fld) (i : Nat) (b : Bool) : (s.setBit f i b).rbatchSeq = s.rbatchSeq := rfl
@[simp] theorem State.groups_setBit (s : State) (f : Fld) (i : Nat) (b : Bool) : (s.setBit f i b).groups = s.groups := rfl
@[simp] theorem State.colGroups_setBit (s : State) (f : Fld) (i : Nat) (b : Bool) : (s.setBit f i b).colGroups = s.colGroups := rfl
@[simp] theorem State.chains_setBit (s : State) (f : Fld) (i : Nat) (b : Bool) : (s.setBit f i b).chains = s.chains := rfl
@[simp] theorem State.ops_setBit (s : State) (f : Fld) (i : Nat) (b : Bool) : (s.setBit f i b).ops = s.ops := rfl
@[simp] theorem State.opSeq_setBit (s : State) (f : Fld) (i : Nat) (b : Bool) : (s.setBit f i b).opSeq = s.opSeq := rfl
@[simp] theorem State.colIn_setBit (s : State) (f : Fld) (i : Nat) (b : Bool) : (s.setBit f i b).colIn = s.colIn := rfl
@[simp] theorem State.colSteps_setBit (s : State) (f : Fld) (i : Nat) (b : Bool) : (s.setBit f i b).colSteps = s.colSteps := rfl
@[simp] theorem State.lostDrains_setBit (s : State) (f : Fld) (i : Nat) (b : Bool) : (s.setBit f i b).lostDrains = s.lostDrains := rfl
@[simp] theorem State.peers_setBit (s : State) (f : Fld) (i : Nat) (b : Bool) : (s.setBit f i b).peers = s.peers := rfl
@[simp] theorem State.conns_setBit (s : State) (f : Fld) (i : Nat) (b : Bool) : (s.setBit f i b).conns = s.conns := rfl
@[simp] theorem State.phys_setBit (s : State) (f : Fld) (i : Nat) (b : Bool) : (s.setBit f i b).phys = s.phys := rfl
@[simp] theorem State.discovering_setBit (s : State) (f : Fld) (i : Nat) (b : Bool) : (s.setBit f i b).discovering = s.discovering := rfl
@[simp] theorem State.configHash_setBit (s : State) (f : Fld) (i : Nat) (b : Bool) : (s.setBit f i b).configHash = s.configHash := rfl
@[simp] theorem State.hall_setBit (s : State) (f : Fld) (i : Nat) (b : Bool) : (s.setBit f i b).hall = s.hall := rfl
@[simp] theorem State.syncMap_setBit (s : State) (f : Fld) (i : Nat) (b : Bool) : (s.setBit f i b).syncMap = s.syncMap := rfl
@[simp] theorem State.defaultRack_setBit (s : State) (f : Fld) (i : Nat) (b : Bool) : (s.setBit f i b).defaultRack = s.defaultRack := rfl
@[simp] theorem State.hubHeld_setBit (s : State) (f : Fld) (i : Nat) (b : Bool) : (s.setBit f i b).hubHeld = s.hubHeld := rfl
@[simp] theorem State.linkMap_setBit (s : State) (f : Fld) (i : Nat) (b : Bool) : (s.setBit f i b).linkMap = s.linkMap := rfl
@[simp] theorem State.ptpPort_setBit (s : State) (f : Fld) (i : Nat) (b : Bool) : (s.setBit f i b).ptpPort = s.ptpPort := rfl
@[simp] theorem State.ptpDomain_setBit (s : State) (f : Fld) (i : Nat) (b : Bool) : (s.setBit f i b).ptpDomain = s.ptpDomain := rfl
@[simp] theorem State.storeUpset_setBit (s : State) (f : Fld) (i : Nat) (b : Bool) : (s.setBit f i b).storeUpset = s.storeUpset := rfl
@[simp] theorem State.scanStart_setBit (s : State) (f : Fld) (i : Nat) (b : Bool) : (s.setBit f i b).scanStart = s.scanStart := rfl
@[simp] theorem State.shiftBook_setBit (s : State) (f : Fld) (i : Nat) (b : Bool) : (s.setBit f i b).shiftBook = s.shiftBook := rfl
@[simp] theorem State.endedTasks_setBit (s : State) (f : Fld) (i : Nat) (b : Bool) : (s.setBit f i b).endedTasks = s.endedTasks := rfl
@[simp] theorem State.pcieGen_setBit (s : State) (f : Fld) (i : Nat) (b : Bool) : (s.setBit f i b).pcieGen = s.pcieGen := rfl
@[simp] theorem State.pcieLanes_setBit (s : State) (f : Fld) (i : Nat) (b : Bool) : (s.setBit f i b).pcieLanes = s.pcieLanes := rfl
@[simp] theorem State.ptp_setBit (s : State) (f : Fld) (i : Nat) (b : Bool) : (s.setBit f i b).ptp = s.ptp := rfl
@[simp] theorem State.logFloor_setBit (s : State) (f : Fld) (i : Nat) (b : Bool) : (s.setBit f i b).logFloor = s.logFloor := rfl
@[simp] theorem State.harvest_setBit (s : State) (f : Fld) (i : Nat) (b : Bool) : (s.setBit f i b).harvest = s.harvest := rfl
@[simp] theorem State.harvestSeq_setBit (s : State) (f : Fld) (i : Nat) (b : Bool) : (s.setBit f i b).harvestSeq = s.harvestSeq := rfl
@[simp] theorem State.boot_setBit (s : State) (f : Fld) (i : Nat) (b : Bool) : (s.setBit f i b).boot = s.boot := rfl
@[simp] theorem State.safety_setBit (s : State) (f : Fld) (i : Nat) (b : Bool) : (s.setBit f i b).safety = s.safety := rfl
@[simp] theorem State.ptpUse_setBit (s : State) (f : Fld) (i : Nat) (b : Bool) : (s.setBit f i b).ptpUse = s.ptpUse := rfl
@[simp] theorem State.portAddr_setBit (s : State) (f : Fld) (i : Nat) (b : Bool) : (s.setBit f i b).portAddr = s.portAddr := rfl
@[simp] theorem State.perf_setBit (s : State) (f : Fld) (i : Nat) (b : Bool) : (s.setBit f i b).perf = s.perf := rfl
@[simp] theorem State.regionCounts_setBit (s : State) (f : Fld) (i : Nat) (b : Bool) : (s.setBit f i b).domainCounts = s.domainCounts := rfl
@[simp] theorem State.chipCounts_setBit (s : State) (f : Fld) (i : Nat) (b : Bool) : (s.setBit f i b).chipCounts = s.chipCounts := rfl
@[simp] theorem State.replay_setBit (s : State) (f : Fld) (i : Nat) (b : Bool) : (s.setBit f i b).replay = s.replay := rfl
@[simp] theorem State.chipWait_setBit (s : State) (f : Fld) (i : Nat) (b : Bool) : (s.setBit f i b).chipWait = s.chipWait := rfl
@[simp] theorem State.hubLost_setBit (s : State) (f : Fld) (i : Nat) (b : Bool) : (s.setBit f i b).hubLost = s.hubLost := rfl
@[simp] theorem State.pcieLost_setBit (s : State) (f : Fld) (i : Nat) (b : Bool) : (s.setBit f i b).pcieLost = s.pcieLost := rfl
@[simp] theorem State.halted_setBit (s : State) (f : Fld) (i : Nat) (b : Bool) : (s.setBit f i b).halted = s.halted := rfl
@[simp] theorem State.coolSince_setBit (s : State) (f : Fld) (i : Nat) (b : Bool) : (s.setBit f i b).coolSince = s.coolSince := rfl
@[simp] theorem State.governors_setBit (s : State) (f : Fld) (i : Nat) (b : Bool) : (s.setBit f i b).governors = s.governors := rfl
@[simp] theorem State.excursion_setBit (s : State) (f : Fld) (i : Nat) (b : Bool) : (s.setBit f i b).excursion = s.excursion := rfl
@[simp] theorem State.droopTick_setBit (s : State) (f : Fld) (i : Nat) (b : Bool) : (s.setBit f i b).droopTick = s.droopTick := rfl
@[simp] theorem State.heartPin_setBit (s : State) (f : Fld) (i : Nat) (b : Bool) : (s.setBit f i b).heartPin = s.heartPin := rfl
@[simp] theorem State.beatPin_setBit (s : State) (f : Fld) (i : Nat) (b : Bool) : (s.setBit f i b).beatPin = s.beatPin := rfl
@[simp] theorem State.alertFrom_setBit (s : State) (f : Fld) (i : Nat) (b : Bool) : (s.setBit f i b).alertFrom = s.alertFrom := rfl
@[simp] theorem State.admWait_setBit (s : State) (f : Fld) (i : Nat) (b : Bool) : (s.setBit f i b).admWait = s.admWait := rfl
@[simp] theorem State.mainLost_setBit (s : State) (f : Fld) (i : Nat) (b : Bool) : (s.setBit f i b).mainLost = s.mainLost := rfl
@[simp] theorem State.cooling_setBit (s : State) (f : Fld) (i : Nat) (b : Bool) : (s.setBit f i b).cooling = s.cooling := rfl
@[simp] theorem State.privLocked_setBit (s : State) (f : Fld) (i : Nat) (b : Bool) : (s.setBit f i b).privLocked = s.privLocked := rfl

@[simp] theorem State.mem_addSat (s : State) (f : Fld) (i n : Nat) : (s.addSat f i n).mem = s.mem := rfl
@[simp] theorem State.hostMem_addSat (s : State) (f : Fld) (i n : Nat) : (s.addSat f i n).hostMem = s.hostMem := rfl
@[simp] theorem State.poison_addSat (s : State) (f : Fld) (i n : Nat) : (s.addSat f i n).poison = s.poison := rfl
@[simp] theorem State.cells_addSat (s : State) (f : Fld) (i n : Nat) : (s.addSat f i n).cells = s.cells := rfl
@[simp] theorem State.blocks_addSat (s : State) (f : Fld) (i n : Nat) : (s.addSat f i n).blocks = s.blocks := rfl
@[simp] theorem State.tasks_addSat (s : State) (f : Fld) (i n : Nat) : (s.addSat f i n).tasks = s.tasks := rfl
@[simp] theorem State.taskSeq_addSat (s : State) (f : Fld) (i n : Nat) : (s.addSat f i n).taskSeq = s.taskSeq := rfl
@[simp] theorem State.streams_addSat (s : State) (f : Fld) (i n : Nat) : (s.addSat f i n).streams = s.streams := rfl
@[simp] theorem State.armSeq_addSat (s : State) (f : Fld) (i n : Nat) : (s.addSat f i n).armSeq = s.armSeq := rfl
@[simp] theorem State.resetsRun_addSat (s : State) (f : Fld) (i n : Nat) : (s.addSat f i n).resetsRun = s.resetsRun := rfl
@[simp] theorem State.harts_addSat (s : State) (f : Fld) (i n : Nat) : (s.addSat f i n).harts = s.harts := rfl
@[simp] theorem State.clock_addSat (s : State) (f : Fld) (i n : Nat) : (s.addSat f i n).clock = s.clock := rfl
@[simp] theorem State.hubTurn_addSat (s : State) (f : Fld) (i n : Nat) : (s.addSat f i n).hubTurn = s.hubTurn := rfl
@[simp] theorem State.hubLeft_addSat (s : State) (f : Fld) (i n : Nat) : (s.addSat f i n).hubLeft = s.hubLeft := rfl
@[simp] theorem State.pressed_addSat (s : State) (f : Fld) (i n : Nat) : (s.addSat f i n).pressed = s.pressed := rfl
@[simp] theorem State.domainCounts_addSat (s : State) (f : Fld) (i n : Nat) : (s.addSat f i n).domainCounts = s.domainCounts := rfl
@[simp] theorem State.events_addSat (s : State) (f : Fld) (i n : Nat) : (s.addSat f i n).events = s.events := rfl
@[simp] theorem State.eventSeq_addSat (s : State) (f : Fld) (i n : Nat) : (s.addSat f i n).eventSeq = s.eventSeq := rfl
@[simp] theorem State.sync_addSat (s : State) (f : Fld) (i n : Nat) : (s.addSat f i n).sync = s.sync := rfl
@[simp] theorem State.scrub_addSat (s : State) (f : Fld) (i n : Nat) : (s.addSat f i n).scrub = s.scrub := rfl
@[simp] theorem State.resets_addSat (s : State) (f : Fld) (i n : Nat) : (s.addSat f i n).resets = s.resets := rfl
@[simp] theorem State.log_addSat (s : State) (f : Fld) (i n : Nat) : (s.addSat f i n).log = s.log := rfl
@[simp] theorem State.logSeq_addSat (s : State) (f : Fld) (i n : Nat) : (s.addSat f i n).logSeq = s.logSeq := rfl
@[simp] theorem State.sundial_addSat (s : State) (f : Fld) (i n : Nat) : (s.addSat f i n).sundial = s.sundial := rfl
@[simp] theorem State.phase_addSat (s : State) (f : Fld) (i n : Nat) : (s.addSat f i n).phase = s.phase := rfl
@[simp] theorem State.slew_addSat (s : State) (f : Fld) (i n : Nat) : (s.addSat f i n).slew = s.slew := rfl
@[simp] theorem State.slewTick_addSat (s : State) (f : Fld) (i n : Nat) : (s.addSat f i n).slewTick = s.slewTick := rfl
@[simp] theorem State.latch_addSat (s : State) (f : Fld) (i n : Nat) : (s.addSat f i n).latch = s.latch := rfl
@[simp] theorem State.free_addSat (s : State) (f : Fld) (i n : Nat) : (s.addSat f i n).free = s.free := rfl
@[simp] theorem State.pending_addSat (s : State) (f : Fld) (i n : Nat) : (s.addSat f i n).pending = s.pending := rfl
@[simp] theorem State.plots_addSat (s : State) (f : Fld) (i n : Nat) : (s.addSat f i n).plots = s.plots := rfl
@[simp] theorem State.pools_addSat (s : State) (f : Fld) (i n : Nat) : (s.addSat f i n).pools = s.pools := rfl
@[simp] theorem State.frames_addSat (s : State) (f : Fld) (i n : Nat) : (s.addSat f i n).frames = s.frames := rfl
@[simp] theorem State.seqs_addSat (s : State) (f : Fld) (i n : Nat) : (s.addSat f i n).seqs = s.seqs := rfl
@[simp] theorem State.journal_addSat (s : State) (f : Fld) (i n : Nat) : (s.addSat f i n).journal = s.journal := rfl
@[simp] theorem State.batches_addSat (s : State) (f : Fld) (i n : Nat) : (s.addSat f i n).batches = s.batches := rfl
@[simp] theorem State.draining_addSat (s : State) (f : Fld) (i n : Nat) : (s.addSat f i n).draining = s.draining := rfl
@[simp] theorem State.kvmTurn_addSat (s : State) (f : Fld) (i n : Nat) : (s.addSat f i n).kvmTurn = s.kvmTurn := rfl
@[simp] theorem State.kvmOwed_addSat (s : State) (f : Fld) (i n : Nat) : (s.addSat f i n).kvmOwed = s.kvmOwed := rfl
@[simp] theorem State.kvmSeq_addSat (s : State) (f : Fld) (i n : Nat) : (s.addSat f i n).kvmSeq = s.kvmSeq := rfl
@[simp] theorem State.admTurn_addSat (s : State) (f : Fld) (i n : Nat) : (s.addSat f i n).admTurn = s.admTurn := rfl
@[simp] theorem State.out_addSat (s : State) (f : Fld) (i n : Nat) : (s.addSat f i n).out = s.out := rfl
@[simp] theorem State.reqs_addSat (s : State) (f : Fld) (i n : Nat) : (s.addSat f i n).reqs = s.reqs := rfl
@[simp] theorem State.msgTag_addSat (s : State) (f : Fld) (i n : Nat) : (s.addSat f i n).msgTag = s.msgTag := rfl
@[simp] theorem State.eccReports_addSat (s : State) (f : Fld) (i n : Nat) : (s.addSat f i n).eccReports = s.eccReports := rfl
@[simp] theorem State.rdata_addSat (s : State) (f : Fld) (i n : Nat) : (s.addSat f i n).rdata = s.rdata := rfl
@[simp] theorem State.rootChip_addSat (s : State) (f : Fld) (i n : Nat) : (s.addSat f i n).rootChip = s.rootChip := rfl
@[simp] theorem State.peerHandles_addSat (s : State) (f : Fld) (i n : Nat) : (s.addSat f i n).peerHandles = s.peerHandles := rfl
@[simp] theorem State.moveSeq_addSat (s : State) (f : Fld) (i n : Nat) : (s.addSat f i n).moveSeq = s.moveSeq := rfl
@[simp] theorem State.walks_addSat (s : State) (f : Fld) (i n : Nat) : (s.addSat f i n).walks = s.walks := rfl
@[simp] theorem State.signing_addSat (s : State) (f : Fld) (i n : Nat) : (s.addSat f i n).signing = s.signing := rfl
@[simp] theorem State.indexes_addSat (s : State) (f : Fld) (i n : Nat) : (s.addSat f i n).indexes = s.indexes := rfl
@[simp] theorem State.rbatches_addSat (s : State) (f : Fld) (i n : Nat) : (s.addSat f i n).rbatches = s.rbatches := rfl
@[simp] theorem State.rbatchSeq_addSat (s : State) (f : Fld) (i n : Nat) : (s.addSat f i n).rbatchSeq = s.rbatchSeq := rfl
@[simp] theorem State.groups_addSat (s : State) (f : Fld) (i n : Nat) : (s.addSat f i n).groups = s.groups := rfl
@[simp] theorem State.colGroups_addSat (s : State) (f : Fld) (i n : Nat) : (s.addSat f i n).colGroups = s.colGroups := rfl
@[simp] theorem State.chains_addSat (s : State) (f : Fld) (i n : Nat) : (s.addSat f i n).chains = s.chains := rfl
@[simp] theorem State.ops_addSat (s : State) (f : Fld) (i n : Nat) : (s.addSat f i n).ops = s.ops := rfl
@[simp] theorem State.opSeq_addSat (s : State) (f : Fld) (i n : Nat) : (s.addSat f i n).opSeq = s.opSeq := rfl
@[simp] theorem State.colIn_addSat (s : State) (f : Fld) (i n : Nat) : (s.addSat f i n).colIn = s.colIn := rfl
@[simp] theorem State.colSteps_addSat (s : State) (f : Fld) (i n : Nat) : (s.addSat f i n).colSteps = s.colSteps := rfl
@[simp] theorem State.lostDrains_addSat (s : State) (f : Fld) (i n : Nat) : (s.addSat f i n).lostDrains = s.lostDrains := rfl
@[simp] theorem State.peers_addSat (s : State) (f : Fld) (i n : Nat) : (s.addSat f i n).peers = s.peers := rfl
@[simp] theorem State.conns_addSat (s : State) (f : Fld) (i n : Nat) : (s.addSat f i n).conns = s.conns := rfl
@[simp] theorem State.phys_addSat (s : State) (f : Fld) (i n : Nat) : (s.addSat f i n).phys = s.phys := rfl
@[simp] theorem State.discovering_addSat (s : State) (f : Fld) (i n : Nat) : (s.addSat f i n).discovering = s.discovering := rfl
@[simp] theorem State.configHash_addSat (s : State) (f : Fld) (i n : Nat) : (s.addSat f i n).configHash = s.configHash := rfl
@[simp] theorem State.hall_addSat (s : State) (f : Fld) (i n : Nat) : (s.addSat f i n).hall = s.hall := rfl
@[simp] theorem State.syncMap_addSat (s : State) (f : Fld) (i n : Nat) : (s.addSat f i n).syncMap = s.syncMap := rfl
@[simp] theorem State.defaultRack_addSat (s : State) (f : Fld) (i n : Nat) : (s.addSat f i n).defaultRack = s.defaultRack := rfl
@[simp] theorem State.hubHeld_addSat (s : State) (f : Fld) (i n : Nat) : (s.addSat f i n).hubHeld = s.hubHeld := rfl
@[simp] theorem State.linkMap_addSat (s : State) (f : Fld) (i n : Nat) : (s.addSat f i n).linkMap = s.linkMap := rfl
@[simp] theorem State.ptpPort_addSat (s : State) (f : Fld) (i n : Nat) : (s.addSat f i n).ptpPort = s.ptpPort := rfl
@[simp] theorem State.ptpDomain_addSat (s : State) (f : Fld) (i n : Nat) : (s.addSat f i n).ptpDomain = s.ptpDomain := rfl
@[simp] theorem State.storeUpset_addSat (s : State) (f : Fld) (i n : Nat) : (s.addSat f i n).storeUpset = s.storeUpset := rfl
@[simp] theorem State.scanStart_addSat (s : State) (f : Fld) (i n : Nat) : (s.addSat f i n).scanStart = s.scanStart := rfl
@[simp] theorem State.shiftBook_addSat (s : State) (f : Fld) (i n : Nat) : (s.addSat f i n).shiftBook = s.shiftBook := rfl
@[simp] theorem State.endedTasks_addSat (s : State) (f : Fld) (i n : Nat) : (s.addSat f i n).endedTasks = s.endedTasks := rfl
@[simp] theorem State.pcieGen_addSat (s : State) (f : Fld) (i n : Nat) : (s.addSat f i n).pcieGen = s.pcieGen := rfl
@[simp] theorem State.pcieLanes_addSat (s : State) (f : Fld) (i n : Nat) : (s.addSat f i n).pcieLanes = s.pcieLanes := rfl
@[simp] theorem State.ptp_addSat (s : State) (f : Fld) (i n : Nat) : (s.addSat f i n).ptp = s.ptp := rfl
@[simp] theorem State.logFloor_addSat (s : State) (f : Fld) (i n : Nat) : (s.addSat f i n).logFloor = s.logFloor := rfl
@[simp] theorem State.harvest_addSat (s : State) (f : Fld) (i n : Nat) : (s.addSat f i n).harvest = s.harvest := rfl
@[simp] theorem State.harvestSeq_addSat (s : State) (f : Fld) (i n : Nat) : (s.addSat f i n).harvestSeq = s.harvestSeq := rfl
@[simp] theorem State.boot_addSat (s : State) (f : Fld) (i n : Nat) : (s.addSat f i n).boot = s.boot := rfl
@[simp] theorem State.safety_addSat (s : State) (f : Fld) (i n : Nat) : (s.addSat f i n).safety = s.safety := rfl
@[simp] theorem State.ptpUse_addSat (s : State) (f : Fld) (i n : Nat) : (s.addSat f i n).ptpUse = s.ptpUse := rfl
@[simp] theorem State.portAddr_addSat (s : State) (f : Fld) (i n : Nat) : (s.addSat f i n).portAddr = s.portAddr := rfl
@[simp] theorem State.perf_addSat (s : State) (f : Fld) (i n : Nat) : (s.addSat f i n).perf = s.perf := rfl
@[simp] theorem State.regionCounts_addSat (s : State) (f : Fld) (i n : Nat) : (s.addSat f i n).domainCounts = s.domainCounts := rfl
@[simp] theorem State.chipCounts_addSat (s : State) (f : Fld) (i n : Nat) : (s.addSat f i n).chipCounts = s.chipCounts := rfl
@[simp] theorem State.replay_addSat (s : State) (f : Fld) (i n : Nat) : (s.addSat f i n).replay = s.replay := rfl
@[simp] theorem State.chipWait_addSat (s : State) (f : Fld) (i n : Nat) : (s.addSat f i n).chipWait = s.chipWait := rfl
@[simp] theorem State.hubLost_addSat (s : State) (f : Fld) (i n : Nat) : (s.addSat f i n).hubLost = s.hubLost := rfl
@[simp] theorem State.pcieLost_addSat (s : State) (f : Fld) (i n : Nat) : (s.addSat f i n).pcieLost = s.pcieLost := rfl
@[simp] theorem State.halted_addSat (s : State) (f : Fld) (i n : Nat) : (s.addSat f i n).halted = s.halted := rfl
@[simp] theorem State.coolSince_addSat (s : State) (f : Fld) (i n : Nat) : (s.addSat f i n).coolSince = s.coolSince := rfl
@[simp] theorem State.governors_addSat (s : State) (f : Fld) (i n : Nat) : (s.addSat f i n).governors = s.governors := rfl
@[simp] theorem State.excursion_addSat (s : State) (f : Fld) (i n : Nat) : (s.addSat f i n).excursion = s.excursion := rfl
@[simp] theorem State.droopTick_addSat (s : State) (f : Fld) (i n : Nat) : (s.addSat f i n).droopTick = s.droopTick := rfl
@[simp] theorem State.heartPin_addSat (s : State) (f : Fld) (i n : Nat) : (s.addSat f i n).heartPin = s.heartPin := rfl
@[simp] theorem State.beatPin_addSat (s : State) (f : Fld) (i n : Nat) : (s.addSat f i n).beatPin = s.beatPin := rfl
@[simp] theorem State.alertFrom_addSat (s : State) (f : Fld) (i n : Nat) : (s.addSat f i n).alertFrom = s.alertFrom := rfl
@[simp] theorem State.admWait_addSat (s : State) (f : Fld) (i n : Nat) : (s.addSat f i n).admWait = s.admWait := rfl
@[simp] theorem State.mainLost_addSat (s : State) (f : Fld) (i n : Nat) : (s.addSat f i n).mainLost = s.mainLost := rfl
@[simp] theorem State.cooling_addSat (s : State) (f : Fld) (i n : Nat) : (s.addSat f i n).cooling = s.cooling := rfl
@[simp] theorem State.privLocked_addSat (s : State) (f : Fld) (i n : Nat) : (s.addSat f i n).privLocked = s.privLocked := rfl

@[simp] theorem State.regs_writeBytes (s : State) (a : Nat) (bs : List Byte) : (s.writeBytes a bs).regs = s.regs := rfl
@[simp] theorem State.hostMem_writeBytes (s : State) (a : Nat) (bs : List Byte) : (s.writeBytes a bs).hostMem = s.hostMem := rfl
@[simp] theorem State.poison_writeBytes (s : State) (a : Nat) (bs : List Byte) : (s.writeBytes a bs).poison = s.poison := rfl
@[simp] theorem State.cells_writeBytes (s : State) (a : Nat) (bs : List Byte) : (s.writeBytes a bs).cells = s.cells := rfl
@[simp] theorem State.blocks_writeBytes (s : State) (a : Nat) (bs : List Byte) : (s.writeBytes a bs).blocks = s.blocks := rfl
@[simp] theorem State.tasks_writeBytes (s : State) (a : Nat) (bs : List Byte) : (s.writeBytes a bs).tasks = s.tasks := rfl
@[simp] theorem State.taskSeq_writeBytes (s : State) (a : Nat) (bs : List Byte) : (s.writeBytes a bs).taskSeq = s.taskSeq := rfl
@[simp] theorem State.streams_writeBytes (s : State) (a : Nat) (bs : List Byte) : (s.writeBytes a bs).streams = s.streams := rfl
@[simp] theorem State.armSeq_writeBytes (s : State) (a : Nat) (bs : List Byte) : (s.writeBytes a bs).armSeq = s.armSeq := rfl
@[simp] theorem State.resetsRun_writeBytes (s : State) (a : Nat) (bs : List Byte) : (s.writeBytes a bs).resetsRun = s.resetsRun := rfl
@[simp] theorem State.harts_writeBytes (s : State) (a : Nat) (bs : List Byte) : (s.writeBytes a bs).harts = s.harts := rfl
@[simp] theorem State.clock_writeBytes (s : State) (a : Nat) (bs : List Byte) : (s.writeBytes a bs).clock = s.clock := rfl
@[simp] theorem State.hubTurn_writeBytes (s : State) (a : Nat) (bs : List Byte) : (s.writeBytes a bs).hubTurn = s.hubTurn := rfl
@[simp] theorem State.hubLeft_writeBytes (s : State) (a : Nat) (bs : List Byte) : (s.writeBytes a bs).hubLeft = s.hubLeft := rfl
@[simp] theorem State.pressed_writeBytes (s : State) (a : Nat) (bs : List Byte) : (s.writeBytes a bs).pressed = s.pressed := rfl
@[simp] theorem State.domainCounts_writeBytes (s : State) (a : Nat) (bs : List Byte) : (s.writeBytes a bs).domainCounts = s.domainCounts := rfl
@[simp] theorem State.events_writeBytes (s : State) (a : Nat) (bs : List Byte) : (s.writeBytes a bs).events = s.events := rfl
@[simp] theorem State.eventSeq_writeBytes (s : State) (a : Nat) (bs : List Byte) : (s.writeBytes a bs).eventSeq = s.eventSeq := rfl
@[simp] theorem State.sync_writeBytes (s : State) (a : Nat) (bs : List Byte) : (s.writeBytes a bs).sync = s.sync := rfl
@[simp] theorem State.scrub_writeBytes (s : State) (a : Nat) (bs : List Byte) : (s.writeBytes a bs).scrub = s.scrub := rfl
@[simp] theorem State.resets_writeBytes (s : State) (a : Nat) (bs : List Byte) : (s.writeBytes a bs).resets = s.resets := rfl
@[simp] theorem State.log_writeBytes (s : State) (a : Nat) (bs : List Byte) : (s.writeBytes a bs).log = s.log := rfl
@[simp] theorem State.logSeq_writeBytes (s : State) (a : Nat) (bs : List Byte) : (s.writeBytes a bs).logSeq = s.logSeq := rfl
@[simp] theorem State.sundial_writeBytes (s : State) (a : Nat) (bs : List Byte) : (s.writeBytes a bs).sundial = s.sundial := rfl
@[simp] theorem State.phase_writeBytes (s : State) (a : Nat) (bs : List Byte) : (s.writeBytes a bs).phase = s.phase := rfl
@[simp] theorem State.slew_writeBytes (s : State) (a : Nat) (bs : List Byte) : (s.writeBytes a bs).slew = s.slew := rfl
@[simp] theorem State.slewTick_writeBytes (s : State) (a : Nat) (bs : List Byte) : (s.writeBytes a bs).slewTick = s.slewTick := rfl
@[simp] theorem State.latch_writeBytes (s : State) (a : Nat) (bs : List Byte) : (s.writeBytes a bs).latch = s.latch := rfl
@[simp] theorem State.free_writeBytes (s : State) (a : Nat) (bs : List Byte) : (s.writeBytes a bs).free = s.free := rfl
@[simp] theorem State.pending_writeBytes (s : State) (a : Nat) (bs : List Byte) : (s.writeBytes a bs).pending = s.pending := rfl
@[simp] theorem State.plots_writeBytes (s : State) (a : Nat) (bs : List Byte) : (s.writeBytes a bs).plots = s.plots := rfl
@[simp] theorem State.pools_writeBytes (s : State) (a : Nat) (bs : List Byte) : (s.writeBytes a bs).pools = s.pools := rfl
@[simp] theorem State.frames_writeBytes (s : State) (a : Nat) (bs : List Byte) : (s.writeBytes a bs).frames = s.frames := rfl
@[simp] theorem State.seqs_writeBytes (s : State) (a : Nat) (bs : List Byte) : (s.writeBytes a bs).seqs = s.seqs := rfl
@[simp] theorem State.journal_writeBytes (s : State) (a : Nat) (bs : List Byte) : (s.writeBytes a bs).journal = s.journal := rfl
@[simp] theorem State.batches_writeBytes (s : State) (a : Nat) (bs : List Byte) : (s.writeBytes a bs).batches = s.batches := rfl
@[simp] theorem State.draining_writeBytes (s : State) (a : Nat) (bs : List Byte) : (s.writeBytes a bs).draining = s.draining := rfl
@[simp] theorem State.kvmTurn_writeBytes (s : State) (a : Nat) (bs : List Byte) : (s.writeBytes a bs).kvmTurn = s.kvmTurn := rfl
@[simp] theorem State.kvmOwed_writeBytes (s : State) (a : Nat) (bs : List Byte) : (s.writeBytes a bs).kvmOwed = s.kvmOwed := rfl
@[simp] theorem State.kvmSeq_writeBytes (s : State) (a : Nat) (bs : List Byte) : (s.writeBytes a bs).kvmSeq = s.kvmSeq := rfl
@[simp] theorem State.admTurn_writeBytes (s : State) (a : Nat) (bs : List Byte) : (s.writeBytes a bs).admTurn = s.admTurn := rfl
@[simp] theorem State.out_writeBytes (s : State) (a : Nat) (bs : List Byte) : (s.writeBytes a bs).out = s.out := rfl
@[simp] theorem State.reqs_writeBytes (s : State) (a : Nat) (bs : List Byte) : (s.writeBytes a bs).reqs = s.reqs := rfl
@[simp] theorem State.msgTag_writeBytes (s : State) (a : Nat) (bs : List Byte) : (s.writeBytes a bs).msgTag = s.msgTag := rfl
@[simp] theorem State.eccReports_writeBytes (s : State) (a : Nat) (bs : List Byte) : (s.writeBytes a bs).eccReports = s.eccReports := rfl
@[simp] theorem State.rdata_writeBytes (s : State) (a : Nat) (bs : List Byte) : (s.writeBytes a bs).rdata = s.rdata := rfl
@[simp] theorem State.rootChip_writeBytes (s : State) (a : Nat) (bs : List Byte) : (s.writeBytes a bs).rootChip = s.rootChip := rfl
@[simp] theorem State.peerHandles_writeBytes (s : State) (a : Nat) (bs : List Byte) : (s.writeBytes a bs).peerHandles = s.peerHandles := rfl
@[simp] theorem State.moveSeq_writeBytes (s : State) (a : Nat) (bs : List Byte) : (s.writeBytes a bs).moveSeq = s.moveSeq := rfl
@[simp] theorem State.walks_writeBytes (s : State) (a : Nat) (bs : List Byte) : (s.writeBytes a bs).walks = s.walks := rfl
@[simp] theorem State.signing_writeBytes (s : State) (a : Nat) (bs : List Byte) : (s.writeBytes a bs).signing = s.signing := rfl
@[simp] theorem State.indexes_writeBytes (s : State) (a : Nat) (bs : List Byte) : (s.writeBytes a bs).indexes = s.indexes := rfl
@[simp] theorem State.rbatches_writeBytes (s : State) (a : Nat) (bs : List Byte) : (s.writeBytes a bs).rbatches = s.rbatches := rfl
@[simp] theorem State.rbatchSeq_writeBytes (s : State) (a : Nat) (bs : List Byte) : (s.writeBytes a bs).rbatchSeq = s.rbatchSeq := rfl
@[simp] theorem State.groups_writeBytes (s : State) (a : Nat) (bs : List Byte) : (s.writeBytes a bs).groups = s.groups := rfl
@[simp] theorem State.colGroups_writeBytes (s : State) (a : Nat) (bs : List Byte) : (s.writeBytes a bs).colGroups = s.colGroups := rfl
@[simp] theorem State.chains_writeBytes (s : State) (a : Nat) (bs : List Byte) : (s.writeBytes a bs).chains = s.chains := rfl
@[simp] theorem State.ops_writeBytes (s : State) (a : Nat) (bs : List Byte) : (s.writeBytes a bs).ops = s.ops := rfl
@[simp] theorem State.opSeq_writeBytes (s : State) (a : Nat) (bs : List Byte) : (s.writeBytes a bs).opSeq = s.opSeq := rfl
@[simp] theorem State.colIn_writeBytes (s : State) (a : Nat) (bs : List Byte) : (s.writeBytes a bs).colIn = s.colIn := rfl
@[simp] theorem State.colSteps_writeBytes (s : State) (a : Nat) (bs : List Byte) : (s.writeBytes a bs).colSteps = s.colSteps := rfl
@[simp] theorem State.lostDrains_writeBytes (s : State) (a : Nat) (bs : List Byte) : (s.writeBytes a bs).lostDrains = s.lostDrains := rfl
@[simp] theorem State.peers_writeBytes (s : State) (a : Nat) (bs : List Byte) : (s.writeBytes a bs).peers = s.peers := rfl
@[simp] theorem State.conns_writeBytes (s : State) (a : Nat) (bs : List Byte) : (s.writeBytes a bs).conns = s.conns := rfl
@[simp] theorem State.phys_writeBytes (s : State) (a : Nat) (bs : List Byte) : (s.writeBytes a bs).phys = s.phys := rfl
@[simp] theorem State.discovering_writeBytes (s : State) (a : Nat) (bs : List Byte) : (s.writeBytes a bs).discovering = s.discovering := rfl
@[simp] theorem State.configHash_writeBytes (s : State) (a : Nat) (bs : List Byte) : (s.writeBytes a bs).configHash = s.configHash := rfl
@[simp] theorem State.hall_writeBytes (s : State) (a : Nat) (bs : List Byte) : (s.writeBytes a bs).hall = s.hall := rfl
@[simp] theorem State.syncMap_writeBytes (s : State) (a : Nat) (bs : List Byte) : (s.writeBytes a bs).syncMap = s.syncMap := rfl
@[simp] theorem State.defaultRack_writeBytes (s : State) (a : Nat) (bs : List Byte) : (s.writeBytes a bs).defaultRack = s.defaultRack := rfl
@[simp] theorem State.hubHeld_writeBytes (s : State) (a : Nat) (bs : List Byte) : (s.writeBytes a bs).hubHeld = s.hubHeld := rfl
@[simp] theorem State.linkMap_writeBytes (s : State) (a : Nat) (bs : List Byte) : (s.writeBytes a bs).linkMap = s.linkMap := rfl
@[simp] theorem State.ptpPort_writeBytes (s : State) (a : Nat) (bs : List Byte) : (s.writeBytes a bs).ptpPort = s.ptpPort := rfl
@[simp] theorem State.ptpDomain_writeBytes (s : State) (a : Nat) (bs : List Byte) : (s.writeBytes a bs).ptpDomain = s.ptpDomain := rfl
@[simp] theorem State.storeUpset_writeBytes (s : State) (a : Nat) (bs : List Byte) : (s.writeBytes a bs).storeUpset = s.storeUpset := rfl
@[simp] theorem State.scanStart_writeBytes (s : State) (a : Nat) (bs : List Byte) : (s.writeBytes a bs).scanStart = s.scanStart := rfl
@[simp] theorem State.shiftBook_writeBytes (s : State) (a : Nat) (bs : List Byte) : (s.writeBytes a bs).shiftBook = s.shiftBook := rfl
@[simp] theorem State.endedTasks_writeBytes (s : State) (a : Nat) (bs : List Byte) : (s.writeBytes a bs).endedTasks = s.endedTasks := rfl
@[simp] theorem State.pcieGen_writeBytes (s : State) (a : Nat) (bs : List Byte) : (s.writeBytes a bs).pcieGen = s.pcieGen := rfl
@[simp] theorem State.pcieLanes_writeBytes (s : State) (a : Nat) (bs : List Byte) : (s.writeBytes a bs).pcieLanes = s.pcieLanes := rfl
@[simp] theorem State.ptp_writeBytes (s : State) (a : Nat) (bs : List Byte) : (s.writeBytes a bs).ptp = s.ptp := rfl
@[simp] theorem State.logFloor_writeBytes (s : State) (a : Nat) (bs : List Byte) : (s.writeBytes a bs).logFloor = s.logFloor := rfl
@[simp] theorem State.harvest_writeBytes (s : State) (a : Nat) (bs : List Byte) : (s.writeBytes a bs).harvest = s.harvest := rfl
@[simp] theorem State.harvestSeq_writeBytes (s : State) (a : Nat) (bs : List Byte) : (s.writeBytes a bs).harvestSeq = s.harvestSeq := rfl
@[simp] theorem State.boot_writeBytes (s : State) (a : Nat) (bs : List Byte) : (s.writeBytes a bs).boot = s.boot := rfl
@[simp] theorem State.safety_writeBytes (s : State) (a : Nat) (bs : List Byte) : (s.writeBytes a bs).safety = s.safety := rfl
@[simp] theorem State.ptpUse_writeBytes (s : State) (a : Nat) (bs : List Byte) : (s.writeBytes a bs).ptpUse = s.ptpUse := rfl
@[simp] theorem State.portAddr_writeBytes (s : State) (a : Nat) (bs : List Byte) : (s.writeBytes a bs).portAddr = s.portAddr := rfl
@[simp] theorem State.perf_writeBytes (s : State) (a : Nat) (bs : List Byte) : (s.writeBytes a bs).perf = s.perf := rfl
@[simp] theorem State.regionCounts_writeBytes (s : State) (a : Nat) (bs : List Byte) : (s.writeBytes a bs).domainCounts = s.domainCounts := rfl
@[simp] theorem State.chipCounts_writeBytes (s : State) (a : Nat) (bs : List Byte) : (s.writeBytes a bs).chipCounts = s.chipCounts := rfl
@[simp] theorem State.replay_writeBytes (s : State) (a : Nat) (bs : List Byte) : (s.writeBytes a bs).replay = s.replay := rfl
@[simp] theorem State.chipWait_writeBytes (s : State) (a : Nat) (bs : List Byte) : (s.writeBytes a bs).chipWait = s.chipWait := rfl
@[simp] theorem State.hubLost_writeBytes (s : State) (a : Nat) (bs : List Byte) : (s.writeBytes a bs).hubLost = s.hubLost := rfl
@[simp] theorem State.pcieLost_writeBytes (s : State) (a : Nat) (bs : List Byte) : (s.writeBytes a bs).pcieLost = s.pcieLost := rfl
@[simp] theorem State.halted_writeBytes (s : State) (a : Nat) (bs : List Byte) : (s.writeBytes a bs).halted = s.halted := rfl
@[simp] theorem State.coolSince_writeBytes (s : State) (a : Nat) (bs : List Byte) : (s.writeBytes a bs).coolSince = s.coolSince := rfl
@[simp] theorem State.governors_writeBytes (s : State) (a : Nat) (bs : List Byte) : (s.writeBytes a bs).governors = s.governors := rfl
@[simp] theorem State.excursion_writeBytes (s : State) (a : Nat) (bs : List Byte) : (s.writeBytes a bs).excursion = s.excursion := rfl
@[simp] theorem State.droopTick_writeBytes (s : State) (a : Nat) (bs : List Byte) : (s.writeBytes a bs).droopTick = s.droopTick := rfl
@[simp] theorem State.heartPin_writeBytes (s : State) (a : Nat) (bs : List Byte) : (s.writeBytes a bs).heartPin = s.heartPin := rfl
@[simp] theorem State.beatPin_writeBytes (s : State) (a : Nat) (bs : List Byte) : (s.writeBytes a bs).beatPin = s.beatPin := rfl
@[simp] theorem State.alertFrom_writeBytes (s : State) (a : Nat) (bs : List Byte) : (s.writeBytes a bs).alertFrom = s.alertFrom := rfl
@[simp] theorem State.admWait_writeBytes (s : State) (a : Nat) (bs : List Byte) : (s.writeBytes a bs).admWait = s.admWait := rfl
@[simp] theorem State.mainLost_writeBytes (s : State) (a : Nat) (bs : List Byte) : (s.writeBytes a bs).mainLost = s.mainLost := rfl
@[simp] theorem State.cooling_writeBytes (s : State) (a : Nat) (bs : List Byte) : (s.writeBytes a bs).cooling = s.cooling := rfl
@[simp] theorem State.privLocked_writeBytes (s : State) (a : Nat) (bs : List Byte) : (s.writeBytes a bs).privLocked = s.privLocked := rfl

@[simp] theorem State.regs_writeHost (s : State) (a : Nat) (bs : List Byte) : (s.writeHost a bs).regs = s.regs := rfl
@[simp] theorem State.mem_writeHost (s : State) (a : Nat) (bs : List Byte) : (s.writeHost a bs).mem = s.mem := rfl
@[simp] theorem State.poison_writeHost (s : State) (a : Nat) (bs : List Byte) : (s.writeHost a bs).poison = s.poison := rfl
@[simp] theorem State.cells_writeHost (s : State) (a : Nat) (bs : List Byte) : (s.writeHost a bs).cells = s.cells := rfl
@[simp] theorem State.blocks_writeHost (s : State) (a : Nat) (bs : List Byte) : (s.writeHost a bs).blocks = s.blocks := rfl
@[simp] theorem State.tasks_writeHost (s : State) (a : Nat) (bs : List Byte) : (s.writeHost a bs).tasks = s.tasks := rfl
@[simp] theorem State.taskSeq_writeHost (s : State) (a : Nat) (bs : List Byte) : (s.writeHost a bs).taskSeq = s.taskSeq := rfl
@[simp] theorem State.streams_writeHost (s : State) (a : Nat) (bs : List Byte) : (s.writeHost a bs).streams = s.streams := rfl
@[simp] theorem State.armSeq_writeHost (s : State) (a : Nat) (bs : List Byte) : (s.writeHost a bs).armSeq = s.armSeq := rfl
@[simp] theorem State.resetsRun_writeHost (s : State) (a : Nat) (bs : List Byte) : (s.writeHost a bs).resetsRun = s.resetsRun := rfl
@[simp] theorem State.harts_writeHost (s : State) (a : Nat) (bs : List Byte) : (s.writeHost a bs).harts = s.harts := rfl
@[simp] theorem State.clock_writeHost (s : State) (a : Nat) (bs : List Byte) : (s.writeHost a bs).clock = s.clock := rfl
@[simp] theorem State.hubTurn_writeHost (s : State) (a : Nat) (bs : List Byte) : (s.writeHost a bs).hubTurn = s.hubTurn := rfl
@[simp] theorem State.hubLeft_writeHost (s : State) (a : Nat) (bs : List Byte) : (s.writeHost a bs).hubLeft = s.hubLeft := rfl
@[simp] theorem State.pressed_writeHost (s : State) (a : Nat) (bs : List Byte) : (s.writeHost a bs).pressed = s.pressed := rfl
@[simp] theorem State.domainCounts_writeHost (s : State) (a : Nat) (bs : List Byte) : (s.writeHost a bs).domainCounts = s.domainCounts := rfl
@[simp] theorem State.events_writeHost (s : State) (a : Nat) (bs : List Byte) : (s.writeHost a bs).events = s.events := rfl
@[simp] theorem State.eventSeq_writeHost (s : State) (a : Nat) (bs : List Byte) : (s.writeHost a bs).eventSeq = s.eventSeq := rfl
@[simp] theorem State.sync_writeHost (s : State) (a : Nat) (bs : List Byte) : (s.writeHost a bs).sync = s.sync := rfl
@[simp] theorem State.scrub_writeHost (s : State) (a : Nat) (bs : List Byte) : (s.writeHost a bs).scrub = s.scrub := rfl
@[simp] theorem State.resets_writeHost (s : State) (a : Nat) (bs : List Byte) : (s.writeHost a bs).resets = s.resets := rfl
@[simp] theorem State.log_writeHost (s : State) (a : Nat) (bs : List Byte) : (s.writeHost a bs).log = s.log := rfl
@[simp] theorem State.logSeq_writeHost (s : State) (a : Nat) (bs : List Byte) : (s.writeHost a bs).logSeq = s.logSeq := rfl
@[simp] theorem State.sundial_writeHost (s : State) (a : Nat) (bs : List Byte) : (s.writeHost a bs).sundial = s.sundial := rfl
@[simp] theorem State.phase_writeHost (s : State) (a : Nat) (bs : List Byte) : (s.writeHost a bs).phase = s.phase := rfl
@[simp] theorem State.slew_writeHost (s : State) (a : Nat) (bs : List Byte) : (s.writeHost a bs).slew = s.slew := rfl
@[simp] theorem State.slewTick_writeHost (s : State) (a : Nat) (bs : List Byte) : (s.writeHost a bs).slewTick = s.slewTick := rfl
@[simp] theorem State.latch_writeHost (s : State) (a : Nat) (bs : List Byte) : (s.writeHost a bs).latch = s.latch := rfl
@[simp] theorem State.free_writeHost (s : State) (a : Nat) (bs : List Byte) : (s.writeHost a bs).free = s.free := rfl
@[simp] theorem State.pending_writeHost (s : State) (a : Nat) (bs : List Byte) : (s.writeHost a bs).pending = s.pending := rfl
@[simp] theorem State.plots_writeHost (s : State) (a : Nat) (bs : List Byte) : (s.writeHost a bs).plots = s.plots := rfl
@[simp] theorem State.pools_writeHost (s : State) (a : Nat) (bs : List Byte) : (s.writeHost a bs).pools = s.pools := rfl
@[simp] theorem State.frames_writeHost (s : State) (a : Nat) (bs : List Byte) : (s.writeHost a bs).frames = s.frames := rfl
@[simp] theorem State.seqs_writeHost (s : State) (a : Nat) (bs : List Byte) : (s.writeHost a bs).seqs = s.seqs := rfl
@[simp] theorem State.journal_writeHost (s : State) (a : Nat) (bs : List Byte) : (s.writeHost a bs).journal = s.journal := rfl
@[simp] theorem State.batches_writeHost (s : State) (a : Nat) (bs : List Byte) : (s.writeHost a bs).batches = s.batches := rfl
@[simp] theorem State.draining_writeHost (s : State) (a : Nat) (bs : List Byte) : (s.writeHost a bs).draining = s.draining := rfl
@[simp] theorem State.kvmTurn_writeHost (s : State) (a : Nat) (bs : List Byte) : (s.writeHost a bs).kvmTurn = s.kvmTurn := rfl
@[simp] theorem State.kvmOwed_writeHost (s : State) (a : Nat) (bs : List Byte) : (s.writeHost a bs).kvmOwed = s.kvmOwed := rfl
@[simp] theorem State.kvmSeq_writeHost (s : State) (a : Nat) (bs : List Byte) : (s.writeHost a bs).kvmSeq = s.kvmSeq := rfl
@[simp] theorem State.admTurn_writeHost (s : State) (a : Nat) (bs : List Byte) : (s.writeHost a bs).admTurn = s.admTurn := rfl
@[simp] theorem State.out_writeHost (s : State) (a : Nat) (bs : List Byte) : (s.writeHost a bs).out = s.out := rfl
@[simp] theorem State.reqs_writeHost (s : State) (a : Nat) (bs : List Byte) : (s.writeHost a bs).reqs = s.reqs := rfl
@[simp] theorem State.msgTag_writeHost (s : State) (a : Nat) (bs : List Byte) : (s.writeHost a bs).msgTag = s.msgTag := rfl
@[simp] theorem State.eccReports_writeHost (s : State) (a : Nat) (bs : List Byte) : (s.writeHost a bs).eccReports = s.eccReports := rfl
@[simp] theorem State.rdata_writeHost (s : State) (a : Nat) (bs : List Byte) : (s.writeHost a bs).rdata = s.rdata := rfl
@[simp] theorem State.rootChip_writeHost (s : State) (a : Nat) (bs : List Byte) : (s.writeHost a bs).rootChip = s.rootChip := rfl
@[simp] theorem State.peerHandles_writeHost (s : State) (a : Nat) (bs : List Byte) : (s.writeHost a bs).peerHandles = s.peerHandles := rfl
@[simp] theorem State.moveSeq_writeHost (s : State) (a : Nat) (bs : List Byte) : (s.writeHost a bs).moveSeq = s.moveSeq := rfl
@[simp] theorem State.walks_writeHost (s : State) (a : Nat) (bs : List Byte) : (s.writeHost a bs).walks = s.walks := rfl
@[simp] theorem State.signing_writeHost (s : State) (a : Nat) (bs : List Byte) : (s.writeHost a bs).signing = s.signing := rfl
@[simp] theorem State.indexes_writeHost (s : State) (a : Nat) (bs : List Byte) : (s.writeHost a bs).indexes = s.indexes := rfl
@[simp] theorem State.rbatches_writeHost (s : State) (a : Nat) (bs : List Byte) : (s.writeHost a bs).rbatches = s.rbatches := rfl
@[simp] theorem State.rbatchSeq_writeHost (s : State) (a : Nat) (bs : List Byte) : (s.writeHost a bs).rbatchSeq = s.rbatchSeq := rfl
@[simp] theorem State.groups_writeHost (s : State) (a : Nat) (bs : List Byte) : (s.writeHost a bs).groups = s.groups := rfl
@[simp] theorem State.colGroups_writeHost (s : State) (a : Nat) (bs : List Byte) : (s.writeHost a bs).colGroups = s.colGroups := rfl
@[simp] theorem State.chains_writeHost (s : State) (a : Nat) (bs : List Byte) : (s.writeHost a bs).chains = s.chains := rfl
@[simp] theorem State.ops_writeHost (s : State) (a : Nat) (bs : List Byte) : (s.writeHost a bs).ops = s.ops := rfl
@[simp] theorem State.opSeq_writeHost (s : State) (a : Nat) (bs : List Byte) : (s.writeHost a bs).opSeq = s.opSeq := rfl
@[simp] theorem State.colIn_writeHost (s : State) (a : Nat) (bs : List Byte) : (s.writeHost a bs).colIn = s.colIn := rfl
@[simp] theorem State.colSteps_writeHost (s : State) (a : Nat) (bs : List Byte) : (s.writeHost a bs).colSteps = s.colSteps := rfl
@[simp] theorem State.lostDrains_writeHost (s : State) (a : Nat) (bs : List Byte) : (s.writeHost a bs).lostDrains = s.lostDrains := rfl
@[simp] theorem State.peers_writeHost (s : State) (a : Nat) (bs : List Byte) : (s.writeHost a bs).peers = s.peers := rfl
@[simp] theorem State.conns_writeHost (s : State) (a : Nat) (bs : List Byte) : (s.writeHost a bs).conns = s.conns := rfl
@[simp] theorem State.phys_writeHost (s : State) (a : Nat) (bs : List Byte) : (s.writeHost a bs).phys = s.phys := rfl
@[simp] theorem State.discovering_writeHost (s : State) (a : Nat) (bs : List Byte) : (s.writeHost a bs).discovering = s.discovering := rfl
@[simp] theorem State.configHash_writeHost (s : State) (a : Nat) (bs : List Byte) : (s.writeHost a bs).configHash = s.configHash := rfl
@[simp] theorem State.hall_writeHost (s : State) (a : Nat) (bs : List Byte) : (s.writeHost a bs).hall = s.hall := rfl
@[simp] theorem State.syncMap_writeHost (s : State) (a : Nat) (bs : List Byte) : (s.writeHost a bs).syncMap = s.syncMap := rfl
@[simp] theorem State.defaultRack_writeHost (s : State) (a : Nat) (bs : List Byte) : (s.writeHost a bs).defaultRack = s.defaultRack := rfl
@[simp] theorem State.hubHeld_writeHost (s : State) (a : Nat) (bs : List Byte) : (s.writeHost a bs).hubHeld = s.hubHeld := rfl
@[simp] theorem State.linkMap_writeHost (s : State) (a : Nat) (bs : List Byte) : (s.writeHost a bs).linkMap = s.linkMap := rfl
@[simp] theorem State.ptpPort_writeHost (s : State) (a : Nat) (bs : List Byte) : (s.writeHost a bs).ptpPort = s.ptpPort := rfl
@[simp] theorem State.ptpDomain_writeHost (s : State) (a : Nat) (bs : List Byte) : (s.writeHost a bs).ptpDomain = s.ptpDomain := rfl
@[simp] theorem State.storeUpset_writeHost (s : State) (a : Nat) (bs : List Byte) : (s.writeHost a bs).storeUpset = s.storeUpset := rfl
@[simp] theorem State.scanStart_writeHost (s : State) (a : Nat) (bs : List Byte) : (s.writeHost a bs).scanStart = s.scanStart := rfl
@[simp] theorem State.shiftBook_writeHost (s : State) (a : Nat) (bs : List Byte) : (s.writeHost a bs).shiftBook = s.shiftBook := rfl
@[simp] theorem State.endedTasks_writeHost (s : State) (a : Nat) (bs : List Byte) : (s.writeHost a bs).endedTasks = s.endedTasks := rfl
@[simp] theorem State.pcieGen_writeHost (s : State) (a : Nat) (bs : List Byte) : (s.writeHost a bs).pcieGen = s.pcieGen := rfl
@[simp] theorem State.pcieLanes_writeHost (s : State) (a : Nat) (bs : List Byte) : (s.writeHost a bs).pcieLanes = s.pcieLanes := rfl
@[simp] theorem State.ptp_writeHost (s : State) (a : Nat) (bs : List Byte) : (s.writeHost a bs).ptp = s.ptp := rfl
@[simp] theorem State.logFloor_writeHost (s : State) (a : Nat) (bs : List Byte) : (s.writeHost a bs).logFloor = s.logFloor := rfl
@[simp] theorem State.harvest_writeHost (s : State) (a : Nat) (bs : List Byte) : (s.writeHost a bs).harvest = s.harvest := rfl
@[simp] theorem State.harvestSeq_writeHost (s : State) (a : Nat) (bs : List Byte) : (s.writeHost a bs).harvestSeq = s.harvestSeq := rfl
@[simp] theorem State.boot_writeHost (s : State) (a : Nat) (bs : List Byte) : (s.writeHost a bs).boot = s.boot := rfl
@[simp] theorem State.safety_writeHost (s : State) (a : Nat) (bs : List Byte) : (s.writeHost a bs).safety = s.safety := rfl
@[simp] theorem State.ptpUse_writeHost (s : State) (a : Nat) (bs : List Byte) : (s.writeHost a bs).ptpUse = s.ptpUse := rfl
@[simp] theorem State.portAddr_writeHost (s : State) (a : Nat) (bs : List Byte) : (s.writeHost a bs).portAddr = s.portAddr := rfl
@[simp] theorem State.perf_writeHost (s : State) (a : Nat) (bs : List Byte) : (s.writeHost a bs).perf = s.perf := rfl
@[simp] theorem State.regionCounts_writeHost (s : State) (a : Nat) (bs : List Byte) : (s.writeHost a bs).domainCounts = s.domainCounts := rfl
@[simp] theorem State.chipCounts_writeHost (s : State) (a : Nat) (bs : List Byte) : (s.writeHost a bs).chipCounts = s.chipCounts := rfl
@[simp] theorem State.replay_writeHost (s : State) (a : Nat) (bs : List Byte) : (s.writeHost a bs).replay = s.replay := rfl
@[simp] theorem State.chipWait_writeHost (s : State) (a : Nat) (bs : List Byte) : (s.writeHost a bs).chipWait = s.chipWait := rfl
@[simp] theorem State.hubLost_writeHost (s : State) (a : Nat) (bs : List Byte) : (s.writeHost a bs).hubLost = s.hubLost := rfl
@[simp] theorem State.pcieLost_writeHost (s : State) (a : Nat) (bs : List Byte) : (s.writeHost a bs).pcieLost = s.pcieLost := rfl
@[simp] theorem State.halted_writeHost (s : State) (a : Nat) (bs : List Byte) : (s.writeHost a bs).halted = s.halted := rfl
@[simp] theorem State.coolSince_writeHost (s : State) (a : Nat) (bs : List Byte) : (s.writeHost a bs).coolSince = s.coolSince := rfl
@[simp] theorem State.governors_writeHost (s : State) (a : Nat) (bs : List Byte) : (s.writeHost a bs).governors = s.governors := rfl
@[simp] theorem State.excursion_writeHost (s : State) (a : Nat) (bs : List Byte) : (s.writeHost a bs).excursion = s.excursion := rfl
@[simp] theorem State.droopTick_writeHost (s : State) (a : Nat) (bs : List Byte) : (s.writeHost a bs).droopTick = s.droopTick := rfl
@[simp] theorem State.heartPin_writeHost (s : State) (a : Nat) (bs : List Byte) : (s.writeHost a bs).heartPin = s.heartPin := rfl
@[simp] theorem State.beatPin_writeHost (s : State) (a : Nat) (bs : List Byte) : (s.writeHost a bs).beatPin = s.beatPin := rfl
@[simp] theorem State.alertFrom_writeHost (s : State) (a : Nat) (bs : List Byte) : (s.writeHost a bs).alertFrom = s.alertFrom := rfl
@[simp] theorem State.admWait_writeHost (s : State) (a : Nat) (bs : List Byte) : (s.writeHost a bs).admWait = s.admWait := rfl
@[simp] theorem State.mainLost_writeHost (s : State) (a : Nat) (bs : List Byte) : (s.writeHost a bs).mainLost = s.mainLost := rfl
@[simp] theorem State.cooling_writeHost (s : State) (a : Nat) (bs : List Byte) : (s.writeHost a bs).cooling = s.cooling := rfl
@[simp] theorem State.privLocked_writeHost (s : State) (a : Nat) (bs : List Byte) : (s.writeHost a bs).privLocked = s.privLocked := rfl

@[simp] theorem State.regs_setPoison (s : State) (a : Nat) (b : Bool) : (s.setPoison a b).regs = s.regs := rfl
@[simp] theorem State.mem_setPoison (s : State) (a : Nat) (b : Bool) : (s.setPoison a b).mem = s.mem := rfl
@[simp] theorem State.hostMem_setPoison (s : State) (a : Nat) (b : Bool) : (s.setPoison a b).hostMem = s.hostMem := rfl
@[simp] theorem State.cells_setPoison (s : State) (a : Nat) (b : Bool) : (s.setPoison a b).cells = s.cells := rfl
@[simp] theorem State.blocks_setPoison (s : State) (a : Nat) (b : Bool) : (s.setPoison a b).blocks = s.blocks := rfl
@[simp] theorem State.tasks_setPoison (s : State) (a : Nat) (b : Bool) : (s.setPoison a b).tasks = s.tasks := rfl
@[simp] theorem State.taskSeq_setPoison (s : State) (a : Nat) (b : Bool) : (s.setPoison a b).taskSeq = s.taskSeq := rfl
@[simp] theorem State.streams_setPoison (s : State) (a : Nat) (b : Bool) : (s.setPoison a b).streams = s.streams := rfl
@[simp] theorem State.armSeq_setPoison (s : State) (a : Nat) (b : Bool) : (s.setPoison a b).armSeq = s.armSeq := rfl
@[simp] theorem State.resetsRun_setPoison (s : State) (a : Nat) (b : Bool) : (s.setPoison a b).resetsRun = s.resetsRun := rfl
@[simp] theorem State.harts_setPoison (s : State) (a : Nat) (b : Bool) : (s.setPoison a b).harts = s.harts := rfl
@[simp] theorem State.clock_setPoison (s : State) (a : Nat) (b : Bool) : (s.setPoison a b).clock = s.clock := rfl
@[simp] theorem State.hubTurn_setPoison (s : State) (a : Nat) (b : Bool) : (s.setPoison a b).hubTurn = s.hubTurn := rfl
@[simp] theorem State.hubLeft_setPoison (s : State) (a : Nat) (b : Bool) : (s.setPoison a b).hubLeft = s.hubLeft := rfl
@[simp] theorem State.pressed_setPoison (s : State) (a : Nat) (b : Bool) : (s.setPoison a b).pressed = s.pressed := rfl
@[simp] theorem State.domainCounts_setPoison (s : State) (a : Nat) (b : Bool) : (s.setPoison a b).domainCounts = s.domainCounts := rfl
@[simp] theorem State.events_setPoison (s : State) (a : Nat) (b : Bool) : (s.setPoison a b).events = s.events := rfl
@[simp] theorem State.eventSeq_setPoison (s : State) (a : Nat) (b : Bool) : (s.setPoison a b).eventSeq = s.eventSeq := rfl
@[simp] theorem State.sync_setPoison (s : State) (a : Nat) (b : Bool) : (s.setPoison a b).sync = s.sync := rfl
@[simp] theorem State.scrub_setPoison (s : State) (a : Nat) (b : Bool) : (s.setPoison a b).scrub = s.scrub := rfl
@[simp] theorem State.resets_setPoison (s : State) (a : Nat) (b : Bool) : (s.setPoison a b).resets = s.resets := rfl
@[simp] theorem State.log_setPoison (s : State) (a : Nat) (b : Bool) : (s.setPoison a b).log = s.log := rfl
@[simp] theorem State.logSeq_setPoison (s : State) (a : Nat) (b : Bool) : (s.setPoison a b).logSeq = s.logSeq := rfl
@[simp] theorem State.sundial_setPoison (s : State) (a : Nat) (b : Bool) : (s.setPoison a b).sundial = s.sundial := rfl
@[simp] theorem State.phase_setPoison (s : State) (a : Nat) (b : Bool) : (s.setPoison a b).phase = s.phase := rfl
@[simp] theorem State.slew_setPoison (s : State) (a : Nat) (b : Bool) : (s.setPoison a b).slew = s.slew := rfl
@[simp] theorem State.slewTick_setPoison (s : State) (a : Nat) (b : Bool) : (s.setPoison a b).slewTick = s.slewTick := rfl
@[simp] theorem State.latch_setPoison (s : State) (a : Nat) (b : Bool) : (s.setPoison a b).latch = s.latch := rfl
@[simp] theorem State.free_setPoison (s : State) (a : Nat) (b : Bool) : (s.setPoison a b).free = s.free := rfl
@[simp] theorem State.pending_setPoison (s : State) (a : Nat) (b : Bool) : (s.setPoison a b).pending = s.pending := rfl
@[simp] theorem State.plots_setPoison (s : State) (a : Nat) (b : Bool) : (s.setPoison a b).plots = s.plots := rfl
@[simp] theorem State.pools_setPoison (s : State) (a : Nat) (b : Bool) : (s.setPoison a b).pools = s.pools := rfl
@[simp] theorem State.frames_setPoison (s : State) (a : Nat) (b : Bool) : (s.setPoison a b).frames = s.frames := rfl
@[simp] theorem State.seqs_setPoison (s : State) (a : Nat) (b : Bool) : (s.setPoison a b).seqs = s.seqs := rfl
@[simp] theorem State.journal_setPoison (s : State) (a : Nat) (b : Bool) : (s.setPoison a b).journal = s.journal := rfl
@[simp] theorem State.batches_setPoison (s : State) (a : Nat) (b : Bool) : (s.setPoison a b).batches = s.batches := rfl
@[simp] theorem State.draining_setPoison (s : State) (a : Nat) (b : Bool) : (s.setPoison a b).draining = s.draining := rfl
@[simp] theorem State.kvmTurn_setPoison (s : State) (a : Nat) (b : Bool) : (s.setPoison a b).kvmTurn = s.kvmTurn := rfl
@[simp] theorem State.kvmOwed_setPoison (s : State) (a : Nat) (b : Bool) : (s.setPoison a b).kvmOwed = s.kvmOwed := rfl
@[simp] theorem State.kvmSeq_setPoison (s : State) (a : Nat) (b : Bool) : (s.setPoison a b).kvmSeq = s.kvmSeq := rfl
@[simp] theorem State.admTurn_setPoison (s : State) (a : Nat) (b : Bool) : (s.setPoison a b).admTurn = s.admTurn := rfl
@[simp] theorem State.out_setPoison (s : State) (a : Nat) (b : Bool) : (s.setPoison a b).out = s.out := rfl
@[simp] theorem State.reqs_setPoison (s : State) (a : Nat) (b : Bool) : (s.setPoison a b).reqs = s.reqs := rfl
@[simp] theorem State.msgTag_setPoison (s : State) (a : Nat) (b : Bool) : (s.setPoison a b).msgTag = s.msgTag := rfl
@[simp] theorem State.eccReports_setPoison (s : State) (a : Nat) (b : Bool) : (s.setPoison a b).eccReports = s.eccReports := rfl
@[simp] theorem State.rdata_setPoison (s : State) (a : Nat) (b : Bool) : (s.setPoison a b).rdata = s.rdata := rfl
@[simp] theorem State.rootChip_setPoison (s : State) (a : Nat) (b : Bool) : (s.setPoison a b).rootChip = s.rootChip := rfl
@[simp] theorem State.peerHandles_setPoison (s : State) (a : Nat) (b : Bool) : (s.setPoison a b).peerHandles = s.peerHandles := rfl
@[simp] theorem State.moveSeq_setPoison (s : State) (a : Nat) (b : Bool) : (s.setPoison a b).moveSeq = s.moveSeq := rfl
@[simp] theorem State.walks_setPoison (s : State) (a : Nat) (b : Bool) : (s.setPoison a b).walks = s.walks := rfl
@[simp] theorem State.signing_setPoison (s : State) (a : Nat) (b : Bool) : (s.setPoison a b).signing = s.signing := rfl
@[simp] theorem State.indexes_setPoison (s : State) (a : Nat) (b : Bool) : (s.setPoison a b).indexes = s.indexes := rfl
@[simp] theorem State.rbatches_setPoison (s : State) (a : Nat) (b : Bool) : (s.setPoison a b).rbatches = s.rbatches := rfl
@[simp] theorem State.rbatchSeq_setPoison (s : State) (a : Nat) (b : Bool) : (s.setPoison a b).rbatchSeq = s.rbatchSeq := rfl
@[simp] theorem State.groups_setPoison (s : State) (a : Nat) (b : Bool) : (s.setPoison a b).groups = s.groups := rfl
@[simp] theorem State.colGroups_setPoison (s : State) (a : Nat) (b : Bool) : (s.setPoison a b).colGroups = s.colGroups := rfl
@[simp] theorem State.chains_setPoison (s : State) (a : Nat) (b : Bool) : (s.setPoison a b).chains = s.chains := rfl
@[simp] theorem State.ops_setPoison (s : State) (a : Nat) (b : Bool) : (s.setPoison a b).ops = s.ops := rfl
@[simp] theorem State.opSeq_setPoison (s : State) (a : Nat) (b : Bool) : (s.setPoison a b).opSeq = s.opSeq := rfl
@[simp] theorem State.colIn_setPoison (s : State) (a : Nat) (b : Bool) : (s.setPoison a b).colIn = s.colIn := rfl
@[simp] theorem State.colSteps_setPoison (s : State) (a : Nat) (b : Bool) : (s.setPoison a b).colSteps = s.colSteps := rfl
@[simp] theorem State.lostDrains_setPoison (s : State) (a : Nat) (b : Bool) : (s.setPoison a b).lostDrains = s.lostDrains := rfl
@[simp] theorem State.peers_setPoison (s : State) (a : Nat) (b : Bool) : (s.setPoison a b).peers = s.peers := rfl
@[simp] theorem State.conns_setPoison (s : State) (a : Nat) (b : Bool) : (s.setPoison a b).conns = s.conns := rfl
@[simp] theorem State.phys_setPoison (s : State) (a : Nat) (b : Bool) : (s.setPoison a b).phys = s.phys := rfl
@[simp] theorem State.discovering_setPoison (s : State) (a : Nat) (b : Bool) : (s.setPoison a b).discovering = s.discovering := rfl
@[simp] theorem State.configHash_setPoison (s : State) (a : Nat) (b : Bool) : (s.setPoison a b).configHash = s.configHash := rfl
@[simp] theorem State.hall_setPoison (s : State) (a : Nat) (b : Bool) : (s.setPoison a b).hall = s.hall := rfl
@[simp] theorem State.syncMap_setPoison (s : State) (a : Nat) (b : Bool) : (s.setPoison a b).syncMap = s.syncMap := rfl
@[simp] theorem State.defaultRack_setPoison (s : State) (a : Nat) (b : Bool) : (s.setPoison a b).defaultRack = s.defaultRack := rfl
@[simp] theorem State.hubHeld_setPoison (s : State) (a : Nat) (b : Bool) : (s.setPoison a b).hubHeld = s.hubHeld := rfl
@[simp] theorem State.linkMap_setPoison (s : State) (a : Nat) (b : Bool) : (s.setPoison a b).linkMap = s.linkMap := rfl
@[simp] theorem State.ptpPort_setPoison (s : State) (a : Nat) (b : Bool) : (s.setPoison a b).ptpPort = s.ptpPort := rfl
@[simp] theorem State.ptpDomain_setPoison (s : State) (a : Nat) (b : Bool) : (s.setPoison a b).ptpDomain = s.ptpDomain := rfl
@[simp] theorem State.storeUpset_setPoison (s : State) (a : Nat) (b : Bool) : (s.setPoison a b).storeUpset = s.storeUpset := rfl
@[simp] theorem State.scanStart_setPoison (s : State) (a : Nat) (b : Bool) : (s.setPoison a b).scanStart = s.scanStart := rfl
@[simp] theorem State.shiftBook_setPoison (s : State) (a : Nat) (b : Bool) : (s.setPoison a b).shiftBook = s.shiftBook := rfl
@[simp] theorem State.endedTasks_setPoison (s : State) (a : Nat) (b : Bool) : (s.setPoison a b).endedTasks = s.endedTasks := rfl
@[simp] theorem State.pcieGen_setPoison (s : State) (a : Nat) (b : Bool) : (s.setPoison a b).pcieGen = s.pcieGen := rfl
@[simp] theorem State.pcieLanes_setPoison (s : State) (a : Nat) (b : Bool) : (s.setPoison a b).pcieLanes = s.pcieLanes := rfl
@[simp] theorem State.ptp_setPoison (s : State) (a : Nat) (b : Bool) : (s.setPoison a b).ptp = s.ptp := rfl
@[simp] theorem State.logFloor_setPoison (s : State) (a : Nat) (b : Bool) : (s.setPoison a b).logFloor = s.logFloor := rfl
@[simp] theorem State.harvest_setPoison (s : State) (a : Nat) (b : Bool) : (s.setPoison a b).harvest = s.harvest := rfl
@[simp] theorem State.harvestSeq_setPoison (s : State) (a : Nat) (b : Bool) : (s.setPoison a b).harvestSeq = s.harvestSeq := rfl
@[simp] theorem State.boot_setPoison (s : State) (a : Nat) (b : Bool) : (s.setPoison a b).boot = s.boot := rfl
@[simp] theorem State.safety_setPoison (s : State) (a : Nat) (b : Bool) : (s.setPoison a b).safety = s.safety := rfl
@[simp] theorem State.ptpUse_setPoison (s : State) (a : Nat) (b : Bool) : (s.setPoison a b).ptpUse = s.ptpUse := rfl
@[simp] theorem State.portAddr_setPoison (s : State) (a : Nat) (b : Bool) : (s.setPoison a b).portAddr = s.portAddr := rfl
@[simp] theorem State.perf_setPoison (s : State) (a : Nat) (b : Bool) : (s.setPoison a b).perf = s.perf := rfl
@[simp] theorem State.regionCounts_setPoison (s : State) (a : Nat) (b : Bool) : (s.setPoison a b).domainCounts = s.domainCounts := rfl
@[simp] theorem State.chipCounts_setPoison (s : State) (a : Nat) (b : Bool) : (s.setPoison a b).chipCounts = s.chipCounts := rfl
@[simp] theorem State.replay_setPoison (s : State) (a : Nat) (b : Bool) : (s.setPoison a b).replay = s.replay := rfl
@[simp] theorem State.chipWait_setPoison (s : State) (a : Nat) (b : Bool) : (s.setPoison a b).chipWait = s.chipWait := rfl
@[simp] theorem State.hubLost_setPoison (s : State) (a : Nat) (b : Bool) : (s.setPoison a b).hubLost = s.hubLost := rfl
@[simp] theorem State.pcieLost_setPoison (s : State) (a : Nat) (b : Bool) : (s.setPoison a b).pcieLost = s.pcieLost := rfl
@[simp] theorem State.halted_setPoison (s : State) (a : Nat) (b : Bool) : (s.setPoison a b).halted = s.halted := rfl
@[simp] theorem State.coolSince_setPoison (s : State) (a : Nat) (b : Bool) : (s.setPoison a b).coolSince = s.coolSince := rfl
@[simp] theorem State.governors_setPoison (s : State) (a : Nat) (b : Bool) : (s.setPoison a b).governors = s.governors := rfl
@[simp] theorem State.excursion_setPoison (s : State) (a : Nat) (b : Bool) : (s.setPoison a b).excursion = s.excursion := rfl
@[simp] theorem State.droopTick_setPoison (s : State) (a : Nat) (b : Bool) : (s.setPoison a b).droopTick = s.droopTick := rfl
@[simp] theorem State.heartPin_setPoison (s : State) (a : Nat) (b : Bool) : (s.setPoison a b).heartPin = s.heartPin := rfl
@[simp] theorem State.beatPin_setPoison (s : State) (a : Nat) (b : Bool) : (s.setPoison a b).beatPin = s.beatPin := rfl
@[simp] theorem State.alertFrom_setPoison (s : State) (a : Nat) (b : Bool) : (s.setPoison a b).alertFrom = s.alertFrom := rfl
@[simp] theorem State.admWait_setPoison (s : State) (a : Nat) (b : Bool) : (s.setPoison a b).admWait = s.admWait := rfl
@[simp] theorem State.mainLost_setPoison (s : State) (a : Nat) (b : Bool) : (s.setPoison a b).mainLost = s.mainLost := rfl
@[simp] theorem State.cooling_setPoison (s : State) (a : Nat) (b : Bool) : (s.setPoison a b).cooling = s.cooling := rfl
@[simp] theorem State.privLocked_setPoison (s : State) (a : Nat) (b : Bool) : (s.setPoison a b).privLocked = s.privLocked := rfl

@[simp] theorem State.regs_setCell (s : State) (c : Nat) (x : Cell) : (s.setCell c x).regs = s.regs := rfl
@[simp] theorem State.mem_setCell (s : State) (c : Nat) (x : Cell) : (s.setCell c x).mem = s.mem := rfl
@[simp] theorem State.hostMem_setCell (s : State) (c : Nat) (x : Cell) : (s.setCell c x).hostMem = s.hostMem := rfl
@[simp] theorem State.poison_setCell (s : State) (c : Nat) (x : Cell) : (s.setCell c x).poison = s.poison := rfl
@[simp] theorem State.blocks_setCell (s : State) (c : Nat) (x : Cell) : (s.setCell c x).blocks = s.blocks := rfl
@[simp] theorem State.tasks_setCell (s : State) (c : Nat) (x : Cell) : (s.setCell c x).tasks = s.tasks := rfl
@[simp] theorem State.taskSeq_setCell (s : State) (c : Nat) (x : Cell) : (s.setCell c x).taskSeq = s.taskSeq := rfl
@[simp] theorem State.streams_setCell (s : State) (c : Nat) (x : Cell) : (s.setCell c x).streams = s.streams := rfl
@[simp] theorem State.armSeq_setCell (s : State) (c : Nat) (x : Cell) : (s.setCell c x).armSeq = s.armSeq := rfl
@[simp] theorem State.resetsRun_setCell (s : State) (c : Nat) (x : Cell) : (s.setCell c x).resetsRun = s.resetsRun := rfl
@[simp] theorem State.harts_setCell (s : State) (c : Nat) (x : Cell) : (s.setCell c x).harts = s.harts := rfl
@[simp] theorem State.clock_setCell (s : State) (c : Nat) (x : Cell) : (s.setCell c x).clock = s.clock := rfl
@[simp] theorem State.hubTurn_setCell (s : State) (c : Nat) (x : Cell) : (s.setCell c x).hubTurn = s.hubTurn := rfl
@[simp] theorem State.hubLeft_setCell (s : State) (c : Nat) (x : Cell) : (s.setCell c x).hubLeft = s.hubLeft := rfl
@[simp] theorem State.pressed_setCell (s : State) (c : Nat) (x : Cell) : (s.setCell c x).pressed = s.pressed := rfl
@[simp] theorem State.domainCounts_setCell (s : State) (c : Nat) (x : Cell) : (s.setCell c x).domainCounts = s.domainCounts := rfl
@[simp] theorem State.events_setCell (s : State) (c : Nat) (x : Cell) : (s.setCell c x).events = s.events := rfl
@[simp] theorem State.eventSeq_setCell (s : State) (c : Nat) (x : Cell) : (s.setCell c x).eventSeq = s.eventSeq := rfl
@[simp] theorem State.sync_setCell (s : State) (c : Nat) (x : Cell) : (s.setCell c x).sync = s.sync := rfl
@[simp] theorem State.scrub_setCell (s : State) (c : Nat) (x : Cell) : (s.setCell c x).scrub = s.scrub := rfl
@[simp] theorem State.resets_setCell (s : State) (c : Nat) (x : Cell) : (s.setCell c x).resets = s.resets := rfl
@[simp] theorem State.log_setCell (s : State) (c : Nat) (x : Cell) : (s.setCell c x).log = s.log := rfl
@[simp] theorem State.logSeq_setCell (s : State) (c : Nat) (x : Cell) : (s.setCell c x).logSeq = s.logSeq := rfl
@[simp] theorem State.sundial_setCell (s : State) (c : Nat) (x : Cell) : (s.setCell c x).sundial = s.sundial := rfl
@[simp] theorem State.phase_setCell (s : State) (c : Nat) (x : Cell) : (s.setCell c x).phase = s.phase := rfl
@[simp] theorem State.slew_setCell (s : State) (c : Nat) (x : Cell) : (s.setCell c x).slew = s.slew := rfl
@[simp] theorem State.slewTick_setCell (s : State) (c : Nat) (x : Cell) : (s.setCell c x).slewTick = s.slewTick := rfl
@[simp] theorem State.latch_setCell (s : State) (c : Nat) (x : Cell) : (s.setCell c x).latch = s.latch := rfl
@[simp] theorem State.free_setCell (s : State) (c : Nat) (x : Cell) : (s.setCell c x).free = s.free := rfl
@[simp] theorem State.pending_setCell (s : State) (c : Nat) (x : Cell) : (s.setCell c x).pending = s.pending := rfl
@[simp] theorem State.plots_setCell (s : State) (c : Nat) (x : Cell) : (s.setCell c x).plots = s.plots := rfl
@[simp] theorem State.pools_setCell (s : State) (c : Nat) (x : Cell) : (s.setCell c x).pools = s.pools := rfl
@[simp] theorem State.frames_setCell (s : State) (c : Nat) (x : Cell) : (s.setCell c x).frames = s.frames := rfl
@[simp] theorem State.seqs_setCell (s : State) (c : Nat) (x : Cell) : (s.setCell c x).seqs = s.seqs := rfl
@[simp] theorem State.journal_setCell (s : State) (c : Nat) (x : Cell) : (s.setCell c x).journal = s.journal := rfl
@[simp] theorem State.batches_setCell (s : State) (c : Nat) (x : Cell) : (s.setCell c x).batches = s.batches := rfl
@[simp] theorem State.draining_setCell (s : State) (c : Nat) (x : Cell) : (s.setCell c x).draining = s.draining := rfl
@[simp] theorem State.kvmTurn_setCell (s : State) (c : Nat) (x : Cell) : (s.setCell c x).kvmTurn = s.kvmTurn := rfl
@[simp] theorem State.kvmOwed_setCell (s : State) (c : Nat) (x : Cell) : (s.setCell c x).kvmOwed = s.kvmOwed := rfl
@[simp] theorem State.kvmSeq_setCell (s : State) (c : Nat) (x : Cell) : (s.setCell c x).kvmSeq = s.kvmSeq := rfl
@[simp] theorem State.admTurn_setCell (s : State) (c : Nat) (x : Cell) : (s.setCell c x).admTurn = s.admTurn := rfl
@[simp] theorem State.out_setCell (s : State) (c : Nat) (x : Cell) : (s.setCell c x).out = s.out := rfl
@[simp] theorem State.reqs_setCell (s : State) (c : Nat) (x : Cell) : (s.setCell c x).reqs = s.reqs := rfl
@[simp] theorem State.msgTag_setCell (s : State) (c : Nat) (x : Cell) : (s.setCell c x).msgTag = s.msgTag := rfl
@[simp] theorem State.eccReports_setCell (s : State) (c : Nat) (x : Cell) : (s.setCell c x).eccReports = s.eccReports := rfl
@[simp] theorem State.rdata_setCell (s : State) (c : Nat) (x : Cell) : (s.setCell c x).rdata = s.rdata := rfl
@[simp] theorem State.rootChip_setCell (s : State) (c : Nat) (x : Cell) : (s.setCell c x).rootChip = s.rootChip := rfl
@[simp] theorem State.peerHandles_setCell (s : State) (c : Nat) (x : Cell) : (s.setCell c x).peerHandles = s.peerHandles := rfl
@[simp] theorem State.moveSeq_setCell (s : State) (c : Nat) (x : Cell) : (s.setCell c x).moveSeq = s.moveSeq := rfl
@[simp] theorem State.walks_setCell (s : State) (c : Nat) (x : Cell) : (s.setCell c x).walks = s.walks := rfl
@[simp] theorem State.signing_setCell (s : State) (c : Nat) (x : Cell) : (s.setCell c x).signing = s.signing := rfl
@[simp] theorem State.indexes_setCell (s : State) (c : Nat) (x : Cell) : (s.setCell c x).indexes = s.indexes := rfl
@[simp] theorem State.rbatches_setCell (s : State) (c : Nat) (x : Cell) : (s.setCell c x).rbatches = s.rbatches := rfl
@[simp] theorem State.rbatchSeq_setCell (s : State) (c : Nat) (x : Cell) : (s.setCell c x).rbatchSeq = s.rbatchSeq := rfl
@[simp] theorem State.groups_setCell (s : State) (c : Nat) (x : Cell) : (s.setCell c x).groups = s.groups := rfl
@[simp] theorem State.colGroups_setCell (s : State) (c : Nat) (x : Cell) : (s.setCell c x).colGroups = s.colGroups := rfl
@[simp] theorem State.chains_setCell (s : State) (c : Nat) (x : Cell) : (s.setCell c x).chains = s.chains := rfl
@[simp] theorem State.ops_setCell (s : State) (c : Nat) (x : Cell) : (s.setCell c x).ops = s.ops := rfl
@[simp] theorem State.opSeq_setCell (s : State) (c : Nat) (x : Cell) : (s.setCell c x).opSeq = s.opSeq := rfl
@[simp] theorem State.colIn_setCell (s : State) (c : Nat) (x : Cell) : (s.setCell c x).colIn = s.colIn := rfl
@[simp] theorem State.colSteps_setCell (s : State) (c : Nat) (x : Cell) : (s.setCell c x).colSteps = s.colSteps := rfl
@[simp] theorem State.lostDrains_setCell (s : State) (c : Nat) (x : Cell) : (s.setCell c x).lostDrains = s.lostDrains := rfl
@[simp] theorem State.peers_setCell (s : State) (c : Nat) (x : Cell) : (s.setCell c x).peers = s.peers := rfl
@[simp] theorem State.conns_setCell (s : State) (c : Nat) (x : Cell) : (s.setCell c x).conns = s.conns := rfl
@[simp] theorem State.phys_setCell (s : State) (c : Nat) (x : Cell) : (s.setCell c x).phys = s.phys := rfl
@[simp] theorem State.discovering_setCell (s : State) (c : Nat) (x : Cell) : (s.setCell c x).discovering = s.discovering := rfl
@[simp] theorem State.configHash_setCell (s : State) (c : Nat) (x : Cell) : (s.setCell c x).configHash = s.configHash := rfl
@[simp] theorem State.hall_setCell (s : State) (c : Nat) (x : Cell) : (s.setCell c x).hall = s.hall := rfl
@[simp] theorem State.syncMap_setCell (s : State) (c : Nat) (x : Cell) : (s.setCell c x).syncMap = s.syncMap := rfl
@[simp] theorem State.defaultRack_setCell (s : State) (c : Nat) (x : Cell) : (s.setCell c x).defaultRack = s.defaultRack := rfl
@[simp] theorem State.hubHeld_setCell (s : State) (c : Nat) (x : Cell) : (s.setCell c x).hubHeld = s.hubHeld := rfl
@[simp] theorem State.linkMap_setCell (s : State) (c : Nat) (x : Cell) : (s.setCell c x).linkMap = s.linkMap := rfl
@[simp] theorem State.ptpPort_setCell (s : State) (c : Nat) (x : Cell) : (s.setCell c x).ptpPort = s.ptpPort := rfl
@[simp] theorem State.ptpDomain_setCell (s : State) (c : Nat) (x : Cell) : (s.setCell c x).ptpDomain = s.ptpDomain := rfl
@[simp] theorem State.storeUpset_setCell (s : State) (c : Nat) (x : Cell) : (s.setCell c x).storeUpset = s.storeUpset := rfl
@[simp] theorem State.scanStart_setCell (s : State) (c : Nat) (x : Cell) : (s.setCell c x).scanStart = s.scanStart := rfl
@[simp] theorem State.shiftBook_setCell (s : State) (c : Nat) (x : Cell) : (s.setCell c x).shiftBook = s.shiftBook := rfl
@[simp] theorem State.endedTasks_setCell (s : State) (c : Nat) (x : Cell) : (s.setCell c x).endedTasks = s.endedTasks := rfl
@[simp] theorem State.pcieGen_setCell (s : State) (c : Nat) (x : Cell) : (s.setCell c x).pcieGen = s.pcieGen := rfl
@[simp] theorem State.pcieLanes_setCell (s : State) (c : Nat) (x : Cell) : (s.setCell c x).pcieLanes = s.pcieLanes := rfl
@[simp] theorem State.ptp_setCell (s : State) (c : Nat) (x : Cell) : (s.setCell c x).ptp = s.ptp := rfl
@[simp] theorem State.logFloor_setCell (s : State) (c : Nat) (x : Cell) : (s.setCell c x).logFloor = s.logFloor := rfl
@[simp] theorem State.harvest_setCell (s : State) (c : Nat) (x : Cell) : (s.setCell c x).harvest = s.harvest := rfl
@[simp] theorem State.harvestSeq_setCell (s : State) (c : Nat) (x : Cell) : (s.setCell c x).harvestSeq = s.harvestSeq := rfl
@[simp] theorem State.boot_setCell (s : State) (c : Nat) (x : Cell) : (s.setCell c x).boot = s.boot := rfl
@[simp] theorem State.safety_setCell (s : State) (c : Nat) (x : Cell) : (s.setCell c x).safety = s.safety := rfl
@[simp] theorem State.ptpUse_setCell (s : State) (c : Nat) (x : Cell) : (s.setCell c x).ptpUse = s.ptpUse := rfl
@[simp] theorem State.portAddr_setCell (s : State) (c : Nat) (x : Cell) : (s.setCell c x).portAddr = s.portAddr := rfl
@[simp] theorem State.perf_setCell (s : State) (c : Nat) (x : Cell) : (s.setCell c x).perf = s.perf := rfl
@[simp] theorem State.regionCounts_setCell (s : State) (c : Nat) (x : Cell) : (s.setCell c x).domainCounts = s.domainCounts := rfl
@[simp] theorem State.chipCounts_setCell (s : State) (c : Nat) (x : Cell) : (s.setCell c x).chipCounts = s.chipCounts := rfl
@[simp] theorem State.replay_setCell (s : State) (c : Nat) (x : Cell) : (s.setCell c x).replay = s.replay := rfl
@[simp] theorem State.chipWait_setCell (s : State) (c : Nat) (x : Cell) : (s.setCell c x).chipWait = s.chipWait := rfl
@[simp] theorem State.hubLost_setCell (s : State) (c : Nat) (x : Cell) : (s.setCell c x).hubLost = s.hubLost := rfl
@[simp] theorem State.pcieLost_setCell (s : State) (c : Nat) (x : Cell) : (s.setCell c x).pcieLost = s.pcieLost := rfl
@[simp] theorem State.halted_setCell (s : State) (c : Nat) (x : Cell) : (s.setCell c x).halted = s.halted := rfl
@[simp] theorem State.coolSince_setCell (s : State) (c : Nat) (x : Cell) : (s.setCell c x).coolSince = s.coolSince := rfl
@[simp] theorem State.governors_setCell (s : State) (c : Nat) (x : Cell) : (s.setCell c x).governors = s.governors := rfl
@[simp] theorem State.excursion_setCell (s : State) (c : Nat) (x : Cell) : (s.setCell c x).excursion = s.excursion := rfl
@[simp] theorem State.droopTick_setCell (s : State) (c : Nat) (x : Cell) : (s.setCell c x).droopTick = s.droopTick := rfl
@[simp] theorem State.heartPin_setCell (s : State) (c : Nat) (x : Cell) : (s.setCell c x).heartPin = s.heartPin := rfl
@[simp] theorem State.beatPin_setCell (s : State) (c : Nat) (x : Cell) : (s.setCell c x).beatPin = s.beatPin := rfl
@[simp] theorem State.alertFrom_setCell (s : State) (c : Nat) (x : Cell) : (s.setCell c x).alertFrom = s.alertFrom := rfl
@[simp] theorem State.admWait_setCell (s : State) (c : Nat) (x : Cell) : (s.setCell c x).admWait = s.admWait := rfl
@[simp] theorem State.mainLost_setCell (s : State) (c : Nat) (x : Cell) : (s.setCell c x).mainLost = s.mainLost := rfl
@[simp] theorem State.cooling_setCell (s : State) (c : Nat) (x : Cell) : (s.setCell c x).cooling = s.cooling := rfl
@[simp] theorem State.privLocked_setCell (s : State) (c : Nat) (x : Cell) : (s.setCell c x).privLocked = s.privLocked := rfl

@[simp] theorem State.regs_setBlock (s : State) (b : Nat) (x : Block) : (s.setBlock b x).regs = s.regs := rfl
@[simp] theorem State.mem_setBlock (s : State) (b : Nat) (x : Block) : (s.setBlock b x).mem = s.mem := rfl
@[simp] theorem State.hostMem_setBlock (s : State) (b : Nat) (x : Block) : (s.setBlock b x).hostMem = s.hostMem := rfl
@[simp] theorem State.poison_setBlock (s : State) (b : Nat) (x : Block) : (s.setBlock b x).poison = s.poison := rfl
@[simp] theorem State.cells_setBlock (s : State) (b : Nat) (x : Block) : (s.setBlock b x).cells = s.cells := rfl
@[simp] theorem State.tasks_setBlock (s : State) (b : Nat) (x : Block) : (s.setBlock b x).tasks = s.tasks := rfl
@[simp] theorem State.taskSeq_setBlock (s : State) (b : Nat) (x : Block) : (s.setBlock b x).taskSeq = s.taskSeq := rfl
@[simp] theorem State.streams_setBlock (s : State) (b : Nat) (x : Block) : (s.setBlock b x).streams = s.streams := rfl
@[simp] theorem State.armSeq_setBlock (s : State) (b : Nat) (x : Block) : (s.setBlock b x).armSeq = s.armSeq := rfl
@[simp] theorem State.resetsRun_setBlock (s : State) (b : Nat) (x : Block) : (s.setBlock b x).resetsRun = s.resetsRun := rfl
@[simp] theorem State.harts_setBlock (s : State) (b : Nat) (x : Block) : (s.setBlock b x).harts = s.harts := rfl
@[simp] theorem State.clock_setBlock (s : State) (b : Nat) (x : Block) : (s.setBlock b x).clock = s.clock := rfl
@[simp] theorem State.hubTurn_setBlock (s : State) (b : Nat) (x : Block) : (s.setBlock b x).hubTurn = s.hubTurn := rfl
@[simp] theorem State.hubLeft_setBlock (s : State) (b : Nat) (x : Block) : (s.setBlock b x).hubLeft = s.hubLeft := rfl
@[simp] theorem State.pressed_setBlock (s : State) (b : Nat) (x : Block) : (s.setBlock b x).pressed = s.pressed := rfl
@[simp] theorem State.domainCounts_setBlock (s : State) (b : Nat) (x : Block) : (s.setBlock b x).domainCounts = s.domainCounts := rfl
@[simp] theorem State.events_setBlock (s : State) (b : Nat) (x : Block) : (s.setBlock b x).events = s.events := rfl
@[simp] theorem State.eventSeq_setBlock (s : State) (b : Nat) (x : Block) : (s.setBlock b x).eventSeq = s.eventSeq := rfl
@[simp] theorem State.sync_setBlock (s : State) (b : Nat) (x : Block) : (s.setBlock b x).sync = s.sync := rfl
@[simp] theorem State.scrub_setBlock (s : State) (b : Nat) (x : Block) : (s.setBlock b x).scrub = s.scrub := rfl
@[simp] theorem State.resets_setBlock (s : State) (b : Nat) (x : Block) : (s.setBlock b x).resets = s.resets := rfl
@[simp] theorem State.log_setBlock (s : State) (b : Nat) (x : Block) : (s.setBlock b x).log = s.log := rfl
@[simp] theorem State.logSeq_setBlock (s : State) (b : Nat) (x : Block) : (s.setBlock b x).logSeq = s.logSeq := rfl
@[simp] theorem State.sundial_setBlock (s : State) (b : Nat) (x : Block) : (s.setBlock b x).sundial = s.sundial := rfl
@[simp] theorem State.phase_setBlock (s : State) (b : Nat) (x : Block) : (s.setBlock b x).phase = s.phase := rfl
@[simp] theorem State.slew_setBlock (s : State) (b : Nat) (x : Block) : (s.setBlock b x).slew = s.slew := rfl
@[simp] theorem State.slewTick_setBlock (s : State) (b : Nat) (x : Block) : (s.setBlock b x).slewTick = s.slewTick := rfl
@[simp] theorem State.latch_setBlock (s : State) (b : Nat) (x : Block) : (s.setBlock b x).latch = s.latch := rfl
@[simp] theorem State.free_setBlock (s : State) (b : Nat) (x : Block) : (s.setBlock b x).free = s.free := rfl
@[simp] theorem State.pending_setBlock (s : State) (b : Nat) (x : Block) : (s.setBlock b x).pending = s.pending := rfl
@[simp] theorem State.plots_setBlock (s : State) (b : Nat) (x : Block) : (s.setBlock b x).plots = s.plots := rfl
@[simp] theorem State.pools_setBlock (s : State) (b : Nat) (x : Block) : (s.setBlock b x).pools = s.pools := rfl
@[simp] theorem State.frames_setBlock (s : State) (b : Nat) (x : Block) : (s.setBlock b x).frames = s.frames := rfl
@[simp] theorem State.seqs_setBlock (s : State) (b : Nat) (x : Block) : (s.setBlock b x).seqs = s.seqs := rfl
@[simp] theorem State.journal_setBlock (s : State) (b : Nat) (x : Block) : (s.setBlock b x).journal = s.journal := rfl
@[simp] theorem State.batches_setBlock (s : State) (b : Nat) (x : Block) : (s.setBlock b x).batches = s.batches := rfl
@[simp] theorem State.draining_setBlock (s : State) (b : Nat) (x : Block) : (s.setBlock b x).draining = s.draining := rfl
@[simp] theorem State.kvmTurn_setBlock (s : State) (b : Nat) (x : Block) : (s.setBlock b x).kvmTurn = s.kvmTurn := rfl
@[simp] theorem State.kvmOwed_setBlock (s : State) (b : Nat) (x : Block) : (s.setBlock b x).kvmOwed = s.kvmOwed := rfl
@[simp] theorem State.kvmSeq_setBlock (s : State) (b : Nat) (x : Block) : (s.setBlock b x).kvmSeq = s.kvmSeq := rfl
@[simp] theorem State.admTurn_setBlock (s : State) (b : Nat) (x : Block) : (s.setBlock b x).admTurn = s.admTurn := rfl
@[simp] theorem State.out_setBlock (s : State) (b : Nat) (x : Block) : (s.setBlock b x).out = s.out := rfl
@[simp] theorem State.reqs_setBlock (s : State) (b : Nat) (x : Block) : (s.setBlock b x).reqs = s.reqs := rfl
@[simp] theorem State.msgTag_setBlock (s : State) (b : Nat) (x : Block) : (s.setBlock b x).msgTag = s.msgTag := rfl
@[simp] theorem State.eccReports_setBlock (s : State) (b : Nat) (x : Block) : (s.setBlock b x).eccReports = s.eccReports := rfl
@[simp] theorem State.rdata_setBlock (s : State) (b : Nat) (x : Block) : (s.setBlock b x).rdata = s.rdata := rfl
@[simp] theorem State.rootChip_setBlock (s : State) (b : Nat) (x : Block) : (s.setBlock b x).rootChip = s.rootChip := rfl
@[simp] theorem State.peerHandles_setBlock (s : State) (b : Nat) (x : Block) : (s.setBlock b x).peerHandles = s.peerHandles := rfl
@[simp] theorem State.moveSeq_setBlock (s : State) (b : Nat) (x : Block) : (s.setBlock b x).moveSeq = s.moveSeq := rfl
@[simp] theorem State.walks_setBlock (s : State) (b : Nat) (x : Block) : (s.setBlock b x).walks = s.walks := rfl
@[simp] theorem State.signing_setBlock (s : State) (b : Nat) (x : Block) : (s.setBlock b x).signing = s.signing := rfl
@[simp] theorem State.indexes_setBlock (s : State) (b : Nat) (x : Block) : (s.setBlock b x).indexes = s.indexes := rfl
@[simp] theorem State.rbatches_setBlock (s : State) (b : Nat) (x : Block) : (s.setBlock b x).rbatches = s.rbatches := rfl
@[simp] theorem State.rbatchSeq_setBlock (s : State) (b : Nat) (x : Block) : (s.setBlock b x).rbatchSeq = s.rbatchSeq := rfl
@[simp] theorem State.groups_setBlock (s : State) (b : Nat) (x : Block) : (s.setBlock b x).groups = s.groups := rfl
@[simp] theorem State.colGroups_setBlock (s : State) (b : Nat) (x : Block) : (s.setBlock b x).colGroups = s.colGroups := rfl
@[simp] theorem State.chains_setBlock (s : State) (b : Nat) (x : Block) : (s.setBlock b x).chains = s.chains := rfl
@[simp] theorem State.ops_setBlock (s : State) (b : Nat) (x : Block) : (s.setBlock b x).ops = s.ops := rfl
@[simp] theorem State.opSeq_setBlock (s : State) (b : Nat) (x : Block) : (s.setBlock b x).opSeq = s.opSeq := rfl
@[simp] theorem State.colIn_setBlock (s : State) (b : Nat) (x : Block) : (s.setBlock b x).colIn = s.colIn := rfl
@[simp] theorem State.colSteps_setBlock (s : State) (b : Nat) (x : Block) : (s.setBlock b x).colSteps = s.colSteps := rfl
@[simp] theorem State.lostDrains_setBlock (s : State) (b : Nat) (x : Block) : (s.setBlock b x).lostDrains = s.lostDrains := rfl
@[simp] theorem State.peers_setBlock (s : State) (b : Nat) (x : Block) : (s.setBlock b x).peers = s.peers := rfl
@[simp] theorem State.conns_setBlock (s : State) (b : Nat) (x : Block) : (s.setBlock b x).conns = s.conns := rfl
@[simp] theorem State.phys_setBlock (s : State) (b : Nat) (x : Block) : (s.setBlock b x).phys = s.phys := rfl
@[simp] theorem State.discovering_setBlock (s : State) (b : Nat) (x : Block) : (s.setBlock b x).discovering = s.discovering := rfl
@[simp] theorem State.configHash_setBlock (s : State) (b : Nat) (x : Block) : (s.setBlock b x).configHash = s.configHash := rfl
@[simp] theorem State.hall_setBlock (s : State) (b : Nat) (x : Block) : (s.setBlock b x).hall = s.hall := rfl
@[simp] theorem State.syncMap_setBlock (s : State) (b : Nat) (x : Block) : (s.setBlock b x).syncMap = s.syncMap := rfl
@[simp] theorem State.defaultRack_setBlock (s : State) (b : Nat) (x : Block) : (s.setBlock b x).defaultRack = s.defaultRack := rfl
@[simp] theorem State.hubHeld_setBlock (s : State) (b : Nat) (x : Block) : (s.setBlock b x).hubHeld = s.hubHeld := rfl
@[simp] theorem State.linkMap_setBlock (s : State) (b : Nat) (x : Block) : (s.setBlock b x).linkMap = s.linkMap := rfl
@[simp] theorem State.ptpPort_setBlock (s : State) (b : Nat) (x : Block) : (s.setBlock b x).ptpPort = s.ptpPort := rfl
@[simp] theorem State.ptpDomain_setBlock (s : State) (b : Nat) (x : Block) : (s.setBlock b x).ptpDomain = s.ptpDomain := rfl
@[simp] theorem State.storeUpset_setBlock (s : State) (b : Nat) (x : Block) : (s.setBlock b x).storeUpset = s.storeUpset := rfl
@[simp] theorem State.scanStart_setBlock (s : State) (b : Nat) (x : Block) : (s.setBlock b x).scanStart = s.scanStart := rfl
@[simp] theorem State.shiftBook_setBlock (s : State) (b : Nat) (x : Block) : (s.setBlock b x).shiftBook = s.shiftBook := rfl
@[simp] theorem State.endedTasks_setBlock (s : State) (b : Nat) (x : Block) : (s.setBlock b x).endedTasks = s.endedTasks := rfl
@[simp] theorem State.pcieGen_setBlock (s : State) (b : Nat) (x : Block) : (s.setBlock b x).pcieGen = s.pcieGen := rfl
@[simp] theorem State.pcieLanes_setBlock (s : State) (b : Nat) (x : Block) : (s.setBlock b x).pcieLanes = s.pcieLanes := rfl
@[simp] theorem State.ptp_setBlock (s : State) (b : Nat) (x : Block) : (s.setBlock b x).ptp = s.ptp := rfl
@[simp] theorem State.logFloor_setBlock (s : State) (b : Nat) (x : Block) : (s.setBlock b x).logFloor = s.logFloor := rfl
@[simp] theorem State.harvest_setBlock (s : State) (b : Nat) (x : Block) : (s.setBlock b x).harvest = s.harvest := rfl
@[simp] theorem State.harvestSeq_setBlock (s : State) (b : Nat) (x : Block) : (s.setBlock b x).harvestSeq = s.harvestSeq := rfl
@[simp] theorem State.boot_setBlock (s : State) (b : Nat) (x : Block) : (s.setBlock b x).boot = s.boot := rfl
@[simp] theorem State.safety_setBlock (s : State) (b : Nat) (x : Block) : (s.setBlock b x).safety = s.safety := rfl
@[simp] theorem State.ptpUse_setBlock (s : State) (b : Nat) (x : Block) : (s.setBlock b x).ptpUse = s.ptpUse := rfl
@[simp] theorem State.portAddr_setBlock (s : State) (b : Nat) (x : Block) : (s.setBlock b x).portAddr = s.portAddr := rfl
@[simp] theorem State.perf_setBlock (s : State) (b : Nat) (x : Block) : (s.setBlock b x).perf = s.perf := rfl
@[simp] theorem State.regionCounts_setBlock (s : State) (b : Nat) (x : Block) : (s.setBlock b x).domainCounts = s.domainCounts := rfl
@[simp] theorem State.chipCounts_setBlock (s : State) (b : Nat) (x : Block) : (s.setBlock b x).chipCounts = s.chipCounts := rfl
@[simp] theorem State.replay_setBlock (s : State) (b : Nat) (x : Block) : (s.setBlock b x).replay = s.replay := rfl
@[simp] theorem State.chipWait_setBlock (s : State) (b : Nat) (x : Block) : (s.setBlock b x).chipWait = s.chipWait := rfl
@[simp] theorem State.hubLost_setBlock (s : State) (b : Nat) (x : Block) : (s.setBlock b x).hubLost = s.hubLost := rfl
@[simp] theorem State.pcieLost_setBlock (s : State) (b : Nat) (x : Block) : (s.setBlock b x).pcieLost = s.pcieLost := rfl
@[simp] theorem State.halted_setBlock (s : State) (b : Nat) (x : Block) : (s.setBlock b x).halted = s.halted := rfl
@[simp] theorem State.coolSince_setBlock (s : State) (b : Nat) (x : Block) : (s.setBlock b x).coolSince = s.coolSince := rfl
@[simp] theorem State.governors_setBlock (s : State) (b : Nat) (x : Block) : (s.setBlock b x).governors = s.governors := rfl
@[simp] theorem State.excursion_setBlock (s : State) (b : Nat) (x : Block) : (s.setBlock b x).excursion = s.excursion := rfl
@[simp] theorem State.droopTick_setBlock (s : State) (b : Nat) (x : Block) : (s.setBlock b x).droopTick = s.droopTick := rfl
@[simp] theorem State.heartPin_setBlock (s : State) (b : Nat) (x : Block) : (s.setBlock b x).heartPin = s.heartPin := rfl
@[simp] theorem State.beatPin_setBlock (s : State) (b : Nat) (x : Block) : (s.setBlock b x).beatPin = s.beatPin := rfl
@[simp] theorem State.alertFrom_setBlock (s : State) (b : Nat) (x : Block) : (s.setBlock b x).alertFrom = s.alertFrom := rfl
@[simp] theorem State.admWait_setBlock (s : State) (b : Nat) (x : Block) : (s.setBlock b x).admWait = s.admWait := rfl
@[simp] theorem State.mainLost_setBlock (s : State) (b : Nat) (x : Block) : (s.setBlock b x).mainLost = s.mainLost := rfl
@[simp] theorem State.cooling_setBlock (s : State) (b : Nat) (x : Block) : (s.setBlock b x).cooling = s.cooling := rfl
@[simp] theorem State.privLocked_setBlock (s : State) (b : Nat) (x : Block) : (s.setBlock b x).privLocked = s.privLocked := rfl

@[simp] theorem State.regs_setTask (s : State) (n : Nat) (x : Task) : (s.setTask n x).regs = s.regs := rfl
@[simp] theorem State.mem_setTask (s : State) (n : Nat) (x : Task) : (s.setTask n x).mem = s.mem := rfl
@[simp] theorem State.hostMem_setTask (s : State) (n : Nat) (x : Task) : (s.setTask n x).hostMem = s.hostMem := rfl
@[simp] theorem State.poison_setTask (s : State) (n : Nat) (x : Task) : (s.setTask n x).poison = s.poison := rfl
@[simp] theorem State.cells_setTask (s : State) (n : Nat) (x : Task) : (s.setTask n x).cells = s.cells := rfl
@[simp] theorem State.blocks_setTask (s : State) (n : Nat) (x : Task) : (s.setTask n x).blocks = s.blocks := rfl
@[simp] theorem State.taskSeq_setTask (s : State) (n : Nat) (x : Task) : (s.setTask n x).taskSeq = s.taskSeq := rfl
@[simp] theorem State.streams_setTask (s : State) (n : Nat) (x : Task) : (s.setTask n x).streams = s.streams := rfl
@[simp] theorem State.armSeq_setTask (s : State) (n : Nat) (x : Task) : (s.setTask n x).armSeq = s.armSeq := rfl
@[simp] theorem State.resetsRun_setTask (s : State) (n : Nat) (x : Task) : (s.setTask n x).resetsRun = s.resetsRun := rfl
@[simp] theorem State.harts_setTask (s : State) (n : Nat) (x : Task) : (s.setTask n x).harts = s.harts := rfl
@[simp] theorem State.clock_setTask (s : State) (n : Nat) (x : Task) : (s.setTask n x).clock = s.clock := rfl
@[simp] theorem State.hubTurn_setTask (s : State) (n : Nat) (x : Task) : (s.setTask n x).hubTurn = s.hubTurn := rfl
@[simp] theorem State.hubLeft_setTask (s : State) (n : Nat) (x : Task) : (s.setTask n x).hubLeft = s.hubLeft := rfl
@[simp] theorem State.pressed_setTask (s : State) (n : Nat) (x : Task) : (s.setTask n x).pressed = s.pressed := rfl
@[simp] theorem State.domainCounts_setTask (s : State) (n : Nat) (x : Task) : (s.setTask n x).domainCounts = s.domainCounts := rfl
@[simp] theorem State.events_setTask (s : State) (n : Nat) (x : Task) : (s.setTask n x).events = s.events := rfl
@[simp] theorem State.eventSeq_setTask (s : State) (n : Nat) (x : Task) : (s.setTask n x).eventSeq = s.eventSeq := rfl
@[simp] theorem State.sync_setTask (s : State) (n : Nat) (x : Task) : (s.setTask n x).sync = s.sync := rfl
@[simp] theorem State.scrub_setTask (s : State) (n : Nat) (x : Task) : (s.setTask n x).scrub = s.scrub := rfl
@[simp] theorem State.resets_setTask (s : State) (n : Nat) (x : Task) : (s.setTask n x).resets = s.resets := rfl
@[simp] theorem State.log_setTask (s : State) (n : Nat) (x : Task) : (s.setTask n x).log = s.log := rfl
@[simp] theorem State.logSeq_setTask (s : State) (n : Nat) (x : Task) : (s.setTask n x).logSeq = s.logSeq := rfl
@[simp] theorem State.sundial_setTask (s : State) (n : Nat) (x : Task) : (s.setTask n x).sundial = s.sundial := rfl
@[simp] theorem State.phase_setTask (s : State) (n : Nat) (x : Task) : (s.setTask n x).phase = s.phase := rfl
@[simp] theorem State.slew_setTask (s : State) (n : Nat) (x : Task) : (s.setTask n x).slew = s.slew := rfl
@[simp] theorem State.slewTick_setTask (s : State) (n : Nat) (x : Task) : (s.setTask n x).slewTick = s.slewTick := rfl
@[simp] theorem State.latch_setTask (s : State) (n : Nat) (x : Task) : (s.setTask n x).latch = s.latch := rfl
@[simp] theorem State.free_setTask (s : State) (n : Nat) (x : Task) : (s.setTask n x).free = s.free := rfl
@[simp] theorem State.pending_setTask (s : State) (n : Nat) (x : Task) : (s.setTask n x).pending = s.pending := rfl
@[simp] theorem State.plots_setTask (s : State) (n : Nat) (x : Task) : (s.setTask n x).plots = s.plots := rfl
@[simp] theorem State.pools_setTask (s : State) (n : Nat) (x : Task) : (s.setTask n x).pools = s.pools := rfl
@[simp] theorem State.frames_setTask (s : State) (n : Nat) (x : Task) : (s.setTask n x).frames = s.frames := rfl
@[simp] theorem State.seqs_setTask (s : State) (n : Nat) (x : Task) : (s.setTask n x).seqs = s.seqs := rfl
@[simp] theorem State.journal_setTask (s : State) (n : Nat) (x : Task) : (s.setTask n x).journal = s.journal := rfl
@[simp] theorem State.batches_setTask (s : State) (n : Nat) (x : Task) : (s.setTask n x).batches = s.batches := rfl
@[simp] theorem State.draining_setTask (s : State) (n : Nat) (x : Task) : (s.setTask n x).draining = s.draining := rfl
@[simp] theorem State.kvmTurn_setTask (s : State) (n : Nat) (x : Task) : (s.setTask n x).kvmTurn = s.kvmTurn := rfl
@[simp] theorem State.kvmOwed_setTask (s : State) (n : Nat) (x : Task) : (s.setTask n x).kvmOwed = s.kvmOwed := rfl
@[simp] theorem State.kvmSeq_setTask (s : State) (n : Nat) (x : Task) : (s.setTask n x).kvmSeq = s.kvmSeq := rfl
@[simp] theorem State.admTurn_setTask (s : State) (n : Nat) (x : Task) : (s.setTask n x).admTurn = s.admTurn := rfl
@[simp] theorem State.out_setTask (s : State) (n : Nat) (x : Task) : (s.setTask n x).out = s.out := rfl
@[simp] theorem State.reqs_setTask (s : State) (n : Nat) (x : Task) : (s.setTask n x).reqs = s.reqs := rfl
@[simp] theorem State.msgTag_setTask (s : State) (n : Nat) (x : Task) : (s.setTask n x).msgTag = s.msgTag := rfl
@[simp] theorem State.eccReports_setTask (s : State) (n : Nat) (x : Task) : (s.setTask n x).eccReports = s.eccReports := rfl
@[simp] theorem State.rdata_setTask (s : State) (n : Nat) (x : Task) : (s.setTask n x).rdata = s.rdata := rfl
@[simp] theorem State.rootChip_setTask (s : State) (n : Nat) (x : Task) : (s.setTask n x).rootChip = s.rootChip := rfl
@[simp] theorem State.peerHandles_setTask (s : State) (n : Nat) (x : Task) : (s.setTask n x).peerHandles = s.peerHandles := rfl
@[simp] theorem State.moveSeq_setTask (s : State) (n : Nat) (x : Task) : (s.setTask n x).moveSeq = s.moveSeq := rfl
@[simp] theorem State.walks_setTask (s : State) (n : Nat) (x : Task) : (s.setTask n x).walks = s.walks := rfl
@[simp] theorem State.signing_setTask (s : State) (n : Nat) (x : Task) : (s.setTask n x).signing = s.signing := rfl
@[simp] theorem State.indexes_setTask (s : State) (n : Nat) (x : Task) : (s.setTask n x).indexes = s.indexes := rfl
@[simp] theorem State.rbatches_setTask (s : State) (n : Nat) (x : Task) : (s.setTask n x).rbatches = s.rbatches := rfl
@[simp] theorem State.rbatchSeq_setTask (s : State) (n : Nat) (x : Task) : (s.setTask n x).rbatchSeq = s.rbatchSeq := rfl
@[simp] theorem State.groups_setTask (s : State) (n : Nat) (x : Task) : (s.setTask n x).groups = s.groups := rfl
@[simp] theorem State.colGroups_setTask (s : State) (n : Nat) (x : Task) : (s.setTask n x).colGroups = s.colGroups := rfl
@[simp] theorem State.chains_setTask (s : State) (n : Nat) (x : Task) : (s.setTask n x).chains = s.chains := rfl
@[simp] theorem State.ops_setTask (s : State) (n : Nat) (x : Task) : (s.setTask n x).ops = s.ops := rfl
@[simp] theorem State.opSeq_setTask (s : State) (n : Nat) (x : Task) : (s.setTask n x).opSeq = s.opSeq := rfl
@[simp] theorem State.colIn_setTask (s : State) (n : Nat) (x : Task) : (s.setTask n x).colIn = s.colIn := rfl
@[simp] theorem State.colSteps_setTask (s : State) (n : Nat) (x : Task) : (s.setTask n x).colSteps = s.colSteps := rfl
@[simp] theorem State.lostDrains_setTask (s : State) (n : Nat) (x : Task) : (s.setTask n x).lostDrains = s.lostDrains := rfl
@[simp] theorem State.peers_setTask (s : State) (n : Nat) (x : Task) : (s.setTask n x).peers = s.peers := rfl
@[simp] theorem State.conns_setTask (s : State) (n : Nat) (x : Task) : (s.setTask n x).conns = s.conns := rfl
@[simp] theorem State.phys_setTask (s : State) (n : Nat) (x : Task) : (s.setTask n x).phys = s.phys := rfl
@[simp] theorem State.discovering_setTask (s : State) (n : Nat) (x : Task) : (s.setTask n x).discovering = s.discovering := rfl
@[simp] theorem State.configHash_setTask (s : State) (n : Nat) (x : Task) : (s.setTask n x).configHash = s.configHash := rfl
@[simp] theorem State.hall_setTask (s : State) (n : Nat) (x : Task) : (s.setTask n x).hall = s.hall := rfl
@[simp] theorem State.syncMap_setTask (s : State) (n : Nat) (x : Task) : (s.setTask n x).syncMap = s.syncMap := rfl
@[simp] theorem State.defaultRack_setTask (s : State) (n : Nat) (x : Task) : (s.setTask n x).defaultRack = s.defaultRack := rfl
@[simp] theorem State.hubHeld_setTask (s : State) (n : Nat) (x : Task) : (s.setTask n x).hubHeld = s.hubHeld := rfl
@[simp] theorem State.linkMap_setTask (s : State) (n : Nat) (x : Task) : (s.setTask n x).linkMap = s.linkMap := rfl
@[simp] theorem State.ptpPort_setTask (s : State) (n : Nat) (x : Task) : (s.setTask n x).ptpPort = s.ptpPort := rfl
@[simp] theorem State.ptpDomain_setTask (s : State) (n : Nat) (x : Task) : (s.setTask n x).ptpDomain = s.ptpDomain := rfl
@[simp] theorem State.storeUpset_setTask (s : State) (n : Nat) (x : Task) : (s.setTask n x).storeUpset = s.storeUpset := rfl
@[simp] theorem State.scanStart_setTask (s : State) (n : Nat) (x : Task) : (s.setTask n x).scanStart = s.scanStart := rfl
@[simp] theorem State.shiftBook_setTask (s : State) (n : Nat) (x : Task) : (s.setTask n x).shiftBook = s.shiftBook := rfl
@[simp] theorem State.endedTasks_setTask (s : State) (n : Nat) (x : Task) : (s.setTask n x).endedTasks = s.endedTasks := rfl
@[simp] theorem State.pcieGen_setTask (s : State) (n : Nat) (x : Task) : (s.setTask n x).pcieGen = s.pcieGen := rfl
@[simp] theorem State.pcieLanes_setTask (s : State) (n : Nat) (x : Task) : (s.setTask n x).pcieLanes = s.pcieLanes := rfl
@[simp] theorem State.ptp_setTask (s : State) (n : Nat) (x : Task) : (s.setTask n x).ptp = s.ptp := rfl
@[simp] theorem State.logFloor_setTask (s : State) (n : Nat) (x : Task) : (s.setTask n x).logFloor = s.logFloor := rfl
@[simp] theorem State.harvest_setTask (s : State) (n : Nat) (x : Task) : (s.setTask n x).harvest = s.harvest := rfl
@[simp] theorem State.harvestSeq_setTask (s : State) (n : Nat) (x : Task) : (s.setTask n x).harvestSeq = s.harvestSeq := rfl
@[simp] theorem State.boot_setTask (s : State) (n : Nat) (x : Task) : (s.setTask n x).boot = s.boot := rfl
@[simp] theorem State.safety_setTask (s : State) (n : Nat) (x : Task) : (s.setTask n x).safety = s.safety := rfl
@[simp] theorem State.ptpUse_setTask (s : State) (n : Nat) (x : Task) : (s.setTask n x).ptpUse = s.ptpUse := rfl
@[simp] theorem State.portAddr_setTask (s : State) (n : Nat) (x : Task) : (s.setTask n x).portAddr = s.portAddr := rfl
@[simp] theorem State.perf_setTask (s : State) (n : Nat) (x : Task) : (s.setTask n x).perf = s.perf := rfl
@[simp] theorem State.regionCounts_setTask (s : State) (n : Nat) (x : Task) : (s.setTask n x).domainCounts = s.domainCounts := rfl
@[simp] theorem State.chipCounts_setTask (s : State) (n : Nat) (x : Task) : (s.setTask n x).chipCounts = s.chipCounts := rfl
@[simp] theorem State.replay_setTask (s : State) (n : Nat) (x : Task) : (s.setTask n x).replay = s.replay := rfl
@[simp] theorem State.chipWait_setTask (s : State) (n : Nat) (x : Task) : (s.setTask n x).chipWait = s.chipWait := rfl
@[simp] theorem State.hubLost_setTask (s : State) (n : Nat) (x : Task) : (s.setTask n x).hubLost = s.hubLost := rfl
@[simp] theorem State.pcieLost_setTask (s : State) (n : Nat) (x : Task) : (s.setTask n x).pcieLost = s.pcieLost := rfl
@[simp] theorem State.halted_setTask (s : State) (n : Nat) (x : Task) : (s.setTask n x).halted = s.halted := rfl
@[simp] theorem State.coolSince_setTask (s : State) (n : Nat) (x : Task) : (s.setTask n x).coolSince = s.coolSince := rfl
@[simp] theorem State.governors_setTask (s : State) (n : Nat) (x : Task) : (s.setTask n x).governors = s.governors := rfl
@[simp] theorem State.excursion_setTask (s : State) (n : Nat) (x : Task) : (s.setTask n x).excursion = s.excursion := rfl
@[simp] theorem State.droopTick_setTask (s : State) (n : Nat) (x : Task) : (s.setTask n x).droopTick = s.droopTick := rfl
@[simp] theorem State.heartPin_setTask (s : State) (n : Nat) (x : Task) : (s.setTask n x).heartPin = s.heartPin := rfl
@[simp] theorem State.beatPin_setTask (s : State) (n : Nat) (x : Task) : (s.setTask n x).beatPin = s.beatPin := rfl
@[simp] theorem State.alertFrom_setTask (s : State) (n : Nat) (x : Task) : (s.setTask n x).alertFrom = s.alertFrom := rfl
@[simp] theorem State.admWait_setTask (s : State) (n : Nat) (x : Task) : (s.setTask n x).admWait = s.admWait := rfl
@[simp] theorem State.mainLost_setTask (s : State) (n : Nat) (x : Task) : (s.setTask n x).mainLost = s.mainLost := rfl
@[simp] theorem State.cooling_setTask (s : State) (n : Nat) (x : Task) : (s.setTask n x).cooling = s.cooling := rfl
@[simp] theorem State.privLocked_setTask (s : State) (n : Nat) (x : Task) : (s.setTask n x).privLocked = s.privLocked := rfl

@[simp] theorem State.regs_setStream (s : State) (i : Nat) (x : Stream) : (s.setStream i x).regs = s.regs := rfl
@[simp] theorem State.mem_setStream (s : State) (i : Nat) (x : Stream) : (s.setStream i x).mem = s.mem := rfl
@[simp] theorem State.hostMem_setStream (s : State) (i : Nat) (x : Stream) : (s.setStream i x).hostMem = s.hostMem := rfl
@[simp] theorem State.poison_setStream (s : State) (i : Nat) (x : Stream) : (s.setStream i x).poison = s.poison := rfl
@[simp] theorem State.cells_setStream (s : State) (i : Nat) (x : Stream) : (s.setStream i x).cells = s.cells := rfl
@[simp] theorem State.blocks_setStream (s : State) (i : Nat) (x : Stream) : (s.setStream i x).blocks = s.blocks := rfl
@[simp] theorem State.tasks_setStream (s : State) (i : Nat) (x : Stream) : (s.setStream i x).tasks = s.tasks := rfl
@[simp] theorem State.taskSeq_setStream (s : State) (i : Nat) (x : Stream) : (s.setStream i x).taskSeq = s.taskSeq := rfl
@[simp] theorem State.armSeq_setStream (s : State) (i : Nat) (x : Stream) : (s.setStream i x).armSeq = s.armSeq := rfl
@[simp] theorem State.resetsRun_setStream (s : State) (i : Nat) (x : Stream) : (s.setStream i x).resetsRun = s.resetsRun := rfl
@[simp] theorem State.harts_setStream (s : State) (i : Nat) (x : Stream) : (s.setStream i x).harts = s.harts := rfl
@[simp] theorem State.clock_setStream (s : State) (i : Nat) (x : Stream) : (s.setStream i x).clock = s.clock := rfl
@[simp] theorem State.hubTurn_setStream (s : State) (i : Nat) (x : Stream) : (s.setStream i x).hubTurn = s.hubTurn := rfl
@[simp] theorem State.hubLeft_setStream (s : State) (i : Nat) (x : Stream) : (s.setStream i x).hubLeft = s.hubLeft := rfl
@[simp] theorem State.pressed_setStream (s : State) (i : Nat) (x : Stream) : (s.setStream i x).pressed = s.pressed := rfl
@[simp] theorem State.domainCounts_setStream (s : State) (i : Nat) (x : Stream) : (s.setStream i x).domainCounts = s.domainCounts := rfl
@[simp] theorem State.events_setStream (s : State) (i : Nat) (x : Stream) : (s.setStream i x).events = s.events := rfl
@[simp] theorem State.eventSeq_setStream (s : State) (i : Nat) (x : Stream) : (s.setStream i x).eventSeq = s.eventSeq := rfl
@[simp] theorem State.sync_setStream (s : State) (i : Nat) (x : Stream) : (s.setStream i x).sync = s.sync := rfl
@[simp] theorem State.scrub_setStream (s : State) (i : Nat) (x : Stream) : (s.setStream i x).scrub = s.scrub := rfl
@[simp] theorem State.resets_setStream (s : State) (i : Nat) (x : Stream) : (s.setStream i x).resets = s.resets := rfl
@[simp] theorem State.log_setStream (s : State) (i : Nat) (x : Stream) : (s.setStream i x).log = s.log := rfl
@[simp] theorem State.logSeq_setStream (s : State) (i : Nat) (x : Stream) : (s.setStream i x).logSeq = s.logSeq := rfl
@[simp] theorem State.sundial_setStream (s : State) (i : Nat) (x : Stream) : (s.setStream i x).sundial = s.sundial := rfl
@[simp] theorem State.phase_setStream (s : State) (i : Nat) (x : Stream) : (s.setStream i x).phase = s.phase := rfl
@[simp] theorem State.slew_setStream (s : State) (i : Nat) (x : Stream) : (s.setStream i x).slew = s.slew := rfl
@[simp] theorem State.slewTick_setStream (s : State) (i : Nat) (x : Stream) : (s.setStream i x).slewTick = s.slewTick := rfl
@[simp] theorem State.latch_setStream (s : State) (i : Nat) (x : Stream) : (s.setStream i x).latch = s.latch := rfl
@[simp] theorem State.free_setStream (s : State) (i : Nat) (x : Stream) : (s.setStream i x).free = s.free := rfl
@[simp] theorem State.pending_setStream (s : State) (i : Nat) (x : Stream) : (s.setStream i x).pending = s.pending := rfl
@[simp] theorem State.plots_setStream (s : State) (i : Nat) (x : Stream) : (s.setStream i x).plots = s.plots := rfl
@[simp] theorem State.pools_setStream (s : State) (i : Nat) (x : Stream) : (s.setStream i x).pools = s.pools := rfl
@[simp] theorem State.frames_setStream (s : State) (i : Nat) (x : Stream) : (s.setStream i x).frames = s.frames := rfl
@[simp] theorem State.seqs_setStream (s : State) (i : Nat) (x : Stream) : (s.setStream i x).seqs = s.seqs := rfl
@[simp] theorem State.journal_setStream (s : State) (i : Nat) (x : Stream) : (s.setStream i x).journal = s.journal := rfl
@[simp] theorem State.batches_setStream (s : State) (i : Nat) (x : Stream) : (s.setStream i x).batches = s.batches := rfl
@[simp] theorem State.draining_setStream (s : State) (i : Nat) (x : Stream) : (s.setStream i x).draining = s.draining := rfl
@[simp] theorem State.kvmTurn_setStream (s : State) (i : Nat) (x : Stream) : (s.setStream i x).kvmTurn = s.kvmTurn := rfl
@[simp] theorem State.kvmOwed_setStream (s : State) (i : Nat) (x : Stream) : (s.setStream i x).kvmOwed = s.kvmOwed := rfl
@[simp] theorem State.kvmSeq_setStream (s : State) (i : Nat) (x : Stream) : (s.setStream i x).kvmSeq = s.kvmSeq := rfl
@[simp] theorem State.admTurn_setStream (s : State) (i : Nat) (x : Stream) : (s.setStream i x).admTurn = s.admTurn := rfl
@[simp] theorem State.out_setStream (s : State) (i : Nat) (x : Stream) : (s.setStream i x).out = s.out := rfl
@[simp] theorem State.reqs_setStream (s : State) (i : Nat) (x : Stream) : (s.setStream i x).reqs = s.reqs := rfl
@[simp] theorem State.msgTag_setStream (s : State) (i : Nat) (x : Stream) : (s.setStream i x).msgTag = s.msgTag := rfl
@[simp] theorem State.eccReports_setStream (s : State) (i : Nat) (x : Stream) : (s.setStream i x).eccReports = s.eccReports := rfl
@[simp] theorem State.rdata_setStream (s : State) (i : Nat) (x : Stream) : (s.setStream i x).rdata = s.rdata := rfl
@[simp] theorem State.rootChip_setStream (s : State) (i : Nat) (x : Stream) : (s.setStream i x).rootChip = s.rootChip := rfl
@[simp] theorem State.peerHandles_setStream (s : State) (i : Nat) (x : Stream) : (s.setStream i x).peerHandles = s.peerHandles := rfl
@[simp] theorem State.moveSeq_setStream (s : State) (i : Nat) (x : Stream) : (s.setStream i x).moveSeq = s.moveSeq := rfl
@[simp] theorem State.walks_setStream (s : State) (i : Nat) (x : Stream) : (s.setStream i x).walks = s.walks := rfl
@[simp] theorem State.signing_setStream (s : State) (i : Nat) (x : Stream) : (s.setStream i x).signing = s.signing := rfl
@[simp] theorem State.indexes_setStream (s : State) (i : Nat) (x : Stream) : (s.setStream i x).indexes = s.indexes := rfl
@[simp] theorem State.rbatches_setStream (s : State) (i : Nat) (x : Stream) : (s.setStream i x).rbatches = s.rbatches := rfl
@[simp] theorem State.rbatchSeq_setStream (s : State) (i : Nat) (x : Stream) : (s.setStream i x).rbatchSeq = s.rbatchSeq := rfl
@[simp] theorem State.groups_setStream (s : State) (i : Nat) (x : Stream) : (s.setStream i x).groups = s.groups := rfl
@[simp] theorem State.colGroups_setStream (s : State) (i : Nat) (x : Stream) : (s.setStream i x).colGroups = s.colGroups := rfl
@[simp] theorem State.chains_setStream (s : State) (i : Nat) (x : Stream) : (s.setStream i x).chains = s.chains := rfl
@[simp] theorem State.ops_setStream (s : State) (i : Nat) (x : Stream) : (s.setStream i x).ops = s.ops := rfl
@[simp] theorem State.opSeq_setStream (s : State) (i : Nat) (x : Stream) : (s.setStream i x).opSeq = s.opSeq := rfl
@[simp] theorem State.colIn_setStream (s : State) (i : Nat) (x : Stream) : (s.setStream i x).colIn = s.colIn := rfl
@[simp] theorem State.colSteps_setStream (s : State) (i : Nat) (x : Stream) : (s.setStream i x).colSteps = s.colSteps := rfl
@[simp] theorem State.lostDrains_setStream (s : State) (i : Nat) (x : Stream) : (s.setStream i x).lostDrains = s.lostDrains := rfl
@[simp] theorem State.peers_setStream (s : State) (i : Nat) (x : Stream) : (s.setStream i x).peers = s.peers := rfl
@[simp] theorem State.conns_setStream (s : State) (i : Nat) (x : Stream) : (s.setStream i x).conns = s.conns := rfl
@[simp] theorem State.phys_setStream (s : State) (i : Nat) (x : Stream) : (s.setStream i x).phys = s.phys := rfl
@[simp] theorem State.discovering_setStream (s : State) (i : Nat) (x : Stream) : (s.setStream i x).discovering = s.discovering := rfl
@[simp] theorem State.configHash_setStream (s : State) (i : Nat) (x : Stream) : (s.setStream i x).configHash = s.configHash := rfl
@[simp] theorem State.hall_setStream (s : State) (i : Nat) (x : Stream) : (s.setStream i x).hall = s.hall := rfl
@[simp] theorem State.syncMap_setStream (s : State) (i : Nat) (x : Stream) : (s.setStream i x).syncMap = s.syncMap := rfl
@[simp] theorem State.defaultRack_setStream (s : State) (i : Nat) (x : Stream) : (s.setStream i x).defaultRack = s.defaultRack := rfl
@[simp] theorem State.hubHeld_setStream (s : State) (i : Nat) (x : Stream) : (s.setStream i x).hubHeld = s.hubHeld := rfl
@[simp] theorem State.linkMap_setStream (s : State) (i : Nat) (x : Stream) : (s.setStream i x).linkMap = s.linkMap := rfl
@[simp] theorem State.ptpPort_setStream (s : State) (i : Nat) (x : Stream) : (s.setStream i x).ptpPort = s.ptpPort := rfl
@[simp] theorem State.ptpDomain_setStream (s : State) (i : Nat) (x : Stream) : (s.setStream i x).ptpDomain = s.ptpDomain := rfl
@[simp] theorem State.storeUpset_setStream (s : State) (i : Nat) (x : Stream) : (s.setStream i x).storeUpset = s.storeUpset := rfl
@[simp] theorem State.scanStart_setStream (s : State) (i : Nat) (x : Stream) : (s.setStream i x).scanStart = s.scanStart := rfl
@[simp] theorem State.shiftBook_setStream (s : State) (i : Nat) (x : Stream) : (s.setStream i x).shiftBook = s.shiftBook := rfl
@[simp] theorem State.endedTasks_setStream (s : State) (i : Nat) (x : Stream) : (s.setStream i x).endedTasks = s.endedTasks := rfl
@[simp] theorem State.pcieGen_setStream (s : State) (i : Nat) (x : Stream) : (s.setStream i x).pcieGen = s.pcieGen := rfl
@[simp] theorem State.pcieLanes_setStream (s : State) (i : Nat) (x : Stream) : (s.setStream i x).pcieLanes = s.pcieLanes := rfl
@[simp] theorem State.ptp_setStream (s : State) (i : Nat) (x : Stream) : (s.setStream i x).ptp = s.ptp := rfl
@[simp] theorem State.logFloor_setStream (s : State) (i : Nat) (x : Stream) : (s.setStream i x).logFloor = s.logFloor := rfl
@[simp] theorem State.harvest_setStream (s : State) (i : Nat) (x : Stream) : (s.setStream i x).harvest = s.harvest := rfl
@[simp] theorem State.harvestSeq_setStream (s : State) (i : Nat) (x : Stream) : (s.setStream i x).harvestSeq = s.harvestSeq := rfl
@[simp] theorem State.boot_setStream (s : State) (i : Nat) (x : Stream) : (s.setStream i x).boot = s.boot := rfl
@[simp] theorem State.safety_setStream (s : State) (i : Nat) (x : Stream) : (s.setStream i x).safety = s.safety := rfl
@[simp] theorem State.ptpUse_setStream (s : State) (i : Nat) (x : Stream) : (s.setStream i x).ptpUse = s.ptpUse := rfl
@[simp] theorem State.portAddr_setStream (s : State) (i : Nat) (x : Stream) : (s.setStream i x).portAddr = s.portAddr := rfl
@[simp] theorem State.perf_setStream (s : State) (i : Nat) (x : Stream) : (s.setStream i x).perf = s.perf := rfl
@[simp] theorem State.regionCounts_setStream (s : State) (i : Nat) (x : Stream) : (s.setStream i x).domainCounts = s.domainCounts := rfl
@[simp] theorem State.chipCounts_setStream (s : State) (i : Nat) (x : Stream) : (s.setStream i x).chipCounts = s.chipCounts := rfl
@[simp] theorem State.replay_setStream (s : State) (i : Nat) (x : Stream) : (s.setStream i x).replay = s.replay := rfl
@[simp] theorem State.chipWait_setStream (s : State) (i : Nat) (x : Stream) : (s.setStream i x).chipWait = s.chipWait := rfl
@[simp] theorem State.hubLost_setStream (s : State) (i : Nat) (x : Stream) : (s.setStream i x).hubLost = s.hubLost := rfl
@[simp] theorem State.pcieLost_setStream (s : State) (i : Nat) (x : Stream) : (s.setStream i x).pcieLost = s.pcieLost := rfl
@[simp] theorem State.halted_setStream (s : State) (i : Nat) (x : Stream) : (s.setStream i x).halted = s.halted := rfl
@[simp] theorem State.coolSince_setStream (s : State) (i : Nat) (x : Stream) : (s.setStream i x).coolSince = s.coolSince := rfl
@[simp] theorem State.governors_setStream (s : State) (i : Nat) (x : Stream) : (s.setStream i x).governors = s.governors := rfl
@[simp] theorem State.excursion_setStream (s : State) (i : Nat) (x : Stream) : (s.setStream i x).excursion = s.excursion := rfl
@[simp] theorem State.droopTick_setStream (s : State) (i : Nat) (x : Stream) : (s.setStream i x).droopTick = s.droopTick := rfl
@[simp] theorem State.heartPin_setStream (s : State) (i : Nat) (x : Stream) : (s.setStream i x).heartPin = s.heartPin := rfl
@[simp] theorem State.beatPin_setStream (s : State) (i : Nat) (x : Stream) : (s.setStream i x).beatPin = s.beatPin := rfl
@[simp] theorem State.alertFrom_setStream (s : State) (i : Nat) (x : Stream) : (s.setStream i x).alertFrom = s.alertFrom := rfl
@[simp] theorem State.admWait_setStream (s : State) (i : Nat) (x : Stream) : (s.setStream i x).admWait = s.admWait := rfl
@[simp] theorem State.mainLost_setStream (s : State) (i : Nat) (x : Stream) : (s.setStream i x).mainLost = s.mainLost := rfl
@[simp] theorem State.cooling_setStream (s : State) (i : Nat) (x : Stream) : (s.setStream i x).cooling = s.cooling := rfl
@[simp] theorem State.privLocked_setStream (s : State) (i : Nat) (x : Stream) : (s.setStream i x).privLocked = s.privLocked := rfl

@[simp] theorem State.regs_setPlot (s : State) (p : Nat) (x : Plot) : (s.setPlot p x).regs = s.regs := rfl
@[simp] theorem State.mem_setPlot (s : State) (p : Nat) (x : Plot) : (s.setPlot p x).mem = s.mem := rfl
@[simp] theorem State.hostMem_setPlot (s : State) (p : Nat) (x : Plot) : (s.setPlot p x).hostMem = s.hostMem := rfl
@[simp] theorem State.poison_setPlot (s : State) (p : Nat) (x : Plot) : (s.setPlot p x).poison = s.poison := rfl
@[simp] theorem State.cells_setPlot (s : State) (p : Nat) (x : Plot) : (s.setPlot p x).cells = s.cells := rfl
@[simp] theorem State.blocks_setPlot (s : State) (p : Nat) (x : Plot) : (s.setPlot p x).blocks = s.blocks := rfl
@[simp] theorem State.tasks_setPlot (s : State) (p : Nat) (x : Plot) : (s.setPlot p x).tasks = s.tasks := rfl
@[simp] theorem State.taskSeq_setPlot (s : State) (p : Nat) (x : Plot) : (s.setPlot p x).taskSeq = s.taskSeq := rfl
@[simp] theorem State.streams_setPlot (s : State) (p : Nat) (x : Plot) : (s.setPlot p x).streams = s.streams := rfl
@[simp] theorem State.armSeq_setPlot (s : State) (p : Nat) (x : Plot) : (s.setPlot p x).armSeq = s.armSeq := rfl
@[simp] theorem State.resetsRun_setPlot (s : State) (p : Nat) (x : Plot) : (s.setPlot p x).resetsRun = s.resetsRun := rfl
@[simp] theorem State.harts_setPlot (s : State) (p : Nat) (x : Plot) : (s.setPlot p x).harts = s.harts := rfl
@[simp] theorem State.clock_setPlot (s : State) (p : Nat) (x : Plot) : (s.setPlot p x).clock = s.clock := rfl
@[simp] theorem State.hubTurn_setPlot (s : State) (p : Nat) (x : Plot) : (s.setPlot p x).hubTurn = s.hubTurn := rfl
@[simp] theorem State.hubLeft_setPlot (s : State) (p : Nat) (x : Plot) : (s.setPlot p x).hubLeft = s.hubLeft := rfl
@[simp] theorem State.pressed_setPlot (s : State) (p : Nat) (x : Plot) : (s.setPlot p x).pressed = s.pressed := rfl
@[simp] theorem State.domainCounts_setPlot (s : State) (p : Nat) (x : Plot) : (s.setPlot p x).domainCounts = s.domainCounts := rfl
@[simp] theorem State.events_setPlot (s : State) (p : Nat) (x : Plot) : (s.setPlot p x).events = s.events := rfl
@[simp] theorem State.eventSeq_setPlot (s : State) (p : Nat) (x : Plot) : (s.setPlot p x).eventSeq = s.eventSeq := rfl
@[simp] theorem State.sync_setPlot (s : State) (p : Nat) (x : Plot) : (s.setPlot p x).sync = s.sync := rfl
@[simp] theorem State.scrub_setPlot (s : State) (p : Nat) (x : Plot) : (s.setPlot p x).scrub = s.scrub := rfl
@[simp] theorem State.resets_setPlot (s : State) (p : Nat) (x : Plot) : (s.setPlot p x).resets = s.resets := rfl
@[simp] theorem State.log_setPlot (s : State) (p : Nat) (x : Plot) : (s.setPlot p x).log = s.log := rfl
@[simp] theorem State.logSeq_setPlot (s : State) (p : Nat) (x : Plot) : (s.setPlot p x).logSeq = s.logSeq := rfl
@[simp] theorem State.sundial_setPlot (s : State) (p : Nat) (x : Plot) : (s.setPlot p x).sundial = s.sundial := rfl
@[simp] theorem State.phase_setPlot (s : State) (p : Nat) (x : Plot) : (s.setPlot p x).phase = s.phase := rfl
@[simp] theorem State.slew_setPlot (s : State) (p : Nat) (x : Plot) : (s.setPlot p x).slew = s.slew := rfl
@[simp] theorem State.slewTick_setPlot (s : State) (p : Nat) (x : Plot) : (s.setPlot p x).slewTick = s.slewTick := rfl
@[simp] theorem State.latch_setPlot (s : State) (p : Nat) (x : Plot) : (s.setPlot p x).latch = s.latch := rfl
@[simp] theorem State.free_setPlot (s : State) (p : Nat) (x : Plot) : (s.setPlot p x).free = s.free := rfl
@[simp] theorem State.pending_setPlot (s : State) (p : Nat) (x : Plot) : (s.setPlot p x).pending = s.pending := rfl
@[simp] theorem State.pools_setPlot (s : State) (p : Nat) (x : Plot) : (s.setPlot p x).pools = s.pools := rfl
@[simp] theorem State.frames_setPlot (s : State) (p : Nat) (x : Plot) : (s.setPlot p x).frames = s.frames := rfl
@[simp] theorem State.seqs_setPlot (s : State) (p : Nat) (x : Plot) : (s.setPlot p x).seqs = s.seqs := rfl
@[simp] theorem State.journal_setPlot (s : State) (p : Nat) (x : Plot) : (s.setPlot p x).journal = s.journal := rfl
@[simp] theorem State.batches_setPlot (s : State) (p : Nat) (x : Plot) : (s.setPlot p x).batches = s.batches := rfl
@[simp] theorem State.draining_setPlot (s : State) (p : Nat) (x : Plot) : (s.setPlot p x).draining = s.draining := rfl
@[simp] theorem State.kvmTurn_setPlot (s : State) (p : Nat) (x : Plot) : (s.setPlot p x).kvmTurn = s.kvmTurn := rfl
@[simp] theorem State.kvmOwed_setPlot (s : State) (p : Nat) (x : Plot) : (s.setPlot p x).kvmOwed = s.kvmOwed := rfl
@[simp] theorem State.kvmSeq_setPlot (s : State) (p : Nat) (x : Plot) : (s.setPlot p x).kvmSeq = s.kvmSeq := rfl
@[simp] theorem State.admTurn_setPlot (s : State) (p : Nat) (x : Plot) : (s.setPlot p x).admTurn = s.admTurn := rfl
@[simp] theorem State.out_setPlot (s : State) (p : Nat) (x : Plot) : (s.setPlot p x).out = s.out := rfl
@[simp] theorem State.reqs_setPlot (s : State) (p : Nat) (x : Plot) : (s.setPlot p x).reqs = s.reqs := rfl
@[simp] theorem State.msgTag_setPlot (s : State) (p : Nat) (x : Plot) : (s.setPlot p x).msgTag = s.msgTag := rfl
@[simp] theorem State.eccReports_setPlot (s : State) (p : Nat) (x : Plot) : (s.setPlot p x).eccReports = s.eccReports := rfl
@[simp] theorem State.rdata_setPlot (s : State) (p : Nat) (x : Plot) : (s.setPlot p x).rdata = s.rdata := rfl
@[simp] theorem State.rootChip_setPlot (s : State) (p : Nat) (x : Plot) : (s.setPlot p x).rootChip = s.rootChip := rfl
@[simp] theorem State.peerHandles_setPlot (s : State) (p : Nat) (x : Plot) : (s.setPlot p x).peerHandles = s.peerHandles := rfl
@[simp] theorem State.moveSeq_setPlot (s : State) (p : Nat) (x : Plot) : (s.setPlot p x).moveSeq = s.moveSeq := rfl
@[simp] theorem State.walks_setPlot (s : State) (p : Nat) (x : Plot) : (s.setPlot p x).walks = s.walks := rfl
@[simp] theorem State.signing_setPlot (s : State) (p : Nat) (x : Plot) : (s.setPlot p x).signing = s.signing := rfl
@[simp] theorem State.indexes_setPlot (s : State) (p : Nat) (x : Plot) : (s.setPlot p x).indexes = s.indexes := rfl
@[simp] theorem State.rbatches_setPlot (s : State) (p : Nat) (x : Plot) : (s.setPlot p x).rbatches = s.rbatches := rfl
@[simp] theorem State.rbatchSeq_setPlot (s : State) (p : Nat) (x : Plot) : (s.setPlot p x).rbatchSeq = s.rbatchSeq := rfl
@[simp] theorem State.groups_setPlot (s : State) (p : Nat) (x : Plot) : (s.setPlot p x).groups = s.groups := rfl
@[simp] theorem State.colGroups_setPlot (s : State) (p : Nat) (x : Plot) : (s.setPlot p x).colGroups = s.colGroups := rfl
@[simp] theorem State.chains_setPlot (s : State) (p : Nat) (x : Plot) : (s.setPlot p x).chains = s.chains := rfl
@[simp] theorem State.ops_setPlot (s : State) (p : Nat) (x : Plot) : (s.setPlot p x).ops = s.ops := rfl
@[simp] theorem State.opSeq_setPlot (s : State) (p : Nat) (x : Plot) : (s.setPlot p x).opSeq = s.opSeq := rfl
@[simp] theorem State.colIn_setPlot (s : State) (p : Nat) (x : Plot) : (s.setPlot p x).colIn = s.colIn := rfl
@[simp] theorem State.colSteps_setPlot (s : State) (p : Nat) (x : Plot) : (s.setPlot p x).colSteps = s.colSteps := rfl
@[simp] theorem State.lostDrains_setPlot (s : State) (p : Nat) (x : Plot) : (s.setPlot p x).lostDrains = s.lostDrains := rfl
@[simp] theorem State.peers_setPlot (s : State) (p : Nat) (x : Plot) : (s.setPlot p x).peers = s.peers := rfl
@[simp] theorem State.conns_setPlot (s : State) (p : Nat) (x : Plot) : (s.setPlot p x).conns = s.conns := rfl
@[simp] theorem State.phys_setPlot (s : State) (p : Nat) (x : Plot) : (s.setPlot p x).phys = s.phys := rfl
@[simp] theorem State.discovering_setPlot (s : State) (p : Nat) (x : Plot) : (s.setPlot p x).discovering = s.discovering := rfl
@[simp] theorem State.configHash_setPlot (s : State) (p : Nat) (x : Plot) : (s.setPlot p x).configHash = s.configHash := rfl
@[simp] theorem State.hall_setPlot (s : State) (p : Nat) (x : Plot) : (s.setPlot p x).hall = s.hall := rfl
@[simp] theorem State.syncMap_setPlot (s : State) (p : Nat) (x : Plot) : (s.setPlot p x).syncMap = s.syncMap := rfl
@[simp] theorem State.defaultRack_setPlot (s : State) (p : Nat) (x : Plot) : (s.setPlot p x).defaultRack = s.defaultRack := rfl
@[simp] theorem State.hubHeld_setPlot (s : State) (p : Nat) (x : Plot) : (s.setPlot p x).hubHeld = s.hubHeld := rfl
@[simp] theorem State.linkMap_setPlot (s : State) (p : Nat) (x : Plot) : (s.setPlot p x).linkMap = s.linkMap := rfl
@[simp] theorem State.ptpPort_setPlot (s : State) (p : Nat) (x : Plot) : (s.setPlot p x).ptpPort = s.ptpPort := rfl
@[simp] theorem State.ptpDomain_setPlot (s : State) (p : Nat) (x : Plot) : (s.setPlot p x).ptpDomain = s.ptpDomain := rfl
@[simp] theorem State.storeUpset_setPlot (s : State) (p : Nat) (x : Plot) : (s.setPlot p x).storeUpset = s.storeUpset := rfl
@[simp] theorem State.scanStart_setPlot (s : State) (p : Nat) (x : Plot) : (s.setPlot p x).scanStart = s.scanStart := rfl
@[simp] theorem State.shiftBook_setPlot (s : State) (p : Nat) (x : Plot) : (s.setPlot p x).shiftBook = s.shiftBook := rfl
@[simp] theorem State.endedTasks_setPlot (s : State) (p : Nat) (x : Plot) : (s.setPlot p x).endedTasks = s.endedTasks := rfl
@[simp] theorem State.pcieGen_setPlot (s : State) (p : Nat) (x : Plot) : (s.setPlot p x).pcieGen = s.pcieGen := rfl
@[simp] theorem State.pcieLanes_setPlot (s : State) (p : Nat) (x : Plot) : (s.setPlot p x).pcieLanes = s.pcieLanes := rfl
@[simp] theorem State.ptp_setPlot (s : State) (p : Nat) (x : Plot) : (s.setPlot p x).ptp = s.ptp := rfl
@[simp] theorem State.logFloor_setPlot (s : State) (p : Nat) (x : Plot) : (s.setPlot p x).logFloor = s.logFloor := rfl
@[simp] theorem State.harvest_setPlot (s : State) (p : Nat) (x : Plot) : (s.setPlot p x).harvest = s.harvest := rfl
@[simp] theorem State.harvestSeq_setPlot (s : State) (p : Nat) (x : Plot) : (s.setPlot p x).harvestSeq = s.harvestSeq := rfl
@[simp] theorem State.boot_setPlot (s : State) (p : Nat) (x : Plot) : (s.setPlot p x).boot = s.boot := rfl
@[simp] theorem State.safety_setPlot (s : State) (p : Nat) (x : Plot) : (s.setPlot p x).safety = s.safety := rfl
@[simp] theorem State.ptpUse_setPlot (s : State) (p : Nat) (x : Plot) : (s.setPlot p x).ptpUse = s.ptpUse := rfl
@[simp] theorem State.portAddr_setPlot (s : State) (p : Nat) (x : Plot) : (s.setPlot p x).portAddr = s.portAddr := rfl
@[simp] theorem State.perf_setPlot (s : State) (p : Nat) (x : Plot) : (s.setPlot p x).perf = s.perf := rfl
@[simp] theorem State.regionCounts_setPlot (s : State) (p : Nat) (x : Plot) : (s.setPlot p x).domainCounts = s.domainCounts := rfl
@[simp] theorem State.chipCounts_setPlot (s : State) (p : Nat) (x : Plot) : (s.setPlot p x).chipCounts = s.chipCounts := rfl
@[simp] theorem State.replay_setPlot (s : State) (p : Nat) (x : Plot) : (s.setPlot p x).replay = s.replay := rfl
@[simp] theorem State.chipWait_setPlot (s : State) (p : Nat) (x : Plot) : (s.setPlot p x).chipWait = s.chipWait := rfl
@[simp] theorem State.hubLost_setPlot (s : State) (p : Nat) (x : Plot) : (s.setPlot p x).hubLost = s.hubLost := rfl
@[simp] theorem State.pcieLost_setPlot (s : State) (p : Nat) (x : Plot) : (s.setPlot p x).pcieLost = s.pcieLost := rfl
@[simp] theorem State.halted_setPlot (s : State) (p : Nat) (x : Plot) : (s.setPlot p x).halted = s.halted := rfl
@[simp] theorem State.coolSince_setPlot (s : State) (p : Nat) (x : Plot) : (s.setPlot p x).coolSince = s.coolSince := rfl
@[simp] theorem State.governors_setPlot (s : State) (p : Nat) (x : Plot) : (s.setPlot p x).governors = s.governors := rfl
@[simp] theorem State.excursion_setPlot (s : State) (p : Nat) (x : Plot) : (s.setPlot p x).excursion = s.excursion := rfl
@[simp] theorem State.droopTick_setPlot (s : State) (p : Nat) (x : Plot) : (s.setPlot p x).droopTick = s.droopTick := rfl
@[simp] theorem State.heartPin_setPlot (s : State) (p : Nat) (x : Plot) : (s.setPlot p x).heartPin = s.heartPin := rfl
@[simp] theorem State.beatPin_setPlot (s : State) (p : Nat) (x : Plot) : (s.setPlot p x).beatPin = s.beatPin := rfl
@[simp] theorem State.alertFrom_setPlot (s : State) (p : Nat) (x : Plot) : (s.setPlot p x).alertFrom = s.alertFrom := rfl
@[simp] theorem State.admWait_setPlot (s : State) (p : Nat) (x : Plot) : (s.setPlot p x).admWait = s.admWait := rfl
@[simp] theorem State.mainLost_setPlot (s : State) (p : Nat) (x : Plot) : (s.setPlot p x).mainLost = s.mainLost := rfl
@[simp] theorem State.cooling_setPlot (s : State) (p : Nat) (x : Plot) : (s.setPlot p x).cooling = s.cooling := rfl
@[simp] theorem State.privLocked_setPlot (s : State) (p : Nat) (x : Plot) : (s.setPlot p x).privLocked = s.privLocked := rfl

@[simp] theorem State.byteAt_setReg (s : State) (r : Reg) (i : Nat) (v : W32) (y : Nat) : (s.setReg r i v).byteAt y = s.byteAt y := rfl
@[simp] theorem State.readBytes_setReg (s : State) (r : Reg) (i : Nat) (v : W32) (y n : Nat) : (s.setReg r i v).readBytes y n = s.readBytes y n := rfl
@[simp] theorem State.readLe_setReg (s : State) (r : Reg) (i : Nat) (v : W32) (y n : Nat) : (s.setReg r i v).readLe y n = s.readLe y n := rfl
@[simp] theorem State.hostByte_setReg (s : State) (r : Reg) (i : Nat) (v : W32) (y : Nat) : (s.setReg r i v).hostByte y = s.hostByte y := rfl
@[simp] theorem State.poisoned_setReg (s : State) (r : Reg) (i : Nat) (v : W32) (y : Nat) : (s.setReg r i v).poisoned y = s.poisoned y := rfl
@[simp] theorem State.cell_setReg (s : State) (r : Reg) (i : Nat) (v : W32) (j : Nat) : (s.setReg r i v).cell j = s.cell j := rfl
@[simp] theorem State.block_setReg (s : State) (r : Reg) (i : Nat) (v : W32) (j : Nat) : (s.setReg r i v).block j = s.block j := rfl
@[simp] theorem State.task_setReg (s : State) (r : Reg) (i : Nat) (v : W32) (j : Nat) : (s.setReg r i v).task j = s.task j := rfl
@[simp] theorem State.stream_setReg (s : State) (r : Reg) (i : Nat) (v : W32) (j : Nat) : (s.setReg r i v).stream j = s.stream j := rfl
@[simp] theorem State.plot_setReg (s : State) (r : Reg) (i : Nat) (v : W32) (j : Nat) : (s.setReg r i v).plot j = s.plot j := rfl
@[simp] theorem State.pool_setReg (s : State) (r : Reg) (i : Nat) (v : W32) (j k : Nat) : (s.setReg r i v).pool j k = s.pool j k := rfl

@[simp] theorem State.byteAt_setFld (s : State) (f : Fld) (i v : Nat) (y : Nat) : (s.setFld f i v).byteAt y = s.byteAt y := rfl
@[simp] theorem State.readBytes_setFld (s : State) (f : Fld) (i v : Nat) (y n : Nat) : (s.setFld f i v).readBytes y n = s.readBytes y n := rfl
@[simp] theorem State.readLe_setFld (s : State) (f : Fld) (i v : Nat) (y n : Nat) : (s.setFld f i v).readLe y n = s.readLe y n := rfl
@[simp] theorem State.hostByte_setFld (s : State) (f : Fld) (i v : Nat) (y : Nat) : (s.setFld f i v).hostByte y = s.hostByte y := rfl
@[simp] theorem State.poisoned_setFld (s : State) (f : Fld) (i v : Nat) (y : Nat) : (s.setFld f i v).poisoned y = s.poisoned y := rfl
@[simp] theorem State.cell_setFld (s : State) (f : Fld) (i v : Nat) (j : Nat) : (s.setFld f i v).cell j = s.cell j := rfl
@[simp] theorem State.block_setFld (s : State) (f : Fld) (i v : Nat) (j : Nat) : (s.setFld f i v).block j = s.block j := rfl
@[simp] theorem State.task_setFld (s : State) (f : Fld) (i v : Nat) (j : Nat) : (s.setFld f i v).task j = s.task j := rfl
@[simp] theorem State.stream_setFld (s : State) (f : Fld) (i v : Nat) (j : Nat) : (s.setFld f i v).stream j = s.stream j := rfl
@[simp] theorem State.plot_setFld (s : State) (f : Fld) (i v : Nat) (j : Nat) : (s.setFld f i v).plot j = s.plot j := rfl
@[simp] theorem State.pool_setFld (s : State) (f : Fld) (i v : Nat) (j k : Nat) : (s.setFld f i v).pool j k = s.pool j k := rfl

@[simp] theorem State.byteAt_setBit (s : State) (f : Fld) (i : Nat) (b : Bool) (y : Nat) : (s.setBit f i b).byteAt y = s.byteAt y := rfl
@[simp] theorem State.readBytes_setBit (s : State) (f : Fld) (i : Nat) (b : Bool) (y n : Nat) : (s.setBit f i b).readBytes y n = s.readBytes y n := rfl
@[simp] theorem State.readLe_setBit (s : State) (f : Fld) (i : Nat) (b : Bool) (y n : Nat) : (s.setBit f i b).readLe y n = s.readLe y n := rfl
@[simp] theorem State.hostByte_setBit (s : State) (f : Fld) (i : Nat) (b : Bool) (y : Nat) : (s.setBit f i b).hostByte y = s.hostByte y := rfl
@[simp] theorem State.poisoned_setBit (s : State) (f : Fld) (i : Nat) (b : Bool) (y : Nat) : (s.setBit f i b).poisoned y = s.poisoned y := rfl
@[simp] theorem State.cell_setBit (s : State) (f : Fld) (i : Nat) (b : Bool) (j : Nat) : (s.setBit f i b).cell j = s.cell j := rfl
@[simp] theorem State.block_setBit (s : State) (f : Fld) (i : Nat) (b : Bool) (j : Nat) : (s.setBit f i b).block j = s.block j := rfl
@[simp] theorem State.task_setBit (s : State) (f : Fld) (i : Nat) (b : Bool) (j : Nat) : (s.setBit f i b).task j = s.task j := rfl
@[simp] theorem State.stream_setBit (s : State) (f : Fld) (i : Nat) (b : Bool) (j : Nat) : (s.setBit f i b).stream j = s.stream j := rfl
@[simp] theorem State.plot_setBit (s : State) (f : Fld) (i : Nat) (b : Bool) (j : Nat) : (s.setBit f i b).plot j = s.plot j := rfl
@[simp] theorem State.pool_setBit (s : State) (f : Fld) (i : Nat) (b : Bool) (j k : Nat) : (s.setBit f i b).pool j k = s.pool j k := rfl

@[simp] theorem State.byteAt_addSat (s : State) (f : Fld) (i m : Nat) (y : Nat) : (s.addSat f i m).byteAt y = s.byteAt y := rfl
@[simp] theorem State.readBytes_addSat (s : State) (f : Fld) (i m : Nat) (y n : Nat) : (s.addSat f i m).readBytes y n = s.readBytes y n := rfl
@[simp] theorem State.readLe_addSat (s : State) (f : Fld) (i m : Nat) (y n : Nat) : (s.addSat f i m).readLe y n = s.readLe y n := rfl
@[simp] theorem State.hostByte_addSat (s : State) (f : Fld) (i m : Nat) (y : Nat) : (s.addSat f i m).hostByte y = s.hostByte y := rfl
@[simp] theorem State.poisoned_addSat (s : State) (f : Fld) (i m : Nat) (y : Nat) : (s.addSat f i m).poisoned y = s.poisoned y := rfl
@[simp] theorem State.cell_addSat (s : State) (f : Fld) (i m : Nat) (j : Nat) : (s.addSat f i m).cell j = s.cell j := rfl
@[simp] theorem State.block_addSat (s : State) (f : Fld) (i m : Nat) (j : Nat) : (s.addSat f i m).block j = s.block j := rfl
@[simp] theorem State.task_addSat (s : State) (f : Fld) (i m : Nat) (j : Nat) : (s.addSat f i m).task j = s.task j := rfl
@[simp] theorem State.stream_addSat (s : State) (f : Fld) (i m : Nat) (j : Nat) : (s.addSat f i m).stream j = s.stream j := rfl
@[simp] theorem State.plot_addSat (s : State) (f : Fld) (i m : Nat) (j : Nat) : (s.addSat f i m).plot j = s.plot j := rfl
@[simp] theorem State.pool_addSat (s : State) (f : Fld) (i m : Nat) (j k : Nat) : (s.addSat f i m).pool j k = s.pool j k := rfl

@[simp] theorem State.reg_writeBytes (s : State) (a : Nat) (bs : List Byte) (q : Reg) (j : Nat) : (s.writeBytes a bs).reg q j = s.reg q j := rfl
@[simp] theorem State.fld_writeBytes (s : State) (a : Nat) (bs : List Byte) (g : Fld) (j : Nat) : (s.writeBytes a bs).fld g j = s.fld g j := rfl
@[simp] theorem State.bit_writeBytes (s : State) (a : Nat) (bs : List Byte) (g : Fld) (j : Nat) : (s.writeBytes a bs).bit g j = s.bit g j := rfl
@[simp] theorem State.hostByte_writeBytes (s : State) (a : Nat) (bs : List Byte) (y : Nat) : (s.writeBytes a bs).hostByte y = s.hostByte y := rfl
@[simp] theorem State.poisoned_writeBytes (s : State) (a : Nat) (bs : List Byte) (y : Nat) : (s.writeBytes a bs).poisoned y = s.poisoned y := rfl
@[simp] theorem State.cell_writeBytes (s : State) (a : Nat) (bs : List Byte) (j : Nat) : (s.writeBytes a bs).cell j = s.cell j := rfl
@[simp] theorem State.block_writeBytes (s : State) (a : Nat) (bs : List Byte) (j : Nat) : (s.writeBytes a bs).block j = s.block j := rfl
@[simp] theorem State.task_writeBytes (s : State) (a : Nat) (bs : List Byte) (j : Nat) : (s.writeBytes a bs).task j = s.task j := rfl
@[simp] theorem State.stream_writeBytes (s : State) (a : Nat) (bs : List Byte) (j : Nat) : (s.writeBytes a bs).stream j = s.stream j := rfl
@[simp] theorem State.plot_writeBytes (s : State) (a : Nat) (bs : List Byte) (j : Nat) : (s.writeBytes a bs).plot j = s.plot j := rfl
@[simp] theorem State.pool_writeBytes (s : State) (a : Nat) (bs : List Byte) (j k : Nat) : (s.writeBytes a bs).pool j k = s.pool j k := rfl

@[simp] theorem State.reg_writeHost (s : State) (a : Nat) (bs : List Byte) (q : Reg) (j : Nat) : (s.writeHost a bs).reg q j = s.reg q j := rfl
@[simp] theorem State.fld_writeHost (s : State) (a : Nat) (bs : List Byte) (g : Fld) (j : Nat) : (s.writeHost a bs).fld g j = s.fld g j := rfl
@[simp] theorem State.bit_writeHost (s : State) (a : Nat) (bs : List Byte) (g : Fld) (j : Nat) : (s.writeHost a bs).bit g j = s.bit g j := rfl
@[simp] theorem State.byteAt_writeHost (s : State) (a : Nat) (bs : List Byte) (y : Nat) : (s.writeHost a bs).byteAt y = s.byteAt y := rfl
@[simp] theorem State.readBytes_writeHost (s : State) (a : Nat) (bs : List Byte) (y n : Nat) : (s.writeHost a bs).readBytes y n = s.readBytes y n := rfl
@[simp] theorem State.readLe_writeHost (s : State) (a : Nat) (bs : List Byte) (y n : Nat) : (s.writeHost a bs).readLe y n = s.readLe y n := rfl
@[simp] theorem State.poisoned_writeHost (s : State) (a : Nat) (bs : List Byte) (y : Nat) : (s.writeHost a bs).poisoned y = s.poisoned y := rfl
@[simp] theorem State.cell_writeHost (s : State) (a : Nat) (bs : List Byte) (j : Nat) : (s.writeHost a bs).cell j = s.cell j := rfl
@[simp] theorem State.block_writeHost (s : State) (a : Nat) (bs : List Byte) (j : Nat) : (s.writeHost a bs).block j = s.block j := rfl
@[simp] theorem State.task_writeHost (s : State) (a : Nat) (bs : List Byte) (j : Nat) : (s.writeHost a bs).task j = s.task j := rfl
@[simp] theorem State.stream_writeHost (s : State) (a : Nat) (bs : List Byte) (j : Nat) : (s.writeHost a bs).stream j = s.stream j := rfl
@[simp] theorem State.plot_writeHost (s : State) (a : Nat) (bs : List Byte) (j : Nat) : (s.writeHost a bs).plot j = s.plot j := rfl
@[simp] theorem State.pool_writeHost (s : State) (a : Nat) (bs : List Byte) (j k : Nat) : (s.writeHost a bs).pool j k = s.pool j k := rfl

@[simp] theorem State.reg_setPoison (s : State) (a : Nat) (b : Bool) (q : Reg) (j : Nat) : (s.setPoison a b).reg q j = s.reg q j := rfl
@[simp] theorem State.fld_setPoison (s : State) (a : Nat) (b : Bool) (g : Fld) (j : Nat) : (s.setPoison a b).fld g j = s.fld g j := rfl
@[simp] theorem State.bit_setPoison (s : State) (a : Nat) (b : Bool) (g : Fld) (j : Nat) : (s.setPoison a b).bit g j = s.bit g j := rfl
@[simp] theorem State.byteAt_setPoison (s : State) (a : Nat) (b : Bool) (y : Nat) : (s.setPoison a b).byteAt y = s.byteAt y := rfl
@[simp] theorem State.readBytes_setPoison (s : State) (a : Nat) (b : Bool) (y n : Nat) : (s.setPoison a b).readBytes y n = s.readBytes y n := rfl
@[simp] theorem State.readLe_setPoison (s : State) (a : Nat) (b : Bool) (y n : Nat) : (s.setPoison a b).readLe y n = s.readLe y n := rfl
@[simp] theorem State.hostByte_setPoison (s : State) (a : Nat) (b : Bool) (y : Nat) : (s.setPoison a b).hostByte y = s.hostByte y := rfl
@[simp] theorem State.cell_setPoison (s : State) (a : Nat) (b : Bool) (j : Nat) : (s.setPoison a b).cell j = s.cell j := rfl
@[simp] theorem State.block_setPoison (s : State) (a : Nat) (b : Bool) (j : Nat) : (s.setPoison a b).block j = s.block j := rfl
@[simp] theorem State.task_setPoison (s : State) (a : Nat) (b : Bool) (j : Nat) : (s.setPoison a b).task j = s.task j := rfl
@[simp] theorem State.stream_setPoison (s : State) (a : Nat) (b : Bool) (j : Nat) : (s.setPoison a b).stream j = s.stream j := rfl
@[simp] theorem State.plot_setPoison (s : State) (a : Nat) (b : Bool) (j : Nat) : (s.setPoison a b).plot j = s.plot j := rfl
@[simp] theorem State.pool_setPoison (s : State) (a : Nat) (b : Bool) (j k : Nat) : (s.setPoison a b).pool j k = s.pool j k := rfl

@[simp] theorem State.reg_setCell (s : State) (c : Nat) (x : Cell) (q : Reg) (j : Nat) : (s.setCell c x).reg q j = s.reg q j := rfl
@[simp] theorem State.fld_setCell (s : State) (c : Nat) (x : Cell) (g : Fld) (j : Nat) : (s.setCell c x).fld g j = s.fld g j := rfl
@[simp] theorem State.bit_setCell (s : State) (c : Nat) (x : Cell) (g : Fld) (j : Nat) : (s.setCell c x).bit g j = s.bit g j := rfl
@[simp] theorem State.byteAt_setCell (s : State) (c : Nat) (x : Cell) (y : Nat) : (s.setCell c x).byteAt y = s.byteAt y := rfl
@[simp] theorem State.readBytes_setCell (s : State) (c : Nat) (x : Cell) (y n : Nat) : (s.setCell c x).readBytes y n = s.readBytes y n := rfl
@[simp] theorem State.readLe_setCell (s : State) (c : Nat) (x : Cell) (y n : Nat) : (s.setCell c x).readLe y n = s.readLe y n := rfl
@[simp] theorem State.hostByte_setCell (s : State) (c : Nat) (x : Cell) (y : Nat) : (s.setCell c x).hostByte y = s.hostByte y := rfl
@[simp] theorem State.poisoned_setCell (s : State) (c : Nat) (x : Cell) (y : Nat) : (s.setCell c x).poisoned y = s.poisoned y := rfl
@[simp] theorem State.block_setCell (s : State) (c : Nat) (x : Cell) (j : Nat) : (s.setCell c x).block j = s.block j := rfl
@[simp] theorem State.task_setCell (s : State) (c : Nat) (x : Cell) (j : Nat) : (s.setCell c x).task j = s.task j := rfl
@[simp] theorem State.stream_setCell (s : State) (c : Nat) (x : Cell) (j : Nat) : (s.setCell c x).stream j = s.stream j := rfl
@[simp] theorem State.plot_setCell (s : State) (c : Nat) (x : Cell) (j : Nat) : (s.setCell c x).plot j = s.plot j := rfl
@[simp] theorem State.pool_setCell (s : State) (c : Nat) (x : Cell) (j k : Nat) : (s.setCell c x).pool j k = s.pool j k := rfl

@[simp] theorem State.reg_setBlock (s : State) (b : Nat) (x : Block) (q : Reg) (j : Nat) : (s.setBlock b x).reg q j = s.reg q j := rfl
@[simp] theorem State.fld_setBlock (s : State) (b : Nat) (x : Block) (g : Fld) (j : Nat) : (s.setBlock b x).fld g j = s.fld g j := rfl
@[simp] theorem State.bit_setBlock (s : State) (b : Nat) (x : Block) (g : Fld) (j : Nat) : (s.setBlock b x).bit g j = s.bit g j := rfl
@[simp] theorem State.byteAt_setBlock (s : State) (b : Nat) (x : Block) (y : Nat) : (s.setBlock b x).byteAt y = s.byteAt y := rfl
@[simp] theorem State.readBytes_setBlock (s : State) (b : Nat) (x : Block) (y n : Nat) : (s.setBlock b x).readBytes y n = s.readBytes y n := rfl
@[simp] theorem State.readLe_setBlock (s : State) (b : Nat) (x : Block) (y n : Nat) : (s.setBlock b x).readLe y n = s.readLe y n := rfl
@[simp] theorem State.hostByte_setBlock (s : State) (b : Nat) (x : Block) (y : Nat) : (s.setBlock b x).hostByte y = s.hostByte y := rfl
@[simp] theorem State.poisoned_setBlock (s : State) (b : Nat) (x : Block) (y : Nat) : (s.setBlock b x).poisoned y = s.poisoned y := rfl
@[simp] theorem State.cell_setBlock (s : State) (b : Nat) (x : Block) (j : Nat) : (s.setBlock b x).cell j = s.cell j := rfl
@[simp] theorem State.task_setBlock (s : State) (b : Nat) (x : Block) (j : Nat) : (s.setBlock b x).task j = s.task j := rfl
@[simp] theorem State.stream_setBlock (s : State) (b : Nat) (x : Block) (j : Nat) : (s.setBlock b x).stream j = s.stream j := rfl
@[simp] theorem State.plot_setBlock (s : State) (b : Nat) (x : Block) (j : Nat) : (s.setBlock b x).plot j = s.plot j := rfl
@[simp] theorem State.pool_setBlock (s : State) (b : Nat) (x : Block) (j k : Nat) : (s.setBlock b x).pool j k = s.pool j k := rfl

@[simp] theorem State.reg_setTask (s : State) (m : Nat) (x : Task) (q : Reg) (j : Nat) : (s.setTask m x).reg q j = s.reg q j := rfl
@[simp] theorem State.fld_setTask (s : State) (m : Nat) (x : Task) (g : Fld) (j : Nat) : (s.setTask m x).fld g j = s.fld g j := rfl
@[simp] theorem State.bit_setTask (s : State) (m : Nat) (x : Task) (g : Fld) (j : Nat) : (s.setTask m x).bit g j = s.bit g j := rfl
@[simp] theorem State.byteAt_setTask (s : State) (m : Nat) (x : Task) (y : Nat) : (s.setTask m x).byteAt y = s.byteAt y := rfl
@[simp] theorem State.readBytes_setTask (s : State) (m : Nat) (x : Task) (y n : Nat) : (s.setTask m x).readBytes y n = s.readBytes y n := rfl
@[simp] theorem State.readLe_setTask (s : State) (m : Nat) (x : Task) (y n : Nat) : (s.setTask m x).readLe y n = s.readLe y n := rfl
@[simp] theorem State.hostByte_setTask (s : State) (m : Nat) (x : Task) (y : Nat) : (s.setTask m x).hostByte y = s.hostByte y := rfl
@[simp] theorem State.poisoned_setTask (s : State) (m : Nat) (x : Task) (y : Nat) : (s.setTask m x).poisoned y = s.poisoned y := rfl
@[simp] theorem State.cell_setTask (s : State) (m : Nat) (x : Task) (j : Nat) : (s.setTask m x).cell j = s.cell j := rfl
@[simp] theorem State.block_setTask (s : State) (m : Nat) (x : Task) (j : Nat) : (s.setTask m x).block j = s.block j := rfl
@[simp] theorem State.stream_setTask (s : State) (m : Nat) (x : Task) (j : Nat) : (s.setTask m x).stream j = s.stream j := rfl
@[simp] theorem State.plot_setTask (s : State) (m : Nat) (x : Task) (j : Nat) : (s.setTask m x).plot j = s.plot j := rfl
@[simp] theorem State.pool_setTask (s : State) (m : Nat) (x : Task) (j k : Nat) : (s.setTask m x).pool j k = s.pool j k := rfl

@[simp] theorem State.reg_setStream (s : State) (i : Nat) (x : Stream) (q : Reg) (j : Nat) : (s.setStream i x).reg q j = s.reg q j := rfl
@[simp] theorem State.fld_setStream (s : State) (i : Nat) (x : Stream) (g : Fld) (j : Nat) : (s.setStream i x).fld g j = s.fld g j := rfl
@[simp] theorem State.bit_setStream (s : State) (i : Nat) (x : Stream) (g : Fld) (j : Nat) : (s.setStream i x).bit g j = s.bit g j := rfl
@[simp] theorem State.byteAt_setStream (s : State) (i : Nat) (x : Stream) (y : Nat) : (s.setStream i x).byteAt y = s.byteAt y := rfl
@[simp] theorem State.readBytes_setStream (s : State) (i : Nat) (x : Stream) (y n : Nat) : (s.setStream i x).readBytes y n = s.readBytes y n := rfl
@[simp] theorem State.readLe_setStream (s : State) (i : Nat) (x : Stream) (y n : Nat) : (s.setStream i x).readLe y n = s.readLe y n := rfl
@[simp] theorem State.hostByte_setStream (s : State) (i : Nat) (x : Stream) (y : Nat) : (s.setStream i x).hostByte y = s.hostByte y := rfl
@[simp] theorem State.poisoned_setStream (s : State) (i : Nat) (x : Stream) (y : Nat) : (s.setStream i x).poisoned y = s.poisoned y := rfl
@[simp] theorem State.cell_setStream (s : State) (i : Nat) (x : Stream) (j : Nat) : (s.setStream i x).cell j = s.cell j := rfl
@[simp] theorem State.block_setStream (s : State) (i : Nat) (x : Stream) (j : Nat) : (s.setStream i x).block j = s.block j := rfl
@[simp] theorem State.task_setStream (s : State) (i : Nat) (x : Stream) (j : Nat) : (s.setStream i x).task j = s.task j := rfl
@[simp] theorem State.plot_setStream (s : State) (i : Nat) (x : Stream) (j : Nat) : (s.setStream i x).plot j = s.plot j := rfl
@[simp] theorem State.pool_setStream (s : State) (i : Nat) (x : Stream) (j k : Nat) : (s.setStream i x).pool j k = s.pool j k := rfl

@[simp] theorem State.reg_setPlot (s : State) (p : Nat) (x : Plot) (q : Reg) (j : Nat) : (s.setPlot p x).reg q j = s.reg q j := rfl
@[simp] theorem State.fld_setPlot (s : State) (p : Nat) (x : Plot) (g : Fld) (j : Nat) : (s.setPlot p x).fld g j = s.fld g j := rfl
@[simp] theorem State.bit_setPlot (s : State) (p : Nat) (x : Plot) (g : Fld) (j : Nat) : (s.setPlot p x).bit g j = s.bit g j := rfl
@[simp] theorem State.byteAt_setPlot (s : State) (p : Nat) (x : Plot) (y : Nat) : (s.setPlot p x).byteAt y = s.byteAt y := rfl
@[simp] theorem State.readBytes_setPlot (s : State) (p : Nat) (x : Plot) (y n : Nat) : (s.setPlot p x).readBytes y n = s.readBytes y n := rfl
@[simp] theorem State.readLe_setPlot (s : State) (p : Nat) (x : Plot) (y n : Nat) : (s.setPlot p x).readLe y n = s.readLe y n := rfl
@[simp] theorem State.hostByte_setPlot (s : State) (p : Nat) (x : Plot) (y : Nat) : (s.setPlot p x).hostByte y = s.hostByte y := rfl
@[simp] theorem State.poisoned_setPlot (s : State) (p : Nat) (x : Plot) (y : Nat) : (s.setPlot p x).poisoned y = s.poisoned y := rfl
@[simp] theorem State.cell_setPlot (s : State) (p : Nat) (x : Plot) (j : Nat) : (s.setPlot p x).cell j = s.cell j := rfl
@[simp] theorem State.block_setPlot (s : State) (p : Nat) (x : Plot) (j : Nat) : (s.setPlot p x).block j = s.block j := rfl
@[simp] theorem State.task_setPlot (s : State) (p : Nat) (x : Plot) (j : Nat) : (s.setPlot p x).task j = s.task j := rfl
@[simp] theorem State.stream_setPlot (s : State) (p : Nat) (x : Plot) (j : Nat) : (s.setPlot p x).stream j = s.stream j := rfl
@[simp] theorem State.pool_setPlot (s : State) (p : Nat) (x : Plot) (j k : Nat) : (s.setPlot p x).pool j k = s.pool j k := rfl

end Sys2Proof.Machine
end

