-- ==== Sys2Proof/Laws/Issue.lean ====
section
/-!
SUPPORT. What the issue of an instruction does, once for every instruction: an instruction that issues takes its own effect and enters
flight, and one that R63 holds back changes nothing.
-/

namespace Sys2Proof.Machine
open Sys2Proof

@[simp] theorem State.cell_setCell_same (s : State) (c : Nat) (x : Cell) (h : Sparse.wf (fun _ => Cell.empty) s.cells = true) :
    (s.setCell c x).cell c = x := Sparse.get_set_same _ _ _ _ h

theorem State.cell_setCell_other (s : State) {c d : Nat} (x : Cell) (h : d ≠ c) : (s.setCell c x).cell d = s.cell d :=
  Sparse.get_set_other _ _ _ h

/-- A flight list whose head still owes something retires nothing. -/
theorem retireFrom_settled (tile : Nat → Nat) (l : List InFlight) (x : Cell) (h : (l.head?.all fun f => f.due || f.merging) = true) :
    retireFrom tile l x = { x with inflight := l } := by
  cases l with
  | nil => rfl
  | cons f fs => simp [Option.all] at h; simp [retireFrom, h]

/-- What R63 holds back changes nothing. -/
theorem State.issue_held (s : State) (c : Nat) (w : W128) (e : Ecc) (p : IssuePlan) (eff : State → State × BitVec 4)
    (h : s.canIssue c w = false ∨ (s.cell c).conflicts p = true) : s.issue c w e p eff = s := by
  unfold State.issue
  rcases h with h | h <;> simp [h]

/-- An instruction that is free to issue without a fault takes its own effect and enters flight. -/
theorem State.issue_free (s : State) (c : Nat) (w : W128) (p : IssuePlan) (eff : State → State × BitVec 4)
    (h : s.canIssue c w = true) (hc : (s.cell c).conflicts p = false) (hf : s.issueFault c w .clean p = none) :
    s.issue c w .clean p eff =
      ((((eff s).1.setCell c { (eff s).1.cell c with
          next := ((eff s).1.cell c).next + 1
          inflight := ((eff s).1.cell c).inflight ++
            [⟨((eff s).1.cell c).next, p.exUnit, p.dst, p.slotDst ++ p.hold, fusedOf w, p.due, p.merging, p.release,
              (eff s).2⟩]
          held := ((eff s).1.cell c).held + s.heldBy c p }).setFld Fld.CEL_STATE_STATE c csRunning).retire c) := by
  simp [State.issue, h, hc, hf]

end Sys2Proof.Machine
end

