-- ==== Sys2Proof/Laws/Store.lean ====
section
/-!
SUPPORT. The configuration store: HUB_CONFIG_REF is no word of it (R436), so a write of the reference leaves the store and its CRC alone.
-/

namespace Sys2Proof.Machine
open Sys2Proof

/-- A write of the reference leaves every register instance but HUB_CONFIG_REF alone. -/
theorem State.reg_setRef (s : State) (v : W32) {q : Reg} {j : Nat} (hj : j < q.count) (h : q ≠ .HUB_CONFIG_REF) :
    (s.setReg .HUB_CONFIG_REF 0 v).reg q j = s.reg q j :=
  s.reg_setReg_other v (by decide) hj fun e => h e.1

theorem State.fld_setRef (s : State) (v : W32) {f : Fld} {j : Nat} (hj : j < f.reg.count) (h : f.reg ≠ .HUB_CONFIG_REF) :
    (s.setReg .HUB_CONFIG_REF 0 v).fld f j = s.fld f j := by
  unfold State.fld; rw [s.reg_setRef v hj h]

/-- Two searches agree where their tests agree on the list. -/
theorem find?_same {α : Type} {l : List α} {p q : α → Bool} (h : ∀ x, x ∈ l → p x = q x) : l.find? p = l.find? q := by
  induction l with
  | nil => rfl
  | cons a l ih => simp only [List.find?_cons, h a (by simp), ih fun x hx => h x (by simp [hx])]

theorem State.ownerOfBlock_setRef (s : State) (v : W32) (b : Nat) :
    (s.setReg .HUB_CONFIG_REF 0 v).ownerOfBlock b = s.ownerOfBlock b :=
  find?_same fun p hp => by rw [s.fld_setRef v (f := Fld.PLT_BLOCKS_BLOCKS) (List.mem_range.mp hp) (by decide)]

theorem State.plotRecord_setRef (s : State) (v : W32) (q : Plot) {p : Nat} (hp : p < 8) :
    (s.setReg .HUB_CONFIG_REF 0 v).plotRecord p q = s.plotRecord p q := by
  unfold State.plotRecord
  simp only [s.fld_setRef v (f := Fld.PLT_STATE_COMPAT) (j := p) hp (by decide), s.reg_setRef v (q := .PLT_BLOCKS) (j := p) hp (by decide),
    s.reg_setRef v (q := .KVM_POLICY) (j := p) hp (by decide), s.reg_setRef v (q := .KVM_DECAY) (j := p) hp (by decide),
    s.reg_setRef v (q := .ADM_BUDGET_MEM) (j := p) hp (by decide), s.reg_setRef v (q := .ADM_BUDGET_NET) (j := p) hp (by decide),
    s.reg_setRef v (q := .LNK_PLOT_WEIGHT) (j := p) hp (by decide)]

theorem ite_same {α : Type} {p : Prop} [Decidable p] {a b c d : α} (h : p → a = c) (h' : ¬p → b = d) :
    (if p then a else b) = if p then c else d := by
  by_cases e : p
  · rw [if_pos e, if_pos e, h e]
  · rw [if_neg e, if_neg e, h' e]

/-- The reference is no word of the store. -/
theorem State.cleanWord_setRef (s : State) (v : W32) (w : Nat) : (s.setReg .HUB_CONFIG_REF 0 v).cleanWord w = s.cleanWord w := by
  unfold State.cleanWord
  refine ite_same (fun _ => ?_) fun _ => ite_same (fun _ => ?_) fun _ => ite_same (fun _ => ?_) fun _ => ite_same (fun _ => ?_) fun _ =>
    ite_same (fun _ => ?_) fun _ => ite_same (fun _ => rfl) fun _ => ite_same (fun _ => rfl) fun _ => ite_same (fun _ => rfl) fun _ =>
    ite_same (fun _ => ?_) fun _ => ite_same (fun _ => ?_) fun _ => ite_same (fun _ => ?_) fun _ => ite_same (fun _ => rfl) fun _ =>
    ite_same (fun _ => rfl) fun _ => ite_same (fun _ => rfl) fun _ => ite_same (fun _ => rfl) fun _ => ite_same (fun _ => ?_) fun _ => rfl
  · simp only [s.fld_setRef v (f := Fld.SDL_STATUS_GUARD) (j := 0) (by decide) (by decide)]
  · simp only [s.fld_setRef v (f := Fld.ADM_POLICY_DROOP_MARGIN) (j := 0) (by decide) (by decide),
      s.fld_setRef v (f := Fld.ADM_POLICY_POWER_RESERVE) (j := 0) (by decide) (by decide)]
  · have h : w - 2 < Fld.PWR_REGION_CAP_CAP.reg.count := by show w - 2 < 4; omega
    simp only [s.fld_setRef v h (by decide)]
  · have h : w - 6 < Fld.FLD_CONTROL_MODE.reg.count := by show w - 6 < 2; omega
    simp only [s.fld_setRef v (f := Fld.FLD_CONTROL_MODE) h (by decide), s.fld_setRef v (f := Fld.FLD_CONTROL_DISABLE) h (by decide)]
  · have h : w - 8 < Fld.LNK_CONTROL_DISABLE.reg.count := by show w - 8 < 6; omega
    simp only [s.fld_setRef v h (by decide)]
  · have h : (w - 0x40) / 32 < 8 := by omega
    show (match s.plot ((w - 0x40) / 32) with | some q => _ | none => 0) = _
    cases s.plot ((w - 0x40) / 32) with
    | none => rfl
    | some q => simp only [s.plotRecord_setRef v q h]
  · have h : (w - 0x140) / 8 < 8 := by omega
    simp only [s.fld_setRef v (f := Fld.PLT_STATE_COMPAT) (j := (w - 0x140) / 8) h (by decide),
      s.reg_setRef v (q := .PLT_BLOCKS) (j := (w - 0x140) / 8) h (by decide),
      s.reg_setRef v (q := .KVM_POLICY) (j := (w - 0x140) / 8) h (by decide),
      s.reg_setRef v (q := .KVM_DECAY) (j := (w - 0x140) / 8) h (by decide),
      s.reg_setRef v (q := .ADM_BUDGET_MEM) (j := (w - 0x140) / 8) h (by decide),
      s.reg_setRef v (q := .ADM_BUDGET_NET) (j := (w - 0x140) / 8) h (by decide),
      s.reg_setRef v (q := .LNK_PLOT_WEIGHT) (j := (w - 0x140) / 8) h (by decide)]
  · refine congrArg leNat (List.map_congr_left fun i hi => ?_)
    have hi : i < 4 := by simpa using hi
    have h : 4 * (w - 0x180) + i < Fld.SFU_MODE_COMPAT.reg.count := by show 4 * (w - 0x180) + i < 32; omega
    simp only [s.ownerOfBlock_setRef v, s.fld_setRef v (f := Fld.SFU_MODE_COMPAT) h (by decide)]
  · have h : w - 0x800 < Reg.count .MEM_COLD_SEG := by show w - 0x800 < 2048; omega
    simp only [s.reg_setRef v h (by decide)]

theorem State.storeWord_setRef (s : State) (v : W32) (w : Nat) : (s.setReg .HUB_CONFIG_REF 0 v).storeWord w = s.storeWord w := by
  unfold State.storeWord; rw [s.cleanWord_setRef v w]; rfl

/-- A write of the reference leaves the CRC of the store alone. -/
theorem State.storeCrc_setRef (s : State) (v : W32) : (s.setReg .HUB_CONFIG_REF 0 v).storeCrc = s.storeCrc := by
  unfold State.storeCrc State.storeBytes64
  simp only [s.storeWord_setRef v]

end Sys2Proof.Machine
end

