-- ==== Sys2Proof/WellFormed.lean ====
section
/-!
DEFINITION. Well-formed commands: every operand fits the field, the array or the count that the manual gives it. A command that is not
well formed is one that no sender of the manual can form; every operand that a sender can form, reserved values and stale names
included, is well formed. Numbers that the model gives to decisions, batches, operations and moves are not bounded.
-/

namespace Sys2Proof.Machine
open Sys2Proof

/-- Whether a number fits a field of `w` bits. -/
def fits (w n : Nat) : Bool := decide (n < 2 ^ w)

/-- An error lies at a local address (R251). -/
def Ecc.wf : Ecc → Bool
  | .clean => true
  | .corrected => true
  | .uncorrectable off => fits 48 off

/-- Arrays at scratchpad offsets in a 32-bit register field (R39, R63). -/
def TensorRef.wf (t : TensorRef) : Bool := fits 32 t.elems && t.scales.all (fits 32)

def VecSrc.wf : VecSrc → Bool
  | .spad off => fits 32 off
  | .tile slot => fits 8 slot

/-- Operands of MMA; 256 accumulator slots (R61). -/
def MmaOps.wf (o : MmaOps) : Bool :=
  o.a.wf && o.b.wf && fits 16 o.rows && fits 16 o.cols && fits 16 o.k && fits 8 o.slot && o.dst.all (fits 32)

def VopOps.wf (o : VopOps) : Bool :=
  fits 16 o.n && o.x.wf && o.y.wf && o.z.all VecSrc.wf && fits 32 o.dst && o.release.all (fits 8)

def CvtOps.wf (o : CvtOps) : Bool := fits 16 o.n && o.src.wf && o.dst.wf

/-- A word of a table image (R97), a lane (R80). -/
def TableOutcome.wf : TableOutcome → Bool
  | .clean => true
  | .corrected w | .uncorrectable w => fits 16 w
  | .laneFault l => decide (l < 128)

/-- A head map holds one, two or four consecutive heads of a layer, no query row of another head, and key ranges for each head (R73). -/
def HeadMap.wf (h : HeadMap) : Bool :=
  let mine := fun (k : Nat) => decide (h.first ≤ k) && decide (k < h.first + h.heads)
  decide (h.cell < 512) && (h.heads == 1 || h.heads == 2 || h.heads == 4) &&
  h.rows.all (fun r => mine r.head && decide (1 ≤ r.dim) && decide (r.dim ≤ 256)) &&
  h.keys.all (fun k => mine k.head && decide (k.first ≤ k.last) && fits 32 k.last) &&
  (List.range h.heads).all fun i => h.keys.any fun k => k.head == h.first + i

/-- A task's cells exist and its addresses are local addresses (R251, R282). -/
def TaskBody.wf (b : TaskBody) : Bool :=
  b.programs.all (fun e => decide (e.1 < 512)) && b.heads.all HeadMap.wf && b.streams.all (fits 48) &&
  b.walk.all (fun i => decide (i < b.streams.length)) && b.group.all (fits 48)

/-- A CRC-32C (R99). -/
def SfuTest.wf (t : SfuTest) : Bool := fits 32 t.crc

def MoveEvent.wf : MoveEvent → Bool
  | .clean => true
  | .corrected m n => fits 32 m && fits 32 n
  | .hostError => true
  | .uncorrectable off => fits 64 off
  | .rmw off => fits 64 off

def ScrubFind.wf (f : ScrubFind) : Bool := fits 48 f.addr

/-- Fields of the synchronisation flit, ticks in 1/64 with their 6-bit phases (R274). -/
def SyncFlit.wf (f : SyncFlit) : Bool :=
  fits 8 f.flags && fits 16 f.seqNo && fits 16 f.root && fits 8 f.depth && fits 70 f.t1 && fits 70 f.t2 && fits 70 f.t3

/-- The sender of a hosting message: a chip number, a plot number, the header's TAG and GENERATION (R302). -/
def HostMsg.wf (m : HostMsg) : Bool := fits 16 m.chip && fits 8 m.plot && fits 32 m.tag && fits 16 m.gen

def HostReply.wf : HostReply → Bool
  | .handle h => fits 64 h
  | .frame _ _ e => fits 32 e
  | .sealed => true
  | .refused => true

def WalkRow.wf (r : WalkRow) : Bool := fits 32 r.pos

/-- Fields of a recall section and entry (R218). -/
def RecallItem.wf (r : RecallItem) : Bool :=
  fits 8 r.layer && fits 8 r.group && fits 8 r.tile && fits 32 r.first && fits 16 r.member && fits 64 r.mask

/-- Arguments of WALK (R137). -/
def WalkArgs.wf (a : WalkArgs) : Bool :=
  fits 64 a.deadline && fits 8 a.layerFirst && fits 8 a.layerCount && fits 16 a.groups

/-- Fields of the message header, with at most 65,536 data bytes (R302). -/
def InMsg.wf (m : InMsg) : Bool :=
  fits 16 m.src && fits 16 m.dest && fits 8 m.vc && fits 8 m.plot && fits 32 m.epoch && fits 16 m.gen && fits 32 m.tag &&
  fits 32 m.op && fits 64 m.addr && fits 64 m.reply && fits 32 m.len && decide (m.data.length ≤ 65536)

/-- Fields of the discovery record (R307). -/
def Partner.wf (q : Partner) : Bool :=
  fits 8 q.axis && fits 8 q.port && fits 64 q.serial && fits 16 q.chip && fits 32 q.config && fits 8 q.major && fits 8 q.minor

/-- Sequence numbers of 24 bits, a lane mask of 16 lanes (R299, R301). -/
def LinkCtl.wf : LinkCtl → Bool
  | .ack next _ => fits 24 next
  | .nak expected => fits 24 expected
  | .width failed => fits 16 failed
  | .bad => true

def ChunkEvent.wf : ChunkEvent → Bool
  | .clean => true
  | .adder => true
  | .parity => true
  | .uncorrectable off => fits 48 off

/-- Fields of the transport header, and of the message behind it (R342, R343). -/
def DataDgram.wf (d : DataDgram) : Bool := fits 16 d.epoch && fits 32 d.psn && fits 8 d.typ && d.m.wf

def AckDgram.wf (d : AckDgram) : Bool := fits 16 d.epoch && fits 32 d.cum && fits 32 d.highest && fits 64 d.sack

/-- A PTP domain of 8 bits, a clock identity of 64 (R354). -/
def PtpSync.wf (f : PtpSync) : Bool := fits 8 f.domain && fits 64 f.master

def SfuRun.wf (r : SfuRun) : Bool := decide (r.block < 32) && r.t1.wf && r.t2.wf

/-- Group numbers and plots in range, chip numbers of 16 bits, 2 to 16 sites or none (R321). -/
def SeedGroup.wf (g : SeedGroup) : Bool :=
  decide (g.number < 256) && decide (g.plot < 8) && g.members.all (fits 16) && fits 16 g.self && decide (g.site < 16) &&
  decide (g.sites.length ≤ 16)

def SeedPort.wf (q : SeedPort) : Bool := fits 4 q.mode && fits 128 q.addr6 && fits 48 q.mac && fits 16 q.udp

/-- The minimal section's copies of 4 KiB, and what the other sections hold (R378 to R380). -/
def SeedbedImage.wf (g : SeedbedImage) : Bool :=
  decide (g.copy0.length ≤ 4096) && decide (g.copy1.length ≤ 4096) && decide (g.main.length ≤ 2 ^ 26) && fits 32 g.guard &&
  fits 32 g.droop && fits 32 g.reserve && g.caps.all (fits 32) && fits 16 g.root && fits 8 g.rack && g.sync.all (fits 32) &&
  g.hall.all (fits 16) && g.groups.all SeedGroup.wf && g.ports.all SeedPort.wf && decide (g.ptpPort < 2) && fits 8 g.ptpDomain

/-- Units that exist (R405). -/
def ResetRun.wf (o : ResetRun) : Bool := o.loads.all SfuRun.wf && fits 4 o.kat && fits 4 o.copies && o.bad.all fun c => decide (c < 512)

/-- Powers that the power registers can show (R459). -/
def PowerSample.wf (p : PowerSample) : Bool :=
  fits 32 p.now && fits 32 p.avg100 && fits 32 p.avg1000 && fits 32 p.chip && fits 32 p.chip100 && fits 32 p.chip1000

/-- One of the 16,384 words of the configuration store (R437). -/
def WordFlip.wf (f : WordFlip) : Bool := fits 14 f.word && fits 32 f.bits

end Sys2Proof.Machine

namespace Sys2Proof
open Sys2Proof.Machine

/-- Whether a command is well formed. -/
def Instr.wf (i : Instr) : Bool :=
  match i with
  | .mma _ _ o e => o.wf && e.wf
  | .ats _ _ e => e.wf
  | .maskTileFetch _ e => e.wf
  | .atv _ _ e => e.wf
  | .vop _ _ o e => o.wf && e.wf
  | .cvt _ _ o e => o.wf && e.wf
  | .rowoutPartial _ _ e => e.wf
  | .rowoutFinalSlots _ _ e => e.wf
  | .rowoutFinalScratchpad _ _ e => e.wf
  | .rowoutMerge _ _ e => e.wf
  | .blockMerge _ e => e.wf
  | .sfn _ _ e => e.wf
  | .sqacc _ _ e => e.wf
  | .rmsr _ _ e => e.wf
  | .mul3 _ _ e => e.wf
  | .sfnVectorGrant _ t => t.wf
  | .checkLaneMismatch _ lane => decide (lane < 128)
  | .cellLoop _ _ count target => fits 32 count && fits 32 target
  | .cellJump _ _ target => fits 32 target
  | .sfuLoadTest _ t1 t2 => t1.wf && t2.wf
  | .walk _ rows => fits 16 rows
  | .peerWalk m _ n a rows recalls => m.wf && fits 16 n && a.wf && rows.all WalkRow.wf && recalls.all RecallItem.wf
  | .hostAlloc m _ seqNo order epoch => m.wf && fits 16 seqNo && fits 8 order && fits 32 epoch
  | .hostSeal m handle count crc => m.wf && fits 64 handle && fits 32 count && fits 32 crc
  | .hostQuery m handle => m.wf && fits 64 handle
  | .hostFree m handle => m.wf && fits 64 handle
  | .stepHeader m => m.wf
  | .queryPiece m => m.wf
  | .partialPiece m => m.wf
  | .peerCommit lead _ n pos count generation data =>
    lead.wf && fits 16 n && fits 32 pos && fits 32 count && fits 32 generation && decide (data.length ≤ 65536)
  | .ringTimeout _ layer group => fits 8 layer && fits 8 group
  | .compaction _ list => fits 32 list
  | .versionRelease _ list => fits 32 list
  | .chunk _ e => e.wf
  | .shardedBatch m => m.wf
  | .moveBytes _ e => e.wf
  | .trail _ header e => decide (header.length ≤ 128) && e.wf
  | .scrubPassEnd _ found => found.all ScrubFind.wf
  | .syncFlit _ f => f.wf
  | .admissionRequest _ body => body.wf
  | .dataFlit _ seqNo vc _ _ _ => fits 24 seqNo && fits 3 vc
  | .linkControlFlit _ c => c.wf
  | .laneFailure _ lane => decide (lane < 16)
  | .trainingComplete _ failed _ => fits 16 failed
  | .retrainEnd _ _ failed => fits 16 failed
  | .discoveryRecord _ q => q.wf
  | .switchRecord _ plane rack port => fits 8 plane && fits 8 rack && fits 8 port
  | .fabricWrite m e => m.wf && e.wf
  | .readRequest m e => m.wf && e.wf
  | .readReply m => m.wf
  | .collectivePiece m => m.wf
  | .creditReturn m => m.wf
  | .readyNotice m => m.wf
  | .frost m => m.wf
  | .afithData _ d => d.wf
  | .afithAck _ d => d.wf
  | .openConn _ _ _ major epoch => fits 8 major && fits 16 epoch
  | .openAck _ _ _ epoch => fits 16 epoch
  | .afithReset _ _ _ epoch => fits 16 epoch
  | .retransmitTimeout _ psn => fits 32 psn
  | .ptpSync _ f => f.wf
  | .plotShrink loads => loads.all SfuRun.wf
  | .plotDestroy loads => loads.all SfuRun.wf
  | .powerOn straps pass => fits 16 straps && fits 4 pass
  | .perstRelease straps pass => fits 16 straps && fits 4 pass
  | .bootRestart _ pass => fits 4 pass
  | .seedbedReadDone img => img.wf
  | .memoryTrainingDone failed stackBits loads => fits 4 failed && fits 16 stackBits && loads.all SfuRun.wf
  | .domainReset o => o.wf
  | .replay _ fault => fault.all (fits 8)
  | .replayGuilty o => o.wf
  | .perfCounterRead _ n _ => fits 18 n
  | .registerWrite _ _ off _ => fits 27 off
  | .aliasWrite _ _ off _ => fits 27 off
  | .rcRead _ _ off => fits 27 off
  | .w1lWrite _ off _ => fits 27 off
  | .fallowExit _ loads kat => loads.all SfuRun.wf && fits 4 kat
  | .governorSample _ p => p.wf
  | .droopLevel _ level => decide (level ≤ 3)
  | .sensorRead temps => decide (temps.length ≤ 36)
  | .hardwareTrip temp => fits 8 temp
  | .managementBusRead off => fits 16 off
  | .hostingReply _ gen r => fits 16 gen && r.wf
  | .pllRelock o => o.wf
  | .pcieTrained gen lanes => fits 4 gen && decide (lanes ≤ 16)
  | .configScanStart flips => flips.all WordFlip.wf
  | .railExcursion rail _ => decide (rail < 16)
  | .sfnResult _ => true
  | .waitSem _ _ => true
  | .postSem _ _ => true
  | .cellEnd _ _ => true
  | .residueCheckReport _ _ _ => true
  | .drainAck _ => true
  | .transferTile _ => true
  | .quantumMet _ => true
  | .chainTile _ => true
  | .sfuModeTest _ _ => true
  | .sfuModeCompat _ _ _ => true
  | .sfuLoad _ => true
  | .sfuUnload _ => true
  | .trayFill _ => true
  | .trayAccept _ => true
  | .trayDiscard _ => true
  | .trayCommit _ => true
  | .dibberDone _ n tail => fits 16 n && tail.all HostMsg.wf
  | .dibberRolledBack _ n tail => fits 16 n && tail.all fun r => HostMsg.wf r.1 && fits 8 r.2
  | .kvmDoorbell _ _ _ => true
  | .seqCreate _ => true
  | .seqDestroy _ => true
  | .append _ => true
  | .globalAdd _ => true
  | .prefetch _ => true
  | .pin _ => true
  | .copyPrefix _ => true
  | .bufAlloc _ => true
  | .bufFree _ => true
  | .migrate _ => true
  | .bucket _ => true
  | .commitPoint _ n => fits 16 n
  | .signatureAppend _ => true
  | .pressureHandling _ _ => true
  | .convertToCutting _ _ => true
  | .hostReplyTimeout _ => true
  | .pageMoveCommit _ => true
  | .sourceFree => true
  | .orphanReclaim => true
  | .hopLaunch _ => true
  | .ringBufferRelease _ => true
  | .idxCreate _ => true
  | .idxDestroy _ => true
  | .idxStage _ => true
  | .idxSwap _ => true
  | .indexSwap _ => true
  | .insertEntry _ => true
  | .deleteEntry _ => true
  | .compact _ => true
  | .queryBatch _ => true
  | .snapshotWait _ => true
  | .resultWrite _ _ => true
  | .knownAnswerTest _ _ => true
  | .progLoop _ => true
  | .nextLoop _ => true
  | .seta _ => true
  | .adda _ => true
  | .zeroBytes _ => true
  | .flush _ => true
  | .idx _ => true
  | .page _ e => e.wf
  | .progEnd _ => true
  | .tileComplete _ => true
  | .persistentRun _ e => e.wf
  | .backgroundPromotion _ => true
  | .slotMeter => true
  | .eccReport => true
  | .scrubPassStart _ => true
  | .scrubPromote _ => true
  | .memColdSegWrite _ _ _ => true
  | .syncExchange _ => true
  | .sundialJoin _ => true
  | .exchangeMiss _ => true
  | .linkDormant _ => true
  | .sdlTimeLowRead _ => true
  | .sundialEvent => true
  | .deferredEvent _ => true
  | .schedWrite _ => true
  | .admDoorbell _ _ _ => true
  | .streamCheckEnd _ => true
  | .taskStart _ => true
  | .taskEnd _ => true
  | .deadlineAbort _ => true
  | .throttleChange _ => true
  | .capacityLoss => true
  | .replayTimeout _ => true
  | .discoverySend _ => true
  | .discoverySilence _ => true
  | .lnkRelease _ _ => true
  | .lnkRetrain _ _ => true
  | .lnkDisable _ _ _ => true
  | .chainArm _ => true
  | .chainRelease _ => true
  | .opAbort _ => true
  | .colTrigger _ _ _ => true
  | .opFire _ => true
  | .ringChunk _ _ _ _ e => e.wf
  | .opComplete _ e => e.wf
  | .collectiveTimeout _ _ => true
  | .errorReport _ => true
  | .neighborSolicitation _ _ => true
  | .ackTimer _ => true
  | .openRetry _ => true
  | .giveUp _ => true
  | .fldSend _ => true
  | .pcsAlignmentLoss _ => true
  | .fldRetrain _ _ => true
  | .fldDisable _ _ _ => true
  | .ptpLockLoss => true
  | .plotCreate => true
  | .plotSet => true
  | .plotGrow => true
  | .plotStop => true
  | .plotStart => true
  | .plotResize => true
  | .groupSet => true
  | .pwrSeqOkFall => true
  | .perstAssert => true
  | .bootGo _ => true
  | .imageVerified => true
  | .nvmOwnFall => true
  | .nvmOwnRise => true
  | .nvmWaitExpiry => true
  | .firmwareEntry _ => true
  | .bootSundialHigh _ _ => true
  | .safeReset _ _ => true
  | .releaseChip _ => true
  | .releaseRegion _ _ => true
  | .heartbeat => true
  | .watchOverdue => true
  | .coolingEnd => true
  | .lockstepMismatch _ => true
  | .pllLoss _ => true
  | .pcieRefclkLoss => true
  | .logRead _ => true
  | .harvestRead => true
  | .privLockDrop _ => true
  | .configScanPass => true
  | .mboxGo _ => true
  | .pwrRegionCapWrite _ _ _ => true
  | .fallowEnter _ => true
  | .fallowGating => true
  | .excursionSpent => true
  | .droopThrottleEnd => true
  | .fieldPortUp _ => true
  | .remoteTimeout _ => true
  | .pcieRefclkReturn => true
  | .sundialBeat => true

end Sys2Proof
end

