-- ==== Sys2Proof/Tests/Slice0.lean ====
section
/-!
SUPPORT. The model's own tests: ill-formed commands that the check refuses, a state for every kind of hypothesis of the statements, and
single steps whose results are worked from the manual.
-/

namespace Sys2Proof.Tests
set_option Elab.async false
open Sys2Proof Sys2Proof.Machine

/-! ### Helpers -/

/-- The state after reset with a register at a value. -/
def regs (l : List (Reg × Nat × Nat)) : State := l.foldl (fun s e => s.setReg e.1 e.2.1 (BitVec.ofNat 32 e.2.2)) State.reset

/-- A cell that runs task 1 with one word next. -/
def running (w : W128) : Cell := { Cell.empty with task := some 1, ibuf := [w] }

/-- A state with cell 0 as given. -/
def withCell (x : Cell) : State := State.reset.setCell 0 x

/-- Bytes put into cell 0's scratchpad. -/
def spad (s : State) (off n v : Nat) : State := s.writeLe (spadBase 0 + off) n v

/-! ### Cells -/

def t8 (off : Nat) : TensorRef := ⟨.e4m3, off, none⟩
def mmaOps : MmaOps := ⟨t8 0, t8 0x1000, 2, 2, 32, 0, none, false⟩
def vopOps : VopOps := ⟨2, .spad 0, .spad 64, some (.spad 128), 256, none⟩
def cvtOps : CvtOps := ⟨32, ⟨.fp32, 0, none⟩, ⟨.e4m3, 0x1000, some 0x2000⟩⟩

/-- A word whose opcode is `x` and whose other bits are `rest`: the opcodes of R64's first six classes are open (notes/assumptions/13). -/
def word (rest : Nat) (x : Fin 256) : W128 := BitVec.ofNat 128 (x.val * 2 ^ 88 + rest)
def code (k : Nat) : Fin 256 := (Config.opcode k).toFin

theorem opcodeOf_word : ∀ x, opcodeOf (word 0 x) = x.val := by decide +kernel
theorem not_reserved (k : Nat) (hk : k < 6) : reservedOpcode (opcodeOf (word 0 (code k))) = false := by
  have h : opcodeOf (word 0 (code k)) = opcodeFor k := opcodeOf_word _
  have : ((List.range 6).all fun j => opcodeOf (word 0 (code k)) != opcodeFor j) = false :=
    List.all_eq_false.mpr ⟨k, List.mem_range.mpr hk, by simp [h]⟩
  simp [reservedOpcode, this]
theorem plan_unreserved (p : IssuePlan) (h : p.reserved = false) : { p with reserved := false } = p := by
  cases p; simp_all

theorem mma_free : ∀ x, let w := word 0 x; let s := withCell (running w)
    s.canonical = true ∧ Issues s 0 w { mmaPlan w mmaOps with reserved := false } ∧ (s.cell 0).tileUsable 0 false = true := by
  unfold Issues; decide +kernel
theorem vop_free : ∀ x, let w := word 0 x; Issues (withCell (running w)) 0 w { vopPlan w vopOps with reserved := false } := by
  unfold Issues; decide +kernel
theorem cvt_free : ∀ x, let w := word 0 x; Issues (withCell (running w)) 0 w { cvtPlan w cvtOps with reserved := false } := by
  unfold Issues; decide +kernel
theorem test_wit_mma : let w := word 0 (code 0); let s := withCell (running w)
    s.canonical = true ∧ opcodeOf w = opcodeFor 0 ∧ Issues s 0 w (mmaPlan w mmaOps) ∧ (s.cell 0).tileUsable 0 false = true := by
  have h := mma_free (code 0)
  have e := plan_unreserved (mmaPlan (word 0 (code 0)) mmaOps) (by simp only [mmaPlan, not_reserved 0 (by decide)]; decide +kernel)
  exact ⟨h.1, opcodeOf_word _, e ▸ h.2.1, h.2.2⟩
theorem test_wit_vop : let w := word 0 (code 1); opcodeOf w = opcodeFor 1 ∧ Issues (withCell (running w)) 0 w (vopPlan w vopOps) := by
  have h := vop_free (code 1)
  have e := plan_unreserved (vopPlan (word 0 (code 1)) vopOps) (by simp only [vopPlan, not_reserved 1 (by decide)]; decide +kernel)
  exact ⟨opcodeOf_word _, e ▸ h⟩
theorem test_wit_cvt : let w := word 0 (code 2); opcodeOf w = opcodeFor 2 ∧ Issues (withCell (running w)) 0 w (cvtPlan w cvtOps) := by
  have h := cvt_free (code 2)
  have e := plan_unreserved (cvtPlan (word 0 (code 2)) cvtOps) (by simp only [cvtPlan, not_reserved 2 (by decide)]; decide +kernel)
  exact ⟨opcodeOf_word _, e ▸ h⟩

/-- An attention descriptor at 0x4000: E4M3, dimension 64, one row in slot 0, scores at 0x8000 with stride 256. -/
def attTask (w : W128) (mset : Nat) (open' : Bool) : State :=
  let x := { running w with slots := if open' then [(0, ⟨[], 0, some 0x4000, 64⟩)] else [] }
  let s := spad (withCell x) (0x4000 + 14) 2 mset
  let s := spad (spad s (0x4000 + 16) 4 0x8000) (0x4000 + 20) 4 256
  let s := spad (spad s (0x4000 + 24) 4 0x10000) (0x4000 + 28) 4 0x11000
  spad (spad (spad s (0x4000 + 44) 4 0x12000) (0x4000 + 48) 4 0xFFFFFFFF) (0x4000 + 56) 2 1

def atsBits (bitmap : Nat) : W128 :=
  BitVec.ofNat 128 (0x20 * 2 ^ 88 + 63 * 2 ^ 76 + 0x1000 / 64 * 2 ^ 46 + 0x8000 / 64 * 2 ^ 31 + 0x4000 / 64 * 2 ^ 16 + bitmap * 2 ^ 15)
def atvBits : W128 := BitVec.ofNat 128 (0x21 * 2 ^ 88 + 31 * 2 ^ 73 + 0x8000 / 64 * 2 ^ 56 + 0x1000 / 64 * 2 ^ 41 + 0x4000 / 64 * 2 ^ 26)
def rowoutBits (mode src : Nat) : W128 :=
  BitVec.ofNat 128 (0x22 * 2 ^ 88 + mode * 2 ^ 86 + src / 64 * 2 ^ 55 + 0x3000 / 64 * 2 ^ 40 + 0x4000 / 64 * 2 ^ 25)

theorem test_wit_ats : let s := attTask (atsBits 0) 0 false
    s.canonical = true ∧ opcodeOf (atsBits 0) = 0x20 ∧ atsWaits s 0 (atsBits 0) = false ∧ (atsWord (atsBits 0)).bitmap = false ∧
      Issues s 0 (atsBits 0) (atsPlan s 0 (atsBits 0)) := by unfold Issues; decide +kernel
theorem test_wit_atv : let s := attTask atvBits 0 true
    s.canonical = true ∧ opcodeOf atvBits = 0x21 ∧ Issues s 0 atvBits (atvPlan s 0 atvBits) := by unfold Issues; decide +kernel
theorem test_wit_rowout_partial : let s := attTask (rowoutBits 0 0) 0 true
    isRowout (rowoutBits 0 0) 0 = true ∧ Issues s 0 (rowoutBits 0 0) (partialPlan s 0 (rowoutBits 0 0)) := by unfold Issues; decide +kernel
theorem test_wit_rowout_final_slots : let s := attTask (rowoutBits 1 0) 0 true
    isRowout (rowoutBits 1 0) 1 = true ∧ Issues s 0 (rowoutBits 1 0) (finalPlan s 0 (rowoutBits 1 0) true) := by unfold Issues; decide +kernel
theorem test_wit_rowout_final_spad : let s := attTask (rowoutBits 2 0x2000) 0 false
    isRowout (rowoutBits 2 0x2000) 2 = true ∧
      Issues s 0 (rowoutBits 2 0x2000) (finalPlan s 0 (rowoutBits 2 0x2000) false) := by unfold Issues; decide +kernel
theorem test_wit_rowout_merge : let s := attTask (rowoutBits 3 0) 3 true
    isRowout (rowoutBits 3 0) 3 = true ∧ Issues s 0 (rowoutBits 3 0) (mergePlan s 0 (rowoutBits 3 0)) := by unfold Issues; decide +kernel

def sfnBits (func aux : Nat) : W128 := BitVec.ofNat 128 (0x30 * 2 ^ 88 + func * 2 ^ 82 + 1 * 2 ^ 68 + 0x1000 * 2 ^ 21 + aux)
def sfnTask (w : W128) : State := spad (withCell { running w with norm := some 0x3F800000 }) 0 4 1

theorem test_wit_sfn : let s := sfnTask (sfnBits 1 0)
    s.canonical = true ∧ sfnWaits s 0 (sfnBits 1 0) = false ∧ opcodeOf (sfnBits 1 0) = 0x30 ∧ (sfnWord (sfnBits 1 0)).func = 1 ∧
      Issues s 0 (sfnBits 1 0) (sfnPlan s 0 (sfnBits 1 0)) := by unfold Issues; decide +kernel
theorem test_wit_sqacc : let s := sfnTask (sfnBits 0x10 5)
    sfnWaits s 0 (sfnBits 0x10 5) = false ∧ (sfnWord (sfnBits 0x10 5)).func = 0x10 ∧
      Issues s 0 (sfnBits 0x10 5) (sfnPlan s 0 (sfnBits 0x10 5)) := by unfold Issues; decide +kernel
theorem test_wit_rmsr : let s := sfnTask (sfnBits 0x11 5)
    sfnWaits s 0 (sfnBits 0x11 5) = false ∧ (sfnWord (sfnBits 0x11 5)).func = 0x11 ∧
      Issues s 0 (sfnBits 0x11 5) (sfnPlan s 0 (sfnBits 0x11 5)) := by unfold Issues; decide +kernel
theorem test_wit_mul3 : let s := sfnTask (sfnBits 0x12 0x2000)
    sfnWaits s 0 (sfnBits 0x12 0x2000) = false ∧ (sfnWord (sfnBits 0x12 0x2000)).func = 0x12 ∧
      Issues s 0 (sfnBits 0x12 0x2000) (sfnPlan s 0 (sfnBits 0x12 0x2000)) := by unfold Issues; decide +kernel

/-- Cell 0 waits for a grant; its unit is ready. -/
def granting : State :=
  ((regs [(.SFU_STATUS, 0, 3)]).setCell 0 { running 0 with sfn := some ⟨0, sfnBits 1 0, 0, false, none⟩ })
def sfnJob : SfnJob := ⟨0, sfnBits 1 0, 0, false, none⟩

theorem test_wit_grant : granting.canonical = true ∧ granting.fld Fld.SFU_STATUS_STATE 0 = 3 ∧
    ((granting.sfuArbiter 0).map fun r => r.1) = some 0 ∧ (granting.cell 0).sfn = some sfnJob ∧
    (granting.block 0).deadWord (granting.bit Fld.SFU_STATUS_COMPAT 0) (sfnWord sfnJob.word).func = none ∧
    (granting.block 0).softWords (granting.bit Fld.SFU_STATUS_COMPAT 0) (sfnWord sfnJob.word).func = [] := by decide +kernel
theorem test_wit_result : let v : SfnVec := ⟨0, 0, 3, true, .bytes 64 [1, 2], 0, []⟩
    let s := (withCell (running 0)).setBlock 0 { Block.empty with pipe := [v] }
    s.canonical = true ∧ (s.block 0).pipe.find? (fun v => v.cell == 0 % 16) = some v ∧ (s.cell 0).inReset = false := by decide +kernel
theorem test_wit_mask_tile : let s := attTask (atsBits 1) 0 false
    s.canonical = true ∧ s.memTurnOf 0 = true ∧ (s.maskFor 0).isSome = true := by decide +kernel
theorem test_wit_block_merge : let m : Merge := ⟨0, 1040, 3, 1, 1, 64, 0, 0x4000, [(0, [0]), (1, [0])]⟩
    let s := (withCell (running 0)).setBlock 0 { Block.empty with merges := [m] }
    s.canonical = true ∧ s.memTurnOf 0 = true ∧ s.mergeFor 0 = some m ∧ m.dim = 64 := by decide +kernel

def semBits (op pair empty count : Nat) : W128 := BitVec.ofNat 128 (op * 2 ^ 88 + pair * 2 ^ 83 + empty * 2 ^ 82 + count * 2 ^ 78)
def semPair : SemPair := ⟨8, 2, 3, .stream 0, 1, none, none⟩
def semTask (w : W128) : State := withCell { running w with pairs := [(4, semPair)] }

theorem test_wit_wait : let w := semBits 0x40 4 0 2; let s := semTask w
    s.canonical = true ∧ s.canIssue 0 w = true ∧ (s.cell 0).armedPair (semWord w).pair = some semPair ∧
      (semWord w).bad w = false ∧ opcodeOf w = 0x40 ∧ (semWord w).empty = false ∧ (semWord w).count ≤ 2 := by decide +kernel
theorem test_wit_wait_blocked : let w := semBits 0x40 4 1 4; let s := semTask w
    s.canIssue 0 w = true ∧ (s.cell 0).armedPair (semWord w).pair = some semPair ∧
      (semWord w).bad w = false ∧ opcodeOf w = 0x40 ∧ (semWord w).empty = true ∧ 3 < (semWord w).count := by decide +kernel
theorem test_wit_post : let w := semBits 0x41 4 1 5; let s := semTask w
    s.canIssue 0 w = true ∧ (s.cell 0).armedPair (semWord w).pair = some semPair ∧ (semWord w).bad w = false ∧
      opcodeOf w = 0x41 ∧ s.accessesLeft 0 = false ∧ 3 + (semWord w).count ≤ semPair.depth := by decide +kernel

theorem control_free : ∀ x, let w := word 0 x; let s := withCell (running w)
    s.canonical = true ∧ s.canIssue 0 w = true ∧ fusedKind (fusedOf w) = 0 ∧ fusedReserved (fusedOf w) = 0 ∧
      (Table.get (s.cell 0).loops (s.cell 0).next).getD 2 = 2 ∧ (Table.get (s.cell 0).loops (s.cell 0).next).getD 1 = 1 := by
  decide +kernel
theorem test_wit_loop (k : Nat) (hk : k < 6) : let w := word 0 (code k); let s := withCell (running w)
    s.canIssue 0 w = true ∧ controlReserved w = false ∧ opcodeOf w = opcodeFor k := by
  have h := control_free (code k)
  exact ⟨h.2.1, by simp [controlReserved, not_reserved k hk, h.2.2.1, h.2.2.2.1], opcodeOf_word _⟩
theorem control_kind5 : ∀ x, let w := word (5 * 2 ^ 125) x
    (withCell (running w)).canIssue 0 w = true ∧ opcodeOf w = x.val ∧ fusedKind (fusedOf w) ≠ 0 := by decide +kernel
theorem control_reserved {w : W128} {k : Nat} (e : opcodeOf w = opcodeFor k) (h : fusedKind (fusedOf w) ≠ 0) :
    controlReserved w = true ∧ isClass k w = true := ⟨by simp [controlReserved, h], by simp [isClass, e]⟩
theorem test_wit_loop_reserved (k : Nat) : let w := word (5 * 2 ^ 125) (code k)
    (withCell (running w)).canIssue 0 w = true ∧ controlReserved w = true ∧ isClass k w = true :=
  have h := control_kind5 (code k)
  ⟨h.1, control_reserved h.2.1 h.2.2⟩

def flying (fused : Nat) (u : ExUnit) : InFlight := ⟨0, u, [⟨0x100, 64⟩], [], fused, true, false, [3], 0⟩
theorem test_wit_residue : ∀ lanes : Bool, let f := flying 0 (if lanes then .vector else .matrix)
    let s := withCell { running 0 with inflight := [f] }
    s.canonical = true ∧ (s.cell 0).inflight = [f] ∧ f.due = true ∧ f.exUnit = (if lanes then .vector else .matrix) ∧
      f.merging = false ∧ fusedKind f.fused = 0 ∧ (s.cell 0).task = some 1 := by decide +kernel
theorem test_wit_residue_fused : (flying (2 ^ 29) .vector).dst ≠ [] ∧ fusedKind (flying (2 ^ 29) .vector).fused ≠ 0 := by decide +kernel

def fillOf (bytes : Nat) (load : List (Nat × List Byte)) : Transfer := ⟨.fill, bytes, 65536, none, 0, load, []⟩
def filling (load : List (Nat × List Byte)) : State := withCell { running 0 with ended := true, transfers := [fillOf 100000 load] }
theorem test_wit_transfer : ∀ b : Bool, let l : List (Nat × List Byte) := if b then [(64, [1, 2])] else []; let s := filling l
    s.canonical = true ∧ s.fld Fld.CEL_STATE_HOLDER 0 = 0 ∧ (s.cell 0).nextTransfer = some (fillOf 100000 l) ∧ s.scrubUrgent 0 = false ∧
      s.issueReady 0 = false ∧ s.grantsLeft 0 = false := by decide +kernel
theorem test_wit_quantum : let s := withCell { running 0 with held := 65536, transfers := [fillOf 64 []] }
    s.nextHolder 0 ≠ 0 ∧ s.fld Fld.CEL_STATE_HOLDER 0 = 0 ∧
      max 256 (s.fld Fld.CEL_ISSUE_QUANTUM_QUANTUM 0) ≤ s.heldCycles 0 := by decide +kernel

theorem test_wit_sfu : let s := regs [(.SFU_STATUS, 0, 3)]
    s.canonical = true ∧ s.blockBusy 0 = false ∧ s.fld Fld.SFU_STATUS_STATE 0 ≠ 5 ∧ s.privOk .pf0 = true ∧
      State.reset.fld Fld.SFU_STATUS_STATE 0 ≤ 1 := by decide +kernel
theorem test_wit_check_lane : let v : SfnVec := ⟨0, 0, 3, true, .bytes 64 [1, 2], 0, []⟩
    let s := (withCell (running 0)).setBlock 0 { Block.empty with pipe := [v] }
    (s.cell 0).task.isSome = true ∧ (s.block (blockOfCell 0)).pipe.find? (fun v => v.cell == 0 % 16 && v.seqNo == 24 / 8) = some v := by
  decide +kernel

/-! ### A plot, its rings, its sequence -/

/-- Plot 0: 2 GiB of region 0's bonded DRAM (one of them pool), 4 GiB of its stacks (two of them pool, one offered to peers). -/
def plot0 : Plot where
  dramBase := [0, 0, 0, 0]
  dramSize := [2, 0, 0, 0]
  stackBase := [0, 0, 0, 0]
  stackSize := [4, 0, 0, 0]
  coldFirst := 0
  coldCount := 0
  poolDram := [1, 0, 0, 0]
  poolStack := [2, 0, 0, 0]
  poolHosted := [1, 0, 0, 0]
  kvmOrder := 2
  admOrder := 2
  ctrFirst := 0
  ctrCount := 64
  rings := 0x10000001000
  recv := 0
  cutTab := 0x10000100000
  sigProj := 0x10000200000
  hosts := 0x10000300000
  user := []
  cmdTail := 0
  admTail := 0

/-- A command entry (R137): opcode, SEQ, arguments from byte 8. -/
def entry (op seqNo args : Nat) : Nat := op + seqNo * 2 ^ 16 + 0x77 * 2 ^ 32 + args * 2 ^ 64

/-- Plot 0 is ACTIVE, the manager runs, the ring holds these commands. -/
def kvm (s : State) (cmds : List Nat) : State :=
  let s := (s.setFld Fld.PLT_STATE_STATE 0 1).setFld Fld.KVM_STATUS_STATE 0 1
  let s := { s with plots := [(0, { plot0 with cmdTail := cmds.length })] }
  cmds.zipIdx.foldl (fun s e => s.writeLe (plot0.cmdAddr e.2) 64 e.1) s

/-- Whether the head command of plot 0's ring is taken for the opcode and then meets a condition. -/
def takes (s : State) (op : Nat) (f : Cmd → State → Bool) : Bool :=
  match s.take 0 op with
  | some (c, u) => f c u
  | none => false

def trayAt : Nat := 0x10000010000
def dirAt : Nat := 0x10000020000
def leafAt : Nat := 0x10000021000
def pageAt : Nat := 0x10040000000
def gareaAt : Nat := 0x10000030000

/-- Sequence 1 of plot 0: pages of 64 positions, one layer, one group of one head of dimension 64, FP8; ten positions bound. -/
def seq1 : Seqn where
  base := 0
  maxSlice := 128
  pglog := 6
  layers := 1
  groups := 1
  hpg := 0
  dim := 0
  kfmt := 0
  vfmt := 0
  home := 0
  wlog := 0
  lead := true
  live := false
  gquota := 4
  bound := 10
  dir := dirAt
  tray := some trayAt
  globals := []
  garea := some gareaAt
  mass := none
  commit := none
  lost := false
  busy := 0
  liveIndex := none
  held := []

def page1 : Pte := ⟨true, 0, false, false, false, pageAt, 0, 0, 1, 0, 0⟩

/-- The sequence with its page 0 mapped and its tray in a state. -/
def withSeq (q : Seqn) (tray : Nat) : State :=
  let s := { State.reset with seqs := [(1, q)] }
  let s := (s.writeLe dirAt 8 (2 ^ 63 + leafAt)).writeLe leafAt 32 page1.encode
  (s.writeLe trayAt 2 (tray + 2 * 256)).writeLe (trayAt + 2) 1 1

theorem test_wit_completion : let s := kvm State.reset []
    s.canonical = true ∧ s.plot 0 = some plot0 ∧ lineMemory (plot0.cplAddr (s.ringIx plot0 ringCplTail plot0.kvmOrder)) = true ∧
      lineMemory (plot0.rings + ringCplTail) = true ∧ s.poison = [] ∧ s.serviceRuns = true := by decide +kernel
theorem test_wit_doorbell : let s := kvm State.reset []
    s.plotReach (.vf 0) 0 = true ∧ s.plot 0 = some plot0 ∧ s.ringsOpen 0 = true ∧ 3 < 2 ^ plot0.kvmOrder ∧
      2 ^ plot0.kvmOrder ≤ 4 ∧ 2 ^ plot0.admOrder ≤ 4 := by decide +kernel

/-- A fill record of two nodes. -/
def fillRec : Nat := 2 + (0xFF + 0 * 256) * 2 ^ 128
theorem test_wit_tray_fill : let s := kvm ((withSeq seq1 0).writeLe 0x10000040000 64 fillRec) [entry 0x10 1 0x10000040000]
    takes s 0x10 (fun c u => c.cleanFrom 16 && u.trayState trayAt == 0 && u.inDram 0 (c.arg 8 8) 128 &&
      fillOk (u.loadBytes (c.arg 8 8) 128)) = true := by decide +kernel
theorem test_wit_tables : (withSeq seq1 0).tablePoison seq1 = none ∧ seq1.lost = false ∧ seq1.tray = some trayAt := by decide +kernel
theorem test_wit_tray_fill_refused : takes (kvm (withSeq seq1 1) [entry 0x10 1 0]) 0x10 (fun c u =>
    c.cleanFrom 16 && u.trayState trayAt != 0 && decide (u.seq 0 c.seqNo = some seq1)) = true := by decide +kernel
/-- TRAY_ACCEPT of the path [0]. -/
def acceptCmd : Nat := entry 0x11 1 (1 + (2 ^ 128 - 256) * 2 ^ 64)
theorem test_wit_tray_accept : takes (kvm (withSeq seq1 1) [acceptCmd]) 0x11 (fun c u =>
    c.cleanFrom 32 && c.arg 9 7 == 0 && decide (c.arg 8 1 ≤ 16) && (((List.range 16).drop (c.arg 8 1)).all fun k =>
      c.arg (16 + k) 1 == 0xFF) && u.trayState trayAt == 1 &&
        u.pathOk trayAt ((List.range (c.arg 8 1)).map fun k => c.arg (16 + k) 1)) = true := by decide +kernel
theorem test_wit_tray_accept_refused : takes (kvm (withSeq seq1 2) [acceptCmd]) 0x11 (fun c u =>
    c.cleanFrom 32 && c.arg 9 7 == 0 && u.trayState trayAt != 1) = true := by decide +kernel
theorem test_wit_tray_discard : takes (kvm (withSeq seq1 2) [entry 0x12 1 0]) 0x12 (fun c u =>
    c.cleanFrom 8 && u.trayState trayAt == 2) = true := by decide +kernel
theorem test_wit_tray_discard_refused : takes (kvm (withSeq seq1 3) [entry 0x12 1 0]) 0x12 (fun c u =>
    c.cleanFrom 8 && u.trayState trayAt == 3) = true := by decide +kernel
/-- Whether a commit's pages are mapped. -/
def prepared (r : Prepared) : Bool :=
  match r with
  | .ready _ => true
  | _ => false
theorem test_wit_tray_commit : takes (kvm ((withSeq seq1 2).writeLe (trayAt + 4) 4 10) [entry 0x13 1 0]) 0x13 (fun c u =>
    c.cleanFrom 8 && decide (u.seq 0 c.seqNo = some seq1) && u.trayState trayAt == 2 && u.trayBase trayAt == 10 &&
      decide (seq1.bound < seq1.maxSlice) && (u.firstPoison (trayAt + 4096) (seq1.layers * layerBlock seq1 16)).isNone &&
      prepared (u.prepareCommit 0 1 seq1 10 (u.trayAccept trayAt))) = true := by decide +kernel
/-- Position 10 lies in the slice of chip 4, which a group check has recorded. -/
def tailAway : State := { kvm ((withSeq { seq1 with maxSlice := 10 } 2).writeLe (trayAt + 4) 4 10) [entry 0x13 1 0] with
  groups := [(0, ⟨0, 1, [⟨4, 1, 10, 64, 0⟩], false, none, 0, [], [], 0, none, false, [], []⟩)] }
theorem test_wit_tray_commit_forwarded : takes tailAway 0x13 (fun c u => c.cleanFrom 8 &&
    decide (u.seq 0 c.seqNo = some { seq1 with maxSlice := 10 }) && u.trayState trayAt == 2 && u.trayBase trayAt == 10 &&
      decide (u.tailChip 0 10 = some 4)) = true := by decide +kernel

/-- An allocated buffer of plot 0 at 0x10000050000. -/
def bufFrame : Frame := ⟨5, 0, true, false, 1, 1, 0, 0, 0, 0, 0, 0⟩
def bufAt : Nat := 0x10000050000
def bufHandle : Nat := 5 * 2 ^ 48 + 0x50
def withBuf (s : State) : State := { s with frames := [(bufAt, bufFrame)] }
theorem test_wit_append : takes (kvm (withBuf (withSeq { seq1 with tray := none } 0)) [entry 0x03 1 (bufHandle + 2 * 2 ^ 64)]) 0x03
    (fun c u => c.cleanFrom 20 && decide (u.checkFree 0 (c.arg 8 8) none = .ok) && decide (c.arg 16 4 = 2) &&
      decide (hAddr (c.arg 8 8) = bufAt) && decide (seq1.layers * layerBlock seq1 2 ≤ frameBytes bufFrame.order) &&
      (u.firstPoison bufAt (seq1.layers * layerBlock seq1 2)).isNone && decide (u.seq 0 1 = some { seq1 with tray := none }) &&
      prepared (u.prepareCommit 0 1 { seq1 with tray := none } 10 2)) = true := by decide +kernel

def commit1 : Commit := ⟨none, 10, 1, 1, none, 0, 0, none, false, [], 0, 0, []⟩
def committing (k : Commit) (bound : Nat) : State := withSeq { seq1 with bound := bound, commit := some k } 3
/-- The three commits that may reach their point: from the tray, from a buffer, for a lead. -/
def commits : List Commit := [commit1, { commit1 with handle := some bufHandle }, { commit1 with lead := some 4 }]
theorem test_wit_commit_point : (commits.all fun k => decide ((committing k 10).seq 0 1 = some { seq1 with commit := some k }) &&
    k.tail.isNone && !k.pointed && seq1.bound == k.first && k.acked == k.bytes && (committing k 10).serviceRuns) = true := by decide +kernel
theorem test_wit_dibber_done : let k := { commit1 with pointed := true }
    ((committing k 11).seq 0 1).map (·.tray) = some (some trayAt) ∧ k.handle = none ∧ k.lead = none ∧ k.tail = none := by decide +kernel
theorem test_wit_dibber_done_tail : let k := { commit1 with tail := some 9 }; let m : HostMsg := ⟨9, 0, 1, 0⟩
    ((committing k 11).seq 0 1).map (·.tray) = some (some trayAt) ∧ m.gen = (committing k 11).chipTag ∧ k.answeredBy m = true := by
  decide +kernel
theorem test_wit_dibber_rolled_back : ((committing commit1 9).seq 0 1).map (·.commit) = some (some commit1) ∧ 9 ≠ commit1.first ∧
    commit1.tail = none ∧ commit1.pointed = false := by decide +kernel
theorem test_wit_peer_commit : let s := kvm (withSeq seq1 0) []; let m : HostMsg := ⟨9, 0, 1, 6⟩
    s.seq 0 1 = some seq1 ∧ seq1.commit = none ∧ seq1.held = [] ∧ seq1.lost = false ∧ 6 = m.gen ∧ 10 = seq1.base + seq1.bound ∧
      prepared (((s.setSeq 0 1 { seq1 with held := [⟨m, 10, 3, 6, []⟩] }).setSeq 0 1 { seq1 with held := [] }).prepareCommit 0 1
        { seq1 with held := [] } 10 3) = true ∧
      ((committing commit1 10).seq 0 1).map (·.commit.isSome) = some true := by decide +kernel

/-- Arguments of SEQ_CREATE (R140): one layer and group, pages of 64, slice of 128, no tray, global area, mass area or live index. -/
def createCmd : Nat := entry 0x01 0 (128 * 2 ^ 32 + 6 * 2 ^ 64 + 1 * 2 ^ 80)
def afterTake (s : State) (op : Nat) : State := ((s.take 0 op).map (·.2)).getD s
def theCmd (s : State) (op : Nat) : Cmd := ((s.take 0 op).map (·.1)).getD ⟨0, 0, 0⟩
def creating : State := kvm State.reset [createCmd]

theorem test_wit_seq_create : takes creating 0x01 (fun c u => c.seqArgsOk && !c.newSeq.live &&
    decide (Table.freeKey u.seqs 65535 (seqKey 0 1) = some 1)) = true := by decide +kernel
theorem test_wit_seq_create_area : ((afterTake creating 0x01).newSeq 0 1 (theCmd creating 0x01).newSeq).isSome = true := by
  unfold State.newSeq State.newArea
  rw [State.allocFrame_one _ 0 1 _ useTable 1 0x80000000 none { plot0 with cmdTail := 1 }] <;> decide +kernel
theorem test_wit_seq_destroy : takes (kvm (withSeq seq1 0) [entry 0x02 1 0]) 0x02 (fun c u =>
    c.cleanFrom 8 && decide (u.seq 0 c.seqNo = some seq1)) = true := by decide +kernel

def allocCmd : Nat := entry 0x09 0 (0 + 3 * 256)
theorem test_wit_buf_alloc : takes (kvm State.reset [allocCmd]) 0x09 (fun c _ =>
    c.cleanFrom 10 && bufferTier (c.arg 8 1) && decide (c.arg 9 1 = 3)) = true := by decide +kernel
theorem test_wit_buf_alloc_room : ((afterTake (kvm State.reset [allocCmd]) 0x09).allocFrame 0 0 3 useBuffer 0).isSome = true := by
  rw [State.allocFrame_one _ 0 0 3 useBuffer 0 pageAt none { plot0 with cmdTail := 1 }] <;> decide +kernel
theorem test_wit_buf_free : takes (kvm (withBuf State.reset) [entry 0x0A 0 bufHandle]) 0x0A (fun c u =>
    c.cleanFrom 16 && decide (u.checkFree 0 (c.arg 8 8) none = .ok)) = true := by decide +kernel
theorem test_wit_buf_free_stale : takes (kvm (withBuf State.reset) [entry 0x0A 0 (bufHandle + 2 ^ 48)]) 0x0A (fun c u =>
    c.cleanFrom 16 && decide (u.checkFree 0 (c.arg 8 8) none = .bad 3 8)) = true := by decide +kernel
theorem test_wit_bucket : takes (kvm ((withSeq seq1 0).writeLe bufAt 2 1) [entry 0x0C 0 (bufAt + 1 * 2 ^ 64)]) 0x0C (fun c u =>
    c.cleanFrom 18 && u.ownsRange 0 (c.arg 8 8) 2 && decide (((List.range (c.arg 16 2)).map fun i =>
      u.loadLe (c.arg 8 8 + 2 * i) 2) = [1])) = true := by decide +kernel
theorem test_wit_global_add : takes (kvm (withSeq seq1 0) [entry 0x04 1 9]) 0x04 (fun c u =>
    c.cleanFrom 12 && decide (u.seq 0 c.seqNo = some seq1) && decide (c.arg 8 4 < seq1.base + seq1.bound) &&
      (u.keyPoison seq1 (c.arg 8 4 - seq1.base) 1).isNone && (u.tablePoison seq1).isNone &&
      decide (seq1.globals.length < seq1.gquota)) = true := by decide +kernel
theorem test_wit_pin : takes (kvm (withSeq seq1 0) [entry 0x07 1 (0 + 10 * 2 ^ 32 + 1 * 2 ^ 64)]) 0x07 (fun c u =>
    c.cleanFrom 17 && decide (c.arg 16 1 = 1) && rangeOk seq1 (c.arg 8 4) (c.arg 12 4) &&
      decide (coverPages seq1 (c.arg 8 4) (c.arg 12 4) = [0]) && (u.pte seq1 0).valid) = true := by decide +kernel

def twoSeqs : State := { withSeq { seq1 with tray := none } 0 with
  seqs := [(1, { seq1 with tray := none }), (2, { seq1 with bound := 0, tray := none })] }
theorem test_wit_copy_prefix : takes (kvm twoSeqs [entry 0x08 2 (1 + 10 * 2 ^ 32)]) 0x08 (fun c u =>
    c.cleanFrom 16 && c.arg 10 2 == 0 && decide (c.arg 8 2 = 1) && decide (c.arg 12 4 = 10) &&
      (match u.seq 0 1, u.seq 0 2 with
        | some a, some b => sameShape a b && (u.keyPoison a 0 10).isNone && (u.tablePoison b).isNone &&
          (match u.withRoom 0 [b.home, 1] (fun s => s.mapAll 0 2 b ((pageSpan b 0 10).flatMap (pagesAt b))) with
            | .inl _ => true
            | .inr _ => false)
        | _, _ => false)) = true := by decide +kernel

/-- A WALK whose row table of one row stands 0x40000 bytes into the plot's bonded DRAM (notes/assumptions/31). -/
def walkCmd : Nat := entry 0x05 1 (1000000 * 2 ^ 64 + 1 * 2 ^ 136 + 1 * 2 ^ 144 + 0x40000 * 2 ^ 160)
def walking (s : State) : State := kvm (s.writeLe (0x10000000000 + 0x40000) 8 9) [walkCmd]
/-- The walk's premises, and whether it fails. -/
def walkFails (s : State) (fails : Bool) : Bool := takes s 0x05 fun c u =>
  let a := WalkArgs.mk (c.arg 16 8) (c.arg 24 1) (c.arg 25 1) (c.arg 26 2) ((c.arg 40 1).testBit 0) ((c.arg 40 1).testBit 1)
  let b := (u.rowBase 0).elim 0 (· + c.arg 28 4)
  let x := u.noteRead b 8
  c.cleanFrom 41 && c.arg 12 4 == 0 && c.arg 32 8 == 0 && decide (c.arg 40 1 < 4) && decide (u.seq 0 c.seqNo = some seq1) &&
    (u.tablePoison seq1).isNone && u.ownsRange 0 b 8 && a.ok seq1 &&
    (x.walk 0 c.seqNo seq1 a (x.walkRows b 1) (x.selfMember 0) (x.recallList 0)).failed.isSome == fails
theorem test_wit_walk : walkFails (walking (withSeq seq1 0)) false = true := by decide +kernel
theorem test_wit_walk_fails : walkFails (walking ((withSeq seq1 0).writeLe leafAt 32 { page1 with cutting := true }.encode)) true = true := by
  decide +kernel
theorem test_wit_prefetch : takes (kvm (withSeq seq1 0) [entry 0x06 1 (0 + 10 * 2 ^ 32)]) 0x06 (fun c _ =>
    c.cleanFrom 16 && rangeOk seq1 (c.arg 8 4) (c.arg 12 4)) = true := by decide +kernel
def migrateCmd (tier : Nat) : Nat := entry 0x0B 1 (0 + 10 * 2 ^ 32 + tier * 2 ^ 64)
/-- The premises of MIGRATE, with the number of pages that move. -/
def migrates (s : State) (q : Seqn) (n : Nat) : Bool := takes s 0x0B fun c u =>
  c.cleanFrom 17 && decide (c.arg 16 1 ≤ 3) && decide (u.seq 0 c.seqNo = some q) && (u.tablePoison q).isNone &&
    rangeOk q (c.arg 8 4) (c.arg 12 4) && decide (((coverPages q (c.arg 8 4) (c.arg 12 4)).filter fun v =>
      (u.pte q v).valid && (u.pte q v).tier != c.arg 16 1 && !(u.pte q v).moving).length = n)
/-- The cells of memory that hold bytes other than zero. -/
def cellsAt (a : Nat) (bs : List Byte) : List (Nat × Byte) := (bs.zipIdx.filter fun e => e.1 != 0).map fun e => (a + e.2, e.1)
/-- The sequence with 65 layers, page 0 of each VALID. -/
def manyPages : State := { State.reset with
  seqs := [(1, { seq1 with layers := 65, maxSlice := 64 })]
  mem := (cellsAt dirAt (leBytes 8 (2 ^ 63 + leafAt)) ++ (List.range 65).flatMap fun i => cellsAt (leafAt + 32 * i + 7) [0x80]) }
theorem test_wit_migrate : migrates (kvm (withSeq seq1 0) [migrateCmd 1]) seq1 1 = true ∧
    migrates (kvm (withSeq seq1 0) [migrateCmd 0]) seq1 0 = true := by decide +kernel
theorem test_wit_migrate_limit : migrates (kvm manyPages [migrateCmd 1]) { seq1 with layers := 65, maxSlice := 64 } 65 = true := by
  decide +kernel
theorem test_wit_migrate_start : let u := afterTake (kvm (withSeq seq1 0) [migrateCmd 1]) 0x0B
    let x := (u.setSeq 0 1 { seq1 with busy := 1 }).stepFld Fld.KVM_MIGRATE_STATUS_BATCH 0
    let b := Batch.mk 0 7 1 1 0 0 (x.fld Fld.KVM_MIGRATE_STATUS_BATCH 0)
    (match ((({ x with batches := Table.put x.batches 7 b } : State).showBatch b 1).setFld Fld.KVM_MIGRATE_STATUS_COUNT 0 1).startMove
        0 1 seq1 0 1 false (some 7) with
      | some (.ok _) => true
      | _ => false) = true := by
  dsimp only [State.startMove]
  rw [State.allocFrame_one _ 0 1 _ usePage 1 0x80000000 none { plot0 with cmdTail := 1 }] <;> decide +kernel

/-- A move of sequence 1's page 0, its destination named. -/
def move1 : Journal := ⟨7, 0, 1, 0, 0, pageAt, 0, 1, 1, 0, some 0x80000000, 2, none, false, 0, none, 0, 0⟩
def moving (j : Journal) (s : State) : State := { s with journal := [j] }
theorem test_wit_page_move : let s := moving move1 (withSeq seq1 0)
    s.entry 7 = some move1 ∧ s.seq move1.plot move1.seqNo = some seq1 ∧
      s.firstPoison move1.srcAddr (formBytes seq1 (s.pte seq1 move1.page)) = none := by decide +kernel
theorem test_wit_cutting : let s := moving { move1 with cut := true } (kvm (withSeq seq1 0) [])
    let s := s.setFld Fld.PLT_BLOCKS_BLOCKS 0 1
    (s.plot 0).isSome = true ∧ fp8Pages seq1 = true ∧ s.ownerOfCell 0 = some 0 ∧ s.poison = [] := by decide +kernel
theorem test_wit_hosting_reply : let j := { move1 with step := 1, sent := some 5, dstTier := 2 }
    (moving j State.reset).entry 7 = some j ∧ j.sent.isSome = true ∧ 3 ≠ State.reset.chipTag := by decide +kernel
theorem test_wit_hosting_sealed : let j := { move1 with step := 3, sent := some 5, dstTier := 2 }
    (moving j State.reset).entry 7 = some j ∧ j.step = 3 := by decide +kernel
theorem test_wit_host_timeout : let s := moving { move1 with sent := some 0 } { State.reset with clock := 100000 }
    s.entry 7 = some { move1 with sent := some 0 } ∧ 0 + 100000 ≤ s.clock := by decide +kernel

def hostMsg : HostMsg := ⟨9, 2, 0x55, 3⟩
def hostedAt : Nat := 0xC0000000
def hosted1 : Frame := ⟨4, 0, true, false, 3, 0, 0, 6, 9, 1, 2, 0⟩
def hostedHandle : Nat := 4 * 2 ^ 48 + 1 * 2 ^ 44 + hostedAt / 4096
def hosting (f : Frame) : State := { kvm State.reset [] with frames := [(hostedAt, f)], clock := 10000000 }
theorem test_wit_host_alloc : let s := kvm State.reset []
    s.ringsOpen 0 = true ∧ ((s.allocFrame 0 2 1 useHosted 1).map fun r => (Table.get r.2.frames r.1).isSome) = some true := by
  refine ⟨by decide +kernel, ?_⟩
  rw [State.allocFrame_one _ 0 2 1 useHosted 1 hostedAt none plot0] <;> decide +kernel
theorem test_wit_hosted_frame : (hosting hosted1).hostedFrame hostMsg hostedHandle = some hosted1 ∧
    4096 ≤ frameBytes hosted1.order ∧ (hosting hosted1).hostedFrame { hostMsg with chip := 8 } hostedHandle = none ∧
    (hosting hosted1).hostingPlot hostedHandle = some 0 ∧
    (hosting hosted1).checkFree 0 hostedHandle (some (hostMsg.chip, hostMsg.plot)) = .ok := by decide +kernel
theorem test_wit_orphan : (hosting hosted1).frames = [(hostedAt, hosted1)] ∧ hosted1.use = 3 ∧
    hosted1.tick + 10000000 ≤ (hosting hosted1).clock := by decide +kernel
theorem test_wit_source_free : let s := { State.reset with draining := [⟨0, 0, pageAt, none, 5⟩], sundial := 5 }
    s.draining = [⟨0, 0, pageAt, none, 5⟩] ∧ 5 ≤ s.sundial := by decide +kernel
theorem test_wit_pressure : let s := (kvm State.reset []).setPool 0 0 ⟨1000, 10, 990, 0, 0, 0, 0⟩
    let s := s.setReg .KVM_POLICY 0 0xFFFFFFFF
    s.ringsOpen 0 = true ∧ s.belowLow 0 0 = true ∧ (0, 1) ∈ { s with pressed := [(0, 1)] }.pressed := by decide +kernel
theorem test_wit_frame_free : let s := withBuf State.reset
    s.canonical = true ∧ Table.get s.frames bufAt = some bufFrame ∧ bufFrame.allocated = true ∧ bufFrame.use ≠ useHosted := by
  decide +kernel

def live1 : Index := ⟨0, true, 1024, 2, [], none, none, none,
  [⟨0, [], [], [], 0, 0, false, false⟩, ⟨0, [], [], [], 0, 0, false, false⟩], 0, none, true⟩
theorem test_wit_signature : ∀ full : Bool, let x := if full then { live1 with sideCap := 0 } else live1
    let j : SignJob := ⟨0, 1, 0, 50, false, none⟩
    let s := { (kvm (withSeq { seq1 with liveIndex := some 3 } 0) []).setFld Fld.PLT_BLOCKS_BLOCKS 0 1 with
      indexes := [(3, x)], signing := [j] }
    s.serviceRuns = true ∧ s.signing = [j] ∧ s.ownerOfCell 0 = some 0 ∧ s.index 3 = some x ∧ (s.pte seq1 0).valid = true ∧
      (s.pte seq1 0).cutting = false ∧ (s.pte seq1 0).tier ≠ 2 ∧ s.poison = [] ∧ (x.append 0 5 0 50).isSome = !full := by decide +kernel

/-! ### Streams -/

/-- A FILL stream of cell 0, slots of 64 KiB at 0x10000 in a ring of two, its word at the front. -/
def fill1 (prog : List Nat) : Stream where
  plot := 0
  task := 0
  place := 0
  desc := 0
  kind := 0
  sflags := 0
  tileLog := 16
  depth := 2
  semPair := 4
  firstCell := 0
  cells := 1
  indexPlace := 0
  indexSrc := none
  ring := 0x10000
  prog := prog
  deadline := 1000
  deadline0 := 1000
  period := 100
  trailDest := 0x4000
  maskDest := 0
  dcount := 0
  rcount := 1
  dtable := 0
  rarm := 0x10000060000
  base := [0x10000070000, 1, 0, 0, 0, 0, 0, 0]
  areg := [0, 0, 0, 0xFFFF010000070000, 0, 0, 0, 0]
  bind := []
  loops := []
  pc := 0
  moved := 0
  tile := 0
  fill := 0
  taken := true
  cur := []
  touched := []
  tiles := []
  dq := []
  dpos := 0
  walkDone := false
  xq := []
  trailN := []
  trailT := 0
  page := none
  run := 0
  running := true
  ended := false
  runEnd := 0
  acked := 0
  arming := 1
  armTick := 0
  promoted := false

def streaming (t : Stream) : State := { kvm State.reset [] with streams := [(0, t)] }
def aword (op rest : Nat) : Nat := op * 2 ^ 56 + rest
def atFill (op rest : Nat) (t : Stream) : Bool := decide ((streaming t).atWord 0 op = some (t, aword op rest))

theorem test_wit_prog_loop : atFill 0x01 3 (fill1 [aword 0x01 3]) = true ∧ atFill 0x01 0 (fill1 [aword 0x01 0, aword 0x02 0]) = true := by
  decide +kernel
theorem test_wit_next : atFill 0x02 0 { fill1 [aword 0x02 0] with loops := [(0, 2)] } = true ∧
    atFill 0x02 0 { fill1 [aword 0x02 0] with loops := [(0, 1)] } = true := by decide +kernel
theorem test_wit_seta : let a := 3 * 2 ^ 48 + 2 ^ 47; let b := 3 * 2 ^ 48
    atFill 0x03 a (fill1 [aword 0x03 a]) = true ∧ (aword 0x03 a).testBit 47 = true ∧ atFill 0x03 b (fill1 [aword 0x03 b]) = true ∧
      (aword 0x03 b).testBit 47 = false := by decide +kernel
theorem test_wit_adda : atFill 0x04 (3 * 2 ^ 48 + 64) (fill1 [aword 0x04 (3 * 2 ^ 48 + 64)]) = true := by decide +kernel
theorem test_wit_idx : let r := 3 * 2 ^ 48 + 6 * 2 ^ 32
    atFill 0x08 r { fill1 [aword 0x08 r] with xq := [5] } = true := by decide +kernel
theorem test_wit_page : let t := { fill1 [aword 0x09 (3 * 2 ^ 48)] with dq := [pageAt] }
    atFill 0x09 (3 * 2 ^ 48) t = true ∧ (((streaming t).nextDesc t).map fun r => pdBad t.plot r.1) = some false ∧
      (streaming t).feedQueue 0 = streaming t ∧ (streaming t).poison = [] := by decide +kernel
theorem test_wit_flush : atFill 0x07 0 (fill1 [aword 0x07 0]) = true := by decide +kernel
theorem test_wit_trail : ∀ mask : Bool, let d := pageAt + (if mask then 2 else 1) * 2 ^ 172; let t := { fill1 [aword 0x0A 0] with page := some d }
    atFill 0x0A 0 t = true ∧ t.tileCells t.tile = [0] ∧ pdKind d = (if mask then 2 else 1) ∧ trailOutside t d 0 = none ∧
      (streaming t).poison = [] ∧
      (((streaming t).trailBytes t d (if (streaming t).isSelf (pdChip d) then (streaming t).loadBytes (pdAddr d) 128 else [])).map
        List.length) = some 512 := by decide +kernel
theorem test_wit_prog_end : let t := fill1 [aword 0x00 0]
    atFill 0x00 0 t = true ∧ ((streaming t).closeTile 0 t).2.tiles ≠ [] := by decide +kernel
def landedTile : Stream := { fill1 [] with tiles := [⟨0, 65536, [0], true, []⟩], taken := false }
def landed : State := (streaming landedTile).setCell 0 { Cell.empty with pairs := [(4, ⟨2, 0, 1, .stream 0, 0, none, none⟩)] }
theorem test_wit_tile_complete : landed.canonical = true ∧ landed.stream 0 = some landedTile ∧
    landed.tileLanded 0 landedTile ⟨0, 65536, [0], true, []⟩ = true ∧
    (landed.linkPair 0 landedTile 0).isSome = true := by decide +kernel
/-- A stream at a MOVE or ZERO of 64 bytes, its source (or a DRAIN's destination) in register 3, a COPY's destination in register 2. -/
def mover (op kind : Nat) : Stream := { fill1 [aword op (3 * 2 ^ 48 + 2 * 2 ^ 44 + 64)] with
  kind := kind, cells := if kind = 3 ∨ kind = 4 then 0 else 1, areg := [0, 0, 0xFFFF010000080000, 0xFFFF010000070000, 0, 0, 0, 0]
  cur := if kind = 1 then [(0, List.replicate 128 7)] else [] }
def moveWordBits (op : Nat) : Nat := aword op (3 * 2 ^ 48 + 2 * 2 ^ 44 + 64)
/-- What the next part of the mover's word is. -/
def moverChunk (op kind : Nat) : Nat × Reach × Reach := (streaming (mover op kind)).chunk (mover op kind) (moveWordOf (moveWordBits op))
theorem test_wit_move : (∀ kind : Fin 5, MoveAtHand (streaming (mover 0x05 kind)) 0 0x05 (mover 0x05 kind) (moveWordBits 0x05)) ∧
    (∀ kind : Fin 5, kind.val = 0 ∨ kind.val = 3 → MoveAtHand (streaming (mover 0x06 kind)) 0 0x06 (mover 0x06 kind) (moveWordBits 0x06)) := by
  unfold MoveAtHand; decide +kernel
theorem test_wit_move_places : moverChunk 0x05 0 = (64, .here 0x10000070000, .null) ∧ moverChunk 0x05 2 = (64, .here 0x10000070000, .null) ∧
    moverChunk 0x05 4 = (64, .here 0x10000070000, .null) ∧ moverChunk 0x05 3 = (64, .here 0x10000070000, .here 0x10000080000) ∧
    moverChunk 0x05 1 = (64, .here (spadBase 0 + 0x10000), .here 0x10000070000) ∧ moverChunk 0x06 3 = (64, .null, .here 0x10000080000) := by
  decide +kernel
theorem test_wit_move_store : ∀ kind : Fin 5, let s := streaming (mover 0x05 kind)
    s.canonical = true ∧ s.poison = [] ∧ s.trayShut 0x10000080000 64 = false ∧ s.trayShut 0x10000070000 64 = false ∧
      (s.storeBytes 0x10000080000 (s.loadBytes 0x10000070000 64)).2 = none ∧
      (s.storeBytes 0x10000070000 (List.replicate 64 7)).2 = none := by decide +kernel

theorem test_wit_persistent : let t := { fill1 [] with sflags := 1, running := false, task := 1 }
    (streaming t).runDue t = true ∧ (streaming t).runGroup 0 = [(0, t)] ∧ (streaming t).poison = [] := by decide +kernel
theorem test_wit_promotion : let t := { fill1 [] with sflags := 8, deadline := 100 }
    t.sflags.testBit 3 = true ∧ t.deadline ≤ (streaming t).sundial + t.period := by decide +kernel
theorem test_wit_remote : let s := { streaming (fill1 []) with reqs := [⟨1, .stream 0 1 0 0 .data, 0, 5, 0, 64, [], 0, 0⟩], clock := 100000 }
    s.canonical = true ∧ s.task (fill1 []).task = none ∧ (fill1 []).arming = 1 ∧ 0 + 100000 ≤ s.clock := by decide +kernel
theorem test_wit_chain_tile : let t := { fill1 [] with kind := 2 }; let x : Transfer := ⟨.chain, 64, 65536, some 0, 0, [(0, [1, 2])], []⟩
    let s := ((streaming t).setCell 0 { Cell.empty with transfers := [x] }).setFld Fld.CEL_STATE_HOLDER 0 1
    s.canonical = true ∧ s.stream 0 = some t ∧ t.cellSet = [0] ∧ s.fld Fld.CEL_STATE_HOLDER 0 = 1 ∧
      (s.cell 0).portTransfer .chain = some x ∧ x.stream = some 0 := by decide +kernel

/-! ### Scrub, errors, synchronisation -/

theorem test_wit_scrub_start : (State.reset.scrubber 3).running = false ∧ State.reset.sundial % scrubInterval 3 = 0 ∧
    State.reset.fld Fld.PWR_STATE_STATE 0 ≠ 3 := by decide +kernel
theorem test_wit_scrub_promote : let s := { State.reset.setScrubber 544 ⟨0, 17179869184, false, true, 0⟩ with sundial := 3599999999999 }
    (s.scrubber 544).running = true ∧ (s.scrubber 544).promoted = false ∧ scrubAtRisk 544 (s.scrubber 544) s.sundial = true ∧
    s.fld Fld.PWR_STATE_STATE 0 ≠ 3 := by
  decide +kernel
theorem test_wit_scrub_end : let s := State.reset.setScrubber 3 ⟨0, 0, false, true, 0⟩
    (s.scrubber 3).running = true ∧ (s.scrubber 3).remain = 0 ∧ s.fld Fld.PWR_STATE_STATE 0 ≠ 3 := by decide +kernel
theorem test_wit_ecc_report : let s := { State.reset with eccReports := [firmwareOff] }
    tierOf firmwareOff = some (0, 2, firmwareOff) ∧ s.tableState firmwareOff = true := by decide +kernel
theorem test_wit_cold_seg : State.reset.privOk .pf0 = true ∧ State.reset.segmentHeld 0 = false ∧
    ({ (kvm State.reset []).setBit Fld.MEM_COLD_SEG_VALID 0 true with plots := [(0, { plot0 with coldCount := 1 })] } : State).segmentHeld 0 = true := by decide +kernel

def synced (st : Nat) : State := (State.reset.setFld Fld.SDL_LINK_SYNC_STATE 2 st).setFld Fld.LNK_STATUS_STATE 2 3
theorem test_wit_sync_exchange : (synced 2).syncState 2 ≠ 0 ∧ ((synced 2).link 2).sent = none ∧
    ((synced 2).link 2).lastSent = none := by decide +kernel
theorem test_wit_sync_flit : State.reset.rootChip = 0xFFFF := by decide +kernel
theorem test_wit_exchange_miss : let s := { (synced 2).setLink 2 { LinkSync.empty with sent := some 0 } with sundial := 1000000 }
    (s.link 2).sent = some 0 ∧ (s.link 2).window ≤ 2 * ((s.time64 : Int) - 0) := by decide +kernel
theorem test_wit_dormant : let s := { synced 3 with clock := 10 ^ 12 }
    s.syncState 2 = 3 ∧ s.beyondGuard 2 = true := by decide +kernel
/-! ### Sundial and admission -/

/-- Link 2 is UP and SYNCED, its partner synchronised under root 5 at depth 3. -/
def joinable : State :=
  let s := { synced 2 with rootChip := 5 }
  (s.setLink 2 { LinkSync.empty with partnerRoot := 5, partnerDepth := 3, partnerSynced := true, heard := true, theta := 256 }).setFld
    Fld.SDL_STATUS_STATE 0 1
theorem test_wit_join : joinable.canonical = true ∧ joinable.isRoot = false ∧ joinable.mainLost = false ∧ joinable.holdsWork = false ∧
    joinable.fld Fld.SDL_STATUS_STATE 0 = sdJoining ∧ joinable.bestParent = some 2 := by decide +kernel
def writeEvent : Event := ⟨10, 0, .write 0 0x10000C 7 false, none⟩
theorem test_wit_event : let s := { State.reset with events := [writeEvent], sundial := 10 }
    s.nextEvent = some writeEvent ∧ writeEvent.kind = .write 0 0x10000C 7 false := by decide +kernel
/-- SCHED_WRITE of plot 0's COL_TRIGGER at a tick. -/
def schedCmd (tick : Nat) : Nat := entry 0x30 0 (tick + Reg.COL_TRIGGER.offset * 2 ^ 64)
theorem test_wit_sched : takes (kvm State.reset [schedCmd 1000]) 0x30 (fun c u =>
    c.cleanFrom 24 && c.seqNo == 0 && u.mayWrite (some 0) (c.arg 16 4) && decide (u.sundial + 1000 ≤ c.arg 8 8) &&
      decide (u.pendingWrites < 64)) = true := by decide +kernel
theorem test_wit_sched_late : takes (kvm State.reset [schedCmd 999]) 0x30 (fun c u =>
    u.mayWrite (some 0) (c.arg 16 4) && decide (c.arg 8 8 < u.sundial + 1000)) = true := by decide +kernel

/-- A request (R282) of TASK 0x11: WORK 100 by tick 10^9, no cells. -/
def admWord (bad : Nat) : Nat := 0x11 + bad * 2 ^ 40 + 10 ^ 9 * 2 ^ (8 * 0x10) + 100 * 2 ^ (8 * 0x18)
def asking (state w : Nat) : State :=
  let s := (kvm State.reset []).setFld Fld.PLT_STATE_STATE 0 state
  let s := { s with plots := [(0, { plot0 with admTail := 1 })] }
  (s.setFld Fld.BOOT_STATUS_STATE 0 bsService).writeLe (plot0.admAddr 0) 128 w
/-- The state in which the request is decided. -/
def deciding (s : State) : State :=
  (({ s.writeLe (plot0.rings + ringAdmHead) 4 1 with admTurn := 0, taskSeq := s.taskSeq + 1 } : State).noteWait 0 true)
theorem test_wit_request : (asking 1 (admWord 0)).admNext = some 0 ∧ (asking 1 (admWord 0)).headRequest 0 = some (admWord 0) ∧
    (match (deciding (asking 1 (admWord 0))).decide' (admReq 0 (admWord 0)) (admClean (admWord 0)) with
      | .at' _ _ => true
      | .refused _ _ => false) = true := by decide +kernel
theorem test_wit_request_refused : (asking 2 (admWord 0)).admNext = some 0 ∧
    (deciding (asking 2 (admWord 0))).fld Fld.PLT_STATE_STATE 0 ≠ 1 ∧ admClean (admWord 1) = false ∧
    (deciding (asking 1 (admWord 1))).admStopped 0 = false := by decide +kernel
theorem test_wit_request_checked : TaskBody.needsCheck ⟨[], [], [0x10000080000], none, none⟩ = true ∧
    (deciding (asking 1 (admWord 0))).checkFree' 0 ⟨[], [], [0x10000080000], none, none⟩ = false := by decide +kernel
theorem test_wit_search : (match (deciding (asking 1 (admWord 0))).search (admReq 0 (admWord 0)) [] 104 2 0 with
    | .at' a b => decide (b = a + 104)
    | .refused _ _ => false) = true := by decide +kernel

/-- Task 1 of plot 0 on cell 0. -/
def task1 : Task where
  plot := 0
  tag := 0x11
  noRebase := false
  notBefore := 0
  deadline := 10 ^ 9
  work := 100
  linkWork := 0
  blocks := 1
  cellMask := 1
  cells := [0]
  desc := 0
  claim := []
  body := ⟨[(0, [0])], [], [], none, none⟩
  dur := 104
  start := 5
  completion := 109
  first := 0
  last := 0
  checking := false
  accepted := true
  started := none
  streams := []
  service := false
  used := []
  ctx := []
def tasked (t : Task) (x : Cell) : State := { (kvm State.reset []).setCell 0 x with tasks := [(1, t)], sundial := 109 }
theorem test_wit_stream_check : let t := { task1 with checking := true, accepted := false }
    (tasked t Cell.empty).task 1 = some t ∧ t.body.group = none ∧ (tasked t Cell.empty).checkStreams 0 1 t.body.streams = some [] ∧
      (tasked t Cell.empty).checkStreams 0 1 [7] = none := by decide +kernel
theorem test_wit_task_start : let s := tasked task1 Cell.empty
    s.canonical = true ∧ s.mayQueue 1 task1 = true ∧ s.isQueued 1 task1 = false ∧
      (((s.queueTask 1 task1).cell 0).task.isSome) = false ∧ task1.start ≤ (s.queueTask 1 task1).sundial := by decide +kernel
theorem test_wit_task_start_early : let t := { task1 with start := 1000, completion := 1104, accepted := true }; let s := tasked t Cell.empty
    let u := s.queueTask 1 t
    s.mayQueue 1 t = true ∧ s.isQueued 1 t = false ∧ t.ctx = [] ∧ (t.cells.any fun c => (u.cell c).task.isSome) = false ∧
      u.sundial < t.start ∧ t.cells ≠ [] ∧ t.noRebase = false ∧ t.notBefore ≤ u.sundial ∧
      u.slotsFit 1 ⟨t.plot, t.tag, t.noRebase, t.notBefore, t.deadline, t.work, t.linkWork, t.blocks, t.cellMask, t.desc, t.claim⟩
        t.cells (slotOf u.sundial) (slotOf (u.sundial + t.dur - 1)) = true := by decide +kernel
theorem test_wit_task_end : let t := { task1 with started := some 5 }
    let s := tasked t { running 0 with ended := true }
    s.canonical = true ∧ s.taskDone 1 t = true ∧ t.inRange = true := by decide +kernel
theorem test_wit_deadline : (tasked task1 (running 0)).task 1 = some task1 ∧ task1.completion ≤ (tasked task1 (running 0)).sundial ∧
    task1.inRange = true ∧ task1.plot < 8 := by decide +kernel
theorem test_wit_capacity : let t := { task1 with claim := [10 ^ 12], last := 100000 }
    (tasked t (running 0)).overbooked 0 = true ∧ (∀ k, k < 25 → State.reset.overbooked k = false) := by decide +kernel

theorem test_wit_drain_ack : let d : Drain := ⟨[⟨0, 64⟩], 2 ^ 29, 0, []⟩
    let s := withCell { running 0 with drains := [d] }
    (s.cell 0).drains = [d] ∧ (((s.cell 0).transfers.filter fun t => t.port == .drain && t.stream.isNone).length) ≤ 0 ∧
      s.drainSinks (fusedTrigger d.fused) = [] := by decide +kernel

/-! ### Sequence groups -/

/-- Chip 0 with coordinates, link 1 to chip 1 UP. -/
def fabric (s : State) : State :=
  (s.setFld Fld.LNK_COORD_SOURCE 0 1).setFld Fld.LNK_STATUS_STATE 1 3

/-- A group of chips 0 and 1; this chip is member 0. -/
def group3 : ColGroup := ⟨0, [0, 1], 0, 7, 5, 0, 0, [], none, []⟩

def msg (op tag : Nat) (data : List Byte) : InMsg :=
  ⟨1, 0, 1, 0, 0, 0, tag, op, 0, 0, data.length, false, false, false, false, data⟩

def gdescAt : Nat := 0x10000090000
/-- A group descriptor (R176) of two members. -/
def grouped (self lead pattern qgroup rgroup ngroup period : Nat) (x : GroupCtx) : State :=
  let s := fabric (kvm State.reset [])
  let s := (((s.writeLe gdescAt 2 2).writeLe (gdescAt + 2) 2 self).writeLe (gdescAt + 4) 2 lead).writeLe (gdescAt + 6) 1 pattern
  let s := ((s.writeLe (gdescAt + 8) 1 qgroup).writeLe (gdescAt + 9) 1 rgroup).writeLe (gdescAt + 10) 1 ngroup
  let s := (s.writeLe (gdescAt + 0x24) 4 period).writeLe (gdescAt + 0x30) 4 1000
  { s with colGroups := [(3, group3), (4, group3)], groups := [(0, x)] }
def ctx1 : GroupCtx := ⟨gdescAt, 1, [], false, some 0x105, 0, [], [], 0, none, false, [], []⟩
def decode : State := grouped 0 1 0 3 4 0 0 ctx1

def headerBytes : List Byte := leBytes 152 (1 + 1 * 2 ^ 96 + 5 * 2 ^ 112)
def pieceBytes (tag kind : Nat) : List Byte := leBytes 32 (tag + kind * 2 ^ 56 + 1 * 2 ^ 64)
theorem test_wit_step_header : let m := msg 0 0 headerBytes
    decode.hubHeld = false ∧ decode.isSelf m.dest = true ∧ decode.group 0 = some ctx1 ∧ (decode.groupDesc ctx1.desc).pattern = 0 ∧
      decode.memberOf (decode.groupDesc ctx1.desc).qgroup m.src = some (decode.groupDesc ctx1.desc).lead ∧ ctx1.due = false ∧
      headerOk m.data = true := by decide +kernel
/-- A commit of the step's sequence that another chip's tail runs. -/
def leading (pending : Bool) : State :=
  { grouped 0 0 0 3 4 0 0 ctx1 with seqs := if pending then [(0, { seq1 with commit := some { commit1 with tail := some 3 } })] else [] }
theorem test_wit_lead_header : let m := { msg 0 0 headerBytes with src := 0 }; ∀ pending : Bool, let s := leading pending
    let d := s.groupDesc ctx1.desc
    s.hubHeld = false ∧ s.isSelf m.dest = true ∧ s.group 0 = some ctx1 ∧ d.pattern = 0 ∧ s.memberOf d.qgroup m.src = some d.lead ∧
      headerOk m.data = true ∧ d.self = d.lead ∧ s.tailPending 0 d = pending := by decide +kernel
theorem test_wit_query_piece : let m := msg 0 (3 * 2 ^ 24) (pieceBytes 0x105 0)
    ctx1.tag = some (pieceHead m.data).tag ∧ (pieceHead m.data).kind = 0 ∧
      decode.pieceOk 0 ctx1 (pieceHead m.data) m.addr (m.data.length - 16) = true ∧
      decode.memberOf (decode.groupDesc ctx1.desc).qgroup m.src = some (pieceHead m.data).member ∧
      bitsAt m.tag 24 8 = (decode.groupDesc ctx1.desc).qgroup := by decide +kernel
theorem test_wit_partial_piece : let m := msg 0 (4 * 2 ^ 24) (pieceBytes 0x105 1)
    ctx1.tag = some (pieceHead m.data).tag ∧ (pieceHead m.data).kind = 1 ∧
      decode.pieceOk 0 ctx1 (pieceHead m.data) m.addr (m.data.length - 16) = true ∧
      decode.memberOf (decode.groupDesc ctx1.desc).rgroup m.src = some (pieceHead m.data).member ∧
      bitsAt m.tag 24 8 = (decode.groupDesc ctx1.desc).rgroup := by decide +kernel
theorem test_wit_stale_piece : let m := msg 0 (3 * 2 ^ 24) (pieceBytes 0x106 0)
    decode.canonical = true ∧ m.malformed = false ∧ ctx1.tag ≠ some (pieceHead m.data).tag ∧
      decode.memberOf (decode.groupDesc ctx1.desc).qgroup 7 = none := by decide +kernel

def opDesc0 (opcode : Nat) : OpDesc :=
  ⟨opcode, if opcode = 8 then 2 else 0, 3, 0, 5, 1, 0xFFFF, 1, 1, 1, 1, 0, 64, 0, 1, 1, 0, 0, 100000, 0, 0x10000070000, 0x10000078000,
    0x10000080000, [], [], 0, 0, 0, 256⟩
def chain0 (opcode : Nat) : Chain := ⟨0, [opDesc0 opcode], 0, [], false, none⟩
def shifted : ColIn := ⟨3, 7, 5, 0, 0, 1, 0, 8, 0, [], 0, false⟩

/-- The ring's SHIFT: two slots of 1,024 bytes. -/
def ringOp : OpDesc := { opDesc0 8 with slots := 2, slotBytes := 1024, piece := 1024 }
def ringChain : Chain := ⟨0, [ringOp], 0, [], false, none⟩
/-- The block of member 1 as it came. -/
def visiting : ColIn := { shifted with data := BlockHead.bytes ⟨1, 0, 0, 2, 64, 0, 2, 0x105⟩ }
/-- A ring of two members whose task runs, its slices of sequence 0 as given, member 1's block here or not. -/
def ring (period : Nat) (x : GroupCtx) (q : List Seqn) (blocks : List ColIn) : State :=
  let s := ((grouped 0 0 1 0 0 3 period x).writeLe (gdescAt + 0x18) 8 0x10000080000).writeLe (gdescAt + 0x20) 4 1024
  { s.setFld Fld.COL_COUNTER_COUNT 5 1 with
    tasks := [(1, { task1 with started := some 0 })], sundial := 10 ^ 9, clock := 10 ^ 9, chains := [(2, ringChain)]
    seqs := q.map fun y => (0, y), colIn := blocks }
/-- What a hop's launch leaves before the block goes on. -/
def launchedFrom (s : State) (x : GroupCtx) : State :=
  let d := s.groupDesc x.desc
  let h := x.nextHop % d.n
  let home := s.homeHead 0 d (x.tag.getD 0) (x.nextHop / d.n)
  let block := if h = 0 then home else ((s.blockOf x d h).map fun y => blockHead y.data).getD home
  let v := ((if d.period = 0 then s else s.markUnsync 0).setGroupCtx 0
    { x with hop := x.nextHop, launched := some s.sundial, late := false }).setHalves x.task block (d.slicing == 1)
  if h = 0 then v else (v.shiftOp d.ngroup).elim v fun e => v.chainPair e.1 e.2 fun q => { q with full := q.full + 1 }
theorem test_wit_hop_home : let s := ring 0 ctx1 [] []; let d := s.groupDesc ctx1.desc; let w := launchedFrom s ctx1
    s.group 0 = some ctx1 ∧ s.hopDue ctx1 0 = true ∧ d.period = 0 ∧ s.hopSend 0 d 0 = true ∧ ctx1.nextHop % d.n = 0 ∧
      s.ringHead d = some (2, ringChain, ringOp) ∧ w.ringHead d = some (2, ringChain, ringOp) ∧ w.colGroup d.ngroup = some group3 ∧
      s.tooBig 0 d (s.homeHead 0 d 0x105 0) ringOp = false := by decide +kernel
theorem test_wit_hop_too_big : let s := ring 0 ctx1 [seq1] []; let d := s.groupDesc ctx1.desc; let w := launchedFrom s ctx1
    s.group 0 = some ctx1 ∧ s.hopDue ctx1 0 = true ∧ d.period = 0 ∧ s.hopSend 0 d 0 = true ∧
      s.ringHead d = some (2, ringChain, ringOp) ∧ w.ringHead d = some (2, ringChain, ringOp) ∧ w.colGroup d.ngroup = some group3 ∧
      s.tooBig 0 d (s.homeHead 0 d 0x105 0) ringOp = true := by decide +kernel
def ctxHop1 : GroupCtx := { ctx1 with launched := some 0 }
theorem test_wit_hop_last : let s := ring 0 ctxHop1 [] [visiting]; let d := s.groupDesc ctxHop1.desc
    s.group 0 = some ctxHop1 ∧ s.hopDue ctxHop1 0 = true ∧ d.period = 0 ∧ s.hopSend 0 d (ctxHop1.nextHop % d.n) = false := by decide +kernel
/-- A slice of one position: its block and its accumulators fit the SHIFT's pieces, so the ring goes round with accumulators (R190). -/
theorem test_wit_hop_back : let q := { seq1 with maxSlice := 1, bound := 1 }; let s := ring 0 ctxHop1 [q] [visiting]
    let d := s.groupDesc ctxHop1.desc; let w := launchedFrom s ctxHop1
    s.group 0 = some ctxHop1 ∧ s.hopDue ctxHop1 0 = true ∧ s.hopSend 0 d (ctxHop1.nextHop % d.n) = true ∧ ctxHop1.nextHop % d.n = 1 ∧
      s.ringHead d = some (2, ringChain, ringOp) ∧ w.ringHead d = some (2, ringChain, ringOp) ∧ w.colGroup d.ngroup = some group3 := by
  decide +kernel
theorem test_wit_hop_deferred : let s := ring 5000 ctx1 [] []; let d := s.groupDesc ctx1.desc
    s.hopDue ctx1 0 = true ∧ d.period ≠ 0 ∧ s.hopSend 0 d 0 = true ∧
      (s.ringLink d).any (fun l => if ctx1.late then s.syncState l != sySynced else s.beyondGuard l) = true := by decide +kernel
theorem test_wit_ring_timeout : let x := ctxHop1; let s := ring 0 x [] []; let d := s.groupDesc x.desc
    s.group 0 = some x ∧ d.pattern = 1 ∧ x.hop % d.n + 1 < d.n ∧ s.blockHere x d (x.hop % d.n + 1) = false ∧
      0 + d.timeout ≤ s.sundial ∧ (s.task x.task).isSome = true := by decide +kernel
theorem test_wit_piece_timeout : let s := { decode with tasks := [(1, task1)], sundial := 10 ^ 9 }; let d := s.groupDesc ctx1.desc
    s.group 0 = some ctx1 ∧ (s.task ctx1.task).isSome = true ∧ d.pattern = 0 ∧ ctx1.tag.isSome = true ∧ ctx1.lacks d 0 0 = true ∧
      ctx1.headTick + d.timeout ≤ s.sundial := by decide +kernel
/-- Link 1 is SYNCED again; the ring's hop, or the head of chain 2, waits for it. -/
def hopWaits : State := (ring 5000 { ctx1 with late := true } [] []).setFld Fld.SDL_LINK_SYNC_STATE 1 sySynced
theorem test_wit_deferred_hop : hopWaits.syncState 1 = sySynced ∧ hopWaits.groups = [(0, { ctx1 with late := true })] ∧
    hopWaits.ringLink (hopWaits.groupDesc ctx1.desc) = some 1 ∧
    ((ranTo (execHopLaunch 0 hopWaits) hopWaits).chains.all fun e => !e.2.deferred) = true := by decide +kernel
theorem test_wit_deferred_head : let x := { ringChain with deferred := true }
    let s := { (fabric State.reset).setFld Fld.SDL_LINK_SYNC_STATE 1 sySynced with chains := [(2, x)], colGroups := [(3, group3)] }
    s.syncState 1 = sySynced ∧ s.groups = [] ∧ x.headOp = some ringOp ∧ s.colGroup ringOp.group = some group3 ∧
      (s.opLinks ringOp group3).contains 1 = true := by decide +kernel

theorem test_wit_buffer_release : let s := { fabric State.reset with colGroups := [(3, group3)], chains := [(2, chain0 8)], colIn := [shifted] }
    s.colGroup 3 = some group3 ∧ s.shiftOp 3 = some (2, opDesc0 8) ∧ s.ops = [] ∧ s.colIn = [shifted] ∧ s.group 0 = none ∧
      (opDesc0 8).notifies = false := by decide +kernel

/-- A chain whose only operation, yet to fire, takes fused drains. -/
def fusedOp : OpDesc := { opDesc0 3 with oflags := 1, ncells := 1, cells := [0] }
def draining1 : State := { withCell { running 0 with drains := [⟨[⟨0, 64⟩], 2 ^ 29 + 5, 0, []⟩] } with
  colGroups := [(3, group3)], chains := [(2, { chain0 3 with ops := [fusedOp] })] }
theorem test_wit_drain_land : ((draining1.drainSinks 5).map fun e => e.1) = [.waiting 2 0] ∧
    ((draining1.drainSinks 5).all fun e => !(e.2.1.refusesDrain group3 0 0 64) &&
      !(hasLanded e.2.2.1 e.2.2.2 0 (e.2.1.cells.findIdx (· == 0)))) = true ∧
    ((draining1.cell 0).drains.all fun d => (draining1.storeBytes (fusedOp.contribAddr 0 0) (draining1.drainBytes 0 d)).2.isNone) = true := by
  decide +kernel

/-! ### Indexes and queries -/

/-- A list directory of one list of `n` entries in region 0 (R198). -/
def dirBytesAt : Nat := 0x100000A0000
def withDirs (s : State) : State := (s.writeLe dirBytesAt 8 0x10000200000).writeLe (dirBytesAt + 8) 8 0x10000300000
def idxCreate (live cap : Nat) : Nat := entry 0x20 0 (live + 1 * 2 ^ 16 + cap * 2 ^ 32 + dirBytesAt * 2 ^ 64)
def takesCreate (live cap : Nat) : Bool := takes (kvm (withDirs State.reset) [idxCreate live cap]) 0x20 fun c u =>
    c.cleanFrom 24 && c.seqNo == 0 && c.arg 9 1 == 0 && c.arg 14 2 == 0 && c.arg 10 2 == 1 && c.arg 8 1 == live &&
      c.arg 12 2 == cap && (u.listDirs 0 (c.arg 16 8) (c.arg 10 2)).isSome && (Table.freeKey u.indexes 4096 0).isSome
theorem test_wit_idx_create : takesCreate 0 0 = true ∧ takesCreate 1 64 = true := by decide +kernel
def corpus1 : Index := ⟨0, false, 0, 1, [⟨[⟨0x10000200000, 0x10000300000, 0, 0⟩], 0⟩], none, none, none, [], 0, none, false⟩
def live2 : Index := ⟨0, true, 64, 1, [], none, none, none, [LiveList.fresh 0 0 (ListDir.none 0)], 0, none, false⟩
def indexed (x : Index) (cmd : Nat) : State := { kvm (withDirs State.reset) [cmd] with indexes := [(6, x)] }
def batchOn6 : RBatch := ⟨0, none, 6, 0, 0, 0, 0, 0, 0, 0, [], 0, 0, none, 0⟩
theorem test_wit_idx_destroy : takes (indexed corpus1 (entry 0x21 0 6)) 0x21 (fun c u => c.seqNo == 0 && c.cleanFrom 10 &&
      decide (u.plotIndex 0 (c.arg 8 2) = some corpus1) && !u.indexUsed (c.arg 8 2)) = true ∧
    takes { indexed corpus1 (entry 0x21 0 6) with rbatches := [(1, batchOn6)] } 0x21 (fun c u => u.indexUsed (c.arg 8 2)) = true ∧
    takes (indexed corpus1 (entry 0x21 0 5)) 0x21 (fun c u => c.cleanFrom 10 && (u.plotIndex 0 (c.arg 8 2)).isNone) = true := by
  decide +kernel
theorem test_wit_idx_stage : takes (indexed corpus1 (entry 0x22 0 (6 + dirBytesAt * 2 ^ 64))) 0x22 (fun c u =>
    c.seqNo == 0 && c.cleanFrom 24 && c.arg 10 6 == 0 && decide (u.plotIndex 0 (c.arg 8 2) = some corpus1) &&
      (u.listDirs 0 (c.arg 16 8) 1).isSome) = true := by decide +kernel
def staged1 : Index := { corpus1 with staged := some [⟨0x10000200000, 0x10000300000, 0, 0⟩] }
theorem test_wit_idx_swap : takes (indexed staged1 (entry 0x23 0 (6 + 1000 * 2 ^ 64))) 0x23 (fun c u =>
      c.seqNo == 0 && c.cleanFrom 24 && c.arg 10 6 == 0 && decide (u.plotIndex 0 (c.arg 8 2) = some staged1) &&
        decide (u.sundial + 1000 ≤ c.arg 16 8)) = true ∧
    takes (indexed staged1 (entry 0x23 0 (6 + 999 * 2 ^ 64))) 0x23 (fun c u => decide (c.arg 16 8 < u.sundial + 1000)) = true := by
  decide +kernel
def insertCmd : Nat := entry 0x24 0 (6 + 77 * 2 ^ 64 + dirBytesAt * 2 ^ 128)
def fullLive : Index := { live2 with sideCap := 0 }
theorem test_wit_insert : takes (indexed live2 insertCmd) 0x24 (fun c u => c.seqNo == 0 && c.cleanFrom 32 && c.arg 12 4 == 0 &&
      decide (u.plotIndex 0 (c.arg 8 2) = some live2) && c.arg 10 2 == 0 && u.ownsRange 0 (c.arg 24 8) 32 &&
      (live2.append 0 (u.loadLe (c.arg 24 8) 32) (c.arg 16 8) u.sundial).isSome) = true ∧
    takes (indexed fullLive insertCmd) 0x24 (fun c u =>
      (fullLive.append 0 (u.loadLe (c.arg 24 8) 32) (c.arg 16 8) u.sundial).isNone) = true := by decide +kernel
theorem test_wit_delete : takes (indexed live2 (entry 0x25 0 (6 + 77 * 2 ^ 64))) 0x25 (fun c u => c.seqNo == 0 && c.cleanFrom 24 &&
    c.arg 12 4 == 0 && decide (u.plotIndex 0 (c.arg 8 2) = some live2) && (live2.bury 0 (c.arg 16 8) u.sundial).isSome) = true := by
  decide +kernel
theorem test_wit_compact : takes (indexed live2 (entry 0x26 0 (6 + 0xFFFF * 2 ^ 16))) 0x26 (fun c u => c.seqNo == 0 &&
    c.cleanFrom 12 && decide (u.plotIndex 0 (c.arg 8 2) = some live2) && c.arg 10 2 == 0xFFFF) = true := by decide +kernel
theorem test_wit_append_bury : (live2.append 0 5 6 7).isSome = true ∧ (live2.bury 0 6 7).isSome = true := by decide +kernel

theorem test_wit_index_swap : let x := { staged1 with swap := some (10, 3) }
    let s := { indexed x 0 with sundial := 10 }
    s.index 6 = some x ∧ 10 ≤ s.sundial ∧ (indexed x 0).sundial < 10 := by decide +kernel
def wanting : LiveList := { LiveList.fresh 0 0 (ListDir.none 0) with wanted := true }
theorem test_wit_compaction : let x := { live2 with lists := [wanting] }; let s := indexed x 0; let v : BaseVersion := ⟨ListDir.none 0, 0, []⟩
    s.index 6 = some x ∧ x.lists[0]? = some wanting ∧ wanting.versions = [v] ∧
      (s.writeBase x.plot wanting.region wanting.lastStamp (s.compacted wanting v wanting.lastStamp)).isSome = true := by decide +kernel
theorem test_wit_version_release : let v : BaseVersion := ⟨ListDir.none 0, 0, []⟩
    let l := { LiveList.fresh 0 0 (ListDir.none 0) with versions := [{ v with tick := 9 }, v] }
    let s := indexed { live2 with lists := [l] } 0
    (s.index 6).isSome = true ∧ l.versions = [{ v with tick := 9 }, v] ∧
      s.versionUsed 6 (fun e => e.1 == 0 && e.2 == v.tick) = false := by decide +kernel
theorem test_wit_swap_release : let x := { corpus1 with corpus := [⟨[], 10⟩, ⟨[], 0⟩], owed := some 3 }; let s := indexed x 0
    s.index 6 = some x ∧ s.versionUsed 6 (fun e => e.2 == 0) = false := by decide +kernel

/-- A batch descriptor of one query on index 6, its entry behind it. -/
def batchAt : Nat := 0x100000B0000
def withBatch (s : State) : State :=
  let s := ((s.writeLe batchAt 2 6).writeLe (batchAt + 4) 2 1).writeLe (batchAt + 0x10) 8 (10 ^ 9)
  let s := s.writeLe (batchAt + 8) 8 (batchAt + 64)
  let e := batchAt + 64
  let s := ((s.writeLe (e + 0x38) 2 1).writeLe (e + 0x3B) 1 1).writeLe (e + 0x3C) 2 0xFFFF
  s.writeLe (e + 0x48) 8 0x100000C0000
def queryCmd : Nat := entry 0x27 0 batchAt
def querying (state : Nat) : State :=
  let s := { kvm (withBatch (withDirs State.reset)) [queryCmd] with indexes := [(6, corpus1)] }
  (s.setFld Fld.PLT_STATE_STATE 0 state).setFld Fld.BOOT_STATUS_STATE 0 bsService
theorem test_wit_query : takes (querying 1) 0x27 (fun c u => c.seqNo == 0 && c.cleanFrom 16 && u.inDramWindow 0 (c.arg 8 8) 64 &&
    u.batchOk 0 (c.arg 8 8) true && !(u.batchDesc (c.arg 8 8)).sharded && !(u.batchDesc (c.arg 8 8)).recalls &&
    (match u.batchIndex 0 (u.batchDesc (c.arg 8 8)) with
      | .ok k => k == 6
      | .error _ => false) &&
    (match u.takeBatch 0 (some c.id) 6 corpus1 (u.batchDesc (c.arg 8 8)) (u.batchDesc (c.arg 8 8)).root [0] with
      | .ok _ => true
      | .error _ => false)) = true := by decide +kernel
theorem test_wit_query_refused : takes (querying 2) 0x27 (fun c u => u.batchOk 0 (c.arg 8 8) true &&
    (match u.takeBatch 0 (some c.id) 6 corpus1 (u.batchDesc (c.arg 8 8)) (u.batchDesc (c.arg 8 8)).root [0] with
      | .ok _ => false
      | .error _ => true)) = true := by decide +kernel
/-- The batch as a multicast to its members carries it. -/
def shardMsg : InMsg := msg 0 3 ((withBatch State.reset).readBytes batchAt 192)
def sharding : State :=
  let s := (fabric (kvm State.reset [])).setFld Fld.BOOT_STATUS_STATE 0 bsService
  { s with plots := [(0, { plot0 with recv := 0x100000D0000 })], indexes := [(6, corpus1)], colGroups := [(3, group3)] }
theorem test_wit_sharded : let u := sharding.putBytes 0x100000D0000 shardMsg.data
    sharding.isSelf shardMsg.dest = true ∧ sharding.colGroup shardMsg.tag = some group3 ∧ sharding.hubHeld = false ∧
      shardMsg.malformed = false ∧ (group3.sender shardMsg.src none).isSome = true ∧ shardMsg.addr + shardMsg.data.length ≤ 0x100000 ∧
      (u.batchDesc 0x100000D0000).bytes ≤ shardMsg.addr + shardMsg.data.length ∧
      (match u.batchIndex 0 { u.batchDesc 0x100000D0000 with queries := 0x100000D0000 + 64 } with
        | .ok k => k == 6
        | .error _ => false) = true ∧
      (match u.takeBatch 0 none 6 corpus1 { u.batchDesc 0x100000D0000 with queries := 0x100000D0000 + 64 } 0 [0] with
        | .ok _ => true
        | .error _ => false) = true := by decide +kernel

def query1 : RQuery := ⟨batchAt + 64, 5, [], true, false, 0, 0, 0, [(0, 4096)], [(0, 0)], 1, false⟩
def batch1 : RBatch := { batchOn6 with queries := [query1], task := 1 }
def scanning (b : RBatch) : State := { querying 1 with rbatches := [(1, b)], tasks := [(1, task1)], sundial := 5 }
theorem test_wit_chunk : let s := scanning batch1
    let dirs := ((batch1.queries.zipIdx.filter fun e => [0].contains e.2 && e.1.status == 0).filterMap fun e =>
      (e.1.versions.find? fun v => v.1 == 0).bind fun v => corpus1.versionAt 0 v.2)
    let u := (((s.setFld Fld.RCL_STATUS_PLOT 0 batch1.plot).setIndex batch1.index corpus1).setRBatch 1 batch1).meterChunk batch1 0 dirs 4096
      (((corpus1.lists[0]?).map fun l => l.side.length).getD 0)
    s.fld Fld.RCL_STATUS_STATE 0 < 3 ∧ s.nextBatch 0 = some (1, batch1) ∧ s.index 6 = some corpus1 ∧
    s.nextPass 0 batch1 corpus1 = some (0, 4096, [0]) ∧ batch1.queries = [query1] ∧ query1.begun = true ∧ query1.status = 0 ∧
    s.poison = [] ∧ u.poison = [] := by decide +kernel
theorem test_wit_result_write : let q := { query1 with todo := [] }; let b := { batch1 with queries := [q] }
    (scanning b).rbatch 1 = some b ∧ b.aborted = none ∧ b.queries[0]? = some q ∧ q.ended = false ∧ b.sharded = false := by decide +kernel
theorem test_wit_shard_fires : let q := { query1 with todo := [] }; let b := { batch1 with queries := [q], flags := 1, group := 3 }
    let s := { scanning b with colGroups := [(3, group3)] }
    s.rbatch 1 = some b ∧ b.aborted = none ∧ b.queries[0]? = some q ∧ q.begun = true ∧ b.sharded = true ∧ 0 = b.fired ∧
      s.colGroup b.group = some group3 ∧ group3.err = none := by decide +kernel
theorem test_wit_snapshot : let q := { query1 with begun := false, todo := [(0, 0)] }; let b := { batch1 with queries := [q] }
    (scanning b).rbatch 1 = some b ∧ q.snap ≠ 0 ∧ q.ready (scanning b).sundial = true ∧
      ((scanning b).beginQuery corpus1 q).status = 0 := by decide +kernel
theorem test_wit_known_answer : (regs [(.RCL_STATUS, 0, 3)]).canonical = true ∧ (regs [(.RCL_STATUS, 0, 3)]).fld Fld.RCL_STATUS_STATE 0 = 3 := by
  decide +kernel
/-! ### Links and messages -/

def upLink (y : LinkPhy) : State := State.setPhy ({ State.reset.setFld Fld.LNK_STATUS_STATE 1 3 with clock := 20000 }) 1 y
def phy0 : LinkPhy := LinkPhy.off false
theorem test_wit_data_flit : (upLink phy0).linkUp 1 = true ∧ (upLink phy0).phy 1 = phy0 ∧ phy0.rx < 2 ^ 24 ∧ phy0.fresh + 1 < 32 ∧
    phy0.nak = false := by decide +kernel
theorem test_wit_link_ack : let y := { phy0 with tx := 3 }
    (upLink y).phy 1 = y ∧ 2 ≠ y.base ∧ (2 + 2 ^ 24 - y.base) % 2 ^ 24 ≤ y.inFlight := by decide +kernel
theorem test_wit_replay : let y := { phy0 with tx := 3 }
    y.inFlight ≠ 0 ∧ y.ackTick + 20000 ≤ (upLink y).clock ∧ y.replays < 7 ∧ 7 ≤ { y with replays := 7 }.replays := by decide +kernel
theorem test_wit_lane : (upLink phy0).canonical = true ∧
    widthOf (((upLink phy0).fld Fld.LNK_STATUS_LANE_FAIL 1 ||| 2 ^ (5 % 16)) ||| phy0.theirs) ≠ 0 := by decide +kernel
theorem test_wit_training : let s := (State.reset.setFld Fld.LNK_STATUS_STATE 1 lsTraining).setFld Fld.BOOT_STATUS_STATE 0 bsService
    s.linkState 1 = lsTraining ∧ s.mayTrain = true ∧ widthOf (0x8000 % 65536) ≠ 0 := by decide +kernel
theorem test_wit_retrain_end : let s := State.reset.setFld Fld.LNK_STATUS_STATE 1 lsRetrain
    s.linkState 1 = lsRetrain ∧ widthOf ((s.fld Fld.LNK_STATUS_LANE_FAIL 1 ||| 0 % 65536) ||| (s.phy 1).theirs) ≠ 0 := by decide +kernel
theorem test_wit_link_control : let s := State.reset.setFld Fld.LNK_STATUS_STATE 1 lsFallow
    s.privOk .pf0 = true ∧ s.linkState 1 = lsFallow ∧ s.bit Fld.LNK_CONTROL_DISABLE 1 = false ∧ (upLink phy0).linkUp 1 = true := by
  decide +kernel

def discover (l : Nat) : State := { (fabric State.reset).setFld Fld.LNK_STATUS_STATE l lsDiscovery with discovering := true, clock := 10 ^ 7 }
def partner1 (serial port : Nat) : Partner := ⟨false, true, true, 0, port, serial, 1, 0, 0, 0⟩
theorem test_wit_discovery_send : (discover 1).linkState 1 = lsDiscovery ∧ ((discover 1).phy 1).partner = none ∧
    ((discover 1).phy 1).sentTick = none ∧ ((discover 1).phy 1).heard + 10000000 ≤ (discover 1).clock := by decide +kernel
theorem test_wit_discovery_record : (discover 1).canonical = true ∧ (discover 1).hasCoord = true ∧
    (discover 1).bit Fld.BOOT_STATUS_KIND 0 = false ∧ isRack 1 = false := by decide +kernel
theorem test_wit_partner_good : (discover 1).checkPartner 1 (partner1 (Config.serial.toNat + 1) 0) = none := by
  have h : (partner1 (Config.serial.toNat + 1) 0).serial ≠ Config.serial.toNat := Nat.succ_ne_self _
  unfold State.checkPartner
  rw [if_neg h]
  decide +kernel
theorem test_wit_partner_loopback : (discover 1).checkPartner 1 (partner1 Config.serial.toNat 0) = some frLoopback := if_pos rfl
theorem test_wit_switch : (discover 2).linkState 2 = lsDiscovery ∧ ((discover 2).phy 3).switch = none ∧ ((discover 2).phy 0).partner = none ∧
    ((discover 2).phy 5).partner = none ∧ isRack 1 = false := by decide +kernel

/-- Plot 0's window served to the same plot of another chip. -/
def served : State := { fabric (kvm State.reset []) with frames := [(bufAt, { bufFrame with use := 0, epoch := 6 })] }
def at' (m : InMsg) (a epoch len : Nat) : InMsg := { m with addr := a, epoch := epoch, len := len }
theorem test_wit_fabric_write : let m := at' (msg 0 0 (List.replicate 16 1)) 0x10000070000 0 16
    served.hubHeld = false ∧ served.isSelf m.dest = true ∧ served.servesRange m.src m.plot m.addr m.data.length = true ∧
      served.epochFits m.src m.plot m.addr m.epoch = true ∧ served.trayShut m.addr m.data.length = false ∧
      (served.storeBytes m.addr m.data).2 = none ∧ served.firstPoison m.addr m.len = none := by decide +kernel
theorem test_wit_stale_epoch : served.servesRange 1 0 bufAt 16 = true ∧ served.epochFits 1 0 bufAt 5 = false ∧
    served.servesRange 1 0 0x10050000000 16 = true ∧ served.servesRange 1 1 bufAt 16 = false := by decide +kernel
/-- A tray that no longer fills shuts its layer blocks to writes (R132). -/
def shutTray : State := { fabric (kvm (withSeq seq1 2) []) with frames := [(trayAt, { bufFrame with use := 5 })] }
theorem test_wit_shut_tray : shutTray.servesRange 1 0 (trayAt + 0x1000) 16 = true ∧ shutTray.epochFits 1 0 (trayAt + 0x1000) 0 = true ∧
    shutTray.trayShut (trayAt + 0x1000) 16 = true := by decide +kernel
def asked (who : Requester) : Request := ⟨4, who, 0, 1, 0x1000, 16, [0xFFFF * 2 ^ 48 + pageAt], 0, 0⟩
theorem test_wit_read_reply : let s := moving { move1 with srcTier := 2, due := 16 } { fabric State.reset with reqs := [asked (.move 7)] }
    let m := msg 0 4 (List.replicate 16 1)
    s.reqs.find? (fun q => q.tag == m.tag && q.chip == m.src) = some (asked (.move 7)) ∧ m.gen = s.requesterTag (.move 7) ∧
      (s.entry 7).isSome = true ∧ m.stale = false ∧ m.op = 0 ∧ 9 ≠ s.requesterTag (.move 7) ∧
      m.gen = s.requesterTag (.stream 0 1 0 0 .data) ∧ State.reset.reqs.find? (fun q => q.tag == m.tag && q.chip == m.src) = none := by
  decide +kernel
theorem test_wit_write_answer : let q := asked (.commit 0 1)
    let s := { withSeq { seq1 with commit := some commit1 } 3 with reqs := [q] }; let m := msg 0 4 []
    s.reqs.find? (fun q => q.tag == m.tag && q.chip == m.src) = some q ∧ m.gen = s.requesterTag q.who ∧
      ((s.seq 0 1).bind (·.commit)) = some commit1 ∧ m.stale = false ∧ m.op = 0 := by decide +kernel
theorem test_wit_ready_notice : let m := msg 0x82000000 0 [0, 0]
    m.op = 0x82000000 ∧ Table.get decode.groups (m.plot % 8) = some ctx1 ∧ { decode with hubHeld := true }.hubHeld = true := by decide +kernel

/-! ### Collectives -/

def armAt : Nat := 0x100000E0000
/-- An ALL_GATHER over group 3 of 64-byte pieces. -/
def withOp (s : State) : State :=
  let w (s : State) (o n v : Nat) := s.writeLe (armAt + o) n v
  let s := w (w (w (w (w s 0 1 2) 2 1 3) 4 2 5) 6 2 1) 8 2 0xFFFF
  let s := w (w s 0x10 4 64) 0x18 1 1
  w (w (w s 0x1C 4 100000) 0x28 8 0x10000070000) 0x30 8 0x10000078000
def armable (cmd : Nat) : State := { fabric (kvm (withOp State.reset) [cmd]) with colGroups := [(3, group3)] }
def armCmd : Nat := entry 0x40 0 (0xFF + 1 * 2 ^ 8 + armAt * 2 ^ 64)
theorem test_wit_chain_arm : takes (armable armCmd) 0x40 (fun c u => c.cleanFrom 24 && c.seqNo == 0 && c.arg 10 6 == 0 &&
    c.arg 8 1 == 0xFF && c.arg 9 1 == 1 && u.ownsRange 0 (c.arg 16 8) 128 && u.opOk 0 (c.arg 16 8) 256 &&
      decide (u.freeChain (c.arg 8 1) = some 0)) = true := by decide +kernel
def gatherOp : OpDesc := (withOp State.reset).opDesc armAt
def chain2 : Chain := ⟨0, [gatherOp], 0, [], false, none⟩
def run2 : OpRun := ⟨9, 2, 0, gatherOp, 7, 5, none, 0, 0, 0, false, false, [], [], [], [], 0, false⟩
def chained (cmd : Nat) (ops : List OpRun) : State := { armable cmd with chains := [(2, chain2)], ops := ops }
theorem test_wit_chain_release : takes (chained (entry 0x41 0 2) []) 0x41 (fun c u => c.cleanFrom 10 && c.seqNo == 0 &&
      decide (u.ownChain 0 (c.arg 8 2) = some chain2)) = true ∧ chain2.releasing = none ∧
    takes (chained (entry 0x41 0 3) []) 0x41 (fun c u => (u.ownChain 0 (c.arg 8 2)).isNone) = true := by decide +kernel
theorem test_wit_op_abort : takes (chained (entry 0x42 0 2) []) 0x42 (fun c u => c.cleanFrom 10 && (u.ownChain 0 (c.arg 8 2)).isSome &&
      decide (u.chainOps (c.arg 8 2) = [])) = true ∧
    takes (chained (entry 0x42 0 2) [run2]) 0x42 (fun c u => decide (u.chainOps (c.arg 8 2) = [run2])) = true ∧
    takes (chained (entry 0x42 0 3) []) 0x42 (fun c u => (u.ownChain 0 (c.arg 8 2)).isNone) = true := by decide +kernel
theorem test_wit_col_trigger : let s := kvm State.reset []
    s.canonical = true ∧ s.plotReach (.vf 0) 0 = true ∧ (5 + 3 * 1024) % 1024 = 5 ∧ s.ownsCounter 0 5 = true ∧
      s.fld Fld.COL_COUNTER_COUNT 5 + 3 ≤ 65535 := by decide +kernel
def triggered : State := (chained 0 []).setFld Fld.COL_COUNTER_COUNT 5 1
theorem test_wit_op_fire : triggered.chain 2 = some chain2 ∧ chain2.headOp = some gatherOp ∧ triggered.colGroup gatherOp.group = some group3 ∧
    triggered.fireable 2 chain2 gatherOp group3 = true ∧ gatherOp.start = 0 ∧ triggered.ringShift gatherOp = false := by decide +kernel
theorem test_wit_op_fire_deferred : let d := { gatherOp with start := 10 }; let h := { chain2 with ops := [d] }
    let s := { triggered with chains := [(2, h)], sundial := 10 ^ 9, clock := 10 ^ 9 }
    s.chain 2 = some h ∧ h.headOp = some d ∧ s.fireable 2 h d group3 = true ∧ d.start ≤ s.sundial ∧ d.start ≠ 0 ∧
      s.ringShift d = false ∧ (s.opLinks d group3).any s.beyondGuard = true ∧
      (({ s with clock := 0 } : State).opLinks d group3).any ({ s with clock := 0 } : State).beyondGuard = false := by
  decide +kernel
def ringRun : OpRun := { run2 with op := fusedOp }
theorem test_wit_ring_chunk : let s := { chained 0 [ringRun] with sundial := 1 }
    s.op 9 = some ringRun ∧ ringRun.op.shape = 0 ∧ ringRun.failed = false ∧ s.colRuns = true ∧
      (((ringRun.op.sends group3).find? fun l => l.stage == 0 && l.piece == 1 && (0 : Nat) != stSite).any fun l =>
        (s.partsOf ringRun l).contains 0) = true := by decide +kernel
def gathered : ColIn := ⟨3, 7, 5, stDown, 1, 1, 0, 2, 0, List.replicate 64 0, 0, false⟩
def doneRun : OpRun := { run2 with sent := [⟨stDown, 0, 1, 0⟩] }
theorem test_wit_op_complete : let s := { chained 0 [doneRun] with colIn := [gathered] }
    (s.chainOps 2).head?.map (·.id) = some 9 ∧ s.opSettled doneRun group3 = true ∧ (s.results doneRun group3).isSome = true ∧
      doneRun.posted = 0 ∧ doneRun.failed = false ∧ s.sourcePoison doneRun (doneRun.op.resultSource group3) = none := by decide +kernel
theorem test_wit_op_close : let x := { doneRun with posted := 1 }; let s := chained 0 [x]
    s.op 9 = some x ∧ (s.chainOps 2).head?.map (·.id) = some 9 ∧ x.posted ≠ 0 ∧ x.failed = false ∧ s.colRuns = true := by decide +kernel
theorem test_wit_piece : let m := msg 0 (3 * 2 ^ 24) []
    (chained 0 []).isSelf m.dest = true ∧ (chained 0 []).group (m.plot % 8) = none ∧
      ((ring 0 ctx1 [] []).writeLe (gdescAt + 6) 1 2).group 0 = some ctx1 ∧
      (((ring 0 ctx1 [] []).writeLe (gdescAt + 6) 1 2).groupDesc ctx1.desc).pattern = 2 := by decide +kernel
theorem test_wit_ring_block : let s := ring 0 ctx1 [] []; let m := msg (8 * 2 ^ 24) (3 * 2 ^ 24) visiting.data
    s.hubHeld = false ∧ s.isSelf m.dest = true ∧ s.group (m.plot % 8) = some ctx1 ∧ (s.groupDesc ctx1.desc).pattern = 1 ∧
      (s.groupDesc ctx1.desc).ngroup = bitsAt m.tag 24 8 ∧ bitsAt m.op 24 8 = opShift ∧ m.addr = 0 ∧
      s.memberOf (bitsAt m.tag 24 8) m.src = some 1 ∧ some (blockHead m.data).tag = ctx1.tag ∧
      s.memberOf (bitsAt m.tag 24 8) 7 = none := by decide +kernel
theorem test_wit_credit : let m := msg 0x81000000 run2.tag []
    bitsAt m.tag 24 8 = 3 ∧ group3.sender m.src none = some 1 ∧ group3.plot = m.plot % 8 ∧ bitsAt m.tag 16 8 = group3.epoch ∧
      ([run2].find? fun x => x.tag == m.tag && x.op.opcode != opShift) = some run2 := by decide +kernel
theorem test_wit_frost : let m := msg 0 0 (leBytes 16 (2 + 3 * 2 ^ 8 + 7 * 2 ^ 16))
    leNat ((m.data.drop 1).take 1) = 3 ∧ group3.plot = m.plot ∧ leNat ((m.data.drop 2).take 1) = group3.epoch ∧
      (group3.sender m.src none).isSome = true ∧ leNat (((leBytes 16 (6 * 2 ^ 16)).drop 2).take 1) ≠ group3.epoch := by decide +kernel
theorem test_wit_col_timeout : let s := { chained 0 [run2] with sundial := 100000 }
    group3.err = none ∧ s.opTimer 3 group3 5 = some (0, 100000) ∧ s.lostDrains = [] ∧ s.colRuns = true := by decide +kernel
theorem test_wit_error_report : let e : ColErr := ⟨2, 7, 5, 1, 0, 0⟩
    let s := { State.reset with colGroups := [(3, { group3 with err := some e })], sundial := 5000 }
    s.canonical = true ∧ s.colGroup 3 = some { group3 with err := some e } ∧ e.first + 5000 ≤ s.sundial ∧ group3.plot < 8 ∧
      s.bit Fld.COL_ERROR_INFO_VALID group3.plot = false ∧ s.colRuns = true := by decide +kernel

/-! ### Field ports -/

def peer4 (endpoint : Bool) : Peer := ⟨endpoint, false, 0, 0, 0, 9, 47345, 1, 2, 0, 0, 1000⟩
def opened (st : Nat) (un : List Dgram) : State :=
  let s := (fabric (kvm State.reset [])).setFld Fld.FLD_STATUS_STATE 0 fpUp
  { s with peers := [(4, peer4 true)], conns := [(4, { Conn.closed with state := st, epoch := 3, unacked := un, since := some 0 })], clock := 10 ^ 8 }
def dgram (psn again : Nat) : Dgram := ⟨psn, Msg.to .write 7 0 9, true, 0, 0, again, none, none⟩
theorem test_wit_conn : (opened 1 []).canonical = true ∧ (opened 1 []).portUp 0 = true ∧ (opened 1 []).peer 4 = some (peer4 true) ∧
    (opened 1 []).heardFrom 0 4 true 3 = true ∧ ((opened 1 []).conn 4).state = cnOpening ∧
    ((opened 1 []).conn 4).lastOpen + 1000000 ≤ (opened 1 []).clock ∧ 3 ≠ (opened 1 []).fld Fld.BOOT_STATUS_MAJOR 0 := by decide +kernel
theorem test_wit_conn_open : (opened 2 []).heardFrom 0 4 true 3 = true ∧ ((opened 2 []).conn 4).state = cnOpen ∧
    ((opened 2 []).conn 4).since = some 0 ∧ ({ opened 2 [] with conns := [] }.conn 4).state = cnClosed := by decide +kernel
def dataDgram (psn : Nat) : DataDgram := ⟨4, true, 3, psn, false, false, 1, { msg 0 0 (List.replicate 16 1) with src := 9, addr := 0x10000070000 }⟩
theorem test_wit_afith_data : (opened 2 []).refusesDgram (peer4 true) (dataDgram 0) = false ∧ ((opened 2 []).conn 4).count + 1 < 16 ∧
    psnAbove 0 ((opened 2 []).conn 4).cum < connWindow ∧ ((opened 2 []).conn 4).landed.contains (0 % 2 ^ 32) = false ∧
    connWindow ≤ psnAbove 131072 ((opened 2 []).conn 4).cum := by decide +kernel
theorem test_wit_afith_ack : ∀ x, x ∈ ((opened 2 [dgram 6 0]).conn 4).unacked → 2 ^ 31 ≤ psnAbove x.psn 7 ∧ x.op = none ∧ x.command = none := by
  decide +kernel
theorem test_wit_resend : (((opened 2 [dgram 6 15]).conn 4).unacked.take connWindow).find? (fun d => d.psn == 6) = some (dgram 6 15) ∧
    (dgram 6 15).sent + (opened 2 [dgram 6 15]).resendAfter 4 ≤ (opened 2 [dgram 6 15]).clock := by decide +kernel
theorem test_wit_give_up : ((opened 2 [dgram 6 16]).conn 4).unacked ≠ [] ∧
    ((opened 2 [dgram 6 16]).conn 4).advanced + 100000000 ≤ (opened 2 [dgram 6 16]).clock ∧ 16 ≤ (dgram 6 16).again := by decide +kernel
def sendCmd : Nat := entry 0x50 0 (4 + 0x10000070000 * 2 ^ 64 + 64 * 2 ^ 128)
def sending (st : Nat) : State :=
  { kvm ((fabric State.reset).setFld Fld.FLD_STATUS_STATE 0 fpUp) [sendCmd] with
    peers := [(4, peer4 true)], conns := [(4, { Conn.closed with state := st, epoch := 3 })] }
theorem test_wit_fld_send : takes (sending 2) 0x50 (fun c u => c.cleanFrom 40 && c.seqNo == 0 && c.arg 9 7 == 0 && c.arg 28 4 == 0 &&
      decide (u.peer (c.arg 8 1) = some (peer4 true)) && u.ownsRange 0 (c.arg 16 8) (c.arg 24 4) && c.arg 24 4 == 64 &&
      decide ((u.conn (c.arg 8 1)).state = cnOpen) && (u.firstPoison (c.arg 16 8) (c.arg 24 4)).isNone) = true ∧
    takes (sending 1) 0x50 (fun c u => decide ((u.conn (c.arg 8 1)).state ≠ cnOpen)) = true := by decide +kernel

theorem test_wit_port_control : State.reset.bit Fld.FLD_CONTROL_DISABLE 0 = false ∧ State.reset.privOk .pf0 = true ∧
    (State.reset.setFld Fld.FLD_STATUS_STATE 0 fpTraining).fld Fld.FLD_STATUS_STATE 0 = fpTraining ∧ State.reset.peers = [] ∧
    (peer4 true).port % 2 = 0 := by decide +kernel
def ptpRoot : State :=
  let s := (State.reset.setFld Fld.FLD_STATUS_STATE 0 fpUp).setBit Fld.SDL_STATUS_ROOT 0 true
  { s.setBit Fld.FLD_PTP_STATUS_LOCKED 0 true with ptpUse := true, ptp := ⟨some 77, 15, 0, 0, 62500000⟩, clock := 10 ^ 9 }
theorem test_wit_ptp : let f : PtpSync := ⟨0, 77, 62500000, -1280⟩
    ptpRoot.canonical = true ∧ ptpRoot.isRoot = true ∧ f.domain = ptpRoot.ptpDomain ∧ 0 = ptpRoot.ptpPort ∧
      ptpRoot.ptp.master = some f.master ∧ f.offset.natAbs ≤ 1280 ∧ 15 ≤ ptpRoot.ptp.good ∧
      ptpRoot.ptp.last + 8 * ptpRoot.ptp.interval ≤ ptpRoot.clock := by decide +kernel
/-! ### Plots -/

/-- The mailbox holds a command for plot 0 and runs it; plot 0 is in a state. -/
def mbox (s : State) (st w : Nat) : State :=
  let s := (List.range 16).foldl (fun s i => s.setReg .HUB_MBOX_CMD i (BitVec.ofNat 32 (w / 2 ^ (32 * i)))) s
  ((s.setBit Fld.HUB_MBOX_STATUS_BUSY 0 true).setFld Fld.BOOT_STATUS_STATE 0 6).setFld Fld.PLT_STATE_STATE 0 st
/-- Whether the mailbox's command is one for plot 0 with its unused bytes zero. -/
def runsPlot (s : State) (op n : Nat) : Bool :=
  s.bit Fld.HUB_MBOX_STATUS_BUSY 0 && !s.hubHeld && s.bootedFw && s.mboxCommand.op == op && s.mboxCommand.plot == 0 &&
    s.mboxCommand.mboxClean n
/-- A plot record at host address 0x5000: block 0, 1 GiB of DRAM, rings at its base. -/
def recordBytes : List Byte :=
  leBytes 4 0 ++ leBytes 4 1 ++ leBytes 4 0 ++ leBytes 4 1 ++ leBytes 0x24 0 ++ leBytes 2 0x0606 ++ leBytes 6 (8 * 2 ^ 16) ++
    leBytes 4 0x100100 ++ leBytes 4 1 ++ leBytes 12 0 ++ leBytes 8 0x10000000000 ++ leBytes 8 0x10001000000 ++ leBytes 32 0
def record0 : PlotRecord := ⟨recordBytes⟩
def withRecord (s : State) : State := s.writeHost 0x5000 recordBytes
def creating0 (st : Nat) : State := mbox (withRecord State.reset) st (entry 1 0 0x5000)
theorem test_wit_plot_create : recordBytes.length = 128 ∧ runsPlot (creating0 0) 1 16 = true ∧
    (creating0 0).readHost ((creating0 0).mboxCommand.arg 8 8) 128 = record0.bytes := by decide +kernel
theorem test_wit_plot_create_record : (creating0 0).recordOk 0 record0 = true ∧ (creating0 0).sharesWindows 0 record0.build = false ∧
    ((maskBlocks record0.blocks).any fun b => ((creating0 0).ownerOfBlock b).isSome) = false ∧
    (creating0 0).fld Fld.PLT_STATE_STATE 0 = plFree ∧ (creating0 1).fld Fld.PLT_STATE_STATE 0 ≠ plFree := by decide +kernel
theorem test_wit_plot_set : let s := mbox State.reset 1 (entry 2 0 (0 + 0x100100 * 2 ^ 32)); let c := s.mboxCommand
    runsPlot s 2 16 = true ∧ c.arg 9 3 = 0 ∧ policyRegs[c.arg 8 1]? = some (.KVM_POLICY, 0x3C) ∧ s.policyStatus .KVM_POLICY 0 (c.arg 12 4) = 0 := by
  decide +kernel
theorem test_wit_plot_set_compat : let s := mbox State.reset 1 (entry 2 0 (5 + 1 * 2 ^ 32)); let c := s.mboxCommand
    runsPlot s 2 16 = true ∧ c.arg 9 3 = 0 ∧ c.arg 8 1 = 5 ∧ c.arg 12 4 ≤ 1 ∧
      (maskBlocks (s.fld Fld.PLT_BLOCKS_BLOCKS 0)).any s.blockBusy = false := by decide +kernel
def busyBlock0 (s : State) : State := (s.setFld Fld.PLT_BLOCKS_BLOCKS 0 1).setCell 3 { Cell.empty with task := some 1 }
theorem test_wit_plot_set_busy : let s := busyBlock0 (mbox State.reset 1 (entry 2 0 (5 + 1 * 2 ^ 32)))
    (maskBlocks (s.fld Fld.PLT_BLOCKS_BLOCKS 0)).any s.blockBusy = true ∧ runsPlot s 2 16 = true := by decide +kernel
theorem test_wit_plot_grow : let s := mbox State.reset 2 (entry 3 0 6)
    runsPlot s 3 12 = true ∧ ((maskBlocks (s.mboxCommand.arg 8 4)).any fun b => (s.ownerOfBlock b).isSome) = false := by decide +kernel
def shrinking (s : State) : State := (mbox s 1 (entry 4 0 2)).setFld Fld.PLT_BLOCKS_BLOCKS 0 3
theorem test_wit_plot_shrink : let s := shrinking State.reset; let t := shrinking { State.reset with tasks := [(1, { task1 with cells := [16] })] }
    runsPlot s 4 12 = true ∧ Nat.land (s.mboxCommand.arg 8 4) (s.fld Fld.PLT_BLOCKS_BLOCKS 0) = s.mboxCommand.arg 8 4 ∧
      s.blocksHeld 2 = false ∧ t.blocksHeld 2 = true ∧ runsPlot t 4 12 = true := by decide +kernel
def groupCmd (sites : Nat) : Nat := entry 9 0 (3 + 0x6000 * 2 ^ 64 + sites * 2 ^ 128)
def groupHost (l : List Byte) : State := (fabric State.reset).writeHost 0x6000 l
theorem test_wit_group_set : let s := mbox (groupHost (leBytes 2 2 ++ leBytes 2 1 ++ leBytes 2 (fabric State.reset).chipNo)) 1 (groupCmd 0)
    runsPlot s 9 32 = true ∧ s.mboxCommand.arg 9 7 = 0 ∧ s.mboxCommand.arg 24 8 = 0 ∧ s.colGroup 3 = none ∧ s.chains = [] ∧
      s.memberList (s.mboxCommand.arg 16 8) = [1, s.chipNo] ∧ (mbox State.reset 1 (groupCmd 0)).memberList 0x6000 = [] := by decide +kernel
theorem test_wit_group_set_sites : let s := mbox ((groupHost (leBytes 2 1 ++ leBytes 2 (fabric State.reset).chipNo)).writeHost 0x7000
      (leBytes 4 (2 + 1 * 2 ^ 8 + 9 * 2 ^ 16))) 1 (groupCmd 0x7000)
    runsPlot s 9 32 = true ∧ s.siteList (s.mboxCommand.arg 24 8) = (2, 1, [9, 0]) ∧ s.chipNo ∈ s.memberList 0x6000 := by decide +kernel
theorem test_wit_plot_stop : runsPlot (mbox State.reset 1 (entry 5 0 0)) 5 8 = true ∧ runsPlot (mbox State.reset 2 (entry 6 0 0)) 6 8 = true ∧
    plActive = 1 ∧ plStopped = 2 := by decide +kernel
def plot6 : Plot := record0.build
def resized : List Byte := recordBytes.take 0x0C ++ leBytes 4 2 ++ recordBytes.drop 0x10
def resizing : State :=
  let s := (State.reset.setFld Fld.PLT_BLOCKS_BLOCKS 0 1).setReg .KVM_POLICY 0 0x100100
  mbox { (s.setReg .KVM_DECAY 0 1).writeHost 0x5000 resized with plots := [(0, plot6)] } 2 (entry 7 0 0x5000)
theorem test_wit_plot_resize : runsPlot resizing 7 16 = true ∧ resizing.plot 0 = some plot6 ∧ resizing.readHost 0x5000 128 = resized ∧
    resized.take 8 = (resizing.plotRecord 0 plot6).take 8 ∧ resized.drop 0x34 = (resizing.plotRecord 0 plot6).drop 0x34 := by decide +kernel
theorem test_wit_plot_resize_ok : let q := (PlotRecord.mk resized).build
    q.rangesOk = true ∧ resizing.segmentsValid q = true ∧ (resizing.setPlot 0 q).areasOk 0 q = true ∧ resizing.sharesWindows 0 q = false ∧
      resizing.plotBusy 0 = false ∧ resizing.framesStranded 0 q = false := by decide +kernel
theorem test_wit_plot_destroy : let s := mbox (kvm State.reset []) 2 (entry 8 0 0)
    runsPlot s 8 8 = true ∧ (s.plot 0).isSome = true ∧ s.plotBusy 0 = false ∧ { s with tasks := [(1, task1)] }.plotBusy 0 = true := by
  decide +kernel

/-- A user table of one segment at its handle: LO, E, NSEG. -/
def tableAt : Nat := 0x100000C0000
def loadTable (op : Nat) (n : Nat) : State := (kvm State.reset [entry op 0 (1 + n * tableAt * 2 ^ 64)])
theorem test_wit_sfu_load : takes (loadTable 0x70 1) 0x70 (fun c u => c.cleanFrom 24 && c.seqNo == 0 && c.arg 9 7 == 0 &&
    decide (c.arg 8 1 < 4) && u.ownsRange 0 (c.arg 16 8) 32 && tableOk (u.loadBytes (c.arg 16 8) 16) && (u.plot 0).isSome &&
    !(maskBlocks (u.fld Fld.PLT_BLOCKS_BLOCKS 0)).any u.blockBusy) = true := by decide +kernel
theorem test_wit_sfu_load_busy : takes (busyBlock0 (loadTable 0x70 1)) 0x70 (fun c u => c.cleanFrom 24 &&
    (maskBlocks (u.fld Fld.PLT_BLOCKS_BLOCKS 0)).any u.blockBusy) = true := by decide +kernel
theorem test_wit_sfu_unload : takes (loadTable 0x71 0) 0x71 (fun c u => c.cleanFrom 9 && c.seqNo == 0 && decide (c.arg 8 1 < 4) &&
    (u.plot 0).isSome && !(maskBlocks (u.fld Fld.PLT_BLOCKS_BLOCKS 0)).any u.blockBusy) = true ∧
    takes (busyBlock0 (loadTable 0x71 0)) 0x71 (fun _ u => (maskBlocks (u.fld Fld.PLT_BLOCKS_BLOCKS 0)).any u.blockBusy) = true := by
  decide +kernel
/-! ### Starts -/

def powered (st : Nat) : State :=
  { State.reset.setFld Fld.BOOT_STATUS_STATE 0 st with boot := { Boot.off with seqOk := true, perst := true, region := some 0 }, pcieGen := 5, pcieLanes := 16 }
theorem test_wit_power : State.reset.boot.seqOk = false ∧ (firstPass 6).isSome = true ∧ (powered 6).boot.seqOk = true ∧
    (powered 6).boot.tripped = false ∧ (powered 6).boot.perst = true ∧ (powered 6).canonical = true ∧ State.reset.canonical = true := by decide +kernel
theorem test_wit_perst_release : let s := { powered 6 with boot := { (powered 6).boot with perst := false } }
    s.boot.seqOk = true ∧ s.boot.tripped = false ∧ s.boot.perst = false := by decide +kernel
theorem test_wit_restart : (powered 6).arrives .pf0 = true ∧ (powered 6).privOk .pf0 = true := by decide +kernel
theorem test_wit_pcie_trained : (powered 1).pcieLost = false ∧ (powered 1).bootState = bsRom ∧ (powered 1).boot.region.isSome = true := by
  decide +kernel
def imaged (st : Nat) : State := ((powered st).setReg .BOOT_IMAGE_SIZE 0 4096).setReg .BOOT_IMAGE_LOW 0 0x10000
theorem test_wit_boot_go : (imaged 3).bootState = bsWait ∧ (imaged 3).imageRangeOk = true ∧ (imaged 3).boot.region = some 0 ∧
    (imaged 3).arrives .pf0 = true ∧ (imaged 3).privOk .pf0 = true := by decide +kernel
theorem test_wit_image_verified : (imaged 4).bootState = bsFetch ∧ (imaged 4).boot.imageOk = false ∧ (imaged 4).boot.region = some 0 := by
  decide +kernel
def nvm (low : Bool) (st : Nat) : State :=
  { (powered 1).setFld Fld.BOOT_NVM_STATE 0 st with boot := { (powered 1).boot with nvmLow := low }, clock := 5 * 10 ^ 9 }
theorem test_wit_nvm : (nvm false 1).boot.nvmLow = false ∧ (nvm false 1).fld Fld.BOOT_NVM_STATE 0 = 1 ∧ (nvm true 2).boot.nvmLow = true ∧
    (nvm true 2).fld Fld.BOOT_NVM_STATE 0 = 2 ∧ 5000000000 ≤ (nvm true 2).nvmHeld ∧ (nvm false 1).boot.region = some 0 := by decide +kernel

/-- A safety limit block (R419): no replay, one suspect, 1 ms, 90, 100 and 110 °C. -/
def limitBytes : List Byte :=
  let b : List Byte := leBytes 1 1 ++ leBytes 1 0 ++ leBytes 2 1 ++ leBytes 4 1000000 ++ leBytes 4 (90 + 100 * 2 ^ 8 + 110 * 2 ^ 16) ++ leBytes 48 0
  b ++ leBytes 4 (crc32c b)
/-- A minimal section of the seedbed (R378). -/
def minBytes : List Byte :=
  let b : List Byte := ascii "SEEDBED1" ++ leBytes 0x38 0 ++ limitBytes ++ leBytes (0xFFC - 0x80) 0
  b ++ leBytes 4 (crc32c b)
def image0 : SeedbedImage := ⟨minBytes, [], [], 0, 0, 0, [], 0, 0, false, [], [], [], [], 0, 0⟩
set_option maxRecDepth 100000 in
theorem test_wit_minimal_section : image0.minimal = some minBytes := by decide +kernel
theorem test_wit_no_minimal_section : ({ image0 with copy0 := [], copy1 := [] } : SeedbedImage).minimal = none := by decide +kernel
theorem test_wit_firmware_entry : let s := { powered 4 with boot := { (powered 4).boot with imageOk := true, seedDone := true, seed := none } }
    s.bootState = bsFetch ∧ s.boot.imageOk = true ∧ s.boot.seedDone = true ∧ (s.boot.seed.bind SeedbedImage.minimal) = none ∧
      (s.setBit Fld.BOOT_CONTROL_FORCE_SPARSE 0 true).bit Fld.BOOT_CONTROL_FORCE_SPARSE 0 = true := by decide +kernel
theorem test_wit_firmware_seed : let s := { powered 4 with boot := { (powered 4).boot with imageOk := true, seedDone := true, seed := some image0 } }
    s.bootState = bsFetch ∧ s.boot.imageOk = true ∧ s.boot.seedDone = true ∧ s.boot.seed = some image0 :=
  ⟨by decide +kernel, rfl, rfl, rfl⟩
theorem test_wit_training_seed : ({ powered 5 with boot := { (powered 5).boot with training := true, seed := some image0 } } : State).boot.seed =
    some image0 := rfl
theorem test_wit_training_done : let s := { powered 5 with boot := { (powered 5).boot with training := true, seed := some image0 } }
    s.bootState = bsFirmware ∧ s.boot.training = true ∧ s.bit Fld.BOOT_STATUS_KIND 0 = false ∧ lostRegions 1 0x100 ≠ 0 ∧
      (lostRegions 1 0x100).testBit 2 = true ∧
      (s.setBit Fld.BOOT_STATUS_KIND 0 true).bit Fld.BOOT_STATUS_KIND 0 = true := by decide +kernel

/-! ### Resets -/

def asked1 : ResetReq := ⟨1, 0x0A, 5, 0, none, [], 0⟩
/-- A reset of block 3 that ran. -/
def ran1 : ResetReq := ⟨2, 0x0A, 3, 0, none, [], 0⟩
theorem test_wit_reset_due : let s := { powered 6 with resets := [asked1], resetsRun := [ran1] }
    s.resets = [asked1] ∧ s.chipWait = none ∧ s.replay = none ∧ s.canonical = true ∧ s.resetsRun.any (·.takesIn asked1) = false := by
  decide +kernel
theorem test_wit_safe_reset : let v : W32 := BitVec.ofNat 32 (5 + 0x0A * 2 ^ 16 + 1 * 2 ^ 29)
    (powered 6).fld Fld.PWR_STATE_STATE 0 ≠ 3 ∧ bitsAt v.toNat 16 8 = 0x0A ∧ bitsAt v.toNat 29 3 = 1 ∧ (powered 6).resets = [] ∧
      bitsAt (0 : W32).toNat 16 8 ≠ 0x0A := by decide +kernel
theorem test_wit_release : let s := ((powered 6).setFld Fld.SAFE_STATUS_STATE 0 3).setFld Fld.SAFE_STATUS_REGION_OOS 0 4
    s.fld Fld.SAFE_STATUS_STATE 0 = 3 ∧ (s.fld Fld.SAFE_STATUS_REGION_OOS 0).testBit 2 = true ∧ s.resets = [] ∧ s.arrives .pf0 = true := by
  decide +kernel
def suspect1 : Suspect := ⟨0, 7, 100, 1000, [5]⟩
def replaying : State :=
  { powered 6 with replay := some ⟨asked1, [suspect1], [], 0, []⟩, safety := ⟨true, 1, 1000000, 90, 100, 110⟩ }
def replay1 : Replay := ⟨asked1, [suspect1], [], 0, []⟩
def run0 : ResetRun := ⟨[], 0, 0, []⟩
theorem test_wit_replay_verdict : replaying.replay = some replay1 ∧ replay1.suspects = [suspect1] ∧ replaying.chipWait = none ∧
    10 < replaying.replayLimit replay1 suspect1 := by decide +kernel
theorem test_wit_replay_guilty : let q := { asked1 with cause := 0x0D, tick := replaying.sundial, asked := replaying.clock, ended := [] }
    (((replaying.verdict 72 suspect1 0).resetDown run0 q).resetUp run0 q).bootState = bsService := by decide +kernel
theorem test_wit_heartbeat : (powered 6).hubHeld = false ∧ (powered 6).firmwareRuns = true := by decide +kernel
theorem test_wit_cooling : let s := { powered 6 with coolSince := some 5, cooling := true, sundial := 10 ^ 9 + 5 }
    s.coolSince = some 5 ∧ 5 + 1000000000 ≤ s.sundial ∧ s.isFallow = false := by decide +kernel
theorem test_wit_relock : let s := { powered 6 with hubLost := true, mainLost := true }
    let t := { powered 6 with hubLost := true, chipWait := some asked1 }
    s.hubLost = true ∧ s.mainLost = true ∧ s.chipWait = none ∧ t.hubLost = true ∧ t.mainLost = false ∧ t.chipWait = some asked1 := by
  decide +kernel
theorem test_wit_region_pll : (powered 6).fld Fld.PWR_STATE_STATE 0 ≠ 3 ∧
    ((powered 6).setFld Fld.PWR_STATE_STATE 0 3).fld Fld.PWR_STATE_STATE 0 = 3 ∧ (powered 6).resets = [] ∧
    (powered 6).boot.seqOk = true ∧ (powered 6).boot.perst = true := by decide +kernel

/-! ### Registers -/

def weightAt : Nat := Reg.offset .CEL_SFU_WEIGHT + 12
theorem test_wit_register_write : weightAt < viewSize ∧ weightAt % 4 = 0 ∧ Reg.atKey (baseOf weightAt / 4) = some (.CEL_SFU_WEIGHT, 3) ∧
    (powered 6).reaches .pf0 true .CEL_SFU_WEIGHT 3 = true ∧ (powered 6).writable .CEL_SFU_WEIGHT = true ∧ aliasOf weightAt = 0 ∧
    Reg.writeBits .CEL_SFU_WEIGHT true ≠ 0 := by decide +kernel
theorem test_wit_alias_write : ∀ k, k < 3 → aliasOf (weightAt + 0x4000 * (k + 1)) = k + 1 ∧
    Reg.atKey (baseOf (weightAt + 0x4000 * (k + 1)) / 4) = some (.CEL_SFU_WEIGHT, 3) ∧ Reg.accBits .CEL_SFU_WEIGHT .rw true ≠ 0 ∧
    Nat.land (1 : W32).toNat (Reg.accBits .CEL_SFU_WEIGHT .wo true) = 0 ∧ Nat.land (1 : W32).toNat (Reg.accBits .CEL_SFU_WEIGHT .w1l true) = 0 := by
  decide +kernel
theorem test_wit_foreign_register : (powered 6).arrives (.vf 0) = true ∧ (powered 6).reaches (.vf 0) false .ADM_REFUSE_COUNT 1 = false ∧
    (powered 6).ownerOf .ADM_REFUSE_COUNT 1 ≠ .free ∧ (powered 6).reaches (.vf 0) false .CEL_SFU_WEIGHT 511 = false ∧
    (powered 6).ownerOf .CEL_SFU_WEIGHT 511 = .free := by decide +kernel
def countAt : Nat := Reg.offset .ADM_REFUSE_COUNT
theorem test_wit_rc_read : Reg.atKey (baseOf countAt / 4) = some (.ADM_REFUSE_COUNT, 0) ∧ (powered 6).hubHeld = false ∧
    aliasOf countAt = 0 ∧ perfAt countAt = none ∧ Reg.accBits .ADM_REFUSE_COUNT .rc true ≠ 0 ∧ countAt % 4 = 0 ∧ countAt < viewSize ∧
    (powered 6).reaches .pf0 true .ADM_REFUSE_COUNT 0 = true := by decide +kernel
theorem test_wit_no_register : (0xFFC < viewSize) ∧ 0xFFC % 4 = 0 ∧ Reg.atKey (baseOf 0xFFC / 4) = none ∧ perfAt 0xFFC = none := by
  decide +kernel
theorem test_wit_locks : (powered 6).bit Fld.HUB_CONFIG_STATUS_COMMITTED 0 = false ∧ (powered 6).privLocked = false ∧
    ((powered 6).setBit Fld.HUB_CONFIG_STATUS_COMMITTED 0 true).bit Fld.HUB_CONFIG_STATUS_COMMITTED 0 = true := by decide +kernel
theorem test_wit_scan : let s := { powered 6 with scanStart := some 5 }
    s.scanStart = some 5 ∧ s.canonical = true ∧ s.boot.seqOk = true := by decide +kernel
theorem test_wit_mbox_go : (powered 6).privOk .pf0 = true ∧ (powered 6).bit Fld.HUB_MBOX_STATUS_BUSY 0 = false ∧
    mboxKnown (powered 6).mboxCommand.op = false ∧ mboxKnown (mbox State.reset 0 (entry 5 0 0)).mboxCommand.op = true ∧
    (mbox State.reset 0 0).bit Fld.HUB_MBOX_STATUS_BUSY 0 = true := by decide +kernel
theorem test_wit_log_read : takes (kvm State.reset [entry 0x60 0 (bufAt * 2 ^ 64 + 4 * 2 ^ 128)]) 0x60 (fun c u =>
    c.cleanFrom 26 && c.seqNo == 0 && u.ownsRange 0 (c.arg 16 8) (16 + 32 * c.arg 24 2)) = true := by decide +kernel
theorem test_wit_log_read_mbox : let s := mbox State.reset 0 (entry 0x60 0 (0x5000 * 2 ^ 64 + 4 * 2 ^ 128))
    s.mboxCommand.op = 0x60 ∧ s.mboxCommand.mboxClean 26 = true ∧ s.bootedFw = true ∧ s.hubHeld = false := by decide +kernel
theorem test_wit_harvest_read : let s := { mbox State.reset 0 (entry 0x61 0 (1 + 2 * 2 ^ 8 + 0x5000 * 2 ^ 64)) with harvest := [(18, [1, 2])] }
    s.mboxCommand.op = 0x61 ∧ s.mboxCommand.mboxClean 24 = true ∧ s.mboxCommand.arg 10 6 = 0 ∧ s.mboxCommand.arg 8 1 = 1 ∧
      s.mboxCommand.arg 9 1 = 2 ∧ (Table.get s.harvest (16 * 1 + 2)).isSome = true := by decide +kernel

/-! ### Power -/

theorem test_wit_caps : ((List.range 4).map fun k => if k = 1 then 800 % 65536 else (powered 6).fld Fld.PWR_REGION_CAP_CAP k).sum ≤ 1830 ∧
    1830 < ((List.range 4).map fun k => if k = 1 then 2000 % 65536 else (powered 6).fld Fld.PWR_REGION_CAP_CAP k).sum := by decide +kernel
def fallow (n : Nat) : State := (powered 6).setFld Fld.PWR_STATE_STATE 0 n
theorem test_wit_fallow : (fallow 1).fld Fld.PWR_STATE_STATE 0 = 1 ∧ (fallow 2).fld Fld.PWR_STATE_STATE 0 = 2 ∧
    (fallow 3).fld Fld.PWR_STATE_STATE 0 = 3 ∧ (fallow 2).tasks = [] ∧ (fallow 2).rbatches = [] ∧
    (fallow 2).bit Fld.LNK_CONTROL_DISABLE 0 = false ∧ (fallow 2).arrives .pf0 = true := by decide +kernel
theorem test_wit_governor : ((powered 6).spendPeak 500).capNow 0 < 900 := by decide +kernel
theorem test_wit_excursion : let s := { powered 6 with excursion := [(10 ^ 9, 10000)], clock := 10 ^ 9 + 1 }
    10000 ≤ spentIn (s.excursion.filter fun e => decide (s.clock < e.1 + 100000000)) := by decide +kernel
theorem test_wit_droop : let s := { powered 6 with droopTick := some 5, clock := 2000000 }
    s.droopTick = some 5 ∧ 5 + 1000000 ≤ s.clock ∧ (powered 6).level2Long 1 = false ∧
      (s.setGovernor 1 { s.governor 1 with level2 := some 0 }).level2Long 1 = true := by decide +kernel
theorem test_wit_sensors : (List.replicate 36 (1600 : Int)).length = 36 ∧
    ((List.replicate 36 (1600 : Int)).all fun x => decide (-32768 ≤ x) && decide (x < 32768)) = true := by decide +kernel
theorem test_wit_trip : (powered 6).boot.tripped = false ∧ (125 : Int) ≤ 130 ∧
    (((powered 6).setFld Fld.PWR_GRAFT_STRAP 0 0x1000).fld Fld.PWR_GRAFT_STRAP 0).testBit 12 = true := by decide +kernel
theorem test_wit_management_bus : { powered 6 with boot := { (powered 6).boot with outputs := true } }.boot.outputs = true := by decide +kernel

/-! ### The store -/

/-- After reset the store holds zeros but for words derived from registers; its own CRC as the committed reference meets the invariant. -/
def committed : State :=
  let s := State.reset.setBit Fld.HUB_CONFIG_STATUS_COMMITTED 0 true
  s.setReg .HUB_CONFIG_REF 0 (BitVec.ofNat 32 s.storeCrc)
theorem test_wit_store_ref : committed.reg .HUB_CONFIG_REF 0 = BitVec.ofNat 32 committed.storeCrc := by
  unfold committed
  rw [State.storeCrc_setRef]
  exact State.reg_setReg_same _ _ _ _ (by decide +kernel)
theorem test_wit_store_committed : committed.bit Fld.HUB_CONFIG_STATUS_COMMITTED 0 = true ∧ committed.privOk .mgmt = true := by
  refine ⟨?_, rfl⟩
  have h : committed.fld Fld.HUB_CONFIG_STATUS_COMMITTED 0 = (State.reset.setBit Fld.HUB_CONFIG_STATUS_COMMITTED 0 true).fld
      Fld.HUB_CONFIG_STATUS_COMMITTED 0 := State.fld_setRef _ _ (by decide) (by decide)
  unfold State.bit; rw [h]; decide +kernel
theorem test_wit_store_canonical : committed.canonical = true := by
  have h : ∀ w, ((State.reset.setBit Fld.HUB_CONFIG_STATUS_COMMITTED 0 true).setReg .HUB_CONFIG_REF 0 w).canonical =
      Sparse.wf regReset ((State.reset.setBit Fld.HUB_CONFIG_STATUS_COMMITTED 0 true).setReg .HUB_CONFIG_REF 0 w).regs := by
    intro w; unfold State.canonical; simp only [Bool.and_assoc]; exact Bool.and_eq_left_iff_imp.mpr fun _ => rfl
  unfold committed
  exact (h _).trans (State.wf_setReg _ _ _ _ (by decide +kernel))
theorem test_wit_step : step { State.reset with pending := [] } = .next State.reset.tick ∧ State.reset.slew = 0 ∧ State.reset.canonical = true := by
  refine ⟨rfl, ?_, ?_⟩ <;> decide +kernel
/-! ### Ill-formed commands are refused (WellFormed) -/

def msgOk : InMsg := msg 0 0 []
def hostOk : HostMsg := ⟨9, 2, 0x55, 3⟩
theorem test_wf_mma_slot : (Instr.mma 0 0 { mmaOps with slot := 256 } .clean).wf = false ∧ (Instr.mma 0 0 mmaOps .clean).wf = true := by decide
theorem test_wf_tensor : (Instr.mma 0 0 { mmaOps with a := ⟨.e4m3, 2 ^ 32, none⟩ } .clean).wf = false := by decide
theorem test_wf_ecc : (Instr.ats 0 0 (.uncorrectable (2 ^ 48))).wf = false := by decide
theorem test_wf_vop : (Instr.vop 0 0 { vopOps with n := 65536 } .clean).wf = false ∧
    (Instr.vop 0 0 { vopOps with x := .tile 256 } .clean).wf = false := by decide
theorem test_wf_cvt : (Instr.cvt 0 0 { cvtOps with n := 65536 } .clean).wf = false := by decide
theorem test_wf_table_word : (Instr.sfnVectorGrant 0 (.uncorrectable 65536)).wf = false := by decide
theorem test_wf_check_lane : (Instr.checkLaneMismatch 0 128).wf = false := by decide
theorem test_wf_loop : (Instr.cellLoop 0 0 (2 ^ 32) 0).wf = false ∧ (Instr.cellJump 0 0 (2 ^ 32)).wf = false := by decide
theorem test_wf_sfu_test : (Instr.sfuLoadTest 0 ⟨2 ^ 32, true, true⟩ ⟨0, true, true⟩).wf = false := by decide
theorem test_wf_seq_number : (Instr.dibberDone 0 65536 none).wf = false ∧ (Instr.dibberDone 0 1 (some { hostOk with plot := 256 })).wf = false ∧ (Instr.commitPoint 0 65536).wf = false := by decide
theorem test_wf_walk_row : (Instr.walk 0 65536).wf = false ∧ (Instr.peerWalk hostOk 0 1 ⟨0, 0, 1, 1, false, false⟩ [⟨2 ^ 32, false⟩] []).wf = false := by decide
theorem test_wf_walk_args : (Instr.peerWalk hostOk 0 1 ⟨2 ^ 64, 0, 1, 1, false, false⟩ [] []).wf = false := by decide
theorem test_wf_recall : (Instr.peerWalk hostOk 0 1 ⟨0, 0, 1, 1, false, false⟩ [] [⟨256, 0, 0, 0, 0, 0⟩]).wf = false := by decide
theorem test_wf_host_msg : (Instr.hostFree { hostOk with plot := 256 } 0).wf = false ∧ (Instr.hostFree hostOk (2 ^ 64)).wf = false := by decide
theorem test_wf_host_reply : (Instr.hostingReply 0 0 (.handle (2 ^ 64))).wf = false ∧ (Instr.hostingReply 0 65536 .sealed).wf = false := by decide
theorem test_wf_message : (Instr.stepHeader { msgOk with vc := 256 }).wf = false ∧ (Instr.stepHeader msgOk).wf = true := by decide
theorem test_wf_message_data : (Instr.readReply { msgOk with len := 2 ^ 32 }).wf = false := by decide
theorem test_wf_chunk : (Instr.chunk 0 (.uncorrectable (2 ^ 48))).wf = false := by decide
theorem test_wf_move : (Instr.moveBytes 0 (.rmw (2 ^ 64))).wf = false := by decide
theorem test_wf_trailer_header : (Instr.trail 0 (List.replicate 129 0) .clean).wf = false := by decide +kernel
theorem test_wf_scrub_find : (Instr.scrubPassEnd 0 [⟨2 ^ 48, false, false⟩]).wf = false := by decide
theorem test_wf_sync_flit : (Instr.syncFlit 0 ⟨false, 0, 65536, 0, 0, 0, 0, 0⟩).wf = false := by decide
theorem test_wf_task_body : (Instr.admissionRequest 0 ⟨[(512, [])], [], [], none, none⟩).wf = false ∧
    (Instr.admissionRequest 0 ⟨[], [⟨0, 0, 0, 3, [], []⟩], [], none, none⟩).wf = false ∧
    (Instr.admissionRequest 0 ⟨[], [], [0], some 1, none⟩).wf = false := by decide
/-- A head map whose one head holds a key range, and one whose rows name a head that the cell does not hold (R73). -/
theorem test_wf_head_map : (HeadMap.mk 0 0 4 1 [⟨4, 8, 128⟩] [⟨4, 0, 255⟩]).wf = true ∧
    (HeadMap.mk 0 0 4 1 [⟨5, 8, 128⟩] [⟨4, 0, 255⟩]).wf = false ∧ (HeadMap.mk 0 0 4 1 [⟨4, 8, 128⟩] []).wf = false := by decide
theorem test_wf_stream_events : (Instr.page 0 (.uncorrectable (2 ^ 48))).wf = false ∧ (Instr.persistentRun 0 (.uncorrectable (2 ^ 48))).wf = false ∧
    (Instr.ringChunk 0 0 0 0 (.uncorrectable (2 ^ 48))).wf = false ∧ (Instr.opComplete 0 (.uncorrectable (2 ^ 48))).wf = false := by decide
theorem test_wf_flit : (Instr.dataFlit 0 (2 ^ 24) 0 false false true).wf = false ∧ (Instr.dataFlit 0 0 8 false false true).wf = false := by decide
theorem test_wf_link_control : (Instr.linkControlFlit 0 (.nak (2 ^ 24))).wf = false ∧ (Instr.laneFailure 0 16).wf = false ∧
    (Instr.trainingComplete 0 65536 0).wf = false := by decide
theorem test_wf_discovery : (Instr.discoveryRecord 0 ⟨false, false, false, 0, 0, 2 ^ 64, 0, 0, 0, 0⟩).wf = false ∧
    (Instr.switchRecord 0 0 256 0).wf = false := by decide
theorem test_wf_datagram : (Instr.afithData 0 ⟨0, true, 0, 2 ^ 32, true, false, 1, msgOk⟩).wf = false ∧
    (Instr.afithAck 0 ⟨0, true, 0, 0, 0, 2 ^ 64, false⟩).wf = false := by decide
theorem test_wf_ptp : (Instr.ptpSync 0 ⟨256, 0, 0, 0⟩).wf = false := by decide
theorem test_wf_sfu_run : (Instr.plotShrink [⟨32, ⟨0, true, true⟩, ⟨0, true, true⟩⟩]).wf = false := by decide
theorem test_wf_boot : (Instr.powerOn 65536 0).wf = false ∧ (Instr.powerOn 0 16).wf = false ∧ (Instr.memoryTrainingDone 16 0 []).wf = false ∧ (Instr.memoryTrainingDone 0 65536 []).wf = false := by
  decide
theorem test_wf_seedbed : (Instr.seedbedReadDone { image0 with copy0 := [], copy1 := [], ptpPort := 2 }).wf = false ∧
    (Instr.seedbedReadDone { image0 with copy0 := [], copy1 := [], groups := [⟨256, 0, [], 0, 0, []⟩] }).wf = false ∧
    (Instr.seedbedReadDone { image0 with copy0 := [], copy1 := [], ports := [⟨16, 0, 0, 0⟩] }).wf = false := by decide
theorem test_wf_reset_run : (Instr.domainReset ⟨[], 16, 0, []⟩).wf = false ∧ (Instr.domainReset ⟨[], 0, 0, [512]⟩).wf = false := by decide
theorem test_wf_register_offset : (Instr.registerWrite .pf0 true viewSize 0).wf = false ∧ (Instr.rcRead .pf0 true viewSize).wf = false := by decide
theorem test_wf_counter : (Instr.perfCounterRead .pf0 262144 0).wf = false ∧ (Instr.perfCounterRead .pf0 262143 0).wf = true := by decide
theorem test_wf_power : (Instr.governorSample 0 ⟨2 ^ 32, 0, 0, 0, 0, 0⟩).wf = false ∧ (Instr.droopLevel 0 4).wf = false ∧
    (Instr.railExcursion 16 true).wf = false ∧ (Instr.sensorRead (List.replicate 37 0)).wf = false := by decide
theorem test_wf_flip : (Instr.configScanStart [⟨16384, 1⟩]).wf = false ∧ (Instr.pcieTrained 6 17).wf = false := by decide

/-! ### The table's words -/

theorem test_no_word_spells_a_command : decodeTableWord 32 0x12345678 = none := by decide
theorem test_fetch_word_leaves_the_state : State.reset.withFetchWord 32 5 = State.reset := by decide +kernel

/-! ### Single steps worked from the manual -/

/-- The front command runs and leaves the queue (the row's cut). -/
theorem test_step_takes_the_front : (match step { powered 6 with pending := [.heartbeat, .slotMeter] } with
    | .next t => t.pending == [.slotMeter] && t.heartPin && t.fld Fld.HUB_HEARTBEAT_COUNT 0 == 1
    | _ => false) = true := by decide +kernel

/-- An empty queue: one tick (R269). -/
theorem test_step_idle_counts : (match step State.reset with
    | .next t => t.sundial == 1
    | _ => false) = true := by decide +kernel

/-- R33's example: 520 W for region 0 beside three caps of 457 W is ignored (1,891 W), beside three of 436 W it is taken (1,828 W). -/
def caps (a b : Nat) : State := (List.range 4).foldl (fun s r => s.setFld Fld.PWR_REGION_CAP_CAP r (if r = 0 then a else b)) (powered 6)
theorem test_caps_example : ((caps 457 457).writeCap 0 520).fld Fld.PWR_REGION_CAP_CAP 0 = 457 ∧
    ((caps 457 436).writeCap 0 520).fld Fld.PWR_REGION_CAP_CAP 0 = 520 := by decide +kernel

/-- 1.5 × 2 + 0.25 = 3.25 in FP32 (R53, R62), once the instruction has issued. -/
def vopOne (x : Fin 256) : State :=
  spad (spad (spad (withCell (running (word 0 x))) 0 4 0x3FC00000) 64 4 0x40000000) 128 4 0x3E800000
theorem test_vop_fused_multiply_add : ∀ x, (vopEffect 0 ⟨1, .spad 0, .spad 64, some (.spad 128), 256, none⟩ (vopOne x)).1.loadLe
    (spadBase 0 + 256) 4 = 0x40500000 := by decide +kernel

/-- CRC-32C of the nine digits, the code's published check value. -/
theorem test_crc32c_check : crc32c (ascii "123456789") = 0xE3069283 := by decide +kernel

/-- COL_TRIGGER adds STEPS to COUNTER (R317, R338). -/
theorem test_col_trigger_steps : (match exec (.colTrigger (.vf 0) 0 (5 + 3 * 1024)) (kvm State.reset []) with
    | .next t => t.fld Fld.COL_COUNTER_COUNT 5
    | _ => 0) = 3 := by decide +kernel

/-- A mailbox LOG_READ of an empty log: TAG, STATUS 0, RESULT the next SEQNO; DONE is set and BUSY cleared (R137, R421, R440). -/
theorem test_mailbox_completion : (match exec (.logRead none) { mbox State.reset 0 (entry 0x60 0 (0x5000 * 2 ^ 64 + 4 * 2 ^ 128)) with logSeq := 6 } with
    | .next t => t.reg .HUB_MBOX_RESULT 0 == 0x77 && t.reg .HUB_MBOX_RESULT 1 == 0 && t.reg .HUB_MBOX_RESULT 2 == 6 &&
        t.bit Fld.HUB_MBOX_STATUS_DONE 0 && !t.bit Fld.HUB_MBOX_STATUS_BUSY 0
    | _ => false) = true := by decide +kernel

/-- The set alias of an RW field sets bits and clears none (R429). -/
theorem test_alias_set : (match exec (.aliasWrite .pf0 true (weightAt + 0x4000) 2) ((powered 6).setReg .CEL_SFU_WEIGHT 3 1) with
    | .next t => (t.reg .CEL_SFU_WEIGHT 3).toNat == 3
    | _ => false) = true := by decide +kernel

/-- 101 °C with TEMP_THROTTLE at 100 °C: THROTTLE is set and every KEEP is 7 (R461, R464). -/
theorem test_hot_sensor_throttles : (match exec (.sensorRead (List.replicate 36 1616)) { (powered 6) with safety := ⟨false, 1, 1000000, 90, 100, 110⟩ } with
    | .next t => t.bit Fld.TMP_STATUS_THROTTLE 0 && t.fld Fld.ADM_REGION_STATE_KEEP 2 == 7 && t.fld Fld.TMP_STATUS_HOTTEST 0 == 101
    | _ => false) = true := by decide +kernel

/-- SDL_TIME_HIGH returns the half that the same agent's read of SDL_TIME_LOW latched (R270). -/
theorem test_sundial_latch : (match exec (.rcRead .pf0 true (Reg.offset .SDL_TIME_LOW)) { powered 6 with sundial := 7 * 2 ^ 32 + 9 } with
    | .next t => t.rdata == 9 && (match exec (.rcRead .pf0 true (Reg.offset .SDL_TIME_HIGH)) { t with sundial := 8 * 2 ^ 32 } with
        | .next u => u.rdata == 7
        | _ => false)
    | _ => false) = true := by decide +kernel

/-- TRAY_DISCARD of a tray in READY leaves it EMPTY (R132). -/
theorem test_tray_discard_empties : (match exec (.trayDiscard 0) (kvm (withSeq seq1 2) [entry 0x12 1 0]) with
    | .next t => t.trayState trayAt
    | _ => 9) = 0 := by decide +kernel
end Sys2Proof.Tests
end

section
/-!
Reset (R9). A register file that lists nothing reads the reset column of every register, whatever the instance; with that, what the
state after reset holds.
-/

namespace Sys2Proof.Machine
open Sys2Proof

/-- The word of a register instance lies at that instance, and at no other (R435). -/
theorem Reg.atKey_key {r : Reg} {i : Nat} (h : i < r.count) : Reg.atKey (Reg.key r i) = some (r, i) := by
  unfold Reg.atKey
  cases hf : Reg.all.find? fun q => decide (q.offset / 4 ≤ Reg.key r i) && decide (Reg.key r i < q.offset / 4 + q.count) with
  | none =>
    have hr := List.find?_eq_none.mp hf r (Reg.mem_all r)
    simp [Reg.key, h] at hr
  | some q =>
    have hq := List.find?_some hf
    simp only [Bool.and_eq_true, decide_eq_true_eq] at hq
    obtain ⟨hlo, hhi⟩ := hq
    have hj : Reg.key r i - q.offset / 4 < q.count := by omega
    have hkey : Reg.key r i = Reg.key q (Reg.key r i - q.offset / 4) := by unfold Reg.key at hlo ⊢; omega
    obtain ⟨rfl, hi⟩ := Reg.key_inj h hj hkey
    simp [← hi]

/-- An unlisted register instance holds its register's reset value (R9). -/
theorem regReset_key {r : Reg} {i : Nat} (h : i < r.count) : regReset (Reg.key r i) = BitVec.ofNat 32 r.reset := by
  simp [regReset, Reg.atKey_key h]

/-- A register reads its reset value after reset. -/
theorem State.reg_reset {r : Reg} {i : Nat} (h : i < r.count) : State.reset.reg r i = BitVec.ofNat 32 r.reset :=
  regReset_key h

/-- A field reads its bits of the register's reset value after reset. -/
theorem State.fld_reset (f : Fld) {i : Nat} (hi : i < f.reg.count) (hf : f.lo + f.width ≤ 32) :
    State.reset.fld f i = bitsAt f.reg.reset f.lo f.width := by
  unfold State.fld
  rw [State.reg_reset hi, bitsAt_ofNat _ _ _ hf]

/-- No sparse map of the state after reset lists anything. -/
theorem State.canonical_reset : State.reset.canonical = true := rfl

theorem State.cell_reset (c : Nat) : State.reset.cell c = Cell.empty := rfl

theorem State.stream_reset (i : Nat) : State.reset.stream i = none := rfl

theorem State.plot_reset (p : Nat) : State.reset.plot p = none := rfl

/-- Settles O60: the sparse maps and the tables list nothing, and each named field reads its reset column, which is 0. -/
theorem resetStateIsCanonicalAndIdle : Obligations.ResetStateIsCanonicalAndIdle := by
  refine ⟨State.canonical_reset, rfl, rfl, fun c hc => ⟨?cells, State.cell_reset c⟩,
    fun i hi => ⟨?streams, State.stream_reset i⟩, fun p hp => ⟨?plots, State.plot_reset p⟩, fun l hl => ?links,
    fun k hk => ?counters, ?boot⟩
  case cells => exact State.fld_reset Fld.CEL_STATE_STATE hc (by decide)
  case streams => exact State.fld_reset Fld.STM_STREAM_STATE_STATE hi (by decide)
  case plots => exact State.fld_reset Fld.PLT_STATE_STATE hp (by decide)
  case links => exact State.fld_reset Fld.LNK_STATUS_STATE hl (by decide)
  case counters => exact State.fld_reset Fld.COL_COUNTER_COUNT hk (by decide)
  case boot => exact State.fld_reset Fld.BOOT_STATUS_STATE (i := 0) (by decide) (by decide)

end Sys2Proof.Machine
end

section
/-!
Issue without a fault, for the matrix and vector instructions (R46, R60 to R63): an effect that changes nothing but its own cell, memory
and CEL_NUM_STATUS, followed by the entry in flight, is what the issue unit leaves. Settles O1 and O3.
-/

namespace Sys2Proof.Machine
open Sys2Proof

theorem State.canonical_regs {s : State} (h : s.canonical = true) : Sparse.wf regReset s.regs = true := by
  simp only [State.canonical, Bool.and_eq_true, and_assoc] at h
  exact h.1

theorem State.canonical_cells {s : State} (h : s.canonical = true) : Sparse.wf (fun _ => Cell.empty) s.cells = true := by
  simp only [State.canonical, Bool.and_eq_true, and_assoc] at h
  obtain ⟨-, -, -, -, hcells, -⟩ := h
  exact hcells

theorem State.wf_cells_setCell (s : State) (c : Nat) (x : Cell) (h : Sparse.wf (fun _ => Cell.empty) s.cells = true) :
    Sparse.wf (fun _ => Cell.empty) (s.setCell c x).cells = true := Sparse.wf_set _ _ _ _ h

/-- A word spelled with the opcode of a class is of that class (R64). -/
theorem isClass_of_opcode {k : Nat} {w : W128} (h : opcodeOf w = opcodeFor k) : isClass k w = true := by
  simp [isClass, h]

/-! ### What an instruction's own effect leaves as it was -/

/-- `u` comes from `s` by an effect of an instruction of cell `c`: memory, the cell's own state but its flight list, and CEL_NUM_STATUS
of the cell may have changed; the register file and the cells keep their canonical form. -/
structure CellEffect (c : Nat) (s u : State) : Prop where
  wfRegs : Sparse.wf regReset u.regs = true
  wfCells : Sparse.wf (fun _ => Cell.empty) u.cells = true
  inflight : (u.cell c).inflight = (s.cell c).inflight
  hostMem : u.hostMem = s.hostMem
  others : ∀ d, d ≠ c → u.cell d = s.cell d
  regs : RegsKept s u [(.CEL_NUM_STATUS, c)]

theorem CellEffect.refl (c : Nat) {s : State} (h : s.canonical = true) : CellEffect c s s :=
  ⟨State.canonical_regs h, State.canonical_cells h, rfl, rfl, fun _ _ => rfl, fun _ _ _ _ => rfl⟩

section
variable {c : Nat} {s u : State}

theorem CellEffect.spadWrite (h : CellEffect c s u) (off : Nat) (bs : List Byte) : CellEffect c s (u.spadWrite c off bs) :=
  ⟨h.wfRegs, h.wfCells, h.inflight, h.hostMem, h.others, h.regs⟩

theorem CellEffect.undefineBytes (h : CellEffect c s u) (a n : Nat) : CellEffect c s (u.undefineBytes a n) :=
  ⟨h.wfRegs, h.wfCells, h.inflight, h.hostMem, h.others, h.regs⟩

theorem CellEffect.setTiles (h : CellEffect c s u) (l : List (Nat × Tile)) :
    CellEffect c s (u.setCell c { u.cell c with tiles := l }) where
  wfRegs := h.wfRegs
  wfCells := u.wf_cells_setCell c _ h.wfCells
  inflight := by rw [State.cell_setCell_same u c _ h.wfCells]; exact h.inflight
  hostMem := h.hostMem
  others d hd := by rw [State.cell_setCell_other u _ hd, h.others d hd]
  regs := h.regs

theorem CellEffect.addNumFlags (h : CellEffect c s u) (hc : c < 512) (f : NumFlags) : CellEffect c s (u.addNumFlags c f) where
  wfRegs := u.wf_setReg _ _ _ h.wfRegs
  wfCells := h.wfCells
  inflight := h.inflight
  hostMem := h.hostMem
  others := h.others
  regs r i hi hr := by
    have hne : ¬(r = .CEL_NUM_STATUS ∧ i = c) := by simpa using hr
    exact (u.reg_setReg_other _ hc hi hne).trans (h.regs r i hi hr)

theorem mmaEffect_cellEffect (hs : s.canonical = true) (hc : c < 512) (o : MmaOps) : CellEffect c s (mmaEffect c o s).1 := by
  have h0 := CellEffect.refl c hs
  unfold mmaEffect
  by_cases hu : (s.cell c).tileUsable o.slot (decide (o.a.fmt = .int8)) = true
  · rw [if_pos hu]
    cases o.dst with
    | none => exact (h0.setTiles _).addNumFlags hc _
    | some d => exact ((h0.setTiles _).addNumFlags hc _).spadWrite _ _
  · rw [if_neg hu]
    cases o.dst with
    | none => exact h0
    | some d => exact h0.undefineBytes _ _

theorem vopEffect_cellEffect (hs : s.canonical = true) (hc : c < 512) (o : VopOps) : CellEffect c s (vopEffect c o s).1 :=
  ((CellEffect.refl c hs).spadWrite _ _).addNumFlags hc _

theorem cvtEffect_cellEffect (hs : s.canonical = true) (hc : c < 512) (o : CvtOps) : CellEffect c s (cvtEffect c o s).1 := by
  have h0 := CellEffect.refl c hs
  unfold cvtEffect
  cases o.dst.scales with
  | none => exact (h0.spadWrite _ _).addNumFlags hc _
  | some sc => exact ((h0.spadWrite _ _).spadWrite _ _).addNumFlags hc _

end

/-! ### The issue of an instruction that owes a check -/

/-- A cell whose instruction with plan `p` has just issued: the next word, and the entry at the end of the flight list (R63). -/
def Cell.issued (x : Cell) (w : W128) (p : IssuePlan) (flags : BitVec 4) (cycles : Nat) : Cell :=
  { x with
    next := x.next + 1
    inflight := x.inflight ++ [⟨x.next, p.exUnit, p.dst, p.slotDst ++ p.hold, fusedOf w, p.due, p.merging, p.release, flags⟩]
    held := x.held + cycles }

/-- Where nothing in flight may retire, retirement leaves every cell as it was. -/
theorem State.cell_retire_settled (s : State) (c d : Nat) (hw : Sparse.wf (fun _ => Cell.empty) s.cells = true)
    (h : ((s.cell c).inflight.head?.all fun f => f.due || f.merging) = true) : (s.retire c).cell d = s.cell d := by
  rw [State.retire, retireFrom_settled _ _ _ h]
  by_cases hd : d = c
  · subst hd; exact State.cell_setCell_same _ _ _ hw
  · exact State.cell_setCell_other _ _ hd

/-- An entry that owes a check keeps a settled flight list settled. -/
theorem settled_append {l : List InFlight} {f : InFlight} (hl : (l.head?.all fun f => f.due || f.merging) = true)
    (hf : f.due = true) : ((l ++ [f]).head?.all fun f => f.due || f.merging) = true := by
  cases l with
  | nil => simp [hf]
  | cons g l => simpa using hl

section
variable {c : Nat} {s : State} {w : W128} {p : IssuePlan} {eff : State → State × BitVec 4}

/-- The issued state before retirement: what the effect left, the cell's entry in flight, the cell RUNNING. -/
def issuedState (s : State) (c : Nat) (w : W128) (p : IssuePlan) (eff : State → State × BitVec 4) : State :=
  ((eff s).1.setCell c (((eff s).1.cell c).issued w p (eff s).2 (s.heldBy c p))).setFld Fld.CEL_STATE_STATE c csRunning

theorem State.issue_eq_retire (hi : Issues s c w p) : s.issue c w .clean p eff = (issuedState s c w p eff).retire c := by
  obtain ⟨hcan, hconf, hfault, -⟩ := hi
  exact s.issue_free c w p eff hcan hconf hfault

theorem cell_issuedState (he : CellEffect c s (eff s).1) :
    (issuedState s c w p eff).cell c = ((eff s).1.cell c).issued w p (eff s).2 (s.heldBy c p) :=
  State.cell_setCell_same _ _ _ he.wfCells

/-- Every cell after the issue of an instruction that owes a check reads as before retirement. -/
theorem State.cell_issue (hi : Issues s c w p) (hdue : p.due = true) (he : CellEffect c s (eff s).1) (d : Nat) :
    (s.issue c w .clean p eff).cell d = (issuedState s c w p eff).cell d := by
  rw [State.issue_eq_retire hi]
  refine State.cell_retire_settled _ c d (State.wf_cells_setCell _ _ _ he.wfCells) ?_
  obtain ⟨-, -, -, hhead⟩ := hi
  rw [cell_issuedState he]
  exact settled_append (he.inflight ▸ hhead) hdue

theorem State.cell_issue_same (hi : Issues s c w p) (hdue : p.due = true) (he : CellEffect c s (eff s).1) :
    (s.issue c w .clean p eff).cell c = ((eff s).1.cell c).issued w p (eff s).2 (s.heldBy c p) :=
  (State.cell_issue hi hdue he c).trans (cell_issuedState he)

theorem State.cell_issue_other (hi : Issues s c w p) (hdue : p.due = true) (he : CellEffect c s (eff s).1) {d : Nat} (hd : d ≠ c) :
    (s.issue c w .clean p eff).cell d = s.cell d := by
  rw [State.cell_issue hi hdue he, ← he.others d hd]
  exact State.cell_setCell_other _ _ hd

theorem State.mem_issue (hi : Issues s c w p) : (s.issue c w .clean p eff).mem = (eff s).1.mem := by
  rw [State.issue_eq_retire hi]; rfl

theorem State.hostMem_issue (hi : Issues s c w p) : (s.issue c w .clean p eff).hostMem = (eff s).1.hostMem := by
  rw [State.issue_eq_retire hi]; rfl

theorem State.poison_issue (hi : Issues s c w p) : (s.issue c w .clean p eff).poison = (eff s).1.poison := by
  rw [State.issue_eq_retire hi]; rfl

/-- The issue leaves the cell RUNNING (R79). -/
theorem State.cellState_issue (hi : Issues s c w p) (he : CellEffect c s (eff s).1) :
    (s.issue c w .clean p eff).fld Fld.CEL_STATE_STATE c = csRunning := by
  rw [State.issue_eq_retire hi]
  exact State.fld_setFld_same _ Fld.CEL_STATE_STATE c csRunning he.wfRegs (by decide)

/-- The issue itself writes no register but CEL_STATE of the cell. -/
theorem State.regs_issue (hi : Issues s c w p) (hc : c < 512) : RegsKept (eff s).1 (s.issue c w .clean p eff) [(.CEL_STATE, c)] := by
  intro r i hr hne
  have hne : ¬(r = .CEL_STATE ∧ i = c) := by simpa using hne
  rw [State.issue_eq_retire hi]
  exact State.reg_setFld_other _ Fld.CEL_STATE_STATE csRunning hc hr hne

/-- An instruction that is free to issue and owes a check enters flight (R63, R70, R71). -/
theorem State.issue_inFlightAfter (hc : c < 512) (hi : Issues s c w p) (hdue : p.due = true) (he : CellEffect c s (eff s).1) :
    InFlightAfter s c w p (eff s).1 (eff s).2 (s.issue c w .clean p eff) := by
  have hcell := State.cell_issue_same hi hdue he
  have hregs := State.regs_issue (eff := eff) hi hc
  refine ⟨by rw [hcell]; rfl, by rw [hcell]; rfl, State.cellState_issue hi he, State.mem_issue hi, ?host,
    fun d hd => State.cell_issue_other hi hdue he hd, hregs, ?regs⟩
  case host => rw [State.hostMem_issue hi, he.hostMem]
  case regs =>
    intro r i hr hne
    simp only [List.mem_cons, List.not_mem_nil, or_false, not_or] at hne
    obtain ⟨hstate, hnum⟩ := hne
    rw [hregs r i hr (by simpa using hstate), he.regs r i hr (by simpa using hnum)]

end

/-- A command of a class's own opcode answers the state of its issue. -/
theorem exec_mma {c : CellIx} {w : W128} (h : opcodeOf w = opcodeFor 0) (o : MmaOps) (s : State) :
    exec (.mma c w o .clean) s = .next (s.issue c.val w .clean (mmaPlan w o) (mmaEffect c.val o)) :=
  congrArg Host.Outcome.next (if_pos (isClass_of_opcode h))

theorem exec_vop {c : CellIx} {w : W128} (h : opcodeOf w = opcodeFor 1) (o : VopOps) (s : State) :
    exec (.vop c w o .clean) s = .next (s.issue c.val w .clean (vopPlan w o) (vopEffect c.val o)) :=
  congrArg Host.Outcome.next (if_pos (isClass_of_opcode h))

theorem exec_cvt {c : CellIx} {w : W128} (h : opcodeOf w = opcodeFor 2) (o : CvtOps) (s : State) :
    exec (.cvt c w o .clean) s = .next (s.issue c.val w .clean (cvtPlan w o) (cvtEffect c.val o)) :=
  congrArg Host.Outcome.next (if_pos (isClass_of_opcode h))

/-- Settles O1: each effect touches its own cell only, and each instruction owes a check when it issues. -/
theorem matrixAndVectorInstructionsEnterFlight : Obligations.MatrixAndVectorInstructionsEnterFlight := by
  intro s c w hs
  refine ⟨fun o hop hi => ⟨_, exec_mma hop o s, ?mma⟩, fun o hop hi => ⟨_, exec_vop hop o s, ?vop⟩,
    fun o hop hi => ⟨_, exec_cvt hop o s, ?cvt⟩⟩
  case mma => exact State.issue_inFlightAfter c.isLt hi rfl (mmaEffect_cellEffect hs c.isLt o)
  case vop => exact State.issue_inFlightAfter c.isLt hi rfl (vopEffect_cellEffect hs c.isLt o)
  case cvt => exact State.issue_inFlightAfter c.isLt hi rfl (cvtEffect_cellEffect hs c.isLt o)

/-! ### The accumulator tile of an MMA (R46, R61) -/

section
variable {c : Nat} {s : State}

/-- What issues without a fault has no reserved encoding (R78). -/
theorem State.issueFault_none_reserved {w : W128} {e : Ecc} {p : IssuePlan} (h : s.issueFault c w e p = none) : p.reserved = false := by
  cases hres : p.reserved with
  | false => rfl
  | true => simp [State.issueFault, hres] at h

/-- An MMA that issues forms at most 64 columns (R60). -/
theorem mma_cols_le {w : W128} {o : MmaOps} (hi : Issues s c w (mmaPlan w o)) : o.cols ≤ 64 := by
  obtain ⟨-, -, hfault, -⟩ := hi
  have hres := State.issueFault_none_reserved hfault
  simp [mmaPlan] at hres
  omega

/-- After entries are put into a table one by one, a key that they agree on holds their value; so does one that held it before. -/
theorem Table.get_foldl_put {α β : Type} (m : List (Nat × α)) (es : List (Nat × α × β)) {k : Nat} {v : α}
    (h : Table.get m k = some v ∨ ∃ e ∈ es, e.1 = k) (hv : ∀ e ∈ es, e.1 = k → e.2.1 = v) :
    Table.get (es.foldl (fun m e => Table.put m e.1 e.2.1) m) k = some v := by
  induction es generalizing m with
  | nil =>
    rcases h with h | ⟨e, he, -⟩
    · exact h
    · cases he
  | cons e es ih =>
    rw [List.foldl_cons]
    refine ih (Table.put m e.1 e.2.1) ?_ fun e' he' => hv e' (List.mem_cons_of_mem _ he')
    by_cases he : e.1 = k
    · exact .inl (by rw [he, Table.get_put_same, hv e List.mem_cons_self he])
    · rcases h with h | ⟨e', hmem, hk⟩
      · exact .inl (by rw [Table.get_put_other _ _ (Ne.symm he), h])
      · rcases List.mem_cons.mp hmem with heq | htail
        · exact absurd (heq ▸ hk) he
        · exact .inr ⟨e', htail, hk⟩

/-- The elements that an MMA of floating-point formats forms: for each row and column the accumulated group sums (R46). -/
theorem State.mem_mmaElems {o : MmaOps} (hf : o.a.fmt ≠ .int8) (t : Option Tile) (e : Nat × Nat × NumFlags) :
    e ∈ s.mmaElems c o t ↔ ∃ r < o.rows, ∃ j < o.cols,
      (64 * r + j, dotAcc (t.bind fun x => Table.get x.elems (64 * r + j)) (s.tensorRow c o.a r o.k) (s.tensorRow c o.b j o.k)) = e := by
  have hcol (j : Nat) (hj : j < o.cols) :
      ((List.range o.cols).map fun j => s.tensorRow c o.b j o.k).getD j [] = s.tensorRow c o.b j o.k := by simp [hj]
  simp only [State.mmaElems, hf, decide_false, Bool.false_eq_true, if_false, List.mem_flatMap, List.mem_map, List.mem_range]
  refine exists_congr fun r => and_congr_right fun _ => exists_congr fun j => and_congr_right fun hj => ?_
  rw [hcol j hj]

/-- Every element of the tile that an MMA of at most 64 columns has formed (R46, R61). -/
theorem State.get_mmaElems {o : MmaOps} (hf : o.a.fmt ≠ .int8) (hcols : o.cols ≤ 64) (t : Option Tile) (m : List (Nat × Nat))
    {r j : Nat} (hr : r < o.rows) (hj : j < o.cols) :
    Table.get ((s.mmaElems c o t).foldl (fun m e => Table.put m e.1 e.2.1) m) (64 * r + j) =
      some (dotAcc (t.bind fun x => Table.get x.elems (64 * r + j)) (s.tensorRow c o.a r o.k) (s.tensorRow c o.b j o.k)).1 := by
  refine Table.get_foldl_put m _ (.inr ⟨_, (State.mem_mmaElems hf t _).mpr ⟨r, hr, j, hj, rfl⟩, rfl⟩) fun e he hk => ?_
  obtain ⟨r', -, j', hj', rfl⟩ := (State.mem_mmaElems hf t e).mp he
  have hrow : r' = r := by simp at hk; omega
  have hcol : j' = j := by simp at hk; omega
  rw [hrow, hcol]

/-- The tile that an MMA leaves in usable slots: the elements formed put into what the tile held. -/
def State.mmaTile (s : State) (c : Nat) (o : MmaOps) : Tile :=
  let t := Table.get (s.cell c).tiles o.slot
  ⟨decide (o.a.fmt = .int8), (s.mmaElems c o t).foldl (fun m e => Table.put m e.1 e.2.1) ((t.map (·.elems)).getD [])⟩

/-- An MMA without a scratchpad destination, on usable slots: the tile and the numeric flags, nothing else. -/
theorem mmaEffect_noDst {o : MmaOps} (hd : o.dst = none)
    (hu : (s.cell c).tileUsable o.slot (decide (o.a.fmt = .int8)) = true) :
    ∃ f, (mmaEffect c o s).1 =
      (s.setCell c { s.cell c with tiles := Table.put (s.cell c).tiles o.slot (s.mmaTile c o) }).addNumFlags c f := by
  unfold mmaEffect
  rw [if_pos hu, hd]
  exact ⟨_, rfl⟩

/-- The tile in the slots of an MMA after its effect. -/
theorem mmaEffect_tile {o : MmaOps} (hs : s.canonical = true) (hd : o.dst = none)
    (hu : (s.cell c).tileUsable o.slot (decide (o.a.fmt = .int8)) = true) :
    Table.get ((mmaEffect c o s).1.cell c).tiles o.slot = some (s.mmaTile c o) := by
  obtain ⟨f, he⟩ := mmaEffect_noDst hd hu
  have hcell : (mmaEffect c o s).1.cell c =
      { s.cell c with tiles := Table.put (s.cell c).tiles o.slot (s.mmaTile c o) } := by
    rw [he]; exact State.cell_setCell_same _ _ _ (State.canonical_cells hs)
  rw [hcell]
  exact Table.get_put_same _ _ _

/-- An MMA without a scratchpad destination stores nothing. -/
theorem mmaEffect_memSame {o : MmaOps} (hd : o.dst = none)
    (hu : (s.cell c).tileUsable o.slot (decide (o.a.fmt = .int8)) = true) : MemSame s (mmaEffect c o s).1 := by
  obtain ⟨f, he⟩ := mmaEffect_noDst hd hu
  rw [he]
  exact ⟨rfl, rfl, rfl⟩

end

/-- Settles O3: the tile after the effect holds every element formed, and neither the issue nor the effect stores a byte. -/
theorem freshMatrixTileHoldsRoundedDotProducts : Obligations.FreshMatrixTileHoldsRoundedDotProducts := by
  intro s c w o hs hop hi hd hu hf
  refine ⟨_, exec_mma hop o s, fun r j hr hj => ?tile, ?mem⟩
  case tile =>
    rw [State.cell_issue_same hi rfl (mmaEffect_cellEffect hs c.isLt o)]
    show (Table.get ((mmaEffect c.val o s).1.cell c.val).tiles o.slot).bind _ = _
    rw [mmaEffect_tile hs hd hu]
    exact State.get_mmaElems hf (mma_cols_le hi) _ _ hr hj
  case mem =>
    obtain ⟨hmem, hhost, hpoison⟩ := mmaEffect_memSame hd hu
    exact ⟨(State.mem_issue hi).trans hmem, (State.hostMem_issue hi).trans hhost, (State.poison_issue hi).trans hpoison⟩

end Sys2Proof.Machine
end

section
/-!
What the service pair does with journal entries (R165, R168, R169, R171) and with signing jobs (R160, R216, R217), one lemma per case
of each command. Settles O27 and O30.
-/

namespace Sys2Proof.Machine
open Sys2Proof

/-- A service pair that runs does its duties (R26). -/
theorem State.byService_of_runs {s : State} (h : s.serviceRuns = true) (r : Res) : s.byService r = r := if_pos h

/-! ### Page moves -/

section
variable {s : State} {id a : Nat} {j : Journal} {q : Seqn}

section
variable (hrun : s.serviceRuns = true) (he : s.entry id = some j) (hq : s.seq j.plot j.seqNo = some q) (ha : j.dst = some a)
  (hcut : j.cut = false) (hdst : j.dstTier ≠ 2) (hstep : j.step = 2) (hdue : j.due = 0) (hsrc : j.srcTier ≠ 2)
include hrun he hq ha hcut hdst hstep hdue hsrc

/-- A local copy that is due is made and commits, its source unpoisoned (R169 steps 3 to 5). -/
theorem execPageMoveCommit_copies (hp : s.firstPoison j.srcAddr (formBytes q (s.pte q j.page)) = none) :
    execPageMoveCommit id s =
      .next ((s.putBytes a (s.loadBytes j.srcAddr (formBytes q (s.pte q j.page)))).commitMove j q a) := by
  rw [execPageMoveCommit, State.byService_of_runs hrun]
  simp [he, hq, ha, hcut, hdst, hstep, hdue, hsrc, hp]

/-- A local copy whose source is poisoned is recorded and rolled back (R171, R259). -/
theorem execPageMoveCommit_poisoned {line : Nat} (hp : s.firstPoison j.srcAddr (formBytes q (s.pte q j.page)) = some line) :
    execPageMoveCommit id s = .next ((s.recordEcc line 2 false).rollBack id) := by
  rw [execPageMoveCommit, State.byService_of_runs hrun]
  simp [he, hq, ha, hcut, hdst, hstep, hdue, hsrc, hp]

end

/-- A conversion of FP8 pages, page and projection unpoisoned, stores the cutting, shows its flags and commits (R53, R164, R165). -/
theorem execConvertToCutting_commits {pl : Plot} {c : CellIx} (hrun : s.serviceRuns = true) (he : s.entry id = some j)
    (hq : s.seq j.plot j.seqNo = some q) (hpl : s.plot j.plot = some pl) (ha : j.dst = some a) (hcut : j.cut = true)
    (hfp8 : fp8Pages q = true) (hown : s.ownerOfCell c.val = some j.plot) (hpage : s.firstPoison j.srcAddr (pageBytes q) = none)
    (htab : s.firstPoison (cutColumn pl.cutTab q (32 * (j.rank + 1)) (j.page / npages q) 0).1
      (cutTable q (32 * (j.rank + 1))) = none)
    {x : List Byte × NumFlags}
    (hx : x = s.cutting pl.cutTab q (32 * (j.rank + 1)) (j.page / npages q) (s.loadBytes j.srcAddr (pageBytes q))) :
    execConvertToCutting id c s = .next (((s.putBytes a x.1).addNumFlags c.val x.2).commitMove j q a) := by
  rw [execConvertToCutting, State.byService_of_runs hrun]
  simp [he, hq, hpl, ha, hcut, hfp8, hown, hpage, htab, hx]

/-- A reply with an old tag is only counted (R403). -/
theorem execHostingReply_stale {gen : Nat} (hg : gen ≠ s.chipTag) (r : HostReply) : execHostingReply id gen r s = .next s.countStale :=
  if_pos hg

section
variable (he : s.entry id = some j) (hsent : j.sent.isSome = true)
include he hsent

/-- A handle starts the copy to the peer (R169 step 3). -/
theorem execHostingReply_handle (hstep : j.step = 1) (h : Nat) :
    execHostingReply id s.chipTag (.handle h) s = .next (s.fillPeer j h) := by
  simp [execHostingReply, he, Option.isNone_eq_false_iff.mpr hsent, hstep]

/-- SEALED lets the entry commit (R169 step 4). -/
theorem execHostingReply_sealed (hstep : j.step = 3) :
    execHostingReply id s.chipTag .sealed s = .next (s.putJournal { j with step := 4, sent := none }) := by
  simp [execHostingReply, he, Option.isNone_eq_false_iff.mpr hsent, hstep]

/-- An answer to HOST_QUERY that shows the frame sealed at the entry's next epoch rolls the entry forward (R171). -/
theorem execHostingReply_frame (hq : s.seq j.plot j.seqNo = some q)
    (ha : j.dst = some a) (hstep : j.step = 5) :
    execHostingReply id s.chipTag (.frame true true ((j.epoch + 1) % 2 ^ 32)) s = .next (s.commitMove j q a) := by
  simp [execHostingReply, he, Option.isNone_eq_false_iff.mpr hsent, hstep, hq, ha]

/-- A refusal moves the entry on or rolls it back (R166, R171). -/
theorem execHostingReply_refused :
    execHostingReply id s.chipTag .refused s = .next (s.hostFailed j) := by
  simp [execHostingReply, he, Option.isNone_eq_false_iff.mpr hsent]

end

/-- A reply 100 µs overdue counts as a refusal (R168). -/
theorem execHostReplyTimeout_overdue {t : Nat} (he : s.entry id = some j) (hsent : j.sent = some t) (ht : t + 100000 ≤ s.clock) :
    execHostReplyTimeout id s = .next (s.hostFailed j) := by
  simp [execHostReplyTimeout, he, hsent, ht]

end

/-- Settles O27, one clause per case of PAGE_MOVE_COMMIT, CONVERT_TO_CUTTING, HOSTING_REPLY and HOST_REPLY_TIMEOUT. -/
theorem pageMovesCommitOrRollBack : Obligations.PageMovesCommitOrRollBack := by
  intro s id a j q he
  refine ⟨?copies, ?poisoned, ?converts, fun hsent => ⟨?handle, ?sealed, ?frame, ?refused⟩, ?stale, ?overdue⟩
  case copies =>
    intro hrun hq ha hcut hdst hstep hdue hsrc hp
    exact execPageMoveCommit_copies hrun he hq ha hcut hdst hstep hdue hsrc hp
  case poisoned =>
    intro line hrun hq ha hcut hdst hstep hdue hsrc hp
    exact execPageMoveCommit_poisoned hrun he hq ha hcut hdst hstep hdue hsrc hp
  case converts =>
    rintro pl c k x hrun hq hpl ha hcut hfp8 hown rfl hpage htab hx
    exact execConvertToCutting_commits hrun he hq hpl ha hcut hfp8 hown hpage htab hx
  case handle => exact fun h hstep => execHostingReply_handle he hsent hstep h
  case sealed => exact execHostingReply_sealed he hsent
  case frame => exact execHostingReply_frame he hsent
  case refused => exact execHostingReply_refused he hsent
  case stale => exact fun gen r hg => execHostingReply_stale hg r
  case overdue => exact fun t hsent ht => execHostReplyTimeout_overdue he hsent ht

/-! ### Signing jobs -/

section
variable (s : State) (l : List SignJob)

@[simp] theorem State.seq_withSigning (p n : Nat) : ({ s with signing := l } : State).seq p n = s.seq p n := rfl
@[simp] theorem State.plot_withSigning (p : Nat) : ({ s with signing := l } : State).plot p = s.plot p := rfl
@[simp] theorem State.index_withSigning (n : Nat) : ({ s with signing := l } : State).index n = s.index n := rfl
@[simp] theorem State.pte_withSigning (q : Seqn) (v : Nat) : ({ s with signing := l } : State).pte q v = s.pte q v := rfl
@[simp] theorem State.firstPoison_withSigning (a n : Nat) : ({ s with signing := l } : State).firstPoison a n = s.firstPoison a n := rfl
@[simp] theorem State.loadBytes_withSigning (a n : Nat) : ({ s with signing := l } : State).loadBytes a n = s.loadBytes a n := rfl
@[simp] theorem State.signature_withSigning (base : Nat) (q : Seqn) (n : Nat) (keys : List Byte) :
    ({ s with signing := l } : State).signature base q n keys = s.signature base q n keys := rfl

end

/-- A page on this chip is read at its frame. -/
theorem State.pageRead_local (s : State) {e : Pte} (h : e.tier ≠ 2) (off n : Nat) :
    s.pageRead e off n = (s.loadBytes (e.addr + off) n, s) := if_neg h

/-- A list with room takes the signature (R217). -/
theorem State.appendSignature_room (s : State) {j : SignJob} (n : Nat) {x y : Index} {k id code : Nat}
    (h : x.append k code id j.tick = some y) : s.appendSignature j n x k id code = s.setIndex n y := by
  rw [State.appendSignature, h]

/-- A full side list sets SIDE_FULL and puts the job behind the others, its signature formed (R202, R217). -/
theorem State.appendSignature_full (s : State) {j : SignJob} (n : Nat) {x : Index} {k id code : Nat}
    (h : x.append k code id j.tick = none) : s.appendSignature j n x k id code =
      { s.setBit Fld.RCL_PLOT_FLAGS_SIDE_FULL j.plot true with signing := s.signing ++ [{ j with code := some code }] } := by
  rw [State.appendSignature, h]

/-- The oldest signing job, of a mapped and unpoisoned page on this chip, forms its signature, shows the flags in the cell and appends
(R53, R216). -/
theorem execSignatureAppend_signs {s : State} {c : CellIx} {j : SignJob} {rest : List SignJob} {q : Seqn} {pl : Plot} {n : Nat} {x : Index}
    (hrun : s.serviceRuns = true) (hjob : s.signing = j :: rest) (hown : s.ownerOfCell c.val = some j.plot)
    (hq : s.seq j.plot j.seqNo = some q) (hpl : s.plot j.plot = some pl) (hlive : q.liveIndex = some n) (hx : s.index n = some x)
    (hreplay : j.replay = false) (hcode : j.code = none) (hvalid : (s.pte q j.page).valid = true)
    (hcut : (s.pte q j.page).cutting = false) (htier : (s.pte q j.page).tier ≠ 2)
    (hpage : s.firstPoison (s.pte q j.page).addr (keyBlock q) = none)
    (hproj : s.firstPoison (projAddr pl.sigProj q (j.page / npages q) 0 0) (512 * dims q) = none)
    {r : Nat × NumFlags}
    (hr : r = s.signature pl.sigProj q (j.page / npages q) (s.loadBytes ((s.pte q j.page).addr + 0) (keyBlock q))) :
    execSignatureAppend c s = .next ((({ s with signing := rest } : State).addNumFlags c.val r.2).appendSignature j n x
      (j.page / npages q) (q.base + j.page % npages q * pagePos q) r.1) := by
  rw [execSignatureAppend, State.byService_of_runs hrun]
  simp [hjob, hown, hq, hpl, hlive, hx, hreplay, hcode, hvalid, hcut, htier, hpage, hproj, State.pageRead_local, hr]

/-- Settles O30: the signature is formed, and its list takes it or is full. -/
theorem signatureReachesLiveIndex : Obligations.SignatureReachesLiveIndex := by
  rintro s c j rest q pl n k x r hrun hjob hown hq hpl hlive hx hreplay hcode hvalid hcut htier rfl hpage hproj hr
  have hsigns : exec (.signatureAppend c) s = _ :=
    execSignatureAppend_signs hrun hjob hown hq hpl hlive hx hreplay hcode hvalid hcut htier hpage hproj hr
  refine ⟨fun y hroom => ?room, fun hfull => ?full⟩
  case room => rw [hsigns, State.appendSignature_room _ n hroom]
  case full => rw [hsigns, State.appendSignature_full _ n hfull]; rfl

end Sys2Proof.Machine
end

section
/-!
Control instructions of a cell (R64, R74, R78). Settles O10.
-/

namespace Sys2Proof.Machine
open Sys2Proof

section
variable {s : State} {c k : Nat} {w : W128}

/-- A control word of its class with nothing reserved takes its effect (R64). -/
theorem State.control_takes_effect (hi : s.canIssue c w = true) (hk : isClass k w = true) (hr : controlReserved w = false)
    (f : State → State) : s.control c k w f = f s := by
  simp [State.control, hi, hk, hr]

/-- A reserved control word faults at its place (R74, R78). -/
theorem State.control_faults (hi : s.canIssue c w = true) (hk : isClass k w = true) (hr : controlReserved w = true)
    (f : State → State) : s.control c k w f = s.cellFault c fcOpcode (s.cell c).next := by
  simp [State.control, hi, hk, hr]

/-- The cell that goes on at word `n`. -/
theorem State.cell_goTo (h : Sparse.wf (fun _ => Cell.empty) s.cells = true) (n : Nat) (loops : List (Nat × Nat)) :
    (s.goTo c n loops).cell c = { s.cell c with loops := loops, next := n } :=
  State.cell_setCell_same s c _ h

end

section
variable {s : State} {c : CellIx} {w : W128} (hi : s.canIssue c.val w = true)
include hi

/-- A LOOP with passes left goes back to its target, one pass fewer (R64). -/
theorem exec_cellLoop_repeats {count target : Nat} (hk : isClass 3 w = true) (hr : controlReserved w = false)
    (hleft : 2 ≤ (Table.get (s.cell c.val).loops (s.cell c.val).next).getD count) :
    exec (.cellLoop c w count target) s = .next (s.goTo c.val target (Table.put (s.cell c.val).loops (s.cell c.val).next
      ((Table.get (s.cell c.val).loops (s.cell c.val).next).getD count - 1))) := by
  have hpass : (Table.get (s.cell c.val).loops (s.cell c.val).next).getD count - 1 ≠ 0 := by omega
  exact congrArg Host.Outcome.next ((State.control_takes_effect hi hk hr _).trans (if_neg hpass))

/-- A LOOP at its last pass falls through and forgets its count (R64). -/
theorem exec_cellLoop_falls_through {count target : Nat} (hk : isClass 3 w = true) (hr : controlReserved w = false)
    (hlast : (Table.get (s.cell c.val).loops (s.cell c.val).next).getD count ≤ 1) :
    exec (.cellLoop c w count target) s =
      .next (s.goTo c.val ((s.cell c.val).next + 1) (Table.del (s.cell c.val).loops (s.cell c.val).next)) := by
  have hpass : (Table.get (s.cell c.val).loops (s.cell c.val).next).getD count - 1 = 0 := by omega
  exact congrArg Host.Outcome.next ((State.control_takes_effect hi hk hr _).trans (if_pos hpass))

/-- JUMP goes on at its target, the passes of every LOOP as they were (R64). -/
theorem exec_cellJump_goes {target : Nat} (hk : isClass 4 w = true) (hr : controlReserved w = false) :
    exec (.cellJump c w target) s = .next (s.goTo c.val target (s.cell c.val).loops) :=
  congrArg Host.Outcome.next (State.control_takes_effect hi hk hr _)

/-- END marks the cell's program ended and the cell IDLE (R64, R79). -/
theorem exec_cellEnd_ends (hk : isClass 5 w = true) (hr : controlReserved w = false) :
    exec (.cellEnd c w) s = .next ((s.setCell c.val { s.cell c.val with ended := true, next := (s.cell c.val).next + 1 }).setFld
      Fld.CEL_STATE_STATE c.val csIdle) :=
  congrArg Host.Outcome.next (State.control_takes_effect hi hk hr _)

end

/-- Settles O10: a word of its class takes its effect where nothing of it is reserved, and the fault OPCODE where something is. -/
theorem cellControlInstructionsMoveNextWord : Obligations.CellControlInstructionsMoveNextWord := by
  intro s c w hs hi
  refine ⟨fun hr => ⟨fun count target hop hleft => ?repeats, fun count target hop hlast => ?falls, fun target hop => ?jump,
    fun hop => ?ends⟩, fun hr => ⟨fun count target hk => ?loopFault, fun target hk => ?jumpFault, fun hk => ?endFault⟩⟩
  case repeats => exact exec_cellLoop_repeats hi (isClass_of_opcode hop) hr hleft
  case falls =>
    refine ⟨_, exec_cellLoop_falls_through hi (isClass_of_opcode hop) hr hlast, ?_, ?_, rfl, rfl, rfl⟩ <;>
      rw [State.cell_goTo (State.canonical_cells hs)]
  case jump => exact exec_cellJump_goes hi (isClass_of_opcode hop) hr
  case ends =>
    refine ⟨_, exec_cellEnd_ends hi (isClass_of_opcode hop) hr, ?ended, ?idle, ?regs, rfl, rfl, rfl⟩
    case ended => simp [State.canonical_cells hs]
    case idle => exact State.fld_setFld_same (s.setCell c.val _) Fld.CEL_STATE_STATE c.val csIdle (State.canonical_regs hs :) (by decide)
    case regs =>
      intro r i hr hne
      have hne : ¬(r = .CEL_STATE ∧ i = c.val) := by simpa using hne
      exact State.reg_setFld_other _ Fld.CEL_STATE_STATE csIdle c.isLt hr hne
  case loopFault => exact congrArg Host.Outcome.next (State.control_faults hi hk hr _)
  case jumpFault => exact congrArg Host.Outcome.next (State.control_faults hi hk hr _)
  case endFault => exact congrArg Host.Outcome.next (State.control_faults hi hk hr _)

end Sys2Proof.Machine
end

section
/-!
The bytes that a VOP stores (R8, R62): numbers written one behind the other read back one by one. Settles O2.
-/

namespace Sys2Proof.Machine
open Sys2Proof

theorem State.canonical_mem {s : State} (h : s.canonical = true) : Memory.wf s.mem = true := by
  simp only [State.canonical, Bool.and_eq_true, and_assoc] at h
  obtain ⟨-, hmem, -⟩ := h
  exact hmem

/-- A write of two lists of bytes is the write of the first, and of the second behind it. -/
theorem memWrite_append (m : List (Nat × Byte)) (a : Nat) (xs ys : List Byte) :
    memWrite m a (xs ++ ys) = memWrite (memWrite m a xs) (a + xs.length) ys := by
  induction xs generalizing m a with
  | nil => rfl
  | cons x xs ih => simp only [List.cons_append, memWrite, ih, List.length_cons, Nat.add_assoc, Nat.add_comm 1]

theorem State.writeBytes_append (s : State) (a : Nat) (xs ys : List Byte) :
    s.writeBytes a (xs ++ ys) = (s.writeBytes a xs).writeBytes (a + xs.length) ys :=
  congrArg (fun m => { s with mem := m }) (memWrite_append s.mem a xs ys)

/-- The bytes of numbers of `n` bytes each. -/
theorem length_flatMap_leBytes (n : Nat) (vs : List Nat) : (vs.flatMap (leBytes n)).length = n * vs.length := by
  induction vs with
  | nil => rfl
  | cons v vs ih => rw [List.flatMap_cons, List.length_append, leBytes_length, ih, List.length_cons, Nat.mul_succ, Nat.add_comm]

/-- Of numbers of `n` bytes written one behind the other, each reads back at its own place (R8). -/
theorem State.readLe_writeBytes_flatMap (s : State) (a n : Nat) (vs : List Nat) {j : Nat} (hj : j < vs.length)
    (h : Memory.wf s.mem = true) : (s.writeBytes a (vs.flatMap (leBytes n))).readLe (a + n * j) n = vs[j] % 256 ^ n := by
  induction vs generalizing s a j with
  | nil => simp at hj
  | cons v vs ih =>
    rw [List.flatMap_cons, State.writeBytes_append, leBytes_length]
    cases j with
    | zero =>
      rw [State.readLe_writeBytes_apart _ _ _ _ _ (.inl (by omega))]
      exact s.readLe_writeLe_same a n v h
    | succ j =>
      have hplace : a + n * (j + 1) = a + n + n * j := by rw [Nat.mul_succ]; omega
      rw [hplace, ih _ _ (Nat.lt_of_succ_lt_succ hj) (memWrite_wf _ _ _ h), List.getElem_cons_succ]

/-- A number read from memory rests on the bytes of memory alone. -/
theorem State.readLe_of_mem {t u : State} (h : t.mem = u.mem) (a n : Nat) : t.readLe a n = u.readLe a n := by
  unfold State.readLe State.readBytes State.byteAt
  rw [h]

/-- The lanes of a VOP, each rounded once (R62). -/
def State.vopLanes (s : State) (c : Nat) (o : VopOps) : List (Nat × NumFlags) :=
  (List.range o.n).map fun j => vopLane ((s.vecSrc c o.x o.n).getD j 0) ((s.vecSrc c o.y o.n).getD j 0)
    ((o.z.map fun v => s.vecSrc c v o.n).map fun l => l.getD j 0)

/-- The numbers that a VOP stores. -/
def State.vopValues (s : State) (c : Nat) (o : VopOps) : List Nat := (s.vopLanes c o).map (·.1)

theorem State.vopValues_length (s : State) (c : Nat) (o : VopOps) : (s.vopValues c o).length = o.n := by
  simp [State.vopValues, State.vopLanes]

theorem State.vopValues_getElem (s : State) (c : Nat) (o : VopOps) {j : Nat} (hj : j < (s.vopValues c o).length) :
    (s.vopValues c o)[j] = (vopLane ((s.vecSrc c o.x o.n).getD j 0) ((s.vecSrc c o.y o.n).getD j 0)
      (o.z.map fun z => (s.vecSrc c z o.n).getD j 0)).1 := by
  simp [State.vopValues, State.vopLanes, Function.comp_def]

/-- A VOP stores its lanes' numbers at its destination, and no other byte. -/
theorem mem_vopEffect (c : Nat) (o : VopOps) (s : State) :
    (vopEffect c o s).1.mem = (s.writeBytes (spadBase c + o.dst) ((s.vopValues c o).flatMap (leBytes 4))).mem := by
  rw [State.vopValues, List.flatMap_map]
  rfl

/-- Settles O2: the issue stores what the effect stores, the lanes' numbers one behind the other. -/
theorem vopWritesOneFusedMultiplyAddPerLane : Obligations.VopWritesOneFusedMultiplyAddPerLane := by
  intro s c w o hs hop hi
  have hmem := (State.mem_issue (eff := vopEffect c.val o) hi).trans (mem_vopEffect c.val o s)
  refine ⟨_, exec_vop hop o s, fun j hj => ?lane, fun a ha => ?frame, fun a => ?host⟩
  case lane =>
    have hword : 256 ^ 4 = 2 ^ 32 := rfl
    rw [← s.vopValues_length c.val o] at hj
    rw [State.spadLe, State.readLe_of_mem hmem, ← Nat.add_assoc,
      State.readLe_writeBytes_flatMap s _ 4 _ hj (State.canonical_mem hs), s.vopValues_getElem c.val o hj, hword]
  case frame =>
    unfold State.byteAt
    rw [hmem]
    refine State.byteAt_writeBytes_outside s _ _ a ?_
    rw [length_flatMap_leBytes, State.vopValues_length]
    exact ha
  case host =>
    unfold State.hostByte
    rw [State.hostMem_issue hi, (vopEffect_cellEffect hs c.isLt o).hostMem]

end Sys2Proof.Machine
end

section
/-!
The residue checker's report (R70 to R72, R75, R78): a clean one retires the instruction; a mismatch takes the task out of the cell, and
what the abort of the task then does gives the cell none back and takes no reset request away. Settles O11.
-/

namespace Sys2Proof.Machine
open Sys2Proof

/-! ### A clean report -/

section
variable {s : State} {c : CellIx} {lanes : Bool} {f : InFlight} (hfl : (s.cell c.val).inflight = [f]) (hdue : f.due = true)
  (hunit : f.exUnit = (if lanes then .vector else .matrix))
include hfl hdue hunit

/-- The only instruction in flight is the one that a report of its unit is about. -/
theorem checkDue_only : checkDue lanes (s.cell c.val).inflight = some f := by
  simp [checkDue, hfl, hdue, hunit]

theorem clearDue_only : clearDue lanes (s.cell c.val).inflight = [{ f with due := false }] := by
  simp [clearDue, hfl, hdue, hunit]

/-- The cell after a clean report for its only instruction, which no merge holds: that instruction has retired (R63, R75). -/
theorem exec_residueCheckReport_clean (hs : s.canonical = true) (hm : f.merging = false) :
    ∃ t, exec (.residueCheckReport c lanes true) s = .next t ∧ t.regs = s.regs ∧ MemSame s t ∧
      t.cell c.val = { (s.cell c.val).retireOne s.drainTile f with inflight := [] } := by
  refine ⟨(s.setCell c.val { s.cell c.val with inflight := clearDue lanes (s.cell c.val).inflight }).retire c.val, ?report, rfl,
    ⟨rfl, rfl, rfl⟩, ?cell⟩
  case report =>
    show execResidueCheckReport c lanes true s = _
    simp only [execResidueCheckReport, checkDue_only hfl hdue hunit, if_true]
  case cell =>
    have hw := State.canonical_cells hs
    rw [clearDue_only hfl hdue hunit, State.retire, State.cell_setCell_same _ _ _ (s.wf_cells_setCell _ _ hw),
      State.cell_setCell_same _ _ _ hw]
    simp only [retireFrom, hm, Bool.or_false, Bool.false_eq_true, if_false, Cell.retireOne]
    split <;> rfl

end

/-- An instruction that is not fused releases its slots as it retires (R75). -/
theorem Cell.retireOne_plain (tile : Nat → Nat) (x : Cell) {f : InFlight} (h : fusedKind f.fused = 0) :
    x.retireOne tile f = x.releaseSlots f.release := if_pos (.inl h)

/-- A fused instruction with destinations posts its drain and a transfer for each of them as it retires (R75). -/
theorem Cell.retireOne_fused (tile : Nat → Nat) (x : Cell) {f : InFlight} (h : fusedKind f.fused ≠ 0) (hd : f.dst ≠ []) :
    x.retireOne tile f = { x with
      drains := x.drains ++ [⟨f.dst, f.fused, f.drainFlags, f.release⟩]
      transfers := x.transfers ++ f.dst.map fun r => ⟨.drain, r.len, tile f.fused, none, 0, [], []⟩ } :=
  if_neg (by simp [h, hd])

/-- A released slot is in no use (R61). -/
theorem Cell.get_releaseSlots (x : Cell) {l : List Nat} {i : Nat} (h : i ∈ l) : Table.get (x.releaseSlots l).slots i = none := by
  have hdrop : (x.slots.filter fun e => !l.contains e.1).find? (fun e => e.1 == i) = none := by
    rw [List.find?_eq_none]
    rintro ⟨k, v⟩ hmem hk
    obtain rfl : k = i := by simpa using hk
    simp [h] at hmem
  exact congrArg (Option.map _) hdrop

/-! ### What an abort leaves of cells and reset requests -/

/-- `u` has the cells and the reset requests of `s`. -/
structure KeepsCells (s u : State) : Prop where
  cells : u.cells = s.cells
  resets : u.resets = s.resets

theorem KeepsCells.refl (s : State) : KeepsCells s s := ⟨rfl, rfl⟩

theorem KeepsCells.foldl {α : Type} {op : State → α → State} (h : ∀ u a, KeepsCells u (op u a)) {s u : State} (hu : KeepsCells s u)
    (l : List α) : KeepsCells s (l.foldl op u) :=
  List.foldlRecOn l op hu fun _ hv a _ => ⟨(h _ a).cells.trans hv.cells, (h _ a).resets.trans hv.resets⟩

theorem KeepsCells.ite {s u v : State} {p : Prop} [Decidable p] (hu : KeepsCells s u) (hv : KeepsCells s v) :
    KeepsCells s (if p then u else v) := by
  split
  · exact hu
  · exact hv

section
variable {s u : State} (h : KeepsCells s u)
include h

theorem KeepsCells.setCell (c : Nat) (x : Cell) : KeepsCells (s.setCell c x) (u.setCell c x) :=
  ⟨congrArg (fun m => Sparse.set (fun _ => Cell.empty) m c x) h.cells, h.resets⟩

theorem KeepsCells.setReg (r : Reg) (i : Nat) (v : W32) : KeepsCells s (u.setReg r i v) := ⟨h.cells, h.resets⟩

theorem KeepsCells.setFld (f : Fld) (i v : Nat) : KeepsCells s (u.setFld f i v) := h.setReg _ _ _

theorem KeepsCells.setBit (f : Fld) (i : Nat) (b : Bool) : KeepsCells s (u.setBit f i b) := h.setFld _ _ _

theorem KeepsCells.writeBytes (a : Nat) (bs : List Byte) : KeepsCells s (u.writeBytes a bs) := ⟨h.cells, h.resets⟩

theorem KeepsCells.writeHost (a : Nat) (bs : List Byte) : KeepsCells s (u.writeHost a bs) := ⟨h.cells, h.resets⟩

theorem KeepsCells.setPoison (a : Nat) (b : Bool) : KeepsCells s (u.setPoison a b) := ⟨h.cells, h.resets⟩

theorem KeepsCells.setBlock (b : Nat) (x : Block) : KeepsCells s (u.setBlock b x) := ⟨h.cells, h.resets⟩

theorem KeepsCells.setStream (i : Nat) (x : Stream) : KeepsCells s (u.setStream i x) := ⟨h.cells, h.resets⟩

theorem KeepsCells.undefineBytes (a n : Nat) : KeepsCells s (u.undefineBytes a n) := ⟨h.cells, h.resets⟩

theorem KeepsCells.undefineRanges (c : Nat) (rs : List Range) : KeepsCells s (u.undefineRanges c rs) :=
  .foldl (fun v _ => (KeepsCells.refl v).undefineBytes _ _) h rs

theorem KeepsCells.undefineTiles (t : Stream) : KeepsCells s (u.undefineTiles t) :=
  .foldl (fun v _ => (KeepsCells.refl v).undefineBytes _ _) h _

/-! A store of a unit of the chip, and the reply that admission writes with it (R259, R287). -/

theorem KeepsCells.recordEcc (a kind : Nat) (scrub : Bool) : KeepsCells s (u.recordEcc a kind scrub) := by
  unfold State.recordEcc
  split
  · exact h
  next r t off _ =>
    have hreport : KeepsCells s (if t ≠ 0 ∧ kind ≠ 3 then { u with eccReports := u.eccReports ++ [a] } else u) :=
      .ite ⟨h.cells, h.resets⟩ h
    exact .ite (hreport.setBit _ _ _) ((hreport.setReg _ _ _).setReg _ _ _)

theorem KeepsCells.storeLines (n a : Nat) (bs : List Byte) (bad : Option Nat) :
    KeepsCells s (State.storeLines n u a bs bad).1 := by
  induction n generalizing u a bs bad with
  | zero => exact h
  | succ n ih =>
    simp only [State.storeLines]
    split
    · exact h
    · split
      · exact ih h _ _ _
      · exact ih (.writeBytes (.ite (h.setPoison _ _) h) _ _) _ _ _

theorem KeepsCells.storeCold (n a : Nat) (bs : List Byte) : KeepsCells s (State.storeCold n u a bs) := by
  induction n generalizing u a bs with
  | zero => exact h
  | succ n ih =>
    unfold State.storeCold
    split
    · exact .ite (h.writeHost _ _) (ih (h.writeHost _ _) _ _)
    · exact h

theorem KeepsCells.storeBytes (a : Nat) (bs : List Byte) : KeepsCells s (u.storeBytes a bs).1 := by
  unfold State.storeBytes
  split
  · exact h.storeCold _ _ _
  · exact h.storeLines _ _ _ _
  · exact h.storeLines _ _ _ _
  · exact h.writeBytes _ _

theorem KeepsCells.putBytes (a : Nat) (bs : List Byte) : KeepsCells s (u.putBytes a bs) := by
  have hstore := h.storeBytes a bs
  unfold State.putBytes
  split
  next heq => rw [heq] at hstore; exact hstore.recordEcc _ _ _
  next heq => rw [heq] at hstore; exact hstore

theorem KeepsCells.reply (p tag kind reason tick start : Nat) : KeepsCells s (u.reply p tag kind reason tick start) := by
  unfold State.reply
  split
  · exact h
  · exact (h.putBytes _ _).putBytes _ _

/-! What is recorded of a fault, and the end of a stream (R78, R246 to R248). -/

theorem KeepsCells.recordCellFault (c code index : Nat) : KeepsCells s (u.recordCellFault c code index) :=
  .ite (h.setFld _ _ _) (((h.setFld _ _ _).setFld _ _ _).setFld _ _ _)

theorem KeepsCells.recordStream (i code instr detail : Nat) : KeepsCells s (u.recordStream i code instr detail) :=
  .ite (h.setReg _ _ _) (h.setReg _ _ _)

theorem KeepsCells.engineStatus (e : Nat) : KeepsCells s (u.engineStatus e) :=
  .ite (h.setFld _ _ _) ((h.setFld _ _ _).setFld _ _ _)

theorem KeepsCells.endStream (i : Nat) (t : Stream) (state : Nat) : KeepsCells s (u.endStream i t state) := by
  have hparked : KeepsCells s { u with armSeq := u.armSeq + 1 } := ⟨h.cells, h.resets⟩
  have hgone : KeepsCells s { u with streams := Table.del u.streams i } := ⟨h.cells, h.resets⟩
  exact .ite ((hparked.setStream _ _).setFld _ _ _) ((hgone.setFld _ _ _).engineStatus _)

theorem KeepsCells.withLostDrains (l : List (Nat × Nat)) : KeepsCells s { u with lostDrains := l } := ⟨h.cells, h.resets⟩

end

/-- Taking a task out of a cell changes that cell only, which then runs none, and no reset request (R78). -/
theorem State.discardCell_empties (s : State) (c : Nat) :
    ∃ x : Cell, x.task = none ∧ KeepsCells (s.setCell c x) (s.discardCell c) := by
  have hranges := KeepsCells.foldl (fun v (f : InFlight) => (KeepsCells.refl v).undefineRanges c f.dst) (.refl s) (s.cell c).inflight
  have hkeeps : KeepsCells (s.setCell c _) (s.discardCell c) :=
    ((((KeepsCells.foldl (fun v _ => (KeepsCells.refl v).undefineBytes _ _) (hranges.withLostDrains _) _).setBlock _ _).setCell
      c _).setFld _ _ _).setFld _ _ _
  exact ⟨_, rfl, hkeeps⟩

/-- Cell `c` runs no task, and the reset requests are `l`. -/
structure Released (c : Nat) (l : List ResetReq) (u : State) : Prop where
  wfCells : Sparse.wf (fun _ => Cell.empty) u.cells = true
  idle : (u.cell c).task = none
  resets : u.resets = l

section
variable {c : Nat} {l : List ResetReq} {u v : State}

theorem Released.of_keepsCells (h : Released c l u) (hk : KeepsCells u v) : Released c l v :=
  ⟨hk.cells ▸ h.wfCells, by unfold State.cell; rw [hk.cells]; exact h.idle, hk.resets.trans h.resets⟩

theorem Released.reply (h : Released c l u) (p tag kind reason tick start : Nat) : Released c l (u.reply p tag kind reason tick start) :=
  h.of_keepsCells ((KeepsCells.refl u).reply _ _ _ _ _ _)

theorem Released.ite {p : Prop} [Decidable p] (hu : Released c l u) (hv : Released c l v) : Released c l (if p then u else v) := by
  split
  · exact hu
  · exact hv

theorem Released.setCell (h : Released c l u) {d : Nat} {x : Cell} (hx : d = c → x.task = none) : Released c l (u.setCell d x) where
  wfCells := u.wf_cells_setCell d x h.wfCells
  idle := by
    by_cases hd : d = c
    · subst hd; rw [State.cell_setCell_same u d x h.wfCells]; exact hx rfl
    · rw [State.cell_setCell_other u x (Ne.symm hd)]; exact h.idle
  resets := h.resets

/-- A cell whose task is taken out of it runs none. -/
theorem State.discardCell_released (hw : Sparse.wf (fun _ => Cell.empty) u.cells = true) : Released c u.resets (u.discardCell c) := by
  obtain ⟨x, hx, hk⟩ := u.discardCell_empties c
  have hcell : ((u.setCell c x).cell c).task = none := by rw [State.cell_setCell_same u c x hw, hx]
  exact Released.of_keepsCells ⟨u.wf_cells_setCell c x hw, hcell, rfl⟩ hk

theorem Released.discardCell (h : Released c l u) (d : Nat) : Released c l (u.discardCell d) := by
  obtain ⟨x, hx, hk⟩ := u.discardCell_empties d
  exact (h.setCell fun _ => hx).of_keepsCells hk

theorem Released.abortCell (h : Released c l u) (tid : Nat) (code : Option Nat) (d : Nat) : Released c l (u.abortCell tid code d) := by
  refine .ite ?_ (.ite (h.setCell fun hd => by subst hd; exact h.idle) h)
  cases code with
  | none => exact h.discardCell d
  | some k => exact (h.of_keepsCells ((KeepsCells.refl u).recordCellFault d k 0xFFFF)).discardCell d

theorem Released.dropLinks (h : Released c l u) (i : Nat) (t : Stream) : Released c l (u.dropLinks i t) :=
  List.foldlRecOn t.cellSet _ h fun _ hv d _ => hv.setCell fun hd => by subst hd; exact hv.idle

theorem Released.abortStream (h : Released c l u) (tid : Nat) (faulting : Option Nat) (i : Nat) :
    Released c l (u.abortStream tid faulting i) := by
  unfold State.abortStream
  split
  · exact h
  next t _ =>
    have hdrop := (h.of_keepsCells ((KeepsCells.refl u).undefineTiles t)).dropLinks i t
    split
    · exact h
    · split
      · exact hdrop.of_keepsCells ((KeepsCells.refl _).endStream _ _ _)
      · exact hdrop.of_keepsCells (((KeepsCells.refl _).recordStream _ _ _ _).endStream _ _ _)

/-- The abort of a task gives a cell that runs none no task, and takes no reset request away (R247, R289). -/
theorem Released.abortTask (h : Released c l u) (tid reason : Nat) (others detect faulting : Option Nat) :
    Released c l (u.abortTask tid reason others detect faulting) := by
  unfold State.abortTask
  split
  · exact h
  next t _ =>
    have hcells := List.foldlRecOn (t.cells.filter fun d => decide (detect ≠ some d)) _ h fun _ hv d _ => hv.abortCell tid others d
    have hstreams := List.foldlRecOn t.streams _ hcells fun _ hv i _ => hv.abortStream tid faulting i
    refine .ite (.reply ?_ _ _ _ _ _ _) ?_ <;> exact ⟨hstreams.wfCells, hstreams.idle, hstreams.resets⟩

end

/-! ### A mismatch -/

/-- After a request for a reset one of its level and number stands, whether it came with this request or before it (R22, R23). -/
theorem State.mem_resets_requestReset (s : State) (level cause index : Nat) (cell : Option Nat) (ended : List (Nat × Task)) :
    ∃ q ∈ (s.requestReset level cause index cell ended).resets, q.level = level ∧ q.index = index := by
  unfold State.requestReset
  split
  next h =>
    obtain ⟨q, hq, hsame⟩ := List.any_eq_true.mp h
    have hlevel : q.level = level ∧ q.index = index := by simpa using hsame
    exact ⟨{ q with ended := q.ended ++ ended }, List.mem_map.mpr ⟨q, hq, if_pos hsame⟩, hlevel⟩
  next => exact ⟨_, List.mem_append_right _ (List.mem_singleton_self _), rfl, rfl⟩

theorem State.cells_requestReset (s : State) (level cause index : Nat) (cell : Option Nat) (ended : List (Nat × Task)) :
    (s.requestReset level cause index cell ended).cells = s.cells := by
  unfold State.requestReset
  split <;> rfl

/-- RESIDUE asks for the reset of its cell (R78). -/
theorem Released.faultReset_residue {c : Nat} {l : List ResetReq} {u : State} (h : Released c l u) (ended : List (Nat × Task)) :
    ∃ l', Released c l' (u.faultReset c fcResidue ended) ∧ ∃ q, q ∈ l' ∧ q.level = 1 ∧ q.index = c := by
  have hcells := u.cells_requestReset 1 0x01 c (some c) ended
  have hidle : ((u.requestReset 1 0x01 c (some c) ended).cell c).task = none := by
    unfold State.cell
    rw [hcells]
    exact h.idle
  exact ⟨_, ⟨by rw [← h.wfCells]; exact congrArg _ hcells, hidle, rfl⟩, u.mem_resets_requestReset 1 0x01 c (some c) ended⟩

/-- A fault of a cell with a task, in the order of R78: recorded, the task out of the cell, its reset requested, the task aborted. -/
theorem State.cellFault_of_task {s : State} {c tid : Nat} (htask : (s.cell c).task = some tid) (code index : Nat) :
    s.cellFault c code index =
      State.abortTask (((s.recordCellFault c code index).discardCell c).faultReset c code ((s.recordCellFault c code index).taskPair tid))
        tid code (othersRecord code) (some c) none := by
  simp only [State.cellFault, htask]

/-- A RESIDUE fault of a cell with a task leaves the cell without one and with its reset requested (R72, R78). -/
theorem State.cellFault_residue {s : State} {c tid : Nat} (hs : s.canonical = true) (htask : (s.cell c).task = some tid) (index : Nat) :
    ((s.cellFault c fcResidue index).cell c).task = none ∧
      ∃ q, q ∈ (s.cellFault c fcResidue index).resets ∧ q.level = 1 ∧ q.index = c := by
  have hrecord := ((KeepsCells.refl s).recordCellFault c fcResidue index).cells
  have hdiscard := State.discardCell_released (c := c) (hrecord ▸ State.canonical_cells hs)
  obtain ⟨l, hreset, q, hq, hcell⟩ := hdiscard.faultReset_residue ((s.recordCellFault c fcResidue index).taskPair tid)
  have hafter := hreset.abortTask tid fcResidue (othersRecord fcResidue) (some c) none
  rw [State.cellFault_of_task htask]
  exact ⟨hafter.idle, q, by rw [hafter.resets]; exact hq, hcell⟩

/-- A mismatch of the only instruction in flight is a RESIDUE fault of its cell (R72). -/
theorem exec_residueCheckReport_mismatch {s : State} {c : CellIx} {lanes : Bool} {f : InFlight}
    (hfl : (s.cell c.val).inflight = [f]) (hdue : f.due = true) (hunit : f.exUnit = (if lanes then .vector else .matrix)) :
    exec (.residueCheckReport c lanes false) s = .next (s.cellFault c.val fcResidue f.index) := by
  show execResidueCheckReport c lanes false s = _
  simp only [execResidueCheckReport, checkDue_only hfl hdue hunit, Bool.false_eq_true, if_false]

/-- Settles O11: a clean report retires the instruction, a mismatch is a RESIDUE fault. -/
theorem residueReportRetiresOrAborts : Obligations.ResidueReportRetiresOrAborts := by
  intro s c lanes f hs hfl hdue hunit hm
  obtain ⟨t, hexec, hregs, hmem, hcell⟩ := exec_residueCheckReport_clean hfl hdue hunit hs hm
  refine ⟨fun hplain => ⟨t, hexec, ?plain⟩, fun hdst hfused => ⟨t, hexec, ?fused⟩, fun tid htask => ?mismatch⟩
  case plain =>
    rw [Cell.retireOne_plain _ _ hplain] at hcell
    exact ⟨congrArg Cell.inflight hcell,
      fun i hi => (congrArg (fun x => Table.get x.slots i) hcell).trans (Cell.get_releaseSlots _ hi), hregs, hmem⟩
  case fused =>
    rw [Cell.retireOne_fused _ _ hfused hdst] at hcell
    exact ⟨congrArg Cell.inflight hcell, congrArg Cell.drains hcell, congrArg Cell.transfers hcell, hregs, hmem⟩
  case mismatch =>
    exact ⟨_, exec_residueCheckReport_mismatch hfl hdue hunit, State.cellFault_residue hs htask f.index⟩

end Sys2Proof.Machine
end

section
/-!
The work of sequence groups (R180 to R188, R330) and the acknowledgement of fused drains (R75): one lemma per case of each command.
Settles O35.
-/

namespace Sys2Proof.Machine
open Sys2Proof

/-- A well-formed message for this chip takes its effect while the hub runs (R302, R303). -/
theorem State.arriving_here {s : State} {m : InMsg} (hhub : s.hubHeld = false) (hmal : m.malformed = false)
    (hself : s.isSelf m.dest = true) (kind : MsgKind) (f : State → State) : s.arriving kind m f = f s := by
  simp [State.arriving, hhub, hmal, hself]

/-! ### Step headers (R180, R182) -/

/-- A sound header from the lead of a decode group whose check is not due is taken by a member, and on the lead itself formed, sent and
taken, or kept waiting by a commit on another chip's tail. -/
theorem exec_stepHeader_sound {s : State} {m : InMsg} {x : GroupCtx} (hhub : s.hubHeld = false) (hmal : m.malformed = false)
    (hself : s.isSelf m.dest = true) (hx : s.group (m.plot % 8) = some x) (hdecode : (s.groupDesc x.desc).pattern = ptDecode)
    (hlead : s.memberOf (s.groupDesc x.desc).qgroup m.src = some (s.groupDesc x.desc).lead) (hdue : x.due = false)
    (hok : headerOk m.data = true) :
    exec (.stepHeader m) s = .next (if (s.groupDesc x.desc).self = (s.groupDesc x.desc).lead then
      (if s.tailPending (m.plot % 8) (s.groupDesc x.desc) then s else s.leadHeader (m.plot % 8) x (s.groupDesc x.desc) m.data)
      else s.takeHeader (m.plot % 8) x (s.groupDesc x.desc) m.data) := by
  show execStepHeader m s = _
  rw [execStepHeader, State.arriving_here hhub hmal hself]
  simp [hx, hdecode, hlead, hdue, hok]

/-! ### Pieces of a decode step (R181 to R184) -/

/-- A piece of the step's TAG, of its kind, from its member and in agreement with its header, is noted and goes on to its collective
operation. -/
theorem State.groupPiece_takes {s : State} {m : InMsg} {x : GroupCtx} {kind : Nat} {gi : GroupDesc → Nat}
    (hx : s.group (m.plot % 8) = some x) (htag : x.tag = some (pieceHead m.data).tag) (hkind : (pieceHead m.data).kind = kind)
    (hmember : s.memberOf (gi (s.groupDesc x.desc)) m.src = some (pieceHead m.data).member)
    (hgroup : bitsAt m.tag 24 8 = gi (s.groupDesc x.desc))
    (hok : s.pieceOk (m.plot % 8) x (pieceHead m.data) m.addr (m.data.length - pieceHeadBytes) = true) :
    s.groupPiece m kind gi = (s.setGroupCtx (m.plot % 8) { x with
      pieces := x.pieces ++ [((pieceHead m.data).member, (pieceHead m.data).layer, (pieceHead m.data).group, kind)] }).pieceIn (m.plot % 8)
        m.src none m.tag (setBits m.op 20 4 (bitsAt m.op 20 4 ||| ((pieceHead m.data).sflags % 16))) m.addr
        (m.data.drop pieceHeadBytes) := by
  subst hkind
  simp [State.groupPiece, hx, htag, hmember, hgroup, hok]

/-! ### The hops of a ring (R186 to R190) -/

@[simp] theorem State.sundial_markUnsync (s : State) (p : Nat) : (s.markUnsync p).sundial = s.sundial := by
  unfold State.markUnsync
  split <;> rfl

section
variable (s : State) (d : GroupDesc) (x : GroupCtx) (p : Nat)

/-- Whether the link to the successor holds back a scheduled forward of the next hop (R188). -/
def State.hopHeld : Bool := (s.ringLink d).any fun l => if x.late then s.syncState l != sySynced else s.beyondGuard l

/-- The header of this member's home block for the next hop's unit (R186). -/
def State.hopHome : BlockHead := s.homeHead p d (x.tag.getD 0) (x.nextHop / d.n)

/-- The header of the block that the next hop attends over (R186). -/
def State.hopBlock : BlockHead :=
  if x.nextHop % d.n = 0 then s.hopHome d x p
  else ((s.blockOf x d (x.nextHop % d.n)).map fun m => blockHead m.data).getD (s.hopHome d x p)

/-- The next hop launched, attention over its block begun (R186, R188). -/
def State.hopBegun : State :=
  let u := if d.period = 0 then s else s.markUnsync p
  (u.setGroupCtx p { x with hop := x.nextHop, launched := some u.sundial, late := false }).setHalves x.task (s.hopBlock d x p)
    (d.slicing == 1)

/-- The cells that the arrival of a hop's block notifies have one FULL more; at hop 0 none arrives (R330). -/
def State.notifyHop (h : Nat) : State :=
  match h, s.shiftOp d.ngroup with
  | 0, _ => s
  | _, some (c, o) => s.chainPair c o fun q => { q with full := q.full + 1 }
  | _, none => s

/-- The block of a launched hop goes on to the successor, at hop 0 the home block just formed (R187). -/
def State.forwardHop : Res :=
  match s.ringHead d, s.colGroup d.ngroup with
  | some (c, ch, o), some g =>
    .next ((if x.nextHop % d.n = 0 then s.formHome p d (x.tag.getD 0) (x.nextHop / d.n) o.src else s).fire c ch o g)
  | _, _ => .next s

end

/-- A hop's launch takes its tick from the state that it begins in. -/
theorem State.hopBegun_eq (s : State) (d : GroupDesc) (x : GroupCtx) (p : Nat) :
    s.hopBegun d x p = ((if d.period = 0 then s else s.markUnsync p).setGroupCtx p
      { x with hop := x.nextHop, launched := some s.sundial, late := false }).setHalves x.task (s.hopBlock d x p) (d.slicing == 1) := by
  have htick : (if d.period = 0 then s else s.markUnsync p).sundial = s.sundial := by
    split
    · rfl
    · exact s.sundial_markUnsync p
  rw [State.hopBegun, htick]

theorem State.notifyHop_eq (s : State) (d : GroupDesc) (h : Nat) :
    s.notifyHop d h = if h = 0 then s
      else (s.shiftOp d.ngroup).elim s fun e => s.chainPair e.1 e.2 fun q => { q with full := q.full + 1 } := by
  unfold State.notifyHop
  cases h with
  | zero => rfl
  | succ n => cases s.shiftOp d.ngroup <;> rfl

theorem State.forwardHop_fires {s : State} {d : GroupDesc} {x : GroupCtx} {p c : Nat} {ch : Chain} {o : OpDesc} {g : ColGroup}
    (hhead : s.ringHead d = some (c, ch, o)) (hg : s.colGroup d.ngroup = some g) :
    s.forwardHop d x p =
      .next ((if x.nextHop % d.n = 0 then s.formHome p d (x.tag.getD 0) (x.nextHop / d.n) o.src else s).fire c ch o g) := by
  simp only [State.forwardHop, hhead, hg]

/-- What the launch of a due hop does: it is deferred behind its link, or its home block is too big, or it begins and its block goes on
where it goes on at all (R186 to R188). -/
theorem exec_hopLaunch_due {s : State} {d : GroupDesc} {x : GroupCtx} {p : PlotIx} (hd : d = s.groupDesc x.desc)
    (hx : s.group p.val = some x) (hdue : s.hopDue x p.val = true) :
    exec (.hopLaunch p) s =
      if d.period ≠ 0 ∧ s.hopSend p.val d (x.nextHop % d.n) = true ∧ s.hopHeld d x = true then
        .next (((s.setBit Fld.ATT_GROUP_STATUS_DEFERRED p.val true).setBit Fld.SDL_EVENT_FLAGS_DEFERRED p.val true).setGroupCtx p.val
          { x with late := true })
      else if x.nextHop % d.n = 0 ∧ s.hopSend p.val d (x.nextHop % d.n) = true ∧
          (s.ringHead d).any (fun e => s.tooBig p.val d (s.hopHome d x p.val) e.2.2) = true then
        .next (s.raiseError d.ngroup ccMismatch ((s.colGroup d.ngroup).elim 0 (·.opseq)))
      else if !s.hopSend p.val d (x.nextHop % d.n) then .next ((s.hopBegun d x p.val).notifyHop d (x.nextHop % d.n))
      else ((s.hopBegun d x p.val).notifyHop d (x.nextHop % d.n)).forwardHop d x p.val := by
  subst hd
  show execHopLaunch p s = _
  unfold execHopLaunch
  simp only [hx, hdue, Bool.not_true, Bool.false_eq_true, if_false]
  refine ite_congr (propext (and_congr_right fun _ => and_congr_right fun _ => ?held)) (fun _ => rfl) fun _ => rfl
  unfold State.hopHeld
  cases s.ringLink (s.groupDesc x.desc) <;> rfl


section
variable {s : State} {d : GroupDesc} {x : GroupCtx} {p : PlotIx} (hd : d = s.groupDesc x.desc) (hx : s.group p.val = some x)
  (hdue : s.hopDue x p.val = true)
include hd hx hdue

/-- A scheduled forward beyond its link's guard is deferred, and both flags say so (R188). -/
theorem exec_hopLaunch_defers (hperiod : d.period ≠ 0) (hsend : s.hopSend p.val d (x.nextHop % d.n) = true)
    (hheld : s.hopHeld d x = true) :
    exec (.hopLaunch p) s = .next (((s.setBit Fld.ATT_GROUP_STATUS_DEFERRED p.val true).setBit
      Fld.SDL_EVENT_FLAGS_DEFERRED p.val true).setGroupCtx p.val { x with late := true }) := by
  rw [exec_hopLaunch_due hd hx hdue, if_pos ⟨hperiod, hsend, hheld⟩]

/-- A hop whose block does not go on begins its attention, no more (R187). -/
theorem exec_hopLaunch_ends (hsend : s.hopSend p.val d (x.nextHop % d.n) = false) :
    exec (.hopLaunch p) s = .next ((s.hopBegun d x p.val).notifyHop d (x.nextHop % d.n)) := by
  simp [exec_hopLaunch_due hd hx hdue, hsend]

section
variable (hsend : s.hopSend p.val d (x.nextHop % d.n) = true) (hfree : d.period = 0 ∨ s.hopHeld d x = false)
include hsend hfree

/-- A home block that exceeds a ring buffer raises the common error instead of its launch (R186). -/
theorem exec_hopLaunch_tooBig {c : Nat} {ch : Chain} {o : OpDesc} (hhead : s.ringHead d = some (c, ch, o))
    (hhome : x.nextHop % d.n = 0) (hbig : s.tooBig p.val d (s.hopHome d x p.val) o = true) :
    exec (.hopLaunch p) s = .next (s.raiseError d.ngroup ccMismatch ((s.colGroup d.ngroup).elim 0 (·.opseq))) := by
  rw [exec_hopLaunch_due hd hx hdue, if_neg (by rintro ⟨h, -, h'⟩; simp [h, h'] at hfree), if_pos ⟨hhome, hsend, by simp [hhead, hbig]⟩]

/-- A hop launches and its block goes on, unless it is a home block that exceeds a ring buffer (R187). -/
theorem exec_hopLaunch_forwards {c : Nat} {ch : Chain} {o : OpDesc} (hhead : s.ringHead d = some (c, ch, o))
    (hfits : x.nextHop % d.n = 0 → s.tooBig p.val d (s.hopHome d x p.val) o = false) :
    exec (.hopLaunch p) s = ((s.hopBegun d x p.val).notifyHop d (x.nextHop % d.n)).forwardHop d x p.val := by
  rw [exec_hopLaunch_due hd hx hdue, if_neg (by rintro ⟨h, -, h'⟩; simp [h, h'] at hfree),
    if_neg (by rintro ⟨h, -, h'⟩; simp [hhead, hfits h] at h'), if_neg (by simp [hsend])]

end

end

/-! ### Timeouts (R188) -/

section
variable {s : State} {x : GroupCtx} {p : PlotIx} (hx : s.group p.val = some x) (htask : (s.task x.task).isSome = true)
include hx htask

/-- A ring whose next block is TIMEOUT ticks late aborts its task with the common error of its neighbour group. -/
theorem exec_ringTimeout_block {t : Nat} (layer group : Nat) (hring : (s.groupDesc x.desc).pattern = ptKvRing)
    (hlaunched : x.launched = some t) (hmore : x.hop % (s.groupDesc x.desc).n + 1 < (s.groupDesc x.desc).n)
    (haway : s.blockHere x (s.groupDesc x.desc) (x.hop % (s.groupDesc x.desc).n + 1) = false)
    (hlate : t + (s.groupDesc x.desc).timeout ≤ s.sundial) :
    exec (.ringTimeout p layer group) s = .next ((s.raiseError (s.groupDesc x.desc).ngroup ccTimeout
      ((s.colGroup (s.groupDesc x.desc).ngroup).elim 0 (·.opseq))).abortTask x.task fcFrost (some fcFrost) none none) := by
  show execRingTimeout p layer group s = _
  have hnot : ptKvRing ≠ ptDecode := by decide
  simp [execRingTimeout, hx, Option.isNone_eq_false_iff.mpr htask, hring, hnot, hlaunched, hmore, haway, hlate]

/-- A decode step whose piece is TIMEOUT ticks late aborts its task with the common error of its reply group. -/
theorem exec_ringTimeout_piece {layer group : Nat} (hdecode : (s.groupDesc x.desc).pattern = ptDecode) (htag : x.tag.isSome = true)
    (hlacks : x.lacks (s.groupDesc x.desc) layer group = true) (hlate : x.headTick + (s.groupDesc x.desc).timeout ≤ s.sundial) :
    exec (.ringTimeout p layer group) s = .next ((s.raiseError (s.groupDesc x.desc).rgroup ccTimeout
      ((s.colGroup (s.groupDesc x.desc).rgroup).elim 0 (·.opseq))).abortTask x.task fcFrost (some fcFrost) none none) := by
  show execRingTimeout p layer group s = _
  simp [execRingTimeout, hx, Option.isNone_eq_false_iff.mpr htask, hdecode, htag, hlacks, hlate]

end

/-! ### Ring buffers and drains (R75, R187, R320, R330) -/

/-- The only piece held, of a SHIFT that notifies no cell and that no operation and no ring needs, leaves the table; its credit goes back. -/
theorem exec_ringBufferRelease_only {s : State} {gi : GroupIx} {g : ColGroup} {c : Nat} {o : OpDesc} {y : ColIn}
    (hg : s.colGroup gi.val = some g) (hshift : s.shiftOp gi.val = some (c, o)) (hops : s.ops = []) (hin : s.colIn = [y])
    (hgroup : y.group = gi.val) (hopcode : y.opcode = opShift) (hoff : y.off = 0) (hring : s.group g.plot = none)
    (hnotifies : o.notifies = false) :
    exec (.ringBufferRelease gi) s = .next (({ s with colIn := [] } : State).send { Msg.to .credit 1 g.plot (g.chip y.src) with
      gen := s.chipTag, tag := gi.val * 2 ^ 24 + y.epoch * 2 ^ 16 + y.opseq, op := 0x81000000 }) := by
  show execRingBufferRelease gi s = _
  simp [execRingBufferRelease, hg, hshift, hops, hin, hgroup, hopcode, hoff, hring, State.shiftDone, hnotifies]

section
variable {s : State} {c : CellIx} {f : Drain} {rest : List Drain} (hdrains : (s.cell c.val).drains = f :: rest)
  (hmoved : ((s.cell c.val).transfers.filter fun t => t.port == .drain && t.stream.isNone).length ≤ (rest.flatMap (·.ranges)).length)
include hdrains hmoved

/-- A drain whose last byte has landed, on a counter of no FUSED operation, is acknowledged (R75). -/
theorem exec_drainAck_steps (hsinks : s.drainSinks (fusedTrigger f.fused) = []) :
    exec (.drainAck c) s = .next (s.ackDrain c.val f) := by
  show execDrainAck c s = _
  simp only [execDrainAck, hdrains, if_neg (Nat.not_lt.mpr hmoved), hsinks, List.isEmpty_nil, if_true]

/-- A drain that the only FUSED operation on its counter takes lands there (R320). -/
theorem exec_drainAck_lands {e : DrainSink × OpDesc × List Landed × Nat} {g : ColGroup} {u : State}
    (hsinks : s.drainSinks (fusedTrigger f.fused) = [e]) (hg : s.colGroup e.2.1.group = some g)
    (htakes : e.2.1.refusesDrain g c.val (bitsAt f.fused 10 13) f.len = false)
    (hnew : hasLanded e.2.2.1 e.2.2.2 (bitsAt f.fused 10 13) (e.2.1.cells.findIdx (· == c.val)) = false)
    (hstore : s.storeBytes (e.2.1.contribAddr (bitsAt f.fused 10 13) (e.2.1.cells.findIdx (· == c.val))) (s.drainBytes c.val f) =
      (u, none)) :
    exec (.drainAck c) s = .next (u.noteDrain c.val f e.1 e.2.1 e.2.2.2) := by
  show execDrainAck c s = _
  have hland : s.landDrain c.val f e.1 e.2.1 e.2.2.2 = u.noteDrain c.val f e.1 e.2.1 e.2.2.2 := by
    simp only [State.landDrain, hstore]
  simp only [execDrainAck, hdrains, if_neg (Nat.not_lt.mpr hmoved), hsinks]
  simp [hg, htakes, hnew, hland]

end

/-- Settles O35, one clause per case of each command. -/
theorem groupStepsPiecesAndRingHops : Obligations.GroupStepsPiecesAndRingHops := by
  intro s m p x d hd
  refine ⟨fun hhub hmal hself hx => ⟨fun hdecode hlead hdue hok => ?header, ?pieces⟩, ?hop, fun layer group hx htask => ⟨?block, ?piece⟩,
    ?release, fun c f rest hdrains hmoved => ⟨exec_drainAck_steps hdrains hmoved, ?lands⟩⟩
  case header =>
    subst hd
    rw [exec_stepHeader_sound hhub hmal hself hx hdecode hlead hdue hok]
    refine ⟨fun hmember => ?_, fun hself hfree => ?_, fun hself hwaits => ?_⟩
    · rw [if_neg hmember]; rfl
    · rw [if_pos hself, if_neg (by simp [hfree])]
    · rw [if_pos hself, if_pos hwaits]
  case pieces =>
    subst hd
    rintro h rfl htag hok
    refine ⟨fun hkind hmember hgroup => ?_, fun hkind hmember hgroup => ?_⟩ <;>
      exact congrArg Host.Outcome.next ((State.arriving_here hhub hmal hself _ _).trans
        (State.groupPiece_takes hx htag hkind hmember hgroup hok))
  case hop =>
    rintro h sends held home block v w hx hdue rfl rfl rfl rfl rfl hv hw
    have hbegun : v = s.hopBegun d x p.val := hv.trans (s.hopBegun_eq d x p.val).symm
    have hlaunch : w = (s.hopBegun d x p.val).notifyHop d (x.nextHop % d.n) := by rw [hw, hbegun, State.notifyHop_eq]
    refine ⟨exec_hopLaunch_defers hd hx hdue, fun hopen => ⟨fun hsend => ?ends, fun c ch o g hsend hhead hwhead hwg => ?sends⟩⟩
    case ends => rw [hlaunch, exec_hopLaunch_ends hd hx hdue hsend]
    case sends =>
      have hfree : d.period = 0 ∨ s.hopHeld d x = false := hopen.imp_right fun h => h.resolve_left (by simp [hsend])
      have hforwards := exec_hopLaunch_forwards hd hx hdue hsend hfree hhead
      rw [← hlaunch, State.forwardHop_fires hwhead hwg] at hforwards
      refine ⟨fun hhome hfits => ?home, exec_hopLaunch_tooBig hd hx hdue hsend hfree hhead, fun hvisit => ?visit⟩
      case home => rw [hforwards fun _ => hfits, if_pos hhome]
      case visit => rw [hforwards fun hhome => absurd hhome hvisit, if_neg hvisit]
  case block =>
    subst hd
    intro t hring hlaunched hmore haway hlate
    exact exec_ringTimeout_block hx htask layer group hring hlaunched hmore haway hlate
  case piece =>
    subst hd
    exact exec_ringTimeout_piece hx htask
  case release =>
    intro gi g c o y hg hshift hops hin hgroup hopcode hoff hring hnotifies
    exact exec_ringBufferRelease_only hg hshift hops hin hgroup hopcode hoff hring hnotifies
  case lands =>
    intro e g u hsinks hg htakes hnew hstore
    exact exec_drainAck_lands hdrains hmoved hsinks hg htakes hnew hstore

end Sys2Proof.Machine
end

section
/-!
The special-function instructions of a cell at issue (R82 to R84, R89 to R91): each goes to the grant stage and nowhere else. Settles O6.
-/

namespace Sys2Proof.Machine
open Sys2Proof

/-- A change of the cell's own state that keeps its flight list. -/
theorem CellEffect.setCell {c : Nat} {s u : State} (h : CellEffect c s u) {x : Cell} (hx : x.inflight = (u.cell c).inflight) :
    CellEffect c s (u.setCell c x) where
  wfRegs := h.wfRegs
  wfCells := u.wf_cells_setCell c x h.wfCells
  inflight := by rw [State.cell_setCell_same u c x h.wfCells, hx, h.inflight]
  hostMem := h.hostMem
  others d hd := by rw [State.cell_setCell_other u x hd, h.others d hd]
  regs := h.regs

section
variable {s : State} {c : Nat} {w : W128}

theorem sfnEffect_cellEffect (hs : s.canonical = true) : CellEffect c s (sfnEffect c w s).1 := (CellEffect.refl c hs).setCell rfl

/-- The instruction that stands at the grant stage of a cell after the effect (R84). -/
theorem sfn_sfnEffect (hs : s.canonical = true) :
    ((sfnEffect c w s).1.cell c).sfn = some ⟨(s.cell c).next, w, 0, false, foldArea (s.cell c) (sfnWord w)⟩ :=
  congrArg Cell.sfn (State.cell_setCell_same s c _ (State.canonical_cells hs))

/-- What R84 does not keep back issues. -/
theorem State.issueSfn_of_not_waits (hwait : sfnWaits s c w = false) (e : Ecc) :
    s.issueSfn c w e = s.issue c w e (sfnPlan s c w) (sfnEffect c w) :=
  if_neg (by simp [hwait])

theorem isSfn_of_opcode {p : Nat → Bool} (hop : opcodeOf w = 0x30) (hfunc : p (sfnWord w).func = true) : isSfn w p = true := by
  simp [isSfn, hop, hfunc]

end

/-- Settles O6: the four instructions differ in their function codes only, and all enter flight by one effect, which stores nothing. -/
theorem sfnInstructionsReachGrantStage : Obligations.SfnInstructionsReachGrantStage := by
  intro s c w hs hwait hi waiting
  have heffect := sfnEffect_cellEffect (c := c.val) (w := w) hs
  have hwaiting : waiting (s.issueSfn c.val w .clean) := by
    rw [State.issueSfn_of_not_waits hwait]
    refine ⟨?stage, State.issue_inFlightAfter c.isLt hi rfl heffect, State.mem_issue hi, State.hostMem_issue hi, State.poison_issue hi⟩
    case stage => rw [State.cell_issue_same hi rfl heffect]; exact sfn_sfnEffect hs
  have hcompletes {p : Nat → Bool} (hop : opcodeOf w = 0x30) (hfunc : p (sfnWord w).func = true) :
      (if isSfn w p then s.issueSfn c.val w .clean else s) = s.issueSfn c.val w .clean := if_pos (isSfn_of_opcode hop hfunc)
  refine ⟨fun hop hsqacc hrmsr hmul3 => ⟨_, congrArg Host.Outcome.next (hcompletes hop ?sfn), hwaiting⟩,
    fun hop hf => ⟨_, congrArg Host.Outcome.next (hcompletes hop ?sqacc), hwaiting⟩,
    fun hop hf => ⟨_, congrArg Host.Outcome.next (hcompletes hop ?rmsr), hwaiting⟩,
    fun hop hf => ⟨_, congrArg Host.Outcome.next (hcompletes hop ?mul3), hwaiting⟩⟩
  case sfn => simp [hsqacc, hrmsr, hmul3]
  case sqacc => simp [hf]
  case rmsr => simp [hf]
  case mul3 => simp [hf]

end Sys2Proof.Machine
end

section
/-!
The load, test and mode of a special-function unit, and a mismatch of its check lanes (R98 to R101, R104). Settles O13.
-/

namespace Sys2Proof.Machine
open Sys2Proof

theorem State.canonical_blocks {s : State} (h : s.canonical = true) : Sparse.wf (fun _ => Block.empty) s.blocks = true := by
  simp only [State.canonical, Bool.and_eq_true, and_assoc] at h
  obtain ⟨-, -, -, -, -, hblocks, -⟩ := h
  exact hblocks

theorem State.block_setBlock_same (s : State) (b : Nat) (x : Block) (h : Sparse.wf (fun _ => Block.empty) s.blocks = true) :
    (s.setBlock b x).block b = x := Sparse.get_set_same _ _ _ _ h

theorem MemSame.trans {s u t : State} (h : MemSame s u) (h' : MemSame u t) : MemSame s t := by
  obtain ⟨hmem, hhost, hpoison⟩ := h
  obtain ⟨hmem', hhost', hpoison'⟩ := h'
  exact ⟨hmem'.trans hmem, hhost'.trans hhost, hpoison'.trans hpoison⟩

/-! ### What the work of a unit leaves as it was -/

/-- `u` comes from `s` by work that writes the registers `l` and the state of blocks only; the register file and the blocks keep their
canonical form. -/
structure UnitWork (l : List (Reg × Nat)) (s u : State) : Prop where
  wfRegs : Sparse.wf regReset u.regs = true
  wfBlocks : Sparse.wf (fun _ => Block.empty) u.blocks = true
  regs : RegsKept s u l
  mem : MemSame s u

theorem UnitWork.refl (l : List (Reg × Nat)) {s : State} (h : s.canonical = true) : UnitWork l s s :=
  ⟨State.canonical_regs h, State.canonical_blocks h, fun _ _ _ _ => rfl, rfl, rfl, rfl⟩

section
variable {l : List (Reg × Nat)} {s u : State} (h : UnitWork l s u)
include h

/-- Work goes on from what work has left. -/
theorem UnitWork.restart (l' : List (Reg × Nat)) : UnitWork l' u u :=
  ⟨h.wfRegs, h.wfBlocks, fun _ _ _ _ => rfl, rfl, rfl, rfl⟩

theorem UnitWork.setReg {r : Reg} {i : Nat} (hi : i < r.count) (hl : (r, i) ∈ l) (v : W32) : UnitWork l s (u.setReg r i v) where
  wfRegs := u.wf_setReg r i v h.wfRegs
  wfBlocks := h.wfBlocks
  regs q j hj hq := by
    have hne : ¬(q = r ∧ j = i) := by rintro ⟨rfl, rfl⟩; exact hq hl
    exact (u.reg_setReg_other v hi hj hne).trans (h.regs q j hj hq)
  mem := h.mem

theorem UnitWork.setFld {f : Fld} {i : Nat} (hi : i < f.reg.count) (hl : (f.reg, i) ∈ l) (v : Nat) : UnitWork l s (u.setFld f i v) :=
  h.setReg hi hl _

theorem UnitWork.setBit {f : Fld} {i : Nat} (hi : i < f.reg.count) (hl : (f.reg, i) ∈ l) (v : Bool) : UnitWork l s (u.setBit f i v) :=
  h.setFld hi hl _

theorem UnitWork.setBlock (b : Nat) (x : Block) : UnitWork l s (u.setBlock b x) :=
  ⟨h.wfRegs, Sparse.wf_set _ _ _ _ h.wfBlocks, h.regs, h.mem⟩

theorem UnitWork.ite {v : State} (hv : UnitWork l s v) {p : Prop} [Decidable p] : UnitWork l s (if p then u else v) := by
  split
  · exact h
  · exact hv

theorem UnitWork.recordInfo {r : Reg} {i : Nat} (hi : i < r.count) (hl : (r, i) ∈ l) (info : Nat) :
    UnitWork l s (u.recordInfo r i info) := (h.setReg hi hl _).ite (h.setReg hi hl _)

/-- The write path of the store writes the reference at most (R436, R438). -/
theorem UnitWork.viaStore (hl : (.HUB_CONFIG_REF, 0) ∈ l) (old : State) : UnitWork l s (old.viaStore u) := by
  have hkept (k : List (Nat × Nat)) : UnitWork l s { u with storeUpset := k } := ⟨h.wfRegs, h.wfBlocks, h.regs, h.mem⟩
  exact ((hkept _).setReg (by decide) hl _).ite (hkept _)

/-- A field of a register that the work does not write reads as before. -/
theorem UnitWork.fld {f : Fld} {i : Nat} (hi : i < f.reg.count) (hl : (f.reg, i) ∉ l) : u.fld f i = s.fld f i :=
  congrArg (fun v : W32 => bitsAt v.toNat f.lo f.width) (h.regs f.reg i hi hl)

theorem UnitWork.bit {f : Fld} {i : Nat} (hi : i < f.reg.count) (hl : (f.reg, i) ∉ l) : u.bit f i = s.bit f i :=
  congrArg (· != 0) (h.fld hi hl)

end

/-- A one-bit field reads as it was last set. -/
theorem State.bit_setBit_same (s : State) (f : Fld) (i : Nat) (v : Bool) (h : Sparse.wf regReset s.regs = true)
    (hf : f.lo + f.width ≤ 32) (hw : f.width = 1) : (s.setBit f i v).bit f i = v := by
  rw [State.bit, State.setBit, State.fld_setFld_same _ _ _ _ h hf, hw]
  cases v <;> rfl

/-! ### Load and test (R99, R100) -/

/-- The registers of block `b`'s unit that a load and test writes. -/
def sfuRegs (b : Nat) : List (Reg × Nat) := [(.SFU_MODE, b), (.SFU_STATUS, b), (.SFU_FAULT_INFO, b), (.SFU_TABLE_CRC, b)]

section
variable {s u : State} {b : Nat} {t : SfuTest}

/-- A run starts with an empty pipeline and the CRC that it formed (R99 steps 1 to 3). -/
def State.sfuTestBegun (s : State) (b : Nat) (t : SfuTest) : State :=
  (s.setBlock b { s.block b with pipe := [] }).setReg .SFU_TABLE_CRC b (BitVec.ofNat 32 t.crc)

theorem State.sfuTestOnce_passes (hcrc : t.crcOk = true) (hkat : t.katOk = true) :
    s.sfuTestOnce b t = (((s.sfuTestBegun b t).setFld Fld.SFU_STATUS_STATE b 2).sfuInService b, true) := by
  simp [State.sfuTestOnce, State.sfuTestBegun, hcrc, hkat]

theorem State.sfuTestOnce_crcFails (hcrc : t.crcOk = false) :
    s.sfuTestOnce b t = (((s.sfuTestBegun b t).sfuFault b 4 0 0).setFld Fld.SFU_STATUS_STATE b 4, false) := by
  simp [State.sfuTestOnce, State.sfuTestBegun, hcrc]

theorem State.sfuLoadTest_passes {t1 t2 : SfuTest} (h : (s.sfuTestOnce b t1).2 = true) :
    s.sfuLoadTest b t1 t2 = (s.sfuTestOnce b t1).1 := if_pos h

theorem State.sfuLoadTest_fails {t1 t2 : SfuTest} (h1 : (s.sfuTestOnce b t1).2 = false)
    (h2 : ((s.sfuTestOnce b t1).1.sfuTestOnce b t2).2 = false) :
    s.sfuLoadTest b t1 t2 = ((s.sfuTestOnce b t1).1.sfuTestOnce b t2).1.blockOut b := by
  simp [State.sfuLoadTest, h1, h2]

section
variable (hb : b < 32)
include hb

theorem UnitWork.sfuTestBegun {l : List (Reg × Nat)} (h : UnitWork l s u) (hl : (.SFU_TABLE_CRC, b) ∈ l) :
    UnitWork l s (u.sfuTestBegun b t) := (h.setBlock _ _).setReg hb hl _

/-- Putting a unit in service writes its mode and its status only. -/
theorem UnitWork.sfuInService {l : List (Reg × Nat)} (h : UnitWork l s u) (hmode : (.SFU_MODE, b) ∈ l)
    (hstatus : (.SFU_STATUS, b) ∈ l) : UnitWork l s (u.sfuInService b) :=
  ((((h.setBlock _ _).setFld hb hmode _).setFld hb hmode _).setFld hb hstatus _).setFld hb hstatus _

/-- A run whose CRC fails writes the unit's own registers only. -/
theorem UnitWork.sfuTestOnce_crcFails (h : UnitWork (sfuRegs b) s u) (hcrc : t.crcOk = false) :
    UnitWork (sfuRegs b) s (u.sfuTestOnce b t).1 := by
  rw [State.sfuTestOnce_crcFails hcrc]
  exact ((h.sfuTestBegun hb (by simp [sfuRegs])).recordInfo hb (by simp [sfuRegs]) _).setFld hb (by simp [sfuRegs, Fld.SFU_STATUS_STATE]) _

end

/-- A unit in service shows STATE 3 (R99 step 6). -/
theorem State.state_sfuInService (h : Sparse.wf regReset s.regs = true) : (s.sfuInService b).fld Fld.SFU_STATUS_STATE b = 3 :=
  State.fld_setFld_same _ Fld.SFU_STATUS_STATE b 3 (State.wf_setFld _ _ _ _ (State.wf_setFld _ _ _ _ (State.wf_setFld _ _ _ _ h)))
    (by decide)

/-- The first run passes: the unit is in service, its CRC shown (R99). -/
theorem exec_sfuLoadTest_passes {b : BlockIx} {t1 t2 : SfuTest} (hs : s.canonical = true) (hstate : s.fld Fld.SFU_STATUS_STATE b.val ≤ 1)
    (hcrc : t1.crcOk = true) (hkat : t1.katOk = true) :
    Completes (.sfuLoadTest b t1 t2) s fun t =>
      t.fld Fld.SFU_STATUS_STATE b.val = 3 ∧ t.reg .SFU_TABLE_CRC b.val = BitVec.ofNat 32 t1.crc ∧ MemSame s t := by
  have honce := State.sfuTestOnce_passes (s := s) (b := b.val) hcrc hkat
  have hbegun := (UnitWork.refl (sfuRegs b.val) hs).sfuTestBegun (t := t1) b.isLt (by simp [sfuRegs])
  have htested := (hbegun.restart [(.SFU_MODE, b.val), (.SFU_STATUS, b.val)]).setFld
    (f := Fld.SFU_STATUS_STATE) b.isLt (by simp [Fld.SFU_STATUS_STATE]) 2
  have hserves := htested.sfuInService b.isLt (by simp) (by simp)
  refine ⟨_, congrArg Host.Outcome.next ((if_pos hstate).trans (State.sfuLoadTest_passes (by rw [honce]))), ?_⟩
  rw [honce]
  refine ⟨State.state_sfuInService htested.wfRegs, ?crc, hbegun.mem.trans hserves.mem⟩
  case crc =>
    rw [hserves.regs .SFU_TABLE_CRC b.val b.isLt (by simp)]
    exact State.reg_setReg_same _ _ _ _ (State.canonical_regs hs :)

/-! ### Out of service (R100) -/

/-- The unit and its block marked out of service, before the block's cells are. -/
def State.unitOut (s : State) (b : Nat) : State :=
  (s.setBlock b { s.block b with outOfService := true }).setFld Fld.SFU_STATUS_STATE b 5

theorem State.blockOut_eq (s : State) (b : Nat) :
    s.blockOut b = (List.range 16).foldl (fun u i => u.setFld Fld.CEL_STATE_STATE (16 * b + i) csOut) (s.unitOut b) := rfl

/-- One field stored at one index after another. -/
theorem UnitWork.foldl_setFld {l : List (Reg × Nat)} {f : Fld} (k : Nat → Nat) (v : Nat) (xs : List Nat) (h : UnitWork l s u)
    (hx : ∀ i ∈ xs, k i < f.reg.count ∧ (f.reg, k i) ∈ l) : UnitWork l s (xs.foldl (fun u i => u.setFld f (k i) v) u) :=
  List.foldlRecOn xs _ h fun _ hu i hi => hu.setFld (hx i hi).1 (hx i hi).2 v

theorem State.blocks_foldl_setFld (s : State) (f : Fld) (k : Nat → Nat) (v : Nat) (xs : List Nat) :
    (xs.foldl (fun u i => u.setFld f (k i) v) s).blocks = s.blocks :=
  List.foldlRecOn (motive := fun u : State => u.blocks = s.blocks) xs _ rfl fun _ hu _ _ => hu

theorem UnitWork.unitOut {l : List (Reg × Nat)} (hb : b < 32) (h : UnitWork l s u) (hl : (.SFU_STATUS, b) ∈ l) :
    UnitWork l s (u.unitOut b) := (h.setBlock _ _).setFld (f := Fld.SFU_STATUS_STATE) hb hl _

/-- Taking the cells of a block out of service writes their CEL_STATE only. -/
theorem UnitWork.blockOut_cells {l : List (Reg × Nat)} (hb : b < 32) (h : UnitWork l s (u.unitOut b)) :
    UnitWork ((List.range 16).map fun i => (.CEL_STATE, 16 * b + i)) (u.unitOut b) (u.blockOut b) := by
  rw [State.blockOut_eq]
  refine UnitWork.foldl_setFld (f := Fld.CEL_STATE_STATE) _ _ _ (h.restart _) fun i hi => ⟨?_, List.mem_map.mpr ⟨i, hi, rfl⟩⟩
  have hi := List.mem_range.mp hi
  show 16 * b + i < 512
  omega

/-- A block that goes out of service shows so itself and in its unit's STATE, and keeps memory. -/
theorem UnitWork.blockOut {l : List (Reg × Nat)} (hb : b < 32) (h : UnitWork l s u) (hl : (.SFU_STATUS, b) ∈ l) :
    (u.blockOut b).fld Fld.SFU_STATUS_STATE b = 5 ∧ ((u.blockOut b).block b).outOfService = true ∧ MemSame s (u.blockOut b) := by
  have hunit := h.unitOut hb hl
  have hcells := hunit.blockOut_cells hb
  have hblocks : (u.blockOut b).blocks = (u.unitOut b).blocks := by rw [State.blockOut_eq, State.blocks_foldl_setFld]
  refine ⟨?state, ?block, hunit.mem.trans hcells.mem⟩
  case state =>
    rw [hcells.fld hb (by simp [Fld.SFU_STATUS_STATE])]
    exact State.fld_setFld_same _ Fld.SFU_STATUS_STATE b 5 (h.wfRegs :) (by decide)
  case block =>
    unfold State.block
    rw [hblocks]
    exact congrArg Block.outOfService (u.block_setBlock_same b _ h.wfBlocks)

/-- Two runs whose CRC fails take the block out of service (R99, R100). -/
theorem exec_sfuLoadTest_fails {b : BlockIx} {t1 t2 : SfuTest} (hs : s.canonical = true) (hstate : s.fld Fld.SFU_STATUS_STATE b.val ≤ 1)
    (hcrc1 : t1.crcOk = false) (hcrc2 : t2.crcOk = false) :
    Completes (.sfuLoadTest b t1 t2) s fun t =>
      t.fld Fld.SFU_STATUS_STATE b.val = 5 ∧ (t.block b.val).outOfService = true ∧ MemSame s t := by
  have hfirst := (UnitWork.refl (sfuRegs b.val) hs).sfuTestOnce_crcFails b.isLt hcrc1
  have hfails := State.sfuLoadTest_fails (s := s) (b := b.val) (by rw [State.sfuTestOnce_crcFails hcrc1])
    (by rw [State.sfuTestOnce_crcFails hcrc2])
  have hsecond := hfirst.sfuTestOnce_crcFails b.isLt hcrc2
  exact ⟨_, congrArg Host.Outcome.next ((if_pos hstate).trans hfails), hsecond.blockOut b.isLt (by simp [sfuRegs])⟩

/-! ### Mode (R99, R101, R104) -/

section
variable {a : Agent} {b : BlockIx} (hpriv : s.privOk a = true) (hidle : s.blockBusy b.val = false)
include hpriv hidle

theorem exec_sfuModeTest_starts (hstate : s.fld Fld.SFU_STATUS_STATE b.val ≠ 5) :
    exec (.sfuModeTest a b) s =
      .next ((s.setBlock b.val { s.block b.val with pipe := [] }).setFld Fld.SFU_STATUS_STATE b.val 1) := by
  show execSfuModeTest a b s = _
  rw [execSfuModeTest, if_neg (by simp [hpriv]), if_neg (by simp [hidle]), if_neg hstate]

theorem exec_sfuModeCompat_sets (v : Bool) :
    exec (.sfuModeCompat a b v) s =
      .next (s.viaStore ((s.setBit Fld.SFU_MODE_COMPAT b.val v).setBit Fld.SFU_STATUS_COMPAT b.val v)) := by
  show execSfuModeCompat a b v s = _
  rw [execSfuModeCompat, if_neg (by simp [hpriv]), if_neg (by simp [hidle])]

end

end

/-! ### A mismatch of the check lanes (R98) -/

theorem KeepsCells.sfuFault {s u : State} (h : KeepsCells s u) (b kind cell detail : Nat) :
    KeepsCells s (u.sfuFault b kind cell detail) := .ite (h.setReg _ _ _) (h.setReg _ _ _)

/-- A fault whose code asks for a reset has it stand requested (R78, R399). -/
theorem Released.faultReset {c : Nat} {l : List ResetReq} {u : State} (h : Released c l u) {code level cause index : Nat}
    (hreq : resetOfCellFault c code = some (level, cause, index)) (ended : List (Nat × Task)) :
    ∃ l', Released c l' (u.faultReset c code ended) ∧ ∃ q ∈ l', q.level = level ∧ q.index = index := by
  have hreset : u.faultReset c code ended = u.requestReset level cause index (some c) ended := by simp only [State.faultReset, hreq]
  have hcells := u.cells_requestReset level cause index (some c) ended
  rw [hreset]
  refine ⟨_, ⟨hcells ▸ h.wfCells, ?_, rfl⟩, u.mem_resets_requestReset level cause index (some c) ended⟩
  unfold State.cell
  rw [hcells]
  exact h.idle

/-- A fault of a cell with a task whose code asks for a reset leaves the cell without one and the reset requested (R78). -/
theorem State.cellFault_releases {s : State} {c tid code level cause index : Nat}
    (hw : Sparse.wf (fun _ => Cell.empty) s.cells = true) (htask : (s.cell c).task = some tid)
    (hreq : resetOfCellFault c code = some (level, cause, index)) (instr : Nat) :
    ((s.cellFault c code instr).cell c).task = none ∧
      ∃ q, q ∈ (s.cellFault c code instr).resets ∧ q.level = level ∧ q.index = index := by
  have hrecord := ((KeepsCells.refl s).recordCellFault c code instr).cells
  have hdiscard := State.discardCell_released (c := c) (hrecord ▸ hw)
  obtain ⟨l, hreset, q, hq, hdomain⟩ := hdiscard.faultReset hreq ((s.recordCellFault c code instr).taskPair tid)
  have hafter := hreset.abortTask tid code (othersRecord code) (some c) none
  rw [State.cellFault_of_task htask]
  exact ⟨hafter.idle, q, by rw [hafter.resets]; exact hq, hdomain⟩

/-- A lane that the check lanes recompute differently is a fault of its vector's cell (R98). -/
theorem exec_checkLaneMismatch_faults {s : State} {c : CellIx} {lane : Nat} {v : SfnVec}
    (hvec : (s.block (blockOfCell c.val)).pipe.find? (fun v => v.cell == c.val % 16 && v.seqNo == lane / 8) = some v) :
    exec (.checkLaneMismatch c lane) s =
      .next ((s.sfuFault (blockOfCell c.val) 2 (c.val % 16) lane).cellFault c.val fcSfuTable v.index) := by
  show execCheckLaneMismatch c lane s = _
  simp only [execCheckLaneMismatch, hvec]

/-- Settles O13, one clause per case of each command. -/
theorem specialFunctionUnitLoadTestAndMode : Obligations.SpecialFunctionUnitLoadTestAndMode := by
  intro s b hs
  refine ⟨fun t1 t2 hstate hcrc hkat => exec_sfuLoadTest_passes hs hstate hcrc hkat,
    fun t1 t2 hstate hcrc1 hcrc2 => exec_sfuLoadTest_fails hs hstate hcrc1 hcrc2,
    fun a hpriv hidle hstate => ⟨_, exec_sfuModeTest_starts hpriv hidle hstate, ?test⟩,
    fun a v hpriv hidle => ⟨_, exec_sfuModeCompat_sets hpriv hidle v, ?compat⟩,
    fun c lane v htask hvec => ⟨_, exec_checkLaneMismatch_faults hvec, ?mismatch⟩⟩
  case test =>
    have hstarts := ((UnitWork.refl [(.SFU_STATUS, b.val)] hs).setBlock b.val { s.block b.val with pipe := [] }).setFld
      (f := Fld.SFU_STATUS_STATE) b.isLt (by simp [Fld.SFU_STATUS_STATE]) 1
    exact ⟨State.fld_setFld_same _ Fld.SFU_STATUS_STATE b.val 1 (State.canonical_regs hs :) (by decide), hstarts.regs, hstarts.mem⟩
  case compat =>
    have hmode := (UnitWork.refl [(.SFU_MODE, b.val), (.SFU_STATUS, b.val), (.HUB_CONFIG_REF, 0)] hs).setBit
      (f := Fld.SFU_MODE_COMPAT) b.isLt (by simp [Fld.SFU_MODE_COMPAT]) v
    have hstatus := hmode.setBit (f := Fld.SFU_STATUS_COMPAT) b.isLt (by simp [Fld.SFU_STATUS_COMPAT]) v
    have hstore := hstatus.viaStore (by simp) s
    have hbeside := (hmode.restart [(.SFU_STATUS, b.val)]).setBit (f := Fld.SFU_STATUS_COMPAT) b.isLt
      (by simp [Fld.SFU_STATUS_COMPAT]) v
    have hreference := (hstatus.restart [(.HUB_CONFIG_REF, 0)]).viaStore (by simp) s
    refine ⟨?mode, ?status, hstore.regs, hstore.mem⟩
    case mode =>
      rw [hreference.bit (f := Fld.SFU_MODE_COMPAT) b.isLt (by simp [Fld.SFU_MODE_COMPAT]),
        hbeside.bit (f := Fld.SFU_MODE_COMPAT) b.isLt (by simp [Fld.SFU_MODE_COMPAT])]
      exact State.bit_setBit_same s _ _ v (State.canonical_regs hs) (by decide) rfl
    case status =>
      rw [hreference.bit (f := Fld.SFU_STATUS_COMPAT) b.isLt (by simp [Fld.SFU_STATUS_COMPAT])]
      exact State.bit_setBit_same _ _ _ v hmode.wfRegs (by decide) rfl
  case mismatch =>
    obtain ⟨tid, htid⟩ := Option.isSome_iff_exists.mp htask
    have hcells := ((KeepsCells.refl s).sfuFault (blockOfCell c.val) 2 (c.val % 16) lane).cells
    exact State.cellFault_releases (hcells ▸ State.canonical_cells hs) (by unfold State.cell; rw [hcells]; exact htid) rfl v.index

end Sys2Proof.Machine
end

section
/-!
SFU_LOAD and SFU_UNLOAD (R94, R95, R368): a ring command that is taken runs its body. Settles O50.
-/

namespace Sys2Proof.Machine
open Sys2Proof

/-- A command that is taken, its arguments in range, runs its body; entries of unknown OPCODE behind it complete (R137). -/
theorem State.runCommand_taken {s u : State} {p op : Nat} {c : Cmd} (htake : s.take p op = some (c, u)) {ok : Cmd → Bool}
    (hok : ok c = true) (body : Cmd → State → State) : s.runCommand p op ok body = State.dropUnknown ringFuel (body c u) := by
  simp only [State.runCommand, htake, hok, if_true]

section
variable {s u : State} {p : PlotIx} {c : Cmd} {q : Plot}

section
variable (htake : s.take p.val 0x70 = some (c, u)) (hclean : c.cleanFrom 24 = true) (hseq : c.seqNo = 0) (hzero : c.arg 9 7 = 0)
  (hslot : c.arg 8 1 < 4) (hheader : u.ownsRange p.val (c.arg 16 8) 16 = true) (htable : tableOk (u.loadBytes (c.arg 16 8) 16) = true)
  {n : Nat} (hn : n = 16 + 16 * 2 ^ leNat (((u.loadBytes (c.arg 16 8) 16).drop 5).take 1))
  (howns : u.ownsRange p.val (c.arg 16 8) n = true) (hpoison : u.firstPoison (c.arg 16 8) n = none)
include htake hclean hseq hzero hslot hheader htable hn howns hpoison

/-- While no cell of the plot's blocks runs a task, the table becomes the plot's and every block's (R94, R95). -/
theorem exec_sfuLoad_loads (hplot : u.plot p.val = some q)
    (hidle : (maskBlocks (u.fld Fld.PLT_BLOCKS_BLOCKS p.val)).any u.blockBusy = false) :
    exec (.sfuLoad p) s = .next (State.dropUnknown ringFuel (((maskBlocks (u.fld Fld.PLT_BLOCKS_BLOCKS p.val)).foldl
      (fun s b => s.loadTables p.val b)
      (u.setPlot p.val { q with user := Table.put q.user (c.arg 8 1) (u.loadBytes (c.arg 16 8) n) })).finish c.id stOk 0)) := by
  subst hn
  show execSfuLoad p s = _
  rw [execSfuLoad, State.runCommand_taken htake (by simp [hclean, hseq, hzero, hslot])]
  simp only [hheader, htable, howns, hpoison, hidle, hplot, Bool.true_eq_false, or_self, if_false, Option.isSome_none, Bool.false_eq_true]

/-- While a cell of them runs a task, the command completes with BUSY (R368). -/
theorem exec_sfuLoad_busy (hbusy : (maskBlocks (u.fld Fld.PLT_BLOCKS_BLOCKS p.val)).any u.blockBusy = true) :
    exec (.sfuLoad p) s = .next (State.dropUnknown ringFuel (u.finishOpen c.id stBusy)) := by
  subst hn
  show execSfuLoad p s = _
  rw [execSfuLoad, State.runCommand_taken htake (by simp [hclean, hseq, hzero, hslot])]
  simp only [hheader, htable, howns, hpoison, hbusy, Bool.true_eq_false, or_self, if_false, if_true, Option.isSome_none, Bool.false_eq_true]

end

section
variable (htake : s.take p.val 0x71 = some (c, u)) (hclean : c.cleanFrom 9 = true) (hseq : c.seqNo = 0) (hslot : c.arg 8 1 < 4)
include htake hclean hseq hslot

/-- While no cell of the plot's blocks runs a task, the table leaves the plot and every block (R368). -/
theorem exec_sfuUnload_unloads (hplot : u.plot p.val = some q)
    (hidle : (maskBlocks (u.fld Fld.PLT_BLOCKS_BLOCKS p.val)).any u.blockBusy = false) :
    exec (.sfuUnload p) s = .next (State.dropUnknown ringFuel (((maskBlocks (u.fld Fld.PLT_BLOCKS_BLOCKS p.val)).foldl
      (fun s b => s.loadTables p.val b) (u.setPlot p.val { q with user := Table.del q.user (c.arg 8 1) })).finish c.id stOk 0)) := by
  show execSfuUnload p s = _
  rw [execSfuUnload, State.runCommand_taken htake (by simp [hclean, hseq, hslot])]
  simp only [hidle, hplot, if_false, Bool.false_eq_true]

/-- While a cell of them runs a task, the command completes with BUSY (R368). -/
theorem exec_sfuUnload_busy (hbusy : (maskBlocks (u.fld Fld.PLT_BLOCKS_BLOCKS p.val)).any u.blockBusy = true) :
    exec (.sfuUnload p) s = .next (State.dropUnknown ringFuel (u.finishOpen c.id stBusy)) := by
  show execSfuUnload p s = _
  rw [execSfuUnload, State.runCommand_taken htake (by simp [hclean, hseq, hslot])]
  simp only [hbusy, if_true]

end

end

/-- Settles O50: a table is loaded or unloaded while the plot's blocks run no task, and BUSY otherwise. -/
theorem userTablesAreLoadedAndUnloaded : Obligations.UserTablesAreLoadedAndUnloaded := by
  intro s u p c q
  refine ⟨fun n htake hclean hseq hzero hslot hheader htable hn howns hpoison hplot => ⟨?loads, ?loadBusy⟩,
    fun htake hclean hseq hslot hplot => ⟨?unloadBusy, ?unloads⟩⟩
  case loads => exact exec_sfuLoad_loads htake hclean hseq hzero hslot hheader htable hn howns hpoison hplot
  case loadBusy => exact exec_sfuLoad_busy htake hclean hseq hzero hslot hheader htable hn howns hpoison
  case unloads => exact exec_sfuUnload_unloads htake hclean hseq hslot hplot
  case unloadBusy => exact exec_sfuUnload_busy htake hclean hseq hslot

end Sys2Proof.Machine
end

section
/-!
The attention instructions of a cell at issue (R105 to R121): each effect touches its own cell, its block, memory and CEL_NUM_STATUS, and
each instruction owes a check when it issues. Settles O4.
-/

namespace Sys2Proof.Machine
open Sys2Proof

/-! ### The rows of an ATS (R109 to R113) -/

/-- The keys of an ATS and their vectors, as it reads them (R110). -/
def State.atsKeys (s : State) (c : Nat) (w : W128) : List (KeyEntry × List (Val × NumFlags)) :=
  let a := atsWord w
  let d := s.attDesc c a.doff
  (List.range a.cols).map fun i =>
    (s.keyEntry c d a.kindex i, (s.elemVals c (a.koff + i * d.dim * d.qkFmt.bytesOf 1) d.qkFmt d.dim).map fun v => (v, 0))

/-- The mask of row `r` of an ATS: all ones without BITMAP, else a word of its tile (R112). -/
def State.atsMask (s : State) (c : Nat) (w : W128) (r : Nat) : Nat :=
  if (atsWord w).bitmap then leNat ((((Table.get (s.block (blockOfCell c)).maskTile (c % 16)).getD []).drop (8 * r)).take 8)
  else 2 ^ 64 - 1

/-- The effect of an ATS on one row after another of `rows`. -/
def State.atsRows (s : State) (c : Nat) (w : W128) (rows : List Nat) : State :=
  rows.foldl (fun u r => atsRow c (atsWord w) (s.attDesc c (atsWord w).doff) (s.atsKeys c w) (s.atsMask c w r) u r) s

/-- What an ATS leaves: its rows, the cell's score area, the mask tile used (R109, R112). -/
theorem atsEffect_eq (c : Nat) (w : W128) (s : State) :
    let d := s.attDesc c (atsWord w).doff
    let u := s.atsRows c w (List.range (atsWord w).rows)
    let v := u.setCell c { u.cell c with scoreArea := some ⟨d.sarea, d.sstride, d.slotBase, d.span⟩ }
    (atsEffect c w s).1 = v.setBlock (blockOfCell c)
      { v.block (blockOfCell c) with maskTile := Table.del (v.block (blockOfCell c)).maskTile (c % 16) } := rfl

/-! ### What the effects leave as it was -/

theorem Cell.inflight_openRow (x : Cell) (d : AttDesc) (i : Nat) : (x.openRow d i).inflight = x.inflight := rfl

theorem Cell.inflight_foldl_setRowWord (slot : Nat) (l : List (Nat × Nat × NumFlags)) (x : Cell) :
    (l.foldl (fun x p => x.setRowWord slot p.1 p.2.1) x).inflight = x.inflight :=
  List.foldlRecOn (motive := fun y : Cell => y.inflight = x.inflight) l _ rfl fun _ hy _ _ => hy

section
variable {c : Nat} {s u : State}

theorem CellEffect.writeBytes (h : CellEffect c s u) (a : Nat) (bs : List Byte) : CellEffect c s (u.writeBytes a bs) :=
  ⟨h.wfRegs, h.wfCells, h.inflight, h.hostMem, h.others, h.regs⟩

theorem CellEffect.setBlock (h : CellEffect c s u) (b : Nat) (x : Block) : CellEffect c s (u.setBlock b x) :=
  ⟨h.wfRegs, h.wfCells, h.inflight, h.hostMem, h.others, h.regs⟩

/-- An effect made row by row. -/
theorem CellEffect.foldl {f : State → Nat → State} (hf : ∀ v r, CellEffect c s v → CellEffect c s (f v r)) (h : CellEffect c s u)
    (rows : List Nat) : CellEffect c s (rows.foldl f u) :=
  List.foldlRecOn rows f h fun v hv r _ => hf v r hv

theorem CellEffect.atsRow (h : CellEffect c s u) (hc : c < 512) (a : AtsWord) (d : AttDesc)
    (ks : List (KeyEntry × List (Val × NumFlags))) (mask r : Nat) : CellEffect c s (atsRow c a d ks mask u r) := by
  refine ((h.setCell ?_).spadWrite _ _).addNumFlags hc _
  simp only [apply_ite Cell.inflight, Cell.inflight_openRow, ite_self]

theorem CellEffect.atvRow (h : CellEffect c s u) (hc : c < 512) (a : AtvWord) (d : AttDesc) (r : Nat) :
    CellEffect c s (atvRow c a d u r) := by
  refine (h.setCell ?_).addNumFlags hc _
  exact Cell.inflight_foldl_setRowWord _ _ _

theorem CellEffect.writeRow (h : CellEffect c s u) (a : RowoutWord) (d : AttDesc) (r : Nat) (codes : List Nat) (status : Nat) :
    CellEffect c s (writeRow c a d r codes status u) := (h.spadWrite _ _).spadWrite _ _

theorem CellEffect.finalSlotRow (h : CellEffect c s u) (hc : c < 512) (a : RowoutWord) (d : AttDesc) (r : Nat) :
    CellEffect c s (finalSlotRow c a d u r) := (h.writeRow a d r _ _).addNumFlags hc _

theorem CellEffect.finalSpadRow (h : CellEffect c s u) (hc : c < 512) (a : RowoutWord) (d : AttDesc) (r : Nat) :
    CellEffect c s (finalSpadRow c a d u r) := (h.writeRow a d r _ _).addNumFlags hc _

variable (hs : s.canonical = true) (hc : c < 512) (w : W128)
include hs hc

theorem atsEffect_cellEffect : CellEffect c s (atsEffect c w s).1 := by
  have hrows : CellEffect c s (s.atsRows c w (List.range (atsWord w).rows)) :=
    (CellEffect.refl c hs).foldl (fun _ r hv => hv.atsRow hc _ _ _ _ r) _
  rw [atsEffect_eq]
  refine (hrows.setCell ?_).setBlock _ _
  rfl

theorem atvEffect_cellEffect : CellEffect c s (atvEffect c w s).1 :=
  (CellEffect.refl c hs).foldl (fun _ r hv => hv.atvRow hc _ _ r) _

theorem partialEffect_cellEffect : CellEffect c s (partialEffect c w s).1 := ((CellEffect.refl c hs).spadWrite _ _).addNumFlags hc _

theorem mergeEffect_cellEffect : CellEffect c s (mergeEffect c w s).1 :=
  (((CellEffect.refl c hs).writeBytes _ _).addNumFlags hc _).setBlock _ _

end

/-! ### Issue -/

section
variable {s : State} {c : CellIx} {w : W128}

/-- An ATS whose mask tile is there, or that needs none, answers the state of its issue (R112). -/
theorem exec_ats (hop : opcodeOf w = 0x20) (hwait : atsWaits s c.val w = false) :
    exec (.ats c w .clean) s = .next (s.issue c.val w .clean (atsPlan s c.val w) (atsEffect c.val w)) :=
  congrArg Host.Outcome.next (if_neg (by simp [hop, hwait]))

theorem exec_atv (hop : opcodeOf w = 0x21) :
    exec (.atv c w .clean) s = .next (s.issue c.val w .clean (atvPlan s c.val w) (atvEffect c.val w)) :=
  congrArg Host.Outcome.next (if_neg (fun h => h hop))

end

/-- Settles O4: each effect touches its own cell only, and each instruction owes a check when it issues. -/
theorem attentionInstructionsEnterFlight : Obligations.AttentionInstructionsEnterFlight := by
  intro s c w hs
  have hrefl := CellEffect.refl c.val hs
  refine ⟨fun hop hwait hi => ⟨_, exec_ats hop hwait, ?ats⟩, fun hop hi => ⟨_, exec_atv hop, ?atv⟩,
    fun hmode hi => ⟨_, congrArg Host.Outcome.next (if_pos hmode), ?slices⟩,
    fun hmode hi => ⟨_, congrArg Host.Outcome.next (if_pos hmode), ?slots⟩,
    fun hmode hi => ⟨_, congrArg Host.Outcome.next (if_pos hmode), ?scratchpad⟩,
    fun hmode hi => ⟨_, congrArg Host.Outcome.next (if_pos hmode), ?merge⟩⟩
  case ats => exact State.issue_inFlightAfter c.isLt hi rfl (atsEffect_cellEffect hs c.isLt w)
  case atv => exact State.issue_inFlightAfter c.isLt hi rfl (atvEffect_cellEffect hs c.isLt w)
  case slices => exact State.issue_inFlightAfter c.isLt hi rfl (partialEffect_cellEffect hs c.isLt w)
  case slots =>
    exact State.issue_inFlightAfter c.isLt hi rfl (hrefl.foldl (fun _ r hv => hv.finalSlotRow c.isLt _ _ r) _)
  case scratchpad =>
    exact State.issue_inFlightAfter c.isLt hi rfl (hrefl.foldl (fun _ r hv => hv.finalSpadRow c.isLt _ _ r) _)
  case merge => exact State.issue_inFlightAfter c.isLt hi rfl (mergeEffect_cellEffect hs c.isLt w)

end Sys2Proof.Machine
end

section
/-!
The score rows of an ATS (R109, R111, R113): each row stores 64 words at its own place, and no later row meets the first. Settles O5.
-/

namespace Sys2Proof.Machine
open Sys2Proof

/-- A number reads the same where its bytes do. -/
theorem State.readLe_congr {t u : State} {a n : Nat} (h : ∀ x, a ≤ x → x < a + n → t.byteAt x = u.byteAt x) :
    t.readLe a n = u.readLe a n := by
  unfold State.readLe State.readBytes
  refine congrArg leNat (List.map_congr_left fun i hi => h _ (Nat.le_add_right a i) ?_)
  exact Nat.add_lt_add_left (List.mem_range.mp hi) a

theorem State.mem_addNumFlags (s : State) (c : Nat) (f : NumFlags) : (s.addNumFlags c f).mem = s.mem := rfl

theorem State.mem_spadWrite (s : State) (c off : Nat) (bs : List Byte) :
    (s.spadWrite c off bs).mem = memWrite s.mem (spadBase c + off) bs := rfl

/-! ### One row -/

/-- What an ATS forms for key `i` of a row: the word, its flags, whether the row sees the key (R109, R111). -/
def State.atsOut (s : State) (c : Nat) (a : AtsWord) (d : AttDesc) (ks : List (KeyEntry × List (Val × NumFlags))) (mask r i : Nat) :
    Nat × NumFlags × Bool :=
  match ks[i]? with
  | none => (sentinel, 0, false)
  | some k =>
    if keyVisible d (s.rowEntry c d r) k.1 (mask.testBit i) then
      let p := scoreOf d.score ((s.elemVals c (a.qoff + r * d.dim * d.qkFmt.bytesOf 1) d.qkFmt d.dim).map fun v => (v, 0)) k.2
      (p.1, p.2, true)
    else (sentinel, 0, false)

/-- The 64 words that an ATS stores for a row. -/
def State.atsScores (s : State) (c : Nat) (a : AtsWord) (d : AttDesc) (ks : List (KeyEntry × List (Val × NumFlags))) (mask r : Nat) :
    List Nat := (List.range 64).map fun i => (s.atsOut c a d ks mask r i).1

section
variable (c : Nat) (a : AtsWord) (d : AttDesc) (ks : List (KeyEntry × List (Val × NumFlags))) (s : State)

theorem State.length_atsScores (mask r : Nat) : (s.atsScores c a d ks mask r).length = 64 := by simp [State.atsScores]

/-- A row of an ATS stores its words; beside memory it changes the cell and CEL_NUM_STATUS (R109). -/
theorem atsRow_eq (mask r : Nat) : ∃ (x : Cell) (f : NumFlags), atsRow c a d ks mask s r =
    ((s.setCell c x).spadWrite c (a.soff + r * d.sstride)
      (((List.range 64).map fun i => s.atsOut c a d ks mask r i).flatMap fun o => leBytes 4 o.1)).addNumFlags c f := ⟨_, _, rfl⟩

/-- An ATS stores a row's words at the row's place, and no other byte (R109). -/
theorem mem_atsRow (mask r : Nat) : (atsRow c a d ks mask s r).mem =
    (s.writeBytes (spadBase c + (a.soff + r * d.sstride)) ((s.atsScores c a d ks mask r).flatMap (leBytes 4))).mem := by
  obtain ⟨x, f, hrow⟩ := atsRow_eq c a d ks s mask r
  rw [hrow, State.atsScores, List.flatMap_map, List.flatMap_map, State.mem_addNumFlags, State.mem_spadWrite, State.mem_setCell,
    State.writeBytes]

/-- Every byte beside a score row reads as before the row. -/
theorem byteAt_atsRow_outside (mask r : Nat) {x : Nat} (hx : x < spadBase c + (a.soff + r * d.sstride) ∨
    spadBase c + (a.soff + r * d.sstride) + 256 ≤ x) : (atsRow c a d ks mask s r).byteAt x = s.byteAt x := by
  unfold State.byteAt
  rw [mem_atsRow]
  refine State.byteAt_writeBytes_outside s _ _ x ?_
  rwa [length_flatMap_leBytes, State.length_atsScores]

/-- Each word of a score row reads as it was formed (R109). -/
theorem readLe_atsRow (hs : s.canonical = true) (mask r : Nat) {i : Nat} (hi : i < 64) :
    (atsRow c a d ks mask s r).readLe (spadBase c + (a.soff + r * d.sstride) + 4 * i) 4 =
      (s.atsOut c a d ks mask r i).1 % 256 ^ 4 := by
  rw [← s.length_atsScores c a d ks mask r] at hi
  rw [State.readLe_of_mem (mem_atsRow c a d ks s mask r), State.readLe_writeBytes_flatMap s _ 4 _ hi (State.canonical_mem hs)]
  simp [State.atsScores]

end

/-! ### All rows -/

section
variable {s : State} {c : Nat} {w : W128}

/-- An ATS stores nothing outside its score rows. -/
theorem byteAt_foldl_atsRow {a : AtsWord} {d : AttDesc} {ks : List (KeyEntry × List (Val × NumFlags))} {mask : Nat → Nat}
    {rows : List Nat} {x : Nat} (hx : ∀ r ∈ rows, x < spadBase c + (a.soff + r * d.sstride) ∨
      spadBase c + (a.soff + r * d.sstride) + 256 ≤ x) (u : State) :
    (rows.foldl (fun u r => atsRow c a d ks (mask r) u r) u).byteAt x = u.byteAt x :=
  List.foldlRecOn (motive := fun v : State => v.byteAt x = u.byteAt x) rows _ rfl fun v hv r hr =>
    (byteAt_atsRow_outside c a d ks v (mask r) r (hx r hr)).trans hv

theorem byteAt_atsEffect (x : Nat) :
    (atsEffect c w s).1.byteAt x = (s.atsRows c w (List.range (atsWord w).rows)).byteAt x := rfl

/-- The hull of the score rows bounds what an ATS stores. -/
theorem byteAt_atsEffect_outside {x : Nat} (hx : x < spadBase c + (atsWord w).soff ∨ spadBase c + (atsWord w).soff +
    (((atsWord w).rows - 1) * (s.attDesc c (atsWord w).doff).sstride + 256) ≤ x) : (atsEffect c w s).1.byteAt x = s.byteAt x := by
  rw [byteAt_atsEffect]
  refine byteAt_foldl_atsRow (fun r hr => ?_) s
  have hrow := Nat.mul_le_mul_right (s.attDesc c (atsWord w).doff).sstride (Nat.le_sub_one_of_lt (List.mem_range.mp hr))
  omega

/-- Score rows that R107 admits lie apart. -/
theorem AttDesc.le_sstride {d : AttDesc} (h : d.badEncoding = false) : 256 ≤ d.sstride := by
  simp only [AttDesc.badEncoding, Bool.or_eq_false_iff, Bool.not_eq_false', Bool.or_eq_true, beq_iff_eq] at h
  omega

/-- No later row meets the first row's words. -/
theorem readLe_atsEffect_first (hs : s.canonical = true) (hd : 256 ≤ (s.attDesc c (atsWord w).doff).sstride) {i : Nat} (hi : i < 64) :
    (atsEffect c w s).1.readLe (spadBase c + (atsWord w).soff + 4 * i) 4 =
      (s.atsOut c (atsWord w) (s.attDesc c (atsWord w).doff) (s.atsKeys c w) (s.atsMask c w 0) 0 i).1 % 256 ^ 4 := by
  have hrows : (atsWord w).rows = bitsAt w.toNat 82 6 + 1 := rfl
  have hfirst := readLe_atsRow c (atsWord w) (s.attDesc c (atsWord w).doff) (s.atsKeys c w) s hs (s.atsMask c w 0) 0 hi
  rw [Nat.zero_mul, Nat.add_zero] at hfirst
  rw [← hfirst]
  refine State.readLe_congr fun x hlo hhi => ?_
  rw [byteAt_atsEffect, State.atsRows, hrows, List.range_succ_eq_map, List.foldl_cons]
  refine byteAt_foldl_atsRow (fun r hr => ?_) _
  obtain ⟨k, -, rfl⟩ := List.mem_map.mp hr
  have hrow := Nat.mul_le_mul_right (s.attDesc c (atsWord w).doff).sstride (Nat.succ_pos k)
  omega

/-- What an ATS without BITMAP forms for key `i` of row `r`: the score where the key is one of the tile's and visible, the sentinel
elsewhere (R109, R111, R113). -/
theorem State.atsOut_word (hb : (atsWord w).bitmap = false) {i : Nat} (hi : i < 64) (r : Nat) :
    let a := atsWord w
    let d := s.attDesc c a.doff
    (s.atsOut c a d (s.atsKeys c w) (s.atsMask c w r) r i).1 =
      if i < a.cols ∧ keyVisible d (s.rowEntry c d r) (s.keyEntry c d a.kindex i) true = true then
        (scoreOf d.score ((s.elemVals c (a.qoff + r * d.dim * d.qkFmt.bytesOf 1) d.qkFmt d.dim).map fun v => (v, 0))
          ((s.elemVals c (a.koff + i * d.dim * d.qkFmt.bytesOf 1) d.qkFmt d.dim).map fun v => (v, 0))).1
      else sentinel := by
  intro a d
  have hmask : s.atsMask c w r = 2 ^ 64 - 1 := if_neg (by simp [hb])
  have hbit : (s.atsMask c w r).testBit i = true := by
    rw [hmask, Nat.testBit_two_pow_sub_one, decide_eq_true hi]
  by_cases hk : i < a.cols
  · have hkey : (s.atsKeys c w)[i]? = some (s.keyEntry c d a.kindex i,
        (s.elemVals c (a.koff + i * d.dim * d.qkFmt.bytesOf 1) d.qkFmt d.dim).map fun v => (v, 0)) := by
      simp [State.atsKeys, a, d, hk]
    simp only [State.atsOut, hkey, hbit, hk, true_and, apply_ite Prod.fst]
  · have hkey : (s.atsKeys c w)[i]? = none := by simpa [State.atsKeys] using hk
    simp only [State.atsOut, hkey, hk, false_and, if_false]

end

/-- Settles O5: the first row stores its words, no later row meets them, and no row stores outside the hull. -/
theorem atsWritesSentinelAtMaskedKeys : Obligations.AtsWritesSentinelAtMaskedKeys := by
  intro s c w hs hop hb hi
  have hmem := State.mem_issue (eff := atsEffect c.val w) hi
  refine ⟨_, exec_ats hop (by simp [atsWaits, hb]), fun i hlt => ?word, fun x hx => ?frame, fun x => ?host⟩
  case word =>
    obtain ⟨-, -, hfault, -⟩ := hi
    have hstride := AttDesc.le_sstride (d := s.attDesc c.val (atsWord w).doff) (State.issueFault_none_reserved hfault)
    rw [State.spadLe, State.readLe_of_mem hmem, ← Nat.add_assoc, readLe_atsEffect_first hs hstride hlt,
      State.atsOut_word hb hlt, Nat.zero_mul, Nat.zero_mul, Nat.add_zero, apply_ite (· % 256 ^ 4)]
    rfl
  case frame =>
    exact (congrArg (fun m => Sparse.get (fun _ => 0) m x) hmem).trans (byteAt_atsEffect_outside hx)
  case host =>
    unfold State.hostByte
    rw [State.hostMem_issue hi, (atsEffect_cellEffect hs c.isLt w).hostMem]

end Sys2Proof.Machine
end

section
/-!
The commands on a seed tray (R130 to R133, R139): a ring command on a sequence that is there, not lost, its page table unpoisoned, runs
its body; the tray's state decides what the body does. Settles O22.
-/

namespace Sys2Proof.Machine
open Sys2Proof

/-! ### Commands on sequences (R135, R137, R138) -/

/-- A command on a sequence that is there, not lost, its page table unpoisoned, runs its body (R137, R138, R259). -/
theorem State.runSeqCommand_taken {s u x : State} {p op : Nat} {c : Cmd} {q : Seqn} (htake : s.take p op = some (c, u))
    {ok : Cmd → Bool} (hok : ok c = true) (hseq : u.seq p c.seqNo = some q) (hlost : q.lost = false) (hpoison : u.tablePoison q = none)
    {body : Cmd → Seqn → State → State} (hbody : body c q u = x) :
    s.runSeqCommand p op ok body = State.dropUnknown ringFuel x := by
  rw [State.runSeqCommand, State.runCommand_taken htake hok, ← hbody]
  simp only [hseq, hlost, hpoison, Bool.false_eq_true, false_and, if_false]

/-- A read that meets no poison records nothing (R259). -/
theorem State.noteRead_clean {s : State} {a n : Nat} (h : s.firstPoison a n = none) : s.noteRead a n = s := by
  rw [State.noteRead, h]

/-! ### Registers beside a store of a unit of the chip (R259, R268) -/

/-- A unit that an address names exists: a region, a cell or a block (R252). -/
def Place.named : Place → Prop
  | .stack r _ => r < 4
  | .dram r _ => r < 4
  | .spad c _ => c < 512
  | .block b _ => b < 32
  | .register _ => True
  | .cold _ _ => True
  | .none => True

theorem placeOf_named (a : Nat) : (placeOf a).named := by
  unfold placeOf
  repeat' split
  all_goals simp only [Place.named]
  all_goals omega

/-- The chip has four regions (R252). -/
theorem tierOf_region_lt {a r t off : Nat} (h : tierOf a = some (r, t, off)) : r < 4 := by
  have hunit := placeOf_named a
  unfold tierOf at h
  cases hplace : placeOf a with
  | stack region o => rw [hplace] at h hunit; cases h; exact hunit
  | dram region o => rw [hplace] at h hunit; cases h; exact hunit
  | spad cell o => rw [hplace] at h hunit; cases h; exact Nat.div_lt_of_lt_mul hunit
  | block block o => rw [hplace] at h hunit; cases h; exact Nat.div_lt_of_lt_mul hunit
  | register o => rw [hplace] at h; cases h
  | cold seg o => rw [hplace] at h; cases h
  | none => rw [hplace] at h; cases h

theorem State.reg_ite {p : Prop} [Decidable p] {u v : State} {q : Reg} {i : Nat} {x : W32} (hu : u.reg q i = x)
    (hv : v.reg q i = x) : (if p then u else v).reg q i = x := by
  split
  · exact hu
  · exact hv

/-- Recording an error writes MEM_ECC_INFO and MEM_ECC_ADDR of a region only (R268). -/
theorem State.reg_recordEcc (s : State) (a kind : Nat) (scrub : Bool) {q : Reg} {i : Nat} (hi : i < q.count)
    (hinfo : q ≠ .MEM_ECC_INFO) (haddr : q ≠ .MEM_ECC_ADDR) : (s.recordEcc a kind scrub).reg q i = s.reg q i := by
  unfold State.recordEcc
  split
  · rfl
  next r t off htier =>
    have hr := tierOf_region_lt htier
    have hreport : (if t ≠ 0 ∧ kind ≠ 3 then { s with eccReports := s.eccReports ++ [a] } else s).reg q i = s.reg q i :=
      State.reg_ite rfl rfl
    have hoverrun (v : State) : (v.setBit Fld.MEM_ECC_INFO_OVERRUN r true).reg q i = v.reg q i :=
      State.reg_setFld_other v Fld.MEM_ECC_INFO_OVERRUN _ hr hi fun h => hinfo h.1
    have hfirst (v : State) (x y : W32) : ((v.setReg .MEM_ECC_INFO r x).setReg .MEM_ECC_ADDR r y).reg q i = v.reg q i :=
      (State.reg_setReg_other _ y hr hi fun h => haddr h.1).trans (State.reg_setReg_other v x hr hi fun h => hinfo h.1)
    exact State.reg_ite ((hoverrun _).trans hreport) ((hfirst _ _ _).trans hreport)

theorem State.regs_storeLines (n : Nat) (s : State) (a : Nat) (bs : List Byte) (bad : Option Nat) :
    (State.storeLines n s a bs bad).1.regs = s.regs := by
  induction n generalizing s a bs bad with
  | zero => rfl
  | succ n ih =>
    simp only [State.storeLines]
    split
    · rfl
    · split
      · exact ih _ _ _ _
      · rw [ih, State.regs_writeBytes]; split <;> rfl

theorem State.regs_storeCold (n : Nat) (s : State) (a : Nat) (bs : List Byte) : (State.storeCold n s a bs).regs = s.regs := by
  induction n generalizing s a bs with
  | zero => rfl
  | succ n ih =>
    unfold State.storeCold
    split
    · simp only
      split
      · rfl
      · rw [ih]; rfl
    · rfl

theorem State.regs_storeBytes (s : State) (a : Nat) (bs : List Byte) : (s.storeBytes a bs).1.regs = s.regs := by
  unfold State.storeBytes
  split
  · exact State.regs_storeCold _ _ _ _
  · exact State.regs_storeLines _ _ _ _ _
  · exact State.regs_storeLines _ _ _ _ _
  · rfl

/-- A store of a unit of the chip writes no register but those of an error (R259, R268). -/
theorem State.reg_putBytes (s : State) (a : Nat) (bs : List Byte) {q : Reg} {i : Nat} (hi : i < q.count)
    (hinfo : q ≠ .MEM_ECC_INFO) (haddr : q ≠ .MEM_ECC_ADDR) : (s.putBytes a bs).reg q i = s.reg q i := by
  have hstore : (s.storeBytes a bs).1.reg q i = s.reg q i :=
    congrArg (fun m => Sparse.get regReset m (Reg.key q i)) (s.regs_storeBytes a bs)
  unfold State.putBytes
  split
  next heq => rw [heq] at hstore; rw [State.reg_recordEcc _ _ _ _ hi hinfo haddr, hstore]
  next heq => rw [heq] at hstore; exact hstore

@[simp] theorem State.chipTag_putBytes (s : State) (a : Nat) (bs : List Byte) : (s.putBytes a bs).chipTag = s.chipTag :=
  congrArg (fun v : W32 => bitsAt v.toNat 0 16) (s.reg_putBytes a bs (q := .HUB_GENERATION) (i := 0) (by decide) (by decide) (by decide))

@[simp] theorem State.chipTag_putLe (s : State) (a n v : Nat) : (s.putLe a n v).chipTag = s.chipTag := s.chipTag_putBytes a _

/-! ### The commands -/

section
variable {s u : State} {p : PlotIx} {c : Cmd} {q : Seqn} {a : Nat} (hseq : u.seq p.val c.seqNo = some q) (hlost : q.lost = false)
  (hpoison : u.tablePoison q = none) (htray : q.tray = some a)
include hseq hlost hpoison htray

section
variable (htake : s.take p.val 0x10 = some (c, u)) (hclean : c.cleanFrom 16 = true)
include htake hclean

/-- An EMPTY tray takes a sound and unpoisoned record of the plot's bonded DRAM, and the chip's tag (R132, R139). -/
theorem exec_trayFill_fills (hstate : u.trayState a = tsEmpty) (hdram : u.inDram p.val (c.arg 8 8) 128 = true)
    (hclear : u.firstPoison (c.arg 8 8) 128 = none) (hfill : fillOk (u.loadBytes (c.arg 8 8) 128) = true) :
    exec (.trayFill p) s = .next (State.dropUnknown ringFuel
      ((((((u.putLe a 1 tsFilling).putBytes (a + 1) ((u.loadBytes (c.arg 8 8) 128).take 1)).putBytes (a + 0x10)
        (((u.loadBytes (c.arg 8 8) 128).drop 0x10).take 16)).putBytes (a + 0x30)
        (((u.loadBytes (c.arg 8 8) 128).drop 0x20).take 64)).putLe (a + 0x72) 2 u.chipTag).finish c.id stOk 0)) := by
  refine congrArg Host.Outcome.next (State.runSeqCommand_taken htake hclean hseq hlost hpoison ?_)
  simp only [htray, hstate, hdram, hfill, State.noteRead_clean hclear, State.chipTag_putBytes, State.chipTag_putLe]
  rfl

theorem exec_trayFill_refuses (hstate : u.trayState a ≠ tsEmpty) :
    exec (.trayFill p) s = .next (State.dropUnknown ringFuel (u.refuseTray c)) := by
  refine congrArg Host.Outcome.next (State.runSeqCommand_taken htake hclean hseq hlost hpoison ?_)
  simp only [htray]
  exact if_pos hstate

end

section
variable (htake : s.take p.val 0x11 = some (c, u)) (hclean : (c.cleanFrom 32 && c.arg 9 7 == 0 && decide (c.arg 8 1 ≤ 16) &&
  ((List.range 16).drop (c.arg 8 1)).all fun k => c.arg (16 + k) 1 == 0xFF) = true)
include htake hclean

/-- A FILLING tray takes a valid path (R132, R133). -/
theorem exec_trayAccept_verifies (hstate : u.trayState a = tsFilling)
    (hpath : u.pathOk a ((List.range (c.arg 8 1)).map fun k => c.arg (16 + k) 1) = true) :
    exec (.trayAccept p) s = .next (State.dropUnknown ringFuel
      ((((u.putLe a 1 tsVerified).putLe (a + 2) 1 (c.arg 8 1)).putLe (a + 0x20) 16 (c.arg 16 16)).finish c.id stOk 0)) := by
  refine congrArg Host.Outcome.next (State.runSeqCommand_taken htake hclean hseq hlost hpoison ?_)
  simp only [htray, hstate, hpath, List.length_map, List.length_range]
  rfl

theorem exec_trayAccept_refuses (hstate : u.trayState a ≠ tsFilling) :
    exec (.trayAccept p) s = .next (State.dropUnknown ringFuel (u.refuseTray c)) := by
  refine congrArg Host.Outcome.next (State.runSeqCommand_taken htake hclean hseq hlost hpoison ?_)
  simp only [htray]
  exact if_pos hstate

end

section
variable (htake : s.take p.val 0x12 = some (c, u)) (hclean : c.cleanFrom 8 = true)
include htake hclean

/-- A FILLING or VERIFIED tray is emptied (R132). -/
theorem exec_trayDiscard_empties (hstate : u.trayState a = tsFilling ∨ u.trayState a = tsVerified) :
    exec (.trayDiscard p) s = .next (State.dropUnknown ringFuel ((u.emptyTray a).finish c.id stOk 0)) := by
  refine congrArg Host.Outcome.next (State.runSeqCommand_taken htake hclean hseq hlost hpoison ?_)
  simp only [htray]
  exact if_pos hstate

theorem exec_trayDiscard_refuses (hstate : ¬(u.trayState a = tsFilling ∨ u.trayState a = tsVerified)) :
    exec (.trayDiscard p) s = .next (State.dropUnknown ringFuel (u.refuseTray c)) := by
  refine congrArg Host.Outcome.next (State.runSeqCommand_taken htake hclean hseq hlost hpoison ?_)
  simp only [htray]
  exact if_neg hstate

end

end

/-- Settles O22: each command changes a tray in a state that it takes, and refuses with STATE in any other. -/
theorem trayCommandsFollowTrayStates : Obligations.TrayCommandsFollowTrayStates := by
  intro s u p c q a hseq hlost hpoison htray
  refine ⟨fun htake hclean => ⟨fun hstate hdram hclear hfill => ?fills, fun hstate => ?fillRefused⟩,
    fun htake hclean => ⟨fun hstate hpath => ?verifies, fun hstate => ?acceptRefused⟩,
    fun htake hclean => ⟨fun hstate => ?empties, fun hstate => ?discardRefused⟩⟩
  case fills => exact exec_trayFill_fills hseq hlost hpoison htray htake hclean hstate hdram hclear hfill
  case fillRefused => exact exec_trayFill_refuses hseq hlost hpoison htray htake hclean hstate
  case verifies => exact exec_trayAccept_verifies hseq hlost hpoison htray htake hclean hstate hpath
  case acceptRefused => exact exec_trayAccept_refuses hseq hlost hpoison htray htake hclean hstate
  case empties => exact exec_trayDiscard_empties hseq hlost hpoison htray htake hclean hstate
  case discardRefused => exact exec_trayDiscard_refuses hseq hlost hpoison htray htake hclean (not_or.mpr hstate)

end Sys2Proof.Machine
end

section
/-!
The commits of a tray and of a staging buffer (R132, R156 to R159, R185): how they start, here or on the tail, reach their commit point, end
or roll back. Settles O23.
-/

namespace Sys2Proof.Machine
open Sys2Proof

/-! ### A commit starts (R156, R158, R185) -/

section
variable {s u v : State} {p : PlotIx} {c : Cmd} {q : Seqn} {a : Nat} (hseq : u.seq p.val c.seqNo = some q) (hlost : q.lost = false)
  (hpoison : u.tablePoison q = none)
include hseq hlost hpoison

section
variable (htake : s.take p.val 0x13 = some (c, u)) (hclean : c.cleanFrom 8 = true) (htray : q.tray = some a)
  (hstate : u.trayState a = tsVerified) (hclear : u.firstPoison (a + 4096) (q.layers * layerBlock q 16) = none)
include htake hclean htray hstate hclear

/-- A VERIFIED and unpoisoned tray at BOUND, with room, is COMMITTING and its scatter runs (R132, R156). -/
theorem exec_trayCommit_starts (hbase : u.trayBase a = q.base + q.bound) (hroom : q.bound < q.maxSlice)
    (hready : u.prepareCommit p.val c.seqNo q q.bound (u.trayAccept a) = .ready v) :
    exec (.trayCommit p) s = .next (State.dropUnknown ringFuel ((v.putLe a 1 tsCommitting).runScatter p.val c.seqNo q
      ⟨none, u.trayBase a - q.base, u.trayAccept a, c.id, none, 0, u.trayGen a, none, false, [], 0, 0, []⟩)) := by
  refine congrArg Host.Outcome.next (State.runSeqCommand_taken htake hclean hseq hlost hpoison ?_)
  simp only [htray, hstate, hclear, ne_eq, not_true_eq_false, if_false]
  rw [if_pos ⟨hbase, hroom⟩, hready]

/-- A VERIFIED and unpoisoned tray whose position lies on another member goes to that chip (R185). -/
theorem exec_trayCommit_forwards {chip : Nat} (hnot : ¬(u.trayBase a = q.base + q.bound ∧ q.bound < q.maxSlice))
    (htail : u.tailChip p.val (u.trayBase a) = some chip) :
    exec (.trayCommit p) s = .next (State.dropUnknown ringFuel (((u.send { Msg.to .peerCommit 1 p.val chip with
      addr := a, gen := u.chipTag, tag := c.id,
      data := leBytes 4 (u.trayBase a) ++ leBytes 1 (u.trayAccept a) ++ leBytes 2 (u.trayGen a) ++
        u.pathData q a ((List.range (u.trayAccept a)).map (u.trayPath a)) }).putLe a 1 tsCommitting).setSeq p.val c.seqNo { q with
          commit := some ⟨none, u.trayBase a - q.base, u.trayAccept a, c.id, none, 0, u.trayGen a, some chip, false, [], 0, 0, []⟩ })) := by
  refine congrArg Host.Outcome.next (State.runSeqCommand_taken htake hclean hseq hlost hpoison ?_)
  simp only [htray, hstate, hclear, ne_eq, not_true_eq_false, if_false]
  rw [if_neg hnot, htail]

end

/-- An APPEND from a checked and unpoisoned buffer, with room and no open tray, runs its scatter (R156, R158). -/
theorem exec_append_starts (htake : s.take p.val 0x03 = some (c, u)) (hclean : c.cleanFrom 20 = true)
    (htray : ∀ b, q.tray = some b → u.trayState b = tsEmpty) (hfree : u.checkFree p.val (c.arg 8 8) none = .ok)
    (hcount : c.arg 16 4 ≠ 0)
    (hsize : q.layers * layerBlock q (c.arg 16 4) ≤ (Table.get u.frames (hAddr (c.arg 8 8))).elim 0 (fun f => frameBytes f.order))
    (hclear : u.firstPoison (hAddr (c.arg 8 8)) (q.layers * layerBlock q (c.arg 16 4)) = none)
    (hready : u.prepareCommit p.val c.seqNo q q.bound (c.arg 16 4) = .ready v) :
    exec (.append p) s = .next (State.dropUnknown ringFuel (v.runScatter p.val c.seqNo q
      ⟨some (c.arg 8 8), q.bound, c.arg 16 4, c.id, none, 0, hGen (c.arg 8 8), none, false, [], 0, 0, []⟩)) := by
  refine congrArg Host.Outcome.next (State.runSeqCommand_taken htake hclean hseq hlost hpoison ?_)
  have hfits := not_or.mpr ⟨hcount, Nat.not_lt.mpr hsize⟩
  cases hq : q.tray with
  | none => simp only [hfree, hfits, hclear, hready, if_false, Bool.false_eq_true]
  | some b =>
    simp only [hfree, htray b hq, hfits, hclear, hready, if_false, bne_self_eq_false, Bool.false_eq_true]

end

/-! ### The commit point and "Dibber done" (R132, R157) -/

/-- What a commit waits for before its point: it runs here, is not pointed, BOUND has not moved, every byte is acknowledged (R157). -/
theorem commitPoint_due {q : Seqn} {k : Commit} (htail : k.tail = none) (hpointed : k.pointed = false) (hbound : q.bound = k.first)
    (hacked : k.acked = k.bytes) : (k.tail.isSome || k.pointed || q.bound != k.first || k.acked != k.bytes) = false := by
  simp [htail, hpointed, hbound, hacked]

section
variable {s : State} {p : PlotIx} {n : Nat} {q : Seqn} {k : Commit} {a : Nat} (hrun : s.serviceRuns = true)
  (hseq : s.seq p.val n = some q) (hcommit : q.commit = some k)
include hrun hseq hcommit

section
variable (hdue : (k.tail.isSome || k.pointed || q.bound != k.first || k.acked != k.bytes) = false)
include hdue

/-- A tray's own commit whose bytes are all acknowledged is pointed (R157). -/
theorem exec_commitPoint_tray (hhandle : k.handle = none) (hlead : k.lead = none) :
    exec (.commitPoint p n) s = .next
      (s.commitPoint p.val n { q with commit := some { k with pointed := true } } k.first k.count) := by
  show execCommitPoint p n s = _
  rw [execCommitPoint, State.byService_of_runs hrun]
  simp only [hseq, hcommit, hdue, hhandle, hlead, Bool.false_eq_true, if_false]

/-- A buffer's commit ends at its commit point, and the next one that waits may run (R156, R157). -/
theorem exec_commitPoint_buffer {h : Nat} (hhandle : k.handle = some h) :
    exec (.commitPoint p n) s = .next ((((s.commitPoint p.val n { q with commit := none } k.first k.count).advanceBase q
      (k.first + k.count)).finishOpen k.tag stOk).takeHeld p.val n) := by
  show execCommitPoint p n s = _
  rw [execCommitPoint, State.byService_of_runs hrun]
  simp only [hseq, hcommit, hdue, hhandle, Bool.false_eq_true, if_false]

/-- A commit run for a lead is answered at its commit point (R185). -/
theorem exec_commitPoint_lead {chip : Nat} (hhandle : k.handle = none) (hlead : k.lead = some chip) :
    exec (.commitPoint p n) s = .next (((s.commitPoint p.val n { q with commit := none } k.first k.count).answerLead p.val chip k.tag
      k.generation stOk).takeHeld p.val n) := by
  show execCommitPoint p n s = _
  rw [execCommitPoint, State.byService_of_runs hrun]
  simp only [hseq, hcommit, hdue, hhandle, hlead, Bool.false_eq_true, if_false]

end

/-- "Dibber done" after the commit point here, or as the tail's answer under the chip's tag (R132, R157, R185). -/
theorem exec_dibberDone_advances {t : Option HostMsg} (htray : q.tray = some a) (hhandle : k.handle = none) (hlead : k.lead = none)
    (hdone : k.tail = none ∧ k.pointed = true ∧ t = none ∨ ∃ m, t = some m ∧ m.gen = s.chipTag ∧ k.answeredBy m = true) {x : State}
    (hx : x = (((s.putLe (a + 4) 4 (s.trayBase a + k.count)).putLe (a + 8) 8 (s.trayStep a + 1)).emptyTray a).setSeq p.val n
      { q with commit := none }) :
    exec (.dibberDone p n t) s = .next (x.finish k.tag stOk (x.trayStep a)) := by
  subst hx
  show execDibberDone p n t s = _
  rw [execDibberDone, State.byService_of_runs hrun]
  obtain ⟨htail, hpointed, rfl⟩ | ⟨m, rfl, hgen, hanswer⟩ := hdone
  · simp [hseq, hcommit, htray, hhandle, hlead, htail, hpointed]
  · have htail : k.tail = some m.chip := by
      simp only [Commit.answeredBy, Bool.and_eq_true, beq_iff_eq] at hanswer
      exact hanswer.1
    simp [hseq, hcommit, htray, hhandle, hlead, htail, hgen, hanswer]

/-- A commit of a tray that is broken before its point rolls back: the tray is EMPTY, the step that it led abandoned, the command ends with
STATE (R132, R159, R180). -/
theorem exec_dibberRolledBack_drops (htray : q.tray = some a) (hhandle : k.handle = none) (hlead : k.lead = none) (htail : k.tail = none)
    (hpointed : k.pointed = false)
    (hbroken : s.sourceIntact p.val k = false ∨ q.bound ≠ k.first ∨ s.commitBroken p.val n k = true) :
    exec (.dibberRolledBack p n none) s = .next (((((({ s with reqs := s.reqs.filter (fun r =>
      r.who != Requester.commit p.val n) } : State).setSeq p.val n { q with commit := none }).emptyTray a).abandonStep p.val
        n).finishOpen k.tag stState).takeHeld p.val n) := by
  have hrolls : s.rollsBack p.val n q k none = true := by
    simp only [State.rollsBack, hpointed, htail]
    obtain h | h | h := hbroken <;> simp [h]
  show execDibberRolledBack p n none s = _
  rw [execDibberRolledBack, State.byService_of_runs hrun]
  simp [hseq, hcommit, hrolls, State.dropCommit, htray, hhandle, hlead, htail]

end

/-! ### A forwarded commit (R157, R185) -/

theorem State.seq_setSeq_same (s : State) (p n : Nat) (q : Seqn) : (s.setSeq p n q).seq p n = some q := Table.get_put_same _ _ _

/-- A forwarded commit at BOUND under its lead's tag, with room, runs its scatter on the tail (R159, R185). -/
theorem State.tailCommit_starts {s v : State} {p n : Nat} {q : Seqn} {h : HeldCommit} (hlost : q.lost = false)
    (hgen : h.generation = h.from'.gen) (hpos : h.pos = q.base + q.bound)
    (hready : s.prepareCommit p n q q.bound h.count = .ready v) :
    s.tailCommit p n q h = v.runScatter p n q
      ⟨none, q.bound, h.count, h.from'.tag, some h.from'.chip, h.from'.gen, h.generation, none, false, [], 0, 0, h.data⟩ := by
  simp only [State.tailCommit, hlost, hgen, hpos, hready, Bool.false_eq_true, ne_eq, not_true_eq_false, or_self, if_false]

/-- The only commit that waits is taken once none runs (R157). -/
theorem State.takeHeld_setSeq_only (s : State) (p n : Nat) {q : Seqn} {h : HeldCommit} (hcommit : q.commit = none) :
    (s.setSeq p n { q with held := [h] }).takeHeld p n =
      ((s.setSeq p n { q with held := [h] }).setSeq p n { q with held := [] }).tailCommit p n { q with held := [] } h := by
  simp only [State.takeHeld, State.seq_setSeq_same, hcommit]

/-- A commit that waits goes on waiting while one runs (R157). -/
theorem State.takeHeld_running {s : State} {p n : Nat} {q : Seqn} (hseq : s.seq p n = some q) (hcommit : q.commit.isSome = true) :
    s.takeHeld p n = s := by
  obtain ⟨k, hk⟩ := Option.isSome_iff_exists.mp hcommit
  simp only [State.takeHeld, hseq, hk]

section
variable {s v : State} {m : HostMsg} {p : PlotIx} {n pos count gen : Nat} {data : List Byte} {q : Seqn} (hseq : s.seq p.val n = some q)
include hseq

/-- A forwarded commit joins those that wait, and the next of them may run. -/
theorem exec_peerCommit_joins : exec (.peerCommit m p n pos count gen data) s =
    .next ((s.setSeq p.val n { q with held := q.held ++ [⟨m, pos, count, gen, data⟩] }).takeHeld p.val n) := by
  show execPeerCommit m p n pos count gen data s = _
  simp only [execPeerCommit, hseq]

/-- With none running or waiting, a forwarded commit starts at once (R185). -/
theorem exec_peerCommit_starts (hcommit : q.commit = none) (hheld : q.held = []) (hlost : q.lost = false) (hgen : gen = m.gen)
    (hpos : pos = q.base + q.bound)
    (hready : ((s.setSeq p.val n { q with held := [⟨m, pos, count, gen, data⟩] }).setSeq p.val n { q with held := [] }).prepareCommit
      p.val n { q with held := [] } q.bound count = .ready v) :
    exec (.peerCommit m p n pos count gen data) s = .next (v.runScatter p.val n { q with held := [] }
      ⟨none, q.bound, count, m.tag, some m.chip, m.gen, gen, none, false, [], 0, 0, data⟩) := by
  have htail := State.tailCommit_starts (q := { q with held := [] }) (h := ⟨m, pos, count, gen, data⟩) hlost hgen hpos hready
  rw [exec_peerCommit_joins hseq, hheld, List.nil_append, State.takeHeld_setSeq_only s p.val n hcommit, htail]

/-- While a commit runs, a forwarded one waits (R157). -/
theorem exec_peerCommit_waits (hcommit : q.commit.isSome = true) : exec (.peerCommit m p n pos count gen data) s =
    .next (s.setSeq p.val n { q with held := q.held ++ [⟨m, pos, count, gen, data⟩] }) := by
  exact (exec_peerCommit_joins hseq).trans
    (congrArg Host.Outcome.next (State.takeHeld_running (State.seq_setSeq_same _ _ _ _) hcommit))

end

/-- Settles O23, one clause per case of each command. -/
theorem commitsReachTheirPointAndEnd : Obligations.CommitsReachTheirPointAndEnd := by
  intro s u v p c q a n
  refine ⟨?trayCommit, ?append, fun hrun hseq k hcommit => ⟨fun htail hpointed hbound hacked => ⟨?tray, ?buffer, ?lead⟩, ?done, ?rolledBack⟩,
    fun m pos count gen data hseq => ⟨?starts, ?waits⟩⟩
  case trayCommit =>
    intro htake hclean hseq hlost hpoison htray hstate hclear
    exact ⟨exec_trayCommit_starts hseq hlost hpoison htake hclean htray hstate hclear,
      fun chip => exec_trayCommit_forwards hseq hlost hpoison htake hclean htray hstate hclear⟩
  case append =>
    intro htake hclean hseq hlost hpoison htray hfree hcount hsize hclear hready
    exact exec_append_starts hseq hlost hpoison htake hclean htray hfree hcount hsize hclear hready
  case tray => exact exec_commitPoint_tray hrun hseq hcommit (commitPoint_due htail hpointed hbound hacked)
  case buffer => exact fun h => exec_commitPoint_buffer hrun hseq hcommit (commitPoint_due htail hpointed hbound hacked)
  case lead => exact fun chip => exec_commitPoint_lead hrun hseq hcommit (commitPoint_due htail hpointed hbound hacked)
  case done => exact fun t htray hhandle hlead hdone x => exec_dibberDone_advances hrun hseq hcommit htray hhandle hlead hdone
  case rolledBack => exact exec_dibberRolledBack_drops hrun hseq hcommit
  case starts => exact exec_peerCommit_starts hseq
  case waits => exact exec_peerCommit_waits hseq

end Sys2Proof.Machine
end

section
/-!
The doorbells of a plot's rings (R135, R172, R281, R293): a TAIL below the ring's size becomes the ring's, one at or beyond it is ignored
and logged. Settles O21.
-/

namespace Sys2Proof.Machine
open Sys2Proof

/-- The TAIL of a doorbell: its low 12 bits (R172, R293). -/
theorem bitsAt_low (w n : Nat) : bitsAt w 0 n = w % 2 ^ n := by
  rw [bitsAt, Nat.pow_zero, Nat.div_one]

section
variable {s : State} {a : Agent} {p : PlotIx} {v : W32} {q : Plot} (hreach : s.plotReach a p.val = true) (hplot : s.plot p.val = some q)
  (hopen : s.ringsOpen p.val = true)
include hreach hplot hopen

theorem exec_kvmDoorbell_sets (htail : v.toNat % 2 ^ 12 < 2 ^ q.kvmOrder) : exec (.kvmDoorbell a p v) s =
    .next (State.dropUnknown ringFuel (s.setPlot p.val { q with cmdTail := v.toNat % 2 ^ 12 })) := by
  show execKvmDoorbell a p v s = _
  simp only [execKvmDoorbell, hreach, hplot, hopen, bitsAt_low, Bool.not_true, Bool.false_eq_true, if_false, Nat.not_le.mpr htail]

theorem exec_kvmDoorbell_ignored (htail : 2 ^ q.kvmOrder ≤ v.toNat % 2 ^ 12) : exec (.kvmDoorbell a p v) s =
    .next (s.logIgnored p.val 6 (Reg.KVM_DOORBELL.offset + 4 * p.val)) := by
  show execKvmDoorbell a p v s = _
  simp only [execKvmDoorbell, hreach, hplot, hopen, bitsAt_low, Bool.not_true, Bool.false_eq_true, if_false, htail, if_true]

theorem exec_admDoorbell_sets (htail : v.toNat % 2 ^ 12 < 2 ^ q.admOrder) : exec (.admDoorbell a p v) s =
    .next ((s.setPlot p.val { q with admTail := v.toNat % 2 ^ 12 }).noteWait p.val false) := by
  show execAdmDoorbell a p v s = _
  simp only [execAdmDoorbell, hreach, hplot, hopen, bitsAt_low, Bool.not_true, Bool.false_eq_true, if_false, Nat.not_le.mpr htail]

theorem exec_admDoorbell_ignored (htail : 2 ^ q.admOrder ≤ v.toNat % 2 ^ 12) : exec (.admDoorbell a p v) s =
    .next (s.logIgnored p.val 11 (Reg.ADM_DOORBELL.offset + 4 * p.val)) := by
  show execAdmDoorbell a p v s = _
  simp only [execAdmDoorbell, hreach, hplot, hopen, bitsAt_low, Bool.not_true, Bool.false_eq_true, if_false, htail, if_true]

end

/-- Settles O21, one clause per doorbell and side of the ring's size. -/
theorem doorbellsSetTails : Obligations.DoorbellsSetTails := by
  intro s a p v q hreach hplot hopen
  exact ⟨exec_kvmDoorbell_sets hreach hplot hopen, exec_kvmDoorbell_ignored hreach hplot hopen,
    exec_admDoorbell_sets hreach hplot hopen, exec_admDoorbell_ignored hreach hplot hopen⟩

end Sys2Proof.Machine
end

section
/-!
Frames and the books of their pools (R145, R148, R149): what an allocation that succeeds answers, and what freeing an allocated frame
leaves. Settles O29.
-/

namespace Sys2Proof.Machine
open Sys2Proof

theorem State.canonical_pools {s : State} (h : s.canonical = true) : Sparse.wf (fun _ => Pool.empty) s.pools = true := by
  simp only [State.canonical, Bool.and_eq_true, and_assoc] at h
  obtain ⟨-, -, -, -, -, -, -, -, -, -, hpools, -⟩ := h
  exact hpools

theorem State.pool_setPool_same (s : State) (p t : Nat) (x : Pool) (h : Sparse.wf (fun _ => Pool.empty) s.pools = true) :
    (s.setPool p t x).pool p t = x := Sparse.get_set_same _ _ _ _ h

/-- Whatever the use, granules are taken from FREE (R149). -/
theorem Pool.free_take (x : Pool) (use n : Nat) : (x.take use n).free = x.free - n := by
  unfold Pool.take
  repeat' split
  all_goals rfl

/-- Whatever the use, granules return to FREE (R149). -/
theorem Pool.free_give (x : Pool) (use n : Nat) : (x.give use n).free = x.free + n := by
  unfold Pool.give
  repeat' split
  all_goals rfl

/-- A new frame's record, its GENERATION one above that of the record it replaces (R145). -/
theorem State.get_putFrame_same (s : State) (a size : Nat) (f : Frame) : Table.get (s.putFrame a size f).frames a =
    some { f with generation := ((Table.get s.frames a).elim 0 (·.generation) + 1) % 65536 } := Table.get_put_same _ _ _

/-- All that an allocation which succeeds can answer: the frame put at its place, its granules taken from the pool (R145, R149). -/
theorem State.allocFrame_some {s u : State} {p t order use seqNo a : Nat} {region : Option Nat}
    (h : s.allocFrame p t order use seqNo region = some (a, u)) :
    u = (({ s with free := s.free + 1 } : State).putFrame a (frameBytes order)
      ⟨0, p, true, false, use, order, 0, 0, s.chipNo, seqNo, 0, s.clock⟩).setPool p t ((s.pool p t).take use (2 ^ order)) := by
  unfold State.allocFrame at h
  split at h
  · cases h
  · dsimp only at h
    split at h
    · cases h
    · split at h
      · cases h
      · cases h; rfl

/-- Freeing an allocated frame that is not hosted clears ALLOCATED and gives its granules back to the pool of its tier (R148). -/
theorem State.freeFrame_allocated {s : State} {a : Nat} {f : Frame} (hget : Table.get s.frames a = some f) (halloc : f.allocated = true)
    (huse : f.use ≠ useHosted) : s.freeFrame a =
      ({ s with frames := Table.put s.frames a { f with allocated := false, sealed := false } } : State).setPool f.owner (poolTier a)
        ((s.pool f.owner (poolTier a)).give f.use (2 ^ f.order)) := by
  simp only [State.freeFrame, hget, halloc, huse, Bool.not_true, Bool.false_eq_true, if_false]
  rfl

/-- Settles O29. -/
theorem frameAllocationAndFreeKeepPoolBooks : Obligations.FrameAllocationAndFreeKeepPoolBooks := by
  intro s u p t order use seqNo a hs
  have hpools := State.canonical_pools hs
  refine ⟨fun halloc => ?alloc, fun f hget halloc huse => ?free⟩
  case alloc =>
    rw [State.allocFrame_some halloc]
    refine ⟨⟨_, State.get_putFrame_same _ _ _ _, rfl, rfl, rfl, rfl, rfl⟩, ?_, rfl, rfl, rfl, rfl⟩
    rw [State.pool_setPool_same, Pool.free_take]
    exact hpools
  case free =>
    rw [State.freeFrame_allocated hget halloc huse]
    refine ⟨⟨_, Table.get_put_same _ _ _, rfl, rfl⟩, ?_, rfl, rfl, rfl, rfl⟩
    rw [State.pool_setPool_same, Pool.free_give]
    exact hpools

end Sys2Proof.Machine
end

section
/-!
A completion in the ring (R136 to R138): what the manager stores in unpoisoned lines reads back, the tail lies before every entry, and
a log entry touches HUB_LOG_LOST at most. Settles O20.
-/

namespace Sys2Proof.Machine
open Sys2Proof

/-! ### Stores that meet no poison (R251, R259) -/

/-- A key that does not read its default is listed. -/
theorem Sparse.mem_of_get_ne {α : Type} (d : Nat → α) (m : List (Nat × α)) {k : Nat} (h : Sparse.get d m k ≠ d k) :
    (k, Sparse.get d m k) ∈ m := by
  induction m with
  | nil => exact absurd rfl h
  | cons e m ih =>
    obtain ⟨j, v⟩ := e
    by_cases hk : k = j
    · subst hk; simp [Sparse.get]
    · simp only [Sparse.get, hk, if_false] at h ⊢
      exact List.mem_cons_of_mem _ (ih h)

/-- A range that meets no poisoned line holds no poisoned address. -/
theorem State.poisoned_of_firstPoison {s : State} {a n x : Nat} (h : s.firstPoison a n = none) (hlo : a ≤ x) (hhi : x < a + n) :
    s.poisoned x = false := by
  refine Bool.eq_false_iff.mpr fun hx => ?_
  have htrue : Sparse.get (fun _ => false) s.poison (x / 64) = true := hx
  have hmem := Sparse.mem_of_get_ne (fun _ => false) s.poison (k := x / 64) (by rw [htrue]; exact Bool.noConfusion)
  rw [htrue] at hmem
  simp only [State.firstPoison, Option.map_eq_none_iff, List.find?_eq_none] at h
  refine h _ hmem ?_
  simp only [Bool.true_and, Bool.and_eq_true, decide_eq_true_eq]
  omega

/-- Bytes written in two pieces, the second behind the first. -/
theorem State.writeBytes_take_drop (s : State) (a n : Nat) (bs : List Byte) :
    (s.writeBytes a (bs.take n)).writeBytes (a + n) (bs.drop n) = s.writeBytes a bs := by
  by_cases hn : n ≤ bs.length
  · have happend := s.writeBytes_append a (bs.take n) (bs.drop n)
    rw [List.take_append_drop, List.length_take, Nat.min_eq_left hn] at happend
    exact happend.symm
  · have hlen : bs.length ≤ n := by omega
    rw [List.take_of_length_le hlen, List.drop_eq_nil_of_le hlen]
    rfl

/-- A store line by line that meets no poison writes its bytes and drops none. -/
theorem State.storeLines_unpoisoned (f : Nat) (s : State) (a : Nat) (bs : List Byte) (bad : Option Nat)
    (hf : a % 64 + bs.length ≤ 64 * f) (h : ∀ x, a ≤ x → x < a + bs.length → s.poisoned x = false) :
    State.storeLines f s a bs bad = (s.writeBytes a bs, bad) := by
  induction f generalizing s a bs with
  | zero =>
    obtain rfl : bs = [] := List.eq_nil_of_length_eq_zero (by omega)
    rfl
  | succ f ih =>
    by_cases hbs : bs = []
    · subst hbs
      simp only [State.storeLines, List.take_nil, List.isEmpty_nil, if_true]
      rfl
    · have hpos : 0 < bs.length := List.length_pos_iff.mpr hbs
      have hnow : (bs.take (64 - a % 64)).isEmpty = false := by
        rw [List.isEmpty_eq_false_iff, ← List.length_pos_iff, List.length_take]
        omega
      have hclear : s.poisoned a = false := h a (Nat.le_refl a) (by omega)
      simp only [State.storeLines, hnow, hclear, Bool.false_and, Bool.false_eq_true, if_false]
      rw [ih, State.writeBytes_take_drop]
      · rw [List.length_drop]; omega
      · intro x hlo hhi
        rw [List.length_drop] at hhi
        exact h x (by omega) (by omega)

/-- A store of a unit of the chip to bonded DRAM or the stacks that meets no poison writes its bytes and records nothing. -/
theorem State.putBytes_unpoisoned {s : State} {a : Nat} {bs : List Byte} (hline : lineMemory a = true)
    (h : s.firstPoison a bs.length = none) : s.putBytes a bs = s.writeBytes a bs := by
  have hlines := State.storeLines_unpoisoned (bs.length / 64 + 2) s a bs none (by omega) fun x => State.poisoned_of_firstPoison h
  have hstore : s.storeBytes a bs = (s.writeBytes a bs, none) := by
    unfold lineMemory at hline
    unfold State.storeBytes
    split at hline
    next hplace => rw [hplace]; exact hlines
    next hplace => rw [hplace]; exact hlines
    next => cases hline
  rw [State.putBytes, hstore]

/-! ### The event log (R420) -/

@[simp] theorem State.mem_logAt (s : State) (tick plot source code detail : Nat) : (s.logAt tick plot source code detail).mem = s.mem := by
  unfold State.logAt
  split <;> rfl

/-- An entry of the log writes no register but HUB_LOG_LOST. -/
theorem State.regsKept_logAt (s : State) (tick plot source code detail : Nat) :
    RegsKept s (s.logAt tick plot source code detail) [(.HUB_LOG_LOST, 0)] := by
  intro r i hi hr
  unfold State.logAt
  split
  · rfl
  · exact s.reg_setFld_other Fld.HUB_LOG_LOST_COUNT _ (by decide) hi fun h => hr (h.1 ▸ h.2 ▸ List.mem_singleton_self _)

/-! ### Completions (R136 to R138) -/

/-- The bytes of a completion entry (R137). -/
def completionEntry (tag status result : Nat) : List Byte := leBytes 4 tag ++ leBytes 1 status ++ leBytes 3 0 ++ leBytes 8 result

theorem completionEntry_length (tag status result : Nat) : (completionEntry tag status result).length = 16 := by
  simp [completionEntry]

/-- Memory after completion entry `t`, then CPL_TAIL, are written. -/
def State.withCompletion (s : State) (q : Plot) (t tag status result : Nat) : State :=
  (s.writeBytes (q.cplAddr t) (completionEntry tag status result)).writeLe (q.rings + ringCplTail) 4 ((t + 1) % 2 ^ q.kvmOrder)

/-- A completion entry lies behind CPL_TAIL (R136). -/
theorem Plot.cplTail_lt_cplAddr (q : Plot) (t : Nat) : q.rings + ringCplTail + 4 ≤ q.cplAddr t := by
  unfold Plot.cplAddr ringCplTail
  omega

/-- A completion whose entry and tail meet no poison stores both; a STATUS other than OK and STATE is logged behind them (R138). -/
theorem State.complete_unpoisoned {s : State} {p : Nat} {q : Plot} {t : Nat} (ht : t = s.ringIx q ringCplTail q.kvmOrder)
    (hplot : s.plot p = some q) (hline : lineMemory (q.cplAddr t) = true) (hentry : s.firstPoison (q.cplAddr t) 16 = none)
    (hlineTail : lineMemory (q.rings + ringCplTail) = true) (htail : s.firstPoison (q.rings + ringCplTail) 4 = none)
    (tag status result : Nat) :
    s.complete p tag status result =
      if status = stOk ∨ status = stState then s.withCompletion q t tag status result
      else (s.withCompletion q t tag status result).logCoded p 6 2 status tag := by
  have hput : s.putBytes (q.cplAddr t) (completionEntry tag status result) = s.writeBytes _ _ :=
    State.putBytes_unpoisoned hline (by rw [completionEntry_length]; exact hentry)
  have hstored : (s.putBytes (q.cplAddr t) (completionEntry tag status result)).putLe (q.rings + ringCplTail) 4
      ((t + 1) % 2 ^ q.kvmOrder) = s.withCompletion q t tag status result := by
    rw [hput]
    exact State.putBytes_unpoisoned hlineTail (by rw [leBytes_length]; exact htail)
  rw [← hstored]
  unfold State.complete
  simp only [hplot, ← ht]
  rfl

section
variable (s : State) (q : Plot) (t tag status result : Nat)

theorem State.readBytes_withCompletion (hs : s.canonical = true) :
    (s.withCompletion q t tag status result).readBytes (q.cplAddr t) 16 = completionEntry tag status result := by
  have hread := s.readBytes_writeBytes_same (q.cplAddr t) (completionEntry tag status result) (State.canonical_mem hs)
  rw [completionEntry_length] at hread
  rw [State.withCompletion, State.writeLe, State.readBytes_writeBytes_apart, hread]
  rw [leBytes_length]
  exact .inr (q.cplTail_lt_cplAddr t)

theorem State.readLe_withCompletion (hs : s.canonical = true) :
    (s.withCompletion q t tag status result).readLe (q.rings + ringCplTail) 4 = (t + 1) % 2 ^ q.kvmOrder % 2 ^ 32 :=
  State.readLe_writeLe_same _ _ 4 _ (memWrite_wf _ _ _ (State.canonical_mem hs))

theorem State.byteAt_withCompletion_outside {a : Nat} (htail : a < q.rings + 4 ∨ q.rings + 8 ≤ a)
    (hentry : a < q.cplAddr t ∨ q.cplAddr t + 16 ≤ a) : (s.withCompletion q t tag status result).byteAt a = s.byteAt a := by
  rw [State.withCompletion, State.writeLe, State.byteAt_writeBytes_outside, State.byteAt_writeBytes_outside]
  · rw [completionEntry_length]; exact hentry
  · rw [leBytes_length]; exact htail

end

/-- Settles O20: a completion leaves the memory of its two stores, whether or not it is logged. -/
theorem completionEntryIsWrittenThenTailSteps : Obligations.CompletionEntryIsWrittenThenTailSteps := by
  intro s p tag status result q hs hplot hline hentry hlineTail htail
  have hcomplete := State.complete_unpoisoned rfl hplot hline hentry hlineTail htail tag status result
  have hregs : RegsKept s (s.complete p tag status result) [(.HUB_LOG_LOST, 0)] := by
    rw [hcomplete]
    split
    · exact fun _ _ _ _ => rfl
    · exact State.regsKept_logAt _ _ _ _ _ _
  have hmem : (s.complete p tag status result).mem =
      (s.withCompletion q (s.ringIx q ringCplTail q.kvmOrder) tag status result).mem := by
    rw [hcomplete]
    split
    · rfl
    · exact State.mem_logAt _ _ _ _ _ _
  have hbyte (a : Nat) : (s.complete p tag status result).byteAt a =
      (s.withCompletion q (s.ringIx q ringCplTail q.kvmOrder) tag status result).byteAt a :=
    congrArg (fun m => Sparse.get (fun _ => (0 : Byte)) m a) hmem
  refine ⟨?entry, ?tail, fun a ha ha' => ?others, hregs⟩
  case entry => exact (List.map_congr_left fun i _ => hbyte _).trans (s.readBytes_withCompletion q _ tag status result hs)
  case tail => exact (State.readLe_of_mem hmem _ _).trans (s.readLe_withCompletion q _ tag status result hs)
  case others => exact (hbyte a).trans (s.byteAt_withCompletion_outside q _ tag status result ha ha')

end Sys2Proof.Machine
end

section
/-!
The commit point (R157, R158): it writes BOUND of its sequence's record, and nothing that follows it (signatures, scores, the next pages)
touches a sequence record. Settles O24.
-/

namespace Sys2Proof.Machine
open Sys2Proof

/-! ### What leaves every sequence record alone -/

theorem State.seqs_ite {p : Prop} [Decidable p] {s u v : State} (hu : u.seqs = s.seqs) (hv : v.seqs = s.seqs) :
    (if p then u else v).seqs = s.seqs := by
  split
  · exact hu
  · exact hv

theorem State.seqs_foldl {α : Type} {op : State → α → State} (h : ∀ u a, (op u a).seqs = u.seqs) (s : State) (l : List α) :
    (l.foldl op s).seqs = s.seqs :=
  List.foldlRecOn (motive := fun u : State => u.seqs = s.seqs) l op rfl fun u hu a _ => (h u a).trans hu

theorem State.seqs_clearRange (s : State) (lo len : Nat) : (s.clearRange lo len).seqs = s.seqs := rfl

theorem State.seqs_logEvent (s : State) (plot source cls k detail : Nat) : (s.logEvent plot source cls k detail).seqs = s.seqs := by
  unfold State.logEvent State.logAt
  exact State.seqs_ite rfl rfl

theorem State.seqs_recordEcc (s : State) (a kind : Nat) (scrub : Bool) : (s.recordEcc a kind scrub).seqs = s.seqs := by
  unfold State.recordEcc
  split
  · rfl
  next r t off _ =>
    have hreport : (if t ≠ 0 ∧ kind ≠ 3 then { s with eccReports := s.eccReports ++ [a] } else s).seqs = s.seqs :=
      State.seqs_ite rfl rfl
    exact State.seqs_ite ((State.seqs_setFld _ _ _ _).trans hreport)
      ((State.seqs_setReg _ _ _ _).trans ((State.seqs_setReg _ _ _ _).trans hreport))

theorem State.seqs_storeLines (n : Nat) (s : State) (a : Nat) (bs : List Byte) (bad : Option Nat) :
    (State.storeLines n s a bs bad).1.seqs = s.seqs := by
  induction n generalizing s a bs bad with
  | zero => rfl
  | succ n ih =>
    simp only [State.storeLines]
    split
    · rfl
    · split
      · exact ih _ _ _ _
      · exact (ih _ _ _ _).trans (State.seqs_ite rfl rfl)

theorem State.seqs_storeCold (n : Nat) (s : State) (a : Nat) (bs : List Byte) : (State.storeCold n s a bs).seqs = s.seqs := by
  induction n generalizing s a bs with
  | zero => rfl
  | succ n ih =>
    unfold State.storeCold
    split
    · exact State.seqs_ite rfl (ih _ _ _)
    · rfl

theorem State.seqs_storeBytes (s : State) (a : Nat) (bs : List Byte) : (s.storeBytes a bs).1.seqs = s.seqs := by
  unfold State.storeBytes
  split
  · exact State.seqs_storeCold _ _ _ _
  · exact State.seqs_storeLines _ _ _ _ _
  · exact State.seqs_storeLines _ _ _ _ _
  · rfl

theorem State.seqs_putBytes (s : State) (a : Nat) (bs : List Byte) : (s.putBytes a bs).seqs = s.seqs := by
  have hstore := s.seqs_storeBytes a bs
  unfold State.putBytes
  split
  next heq => rw [heq] at hstore; exact (State.seqs_recordEcc _ _ _ _).trans hstore
  next heq => rw [heq] at hstore; exact hstore

theorem State.seqs_putLe (s : State) (a n v : Nat) : (s.putLe a n v).seqs = s.seqs := s.seqs_putBytes a _

theorem State.seqs_setPte (s : State) (q : Seqn) (v : Nat) (e : Pte) : (s.setPte q v e).seqs = s.seqs := by
  unfold State.setPte
  split
  · exact State.seqs_putLe _ _ _ _
  · rfl

/-! ### Signatures and scores (R160, R163) -/

theorem State.seqs_signPage (s : State) (p n : Nat) (q : Seqn) (v : Nat) : (s.signPage p n q v).seqs = s.seqs := by
  unfold State.signPage
  split
  · rfl
  · exact State.seqs_ite rfl (State.seqs_ite (s.seqs_logEvent _ _ _ _ _) rfl)

theorem State.seqs_signFilled (s : State) (p n : Nat) (q : Seqn) (first last : Nat) :
    (s.signFilled p n q first last).seqs = s.seqs :=
  State.seqs_foldl (fun u _ => State.seqs_foldl (fun u _ => State.seqs_ite (u.seqs_signPage _ _ _ _) rfl) u _) s _

theorem State.seqs_foldScore (s : State) (p : Nat) (q : Seqn) (mass v : Nat) : (s.foldScore p q mass v).2.seqs = s.seqs :=
  (State.seqs_putLe _ _ _ _).trans (State.seqs_setPte _ _ _ _)

theorem State.seqs_foldScores (s : State) (p n : Nat) (q : Seqn) : (s.foldScores p n q).seqs = s.seqs := by
  unfold State.foldScores
  split
  · rfl
  next mass _ =>
    have hfold (vs : List Nat) : (vs.foldl (fun (x : Bool × State) v =>
        let y := x.2.foldScore p q mass v; (x.1 || y.1, y.2)) (false, s)).2.seqs = s.seqs :=
      List.foldlRecOn (motive := fun x : Bool × State => x.2.seqs = s.seqs) vs _ rfl fun x hx v _ =>
        (x.2.seqs_foldScore p q mass v).trans hx
    exact State.seqs_ite rfl (State.seqs_ite ((State.seqs_logEvent _ _ _ _ _ _).trans (hfold _)) (hfold _))

/-! ### New frames and the next pages (R143 to R145, R158) -/

theorem State.seqs_allocFrame {s u : State} {p t order use seqNo a : Nat} {region : Option Nat}
    (h : s.allocFrame p t order use seqNo region = some (a, u)) : u.seqs = s.seqs := by
  rw [State.allocFrame_some h]
  rfl

theorem State.seqs_needLeaf {s u : State} {p n : Nat} {q : Seqn} {v : Nat} (h : s.needLeaf p n q v = some u) : u.seqs = s.seqs := by
  unfold State.needLeaf at h
  split at h
  · cases h; rfl
  · split at h
    · cases h
    next halloc =>
      cases h
      exact (State.seqs_putLe _ _ _ _).trans ((State.seqs_clearRange _ _ _).trans (State.seqs_allocFrame halloc))

theorem State.seqs_mapNew {s u : State} {p n : Nat} {q : Seqn} {v : Nat} (h : s.mapNew p n q v = some u) : u.seqs = s.seqs := by
  unfold State.mapNew at h
  split at h
  · cases h; rfl
  · split at h
    · cases h
    next hleaf =>
      split at h
      · cases h
      next halloc =>
        cases h
        rw [State.seqs_setPte, ← State.seqs_needLeaf hleaf, ← State.seqs_allocFrame halloc]
        split <;> rfl

theorem State.seqs_mapAll {s u : State} {p n : Nat} {q : Seqn} {vs : List Nat} (h : s.mapAll p n q vs = some u) : u.seqs = s.seqs := by
  induction vs generalizing s with
  | nil => cases h; rfl
  | cons v vs ih =>
    unfold State.mapAll at h
    split at h
    · cases h
    next hnew => exact (ih h).trans (State.seqs_mapNew hnew)

theorem State.seqs_announce (s : State) (p n : Nat) (q : Seqn) (v : Nat) : (s.announce p n q v).seqs = s.seqs := by
  refine State.seqs_foldl (fun u x => ?_) s _
  dsimp only
  split
  · exact (State.seqs_putBytes _ _ _).trans (State.seqs_setPte _ _ _ _)
  · rfl

theorem State.seqs_press (s : State) (p t : Nat) : (s.press p t).seqs = s.seqs := State.seqs_ite rfl rfl

theorem State.seqs_premap (s : State) (p n : Nat) (q : Seqn) (last : Nat) : (s.premap p n q last).seqs = s.seqs := by
  unfold State.premap
  refine State.seqs_ite rfl (State.seqs_ite ?_ rfl)
  split
  next hmap => exact (State.seqs_foldl (fun u v => u.seqs_announce p n q v) _ _).trans (State.seqs_mapAll hmap)
  next => exact (State.seqs_press _ _ _).trans (State.seqs_press _ _ _)

theorem State.seqs_newArea {s u : State} {p t use n bytes a : Nat} (h : s.newArea p t use n bytes = some (a, u)) : u.seqs = s.seqs := by
  unfold State.newArea at h
  split at h
  next halloc => cases h; exact (State.seqs_clearRange _ _ _).trans (State.seqs_allocFrame halloc)
  next => cases h

theorem State.seqs_giveMass (s : State) (p n : Nat) (q : Seqn) : (s.giveMass p n q).2.seqs = s.seqs := by
  unfold State.giveMass
  split
  · rfl
  · split
    next harea => exact State.seqs_newArea harea
    next => rfl

/-! ### The commit point -/

/-- A sequence that has a mass area keeps it (R163). -/
theorem State.giveMass_of_isSome (s : State) (p n : Nat) {q : Seqn} (h : q.mass.isSome = true) : (s.giveMass p n q).1 = q.mass := by
  simp only [State.giveMass, h, Bool.true_or, if_true]

/-- The commit point writes the record of its sequence, with BOUND and the mass area given, and no other (R157). -/
theorem State.seqs_commitPoint (s : State) (p n : Nat) (q : Seqn) (first count : Nat) : (s.commitPoint p n q first count).seqs =
    Table.put s.seqs (seqKey p n) { q with bound := first + count, mass := (s.giveMass p n q).1 } := by
  rw [← s.seqs_giveMass p n q]
  exact (State.seqs_premap _ _ _ _ _).trans ((State.seqs_foldScores _ _ _ _).trans (State.seqs_signFilled _ _ _ _ _ _))

/-- Settles O24. -/
theorem commitPointMovesBoundOnly : Obligations.CommitPointMovesBoundOnly := by
  intro s p n first count q
  refine ⟨⟨_, ?record, s.giveMass_of_isSome p n⟩, fun k hk => ?others⟩
  case record => rw [State.seq, State.seqs_commitPoint, Table.get_put_same]
  case others => rw [State.seqs_commitPoint, Table.get_put_other _ _ hk]

end Sys2Proof.Machine
end

section
/-!
Commands on sequences and buffers (R137, R140, R146 to R148, R154, R155): taken with arguments in range, each runs its body past every
refusal. Settles O25.
-/

namespace Sys2Proof.Machine
open Sys2Proof

section
variable {s u v : State} {p : PlotIx} {c : Cmd} {q : Seqn}

/-- A sequence without a live index takes the lowest number free and its areas (R140). -/
theorem exec_seqCreate_enters {key : Nat} {r : Seqn} (htake : s.take p.val 0x01 = some (c, u)) (hargs : c.seqArgsOk = true)
    (hlive : c.newSeq.live = false) (hkey : Table.freeKey u.seqs 65535 (seqKey p.val 1) = some key)
    (hnew : u.newSeq p.val (key % 65536) c.newSeq = some (r, v)) :
    exec (.seqCreate p) s = .next (State.dropUnknown ringFuel
      ((v.setSeq p.val (key % 65536) { r with liveIndex := none }).finish c.id stOk (key % 65536))) := by
  show execSeqCreate p s = _
  rw [execSeqCreate, State.runCommand_taken htake hargs]
  simp only [hkey, hlive, hnew, Bool.false_and, Bool.false_eq_true, if_false]

/-- A sequence without a commit goes, lost or not (R137, R138). -/
theorem exec_seqDestroy_destroys (htake : s.take p.val 0x02 = some (c, u)) (hclean : c.cleanFrom 8 = true)
    (hseq : u.seq p.val c.seqNo = some q) (hcommit : q.commit = none) (hheld : q.held = []) (hpoison : u.tablePoison q = none) :
    exec (.seqDestroy p) s = .next (State.dropUnknown ringFuel ((u.destroySeq p.val c.seqNo q).finishOpen c.id stOk)) := by
  show execSeqDestroy p s = _
  rw [execSeqDestroy, State.runSeqCommand, State.runCommand_taken htake hclean]
  simp only [hseq, hpoison, hcommit, hheld, ne_eq, not_true_eq_false, and_false, if_false, Option.isSome_none, List.isEmpty_nil,
    Bool.not_true, Bool.or_self, Bool.false_eq_true]

/-- A buffer with room: RESULT is its handle (R146). -/
theorem exec_bufAlloc_allocates {a : Nat} (htake : s.take p.val 0x09 = some (c, u)) (hclean : c.cleanFrom 10 = true)
    (htier : bufferTier (c.arg 8 1) = true) (horder : c.arg 9 1 ≤ 16)
    (halloc : u.allocFrame p.val (c.arg 8 1) (c.arg 9 1) useBuffer 0 = some (a, v)) :
    exec (.bufAlloc p) s = .next (State.dropUnknown ringFuel (v.finish c.id stOk (v.handleOf a))) := by
  show execBufAlloc p s = _
  rw [execBufAlloc, State.runCommand_taken htake (by simp [hclean, htier, horder])]
  simp only [halloc]

section
variable (htake : s.take p.val 0x0A = some (c, u)) (hclean : c.cleanFrom 16 = true)
include htake hclean

/-- A handle that passes the checks is freed (R148). -/
theorem exec_bufFree_frees (hcheck : u.checkFree p.val (c.arg 8 8) none = .ok) :
    exec (.bufFree p) s = .next (State.dropUnknown ringFuel ((u.freeFrame (hAddr (c.arg 8 8))).finishOpen c.id stOk)) := by
  show execBufFree p s = _
  rw [execBufFree, State.runCommand_taken htake hclean]
  simp only [hcheck]

/-- Any other is recorded, and the command completes with the check's status (R148). -/
theorem exec_bufFree_records {kind st : Nat} (hcheck : u.checkFree p.val (c.arg 8 8) none = .bad kind st) :
    exec (.bufFree p) s = .next (State.dropUnknown ringFuel ((u.badFree p.val kind (c.arg 8 8)).finishOpen c.id st)) := by
  show execBufFree p s = _
  rw [execBufFree, State.runCommand_taken htake hclean]
  simp only [hcheck]

end

/-- A list of sequences that are there and not lost is stored in bucket order (R155). -/
theorem exec_bucket_sorts {bs : List (Nat × Nat × Bool)} (htake : s.take p.val 0x0C = some (c, u)) (hclean : c.cleanFrom 18 = true)
    (howns : u.ownsRange p.val (c.arg 8 8) (2 * c.arg 16 2) = true) (hpoison : u.firstPoison (c.arg 8 8) (2 * c.arg 16 2) = none)
    (hlist : ((List.range (c.arg 16 2)).map fun i => u.loadLe (c.arg 8 8 + 2 * i) 2).mapM
      (fun k => (u.seq p.val k).map fun q => (bucketOf q.bound, k, q.lost)) = some bs)
    (hlost : bs.any (fun e => e.2.2) = false) :
    exec (.bucket p) s = .next (State.dropUnknown ringFuel ((u.putBytes (c.arg 8 8)
      ((bs.foldl (fun acc e => bucketInsert (e.1, e.2.1) acc) []).flatMap fun e => leBytes 2 e.2)).finishOpen c.id stOk)) := by
  show execBucket p s = _
  rw [execBucket, State.runCommand_taken htake hclean]
  simp only [howns, State.noteRead_clean hpoison, hlist, hlost, Bool.not_true, Bool.false_eq_true, if_false]

section
variable (hseq : u.seq p.val c.seqNo = some q) (hlost : q.lost = false) (hpoison : u.tablePoison q = none)
include hseq hlost hpoison

/-- A committed position below the quota, not global yet, is copied and listed (R154). -/
theorem exec_globalAdd_copies {area : Nat} (htake : s.take p.val 0x04 = some (c, u)) (hclean : c.cleanFrom 12 = true)
    (hbase : q.base ≤ c.arg 8 4) (hbound : c.arg 8 4 < q.base + q.bound) (hnew : (q.globals.any fun e => e.1 == c.arg 8 4) = false)
    (harea : q.garea = some area) (hquota : q.globals.length < q.gquota) (hclear : u.keyPoison q (c.arg 8 4 - q.base) 1 = none) :
    exec (.globalAdd p) s = .next (State.dropUnknown ringFuel
      ((((u.copyGlobal q area (c.arg 8 4 - q.base) q.globals.length).putLe
        (area + gposOff q (q.globals.length / 64) + 4 * (q.globals.length % 64)) 4 (c.arg 8 4)).setSeq p.val c.seqNo
          { q with globals := insertGlobal (c.arg 8 4, q.globals.length) q.globals }).finishOpen c.id stOk)) := by
  refine congrArg Host.Outcome.next (State.runSeqCommand_taken htake hclean hseq hlost hpoison ?_)
  simp only [hnew, harea, hclear, Nat.not_lt.mpr hbase, Nat.not_le.mpr hbound, Nat.not_le.mpr hquota, Bool.false_eq_true, or_self,
    if_false]

/-- The one page that covers the range takes the PINNED bit (R137). -/
theorem exec_pin_pins {x : Nat} {e : Pte} (htake : s.take p.val 0x07 = some (c, u)) (hclean : c.cleanFrom 17 = true)
    (hbit : c.arg 16 1 ≤ 1) (hrange : rangeOk q (c.arg 8 4) (c.arg 12 4) = true) (hcover : coverPages q (c.arg 8 4) (c.arg 12 4) = [x])
    (hpte : u.pte q x = e) (hvalid : e.valid = true) :
    exec (.pin p) s = .next (State.dropUnknown ringFuel ((u.setPte q x { e with pinned := c.arg 16 1 == 1 }).finishOpen c.id stOk)) := by
  refine congrArg Host.Outcome.next (State.runSeqCommand_taken htake (by simp [hclean, hbit]) hseq hlost hpoison ?_)
  simp only [hrange, hcover, hpte, hvalid, List.foldl_cons, List.foldl_nil, Bool.not_true, Bool.false_eq_true, if_false, if_true]

/-- Positions of another sequence of the same shape are copied into the new pages of an empty one, which commits them (R147, R157). -/
theorem exec_copyPrefix_copies {src : Seqn} (htake : s.take p.val 0x08 = some (c, u)) (hclean : c.cleanFrom 16 = true)
    (hzero : c.arg 10 2 = 0) (hother : c.arg 8 2 ≠ c.seqNo) (hsrc : u.seq p.val (c.arg 8 2) = some src) (hsrcLost : src.lost = false)
    (hcount : c.arg 12 4 ≤ src.bound) (hshape : sameShape src q = true) (hcommit : q.commit = none) (hempty : q.bound = 0)
    (hslice : c.arg 12 4 ≤ q.maxSlice) (hclear : u.keyPoison src 0 (c.arg 12 4) = none)
    (hroom : u.withRoom p.val [q.home, 1]
      (fun s => s.mapAll p.val c.seqNo q ((pageSpan q 0 (c.arg 12 4)).flatMap (pagesAt q))) = .inl v) :
    exec (.copyPrefix p) s = .next (State.dropUnknown ringFuel
      ((((v.copyPositions p.val src q (c.arg 12 4)).commitPoint p.val c.seqNo q 0 (c.arg 12 4)).advanceBase q
        (c.arg 12 4)).finishOpen c.id stOk)) := by
  refine congrArg Host.Outcome.next (State.runSeqCommand_taken htake (by simp [hclean, hzero]) hseq hlost hpoison ?_)
  simp only [hother, hsrc, hsrcLost, Nat.not_lt.mpr hcount, hshape, hcommit, hempty, Nat.not_lt.mpr hslice, hclear, hroom, ne_eq,
    not_true_eq_false, Bool.true_eq_false, Bool.false_eq_true, or_self, if_false, Option.isSome_none]

end

end

/-- Settles O25, one clause per case of each command. -/
theorem sequenceAndBufferCommandsComplete : Obligations.SequenceAndBufferCommandsComplete := by
  intro s u v p c q
  refine ⟨fun key r => ?seqCreate, ?seqDestroy, fun a => ?bufAlloc, fun htake hclean => ⟨?bufFree, fun kind st => ?badFree⟩,
    fun bs => ?bucket, fun area htake hclean hseq hlost hpoison => ?globalAdd,
    fun x e htake hclean hbit hseq hlost hpoison => ?pin,
    fun src htake hclean hzero hseq hlost hpoison => ?copyPrefix⟩
  case seqCreate => exact exec_seqCreate_enters
  case seqDestroy => exact exec_seqDestroy_destroys
  case bufAlloc => exact exec_bufAlloc_allocates
  case bufFree => exact exec_bufFree_frees htake hclean
  case badFree => exact exec_bufFree_records htake hclean
  case bucket => exact exec_bucket_sorts
  case globalAdd => exact exec_globalAdd_copies hseq hlost hpoison htake hclean
  case pin => exact exec_pin_pins hseq hlost hpoison htake hclean hbit
  case copyPrefix => exact exec_copyPrefix_copies hseq hlost hpoison htake hclean hzero

end Sys2Proof.Machine
end

section
/-!
The walk and the commands that move pages (R151 to R153, R167, R169): taken with arguments in the sequence, a walk posts its descriptors
and a PREFETCH or MIGRATE starts the moves of the pages it covers. Settles O26.
-/

namespace Sys2Proof.Machine
open Sys2Proof

/-- The arguments of WALK (R137, R152). -/
def Cmd.walkArgs (c : Cmd) : WalkArgs :=
  ⟨c.arg 16 8, c.arg 24 1, c.arg 25 1, c.arg 26 2, (c.arg 40 1).testBit 0, (c.arg 40 1).testBit 1⟩

/-- The state behind a walk: its descriptors posted for the task `tag`, its summary logged, its prefetches begun (R152, R167). -/
def WalkAcc.posted (w : WalkAcc) (p tag n : Nat) (q : Seqn) : State :=
  ({ w with st := w.st.postWalk p tag w.descs } : WalkAcc).close p n q

/-- An answer to the peer that asked for a walk (R153). -/
def State.answerWalk (s : State) (m : HostMsg) (status : Nat) (data : List Byte) : State :=
  s.send { Msg.to .walkDescriptor 1 m.plot m.chip with tag := m.tag, gen := m.gen, op := status, data := data }

/-- The state behind the opening of a batch of `count` pages, which the command `id` is owed for (R169, R172). -/
def State.openBatch (s : State) (p id n : Nat) (q : Seqn) (count : Nat) : State :=
  let s := (s.setSeq p n { q with busy := q.busy + 1 }).stepFld Fld.KVM_MIGRATE_STATUS_BATCH p
  let b : Batch := ⟨p, id, n, count, 0, 0, s.fld Fld.KVM_MIGRATE_STATUS_BATCH p⟩
  (({ s with batches := Table.put s.batches id b } : State).showBatch b mgCopying).setFld Fld.KVM_MIGRATE_STATUS_COUNT p count

/-- Starts the moves of the pages of a batch; a page whose move cannot start counts as rolled back (R169, R171). -/
def State.movePages (s : State) (p id n : Nat) (q : Seqn) (tier : Nat) (vs : List Nat) : State :=
  vs.foldl (fun s v =>
    match s.tryMove p n q v tier false (some id) with
    | (s, true) => s
    | (s, false) => s.closeBatch ⟨0, p, n, v, 0, 0, 0, 0, tier, 0, none, 0, some id, false, 0, none, 0, 0⟩ false) s

theorem State.movePages_one {s w : State} {p id n v tier : Nat} {q : Seqn}
    (h : s.startMove p n q v tier false (some id) = some (.ok w)) : s.movePages p id n q tier [v] = w := by
  simp only [State.movePages, List.foldl_cons, List.foldl_nil, State.tryMove, h]

section
variable {s u : State} {p : PlotIx} {c : Cmd} {q : Seqn}

section
variable (hseq : u.seq p.val c.seqNo = some q) (hlost : q.lost = false) (hpoison : u.tablePoison q = none)
include hseq hlost hpoison

/-- A walk whose row table and recall list lie in the plot's windows posts what it emitted, and completes with the status that it failed
with or with the number of descriptors (R137, R152). -/
theorem exec_walk_runs {n b : Nat} {x : State} {w : WalkAcc} (htake : s.take p.val 0x05 = some (c, u)) (hclean : c.cleanFrom 41 = true)
    (hzero : c.arg 12 4 = 0) (hflags : c.arg 40 1 < 4) (hrecalls : c.arg 32 8 = 0 ∨ u.ownsByte p.val (c.arg 32 8) = true)
    (hb : b = (u.rowBase p.val).elim 0 (· + c.arg 28 4)) (howns : u.ownsRange p.val b (8 * n) = true) (hx : x = u.noteRead b (8 * n))
    (hok : c.walkArgs.ok q = true)
    (hw : w = x.walk p.val c.seqNo q c.walkArgs (x.walkRows b n) (x.selfMember p.val) (x.recallList (c.arg 32 8))) :
    exec (.walk p n) s = .next (State.dropUnknown ringFuel (match w.failed with
      | some st => (w.posted p.val (c.arg 8 4) c.seqNo q).finishOpen c.id st
      | none => (w.posted p.val (c.arg 8 4) c.seqNo q).finish c.id stOk w.descs.length)) := by
  subst hb hx hw
  have hlist : (c.arg 32 8 != 0 && !u.ownsByte p.val (c.arg 32 8)) = false := by
    obtain h | h := hrecalls <;> simp [h]
  refine congrArg Host.Outcome.next (State.runSeqCommand_taken htake (by simp [hclean, hzero, hflags]) hseq hlost hpoison ?_)
  rw [Cmd.walkArgs] at hok
  simp only [hok, hlist, howns, Bool.not_true, Bool.or_self, Bool.false_eq_true, if_false]
  rfl

/-- The pages that cover the range and can move to their home tier begin to (R167). -/
theorem exec_prefetch_starts (htake : s.take p.val 0x06 = some (c, u)) (hclean : c.cleanFrom 16 = true)
    (hrange : rangeOk q (c.arg 8 4) (c.arg 12 4) = true) :
    exec (.prefetch p) s = .next (State.dropUnknown ringFuel
      (((coverPages q (c.arg 8 4) (c.arg 12 4)).foldl (fun s v => s.prefetch p.val c.seqNo q v) u).finishOpen c.id stOk)) := by
  refine congrArg Host.Outcome.next (State.runSeqCommand_taken htake hclean hseq hlost hpoison ?_)
  simp only [hrange, Bool.not_true, Bool.false_eq_true, if_false]

section
variable {vs : List Nat} (htake : s.take p.val 0x0B = some (c, u)) (hclean : c.cleanFrom 17 = true) (htier : c.arg 16 1 ≤ 3)
  (hrange : rangeOk q (c.arg 8 4) (c.arg 12 4) = true)
  (hvs : vs = (coverPages q (c.arg 8 4) (c.arg 12 4)).filter fun v =>
    (u.pte q v).valid && (u.pte q v).tier != c.arg 16 1 && !(u.pte q v).moving)
include htake hclean htier hrange hvs

theorem exec_migrate_empty (hnil : vs = []) : exec (.migrate p) s = .next (State.dropUnknown ringFuel (u.finish c.id stOk 0)) := by
  refine congrArg Host.Outcome.next (State.runSeqCommand_taken htake (by simp [hclean, htier]) hseq hlost hpoison ?_)
  simp only [hrange, ← hvs, hnil, Bool.not_true, Bool.false_eq_true, if_false, List.length_nil, Nat.not_lt_zero, List.isEmpty_nil, if_true]

/-- More pages than a batch holds are refused with LIMIT (R169). -/
theorem exec_migrate_limit (hmany : 64 < vs.length) :
    exec (.migrate p) s = .next (State.dropUnknown ringFuel (u.finishOpen c.id stLimit)) := by
  refine congrArg Host.Outcome.next (State.runSeqCommand_taken htake (by simp [hclean, htier]) hseq hlost hpoison ?_)
  simp only [hrange, ← hvs, hmany, Bool.not_true, Bool.false_eq_true, if_false, if_true]

/-- One page whose move can start is a batch of one, and the command is owed until it closes (R169). -/
theorem exec_migrate_one {v : Nat} {w : State} (hone : vs = [v])
    (hmove : (u.openBatch p.val c.id c.seqNo q 1).startMove p.val c.seqNo q v (c.arg 16 1) false (some c.id) = some (.ok w)) :
    exec (.migrate p) s = .next (State.dropUnknown ringFuel w) := by
  refine congrArg Host.Outcome.next (State.runSeqCommand_taken htake (by simp [hclean, htier]) hseq hlost hpoison ?_)
  simp only [hrange, ← hvs, hone, Bool.not_true, Bool.false_eq_true, if_false, List.isEmpty_cons, List.length_singleton]
  show (u.openBatch p.val c.id c.seqNo q 1).movePages p.val c.id c.seqNo q (c.arg 16 1) [v] = w
  exact State.movePages_one hmove

end

end

/-- A walk for a peer: its descriptors go back one by one, then their number under its status (R153). -/
theorem exec_peerWalk_answers {m : HostMsg} {n : Nat} {a : WalkArgs} {rows : List WalkRow} {recalls : List RecallItem} {w : WalkAcc}
    (hseq : s.seq p.val n = some q) (hlost : q.lost = false) (hok : a.ok q = true)
    (hw : w = s.walk p.val n q a rows (s.selfMember p.val) recalls) :
    exec (.peerWalk m p n a rows recalls) s =
      .next ((w.descs.foldl (fun s d => s.send { Msg.to .walkDescriptor 1 m.plot m.chip with
        tag := m.tag, gen := m.gen, data := leBytes 64 d }) (w.close p.val n q)).answerWalk m (w.failed.getD stOk)
          (leBytes 4 w.descs.length)) := by
  subst hw
  show execPeerWalk m p n a rows recalls s = _
  simp only [execPeerWalk, hseq, hlost, hok, Bool.not_true, Bool.false_eq_true, if_false]
  rfl

end

/-- Settles O26, one clause per case of each command. -/
theorem walkAndPageCommandsComplete : Obligations.WalkAndPageCommandsComplete := by
  intro s u p c q
  refine ⟨fun n b x a w htake hclean hzero hflags hseq hlost hpoison hrecalls hb howns hx ha hok hw => ?walk,
    fun m n a rows recalls w => ?peerWalk, fun htake hclean hseq hlost hpoison => ?prefetch,
    fun vs htake hclean htier hseq hlost hpoison hrange hvs => ⟨?empty, ?limit, fun v x b w => ?one⟩⟩
  case walk =>
    subst ha
    have hwalk := exec_walk_runs hseq hlost hpoison htake hclean hzero hflags hrecalls hb howns hx hok hw
    refine ⟨fun hdone => ?_, fun st hfailed => ?_⟩
    · rwa [hdone] at hwalk
    · rwa [hfailed] at hwalk
  case peerWalk => exact exec_peerWalk_answers
  case prefetch => exact exec_prefetch_starts hseq hlost hpoison htake hclean
  case empty => exact exec_migrate_empty hseq hlost hpoison htake hclean htier hrange hvs
  case limit => exact exec_migrate_limit hseq hlost hpoison htake hclean htier hrange hvs
  case one =>
    intro hone hx hb hmove
    subst hx hb
    exact exec_migrate_one hseq hlost hpoison htake hclean htier hrange hvs hone hmove

end Sys2Proof.Machine
end

section
/-!
The hosting side (R148, R161, R162, R168, R170, R171): what a hosting chip answers of the frames it holds for others, and what the service
pair frees or relieves when it is due. Settles O28.
-/

namespace Sys2Proof.Machine
open Sys2Proof

section
variable {s u : State} {m : HostMsg} {p : PlotIx} {h count seqNo order epoch : Nat} {f : Frame}

/-- A hosted frame opened for a sender: its owner, and the EPOCH it takes once sealed (R168). -/
def Frame.openedFor (f : Frame) (m : HostMsg) (epoch : Nat) : Frame :=
  { f with ownerChip := m.chip, ownerPlot := m.plot, newEpoch := epoch, epoch := 0, sealed := false }

/-- HOST_ALLOC with room (R168). -/
theorem exec_hostAlloc_opens {a : Nat} {v : State} (hopen : s.ringsOpen p.val = true) (horder : order ≤ 16)
    (halloc : s.allocFrame p.val 2 order useHosted seqNo = some (a, u)) (hget : Table.get u.frames a = some f)
    (hv : v = { u with frames := Table.put u.frames a (f.openedFor m epoch) }) :
    exec (.hostAlloc m p seqNo order epoch) s = .next (v.answerHost m (leBytes 1 stOk ++ leBytes 8 (v.handleOf a))) := by
  subst hv
  show execHostAlloc m p seqNo order epoch s = _
  simp only [execHostAlloc, hopen, Nat.not_lt.mpr horder, halloc, hget, Bool.not_true, decide_false, Bool.or_self, Bool.false_eq_true,
    if_false]
  rfl

/-- HOST_SEAL with matching count and CRC (R168). -/
theorem exec_hostSeal_seals (hframe : s.hostedFrame m h = some f) (hcount : count ≤ frameBytes f.order) :
    exec (.hostSeal m h count (crc32c (s.loadBytes (hAddr h) count))) s =
      .next (({ s with frames := Table.put s.frames (hAddr h) { f with sealed := true, epoch := f.newEpoch } } : State).answerHost
        m (leBytes 1 stOk)) := by
  show execHostSeal m h count _ s = _
  simp only [execHostSeal, hframe, Nat.not_lt.mpr hcount, ne_eq, not_true_eq_false, or_self, if_false]

theorem exec_hostSeal_notOwned (hframe : s.hostedFrame m h = none) (crc : Nat) :
    exec (.hostSeal m h count crc) s = .next (s.answerHost m (leBytes 1 stNotOwned)) := by
  show execHostSeal m h count crc s = _
  simp only [execHostSeal, hframe]

theorem exec_hostQuery_answers (hframe : s.hostedFrame m h = some f) :
    exec (.hostQuery m h) s = .next (s.answerHost m (leBytes 1 1 ++ leBytes 1 f.sealed.toNat ++ leBytes 4 f.epoch)) := by
  show execHostQuery m h s = _
  simp only [execHostQuery, hframe]

theorem exec_hostQuery_notOwned (hframe : s.hostedFrame m h = none) :
    exec (.hostQuery m h) s = .next (s.answerHost m (leBytes 1 0 ++ leBytes 1 0 ++ leBytes 4 0)) := by
  show execHostQuery m h s = _
  simp only [execHostQuery, hframe]

/-- HOST_FREE of a frame that passes the checks for its owner (R148, R168). -/
theorem exec_hostFree_frees {x : Nat} (hplot : s.hostingPlot h = some x) (hcheck : s.checkFree x h (some (m.chip, m.plot)) = .ok) :
    exec (.hostFree m h) s = .next ((s.freeFrame (hAddr h)).answerHost m (leBytes 1 stOk)) := by
  show execHostFree m h s = _
  simp only [execHostFree, hplot, hcheck]

section
variable (hrun : s.serviceRuns = true)
include hrun

/-- An open hosted frame 10 ms of local time after its allocation is freed and logged (R171). -/
theorem exec_orphanReclaim_frees {a : Nat} (hframes : s.frames = [(a, f)]) (halloc : f.allocated = true) (huse : f.use = useHosted)
    (hsealed : f.sealed = false) (htick : f.tick + 10000000 ≤ s.clock) :
    exec .orphanReclaim s = .next ((s.freeFrame a).logEvent f.owner 6 3 2 a) := by
  show execOrphanReclaim s = _
  rw [execOrphanReclaim, State.byService_of_runs hrun]
  simp [hframes, halloc, huse, hsealed, htick]

/-- A frame whose HOLD tick has come leaves DRAIN (R170). -/
theorem exec_sourceFree_frees {d : DrainFrame} (hdraining : s.draining = [d]) (hhold : d.hold ≤ s.sundial) :
    exec .sourceFree s = .next (({ s with draining := [] } : State).endDrain d) := by
  show execSourceFree s = _
  rw [execSourceFree, State.byService_of_runs hrun, State.freeDue]
  simp [hdraining, hhold, Nat.not_lt.mpr hhold]

/-- A pool below its low watermark, or marked for it, is relieved (R161, R162). -/
theorem exec_pressureHandling_relieves {t : TierIx} (hopen : s.ringsOpen p.val = true) (htier : t.val ≠ 2)
    (hpressed : s.belowLow p.val t.val = true ∨ (p.val, t.val) ∈ s.pressed) :
    exec (.pressureHandling p t) s =
      .next (({ s with pressed := s.pressed.erase (p.val, t.val) } : State).relieve p.val t.val) := by
  have hdue : (s.ringsOpen p.val && t.val != 2 && (s.belowLow p.val t.val || s.pressed.contains (p.val, t.val))) = true := by
    simp [hopen, htier, hpressed]
  show execPressureHandling p t s = _
  rw [execPressureHandling, State.byService_of_runs hrun]
  exact if_pos hdue

end

end

/-- Settles O28, one clause per case of each command. -/
theorem hostingSideServesItsFrames : Obligations.HostingSideServesItsFrames := by
  intro s u m p h count seqNo order epoch f
  refine ⟨fun a hopen horder halloc hget => ?hostAlloc, ?hostSeal, ?hostQuery, fun hframe crc => ⟨?sealNotOwned, ?queryNotOwned⟩,
    fun x => ?hostFree, fun a hrun => ?orphan, fun d hrun => ?sourceFree, fun t hrun => ?pressure⟩
  case hostAlloc => exact exec_hostAlloc_opens hopen horder halloc hget rfl
  case hostSeal => exact exec_hostSeal_seals
  case hostQuery => exact exec_hostQuery_answers
  case sealNotOwned => exact exec_hostSeal_notOwned hframe crc
  case queryNotOwned => exact exec_hostQuery_notOwned hframe
  case hostFree => exact exec_hostFree_frees
  case orphan => exact exec_orphanReclaim_frees hrun
  case sourceFree => exact exec_sourceFree_frees hrun
  case pressure => exact exec_pressureHandling_relieves hrun

end Sys2Proof.Machine
end

section
/-!
Pieces of a group's decode step that are not of it (R184): they are counted, and nothing else of the chip changes. Settles O44.
-/

namespace Sys2Proof.Machine
open Sys2Proof

/-- A count that saturates steps up to its field's largest value. -/
theorem State.fld_addSat_same (s : State) (f : Fld) (i n : Nat) (h : Sparse.wf regReset s.regs = true) (hf : f.lo + f.width ≤ 32) :
    (s.addSat f i n).fld f i = min (s.fld f i + n) (2 ^ f.width - 1) := by
  have hpos : 0 < 2 ^ f.width := Nat.two_pow_pos _
  rw [State.addSat, State.fld_setFld_same _ _ _ _ h hf, Nat.mod_eq_of_lt (by omega)]

/-- A piece of another TAG, or of a chip that is no member, is counted (R184). -/
theorem State.groupPiece_stale {s : State} {m : InMsg} {x : GroupCtx} (kind : Nat) {gi : GroupDesc → Nat}
    (hx : s.group (m.plot % 8) = some x)
    (h : x.tag ≠ some (pieceHead m.data).tag ∨ s.memberOf (gi (s.groupDesc x.desc)) m.src = none) :
    s.groupPiece m kind gi = s.addSat Fld.ATT_GROUP_STALE_COUNT (m.plot % 8) 1 := by
  simp only [State.groupPiece, hx]
  refine if_pos (h.imp_right fun hnone => .inr (.inl ?_))
  simp [hnone]

/-- The command of either kind of piece counts a stale one. -/
theorem exec_piece_stale {s : State} {m : InMsg} {x : GroupCtx} {c : Instr} {g : Nat} (hhub : s.hubHeld = false)
    (hmal : m.malformed = false) (hself : s.isSelf m.dest = true) (hx : s.group (m.plot % 8) = some x)
    (hc : (c = .queryPiece m ∧ g = (s.groupDesc x.desc).qgroup) ∨ (c = .partialPiece m ∧ g = (s.groupDesc x.desc).rgroup))
    (h : x.tag ≠ some (pieceHead m.data).tag ∨ s.memberOf g m.src = none) :
    exec c s = .next (s.addSat Fld.ATT_GROUP_STALE_COUNT (m.plot % 8) 1) := by
  rcases hc with ⟨rfl, rfl⟩ | ⟨rfl, rfl⟩
  case inl =>
    exact congrArg Host.Outcome.next ((State.arriving_here hhub hmal hself _ _).trans (State.groupPiece_stale 0 hx h))
  case inr =>
    exact congrArg Host.Outcome.next ((State.arriving_here hhub hmal hself _ _).trans (State.groupPiece_stale 1 hx h))

/-- Settles O44: both kinds of piece are counted by one write of the count's register. -/
theorem stalePiecesAreDroppedAndCounted : Obligations.StalePiecesAreDroppedAndCounted := by
  intro s m x c g hs hhub hmal hself hx hc h
  have hp : m.plot % 8 < Fld.ATT_GROUP_STALE_COUNT.reg.count := Nat.mod_lt _ (by decide)
  have hwork := (UnitWork.refl [(.ATT_GROUP_STALE, m.plot % 8)] hs).setFld (f := Fld.ATT_GROUP_STALE_COUNT) hp List.mem_cons_self
    (min (s.fld Fld.ATT_GROUP_STALE_COUNT (m.plot % 8) + 1) (2 ^ Fld.ATT_GROUP_STALE_COUNT.width - 1))
  exact ⟨_, exec_piece_stale hhub hmal hself hx hc h, s.fld_addSat_same _ _ _ (State.canonical_regs hs) (by decide), hwork.regs, hwork.mem,
    rfl, rfl, rfl, rfl, rfl⟩

end Sys2Proof.Machine
end

section
/-!
The sundial (R270 to R272, R279, R280): a join takes the best parent, the event that fires is the earliest due, scheduled writes are
judged, and what was deferred on a link goes on once it is SYNCED. Settles O31.
-/

namespace Sys2Proof.Machine
open Sys2Proof

theorem State.canonical_latch {s : State} (h : s.canonical = true) : Sparse.wf (fun _ => 0) s.latch = true := by
  simp only [State.canonical, Bool.and_eq_true, and_assoc] at h
  obtain ⟨-, -, -, -, -, -, -, -, -, -, -, -, -, -, -, -, -, hlatch, -⟩ := h
  exact hlatch

/-! ### A member that a choice over a list keeps -/

/-- A conditional answers one of its two branches. -/
theorem ite_mem_branches {α : Type} (p : Prop) [Decidable p] (a b : α) : (if p then a else b) = a ∨ (if p then a else b) = b := by
  by_cases h : p
  · exact .inl (if_pos h)
  · exact .inr (if_neg h)

/-- A choice between two, folded over a list, answers one of its candidates. -/
theorem foldl_choice_mem {α : Type} {f : α → α → α} (hf : ∀ a b, f a b = a ∨ f a b = b) (a : α) (l : List α) :
    l.foldl f a ∈ a :: l := by
  refine List.foldlRecOn l f List.mem_cons_self fun b hb c hc => ?_
  rcases hf b c with h | h <;> rw [h]
  · exact hb
  · exact List.mem_cons_of_mem _ hc

/-- It measures at most as much as each of them, where the choice between two measures at most as much as both. -/
theorem foldl_choice_le {α : Type} {f : α → α → α} {measure : α → Nat}
    (hf : ∀ a b, measure (f a b) ≤ measure a ∧ measure (f a b) ≤ measure b) (a : α) (l : List α) :
    ∀ x ∈ a :: l, measure (l.foldl f a) ≤ measure x := by
  induction l generalizing a with
  | nil =>
    intro x hx
    rw [List.mem_singleton.mp hx]
    exact Nat.le_refl _
  | cons b l ih =>
    have hfold := ih (f a b)
    have hfirst := hfold _ List.mem_cons_self
    obtain ⟨ha, hb⟩ := hf a b
    intro x hx
    rcases List.mem_cons.mp hx with rfl | hx
    · exact Nat.le_trans hfirst ha
    · rcases List.mem_cons.mp hx with rfl | hx
      · exact Nat.le_trans hfirst hb
      · exact hfold x (List.mem_cons_of_mem _ hx)

/-! ### Joining (R271, R272) -/

/-- The best parent is one of the links whose partner may be the parent. -/
theorem State.bestParent_mem {s : State} {l : Nat} (h : s.bestParent = some l) : l ∈ s.parentLinks := by
  unfold State.bestParent at h
  cases hlinks : s.parentLinks with
  | nil => rw [hlinks] at h; cases h
  | cons a ls =>
    rw [hlinks] at h
    cases h
    exact foldl_choice_mem (fun a b => (ite_mem_branches _ b a).symm) a ls

/-- The best parent's depth leaves room for one more in the depth field (R272). -/
theorem State.bestParent_depth_lt {s : State} {l : Nat} (h : s.bestParent = some l) : (s.link l).partnerDepth < 0xFF := by
  have hmem := State.bestParent_mem h
  simp only [State.parentLinks, List.mem_filter, Bool.and_eq_true, decide_eq_true_eq] at hmem
  obtain ⟨-, ⟨⟨-, -⟩, hdepth⟩, -⟩ := hmem
  exact hdepth

/-- Two states that agree on the links' synchronisation and on the root choose the same parent. -/
theorem State.bestParent_congr {s u : State} (hstate : ∀ l, l < 6 → u.syncState l = s.syncState l) (hsync : u.sync = s.sync)
    (hroot : u.rootChip = s.rootChip) : u.bestParent = s.bestParent := by
  have hlink : u.link = s.link := by unfold State.link; rw [hsync]
  have hlinks : u.parentLinks = s.parentLinks := by
    refine List.filter_congr fun l hl => ?_
    rw [hstate l (List.mem_range.mp hl), hlink, hroot]
  have hbetter : u.betterParent = s.betterParent := by unfold State.betterParent; rw [hlink]
  unfold State.bestParent
  rw [hlinks, hbetter]

/-- The parent, depth, PTP and state of SDL_STATUS set one after the other. -/
def State.setParent (s : State) (parent depth : Nat) (ptp : Bool) (state : Nat) : State :=
  (((s.setFld Fld.SDL_STATUS_PARENT 0 parent).setFld Fld.SDL_STATUS_DEPTH 0 depth).setBit Fld.SDL_STATUS_PTP 0 ptp).setFld
    Fld.SDL_STATUS_STATE 0 state

section
variable (s : State) (parent depth : Nat) (ptp : Bool) (state : Nat)

theorem State.time64_setParent : (s.setParent parent depth ptp state).time64 = s.time64 := by
  unfold State.time64 State.setParent
  rw [State.sundial_setFld, State.sundial_setBit, State.sundial_setFld, State.sundial_setFld, State.phase_setFld, State.phase_setBit,
    State.phase_setFld, State.phase_setFld]

section
variable (h : Sparse.wf regReset s.regs = true)
include h

theorem State.state_setParent : (s.setParent parent depth ptp state).fld Fld.SDL_STATUS_STATE 0 = state % 2 ^ 3 :=
  State.fld_setFld_same _ _ _ _ (State.wf_setFld _ _ _ _ (State.wf_setFld _ _ _ _ (State.wf_setFld _ _ _ _ h))) (by decide)

theorem State.depth_setParent : (s.setParent parent depth ptp state).fld Fld.SDL_STATUS_DEPTH 0 = depth % 2 ^ 8 := by
  have hparent := s.wf_setFld Fld.SDL_STATUS_PARENT 0 parent h
  have hdepth := State.wf_setFld _ Fld.SDL_STATUS_DEPTH 0 depth hparent
  unfold State.setParent State.setBit
  rw [State.fld_setFld_beside _ Fld.SDL_STATUS_STATE Fld.SDL_STATUS_DEPTH 0 _ (State.wf_setFld _ _ _ _ hdepth) rfl (by decide) (by decide),
    State.fld_setFld_beside _ Fld.SDL_STATUS_PTP Fld.SDL_STATUS_DEPTH 0 _ hdepth rfl (by decide) (by decide),
    State.fld_setFld_same _ _ _ _ hparent (by decide)]
  rfl

theorem State.parent_setParent : (s.setParent parent depth ptp state).fld Fld.SDL_STATUS_PARENT 0 = parent % 2 ^ 3 := by
  have hparent := s.wf_setFld Fld.SDL_STATUS_PARENT 0 parent h
  have hdepth := State.wf_setFld _ Fld.SDL_STATUS_DEPTH 0 depth hparent
  unfold State.setParent State.setBit
  rw [State.fld_setFld_beside _ Fld.SDL_STATUS_STATE Fld.SDL_STATUS_PARENT 0 _ (State.wf_setFld _ _ _ _ hdepth) rfl (by decide) (by decide),
    State.fld_setFld_beside _ Fld.SDL_STATUS_PTP Fld.SDL_STATUS_PARENT 0 _ hdepth rfl (by decide) (by decide),
    State.fld_setFld_beside _ Fld.SDL_STATUS_DEPTH Fld.SDL_STATUS_PARENT 0 _ hparent rfl (by decide) (by decide),
    State.fld_setFld_same _ _ _ _ h (by decide)]
  rfl

end

end

theorem UnitWork.setParent {s u : State} (h : UnitWork [(.SDL_STATUS, 0)] s u) (parent depth : Nat) (ptp : Bool) (state : Nat) :
    UnitWork [(.SDL_STATUS, 0)] s (u.setParent parent depth ptp state) :=
  have hset {v : State} (hv : UnitWork [(.SDL_STATUS, 0)] s v) {f : Fld} (hf : f.reg = .SDL_STATUS) (n : Nat) :
      UnitWork [(.SDL_STATUS, 0)] s (v.setFld f 0 n) := hv.setFld (by rw [hf]; decide) (by simp [hf]) n
  hset (hset (hset (hset h rfl _) rfl _) rfl _) rfl _

theorem State.link_setFld (s : State) (f : Fld) (i v l : Nat) : (s.setFld f i v).link l = s.link l := rfl

/-- A synchronised chip that is not the root takes its best parent (R272). -/
theorem State.chooseParent_takes {s : State} {l : Nat} (hroot : s.isRoot = false) (hlost : s.mainLost = false)
    (hbest : s.bestParent = some l) (hsync : s.fld Fld.SDL_STATUS_STATE 0 = sdSync) :
    s.chooseParent = s.setParent l ((s.link l).partnerDepth + 1) (s.link l).partnerPtp sdSync := by
  simp only [State.chooseParent, hroot, hlost, hbest, hsync, Bool.or_false, Bool.false_eq_true, if_false, true_or, if_true]
  rw [State.link_setFld, State.link_setFld, State.setParent]

/-- A chip whose counter has stepped by its parent's offset, synchronised (R271). -/
def State.joined (s : State) (l : Nat) : State := (s.stepBy (s.link l).theta).setFld Fld.SDL_STATUS_STATE 0 sdSync

theorem State.time64_joined (s : State) (l : Nat) : (s.joined l).time64 = ((s.time64 : Int) + (s.link l).theta / 2).toNat :=
  Nat.div_add_mod' _ 64

section
variable {s : State} (hs : s.canonical = true)
include hs

/-- A join writes SDL_STATUS, and stores nothing. -/
theorem State.joined_work (l : Nat) : UnitWork [(.SDL_STATUS, 0)] s (s.joined l) :=
  have hstep : UnitWork [(.SDL_STATUS, 0)] s (s.stepBy (s.link l).theta) :=
    ⟨State.canonical_regs hs, State.canonical_blocks hs, fun _ _ _ _ => rfl, rfl, rfl, rfl⟩
  hstep.setFld (f := Fld.SDL_STATUS_STATE) (by decide) List.mem_cons_self _

theorem State.isRoot_joined (l : Nat) : (s.joined l).isRoot = s.isRoot :=
  congrArg (· != 0) (State.fld_setFld_beside (s.stepBy (s.link l).theta) Fld.SDL_STATUS_STATE Fld.SDL_STATUS_ROOT 0 sdSync
    (State.canonical_regs hs) rfl (by decide) (by decide))

theorem State.bestParent_joined (l : Nat) : (s.joined l).bestParent = s.bestParent := by
  refine State.bestParent_congr (fun k hk => ?_) rfl rfl
  have hup := (State.joined_work hs l).fld (f := Fld.LNK_STATUS_STATE) hk (by simp [Fld.LNK_STATUS_STATE])
  have hstate := (State.joined_work hs l).fld (f := Fld.SDL_LINK_SYNC_STATE) hk (by simp [Fld.SDL_LINK_SYNC_STATE])
  unfold State.syncState State.linkUp
  rw [hup, hstate]

/-- A chip without work that is JOINING steps to its best parent's time and takes it as its parent (R271, R272). -/
theorem exec_sundialJoin_joins {l : LinkIx} (hroot : s.isRoot = false) (hlost : s.mainLost = false) (hwork : s.holdsWork = false)
    (hstate : s.fld Fld.SDL_STATUS_STATE 0 = sdJoining) (hbest : s.bestParent = some l.val) :
    exec (.sundialJoin l) s =
      .next ((s.joined l.val).setParent l.val ((s.link l.val).partnerDepth + 1) (s.link l.val).partnerPtp sdSync) := by
  have hsync : (s.joined l.val).fld Fld.SDL_STATUS_STATE 0 = sdSync :=
    State.fld_setFld_same (s.stepBy (s.link l.val).theta) Fld.SDL_STATUS_STATE 0 sdSync (State.canonical_regs hs) (by decide)
  have hchoose := State.chooseParent_takes ((State.isRoot_joined hs l.val).trans hroot) hlost
    ((State.bestParent_joined hs l.val).trans hbest) hsync
  show execSundialJoin l s = _
  unfold execSundialJoin
  rw [if_neg (by simp [hroot, hwork, hstate, hbest])]
  exact congrArg Host.Outcome.next hchoose

end

/-! ### Events (R279) -/

/-- Of two events, the one that fires first has no later tick than either. -/
theorem Event.tick_choice_le (a b : Event) :
    (if a.before b then a else b).tick ≤ a.tick ∧ (if a.before b then a else b).tick ≤ b.tick := by
  rcases Nat.lt_trichotomy a.tick b.tick with hlt | heq | hgt
  · have hbefore : a.before b = true := by simp [Event.before, Nat.ne_of_lt hlt, hlt]
    simp [hbefore, Nat.le_of_lt hlt]
  · rcases ite_mem_branches (a.before b = true) a b with hc | hc <;> simp [hc, heq]
  · have hbefore : a.before b = false := by simp [Event.before, Nat.ne_of_gt hgt, Nat.le_of_lt hgt]
    simp [hbefore, Nat.le_of_lt hgt]

/-- The next event is due, and no due event has a lower tick (R279). -/
theorem State.nextEvent_earliest {s : State} {e : Event} (h : s.nextEvent = some e) :
    e ∈ s.dueEvents ∧ ∀ x ∈ s.dueEvents, e.tick ≤ x.tick := by
  unfold State.nextEvent at h
  cases hdue : s.dueEvents with
  | nil => rw [hdue] at h; cases h
  | cons a l =>
    rw [hdue] at h
    cases h
    exact ⟨foldl_choice_mem (fun a b => ite_mem_branches _ a b) a l, foldl_choice_le (measure := Event.tick) Event.tick_choice_le a l⟩

theorem exec_sundialEvent_fires {s : State} {e : Event} (h : s.nextEvent = some e) : exec .sundialEvent s = .next (s.fireEvent e) := by
  show execSundialEvent s = _
  simp only [execSundialEvent, h]

/-! ### Scheduled writes (R280) -/

section
variable {s u : State} {p : PlotIx} {c : Cmd} (htake : s.take p.val 0x30 = some (c, u)) (hclean : c.cleanFrom 24 = true)
  (hseq : c.seqNo = 0) (hmay : u.mayWrite (some p.val) (c.arg 16 4) = true)
include htake hclean hseq hmay

/-- A write at least 1,000 ticks ahead, with fewer than 64 pending, is armed. -/
theorem exec_schedWrite_arms (hahead : u.sundial + 1000 ≤ c.arg 8 8) (hroom : u.pendingWrites < 64) :
    exec (.schedWrite (some p)) s = .next (State.dropUnknown ringFuel (({ u with
      events := u.events ++ [⟨c.arg 8 8, u.eventSeq, .write p.val (c.arg 16 4) (c.arg 20 4) false, none⟩]
      eventSeq := u.eventSeq + 1 } : State).finishOpen c.id 0)) := by
  show execSchedWrite (some p) s = _
  rw [execSchedWrite, State.runCommand_taken htake (by simp [hclean, hseq])]
  simp [State.schedule, hmay, Nat.not_lt.mpr hahead, Nat.not_le.mpr hroom, stOk]

/-- A write less than 1,000 ticks ahead is LATE. -/
theorem exec_schedWrite_late (hlate : c.arg 8 8 < u.sundial + 1000) :
    exec (.schedWrite (some p)) s = .next (State.dropUnknown ringFuel (u.finishOpen c.id 0x0E)) := by
  show execSchedWrite (some p) s = _
  rw [execSchedWrite, State.runCommand_taken htake (by simp [hclean, hseq])]
  simp [State.schedule, hmay, hlate, stLate]

end

/-! ### Deferred launches (R188, R279) -/

section
variable {s : State} {l : LinkIx} (hsynced : s.syncState l.val = sySynced)
include hsynced

/-- The only group's late hop launches once the link to its successor is SYNCED. -/
theorem exec_deferredEvent_launches {p : Nat} {x : GroupCtx} (hgroups : s.groups = [(p, x)]) (hlate : x.late = true)
    (hlink : s.ringLink (s.groupDesc x.desc) = some l.val)
    (hchains : ∀ e ∈ (ranTo (execHopLaunch (plotIx p) s) s).chains, e.2.deferred = false) :
    exec (.deferredEvent l) s = .next (ranTo (execHopLaunch (plotIx p) s) s) := by
  show execDeferredEvent l s = _
  unfold execDeferredEvent
  rw [if_neg (fun h => h hsynced), hgroups]
  simp only [List.filter_cons, List.filter_nil, hlate, hlink, beq_self_eq_true, Bool.and_self, if_true, List.foldl_cons, List.foldl_nil]
  rw [List.filter_eq_nil_iff.mpr fun e he => by simp [hchains e he]]
  rfl

/-- The only chain's deferred head fires once the links that it sends on are SYNCED. -/
theorem exec_deferredEvent_fires {k : Nat} {x : Chain} {d : OpDesc} {g : ColGroup} (hgroups : s.groups = [])
    (hchains : s.chains = [(k, x)]) (hdeferred : x.deferred = true) (hhead : x.headOp = some d) (hg : s.colGroup d.group = some g)
    (hlink : (s.opLinks d g).contains l.val = true) :
    exec (.deferredEvent l) s = .next (ranTo (execOpFire (chainIx k) s) s) := by
  show execDeferredEvent l s = _
  unfold execDeferredEvent
  rw [if_neg (fun h => h hsynced), hgroups]
  simp only [List.filter_nil, List.foldl_nil, hchains, List.filter_cons, hdeferred, hhead, hg, hlink, Bool.and_self, if_true,
    List.foldl_cons]

end

/-- Settles O31, one clause per command and case. -/
theorem sundialIsReadJoinedAndFiresEvents : Obligations.SundialIsReadJoinedAndFiresEvents := by
  intro s u hs
  refine ⟨fun a => ⟨_, rfl, rfl, ?latch, rfl, rfl, rfl, rfl⟩, fun l hroot hlost hwork hstate hbest =>
    ⟨_, exec_sundialJoin_joins hs hroot hlost hwork hstate hbest, ?time, ?state, ?depth, ?parent, ?regs, ?mem⟩,
    fun e he => ⟨exec_sundialEvent_fires he, State.nextEvent_earliest he⟩, ?write,
    fun p c htake hclean hseq hmay => ⟨exec_schedWrite_arms htake hclean hseq hmay, exec_schedWrite_late htake hclean hseq hmay⟩,
    ?hop, ?chain⟩
  case latch => exact Sparse.get_set_same _ _ _ _ (State.canonical_latch hs)
  case time => rw [State.time64_setParent, State.time64_joined]
  case state => exact State.state_setParent _ _ _ _ _ (State.joined_work hs l.val).wfRegs
  case depth =>
    have hdepth := State.bestParent_depth_lt hbest
    rw [State.depth_setParent _ _ _ _ _ (State.joined_work hs l.val).wfRegs, Nat.mod_eq_of_lt (by omega)]
  case parent =>
    rw [State.parent_setParent _ _ _ _ _ (State.joined_work hs l.val).wfRegs, Nat.mod_eq_of_lt (by omega)]
  case regs => exact ((State.joined_work hs l.val).setParent _ _ _ _).regs
  case mem => exact ((State.joined_work hs l.val).setParent _ _ _ _).mem
  case write =>
    intro e p off v priv he hkind
    have hfire : s.fireEvent e = s.fireWrite e p off v priv := by simp only [State.fireEvent, hkind]
    rw [exec_sundialEvent_fires he, hfire]
  case hop =>
    rintro l p x v hsynced hgroups hlate hlink rfl hchains
    exact exec_deferredEvent_launches hsynced hgroups hlate hlink hchains
  case chain =>
    intro l k x d g hsynced hgroups hchains hdeferred hhead hg hlink
    exact exec_deferredEvent_fires hsynced hgroups hchains hdeferred hhead hg hlink

end Sys2Proof.Machine
end

section
/-!
Messages to the collective engine (R322, R323, R332, R334), the timeout of an operation (R333) and the report of the common error (R335):
one lemma per case of each command. Settles O46.
-/

namespace Sys2Proof.Machine
open Sys2Proof

/-! ### Pieces (R184, R322, R323) -/

section
variable {s : State} {m : InMsg}

/-- A piece for a plot of no group, or of a partial ring, goes to its operation as it came. -/
theorem State.takePiece_plain
    (h : s.group (m.plot % 8) = none ∨ ∃ x, s.group (m.plot % 8) = some x ∧ (s.groupDesc x.desc).pattern = ptPartialRing) :
    s.takePiece m = s.pieceIn (m.plot % 8) m.src none m.tag m.op m.addr m.data := by
  rcases h with hnone | ⟨x, hx, hpattern⟩
  · simp only [State.takePiece, hnone]
  · simp [State.takePiece, hx, hpattern, ptPartialRing, ptKvRing, ptDecode]

section
variable {x : GroupCtx} (hx : s.group (m.plot % 8) = some x) (hring : (s.groupDesc x.desc).pattern = ptKvRing)
  (hgroup : (s.groupDesc x.desc).ngroup = bitsAt m.tag 24 8) (hop : bitsAt m.op 24 8 = opShift) (haddr : m.addr = 0)
include hx hring hgroup hop haddr

omit haddr in
theorem State.takePiece_ring : s.takePiece m = s.ringPiece (m.plot % 8) x m := by
  simp only [State.takePiece, hx]
  exact if_pos ⟨hring, hgroup, hop⟩

/-- The first message of a ring's block, of the current TAG and from a member, takes its block out of the stale ones (R184). -/
theorem State.takePiece_ring_takes {k : Nat} (hmember : s.memberOf (bitsAt m.tag 24 8) m.src = some k)
    (htag : some (blockHead m.data).tag = x.tag) :
    s.takePiece m = (s.setGroupCtx (m.plot % 8) { x with stale := x.stale.filter (· != (k, bitsAt m.tag 0 16)) }).pieceIn
      (m.plot % 8) m.src none m.tag m.op m.addr m.data := by
  rw [State.takePiece_ring hx hring hgroup hop]
  simp only [State.ringPiece, hmember, if_pos haddr]
  exact if_neg fun h => h htag

/-- The first message of a ring's block from a chip that is no member is counted (R184). -/
theorem State.takePiece_ring_stale (hmember : s.memberOf (bitsAt m.tag 24 8) m.src = none) :
    s.takePiece m = s.addSat Fld.ATT_GROUP_STALE_COUNT (m.plot % 8) 1 := by
  rw [State.takePiece_ring hx hring hgroup hop]
  simp only [State.ringPiece, hmember, if_pos haddr]

end

/-! ### Credits and frost records (R332, R334, R335) -/

/-- A credit of the group's epoch for an operation in flight adds one back from its sender (R332). -/
theorem State.creditIn_returns {plot chip tag src : Nat} {g : ColGroup} {x : OpRun} (hg : s.colGroup (bitsAt tag 24 8) = some g)
    (hsrc : g.sender chip none = some src) (hplot : g.plot = plot) (hepoch : bitsAt tag 16 8 = g.epoch)
    (hx : s.ops.find? (fun x => x.tag == tag && x.op.opcode != opShift) = some x) :
    s.creditIn plot chip none tag = (s.setOp { x with
      back := (x.back.filter fun e => e.1 != src) ++ [(src, ((x.back.filter fun e => e.1 == src).map (·.2)).sum + 1)] }).progress
        x.id := by
  simp [State.creditIn, hg, hsrc, hplot, hepoch, hx]

section
variable {g : ColGroup} (hg : s.colGroup (leNat ((m.data.drop 1).take 1)) = some g) (hplot : g.plot = m.plot)
include hg hplot

/-- A frost record of the group's epoch from a member is logged and taken (R334). -/
theorem State.frostIn_takes (hepoch : leNat ((m.data.drop 2).take 1) = g.epoch) (hsender : (g.sender m.src none).isSome = true) :
    s.frostIn m = ((s.logEvent g.plot 9 7 32 (leNat ((m.data.drop 1).take 1))).takeError (leNat ((m.data.drop 1).take 1))
      ⟨leNat ((m.data.drop 0).take 1), g.epoch, leNat ((m.data.drop 4).take 2), leNat ((m.data.drop 6).take 2),
        leNat ((m.data.drop 8).take 8), s.sundial⟩).noteRefusal (leNat ((m.data.drop 1).take 1))
          (leNat ((m.data.drop 0).take 1)) m.addr := by
  have hfits : ¬((g.sender m.src none).isNone = true ∨ g.plot ≠ m.plot ∨ leNat ((m.data.drop 2).take 1) ≠ g.epoch) := by
    simp [hplot, hepoch, ← Option.isSome_iff_ne_none, hsender]
  simp only [State.frostIn, hg]
  rw [if_neg hfits, hepoch]

omit hplot in
/-- A frost record of another epoch is dropped and counted (R335). -/
theorem State.frostIn_drops (hepoch : leNat ((m.data.drop 2).take 1) ≠ g.epoch) :
    s.frostIn m = s.addSat Fld.COL_DROP_COUNT_COUNT (m.plot % 8) 1 := by
  simp only [State.frostIn, hg]
  exact if_pos (.inr (.inr hepoch))

end

/-! ### Timeout (R333) -/

/-- An operation past its timeout raises the common error. -/
theorem exec_collectiveTimeout_raises {gi : GroupIx} {g : ColGroup} {opseq t n : Nat} (hg : s.colGroup gi.val = some g)
    (hnone : g.err = none) (htimer : s.opTimer gi.val g opseq = some (t, n)) (hpast : t + n ≤ s.sundial) (hlost : s.lostDrains = [])
    (hruns : s.colRuns = true) : exec (.collectiveTimeout gi opseq) s = .next (s.raiseError gi.val ccTimeout opseq) := by
  have hsame : ({ s with lostDrains := [] } : State) = s := by rw [← hlost]
  show execCollectiveTimeout gi opseq s = _
  simp [execCollectiveTimeout, hg, hnone, hruns, htimer, Nat.not_lt.mpr hpast, hlost, hsame]

end

/-! ### What a store of a unit changes (R251, R256) -/

/-- `u` differs from `s` in what the memories hold, and in nothing else. -/
def StoredOnly (s u : State) : Prop :=
  ∃ mem hostMem poison, u = { s with mem := mem, hostMem := hostMem, poison := poison }

theorem StoredOnly.refl (s : State) : StoredOnly s s := ⟨_, _, _, rfl⟩

theorem StoredOnly.trans {s u v : State} (h : StoredOnly s u) (h' : StoredOnly u v) : StoredOnly s v := by
  obtain ⟨mem, hostMem, poison, rfl⟩ := h
  obtain ⟨mem', hostMem', poison', rfl⟩ := h'
  exact ⟨mem', hostMem', poison', rfl⟩

theorem StoredOnly.foldl {α : Type} {op : State → α → State} (h : ∀ u a, StoredOnly u (op u a)) (s : State) (l : List α) :
    StoredOnly s (l.foldl op s) :=
  List.foldlRecOn l op (StoredOnly.refl s) fun u hu a _ => hu.trans (h u a)

section
variable {s u : State} (h : StoredOnly s u)
include h

theorem StoredOnly.reg (r : Reg) (i : Nat) : u.reg r i = s.reg r i := by
  obtain ⟨mem, hostMem, poison, rfl⟩ := h
  rfl

/-- Work on registers and blocks may begin in what stores have left. -/
theorem StoredOnly.work (hs : s.canonical = true) (l : List (Reg × Nat)) : UnitWork l u u := by
  have hregs := State.canonical_regs hs
  have hblocks := State.canonical_blocks hs
  obtain ⟨mem, hostMem, poison, rfl⟩ := h
  exact ⟨hregs, hblocks, fun _ _ _ _ => rfl, rfl, rfl, rfl⟩

end

theorem StoredOnly.setPoison (s : State) (a : Nat) (b : Bool) : StoredOnly s (s.setPoison a b) := ⟨_, _, _, rfl⟩

theorem StoredOnly.writeBytes (s : State) (a : Nat) (bs : List Byte) : StoredOnly s (s.writeBytes a bs) := ⟨_, _, _, rfl⟩

theorem StoredOnly.writeHost (s : State) (a : Nat) (bs : List Byte) : StoredOnly s (s.writeHost a bs) := ⟨_, _, _, rfl⟩

theorem StoredOnly.storeLines (n : Nat) (s : State) (a : Nat) (bs : List Byte) (bad : Option Nat) :
    StoredOnly s (State.storeLines n s a bs bad).1 := by
  induction n generalizing s a bs bad with
  | zero => exact StoredOnly.refl s
  | succ n ih =>
    have hclear : StoredOnly s (if s.poisoned a then s.setPoison a false else s) := by
      split
      · exact StoredOnly.setPoison _ _ _
      · exact StoredOnly.refl s
    simp only [State.storeLines]
    split
    · exact StoredOnly.refl s
    · split
      · exact ih _ _ _ _
      · exact (hclear.trans (StoredOnly.writeBytes _ _ _)).trans (ih _ _ _ _)

theorem StoredOnly.storeCold (n : Nat) (s : State) (a : Nat) (bs : List Byte) : StoredOnly s (State.storeCold n s a bs) := by
  induction n generalizing s a bs with
  | zero => exact StoredOnly.refl s
  | succ n ih =>
    unfold State.storeCold
    split
    · simp only
      split
      · exact StoredOnly.writeHost _ _ _
      · exact (StoredOnly.writeHost _ _ _).trans (ih _ _ _)
    · exact StoredOnly.refl s

theorem StoredOnly.storeBytes (s : State) (a : Nat) (bs : List Byte) : StoredOnly s (s.storeBytes a bs).1 := by
  unfold State.storeBytes
  split
  · exact StoredOnly.storeCold _ _ _ _
  · exact StoredOnly.storeLines _ _ _ _ _
  · exact StoredOnly.storeLines _ _ _ _ _
  · exact StoredOnly.writeBytes _ _ _

/-! ### The report of the common error (R335) -/

/-- The status records of the operations that the common error ended are written. -/
def State.storeDead (s : State) (g : ColGroup) (e : ColErr) : State :=
  g.dead.foldl (fun s d => (s.storeBytes d.status (opStatus 2 d.flags d.opseq e.epoch e.cause e.tick)).1) s

theorem State.storeDead_stored (s : State) (g : ColGroup) (e : ColErr) : StoredOnly s (s.storeDead g e) :=
  StoredOnly.foldl (fun u _ => StoredOnly.storeBytes u _ _) s g.dead

/-- The word of COL_ERROR_INFO for an error of group `gi`. -/
def errorInfoWord (overrun : Bool) (gi : Nat) (e : ColErr) : Nat :=
  2 ^ 31 + (if overrun then 2 ^ 30 else 0) + e.cause % 16 * 2 ^ 26 + gi * 2 ^ 16 + e.origin % 8192

/-- Bit 31 of the word is VALID. -/
theorem errorInfoWord_valid (overrun : Bool) {gi : Nat} (hgi : gi < 256) (e : ColErr) : bitsAt (errorInfoWord overrun gi e) 31 1 = 1 := by
  unfold bitsAt errorInfoWord
  cases overrun <;> simp <;> omega

/-- The plot's error registers take the error, or OVERRUN where they hold another. -/
def State.noteError (s : State) (p gi : Nat) (e : ColErr) : State :=
  if s.bit Fld.COL_ERROR_INFO_VALID p then s.setBit Fld.COL_ERROR_INFO_OVERRUN p true
  else (s.setReg .COL_ERROR_INFO p (BitVec.ofNat 32 (errorInfoWord (s.bit Fld.COL_ERROR_INFO_OVERRUN p) gi e))).setReg
    .COL_ERROR_OP p (BitVec.ofNat 32 (e.epoch * 2 ^ 24 + e.opseq))

section
variable {s : State} {p gi : Nat} {e : ColErr}

theorem UnitWork.noteError (h : UnitWork [(.COL_ERROR_INFO, p), (.COL_ERROR_OP, p)] s s) (hp : p < 8) :
    UnitWork [(.COL_ERROR_INFO, p), (.COL_ERROR_OP, p)] s (s.noteError p gi e) :=
  (h.setBit (f := Fld.COL_ERROR_INFO_OVERRUN) hp (by simp [Fld.COL_ERROR_INFO_OVERRUN]) true).ite
    ((h.setReg (r := .COL_ERROR_INFO) hp (by simp) _).setReg (r := .COL_ERROR_OP) hp (by simp) _)

section
variable (h : Sparse.wf regReset s.regs = true)
include h

theorem State.valid_noteError (hp : p < 8) (hgi : gi < 256) : (s.noteError p gi e).bit Fld.COL_ERROR_INFO_VALID p = true := by
  unfold State.noteError
  split
  next hvalid =>
    have hkept := s.fld_setFld_beside Fld.COL_ERROR_INFO_OVERRUN Fld.COL_ERROR_INFO_VALID p 1 h rfl (by decide) (by decide)
    exact (congrArg (· != 0) hkept).trans hvalid
  next =>
    have hword (v w : W32) : ((s.setReg .COL_ERROR_INFO p v).setReg .COL_ERROR_OP p w).reg .COL_ERROR_INFO p = v :=
      (State.reg_setReg_other _ w (r := .COL_ERROR_OP) (q := .COL_ERROR_INFO) hp hp (fun e => nomatch e.1)).trans
        (State.reg_setReg_same _ _ _ _ h)
    rw [State.bit, State.fld, Fld.COL_ERROR_INFO_VALID, hword, bitsAt_ofNat _ _ _ (by decide), errorInfoWord_valid _ hgi]
    rfl

theorem State.errorOp_noteError (hvalid : s.bit Fld.COL_ERROR_INFO_VALID p = false) :
    (s.noteError p gi e).reg .COL_ERROR_OP p = BitVec.ofNat 32 (e.epoch * 2 ^ 24 + e.opseq) := by
  rw [State.noteError, if_neg (by simp [hvalid])]
  exact State.reg_setReg_same _ _ _ _ (s.wf_setReg _ _ _ h)

end

/-- What a report leaves before the check that waited for it starts. -/
def State.errorReported (s : State) (gi : Nat) (g : ColGroup) (e : ColErr) : State :=
  ((s.storeDead g e).noteError g.plot gi e).setGroup gi { g with epoch := (g.epoch + 1) % 256, opseq := 0, err := none, dead := [] }

theorem exec_errorReport_reports {gi : GroupIx} {g : ColGroup} (hg : s.colGroup gi.val = some g) (he : g.err = some e)
    (hdue : e.first + 5000 ≤ s.sundial) (hruns : s.colRuns = true) :
    exec (.errorReport gi) s = .next ((s.errorReported gi.val g e).startCheck g.plot) := by
  show execErrorReport gi s = _
  simp only [execErrorReport, hg, he]
  rw [if_neg (by simp [Nat.not_lt.mpr hdue, hruns])]
  rfl

end

/-- Settles O46, one clause per case of each command. -/
theorem piecesCreditsAndTheCommonError : Obligations.PiecesCreditsAndTheCommonError := by
  intro s m gi g hs
  refine ⟨fun hhub hmal hself => ?messages, ?timeout, fun e hg he hdue hplot hruns =>
    ⟨_, exec_errorReport_reports hg he hdue hruns, Table.get_put_same _ _ _, ?report⟩⟩
  case messages =>
    have harrives (kind : MsgKind) {f : State → State} {t : State} (hf : f s = t) :
        (Host.Outcome.next (s.arriving kind m f) : Res) = .next t :=
      congrArg Host.Outcome.next ((State.arriving_here hhub hmal hself kind f).trans hf)
    refine ⟨fun hplain => harrives _ (State.takePiece_plain hplain),
      fun x hx hring hgroup hop haddr => ⟨fun k hmember htag => ?taken, fun hmember => ?stale⟩, ?credit,
      fun hg hplot => ⟨fun hepoch hsender => ?frost, fun hepoch => ?dropped⟩⟩
    case taken => exact harrives _ (State.takePiece_ring_takes hx hring hgroup hop haddr hmember htag)
    case stale => exact harrives _ (State.takePiece_ring_stale hx hring hgroup hop haddr hmember)
    case credit =>
      intro src x hop hg hsrc hplot hepoch hx
      exact harrives _ ((if_neg fun h => h hop).trans (State.creditIn_returns hg hsrc hplot hepoch hx))
    case frost => exact harrives _ (State.frostIn_takes hg hplot hepoch hsender)
    case dropped => exact harrives _ (State.frostIn_drops hg hepoch)
  case timeout =>
    intro opseq t n hg hnone htimer hpast hlost hruns
    exact exec_collectiveTimeout_raises hg hnone htimer hpast hlost hruns
  case report =>
    have hstored := s.storeDead_stored g e
    have hwork := hstored.work hs [(.COL_ERROR_INFO, g.plot), (.COL_ERROR_OP, g.plot)]
    refine ⟨State.valid_noteError hwork.wfRegs hplot gi.isLt, fun hvalid => State.errorOp_noteError hwork.wfRegs ?_, fun r i hi hr => ?_⟩
    · rw [← hvalid, State.bit, State.bit, State.fld, State.fld, hstored.reg]
    · exact ((hwork.noteError hplot).regs r i hi hr).trans (hstored.reg r i)

end Sys2Proof.Machine
end

section
/-!
The commands on indexes (R200 to R202, R206): taken with arguments in range, each runs its body on an index of the plot and of the class
that it is for. Settles O36.
-/

namespace Sys2Proof.Machine
open Sys2Proof

/-! ### Commands that name an index (R200, R201) -/

section
variable {s u : State} {p op : Nat} {c : Cmd} {x : Index} (htake : s.take p op = some (c, u)) (hseq : c.seqNo = 0)
  {live : Option Bool} {ok : Cmd → Bool} (hok : ok c = true)
include htake hseq hok

/-- A command on an index of the plot, of the class that it is for, runs its body. -/
theorem State.runIndexCommand_taken {v : State} (hx : u.plotIndex p (c.arg 8 2) = some x) (hlive : live.all (· == x.live) = true)
    {body : Cmd → Nat → Index → State → State} (hbody : body c (c.arg 8 2) x u = v) :
    s.runIndexCommand p op live ok body = State.dropUnknown ringFuel v := by
  have hclass : live.any (· != x.live) = false := by
    cases live with
    | none => rfl
    | some b => simpa using hlive
  rw [State.runIndexCommand, State.runCommand_taken htake (by simp [hseq, hok]), ← hbody]
  simp only [hx, hclass, Bool.false_eq_true, if_false]

/-- One on an index that the plot does not have completes with NOINDEX. -/
theorem State.runIndexCommand_noIndex (hx : u.plotIndex p (c.arg 8 2) = none) (body : Cmd → Nat → Index → State → State) :
    s.runIndexCommand p op live ok body = State.dropUnknown ringFuel (u.finishOpen c.id stNoIndex) := by
  rw [State.runIndexCommand, State.runCommand_taken htake (by simp [hseq, hok])]
  simp only [hx]

end

section
variable {s u : State} {p : PlotIx} {c : Cmd} {x : Index}

/-! ### IDX_CREATE and IDX_DESTROY (R198, R200) -/

section
variable {dirs : List ListDir} {k : Nat} (htake : s.take p.val 0x20 = some (c, u)) (hclean : c.cleanFrom 24 = true) (hseq : c.seqNo = 0)
  (hzero : c.arg 9 1 = 0) (hzero' : c.arg 14 2 = 0) (hcount : c.arg 10 2 ≠ 0)
  (hdirs : u.listDirs p.val (c.arg 16 8) (c.arg 10 2) = some dirs) (hkey : Table.freeKey u.indexes 4096 0 = some k)
include htake hclean hseq hzero hzero' hcount hdirs hkey

/-- A corpus index begins with its lists as its one version. -/
theorem exec_idxCreate_corpus (hclass : c.arg 8 1 = 0) (hcap : c.arg 12 2 = 0) :
    exec (.idxCreate p) s = .next (State.dropUnknown ringFuel ((u.setIndex k
      ⟨p.val, false, 0, c.arg 10 2, [⟨dirs, u.sundial⟩], none, none, none, [], 0, none, false⟩).finish c.id stOk k)) := by
  show execIdxCreate p s = _
  rw [execIdxCreate, State.runCommand_taken htake (by simp [hclean, hseq, hzero, hzero'])]
  simp [hclass, hcount, hcap, hdirs, hkey]

/-- A live index begins with a base for each list. -/
theorem exec_idxCreate_live (hclass : c.arg 8 1 = 1) (hcap : 64 ≤ c.arg 12 2) :
    exec (.idxCreate p) s = .next (State.dropUnknown ringFuel ((u.setIndex k
      ⟨p.val, true, c.arg 12 2, c.arg 10 2, [], none, none, none, dirs.map fun d => LiveList.fresh d.region u.sundial d, 0, none,
        false⟩).finish c.id stOk k)) := by
  show execIdxCreate p s = _
  rw [execIdxCreate, State.runCommand_taken htake (by simp [hclean, hseq, hzero, hzero'])]
  simp [hclass, hcount, Nat.not_lt.mpr hcap, hdirs, hkey]

end

section
variable (htake : s.take p.val 0x21 = some (c, u)) (hseq : c.seqNo = 0) (hclean : c.cleanFrom 10 = true)
include htake hseq hclean

/-- An index is freed where no query uses it, and marked where one does. -/
theorem exec_idxDestroy_destroys (hx : u.plotIndex p.val (c.arg 8 2) = some x) :
    exec (.idxDestroy p) s = .next (State.dropUnknown ringFuel
      (if u.indexUsed (c.arg 8 2) then u.setIndex (c.arg 8 2) { x with dying := some (some c.id) }
        else u.freeIndex (c.arg 8 2) x (some c.id))) :=
  congrArg Host.Outcome.next (State.runIndexCommand_taken htake hseq hclean hx rfl rfl)

theorem exec_idxDestroy_noIndex (hx : u.plotIndex p.val (c.arg 8 2) = none) :
    exec (.idxDestroy p) s = .next (State.dropUnknown ringFuel (u.finishOpen c.id stNoIndex)) :=
  congrArg Host.Outcome.next (State.runIndexCommand_noIndex htake hseq hclean hx _)

end

/-! ### IDX_STAGE and IDX_SWAP (R206, R279) -/

/-- Lists are staged for a corpus index of one version that holds none staged. -/
theorem exec_idxStage_stages {dirs : List ListDir} (htake : s.take p.val 0x22 = some (c, u)) (hseq : c.seqNo = 0)
    (hclean : c.cleanFrom 24 = true) (hzero : c.arg 10 6 = 0) (hx : u.plotIndex p.val (c.arg 8 2) = some x) (hlive : x.live = false)
    (hstaged : x.staged = none) (hcorpus : x.corpus.length ≤ 1) (hdirs : u.listDirs p.val (c.arg 16 8) x.count = some dirs) :
    exec (.idxStage p) s = .next (State.dropUnknown ringFuel
      ((u.setIndex (c.arg 8 2) { x with staged := some dirs }).finishOpen c.id stOk)) := by
  refine congrArg Host.Outcome.next
    (State.runIndexCommand_taken htake hseq (by simp [hclean, hzero]) hx (by simp [hlive]) ?_)
  simp [hstaged, Nat.not_lt.mpr hcorpus, hdirs]

section
variable (htake : s.take p.val 0x23 = some (c, u)) (hseq : c.seqNo = 0) (hclean : c.cleanFrom 24 = true) (hzero : c.arg 10 6 = 0)
  (hx : u.plotIndex p.val (c.arg 8 2) = some x) (hlive : x.live = false) (hstaged : x.staged.isSome = true) (hswap : x.swap = none)
include htake hseq hclean hzero hx hlive hstaged hswap

/-- A swap at least 1,000 ticks ahead is armed. -/
theorem exec_idxSwap_arms (hahead : u.sundial + 1000 ≤ c.arg 16 8) :
    exec (.idxSwap p) s = .next (State.dropUnknown ringFuel { u.setIndex (c.arg 8 2) { x with swap := some (c.arg 16 8, c.id) } with
      events := u.events ++ [⟨c.arg 16 8, u.eventSeq, .indexSwap p.val (c.arg 8 2), none⟩], eventSeq := u.eventSeq + 1 }) := by
  refine congrArg Host.Outcome.next
    (State.runIndexCommand_taken htake hseq (by simp [hclean, hzero]) hx (by simp [hlive]) ?_)
  simp [Option.isSome_iff_ne_none.mp hstaged, hswap, Nat.not_lt.mpr hahead]

/-- A swap less than 1,000 ticks ahead is LATE. -/
theorem exec_idxSwap_late (hlate : c.arg 16 8 < u.sundial + 1000) :
    exec (.idxSwap p) s =
      .next (State.dropUnknown ringFuel ((u.setBit Fld.RCL_PLOT_FLAGS_LATE p.val true).finishOpen c.id stLate)) := by
  refine congrArg Host.Outcome.next
    (State.runIndexCommand_taken htake hseq (by simp [hclean, hzero]) hx (by simp [hlive]) ?_)
  simp [Option.isSome_iff_ne_none.mp hstaged, hswap, hlate]

end

/-! ### INSERT, DELETE and COMPACT (R199, R200, R202) -/

section
variable (hx : u.plotIndex p.val (c.arg 8 2) = some x) (hlive : x.live = true)
include hx hlive

section
variable (htake : s.take p.val 0x24 = some (c, u)) (hseq : c.seqNo = 0) (hclean : c.cleanFrom 32 = true) (hzero : c.arg 12 4 = 0)
  (hlist : c.arg 10 2 < x.count) (howns : u.ownsRange p.val (c.arg 24 8) 32 = true)
include htake hseq hclean hzero hlist howns

theorem exec_insertEntry_appends {y : Index}
    (hroom : x.append (c.arg 10 2) (u.loadLe (c.arg 24 8) 32) (c.arg 16 8) u.sundial = some y) :
    exec (.insertEntry p) s = .next (State.dropUnknown ringFuel ((u.setIndex (c.arg 8 2) y).finishOpen c.id stOk)) := by
  refine congrArg Host.Outcome.next
    (State.runIndexCommand_taken htake hseq (by simp [hclean, hzero]) hx (by simp [hlive]) ?_)
  simp [Nat.not_le.mpr hlist, howns, hroom]

theorem exec_insertEntry_full (hfull : x.append (c.arg 10 2) (u.loadLe (c.arg 24 8) 32) (c.arg 16 8) u.sundial = none) :
    exec (.insertEntry p) s =
      .next (State.dropUnknown ringFuel ((u.setBit Fld.RCL_PLOT_FLAGS_SIDE_FULL p.val true).finishOpen c.id stFull)) := by
  refine congrArg Host.Outcome.next
    (State.runIndexCommand_taken htake hseq (by simp [hclean, hzero]) hx (by simp [hlive]) ?_)
  simp [Nat.not_le.mpr hlist, howns, hfull]

end

theorem exec_deleteEntry_buries {y : Index} (htake : s.take p.val 0x25 = some (c, u)) (hseq : c.seqNo = 0)
    (hclean : c.cleanFrom 24 = true) (hzero : c.arg 12 4 = 0) (hlist : c.arg 10 2 < x.count)
    (hroom : x.bury (c.arg 10 2) (c.arg 16 8) u.sundial = some y) :
    exec (.deleteEntry p) s = .next (State.dropUnknown ringFuel ((u.setIndex (c.arg 8 2) y).finishOpen c.id stOk)) := by
  refine congrArg Host.Outcome.next
    (State.runIndexCommand_taken htake hseq (by simp [hclean, hzero]) hx (by simp [hlive]) ?_)
  simp [Nat.not_le.mpr hlist, hroom]

/-- One list, or with list number 0xFFFF every list, is wanted compacted. -/
theorem exec_compact_marks (htake : s.take p.val 0x26 = some (c, u)) (hseq : c.seqNo = 0) (hclean : c.cleanFrom 12 = true)
    (hlist : c.arg 10 2 = 0xFFFF ∨ c.arg 10 2 < x.count) :
    exec (.compact p) s = .next (State.dropUnknown ringFuel ((u.setIndex (c.arg 8 2) { x with
      lists := x.lists.zipIdx.map fun e => if c.arg 10 2 = 0xFFFF ∨ e.2 = c.arg 10 2 then { e.1 with wanted := true } else e.1
      }).finishOpen c.id stOk)) := by
  have hrange : ¬(c.arg 10 2 ≠ 0xFFFF ∧ x.count ≤ c.arg 10 2) := by omega
  exact congrArg Host.Outcome.next
    (State.runIndexCommand_taken htake hseq hclean hx (by simp [hlive]) (if_neg hrange))

end

end

/-- Settles O36, one clause per case of each command. -/
theorem indexCommandsComplete : Obligations.IndexCommandsComplete := by
  intro s u p c x
  refine ⟨fun dirs k htake hclean hseq hzero hzero' hcount hdirs hkey => ⟨?corpus, ?live⟩,
    fun htake hseq hclean => ⟨fun hx => ⟨fun hunused => ?frees, fun hused => ?marks⟩, ?noIndex⟩,
    fun dirs htake hseq hclean hzero hx hlive hstaged hcorpus hdirs => ?stages,
    fun htake hseq hclean hzero hx hlive hstaged hswap => ⟨?arms, ?late⟩,
    fun htake hseq hclean hzero hx hlive hlist howns => ⟨fun y => ?appends, ?full⟩,
    fun y htake hseq hclean hzero hx hlive hlist => ?buries,
    fun htake hseq hclean hx hlive => ?compacts⟩
  case corpus => exact exec_idxCreate_corpus htake hclean hseq hzero hzero' hcount hdirs hkey
  case live => exact exec_idxCreate_live htake hclean hseq hzero hzero' hcount hdirs hkey
  case frees => rw [exec_idxDestroy_destroys htake hseq hclean hx, if_neg (by simp [hunused])]
  case marks => rw [exec_idxDestroy_destroys htake hseq hclean hx, if_pos hused]
  case noIndex => exact exec_idxDestroy_noIndex htake hseq hclean
  case stages => exact exec_idxStage_stages htake hseq hclean hzero hx hlive hstaged hcorpus hdirs
  case arms => exact exec_idxSwap_arms htake hseq hclean hzero hx hlive hstaged hswap
  case late => exact exec_idxSwap_late htake hseq hclean hzero hx hlive hstaged hswap
  case appends => exact exec_insertEntry_appends hx hlive htake hseq hclean hzero hlist howns
  case full => exact exec_insertEntry_full hx hlive htake hseq hclean hzero hlist howns
  case buries => exact exec_deleteEntry_buries hx hlive htake hseq hclean hzero hlist
  case compacts => exact exec_compact_marks hx hlive htake hseq hclean

end Sys2Proof.Machine
end

section
/-!
Changes of a live list (R199, R202 to R204): an entry or a tombstone is stamped above what the list has stamped and shown, so that no
snapshot taken before sees it. Settles O37.
-/

namespace Sys2Proof.Machine
open Sys2Proof

/-! ### Stamps (R202) -/

section
variable (l : LiveList) (requested : Nat)

theorem LiveList.requested_le_stamp : requested ≤ l.stamp requested := Nat.le_max_left _ _

theorem LiveList.lastSnap_lt_stamp : l.lastSnap < l.stamp requested :=
  Nat.le_trans (Nat.le_max_left _ _) (Nat.le_max_right _ _)

theorem LiveList.lastStamp_lt_stamp : l.lastStamp < l.stamp requested :=
  Nat.le_trans (Nat.le_max_right _ _) (Nat.le_max_right _ _)

end

/-! ### What a snapshot sees (R204) -/

/-- An entry stamped after a snapshot is not seen by it. -/
theorem LiveList.sideVisible_append {l m : LiveList} {e : SideEntry} {after t : Nat} (hside : m.side = l.side ++ [e])
    (htombs : m.tombs = l.tombs) (ht : t < e.stamp) : m.sideVisible after t = l.sideVisible after t := by
  have hlate : ¬ e.stamp ≤ t := Nat.not_le.mpr ht
  simp [LiveList.sideVisible, hside, htombs, hlate]

/-- A tombstone stamped after a snapshot kills nothing in it. -/
theorem killed_append {tombs : List Tomb} {e : Tomb} {t : Nat} (ht : t < e.stamp) (id after : Nat) :
    killed (tombs ++ [e]) id after t = killed tombs id after t := by
  have hlate : ¬ e.stamp ≤ t := Nat.not_le.mpr ht
  simp [killed, hlate]

theorem LiveList.sideVisible_bury {l m : LiveList} {e : Tomb} {after t : Nat} (hside : m.side = l.side)
    (htombs : m.tombs = l.tombs ++ [e]) (ht : t < e.stamp) : m.sideVisible after t = l.sideVisible after t := by
  unfold LiveList.sideVisible
  rw [hside, htombs]
  simp only [killed_append ht]

/-! ### Appends and tombstones (R199, R202) -/

/-- List `l` as it takes in a side entry. -/
def LiveList.withEntry (cap code id requested : Nat) (l : LiveList) : LiveList :=
  LiveList.watch cap { l with side := l.side ++ [⟨code, id, l.stamp requested⟩], lastStamp := l.stamp requested }

/-- List `l` as it takes in a tombstone. -/
def LiveList.withTomb (cap id requested : Nat) (l : LiveList) : LiveList :=
  LiveList.watch cap { l with tombs := l.tombs ++ [⟨id, l.stamp requested⟩], lastStamp := l.stamp requested }

section
variable {x y : Index} {n code id requested : Nat}

theorem Index.append_some (h : x.append n code id requested = some y) :
    ∃ l, x.lists[n]? = some l ∧ y = { x with lists := x.lists.set n (l.withEntry x.sideCap code id requested) } := by
  unfold Index.append at h
  split at h
  · cases h
  next l hl =>
    split at h
    · cases h
    · exact ⟨l, hl, (Option.some.inj h).symm⟩

theorem Index.bury_some (h : x.bury n id requested = some y) :
    ∃ l, x.lists[n]? = some l ∧ y = { x with lists := x.lists.set n (l.withTomb x.sideCap id requested) } := by
  unfold Index.bury at h
  split at h
  · cases h
  next l hl =>
    split at h
    · cases h
    · exact ⟨l, hl, (Option.some.inj h).symm⟩

end

/-- Settles O37: the list changed is the only one set, and its new stamp is above its last snapshot. -/
theorem liveListStampsRiseAndCompactionKeepsSight : Obligations.LiveListStampsRiseAndCompactionKeepsSight := by
  intro x y n code id requested
  have hset {l : LiveList} (hl : x.lists[n]? = some l) (m : LiveList) : (x.lists.set n m)[n]? = some m :=
    List.getElem?_set_self (List.getElem?_eq_some_iff.mp hl).1
  have hothers (m : LiveList) (k : Nat) (hk : k ≠ n) : (x.lists.set n m)[k]? = x.lists[k]? := List.getElem?_set_ne hk.symm
  refine ⟨fun happend => ?append, fun hbury => ?bury⟩
  case append =>
    obtain ⟨l, hl, rfl⟩ := Index.append_some happend
    exact ⟨l, _, l.stamp requested, hl, hset hl _, rfl, rfl, l.requested_le_stamp _, l.lastSnap_lt_stamp _, l.lastStamp_lt_stamp _, rfl,
      rfl, fun _ _ ht => LiveList.sideVisible_append rfl rfl (Nat.lt_of_le_of_lt ht (l.lastSnap_lt_stamp _)), hothers _⟩
  case bury =>
    obtain ⟨l, hl, rfl⟩ := Index.bury_some hbury
    exact ⟨l, _, l.stamp requested, hl, hset hl _, rfl, rfl, l.requested_le_stamp _, l.lastSnap_lt_stamp _, l.lastStamp_lt_stamp _, rfl,
      rfl, fun _ _ ht => LiveList.sideVisible_bury rfl rfl (Nat.lt_of_le_of_lt ht (l.lastSnap_lt_stamp _)), hothers _⟩

end Sys2Proof.Machine
end

section
/-!
The versions of an index (R205, R206): the swap of a corpus index, a compaction of a live list, and the release of a predecessor that no
query uses. Settles O38.
-/

namespace Sys2Proof.Machine
open Sys2Proof

section
variable {s u : State} {ix : IndexIx} {x : Index} (hx : s.index ix.val = some x)
include hx

/-! ### Swaps (R206, R279) -/

section
variable {tick id : Nat} {dirs : List ListDir} (hswap : x.swap = some (tick, id)) (hstaged : x.staged = some dirs)
include hswap hstaged

/-- From its tick on, an armed swap puts the staged lists in front. -/
theorem exec_indexSwap_swaps (hdue : tick ≤ s.sundial) :
    exec (.indexSwap ix) s = .next ({ s.setIndex ix.val { x with
        corpus := ⟨dirs, tick⟩ :: x.corpus, staged := none, swap := none, owed := some id } with
      events := s.events.filter fun e => e.kind != EventKind.indexSwap x.plot ix.val }.markUnsync x.plot) := by
  show Host.Outcome.next (s.swapIndex ix.val) = _
  simp only [State.swapIndex, hx, hswap, hstaged, if_neg (Nat.not_lt.mpr hdue)]

theorem exec_indexSwap_waits (hearly : s.sundial < tick) : exec (.indexSwap ix) s = .next s := by
  show Host.Outcome.next (s.swapIndex ix.val) = _
  simp only [State.swapIndex, hx, hswap, hstaged, if_pos hearly]

end

variable (hrun : s.serviceRuns = true)
include hrun

/-! ### Compaction (R205) -/

/-- A wanted compaction of a list of one version, unpoisoned, publishes the base that it wrote. -/
theorem exec_compaction_publishes {n : Nat} {l : LiveList} {v new : BaseVersion} (hl : x.lists[n]? = some l) (hwanted : l.wanted = true)
    (hone : l.versions = [v]) (hcodes : s.firstPoison v.dir.codes (32 * v.dir.count) = none)
    (hids : s.firstPoison v.dir.ids (8 * v.dir.count) = none)
    (hwrite : s.writeBase x.plot l.region l.lastStamp (s.compacted l v l.lastStamp) = some (new, u)) :
    exec (.compaction ix n) s = .next (u.setIndex ix.val { x with
      lists := x.lists.set n { l with wanted := false, promoted := false, versions := [new, v] }, epoch := x.epoch + 1 }) := by
  show execCompaction ix n s = _
  simp only [execCompaction, hx, hl, hwanted, hrun, hone, hcodes, hids, hwrite, Option.or_none, Bool.not_true, Bool.or_self,
    Bool.false_eq_true, if_false]

/-! ### Releases (R205, R206) -/

/-- The predecessor of a live list's base goes with the side entries and tombstones that the base holds. -/
theorem exec_versionRelease_live {n : Nat} {l : LiveList} {new old : BaseVersion} (hlive : x.live = true) (hl : x.lists[n]? = some l)
    (htwo : l.versions = [new, old]) (hunused : s.versionUsed ix.val (fun e => e.1 == n && e.2 == old.tick) = false) :
    exec (.versionRelease ix n) s = .next (old.frames.foldl State.freeFrame (s.setIndex ix.val { x with lists := x.lists.set n { l with
      versions := [new], side := l.side.filter fun e => decide (new.tick < e.stamp)
      tombs := l.tombs.filter fun e => decide (new.tick < e.stamp) } })) := by
  show execVersionRelease ix n s = _
  rw [execVersionRelease, State.byService_of_runs hrun]
  simp only [hx, hlive, hl, htwo, hunused, if_true, Bool.false_eq_true, if_false]

/-- The predecessor of a corpus goes, and the swap that replaced it completes. -/
theorem exec_versionRelease_corpus {n : Nat} {new old : CorpusVersion} {id : Nat} (hlive : x.live = false) (htwo : x.corpus = [new, old])
    (hunused : s.versionUsed ix.val (fun e => e.2 == old.start) = false) (howed : x.owed = some id) :
    exec (.versionRelease ix n) s = .next ((s.setIndex ix.val { x with corpus := [new], owed := none }).finishOpen id stOk) := by
  show execVersionRelease ix n s = _
  rw [execVersionRelease, State.byService_of_runs hrun]
  simp only [hx, hlive, htwo, hunused, howed, Bool.false_eq_true, if_false]

end

/-- Settles O38, one clause per case of each command. -/
theorem indexVersionsAreSwappedCompactedAndReleased : Obligations.IndexVersionsAreSwappedCompactedAndReleased := by
  intro s u ix x hx
  refine ⟨fun tick id dirs hswap hstaged => ⟨?swaps, ?waits⟩, fun n l v new hrun => ?compacts, fun n l new old hrun => ?live,
    fun n new old id hrun => ?corpus⟩
  case swaps => exact exec_indexSwap_swaps hx hswap hstaged
  case waits => exact exec_indexSwap_waits hx hswap hstaged
  case compacts => exact exec_compaction_publishes hx hrun
  case live => exact exec_versionRelease_live hx hrun
  case corpus => exact exec_versionRelease_corpus hx hrun

end Sys2Proof.Machine
end

section
/-!
Query batches and the engines that scan them (R203, R207 to R213, R221): admission, chunks, results, snapshots that have come, and the
known-answer test. Settles O39.
-/

namespace Sys2Proof.Machine
open Sys2Proof

/-! ### Batches are presented to admission (R207, R210, R213) -/

/-- The snapshots that the entries of a batch ask for (R208). -/
def State.querySnaps (s : State) (d : BatchDesc) : List Nat := (List.range d.count).map fun i => s.loadLe (d.entry i + 0x30) 8

/-- What becomes of the QUERY owed under `id` once admission has judged its claim: the batch taken, or REFUSED with the earliest feasible
tick, counted. -/
def State.queryJudged (s : State) (p id : Nat) : Except Nat State → State
  | .ok v => v
  | .error tick => (({ s with taskSeq := s.taskSeq + 1 } : State).addSat Fld.ADM_REFUSE_COUNT_COUNT p 1).finish id stRefused tick

/-- A sound QUERY of one chip, without recall, presents its batch to admission. -/
theorem exec_queryBatch_presents {s u : State} {p : PlotIx} {c : Cmd} {d : BatchDesc} {x : Index} {k : Nat}
    (htake : s.take p.val 0x27 = some (c, u)) (hseq : c.seqNo = 0) (hclean : c.cleanFrom 16 = true)
    (hwindow : u.inDramWindow p.val (c.arg 8 8) 64 = true) (hok : u.batchOk p.val (c.arg 8 8) true = true)
    (hd : u.batchDesc (c.arg 8 8) = d) (hsharded : d.sharded = false) (hrecalls : d.recalls = false)
    (hindex : u.batchIndex p.val d = .ok k) (hx : u.index k = some x) :
    exec (.queryBatch p) s = .next (State.dropUnknown ringFuel
      (u.queryJudged p.val c.id (u.takeBatch p.val (some c.id) k x d d.root (u.querySnaps d)))) := by
  show execQueryBatch p s = _
  rw [execQueryBatch, State.runCommand_taken htake (by simp [hclean, hseq]), State.querySnaps]
  simp only [hwindow, hok, hd, hsharded, hrecalls, hindex, hx, List.map_map, Function.comp_def, Bool.not_true, Bool.or_self,
    Bool.false_and, Bool.false_eq_true, if_false]
  cases hjudged : u.takeBatch p.val (some c.id) k x d d.root ((List.range d.count).map fun i => u.loadLe (d.entry i + 0x30) 8) with
  | error tick => rfl
  | ok v =>
    simp only [Bool.not_false, if_true]
    split <;> rfl

@[simp] theorem BatchDesc.bytes_withQueries (d : BatchDesc) (a : Nat) : ({ d with queries := a } : BatchDesc).bytes = d.bytes := rfl

/-- With the last of its parts in the plot's receive area, a member takes a sharded batch that admission accepts. -/
theorem exec_shardedBatch_takes {s u v : State} {m : InMsg} {g : ColGroup} {pl : Plot} {x : Index} {d : BatchDesc} {k : Nat}
    (hhub : s.hubHeld = false) (hmal : m.malformed = false) (hself : s.isSelf m.dest = true) (hg : s.colGroup m.tag = some g)
    (hpl : s.plot g.plot = some pl) (hsender : (g.sender m.src none).isSome = true) (hfits : m.addr + m.data.length ≤ 0x100000)
    (hu : u = s.putBytes (pl.recv + m.addr) m.data) (hd : d = { u.batchDesc pl.recv with queries := pl.recv + 64 })
    (hlast : (u.batchDesc pl.recv).bytes ≤ m.addr + m.data.length) (hindex : u.batchIndex g.plot d = .ok k) (hx : u.index k = some x)
    (hadmit : u.takeBatch g.plot none k x d g.self (u.querySnaps d) = .ok v) : exec (.shardedBatch m) s = .next v := by
  subst hu hd
  rw [State.querySnaps] at hadmit
  refine congrArg Host.Outcome.next ((State.arriving_here hhub hmal hself _ _).trans ?_)
  simp only [hg, hpl, Option.isNone_eq_false_iff.mpr hsender, decide_eq_false (Nat.not_lt.mpr hfits),
    BatchDesc.bytes_withQueries, if_neg (Nat.not_lt.mpr hlast), hindex, hx, hadmit, Bool.or_self, Bool.false_eq_true, if_false]

/-! ### Chunks (R203, R209 to R211) -/

/-- A pass over numbered entries that changes none of them. -/
theorem zipIdx_map_fixed {α : Type} {l : List α} {f : α × Nat → α} (h : ∀ a ∈ l, ∀ i, f (a, i) = a) : l.zipIdx.map f = l := by
  have hfst : l.zipIdx.map f = l.zipIdx.map Prod.fst :=
    List.map_congr_left fun e he => h e.1 (List.fst_mem_of_mem_zipIdx he) e.2
  rw [hfst, List.zipIdx_map_fst]

/-- Queries that are as they were have not newly ended. -/
theorem newlyOut_self (qs : List RQuery) : newlyOut qs qs = false := by
  refine List.any_eq_false.mpr fun e he => ?_
  obtain ⟨i, -, rfl⟩ := List.mem_iff_getElem.mp he
  simp

theorem State.poisonIn_none {s : State} (h : s.poison = []) (a n : Nat) : s.poisonIn a n = none := by
  simp [State.poisonIn, h]

/-- A clean chunk beyond a list's first, its queries begun and no line poisoned, scans it for the queries of its pass. -/
theorem exec_chunk_scans {s u : State} {r : RegionIx} {x : Index} {b : RBatch} {k list pos : Nat} {members : List Nat}
    {dirs : List ListDir} (hworks : s.fld Fld.RCL_STATUS_STATE r.val < reTesting) (hbatch : s.nextBatch r.val = some (k, b))
    (hx : s.index b.index = some x) (hpass : s.nextPass r.val b x = some (list, pos, members)) (hpos : 0 < pos)
    (hbegun : ∀ q ∈ b.queries, q.begun = true)
    (hdirs : dirs = ((b.queries.zipIdx.filter fun e => members.contains e.2 && e.1.status == qsOk).filterMap fun e =>
      (e.1.versions.find? fun v => v.1 == list).bind fun v => x.versionAt list v.2))
    (hu : u = (((s.setFld Fld.RCL_STATUS_PLOT r.val b.plot).setIndex b.index x).setRBatch k b).meterChunk b r.val dirs pos
      (((x.lists[list]?).map fun l => l.side.length).getD 0)) (hclear : u.poison = []) :
    exec (.chunk r .clean) s = .next (u.setRBatch k
      { b with queries := b.queries.zipIdx.map fun e => if members.contains e.2 && e.1.status == qsOk then
          u.scanFor x (if b.sharded then b.self else 0) list pos e.1 else e.1 }).rclStatus := by
  have hstate : ¬(s.fld Fld.RCL_STATUS_STATE r.val = reTesting ∨ s.fld Fld.RCL_STATUS_STATE r.val = reOut) := by
    unfold reTesting reOut at *
    omega
  have hstarted : (b.queries.zipIdx.map fun e => if members.contains e.2 && !e.1.begun then
      (s.setFld Fld.RCL_STATUS_PLOT r.val b.plot).beginQuery x e.1 else e.1) = b.queries :=
    zipIdx_map_fixed fun q hq i => by simp [hbegun q hq]
  have hspans (l : List (Nat × Nat)) : (l.findSome? fun a => u.poisonIn a.1 a.2) = none :=
    List.findSome?_eq_none_iff.mpr fun a _ => State.poisonIn_none hclear _ _
  show execChunk r .clean s = _
  subst hu hdirs
  simp only [execChunk, if_neg hstate, hbatch, hx, hpass, hstarted, newlyOut_self, if_neg (Nat.ne_of_gt hpos), hspans,
    Bool.false_eq_true, if_false]

/-! ### Results (R211 to R213) -/

section
variable {s : State} {b : RBatch} {q : RQuery} {n k : Nat} (hb : s.rbatch n = some b) (hgoes : b.aborted = none)
  (hq : b.queries[k]? = some q) (hended : q.ended = false) (hbegun : q.begun = true) (htodo : q.todo = [])
include hb hgoes hq hended hbegun htodo

/-- A scanned query of one chip writes its block and ends. -/
theorem exec_resultWrite_writes (hsharded : b.sharded = false) :
    exec (.resultWrite n k) s = .next ((s.writeBlock b q).putQuery n b k { q with ended := true }).rclStatus := by
  show execResultWrite n k s = _
  simp [execResultWrite, hb, hgoes, hq, hended, hbegun, htodo, hsharded]

/-- The next scanned query of a sharded batch starts the merge of its shards. -/
theorem exec_resultWrite_fires {g : ColGroup} (hsharded : b.sharded = true) (hnext : k = b.fired) (hg : s.colGroup b.group = some g)
    (hsound : g.err = none) : exec (.resultWrite n k) s = .next (s.fireShard n k b q g) := by
  subst hnext
  show execResultWrite n b.fired s = _
  simp [execResultWrite, hb, hgoes, hq, hended, hbegun, htodo, hsharded, hg, hsound]

end

/-! ### Snapshots that have come (R203) -/

/-- What a query begins with depends on the chip by the sundial alone. -/
theorem State.beginQuery_congr {s u : State} (h : u.sundial = s.sundial) (x : Index) (q : RQuery) :
    u.beginQuery x q = s.beginQuery x q := by
  simp only [State.beginQuery, h]

/-- The one query of a batch begins at its snapshot's tick, its versions retained. -/
theorem exec_snapshotWait_begins {s : State} {x : Index} {b : RBatch} {q : RQuery} {n : Nat} (hb : s.rbatch n = some b)
    (hx : s.index b.index = some x) (hone : b.queries = [q]) (hsnap : q.snap ≠ 0) (hwaits : q.begun = false)
    (hready : q.ready s.sundial = true) (hretained : (s.beginQuery x q).status = qsOk) :
    exec (.snapshotWait n) s = .next ({ (s.markUnsync b.plot).setRBatch n { b with queries := [(s.markUnsync b.plot).beginQuery x q] } with
      events := (s.markUnsync b.plot).events.filter fun e => e.kind != EventKind.snapshot n || decide (s.sundial < e.tick) } :
        State).rclStatus := by
  have hmarked : ((s.markUnsync b.plot).beginQuery x q).status = qsOk := by
    rw [State.beginQuery_congr (s.sundial_markUnsync b.plot), hretained]
  have hsound : newlyOut [q] [(s.markUnsync b.plot).beginQuery x q] = false := by
    simp [newlyOut, hmarked, qsOk, qsSnapRange]
  show Host.Outcome.next (s.startWaiting n) = _
  simp [State.startWaiting, hb, hx, hone, hsnap, hwaits, hready, hsound]

/-! ### The known-answer test (R221, R223) -/

/-- An entry of the log is work on HUB_LOG_LOST at most (R420). -/
theorem UnitWork.logEvent {l : List (Reg × Nat)} {s u : State} (h : UnitWork l s u) (hl : (.HUB_LOG_LOST, 0) ∈ l)
    (plot source cls k detail : Nat) : UnitWork l s (u.logEvent plot source cls k detail) := by
  unfold State.logEvent State.logAt
  split
  · exact ⟨h.wfRegs, h.wfBlocks, h.regs, h.mem⟩
  · have hlost := h.setFld (f := Fld.HUB_LOG_LOST_COUNT) (i := 0) (by decide) hl
      (min (u.fld Fld.HUB_LOG_LOST_COUNT 0 + 1) (2 ^ Fld.HUB_LOG_LOST_COUNT.width - 1))
    exact ⟨hlost.wfRegs, hlost.wfBlocks, hlost.regs, hlost.mem⟩

/-- A fault recorded in a register leaves its VALID set. -/
theorem State.recordInfo_valid (s : State) (r : Reg) (i info : Nat) (h : Sparse.wf regReset s.regs = true) :
    bitsAt ((s.recordInfo r i info).reg r i).toNat 31 1 = 1 := by
  unfold State.recordInfo
  dsimp only
  split
  next hvalid =>
    rw [State.reg_setReg_same _ _ _ _ h, bitsAt_ofNat _ _ _ (by decide), bitsAt_setBits_other _ _ _ _ _ _ (by decide)]
    rw [Nat.testBit_eq_decide_div_mod_eq] at hvalid
    simpa [bitsAt] using hvalid
  next =>
    rw [State.reg_setReg_same _ _ _ _ h, bitsAt_ofNat _ _ _ (by decide)]
    unfold bitsAt
    cases (s.reg r i).toNat.testBit 30 <;> simp <;> omega

/-- The registers that a test of engine `r` writes. -/
def katRegs (r : Nat) : List (Reg × Nat) := [(.RCL_STATUS, r), (.RCL_FAULT_INFO, r), (.HUB_LOG_LOST, 0)]

section
variable {s : State} {r : RegionIx} (htesting : s.fld Fld.RCL_STATUS_STATE r.val = reTesting)
include htesting

theorem exec_knownAnswerTest_passes :
    exec (.knownAnswerTest r true) s = .next (s.setFld Fld.RCL_STATUS_STATE r.val reIdle).rclStatus := by
  show execKnownAnswerTest r true s = _
  simp [execKnownAnswerTest, htesting]

/-- An engine that fails its test records it, is logged and is out of service. -/
theorem exec_knownAnswerTest_fails (hs : s.canonical = true) : Completes (.knownAnswerTest r false) s fun t =>
    t.fld Fld.RCL_STATUS_STATE r.val = reOut ∧ t.bit Fld.RCL_FAULT_INFO_VALID r.val = true ∧ RegsKept s t (katRegs r.val) ∧
      MemSame s t := by
  have hregs := State.canonical_regs hs
  have hinfo := (UnitWork.refl (katRegs r.val) hs).recordInfo (r := .RCL_FAULT_INFO) r.isLt (by simp [katRegs])
    (4 * 2 ^ 24 + s.fld Fld.RCL_STATUS_PLOT r.val * 2 ^ 21)
  have hvalid := s.recordInfo_valid .RCL_FAULT_INFO r.val (4 * 2 ^ 24 + s.fld Fld.RCL_STATUS_PLOT r.val * 2 ^ 21) hregs
  have hout := hinfo.setFld (f := Fld.RCL_STATUS_STATE) r.isLt (by simp [katRegs, Fld.RCL_STATUS_STATE]) reOut
  have hlogged := (hout.restart [(.HUB_LOG_LOST, 0)]).logEvent (List.mem_singleton_self _) chipPlot 7 3 53 r.val
  have hwork := hout.logEvent (by simp [katRegs]) chipPlot 7 3 53 r.val
  refine ⟨_, ?runs, ?state, ?valid, hwork.regs, hwork.mem⟩
  case runs =>
    show execKnownAnswerTest r false s = _
    simp [execKnownAnswerTest, htesting]
  case state =>
    rw [hlogged.fld r.isLt (by simp [Fld.RCL_STATUS_STATE])]
    exact State.fld_setFld_same _ _ _ _ hinfo.wfRegs (by decide)
  case valid =>
    have hbeside := (hinfo.restart [(.RCL_STATUS, r.val)]).setFld (f := Fld.RCL_STATUS_STATE) r.isLt List.mem_cons_self reOut
    rw [hlogged.bit r.isLt (by simp [Fld.RCL_FAULT_INFO_VALID]), hbeside.bit r.isLt (by simp [Fld.RCL_FAULT_INFO_VALID]), State.bit,
      State.fld]
    exact congrArg (· != 0) hvalid

end

/-- Settles O39, one clause per case of each command. -/
theorem queriesAreTakenScannedAndAnswered : Obligations.QueriesAreTakenScannedAndAnswered := by
  intro s u v x b n k
  refine ⟨fun p c htake hseq hclean hwindow hok hsharded hrecalls hindex hx => ⟨fun hadmit => ?takes, fun tick hrefuse => ?refused⟩,
    fun m g pl hhub hmal hself hg hpl hsender hfits hu hlast hindex hx hadmit => ?sharded,
    fun r list pos members dirs hworks hbatch hx hpass hpos hbegun _ hdirs hu hclear => ?scans,
    fun q hb hgoes hq hended hbegun htodo => ?writes,
    fun q g hb hgoes hq hended hbegun htodo => ?fires,
    fun q => ?begins,
    fun r hs htesting => ⟨?passes, ?fails⟩⟩
  case takes =>
    rw [exec_queryBatch_presents htake hseq hclean hwindow hok rfl hsharded hrecalls hindex hx, State.querySnaps, hadmit, State.queryJudged]
  case refused =>
    rw [exec_queryBatch_presents htake hseq hclean hwindow hok rfl hsharded hrecalls hindex hx, State.querySnaps, hrefuse,
      State.queryJudged]
    rfl
  case sharded => exact exec_shardedBatch_takes hhub hmal hself hg hpl hsender hfits hu rfl hlast hindex hx hadmit
  case scans => exact exec_chunk_scans hworks hbatch hx hpass hpos (fun q hq => (hbegun q hq).1) hdirs hu hclear
  case writes => exact exec_resultWrite_writes hb hgoes hq hended hbegun htodo
  case fires => exact exec_resultWrite_fires hb hgoes hq hended hbegun htodo
  case begins => exact exec_snapshotWait_begins
  case passes => exact exec_knownAnswerTest_passes htesting
  case fails => exact exec_knownAnswerTest_fails htesting hs

end Sys2Proof.Machine
end

section
/-!
WAIT and POST (R234, R235, R241). Each sets the pair that its word names and passes to the next word, but for a WAIT whose count is not
there. Settles O9.
-/

namespace Sys2Proof.Machine
open Sys2Proof

section
variable {s : State} {c : CellIx} {w : W128} {p : SemPair}

/-- Cell `c` with its pair of number `k` at `q`. -/
def State.setPair (s : State) (c k : Nat) (q : SemPair) : State :=
  s.setCell c { s.cell c with pairs := Table.put (s.cell c).pairs k q }

/-- An instruction that passes moves its cell to the next word. -/
theorem State.cell_advance (c : Nat) (h : Sparse.wf (fun _ => Cell.empty) s.cells = true) :
    (s.advance c).cell c = { s.cell c with next := (s.cell c).next + 1 } :=
  State.cell_setCell_same s c _ h

section
variable (hs : s.canonical = true) (c k : Nat) (q : SemPair)
include hs

theorem State.wf_cells_setPair : Sparse.wf (fun _ => Cell.empty) (s.setPair c k q).cells = true :=
  s.wf_cells_setCell c _ (State.canonical_cells hs)

theorem State.cell_setPair : (s.setPair c k q).cell c = { s.cell c with pairs := Table.put (s.cell c).pairs k q } :=
  State.cell_setCell_same _ _ _ (State.canonical_cells hs)

theorem State.pair_setPair : Table.get ((s.setPair c k q).cell c).pairs k = some q := by
  rw [State.cell_setPair hs]; exact Table.get_put_same _ _ _

theorem State.next_setPair : ((s.setPair c k q).cell c).next = (s.cell c).next := by
  rw [State.cell_setPair hs]

/-- What an instruction leaves that sets a pair and passes (R79, R234): the pair, the next word, the cell RUNNING. -/
theorem State.advance_setPair_effect :
    Table.get (((s.setPair c k q).advance c).cell c).pairs k = some q ∧
      (((s.setPair c k q).advance c).cell c).next = (s.cell c).next + 1 ∧
      ((s.setPair c k q).advance c).fld Fld.CEL_STATE_STATE c = 1 ∧ MemSame s ((s.setPair c k q).advance c) := by
  rw [State.cell_advance c (State.wf_cells_setPair hs c k q)]
  exact ⟨State.pair_setPair hs c k q, congrArg (· + 1) (State.next_setPair hs c k q),
    State.fld_setFld_same _ Fld.CEL_STATE_STATE c csRunning (State.canonical_regs hs :) (by decide), rfl, rfl, rfl⟩

end

section
variable (hissue : s.canIssue c.val w = true) (hpair : (s.cell c.val).armedPair (semWord w).pair = some p) (hgood : (semWord w).bad w = false)
include hissue hpair hgood

/-- WAIT on a count that is there takes it (R234). -/
theorem exec_waitSem_takes (hop : opcodeOf w = 0x40) (hcount : (semWord w).count ≤ p.count (semWord w).empty) :
    exec (.waitSem c w) s = .next ((s.setPair c.val (semWord w).pair
      (p.take (semWord w).empty (semWord w).count (s.waitSide p (semWord w).empty) s.sundial)).advance c.val) := by
  show execWaitSem c w s = _
  simp [execWaitSem, State.setPair, hissue, hop, hpair, hgood, hcount]

/-- WAIT on a count that is not there blocks (R234, R241). -/
theorem exec_waitSem_blocks (hop : opcodeOf w = 0x40) (hcount : p.count (semWord w).empty < (semWord w).count) :
    exec (.waitSem c w) s = .next ((s.setPair c.val (semWord w).pair { p with
      blocked := if s.waitSide p (semWord w).empty then some (p.blocked.getD s.sundial) else p.blocked }).setFld
        Fld.CEL_STATE_STATE c.val csWaiting) := by
  show execWaitSem c w s = _
  simp [execWaitSem, State.setPair, hissue, hop, hpair, hgood, Nat.not_le.mpr hcount]

/-- POST within DEPTH gives its count (R234, R235). -/
theorem exec_postSem_gives (hop : opcodeOf w = 0x41) (hleft : s.accessesLeft c.val = false)
    (hdepth : p.count (semWord w).empty + (semWord w).count ≤ p.depth) :
    exec (.postSem c w) s = .next ((s.setPair c.val (semWord w).pair (if (semWord w).empty
      then { p with empty := p.empty + (semWord w).count } else { p with full := p.full + (semWord w).count })).advance c.val) := by
  show execPostSem c w s = _
  simp [execPostSem, State.setPair, hissue, hop, hleft, hpair, hgood, Nat.not_lt.mpr hdepth]

end
end

/-- Settles O9: each instruction sets its pair; a WAIT that blocks stays at its word, any other passes it. -/
theorem semaphoreInstructionsMoveCounts : Obligations.SemaphoreInstructionsMoveCounts := by
  intro s c w p hs hissue hpair hgood
  refine ⟨fun hop hcount => ?takes, fun hop hcount => ?blocks, fun hop hleft hdepth => ?gives⟩
  case takes => exact ⟨_, exec_waitSem_takes hissue hpair hgood hop hcount, State.advance_setPair_effect hs _ _ _⟩
  case blocks =>
    exact ⟨_, exec_waitSem_blocks hissue hpair hgood hop hcount, State.pair_setPair hs _ _ _, State.next_setPair hs _ _ _,
      State.fld_setFld_same _ Fld.CEL_STATE_STATE c.val csWaiting (State.canonical_regs hs :) (by decide), rfl, rfl, rfl⟩
  case gives => exact ⟨_, exec_postSem_gives hissue hpair hgood hop hleft hdepth, State.advance_setPair_effect hs _ _ _⟩

end Sys2Proof.Machine
end

section
/-!
The control and address instructions of a stream (R228 to R232): what each makes of the stream's context at the word it stands at.
Settles O14.
-/

namespace Sys2Proof.Machine
open Sys2Proof

section
variable {s : State} {i : StreamIx} {t : Stream} {w : Nat}

/-! ### LOOP and NEXT -/

section
variable (hat : s.atWord i.val aopLoop = some (t, w))
include hat

/-- The count of a LOOP: its own field, or the low half of the base that it names (R228). -/
theorem exec_progLoop_opens {n : Nat} (hcount : (if w.testBit 32 then t.base.getD (bitsAt w 0 3) 0 % 2 ^ 32 else bitsAt w 0 32) = n + 1) :
    exec (.progLoop i) s = .next (s.nextWord i.val { t with loops := (t.pc, n + 1) :: t.loops }) := by
  show execProgLoop i s = _
  simp only [execProgLoop, hat, hcount]
  rw [if_neg (Nat.succ_ne_zero n)]

theorem exec_progLoop_skips (hcount : (if w.testBit 32 then t.base.getD (bitsAt w 0 3) 0 % 2 ^ 32 else bitsAt w 0 32) = 0) :
    exec (.progLoop i) s = .next (s.nextWord i.val { t with pc := matchingNext (t.prog.drop (t.pc + 1)) (t.pc + 1) 0 }) := by
  show execProgLoop i s = _
  simp only [execProgLoop, hat, hcount, if_true]

end

section
variable (hat : s.atWord i.val aopNext = some (t, w)) {start left : Nat} {rest : List (Nat × Nat)}
  (hloops : t.loops = (start, left) :: rest)
include hat hloops

theorem exec_nextLoop_repeats (hleft : 2 ≤ left) :
    exec (.nextLoop i) s = .next (s.nextWord i.val { t with loops := (start, left - 1) :: rest, pc := start }) := by
  show execNextLoop i s = _
  simp only [execNextLoop, hat, hloops]
  rw [if_neg (by omega)]

theorem exec_nextLoop_closes (hleft : left ≤ 1) : exec (.nextLoop i) s = .next (s.nextWord i.val { t with loops := rest }) := by
  show execNextLoop i s = _
  simp only [execNextLoop, hat, hloops, if_pos hleft]

end

/-! ### SETA, ADDA and IDX -/

section
variable (hat : s.atWord i.val aopSeta = some (t, w))
include hat

theorem exec_seta_register (hreg : w.testBit 47 = true) :
    exec (.seta i) s = .next (s.nextWord i.val
      ((t.setAddr (bitsAt w 48 3) (addrAdd (t.reg (bitsAt w 44 3)) (signedOf 40 (bitsAt w 0 40)))).setBind (bitsAt w 48 3)
        (Table.get t.bind (bitsAt w 44 3)))) := by
  show execSeta i s = _
  simp only [execSeta, hat, hreg, if_true]

theorem exec_seta_base (hbase : w.testBit 47 = false) :
    exec (.seta i) s = .next (s.nextWord i.val
      ((t.setAddr (bitsAt w 48 3) (t.base.getD (bitsAt w 44 3) 0 / 2 ^ 48 * 2 ^ 48 +
        (((t.base.getD (bitsAt w 44 3) 0 % 2 ^ 48 : Nat) + signedOf 40 (bitsAt w 0 40)) % 2 ^ 48).toNat)).setBind (bitsAt w 48 3) none)) := by
  show execSeta i s = _
  simp only [execSeta, hat, hbase]
  rfl

end

theorem exec_adda_adds (hat : s.atWord i.val aopAdda = some (t, w)) :
    exec (.adda i) s = .next (s.nextWord i.val
      (t.setAddr (bitsAt w 48 3) (addrAdd (t.reg (bitsAt w 48 3)) (signedOf 48 (bitsAt w 0 48))))) := by
  show execAdda i s = _
  simp only [execAdda, hat]

theorem exec_idx_pops (hat : s.atWord i.val aopIdx = some (t, w)) {x : Nat} {rest : List Nat} (hxq : t.xq = x :: rest) :
    exec (.idx i) s = .next (s.nextWord i.val (({ t with xq := rest }.setAddr (bitsAt w 48 3)
      (if x = 0xFFFFFFFF then nullAddr else t.base.getD (bitsAt w 44 3) 0 / 2 ^ 48 * 2 ^ 48 +
        (t.base.getD (bitsAt w 44 3) 0 % 2 ^ 48 + x * 2 ^ bitsAt w 32 5) % 2 ^ 48)).setBind (bitsAt w 48 3) none)) := by
  show execIdx i s = _
  simp only [execIdx, hat, hxq]

/-! ### PAGE -/

/-- A read beside the moves that meets neither poison nor an error changes nothing (R259). -/
theorem State.checkRead_clean {a n : Nat} (h : s.firstPoison a n = none) : s.checkRead t a n .clean = (s, none) := by
  simp [State.checkRead, h, Ecc.bad]

theorem exec_page_binds (hat : (s.feedQueue i.val).atWord i.val aopPage = some (t, w)) {d : Nat} {u : Stream}
    (hdesc : (s.feedQueue i.val).nextDesc t = some (d, u)) (hgood : pdBad t.plot d = false)
    (hclean : (s.feedQueue i.val).firstPoison (t.dtable + 64 * t.dpos) t.pageRead = none) :
    exec (.page i .clean) s = .next ((s.feedQueue i.val).nextWord i.val (({ u with page := some d, trailT := 0 }.setAddr
      (bitsAt w 48 3) (pdFabric d)).setBind (bitsAt w 48 3) (some ((s.feedQueue i.val).bindOf d)))) := by
  show execPage i .clean s = _
  simp only [execPage, hat, State.checkRead_clean hclean, hdesc, hgood]
  rfl

end

/-- Settles O14, one lemma per instruction and branch. -/
theorem addressInstructionsMoveLoopsAndRegisters : Obligations.AddressInstructionsMoveLoopsAndRegisters := by
  intro s i t w
  exact ⟨fun hat => ⟨fun _ hcount => exec_progLoop_opens hat hcount, fun hcount => exec_progLoop_skips hat hcount⟩,
    fun hat _ _ _ hloops => ⟨fun hleft => exec_nextLoop_repeats hat hloops hleft, fun hleft => exec_nextLoop_closes hat hloops hleft⟩,
    fun hat => ⟨fun hreg => exec_seta_register hat hreg, fun hbase => exec_seta_base hat hbase⟩,
    fun hat => exec_adda_adds hat,
    fun hat _ _ hxq => exec_idx_pops hat hxq,
    fun hat _ _ hdesc hgood hclean => exec_page_binds hat hdesc hgood hclean⟩

end Sys2Proof.Machine
end

section
/-!
MOVE and ZERO within an open tile (R228 to R230, R242): the grant, the bytes and where they go, and the word after them. Settles O16.
-/

namespace Sys2Proof.Machine
open Sys2Proof

/-! ### The word at hand -/

theorem State.atWord_some {s : State} {i op : Nat} {t : Stream} {w : Nat} (h : s.atWord i op = some (t, w)) :
    s.stream i = some t ∧ t.running = true ∧ t.prog[t.pc]? = some w ∧ aopOf w = op := by
  unfold State.atWord at h
  cases hstream : s.stream i with
  | none => simp [hstream] at h
  | some t' =>
    cases hword : t'.prog[t'.pc]? with
    | none => simp [hstream, hword] at h
    | some w' =>
      simp only [hstream, hword, Option.ite_none_left_eq_some, Option.ite_none_right_eq_some, Option.some.injEq, Prod.mk.injEq] at h
      obtain ⟨hrun, hop, rfl, rfl⟩ := h
      simp only [Bool.or_eq_true, Bool.not_eq_true', not_or, Bool.not_eq_false, Bool.not_eq_true] at hrun
      exact ⟨rfl, hrun.1, hword, hop⟩

theorem Stream.moveWord_of_word {t : Stream} {w : Nat} (hword : t.prog[t.pc]? = some w) (hop : aopOf w = aopMove ∨ aopOf w = aopZero) :
    t.moveWord = some (moveWordOf w) := by
  simp [Stream.moveWord, hword, hop]

/-- POSTINC (R228): each register named goes on by the length. -/
def postInc (len : Nat) (areg regs : List Nat) : List Nat := regs.foldl (fun a r => a.set r (addrAdd (a.getD r 0) len)) areg

/-- The registers that a MOVE or ZERO moves on by its length (R228). -/
def Stream.incRegs (t : Stream) (m : MoveWord) : List Nat := if m.inc then (t.moveRegs m).eraseDups else []

/-- The context after POSTINC of the registers named. -/
def Stream.bumped (t : Stream) (len : Nat) (regs : List Nat) : Stream := { t with areg := postInc len t.areg regs }

theorem Stream.foldl_setAddr (t : Stream) (len : Nat) (regs : List Nat) :
    regs.foldl (fun t r => t.setAddr r (addrAdd (t.reg r) len)) t = t.bumped len regs := by
  induction regs generalizing t with
  | nil => rfl
  | cons r rs ih => rw [List.foldl_cons, ih]; rfl

/-! ### Stores to memories that read alike -/

section
variable {s u : State} (hmem : MemSame s u)
include hmem

theorem MemSame.writeBytes (a : Nat) (bs : List Byte) : MemSame (s.writeBytes a bs) (u.writeBytes a bs) :=
  ⟨congrArg (memWrite · a bs) hmem.1, hmem.2⟩

theorem MemSame.writeHost (a : Nat) (bs : List Byte) : MemSame (s.writeHost a bs) (u.writeHost a bs) :=
  ⟨hmem.1, congrArg (memWrite · a bs) hmem.2.1, hmem.2.2⟩

theorem MemSame.setPoison (a : Nat) (b : Bool) : MemSame (s.setPoison a b) (u.setPoison a b) :=
  ⟨hmem.1, hmem.2.1, congrArg (Sparse.set (fun _ => false) · (a / 64) b) hmem.2.2⟩

theorem MemSame.poisoned (a : Nat) : u.poisoned a = s.poisoned a := congrArg (Sparse.get (fun _ => false) · (a / 64)) hmem.2.2

theorem MemSame.byteAt (a : Nat) : u.byteAt a = s.byteAt a := congrArg (Sparse.get (fun _ => 0) · a) hmem.1

theorem MemSame.hostByte (a : Nat) : u.hostByte a = s.hostByte a := congrArg (Sparse.get (fun _ => 0) · a) hmem.2.1

theorem MemSame.firstPoison (a n : Nat) : u.firstPoison a n = s.firstPoison a n := by
  unfold State.firstPoison; rw [hmem.2.2]

end

theorem MemSame.storeLines (n : Nat) {s u : State} (hmem : MemSame s u) (a : Nat) (bs : List Byte) (bad : Option Nat) :
    MemSame (State.storeLines n s a bs bad).1 (State.storeLines n u a bs bad).1 ∧
      (State.storeLines n u a bs bad).2 = (State.storeLines n s a bs bad).2 := by
  induction n generalizing s u a bs bad with
  | zero => exact ⟨hmem, rfl⟩
  | succ n ih =>
    simp only [State.storeLines, hmem.poisoned]
    split
    · exact ⟨hmem, rfl⟩
    · split
      · exact ih hmem _ _ _
      · split
        · exact ih ((hmem.setPoison _ _).writeBytes _ _) _ _ _
        · exact ih (hmem.writeBytes _ _) _ _ _

/-- Two states whose memories read alike, the bus addresses behind the cold-frame window included (R252, R256). -/
structure StoreAlike (s u : State) : Prop where
  mem : MemSame s u
  host : ∀ j o, j < 2048 → u.coldHost j o = s.coldHost j o

theorem placeOf_cold_lt {a j o : Nat} (h : placeOf a = .cold j o) : j < 2048 := by
  unfold placeOf at h
  repeat' split at h
  all_goals simp only [reduceCtorEq, Place.cold.injEq] at h
  omega


section
variable {s u : State} (h : StoreAlike s u)
include h

theorem StoreAlike.loadByte (a : Nat) : u.loadByte a = s.loadByte a := by
  unfold State.loadByte
  split
  next hplace => rw [h.host _ _ (placeOf_cold_lt hplace), h.mem.hostByte]
  next => exact h.mem.byteAt a

theorem StoreAlike.loadBytes (a n : Nat) : u.loadBytes a n = s.loadBytes a n :=
  List.map_congr_left fun i _ => h.loadByte (a + i)

end

theorem StoreAlike.storeCold (n : Nat) {s u : State} (h : StoreAlike s u) (a : Nat) (bs : List Byte) :
    MemSame (State.storeCold n s a bs) (State.storeCold n u a bs) := by
  induction n generalizing s u a bs with
  | zero => exact h.mem
  | succ n ih =>
    unfold State.storeCold
    split
    next j o hplace =>
      have hwrite (bs : List Byte) : StoreAlike (s.writeHost (s.coldHost j o) bs) (u.writeHost (u.coldHost j o) bs) := by
        rw [h.host j o (placeOf_cold_lt hplace)]
        exact ⟨h.mem.writeHost _ _, h.host⟩
      simp only
      split
      · exact (hwrite _).mem
      · exact ih (hwrite _) _ _
    next => exact h.mem

theorem StoreAlike.storeBytes {s u : State} (h : StoreAlike s u) (a : Nat) (bs : List Byte) :
    MemSame (s.storeBytes a bs).1 (u.storeBytes a bs).1 ∧ (u.storeBytes a bs).2 = (s.storeBytes a bs).2 := by
  unfold State.storeBytes
  split
  · exact ⟨h.storeCold _ _ _, rfl⟩
  · exact h.mem.storeLines _ _ _ _
  · exact h.mem.storeLines _ _ _ _
  · exact ⟨h.mem.writeBytes _ _, rfl⟩

/-! ### What a grant leaves as it was (R242) -/

/-- `u` serves stream `i` at `t` as `s` does: the context, the memories, the frame records and every register but STM_STREAM_STATE of the
stream are the same. -/
structure Serves (s : State) (i : Nat) (t : Stream) (u : State) : Prop where
  stream : u.stream i = some t
  mem : MemSame s u
  frames : u.frames = s.frames
  regs : RegsKept s u [(.STM_STREAM_STATE, i)]

theorem Serves.refl {s : State} {i : Nat} {t : Stream} (h : s.stream i = some t) : Serves s i t s :=
  ⟨h, ⟨rfl, rfl, rfl⟩, rfl, fun _ _ _ _ => rfl⟩

section
variable {s u : State} {i : Nat} {t : Stream} (h : Serves s i t u)
include h

theorem Serves.setBlock (b : Nat) (x : Block) : Serves s i t (u.setBlock b x) := ⟨h.stream, h.mem, h.frames, h.regs⟩

theorem Serves.setTask (n : Nat) (x : Task) : Serves s i t (u.setTask n x) := ⟨h.stream, h.mem, h.frames, h.regs⟩

theorem Serves.takeHub (k : Nat) : Serves s i t (u.takeHub k) := ⟨h.stream, h.mem, h.frames, h.regs⟩

theorem Serves.setFld {f : Fld} (hf : f.reg = .STM_STREAM_STATE) (hi : i < 512) (v : Nat) : Serves s i t (u.setFld f i v) where
  stream := h.stream
  mem := h.mem
  frames := h.frames
  regs q j hj hq := by
    have hne : ¬(q = f.reg ∧ j = i) := by simpa [hf] using hq
    exact (u.reg_setFld_other f v (by rw [hf]; exact hi) hj hne).trans (h.regs q j hj hq)

theorem Serves.setStream (x : Stream) : Serves s i x (u.setStream i x) :=
  ⟨Table.get_put_same _ _ _, h.mem, h.frames, h.regs⟩

theorem Serves.putStream (hi : i < 512) (x : Stream) (st : Nat) : Serves s i x (u.putStream i x st) :=
  ((h.setStream x).setFld (f := Fld.STM_STREAM_STATE_INSTR) rfl hi _).setFld (f := Fld.STM_STREAM_STATE_STATE) rfl hi _

theorem Serves.nextWord (hi : i < 512) (x : Stream) : Serves s i { x with pc := x.pc + 1, moved := 0 } (u.nextWord i x) :=
  h.putStream hi _ _

theorem Serves.meter (tid k n : Nat) : Serves s i t (u.meter tid k n).2 := by
  unfold State.meter
  split
  · exact h
  · exact h.setTask _ _

theorem Serves.meterAt (x : Stream) (r : Reach) (n : Nat) : Serves s i t (u.meterAt x r n).2 := by
  unfold State.meterAt
  split
  · exact h.meter _ _ _
  · exact h

theorem Serves.noteGrant (j : Nat) (x : Stream) (m : MoveWord) : Serves s i t (u.noteGrant j x m) := by
  unfold State.noteGrant
  refine List.foldlRecOn _ _ ?hub fun v hv g _ => ?port
  case hub =>
    split
    · exact h.takeHub _
    · exact h
  case port =>
    split
    · exact hv.setBlock _ _
    · exact hv

/-- Within an open tile no count is taken. -/
theorem Serves.openTile (hi : i < 512) (htaken : t.taken = true) : Serves s i t (u.openTile i t) := by
  have hopen : { t with taken := true } = t := by rw [← htaken]
  simp only [State.openTile, htaken, if_true, hopen]
  exact h.putStream hi t _

theorem Serves.storeAlike : StoreAlike s u where
  mem := h.mem
  host j o hj := by
    unfold State.coldHost State.fld
    rw [h.regs Fld.MEM_COLD_SEG_HOST.reg j hj (by simp [Fld.MEM_COLD_SEG_HOST])]

theorem Serves.trayShut (a n : Nat) : u.trayShut a n = s.trayShut a n := by
  unfold State.trayShut
  simp only [h.frames, h.mem.byteAt]

end

/-! ### Where the bytes of a move land (R229, R231, R237) -/

/-- `n` bytes of a source on this chip. -/
def State.bytesFrom (s : State) (t : Stream) (n : Nat) : Reach → List Byte
  | .here a => s.sourceOf t a n
  | _ => List.replicate n 0

/-- A source or destination on this chip, or none: no link holds it back, and it does not fault. -/
def Reach.Nearby (r : Reach) : Prop := r = .null ∨ ∃ a, r = .here a

theorem Reach.nearby_null : Reach.null.Nearby := .inl rfl

theorem Reach.nearby_here (a : Nat) : (Reach.here a).Nearby := .inr ⟨a, rfl⟩

/-- A source that meets no poison; a DRAIN reads no memory (R65, R259). -/
def State.sound (s : State) (t : Stream) (n : Nat) : Reach → Prop
  | .null => True
  | .here a => t.kind = 1 ∨ s.firstPoison a n = none
  | _ => False

/-- The context once bytes have landed: what it holds of the tile, its index words, the ranges it has written (R231, R247). -/
def Stream.holding (t : Stream) (cur : List (Nat × List Byte)) (xq : List Nat) (touched : List (Nat × Nat × Nat)) : Stream :=
  { t with cur := cur, xq := xq, touched := touched }

/-- Bytes `bs` land in full, whatever the grant has metered: the context then holds the tile's bytes `cur` and the index words `xq`, no
register but STM_STREAM_STATE changes, and `P` holds of what is left. -/
def Lands (s : State) (i : Nat) (t : Stream) (rd : Nat) (dst : Reach) (bs : List Byte) (cur : List (Nat × List Byte)) (xq : List Nat)
    (P : State → Prop) : Prop :=
  ∀ u m, Serves s i t u → ∃ v touched, u.landBytes i t rd dst m bs = .ok v ∧
    v.stream i = some (t.holding cur xq touched) ∧ RegsKept s v [(.STM_STREAM_STATE, i)] ∧ P v

section
variable {s : State} {i : Nat} {t : Stream}

theorem lands_gathered (hkind : t.kind = 0 ∨ t.kind = 2) (rd : Nat) (dst : Reach) (bs : List Byte) :
    Lands s i t rd dst bs (t.cur ++ [(t.fill, bs)]) t.xq (MemSame s) := by
  intro u m hu
  refine ⟨u.fillCur i t.fill bs, t.touched, ?_, ?_⟩
  · have hnone : ¬(t.kind = 3 ∨ t.kind = 1) ∧ t.kind ≠ 4 := by omega
    simp [State.landBytes, hnone]
  · simp only [State.fillCur, hu.stream]
    have hset := hu.setStream { t with cur := t.cur ++ [(t.fill, bs)] }
    exact ⟨hset.stream, hset.regs, hset.mem⟩

theorem lands_queued (hkind : t.kind = 4) (rd : Nat) (dst : Reach) (bs : List Byte) :
    Lands s i t rd dst bs t.cur (t.xq ++ wordsOf (bs.length / 4) bs) (MemSame s) := by
  intro u m hu
  have hset := hu.setStream { t with xq := t.xq ++ wordsOf (bs.length / 4) bs }
  exact ⟨_, t.touched, by simp [State.landBytes, hkind, hu.stream], hset.stream, hset.regs, hset.mem⟩

theorem State.touch_stream {u : State} (hu : u.stream i = some t) (k a n : Nat) :
    ∃ touched, (u.touch i k a n).stream i = some { t with touched := touched } := by
  unfold State.touch
  rw [hu]
  simp only
  split
  · exact ⟨t.touched, hu⟩
  · exact ⟨_, Table.get_put_same _ _ _⟩

theorem State.touch_rest (u : State) (j k a n : Nat) :
    MemSame u (u.touch j k a n) ∧ RegsKept u (u.touch j k a n) [(.STM_STREAM_STATE, i)] := by
  unfold State.touch
  split
  · split
    · exact ⟨⟨rfl, rfl, rfl⟩, fun _ _ _ _ => rfl⟩
    · exact ⟨⟨rfl, rfl, rfl⟩, fun _ _ _ _ => rfl⟩
  · exact ⟨⟨rfl, rfl, rfl⟩, fun _ _ _ _ => rfl⟩

theorem StoredOnly.stream {s u : State} (h : StoredOnly s u) (j : Nat) : u.stream j = s.stream j := by
  obtain ⟨mem, hostMem, poison, rfl⟩ := h
  rfl

theorem lands_stored (hkind : t.kind = 3 ∨ t.kind = 1) (rd : Nat) {b : Nat} {bs : List Byte} (hopen : s.trayShut b bs.length = false)
    (hstore : (s.storeBytes b bs).2 = none) :
    Lands s i t rd (.here b) bs t.cur t.xq (MemSame (s.storeBytes b bs).1) := by
  intro u m hu
  obtain ⟨hmem, hnone⟩ := hu.storeAlike.storeBytes b bs
  rw [hstore] at hnone
  have hstored := StoredOnly.storeBytes u b bs
  obtain ⟨touched, hstream⟩ := State.touch_stream ((hstored.stream i).trans hu.stream) t.tile b bs.length
  obtain ⟨htouch, hregs⟩ := State.touch_rest (i := i) (u.storeBytes b bs).1 i t.tile b bs.length
  refine ⟨_, touched, ?lands, hstream, fun r j hj hr => ?regs, hmem.trans htouch⟩
  case lands =>
    have hpair : u.storeBytes b bs = ((u.storeBytes b bs).1, none) := Prod.ext rfl hnone
    simp only [State.landBytes, if_pos hkind, hu.trayShut, hopen]
    rw [hpair]
    rfl
  case regs => rw [hregs r j hj hr, hstored.reg, hu.regs r j hj hr]

/-- The state of a part of a move once its bytes are metered at source and destination (R244). -/
def State.metered (s : State) (t : Stream) (src dst : Reach) (n : Nat) : State := ((s.meterAt t src n).2.meterAt t dst n).2

/-- Bytes of a part of a move that travel as deadline traffic (R244). -/
def State.onTime (s : State) (t : Stream) (src dst : Reach) (n : Nat) : Nat :=
  if (s.metered t src dst n).isBackground t false then 0 else min (s.meterAt t src n).1 ((s.meterAt t src n).2.meterAt t dst n).1

theorem State.movePart_null (s : State) (i : Nat) (t : Stream) (rs rd : Nat) (dst : Reach) (n done : Nat) (e : MoveEvent) :
    s.movePart i t rs rd .null dst n done e =
      (s.metered t .null dst n).landBytes i t rd dst (s.onTime t .null dst n) (List.replicate n 0) := rfl

theorem State.movePart_here {s : State} {t : Stream} {a n : Nat} {dst : Reach}
    (h : (if t.kind = 1 then none else (s.metered t (.here a) dst n).firstPoison a n) = none) (i rs rd done : Nat) :
    s.movePart i t rs rd (.here a) dst n done .clean =
      (s.metered t (.here a) dst n).landBytes i t rd dst (s.onTime t (.here a) dst n) ((s.metered t (.here a) dst n).sourceOf t a n) := by
  unfold State.metered at h
  simp only [State.movePart, h]
  rfl

theorem Serves.sourceOf {u : State} (h : Serves s i t u) (x : Stream) (a n : Nat) : u.sourceOf x a n = s.sourceOf x a n := by
  unfold State.sourceOf
  rw [h.storeAlike.loadBytes]

/-- A part of a move whose source is sound lands (R228, R259). -/
theorem State.movePart_lands {u : State} (hu : Serves s i t u) {src dst : Reach} {n : Nat} (hsound : s.sound t n src) (rs rd : Nat) :
    ∃ v m, Serves s i t v ∧ u.movePart i t rs rd src dst n 0 .clean = v.landBytes i t rd dst m (s.bytesFrom t n src) := by
  have hmet : Serves s i t (u.metered t src dst n) := (hu.meterAt t src n).meterAt t dst n
  refine ⟨_, u.onTime t src dst n, hmet, ?_⟩
  cases src with
  | null => exact u.movePart_null _ _ _ _ _ _ _ _
  | here a =>
    have hclean : (if t.kind = 1 then none else (u.metered t (.here a) dst n).firstPoison a n) = none := by
      rw [hmet.mem.firstPoison, ite_eq_left_iff]
      exact hsound.resolve_left
    rw [State.movePart_here hclean, hmet.sourceOf]
    rfl
  | peer chip a => exact hsound.elim
  | fault c d => exact hsound.elim

end

/-! ### One grant completes the move (R242) -/

theorem State.heldBack_nearby (s : State) (t : Stream) {r : Reach} (h : r.Nearby) : s.heldBack t r = false := by
  rcases h with rfl | ⟨a, rfl⟩ <;> rfl

theorem State.moveLoop_done {s : State} {i : Nat} {x : Stream} {m : MoveWord} (hx : s.stream i = some x) (hm : x.moveWord = some m)
    (hlen : m.len ≤ x.moved) (f : Nat) (e : MoveEvent) : State.moveLoop f s i e = s := by
  cases f with
  | zero => rfl
  | succ f => simp [State.moveLoop, hx, hm, hlen]

/-- The context once `n` bytes of its move are in the open tile. -/
def Stream.filled (x : Stream) (n : Nat) : Stream := { x with moved := x.moved + n, fill := x.fill + n }

theorem State.stream_setStream_same (s : State) (i : Nat) (x : Stream) : (s.setStream i x).stream i = some x := Table.get_put_same _ _ _

theorem State.advanceMove_open {s : State} {i n : Nat} {x : Stream} (hx : s.stream i = some x) (hroom : x.fill + n < x.tileBytes) :
    s.advanceMove i n = s.setStream i (x.filled n) := by
  unfold State.advanceMove
  rw [hx]
  exact if_neg (Nat.ne_of_lt hroom)

theorem State.moveDone_moved {s : State} {i len : Nat} {x : Stream} (hx : s.stream i = some x) (hlen : len ≤ x.moved)
    (hrun : x.running = true) (regs : List Nat) :
    s.moveDone i len regs = s.nextWord i (x.bumped len regs) := by
  simp [State.moveDone, hx, Nat.not_lt.mpr hlen, hrun, Stream.foldl_setAddr]

section
variable {s v : State} {i op : Nat} {t : Stream} {w : Nat} {src dst : Reach} {e : MoveEvent} (hi : i < 512)
  (h : MoveAtHand s i op t w) (hop : op = aopMove ∨ op = aopZero)
  (hchunk : s.chunk t (moveWordOf w) = ((moveWordOf w).len, src, dst)) (hsrc : src.Nearby) (hdst : dst.Nearby)
  (hcur : t.kind = 1 → t.cur ≠ [])
include h hop hchunk hsrc hdst hcur

/-- A granted request whose part lands goes on with the rest of the move (R242). -/
theorem State.moveLoop_granted (hpart : ((s.noteGrant i t (moveWordOf w)).openTile i t).movePart i t (moveWordOf w).rs
      (if t.kind = 1 then (moveWordOf w).rs else (moveWordOf w).rd) src dst (moveWordOf w).len 0 e = .ok v) (f : Nat) :
    State.moveLoop (f + 1) s i e = State.moveLoop f (v.advanceMove i (moveWordOf w).len) i e := by
  obtain ⟨hat, -, htaken, hmoved, hlen, -, hgranted⟩ := h
  obtain ⟨hstream, -, hword, haop⟩ := State.atWord_some hat
  have hmove := Stream.moveWord_of_word hword (by rwa [haop])
  have hopen : { t with taken := true } = t := by rw [← htaken]
  have hport : ¬(t.kind = 1 ∧ (t.taken = false ∨ t.cur.isEmpty = true)) := by simpa [htaken] using hcur
  have hshort : ¬(moveWordOf w).len ≤ t.moved := by omega
  have hheld : (s.heldBack t src || s.heldBack t dst) = false := by rw [s.heldBack_nearby t hsrc, s.heldBack_nearby t hdst]; rfl
  rw [← hmoved] at hpart
  rw [State.moveLoop]
  simp only [hstream, hmove, hchunk, hheld, hgranted, hopen]
  rw [if_neg hshort, if_neg (by simp [htaken]), if_neg (by simp [htaken]), if_neg (by simp), if_neg (by simp), if_neg hport]
  rcases hsrc with rfl | ⟨a, rfl⟩ <;> rcases hdst with rfl | ⟨b, rfl⟩ <;> simp only [hpart]

include hi
/-- A MOVE or ZERO whose bytes land in one grant is done: the bytes as they landed, the context at the next word. -/
theorem State.runMove_once (hsound : s.sound t (moveWordOf w).len src) {cur : List (Nat × List Byte)} {xq : List Nat} {P : State → Prop}
    (hlands : Lands s i t (if t.kind = 1 then (moveWordOf w).rs else (moveWordOf w).rd) dst (s.bytesFrom t (moveWordOf w).len src) cur xq P) :
    (∃ x, (s.runMove i op .clean).stream i = some x ∧ MoveDone t w x ∧ x.cur = cur ∧ x.xq = xq) ∧
      RegsKept s (s.runMove i op .clean) [(.STM_STREAM_STATE, i)] ∧ ∃ v, P v ∧ MemSame v (s.runMove i op .clean) := by
  obtain ⟨hat, haligned, htaken, hmoved, hlen, hroom, hgranted⟩ := id h
  obtain ⟨hstream, hrun, hword, haop⟩ := State.atWord_some hat
  have hmove := Stream.moveWord_of_word hword (by rwa [haop])
  have hserves := ((Serves.refl hstream).noteGrant i t (moveWordOf w)).openTile hi htaken
  obtain ⟨u, m, hu, hpart⟩ := State.movePart_lands hserves (dst := dst) hsound (moveWordOf w).rs
    (if t.kind = 1 then (moveWordOf w).rs else (moveWordOf w).rd)
  obtain ⟨v, touched, hok, hv, hregs, hP⟩ := hlands u m hu
  have hloop := State.moveLoop_granted h hop hchunk hsrc hdst hcur (hpart.trans hok) 9
  have hstep := State.stream_setStream_same v i ((t.holding cur xq touched).filled (moveWordOf w).len)
  have hreach : (moveWordOf w).len ≤ ((t.holding cur xq touched).filled (moveWordOf w).len).moved := Nat.le_add_left _ _
  rw [State.advanceMove_open hv hroom, State.moveLoop_done hstep hmove hreach] at hloop
  have hdone : s.runMove i op .clean = (v.setStream i ((t.holding cur xq touched).filled (moveWordOf w).len)).nextWord i
      (((t.holding cur xq touched).filled (moveWordOf w).len).bumped (moveWordOf w).len
        (t.incRegs (moveWordOf w))) := by
    unfold State.runMove
    rw [hat]
    simp only [haligned, hloop]
    exact State.moveDone_moved hstep hreach hrun _
  rw [hdone]
  have hend := ((Serves.refl hv).setStream ((t.holding cur xq touched).filled (moveWordOf w).len)).nextWord hi
    (((t.holding cur xq touched).filled (moveWordOf w).len).bumped (moveWordOf w).len
      (t.incRegs (moveWordOf w)))
  refine ⟨⟨_, hend.stream, ⟨rfl, rfl, rfl, rfl, htaken, rfl, ?areg⟩, rfl, rfl⟩, fun r j hj hr => ?regs, v, hP, hend.mem⟩
  case areg => rw [Stream.foldl_setAddr]; rfl
  case regs => rw [hend.regs r j hj hr, hregs r j hj hr]

end

theorem State.length_loadBytes (s : State) (a n : Nat) : (s.loadBytes a n).length = n := by simp [State.loadBytes]

/-- A gathering or chained ZERO takes what is left of its length, since the open tile holds more (R229). -/
theorem MoveAtHand.chunk_zero {s : State} {i : Nat} {t : Stream} {w : Nat} (h : MoveAtHand s i aopZero t w) (hkind : t.kind = 0 ∨ t.kind = 2) :
    s.chunk t (moveWordOf w) = ((moveWordOf w).len, .null, .null) := by
  obtain ⟨hat, -, -, hmoved, -, hroom, -⟩ := h
  obtain ⟨-, -, -, haop⟩ := State.atWord_some hat
  have hzero : (moveWordOf w).zero = true := by simp [moveWordOf, haop]
  have hone : t.kind ≠ 1 ∧ t.kind ≠ 3 := by omega
  have hlen : min (moveWordOf w).len (t.tileBytes - t.fill) = (moveWordOf w).len := by omega
  simp [State.chunk, hone, hzero, hmoved, hlen]

theorem State.bytesFrom_here (s : State) {t : Stream} (hkind : t.kind ≠ 1) (n a : Nat) : s.bytesFrom t n (.here a) = s.loadBytes a n :=
  if_neg hkind

/-- The bytes of a DRAIN's tile have passed its cell's port (R65). -/
theorem State.bytesFrom_drain (s : State) {t : Stream} (hkind : t.kind = 1) {o : Nat} {bs : List Byte} {l : List (Nat × List Byte)}
    (hcur : t.cur = (o, bs) :: l) (n a : Nat) : s.bytesFrom t n (.here a) = (bs.drop t.fill).take n := by
  show s.sourceOf t a n = _
  simp [State.sourceOf, hkind, hcur]

section
variable {s : State} {i : StreamIx} {t : Stream} {w : Nat}

section
variable (h : MoveAtHand s i.val aopMove t w) {a : Nat}
include h

theorem exec_moveBytes_gathers (hkind : t.kind = 0 ∨ t.kind = 2)
    (hchunk : s.chunk t (moveWordOf w) = ((moveWordOf w).len, .here a, .null)) (hclean : s.firstPoison a (moveWordOf w).len = none) :
    Completes (.moveBytes i .clean) s fun u =>
      (∃ x, u.stream i.val = some x ∧ MoveDone t w x ∧ x.cur = t.cur ++ [(t.fill, s.loadBytes a (moveWordOf w).len)] ∧ x.xq = t.xq) ∧
        RegsKept s u [(.STM_STREAM_STATE, i.val)] ∧ MemSame s u := by
  obtain ⟨hx, hregs, v, hv, hmem⟩ := State.runMove_once i.isLt h (.inl rfl) hchunk (Reach.nearby_here a) Reach.nearby_null (by omega)
    (.inr hclean) (lands_gathered hkind _ _ _)
  rw [State.bytesFrom_here s (by omega)] at hx
  exact ⟨_, rfl, hx, hregs, hv.trans hmem⟩

theorem exec_moveBytes_queues (hkind : t.kind = 4)
    (hchunk : s.chunk t (moveWordOf w) = ((moveWordOf w).len, .here a, .null)) (hclean : s.firstPoison a (moveWordOf w).len = none) :
    Completes (.moveBytes i .clean) s fun u =>
      (∃ x, u.stream i.val = some x ∧ MoveDone t w x ∧
        x.xq = t.xq ++ wordsOf ((moveWordOf w).len / 4) (s.loadBytes a (moveWordOf w).len) ∧ x.cur = t.cur) ∧
        RegsKept s u [(.STM_STREAM_STATE, i.val)] ∧ MemSame s u := by
  obtain ⟨⟨x, hx, hdone, hcur, hxq⟩, hregs, v, hv, hmem⟩ := State.runMove_once i.isLt h (.inl rfl) hchunk (Reach.nearby_here a)
    Reach.nearby_null (by omega) (.inr hclean) (lands_queued hkind _ _ _)
  rw [State.bytesFrom_here s (by omega), s.length_loadBytes] at hxq
  exact ⟨_, rfl, ⟨x, hx, hdone, hxq, hcur⟩, hregs, hv.trans hmem⟩

end

/-- What a COPY or DRAIN leaves whose bytes `bs` are written at `b`. -/
def Stored (s : State) (i : Nat) (t : Stream) (w b : Nat) (bs : List Byte) (u : State) : Prop :=
  (∃ x, u.stream i = some x ∧ MoveDone t w x) ∧ u.mem = (s.storeBytes b bs).1.mem ∧
    u.hostMem = (s.storeBytes b bs).1.hostMem ∧ RegsKept s u [(.STM_STREAM_STATE, i)]

/-- A MOVE or ZERO of one grant that writes at its destination on this chip. -/
theorem State.runMove_stores {op b : Nat} {src : Reach} {bs : List Byte} (h : MoveAtHand s i.val op t w) (hop : op = aopMove ∨ op = aopZero)
    (hkind : t.kind = 3 ∨ t.kind = 1) (hcur : t.kind = 1 → t.cur ≠ []) (hsrc : src.Nearby) (hsound : s.sound t (moveWordOf w).len src)
    (hbytes : s.bytesFrom t (moveWordOf w).len src = bs) (hlen : bs.length = (moveWordOf w).len)
    (hchunk : s.chunk t (moveWordOf w) = ((moveWordOf w).len, src, .here b)) (hopen : s.trayShut b (moveWordOf w).len = false)
    (hstore : (s.storeBytes b bs).2 = none) : Stored s i.val t w b bs (s.runMove i.val op .clean) := by
  subst hbytes
  rw [← hlen] at hopen
  obtain ⟨⟨x, hx, hdone, -⟩, hregs, v, hv, hmem⟩ := State.runMove_once i.isLt h hop hchunk hsrc (Reach.nearby_here b) hcur hsound
    (lands_stored hkind _ hopen hstore)
  obtain ⟨hlocal, hhost, -⟩ := hv.trans hmem
  exact ⟨⟨x, hx, hdone⟩, hlocal, hhost, hregs⟩

theorem exec_zeroBytes_gathers (h : MoveAtHand s i.val aopZero t w) (hkind : t.kind = 0 ∨ t.kind = 2) :
    Completes (.zeroBytes i) s fun u =>
      (∃ x, u.stream i.val = some x ∧ MoveDone t w x ∧ x.cur = t.cur ++ [(t.fill, List.replicate (moveWordOf w).len 0)] ∧ x.xq = t.xq) ∧
        RegsKept s u [(.STM_STREAM_STATE, i.val)] ∧ MemSame s u := by
  obtain ⟨hx, hregs, v, hv, hmem⟩ := State.runMove_once i.isLt h (.inr rfl) (h.chunk_zero hkind) Reach.nearby_null Reach.nearby_null
    (by omega) trivial (lands_gathered hkind _ _ _)
  exact ⟨_, rfl, hx, hregs, hv.trans hmem⟩

end

/-- Settles O16: one grant brings the whole length, and its bytes land where the stream's kind gives. -/
theorem moveAndZeroFillTileFromSource : Obligations.MoveAndZeroFillTileFromSource := by
  rintro s i t w len - rfl
  refine ⟨fun h => ⟨fun a hkind hchunk hclean => exec_moveBytes_gathers h hkind hchunk hclean,
    fun a hkind hchunk hclean => exec_moveBytes_queues h hkind hchunk hclean,
    fun a b hkind hchunk hclean hopen hstore => ⟨_, rfl, ?copies⟩,
    fun a b o bs l hkind hcur hheld hchunk hopen hstore => ⟨_, rfl, ?drains⟩⟩,
    fun h => ⟨fun hkind => exec_zeroBytes_gathers h hkind, fun b hkind hchunk hopen hstore => ⟨_, rfl, ?zeros⟩⟩⟩
  case copies =>
    exact State.runMove_stores h (.inl rfl) (.inl hkind) (by omega) (Reach.nearby_here a) (.inr hclean)
      (State.bytesFrom_here s (by omega) _ a) (s.length_loadBytes _ _) hchunk hopen hstore
  case drains =>
    have hlen : ((bs.drop t.fill).take (moveWordOf w).len).length = (moveWordOf w).len := by simp; omega
    exact State.runMove_stores h (.inl rfl) (.inr hkind) (by simp [hcur]) (Reach.nearby_here a) (.inl hkind)
      (State.bytesFrom_drain s hkind hcur _ a) hlen hchunk hopen hstore
  case zeros =>
    exact State.runMove_stores h (.inr rfl) (.inl hkind) (by omega) Reach.nearby_null trivial rfl List.length_replicate hchunk hopen hstore

end Sys2Proof.Machine
end

section
/-!
PERSISTENT_RUN of a stream whose plot number no plot has (R239, R279). Refutes O17.
-/

namespace Sys2Proof.Machine
open Sys2Proof

/-! The statement bounds no stream's plot number, and a run whose record gives a START marks SDL_EVENT_FLAGS of that plot in holdover. The
register has eight words, one for each plot; the word 181,232 places past its first is STM_REARM_COUNT of stream 0, so that the mark of
a stream of "plot 181,232" falls into the count of runs that the statement gives. -/

theorem eventFlags_key_stray : Reg.key .SDL_EVENT_FLAGS 181232 = Reg.key .STM_REARM_COUNT 0 := by decide

/-- A parked persistent stream of task 1 with a ring of one record at address 0, of the plot number 181,232. -/
def strayStream : Stream :=
  { Stream.ofDesc 181232 1 0 0 ⟨0, 1, 9, 1, 1, 0, 0, 0, 0xFFFF, 0, 0, 0, 0, 0, 0, 0, 1, 0, 0, []⟩ [0] none with ended := true }

/-- The record's START is tick 1, and the sundial is in holdover at that tick. -/
def strayRun : State :=
  { (State.reset.setFld Fld.SDL_STATUS_STATE 0 3).writeLe 0x30 8 1 with streams := [(0, strayStream)], sundial := 1 }

theorem strayRun_canonical : strayRun.canonical = true := by decide +kernel

theorem strayRun_due : strayRun.runDue strayStream = true ∧ strayRun.runGroup 0 = [(0, strayStream)] ∧
    strayRun.firstPoison strayStream.record 64 = none := by decide +kernel

/-- The count of runs goes from 0 to 3: the mark sets its bit 1, and the run adds one. -/
theorem strayRun_counts : strayRun.fld Fld.STM_REARM_COUNT_RUNS 0 = 0 ∧
    (strayRun.startRun (0, strayStream)).fld Fld.STM_REARM_COUNT_RUNS 0 = 3 := by decide +kernel

section
variable {s : State} {i : StreamIx} {t : Stream}

/-- A due run whose record meets no poison starts with its partners (R231, R239). -/
theorem exec_persistentRun_starts (hstream : s.stream i.val = some t) (hdue : s.runDue t = true)
    (hgroup : (s.runGroup i.val).all (fun x => s.runDue x.2) = true) (hclean : s.firstPoison t.record 64 = none) :
    exec (.persistentRun i .clean) s = .next ((s.runGroup i.val).foldl State.startRun s) := by
  show execPersistentRun i .clean s = _
  simp [execPersistentRun, hstream, hdue, hgroup, State.checkRead_clean hclean]

end

/-- Refutes O17: the first run of `strayRun`'s stream leaves its count at 3, where the statement gives 1. -/
theorem not_streamRunsArePromotedRearmedAndTimedOut : ¬ Obligations.StreamRunsArePromotedRearmedAndTimedOut := by
  intro h
  obtain ⟨hdue, hgroup, hclean⟩ := strayRun_due
  obtain ⟨hbefore, hafter⟩ := strayRun_counts
  obtain ⟨-, halone, -⟩ := h strayRun 0 strayStream strayRun_canonical rfl
  obtain ⟨u, hexec, hruns, -⟩ := halone hdue hgroup hclean
  have hall : (strayRun.runGroup 0).all (fun x => strayRun.runDue x.2) = true := by rw [hgroup]; simp [hdue]
  have hstarts := exec_persistentRun_starts (i := 0) rfl hdue hall hclean
  rw [show strayRun.runGroup (0 : StreamIx).val = [(0, strayStream)] from hgroup] at hstarts
  obtain rfl : strayRun.startRun (0, strayStream) = u := Host.Outcome.next.inj (hstarts.symm.trans hexec)
  rw [show (0 : StreamIx).val = 0 from rfl, hbefore, hafter] at hruns
  exact absurd hruns (by decide)

end Sys2Proof.Machine
end

section
/-!
TASK_END of a task with a stream whose context number no engine has (R239, R289). Refutes O34.
-/

namespace Sys2Proof.Machine
open Sys2Proof

/-! The statement bounds the contexts that a task lists, but not those of the streams that name the task, and the end of a task parks every
stream that names it. STM_STREAM_STATE has 512 words; the word after its last is STM_FAULT_INFO of stream 0, so that the state of
"context 512" falls into a register that the statement keeps. -/

theorem streamState_key_stray : Reg.key .STM_STREAM_STATE 512 = Reg.key .STM_FAULT_INFO 0 := by decide

/-- A persistent stream of task 1 without cells. -/
def strayContext : Stream :=
  { Stream.ofDesc 0 1 0 0 ⟨0, 1, 9, 1, 1, 0, 0, 0, 0xFFFF, 0, 0, 0, 0, 0, 0, 0, 1, 0, 0, []⟩ [0] none with ended := true }

/-- A started task of plot 0 without cells and without listed contexts. -/
def bareTask : Task :=
  { Task.of ⟨0, 7, false, 0, 0, 0, 0, 0, 0, 0, []⟩ ⟨[], [], [], none, none⟩ 0 0 0 false false with started := some 0 }

/-- Task 1 runs, and context 512 names it. -/
def strayEnd : State := { State.reset with tasks := [(1, bareTask)], streams := [(512, strayContext)] }

theorem bareTask_inRange : bareTask.inRange = true := by decide +kernel

theorem strayEnd_canonical : strayEnd.canonical = true := by decide +kernel

theorem strayEnd_done : strayEnd.taskDone 1 bareTask = true := by decide +kernel

/-- What TASK_END leaves of a state in which nothing of task `tid` is left to do (R239, R289). -/
def State.taskEnded (s : State) (tid : Nat) (t : Task) : State :=
  let u := (t.cells.foldl (fun s c => s.clearCell tid c) s).parkStreams tid
  let u := { u with
    tasks := Table.del u.tasks tid
    events := u.events.filter fun e => decide (e.task ≠ some tid)
    endedTasks := u.endedTasks ++ [(t.plot, t.tag, u.sundial)] }
  (u.noteTaskEnd tid).reply t.plot t.tag 0x04 0 u.sundial 0

theorem exec_taskEnd_ends {s : State} {tid : Nat} {t : Task} (htask : s.task tid = some t) (hstarted : t.started.isSome = true)
    (hservice : t.service = false) (hdone : s.taskDone tid t = true) : exec (.taskEnd tid) s = .next (s.taskEnded tid t) := by
  have hguard : ¬(t.started.isNone = true ∨ t.service = true ∨ s.taskDone tid t = false) := by
    rw [hservice, hdone, Option.isNone_iff_eq_none, ← Option.not_isSome_iff_eq_none, hstarted]
    simp
  show execTaskEnd tid s = _
  unfold execTaskEnd
  rw [htask]
  exact if_neg hguard

/-- STM_FAULT_INFO of stream 0 goes from 0 to 5, the state PARKED. -/
theorem strayEnd_overwrites : strayEnd.reg .STM_FAULT_INFO 0 = 0 ∧ (strayEnd.taskEnded 1 bareTask).reg .STM_FAULT_INFO 0 = 5 := by
  decide +kernel

/-- Refutes O34: the end of `strayEnd`'s task writes STM_FAULT_INFO of stream 0, which the statement keeps. -/
theorem not_tasksStartEndAndAbort : ¬ Obligations.TasksStartEndAndAbort := by
  intro h
  obtain ⟨hbefore, hafter⟩ := strayEnd_overwrites
  obtain ⟨-, hend, -⟩ := h strayEnd 1 bareTask strayEnd_canonical rfl
  obtain ⟨u, hexec, -, -, -, -, hregs, -⟩ := hend rfl rfl strayEnd_done bareTask_inRange
  obtain rfl : strayEnd.taskEnded 1 bareTask = u := Host.Outcome.next.inj ((exec_taskEnd_ends rfl rfl rfl strayEnd_done).symm.trans hexec)
  have hkept := hregs .STM_FAULT_INFO 0 (by decide) (by decide +kernel)
  rw [hbefore, hafter] at hkept
  exact absurd hkept (by decide)

end Sys2Proof.Machine
end

section
/-!
The canonical form through the operations of the state (R252, R424, R15). Every map of the state is written by `Sparse.set`, by a filter
or by emptying it, each of which keeps the canonical form, and no operation touches the queue; so `Sound pend`, canonical form with the
queue `pend`, passes through every operation. `Sound.f` says that the operation `f` keeps it, and its proof names the operations that `f` is made
of, from the last one inwards; `Sound.same` stands for a change of fields that are no maps.
-/

namespace Sys2Proof.Machine
open Sys2Proof

-- One proof at a time: many short proofs at once ask for more threads than the stack limit leaves room for.
set_option Elab.async false

/-- The state is in canonical form and its queue is `pend`. -/
def Sound (pend : List Instr) (s : State) : Prop := s.canonical = true ∧ s.pending = pend

/-- All that `Sound` speaks of. -/
def State.maps (s : State) :=
  (s.regs, s.mem, s.hostMem, s.poison, s.cells, s.blocks, s.scrub, s.sync, s.phys, s.conns, s.pools, s.colSteps, s.shiftBook,
    s.storeUpset, s.logFloor, s.governors, s.perf, s.latch, s.harvestSeq, s.domainCounts, s.pending)

/-- A command that goes on goes on to a sound state. -/
def Answers (pend : List Instr) : Res → Prop
  | .next t => Sound pend t
  | _ => True

/-- A part of a move leaves a sound state, with a fault and without. -/
def Leaves (pend : List Instr) : Moved → Prop
  | .ok s => Sound pend s
  | .fault s _ _ => Sound pend s

/-- The state that a walk has come to is sound. -/
def Walks (pend : List Instr) (w : WalkAcc) : Prop := Sound pend w.st

variable {pend : List Instr} {s t : State}

/-! ### One map of the state at a time -/

/-- What else a state holds than its maps and its queue may be anything. -/
theorem Sound.same {tasks taskSeq streams armSeq events eventSeq resets resetsRun harts log logSeq sundial phase clock hubTurn hubLeft slew
    slewTick free plots frames seqs journal batches pressed draining kvmTurn kvmOwed kvmSeq admTurn out reqs msgTag eccReports
    rdata rootChip peerHandles moveSeq walks signing indexes rbatches rbatchSeq groups colGroups chains ops opSeq colIn
    lostDrains peers discovering configHash hall syncMap defaultRack hubHeld linkMap ptpPort ptpDomain scanStart endedTasks
    pcieGen pcieLanes ptp harvest boot safety ptpUse portAddr chipCounts replay chipWait hubLost pcieLost halted coolSince
    excursion droopTick heartPin beatPin alertFrom admWait mainLost cooling privLocked}
    (hs : Sound pend s) :
    Sound pend { s with
      tasks := tasks, taskSeq := taskSeq, streams := streams, armSeq := armSeq, events := events, eventSeq := eventSeq, resets :=
      resets, resetsRun := resetsRun, harts := harts, log := log, logSeq := logSeq, sundial := sundial, phase := phase, clock :=
      clock, hubTurn := hubTurn, hubLeft := hubLeft, slew := slew, slewTick := slewTick, free := free, plots := plots, frames :=
      frames, seqs := seqs, journal := journal, batches := batches, pressed := pressed, draining := draining, kvmTurn := kvmTurn,
      kvmOwed := kvmOwed, kvmSeq := kvmSeq, admTurn := admTurn, out := out, reqs := reqs, msgTag := msgTag, eccReports :=
      eccReports, rdata := rdata, rootChip := rootChip, peerHandles := peerHandles, moveSeq := moveSeq, walks := walks, signing :=
      signing, indexes := indexes, rbatches := rbatches, rbatchSeq := rbatchSeq, groups := groups, colGroups := colGroups, chains
      := chains, ops := ops, opSeq := opSeq, colIn := colIn, lostDrains := lostDrains, peers := peers, discovering := discovering,
      configHash := configHash, hall := hall, syncMap := syncMap, defaultRack := defaultRack, hubHeld := hubHeld, linkMap :=
      linkMap, ptpPort := ptpPort, ptpDomain := ptpDomain, scanStart := scanStart, endedTasks := endedTasks, pcieGen := pcieGen,
      pcieLanes := pcieLanes, ptp := ptp, harvest := harvest, boot := boot, safety := safety, ptpUse := ptpUse, portAddr :=
      portAddr, chipCounts := chipCounts, replay := replay, chipWait := chipWait, hubLost := hubLost, pcieLost := pcieLost, halted
      := halted, coolSince := coolSince, excursion := excursion, droopTick := droopTick, heartPin := heartPin, beatPin := beatPin,
      alertFrom := alertFrom, admWait := admWait, mainLost := mainLost, cooling := cooling, privLocked := privLocked } := hs

/-- A state that differs from a sound one in its register file alone, of the maps, is sound when its register file is in canonical form; so
for each map below. -/
theorem Sound.ofRegs (hs : Sound pend s)
    (hm : Sparse.wf regReset s.regs = true → Sparse.wf regReset t.regs = true)
    (e : { t with regs := s.regs }.maps = s.maps := by rfl) : Sound pend t := by
  simp only [State.maps, Prod.mk.injEq, true_and] at e
  simp only [Sound, State.canonical, Bool.and_eq_true, e] at hs ⊢
  simp only [hs, hm, and_self]

theorem Sound.ofMem (hs : Sound pend s)
    (hm : Sparse.wf (fun _ => (0 : Byte)) s.mem = true → Sparse.wf (fun _ => (0 : Byte)) t.mem = true)
    (e : { t with mem := s.mem }.maps = s.maps := by rfl) : Sound pend t := by
  simp only [State.maps, Prod.mk.injEq, true_and] at e
  simp only [Sound, State.canonical, Bool.and_eq_true, e] at hs ⊢
  simp only [hs, hm, and_self]

theorem Sound.ofHostMem (hs : Sound pend s)
    (hm : Sparse.wf (fun _ => (0 : Byte)) s.hostMem = true → Sparse.wf (fun _ => (0 : Byte)) t.hostMem = true)
    (e : { t with hostMem := s.hostMem }.maps = s.maps := by rfl) : Sound pend t := by
  simp only [State.maps, Prod.mk.injEq, true_and] at e
  simp only [Sound, State.canonical, Bool.and_eq_true, e] at hs ⊢
  simp only [hs, hm, and_self]

theorem Sound.ofPoison (hs : Sound pend s)
    (hm : Sparse.wf (fun _ => false) s.poison = true → Sparse.wf (fun _ => false) t.poison = true)
    (e : { t with poison := s.poison }.maps = s.maps := by rfl) : Sound pend t := by
  simp only [State.maps, Prod.mk.injEq, true_and] at e
  simp only [Sound, State.canonical, Bool.and_eq_true, e] at hs ⊢
  simp only [hs, hm, and_self]

theorem Sound.ofCells (hs : Sound pend s)
    (hm : Sparse.wf (fun _ => Cell.empty) s.cells = true → Sparse.wf (fun _ => Cell.empty) t.cells = true)
    (e : { t with cells := s.cells }.maps = s.maps := by rfl) : Sound pend t := by
  simp only [State.maps, Prod.mk.injEq, true_and] at e
  simp only [Sound, State.canonical, Bool.and_eq_true, e] at hs ⊢
  simp only [hs, hm, and_self]

theorem Sound.ofBlocks (hs : Sound pend s)
    (hm : Sparse.wf (fun _ => Block.empty) s.blocks = true → Sparse.wf (fun _ => Block.empty) t.blocks = true)
    (e : { t with blocks := s.blocks }.maps = s.maps := by rfl) : Sound pend t := by
  simp only [State.maps, Prod.mk.injEq, true_and] at e
  simp only [Sound, State.canonical, Bool.and_eq_true, e] at hs ⊢
  simp only [hs, hm, and_self]

theorem Sound.ofScrub (hs : Sound pend s)
    (hm : Sparse.wf (fun _ => Scrubber.idle) s.scrub = true → Sparse.wf (fun _ => Scrubber.idle) t.scrub = true)
    (e : { t with scrub := s.scrub }.maps = s.maps := by rfl) : Sound pend t := by
  simp only [State.maps, Prod.mk.injEq, true_and] at e
  simp only [Sound, State.canonical, Bool.and_eq_true, e] at hs ⊢
  simp only [hs, hm, and_self]

theorem Sound.ofSync (hs : Sound pend s)
    (hm : Sparse.wf (fun _ => LinkSync.empty) s.sync = true → Sparse.wf (fun _ => LinkSync.empty) t.sync = true)
    (e : { t with sync := s.sync }.maps = s.maps := by rfl) : Sound pend t := by
  simp only [State.maps, Prod.mk.injEq, true_and] at e
  simp only [Sound, State.canonical, Bool.and_eq_true, e] at hs ⊢
  simp only [hs, hm, and_self]

theorem Sound.ofPhys (hs : Sound pend s)
    (hm : Sparse.wf (fun l => LinkPhy.off (isRack l)) s.phys = true → Sparse.wf (fun l => LinkPhy.off (isRack l)) t.phys = true)
    (e : { t with phys := s.phys }.maps = s.maps := by rfl) : Sound pend t := by
  simp only [State.maps, Prod.mk.injEq, true_and] at e
  simp only [Sound, State.canonical, Bool.and_eq_true, e] at hs ⊢
  simp only [hs, hm, and_self]

theorem Sound.ofConns (hs : Sound pend s)
    (hm : Sparse.wf (fun _ => Conn.closed) s.conns = true → Sparse.wf (fun _ => Conn.closed) t.conns = true)
    (e : { t with conns := s.conns }.maps = s.maps := by rfl) : Sound pend t := by
  simp only [State.maps, Prod.mk.injEq, true_and] at e
  simp only [Sound, State.canonical, Bool.and_eq_true, e] at hs ⊢
  simp only [hs, hm, and_self]

theorem Sound.ofPools (hs : Sound pend s)
    (hm : Sparse.wf (fun _ => Pool.empty) s.pools = true → Sparse.wf (fun _ => Pool.empty) t.pools = true)
    (e : { t with pools := s.pools }.maps = s.maps := by rfl) : Sound pend t := by
  simp only [State.maps, Prod.mk.injEq, true_and] at e
  simp only [Sound, State.canonical, Bool.and_eq_true, e] at hs ⊢
  simp only [hs, hm, and_self]

theorem Sound.ofColSteps (hs : Sound pend s)
    (hm : Sparse.wf (fun _ => []) s.colSteps = true → Sparse.wf (fun _ => []) t.colSteps = true)
    (e : { t with colSteps := s.colSteps }.maps = s.maps := by rfl) : Sound pend t := by
  simp only [State.maps, Prod.mk.injEq, true_and] at e
  simp only [Sound, State.canonical, Bool.and_eq_true, e] at hs ⊢
  simp only [hs, hm, and_self]

theorem Sound.ofShiftBook (hs : Sound pend s)
    (hm : Sparse.wf (fun _ => 0) s.shiftBook = true → Sparse.wf (fun _ => 0) t.shiftBook = true)
    (e : { t with shiftBook := s.shiftBook }.maps = s.maps := by rfl) : Sound pend t := by
  simp only [State.maps, Prod.mk.injEq, true_and] at e
  simp only [Sound, State.canonical, Bool.and_eq_true, e] at hs ⊢
  simp only [hs, hm, and_self]

theorem Sound.ofStoreUpset (hs : Sound pend s)
    (hm : Sparse.wf (fun _ => 0) s.storeUpset = true → Sparse.wf (fun _ => 0) t.storeUpset = true)
    (e : { t with storeUpset := s.storeUpset }.maps = s.maps := by rfl) : Sound pend t := by
  simp only [State.maps, Prod.mk.injEq, true_and] at e
  simp only [Sound, State.canonical, Bool.and_eq_true, e] at hs ⊢
  simp only [hs, hm, and_self]

theorem Sound.ofLogFloor (hs : Sound pend s)
    (hm : Sparse.wf (fun _ => 0) s.logFloor = true → Sparse.wf (fun _ => 0) t.logFloor = true)
    (e : { t with logFloor := s.logFloor }.maps = s.maps := by rfl) : Sound pend t := by
  simp only [State.maps, Prod.mk.injEq, true_and] at e
  simp only [Sound, State.canonical, Bool.and_eq_true, e] at hs ⊢
  simp only [hs, hm, and_self]

theorem Sound.ofGovernors (hs : Sound pend s)
    (hm : Sparse.wf (fun _ => ⟨0, none, false, none⟩) s.governors = true → Sparse.wf (fun _ => ⟨0, none, false, none⟩) t.governors = true)
    (e : { t with governors := s.governors }.maps = s.maps := by rfl) : Sound pend t := by
  simp only [State.maps, Prod.mk.injEq, true_and] at e
  simp only [Sound, State.canonical, Bool.and_eq_true, e] at hs ⊢
  simp only [hs, hm, and_self]

theorem Sound.ofPerf (hs : Sound pend s)
    (hm : Sparse.wf (fun _ => ⟨0, false, 0⟩) s.perf = true → Sparse.wf (fun _ => ⟨0, false, 0⟩) t.perf = true)
    (e : { t with perf := s.perf }.maps = s.maps := by rfl) : Sound pend t := by
  simp only [State.maps, Prod.mk.injEq, true_and] at e
  simp only [Sound, State.canonical, Bool.and_eq_true, e] at hs ⊢
  simp only [hs, hm, and_self]

theorem Sound.ofLatch (hs : Sound pend s)
    (hm : Sparse.wf (fun _ => 0) s.latch = true → Sparse.wf (fun _ => 0) t.latch = true)
    (e : { t with latch := s.latch }.maps = s.maps := by rfl) : Sound pend t := by
  simp only [State.maps, Prod.mk.injEq, true_and] at e
  simp only [Sound, State.canonical, Bool.and_eq_true, e] at hs ⊢
  simp only [hs, hm, and_self]

theorem Sound.ofHarvestSeq (hs : Sound pend s)
    (hm : Sparse.wf (fun _ => 0) s.harvestSeq = true → Sparse.wf (fun _ => 0) t.harvestSeq = true)
    (e : { t with harvestSeq := s.harvestSeq }.maps = s.maps := by rfl) : Sound pend t := by
  simp only [State.maps, Prod.mk.injEq, true_and] at e
  simp only [Sound, State.canonical, Bool.and_eq_true, e] at hs ⊢
  simp only [hs, hm, and_self]

theorem Sound.ofDomainCounts (hs : Sound pend s)
    (hm : Sparse.wf (fun _ => []) s.domainCounts = true → Sparse.wf (fun _ => []) t.domainCounts = true)
    (e : { t with domainCounts := s.domainCounts }.maps = s.maps := by rfl) : Sound pend t := by
  simp only [State.maps, Prod.mk.injEq, true_and] at e
  simp only [Sound, State.canonical, Bool.and_eq_true, e] at hs ⊢
  simp only [hs, hm, and_self]

theorem Sound.wfStoreUpset (hs : Sound pend s) : Sparse.wf (fun _ => 0) s.storeUpset = true := by
  simp only [Sound, State.canonical, Bool.and_eq_true] at hs
  simp only [hs]

theorem Sound.wfHarvestSeq (hs : Sound pend s) : Sparse.wf (fun _ => 0) s.harvestSeq = true := by
  simp only [Sound, State.canonical, Bool.and_eq_true] at hs
  simp only [hs]

theorem Sound.wfHostMem (hs : Sound pend s) : Memory.wf s.hostMem = true := by
  simp only [Sound, State.canonical, Bool.and_eq_true] at hs
  simp only [hs]

/-! ### Branches, folds and pairs -/

theorem Sound.ite {c : Prop} {_ : Decidable c} (hs : Sound pend s) (ht : Sound pend t) : Sound pend (if c then s else t) := by
  split
  · exact hs
  · exact ht

/-- A change made under a condition alone. -/
theorem Sound.when {c : Prop} {_ : Decidable c} (hs : Sound pend s) (ht : Sound pend s → Sound pend t) :
    Sound pend (if c then t else s) :=
  .ite (ht hs) hs

theorem Sound.unless {c : Prop} {_ : Decidable c} (hs : Sound pend s) (ht : Sound pend s → Sound pend t) :
    Sound pend (if c then s else t) :=
  .ite hs (ht hs)

theorem Sound.foldl {α : Type} {f : State → α → State} {l : List α} (hf : ∀ s a, Sound pend s → Sound pend (f s a))
    (hs : Sound pend s) : Sound pend (l.foldl f s) := by
  induction l generalizing s with
  | nil => exact hs
  | cons a l ih => exact ih (hf _ _ hs)

/-- A fold over a state beside which a value runs. -/
theorem Sound.foldlFst {α β : Type} {f : State × β → α → State × β} {l : List α} {r : State × β}
    (hf : ∀ r a, Sound pend r.1 → Sound pend (f r a).1) (hr : Sound pend r.1) : Sound pend (l.foldl f r).1 := by
  induction l generalizing r with
  | nil => exact hr
  | cons a l ih => exact ih (hf _ _ hr)

theorem Sound.foldlSnd {α β : Type} {f : β × State → α → β × State} {l : List α} {r : β × State}
    (hf : ∀ r a, Sound pend r.2 → Sound pend (f r a).2) (hr : Sound pend r.2) : Sound pend (l.foldl f r).2 := by
  induction l generalizing r with
  | nil => exact hr
  | cons a l ih => exact ih (hf _ _ hr)

theorem Sound.ofFst {β : Type} {r : State × β} {b : β} (hr : Sound pend r.1) (e : r = (t, b)) : Sound pend t := by
  subst e
  exact hr

theorem Sound.ofSnd {β : Type} {r : β × State} {b : β} (hr : Sound pend r.2) (e : r = (b, t)) : Sound pend t := by
  subst e
  exact hr

theorem Answers.next (hs : Sound pend s) : Answers pend (.next s) := hs

theorem Answers.fault {r} : Answers pend (.fault r) := trivial

theorem Answers.refused {r} : Answers pend (.refused r) := trivial

theorem Answers.ite {c : Prop} {_ : Decidable c} {r r' : Res} (hr : Answers pend r) (hr' : Answers pend r') :
    Answers pend (if c then r else r') := by
  split
  · exact hr
  · exact hr'

theorem Leaves.ok (hs : Sound pend s) : Leaves pend (.ok s) := hs

theorem Leaves.fault {c d} (hs : Sound pend s) : Leaves pend (.fault s c d) := hs

theorem Leaves.ite {c : Prop} {_ : Decidable c} {r r' : Moved} (hr : Leaves pend r) (hr' : Leaves pend r') :
    Leaves pend (if c then r else r') := by
  split
  · exact hr
  · exact hr'

end Sys2Proof.Machine
end

section
/-!
Soundness through registers, memory, tables, rings, and the abort of a task.
-/

namespace Sys2Proof.Machine
open Sys2Proof

-- One proof at a time: many short proofs at once ask for more threads than the stack limit leaves room for.
set_option Elab.async false

variable {pend : List Instr} {s t : State}

/-! ### The register file and the tables -/

theorem Sound.reset : Sound [] State.reset := ⟨State.canonical_reset, rfl⟩

/-! ### Shared operations -/

theorem Sound.setReg {r i v} (hs : Sound pend s) : Sound pend (s.setReg r i v) := by
  unfold State.setReg
  exact .ofRegs hs (Sparse.wf_set _ _ _ _)

theorem Sound.setFld {f i v} (hs : Sound pend s) : Sound pend (s.setFld f i v) := by
  unfold State.setFld
  exact .setReg hs

theorem Sound.setBit {f i b} (hs : Sound pend s) : Sound pend (s.setBit f i b) := by
  unfold State.setBit
  exact .setFld hs

theorem Sound.stepFld {f i} (hs : Sound pend s) : Sound pend (s.stepFld f i) := by
  unfold State.stepFld
  exact .setFld hs

theorem Sound.addSat {f i n} (hs : Sound pend s) : Sound pend (s.addSat f i n) := by
  unfold State.addSat
  exact .setFld hs

theorem Sound.recordInfo {r i info} (hs : Sound pend s) : Sound pend (s.recordInfo r i info) := by
  unfold State.recordInfo
  exact .ite (.setReg hs) (.setReg hs)

theorem Sound.writeBytes {a bs} (hs : Sound pend s) : Sound pend (s.writeBytes a bs) := by
  unfold State.writeBytes
  exact .ofMem hs (memWrite_wf _ _ _)

theorem Sound.clearRange {lo len} (hs : Sound pend s) : Sound pend (s.clearRange lo len) := by
  unfold State.clearRange
  exact .ofMem (s := { s with poison := _ }) (.ofPoison hs (Sparse.wf_filter _ _ _)) (Sparse.wf_filter _ _ _)

theorem Sound.writeHost {a bs} (hs : Sound pend s) : Sound pend (s.writeHost a bs) := by
  unfold State.writeHost
  exact .ofHostMem hs (memWrite_wf _ _ _)

theorem Sound.setPoison {a b} (hs : Sound pend s) : Sound pend (s.setPoison a b) := by
  unfold State.setPoison
  exact .ofPoison hs (Sparse.wf_set _ _ _ _)

theorem Sound.fresh (hs : Sound pend s) : Sound pend s.fresh.2 := by
  unfold State.fresh
  exact hs

theorem Sound.undefineBytes {a n} (hs : Sound pend s) : Sound pend (s.undefineBytes a n) := by
  unfold State.undefineBytes
  exact .same (.writeBytes hs)

theorem Sound.logAt {tick plot source code detail} (hs : Sound pend s) : Sound pend (s.logAt tick plot source code detail) := by
  unfold State.logAt
  exact .ite hs (.same (.addSat hs))

theorem Sound.logEvent {plot source cls k detail} (hs : Sound pend s) : Sound pend (s.logEvent plot source cls k detail) := by
  unfold State.logEvent
  exact .logAt hs

theorem Sound.logCoded {plot source cls k detail} (hs : Sound pend s) : Sound pend (s.logCoded plot source cls k detail) := by
  unfold State.logCoded
  exact .logAt hs

theorem Sound.logIgnored {plot source offset} (hs : Sound pend s) : Sound pend (s.logIgnored plot source offset) := by
  unfold State.logIgnored
  exact .logEvent hs

theorem Sound.setCell {c x} (hs : Sound pend s) : Sound pend (s.setCell c x) := by
  unfold State.setCell
  exact .ofCells hs (Sparse.wf_set _ _ _ _)

theorem Sound.setBlock {b x} (hs : Sound pend s) : Sound pend (s.setBlock b x) := by
  unfold State.setBlock
  exact .ofBlocks hs (Sparse.wf_set _ _ _ _)

theorem Sound.setTask {t x} (hs : Sound pend s) : Sound pend (s.setTask t x) := by
  unfold State.setTask
  exact hs

theorem Sound.setStream {i x} (hs : Sound pend s) : Sound pend (s.setStream i x) := by
  unfold State.setStream
  exact hs

theorem Sound.setPlot {p x} (hs : Sound pend s) : Sound pend (s.setPlot p x) := by
  unfold State.setPlot
  exact hs

theorem Answers.byService {r} (hs : Sound pend s) (hr : Answers pend r) : Answers pend (s.byService r) := by
  unfold State.byService
  exact .ite hr (.next hs)

theorem Sound.recordEcc {a kind scrub} (hs : Sound pend s) : Sound pend (s.recordEcc a kind scrub) := by
  unfold State.recordEcc
  split
  · exact hs
  · exact .ite (.setBit (.ite hs hs)) (.setReg (.setReg (.ite hs hs)))

theorem Sound.requestReset {level cause index cell ended} (hs : Sound pend s) :
    Sound pend (s.requestReset level cause index cell ended) := by
  unfold State.requestReset
  exact .ite hs hs

/-! ### Accesses through the address map -/

theorem Sound.storeLines {n a bs bad} (hs : Sound pend s) : Sound pend (State.storeLines n s a bs bad).1 := by
  induction n generalizing s a bs bad with
  | zero => exact hs
  | succ n ih =>
    unfold State.storeLines
    dsimp only
    split
    · exact hs
    · split
      · exact ih hs
      · exact ih (.writeBytes (.ite (.setPoison hs) hs))

theorem Sound.storeCold {n a bs} (hs : Sound pend s) : Sound pend (State.storeCold n s a bs) := by
  induction n generalizing s a bs with
  | zero => exact hs
  | succ n ih =>
    unfold State.storeCold
    split
    · exact .ite (.writeHost hs) (ih (.writeHost hs))
    · exact hs

theorem Sound.storeBytes {a bs} (hs : Sound pend s) : Sound pend (s.storeBytes a bs).1 := by
  unfold State.storeBytes
  split
  · exact .storeCold hs
  · exact .storeLines hs
  · exact .storeLines hs
  · exact .writeBytes hs

theorem Sound.putBytes {a bs} (hs : Sound pend s) : Sound pend (s.putBytes a bs) := by
  unfold State.putBytes
  split
  · exact .recordEcc (.ofFst (.storeBytes hs) ‹_›)
  · exact .ofFst (.storeBytes hs) ‹_›

theorem Sound.putLe {a n v} (hs : Sound pend s) : Sound pend (s.putLe a n v) := by
  unfold State.putLe
  exact .putBytes hs

theorem Sound.noteRead {a n} (hs : Sound pend s) : Sound pend (s.noteRead a n) := by
  unfold State.noteRead
  split
  · exact .recordEcc hs
  · exact hs

/-! ### Rings -/

theorem Sound.complete {p tag status result} (hs : Sound pend s) : Sound pend (s.complete p tag status result) := by
  unfold State.complete
  split
  · exact hs
  · exact .unless (.putLe (.putBytes hs)) (fun hs => .logCoded hs)

theorem Sound.reply {p tag kind reason tick start} (hs : Sound pend s) : Sound pend (s.reply p tag kind reason tick start) := by
  unfold State.reply
  split
  · exact hs
  · exact .putLe (.putBytes hs)

/-! ### Aborts -/

theorem Sound.recordCellFault {c code index} (hs : Sound pend s) : Sound pend (s.recordCellFault c code index) := by
  unfold State.recordCellFault
  exact .ite (.setFld hs) (.setFld (.setFld (.setFld hs)))

theorem Sound.undefineRanges {c rs} (hs : Sound pend s) : Sound pend (s.undefineRanges c rs) := by
  unfold State.undefineRanges
  exact .foldl (fun _ _ hs => .undefineBytes hs) hs

theorem Sound.discardCell {c} (hs : Sound pend s) : Sound pend (s.discardCell c) := by
  unfold State.discardCell
  exact .setFld (.setFld (.setCell (.setBlock (.foldl (fun _ _ hs => .undefineBytes hs)
      (.same (.foldl (fun _ _ hs => .undefineRanges hs) hs))))))

theorem Sound.abortCell {tid code c} (hs : Sound pend s) : Sound pend (s.abortCell tid code c) := by
  unfold State.abortCell
  refine .ite ?_ (.ite (.setCell hs) hs)
  refine .discardCell ?_
  split
  · exact .recordCellFault hs
  · exact hs

theorem Sound.undefineTiles {t} (hs : Sound pend s) : Sound pend (s.undefineTiles t) := by
  unfold State.undefineTiles
  exact .foldl (fun _ _ hs => .undefineBytes hs) hs

theorem Sound.dropLinks {i t} (hs : Sound pend s) : Sound pend (s.dropLinks i t) := by
  unfold State.dropLinks
  exact .foldl (fun _ _ hs => .setCell hs) hs

theorem Sound.engineStatus {e} (hs : Sound pend s) : Sound pend (s.engineStatus e) := by
  unfold State.engineStatus
  exact .unless (.setFld hs) (fun hs => .setFld hs)

theorem Sound.endStream {i t state} (hs : Sound pend s) : Sound pend (s.endStream i t state) := by
  unfold State.endStream
  exact .ite (.setFld (.setStream hs)) (.engineStatus (.setFld hs))

theorem Sound.recordStream {i code instr detail} (hs : Sound pend s) : Sound pend (s.recordStream i code instr detail) := by
  unfold State.recordStream
  exact .recordInfo hs

theorem Sound.abortStream {tid faulting i} (hs : Sound pend s) : Sound pend (s.abortStream tid faulting i) := by
  unfold State.abortStream
  split
  · exact hs
  · exact .ite hs (.ite (.endStream (.dropLinks (.undefineTiles hs))) (.endStream (.recordStream (.dropLinks (.undefineTiles hs)))))

theorem Sound.noteTaskEnd {tid} (hs : Sound pend s) : Sound pend (s.noteTaskEnd tid) := by
  unfold State.noteTaskEnd
  exact hs

theorem Sound.abortTask {tid reason others detect faulting} (hs : Sound pend s) :
    Sound pend (s.abortTask tid reason others detect faulting) := by
  unfold State.abortTask
  split
  · exact hs
  · exact .when (.noteTaskEnd (.same (.same (.foldl (fun _ _ hs => .abortStream hs)
        (.foldl (fun _ _ hs => .abortCell hs) hs))))) (fun hs => .reply hs)

theorem Sound.abortLate {tid} (hs : Sound pend s) : Sound pend (s.abortLate tid) := by
  unfold State.abortLate
  split
  · exact hs
  · exact .addSat (.abortTask hs)

theorem Sound.faultReset {c code ended} (hs : Sound pend s) : Sound pend (s.faultReset c code ended) := by
  unfold State.faultReset
  split
  · exact .requestReset hs
  · exact hs

theorem Sound.cellFault {c code index} (hs : Sound pend s) : Sound pend (s.cellFault c code index) := by
  unfold State.cellFault
  dsimp only
  split
  · exact .faultReset (.unless (.recordCellFault hs) (fun hs => .setFld hs))
  · exact .abortTask (.faultReset (.discardCell (.recordCellFault hs)))

theorem Sound.streamFaultAt {i instr code detail} (hs : Sound pend s) : Sound pend (s.streamFaultAt i instr code detail) := by
  unfold State.streamFaultAt
  split
  · exact hs
  · dsimp only
    split
    · exact .endStream (.dropLinks (.undefineTiles (.recordStream hs)))
    · exact .abortTask (.recordStream hs)

theorem Sound.streamFault {i code detail} (hs : Sound pend s) : Sound pend (s.streamFault i code detail) := by
  unfold State.streamFault
  exact .streamFaultAt hs

theorem Sound.countEcc {r t} (hs : Sound pend s) : Sound pend (s.countEcc r t) := by
  unfold State.countEcc
  exact .addSat hs

/-! ### Operands -/

theorem Sound.spadWrite {c off bs} (hs : Sound pend s) : Sound pend (s.spadWrite c off bs) := by
  unfold State.spadWrite
  exact .writeBytes hs

/-! ### Flags -/

theorem Sound.addNumFlags {c f} (hs : Sound pend s) : Sound pend (s.addNumFlags c f) := by
  unfold State.addNumFlags
  exact .setReg hs

end Sys2Proof.Machine
end

section
/-!
Soundness through the cells, the special-function units and the configuration store.
-/

namespace Sys2Proof.Machine
open Sys2Proof

-- One proof at a time: many short proofs at once ask for more threads than the stack limit leaves room for.
set_option Elab.async false

variable {pend : List Instr} {s t : State}

/-! ### Issue -/

theorem Sound.retire {c} (hs : Sound pend s) : Sound pend (s.retire c) := by
  unfold State.retire
  exact .setCell hs

theorem Sound.issue {c w e p eff} (hs : Sound pend s) (heff : ∀ s, Sound pend s → Sound pend (eff s).1) :
    Sound pend (s.issue c w e p eff) := by
  unfold State.issue
  refine .ite hs ?_
  split
  · exact .cellFault (.ite (.recordEcc hs) hs)
  · exact .retire (.setFld (.setCell (heff _ (.ite (.countEcc hs) hs))))

/-! ### Handover -/

theorem Sound.setScrubber {k x} (hs : Sound pend s) : Sound pend (s.setScrubber k x) := by
  unfold State.setScrubber
  exact .ofScrub hs (Sparse.wf_set _ _ _ _)

theorem Sound.handOver {c} (hs : Sound pend s) : Sound pend (s.handOver c) := by
  unfold State.handOver
  exact .ite (.setCell hs) (.unless (.setFld hs) (fun hs => .setFld hs))

theorem Sound.yieldPad {c} (hs : Sound pend s) : Sound pend (s.yieldPad c) := by
  unfold State.yieldPad
  exact .unless (.setCell (.ite (.setBlock hs) hs)) (fun hs => .handOver hs)

theorem Sound.finishYield {c} (hs : Sound pend s) : Sound pend (s.finishYield c) := by
  unfold State.finishYield
  exact .ite (.handOver hs) hs

/-! ### Instructions of a cell -/

theorem Sound.mmaEffect {c o} (hs : Sound pend s) : Sound pend (mmaEffect c o s).1 := by
  unfold Machine.mmaEffect
  dsimp only
  split
  · dsimp only
    split
    · exact .spadWrite (.addNumFlags (.setCell hs))
    · exact .addNumFlags (.setCell hs)
  · split
    · exact .undefineBytes hs
    · exact hs

theorem Answers.mma {c w o e} (hs : Sound pend s) : Answers pend (execMma c w o e s) := by
  unfold Machine.execMma
  exact .next (.ite (.issue hs (fun _ hs => .mmaEffect hs)) hs)

theorem Sound.vopEffect {c o} (hs : Sound pend s) : Sound pend (vopEffect c o s).1 := by
  unfold Machine.vopEffect
  exact .addNumFlags (.spadWrite hs)

theorem Answers.vop {c w o e} (hs : Sound pend s) : Answers pend (execVop c w o e s) := by
  unfold Machine.execVop
  exact .next (.ite (.issue hs (fun _ hs => .vopEffect hs)) hs)

theorem Sound.cvtEffect {c o} (hs : Sound pend s) : Sound pend (cvtEffect c o s).1 := by
  unfold Machine.cvtEffect
  dsimp only
  split
  · exact .addNumFlags (.spadWrite hs)
  · exact .addNumFlags (.spadWrite (.spadWrite hs))

theorem Answers.cvt {c w o e} (hs : Sound pend s) : Answers pend (execCvt c w o e s) := by
  unfold Machine.execCvt
  exact .next (.ite (.issue hs (fun _ hs => .cvtEffect hs)) hs)

theorem Answers.residueCheckReport {c lanes ok} (hs : Sound pend s) : Answers pend (execResidueCheckReport c lanes ok s) := by
  unfold Machine.execResidueCheckReport
  dsimp only
  split
  · exact .next hs
  · exact .ite (.next (.retire (.setCell hs))) (.next (.cellFault hs))

/-! ### Attention -/

theorem Sound.atsRow {c a d ks mask r} (hs : Sound pend s) : Sound pend (atsRow c a d ks mask s r) := by
  unfold Machine.atsRow
  exact .addNumFlags (.spadWrite (.setCell hs))

theorem Sound.atsEffect {c w} (hs : Sound pend s) : Sound pend (atsEffect c w s).1 := by
  unfold Machine.atsEffect
  exact .setBlock (.setCell (.foldl (fun _ _ hs => .atsRow hs) hs))

theorem Answers.ats {c w e} (hs : Sound pend s) : Answers pend (execAts c w e s) := by
  unfold Machine.execAts
  exact .next (.ite hs (.issue hs (fun _ hs => .atsEffect hs)))

theorem Sound.atvRow {c a d r} (hs : Sound pend s) : Sound pend (atvRow c a d s r) := by
  unfold Machine.atvRow
  exact .addNumFlags (.setCell hs)

theorem Sound.atvEffect {c w} (hs : Sound pend s) : Sound pend (atvEffect c w s).1 := by
  unfold Machine.atvEffect
  exact .foldl (fun _ _ hs => .atvRow hs) hs

theorem Answers.atv {c w e} (hs : Sound pend s) : Answers pend (execAtv c w e s) := by
  unfold Machine.execAtv
  exact .next (.ite hs (.issue hs (fun _ hs => .atvEffect hs)))

theorem Sound.partialEffect {c w} (hs : Sound pend s) : Sound pend (partialEffect c w s).1 := by
  unfold Machine.partialEffect
  exact .addNumFlags (.spadWrite hs)

theorem Answers.rowoutPartial {c w e} (hs : Sound pend s) : Answers pend (execRowoutPartial c w e s) := by
  unfold Machine.execRowoutPartial
  exact .next (.ite (.issue hs (fun _ hs => .partialEffect hs)) hs)

theorem Sound.writeRow {c a d r codes status} (hs : Sound pend s) : Sound pend (writeRow c a d r codes status s) := by
  unfold Machine.writeRow
  exact .spadWrite (.spadWrite hs)

theorem Sound.finalSlotRow {c a d r} (hs : Sound pend s) : Sound pend (finalSlotRow c a d s r) := by
  unfold Machine.finalSlotRow
  exact .addNumFlags (.writeRow hs)

theorem Answers.rowoutFinalSlots {c w e} (hs : Sound pend s) : Answers pend (execRowoutFinalSlots c w e s) := by
  unfold Machine.execRowoutFinalSlots
  exact .next (.ite (.issue hs (fun _ hs => .foldl (fun _ _ hs => .finalSlotRow hs) hs)) hs)

theorem Sound.finalSpadRow {c a d r} (hs : Sound pend s) : Sound pend (finalSpadRow c a d s r) := by
  unfold Machine.finalSpadRow
  exact .addNumFlags (.writeRow hs)

theorem Answers.rowoutFinalScratchpad {c w e} (hs : Sound pend s) : Answers pend (execRowoutFinalScratchpad c w e s) := by
  unfold Machine.execRowoutFinalScratchpad
  exact .next (.ite (.issue hs (fun _ hs => .foldl (fun _ _ hs => .finalSpadRow hs) hs)) hs)

theorem Sound.mergeEffect {c w} (hs : Sound pend s) : Sound pend (mergeEffect c w s).1 := by
  unfold Machine.mergeEffect
  exact .setBlock (.addNumFlags (.writeBytes hs))

theorem Answers.rowoutMerge {c w e} (hs : Sound pend s) : Answers pend (execRowoutMerge c w e s) := by
  unfold Machine.execRowoutMerge
  exact .next (.ite (.issue hs (fun _ hs => .mergeEffect hs)) hs)

theorem Sound.mergeRow {c m n r} (hs : Sound pend s) : Sound pend (mergeRow c m n s r) := by
  unfold Machine.mergeRow
  exact .addNumFlags (.setCell hs)

/-! ### The write path of the configuration store -/

/-- The write path drops upsets of the state before it, so it asks that state to be in canonical form as well. -/
theorem Sound.viaStore {q} (hs : Sound q s) (ht : Sound pend t) : Sound pend (s.viaStore t) := by
  have hkept : Sound pend { t with storeUpset := s.storeUpset.filter fun e => s.cleanWord e.1 == t.cleanWord e.1 } :=
    .ofStoreUpset ht fun _ => Sparse.wf_filter _ _ _ hs.wfStoreUpset
  exact .ite (.setReg hkept) hkept

theorem Sound.overUpset {r i v} (hs : Sound pend s) : Sound pend (s.overUpset r i v) := by
  unfold State.overUpset
  split
  · exact hs
  next w _ _ _ =>
    have hclean : Sound pend { s with storeUpset := Sparse.set (fun _ => 0) s.storeUpset w 0 } :=
      .ofStoreUpset hs (Sparse.wf_set _ _ w 0)
    exact .ite hs (.ite (.setReg hclean) hclean)

/-! ### The special-function unit -/

theorem Sound.sfnEffect {c w} (hs : Sound pend s) : Sound pend (sfnEffect c w s).1 := by
  unfold Machine.sfnEffect
  exact .setCell hs

theorem Sound.issueSfn {c w e} (hs : Sound pend s) : Sound pend (s.issueSfn c w e) := by
  unfold State.issueSfn
  exact .ite hs (.issue hs (fun _ hs => .sfnEffect hs))

theorem Answers.sfn {c w e} (hs : Sound pend s) : Answers pend (execSfn c w e s) := by
  unfold Machine.execSfn
  exact .next (.ite (.issueSfn hs) hs)

theorem Answers.sqacc {c w e} (hs : Sound pend s) : Answers pend (execSqacc c w e s) := by
  unfold Machine.execSqacc
  exact .next (.ite (.issueSfn hs) hs)

theorem Answers.rmsr {c w e} (hs : Sound pend s) : Answers pend (execRmsr c w e s) := by
  unfold Machine.execRmsr
  exact .next (.ite (.issueSfn hs) hs)

theorem Answers.mul3 {c w e} (hs : Sound pend s) : Answers pend (execMul3 c w e s) := by
  unfold Machine.execMul3
  exact .next (.ite (.issueSfn hs) hs)

theorem Sound.sfuFault {b kind cell detail} (hs : Sound pend s) : Sound pend (s.sfuFault b kind cell detail) := by
  unfold State.sfuFault
  exact .recordInfo hs

theorem Sound.passVector {b i job bad} (hs : Sound pend s) : Sound pend (s.passVector b i job bad) := by
  unfold State.passVector
  exact .setCell (.when (.setBlock (.ite hs (.addSat hs))) (fun hs => .same hs))

theorem Answers.sfnVectorGrant {b t} (hs : Sound pend s) : Answers pend (execSfnVectorGrant b t s) := by
  unfold Machine.execSfnVectorGrant
  refine .ite (.next hs) ?_
  split
  · exact .next hs
  · dsimp only
    split
    · exact .next (.setBlock hs)
    · split
      · exact .next (.cellFault (.sfuFault (.setBlock hs)))
      · split
        · exact .ite (.next (.cellFault (.sfuFault (.setBlock hs)))) (.next (.passVector (.setBlock hs)))
        · exact .next (.passVector (.setBlock hs))

theorem Sound.addSquares {c slot clear sum} (hs : Sound pend s) : Sound pend (s.addSquares c slot clear sum) := by
  unfold State.addSquares
  exact .addNumFlags (.setCell hs)

theorem Sound.deliver {c p} (hs : Sound pend s) : Sound pend (s.deliver c p) := by
  unfold State.deliver
  split
  · exact .spadWrite hs
  · exact .addSquares hs
  · exact .setCell (.spadWrite hs)

theorem Answers.sfnResult {c} (hs : Sound pend s) : Answers pend (execSfnResult c s) := by
  unfold Machine.execSfnResult
  dsimp only
  split
  · exact .next hs
  · exact .ite (.next (.setBlock hs)) (.next (.finishYield (.retire (.setCell (.addNumFlags (.deliver (.setBlock hs)))))))

theorem Answers.checkLaneMismatch {c lane} (hs : Sound pend s) : Answers pend (execCheckLaneMismatch c lane s) := by
  unfold Machine.execCheckLaneMismatch
  dsimp only
  split
  · exact .next hs
  · exact .next (.cellFault (.sfuFault hs))

theorem Sound.sfuInService {b} (hs : Sound pend s) : Sound pend (s.sfuInService b) := by
  unfold State.sfuInService
  exact .setFld (.setFld (.setFld (.setFld (.setBlock hs))))

theorem Sound.blockOut {b} (hs : Sound pend s) : Sound pend (s.blockOut b) := by
  unfold State.blockOut
  exact .foldl (fun _ _ hs => .setFld hs) (.setFld (.setBlock hs))

theorem Sound.sfuTestOnce {b t} (hs : Sound pend s) : Sound pend (s.sfuTestOnce b t).1 := by
  unfold State.sfuTestOnce
  dsimp only
  split
  · exact .setFld (.sfuFault (.setReg (.setBlock hs)))
  · split
    · exact .setFld (.sfuFault (.setFld (.setReg (.setBlock hs))))
    · exact .sfuInService (.setFld (.setReg (.setBlock hs)))

theorem Sound.sfuLoadTest {b t1 t2} (hs : Sound pend s) : Sound pend (s.sfuLoadTest b t1 t2) := by
  unfold State.sfuLoadTest
  exact .unless (.sfuTestOnce hs) (fun hs => .unless (.sfuTestOnce hs) (fun hs => .blockOut hs))

theorem Answers.sfuLoadTest {b t1 t2} (hs : Sound pend s) : Answers pend (execSfuLoadTest b t1 t2 s) := by
  unfold Machine.execSfuLoadTest
  exact .next (.ite (.sfuLoadTest hs) hs)

theorem Answers.sfuModeTest {a b} (hs : Sound pend s) : Answers pend (execSfuModeTest a b s) := by
  unfold Machine.execSfuModeTest
  exact .ite (.next hs) (.ite (.next (.logIgnored hs)) (.ite (.next hs) (.next (.setFld (.setBlock hs)))))

theorem Answers.sfuModeCompat {a b v} (hs : Sound pend s) : Answers pend (execSfuModeCompat a b v s) := by
  unfold Machine.execSfuModeCompat
  exact .ite (.next hs) (.ite (.next (.logIgnored hs)) (.next (.viaStore hs (.setBit (.setBit hs)))))

/-! ### Control of a cell -/

theorem Sound.advance {c} (hs : Sound pend s) : Sound pend (s.advance c) := by
  unfold State.advance
  exact .setFld (.setCell hs)

theorem Answers.waitSem {c w} (hs : Sound pend s) : Answers pend (execWaitSem c w s) := by
  unfold Machine.execWaitSem
  refine .ite (.next hs) ?_
  dsimp only
  split
  · exact .next (.cellFault hs)
  · exact .ite (.next (.cellFault hs)) (.ite (.next (.advance (.setCell hs))) (.next (.setFld (.setCell hs))))

theorem Answers.postSem {c w} (hs : Sound pend s) : Answers pend (execPostSem c w s) := by
  unfold Machine.execPostSem
  refine .ite (.next hs) ?_
  dsimp only
  split
  · exact .next (.cellFault hs)
  · refine .ite (.next (.cellFault hs)) ?_
    refine .ite ?_ (.next (.advance (.setCell hs)))
    split
    · exact .next (.streamFault (.advance hs))
    · exact .next (.advance hs)

theorem Sound.control {c k w f} (hs : Sound pend s) (hf : ∀ s, Sound pend s → Sound pend (f s)) : Sound pend (s.control c k w f) := by
  unfold State.control
  exact .ite hs (.ite (.cellFault hs) (hf _ hs))

theorem Sound.goTo {c n loops} (hs : Sound pend s) : Sound pend (s.goTo c n loops) := by
  unfold State.goTo
  exact .setFld (.setCell hs)

theorem Answers.cellLoop {c w count target} (hs : Sound pend s) : Answers pend (execCellLoop c w count target s) := by
  unfold Machine.execCellLoop
  exact .next (.control hs (fun _ hs => .ite (.goTo hs) (.goTo hs)))

theorem Answers.cellJump {c w target} (hs : Sound pend s) : Answers pend (execCellJump c w target s) := by
  unfold Machine.execCellJump
  exact .next (.control hs (fun _ hs => .goTo hs))

theorem Answers.cellEnd {c w} (hs : Sound pend s) : Answers pend (execCellEnd c w s) := by
  unfold Machine.execCellEnd
  exact .next (.control hs (fun _ hs => .setFld (.setCell hs)))

theorem Sound.carryTile {c t} (hs : Sound pend s) : Sound pend (s.carryTile c t) := by
  unfold State.carryTile
  dsimp only
  split
  · split
    · exact .when (.foldl (fun _ _ hs => .spadWrite hs) hs) (fun hs => .setStream hs)
    · exact .foldl (fun _ _ hs => .spadWrite hs) hs
  · exact .foldl (fun _ _ hs => .spadWrite hs) hs

theorem Sound.handBack {c} (hs : Sound pend s) : Sound pend (s.handBack c) := by
  unfold State.handBack
  exact .ite (.unless (.setFld (.setCell hs)) (fun hs => .setFld hs)) (.when (.setFld (.setCell hs)) (fun hs => .setFld hs))

theorem Sound.scrubTile {c} (hs : Sound pend s) : Sound pend (s.scrubTile c) := by
  unfold State.scrubTile
  exact .setScrubber hs

theorem Sound.moveHeld {c} (hs : Sound pend s) : Sound pend (s.moveHeld c) := by
  unfold State.moveHeld
  refine .ite (.handBack (.ite (.scrubTile hs) hs)) ?_
  split
  · exact .handBack hs
  · exact .ite hs (.handBack (.setCell (.carryTile hs)))

theorem Answers.transferTile {c} (hs : Sound pend s) : Answers pend (execTransferTile c s) := by
  unfold Machine.execTransferTile
  exact .ite (.next (.moveHeld hs)) (.ite (.next hs)
      (.ite (.next (.ite (.scrubTile hs) hs)) (.next (.unless (.yieldPad hs) (fun hs => .moveHeld hs)))))

theorem Answers.quantumMet {c} (hs : Sound pend s) : Answers pend (execQuantumMet c s) := by
  unfold Machine.execQuantumMet
  exact .ite (.next hs) (.next (.yieldPad hs))

end Sys2Proof.Machine
end

section
/-!
Soundness through memory tiers, messages, streams and the sundial.
-/

namespace Sys2Proof.Machine
open Sys2Proof

-- One proof at a time: many short proofs at once ask for more threads than the stack limit leaves room for.
set_option Elab.async false

variable {pend : List Instr} {s t : State}

/-! ### Memory commands -/

theorem Answers.eccReport (hs : Sound pend s) : Answers pend (execEccReport s) := by
  unfold Machine.execEccReport
  refine .byService hs ?_
  split
  · exact .next hs
  · dsimp only
    split
    · exact .next hs
    · exact .ite (.next (.requestReset (.setBit hs))) (.next hs)

theorem Sound.scrubStatus {r t} (hs : Sound pend s) : Sound pend (s.scrubStatus r t) := by
  unfold State.scrubStatus
  exact .setFld (.setBit hs)

theorem Answers.scrubPassStart {k} (hs : Sound pend s) : Answers pend (execScrubPassStart k s) := by
  unfold Machine.execScrubPassStart
  exact .ite (.next hs) (.next (.scrubStatus (.setScrubber hs)))

theorem Answers.scrubPromote {k} (hs : Sound pend s) : Answers pend (execScrubPromote k s) := by
  unfold Machine.execScrubPromote
  exact .ite (.next hs) (.next (.scrubStatus (.setScrubber hs)))

theorem Sound.scrubFind {e} (hs : Sound pend s) : Sound pend (s.scrubFind e) := by
  unfold State.scrubFind
  split
  · exact hs
  · exact .ite (.unless (.recordEcc hs) (fun hs => .setPoison hs)) (.countEcc hs)

theorem Sound.scrubStep {k} (hs : Sound pend s) : Sound pend (s.scrubStep k) := by
  unfold State.scrubStep
  exact .when (.ite (.setBit hs) hs) (fun hs => .scrubStatus (.setScrubber hs))

theorem Sound.scrubTick (hs : Sound pend s) : Sound pend s.scrubTick := by
  unfold State.scrubTick
  exact .foldl (fun _ _ hs => .scrubStep hs) hs

theorem Answers.scrubPassEnd {k found} (hs : Sound pend s) : Answers pend (execScrubPassEnd k found s) := by
  unfold Machine.execScrubPassEnd
  exact .ite (.next hs) (.next (.scrubStatus (.when
      (.stepFld (.setScrubber (.foldl (fun _ _ hs => .scrubFind hs) hs))) (fun hs => .setBit hs))))

theorem Answers.memColdSegWrite {a j v} (hs : Sound pend s) : Answers pend (execMemColdSegWrite a j v s) := by
  unfold Machine.execMemColdSegWrite
  exact .ite (.next (.logIgnored hs)) (.ite (.next (.logIgnored hs)) (.next (.viaStore hs (.setReg hs))))

/-! ### Messages -/

theorem Sound.setPhy {l y} (hs : Sound pend s) : Sound pend (s.setPhy l y) := by
  unfold State.setPhy
  exact .ofPhys hs (Sparse.wf_set _ _ _ _)

theorem Sound.pumpGo {l n} (hs : Sound pend s) : Sound pend (State.pumpGo l n s) := by
  induction n generalizing s with
  | zero => exact hs
  | succ n ih =>
    unfold State.pumpGo
    split
    · exact hs
    · exact ih (.same (.setPhy hs))

theorem Sound.pump {l} (hs : Sound pend s) : Sound pend (s.pump l) := by
  unfold State.pump
  exact .ite (.pumpGo hs) hs

theorem Sound.enqueue {l m} (hs : Sound pend s) : Sound pend (s.enqueue l m) := by
  unfold State.enqueue
  exact .pump (.setPhy hs)

theorem Sound.send {m} (hs : Sound pend s) : Sound pend (s.send m) := by
  unfold State.send
  split
  · exact .enqueue hs
  · exact hs

theorem Sound.sendParts {m} (hs : Sound pend s) : Sound pend (s.sendParts m) := by
  unfold State.sendParts
  exact .foldl (fun _ _ hs => .send hs) hs

theorem Sound.askBytes {who plot gen chip a n sinks epoch wepoch bg} (hs : Sound pend s) :
    Sound pend (s.askBytes who plot gen chip a n sinks epoch wepoch bg) := by
  unfold State.askBytes
  exact .send hs

theorem Sound.askParts {who plot gen chip a n sinks word epoch wepoch bg} (hs : Sound pend s) :
    Sound pend (s.askParts who plot gen chip a n sinks word epoch wepoch bg) := by
  unfold State.askParts
  exact .foldl (fun _ _ hs => .askBytes hs) hs

theorem Sound.writeParts {who m} (hs : Sound pend s) : Sound pend (s.writeParts who m) := by
  unfold State.writeParts
  exact .foldl (fun _ _ hs => .send hs) hs

theorem Sound.sendLink {l m} (hs : Sound pend s) : Sound pend (s.sendLink l m) := by
  unfold State.sendLink
  exact hs

theorem Sound.sendPort {q m} (hs : Sound pend s) : Sound pend (s.sendPort q m) := by
  unfold State.sendPort
  exact hs

theorem Sound.forward {kind m} (hs : Sound pend s) : Sound pend (s.forward kind m) := by
  unfold State.forward
  dsimp only
  split
  · exact .ite hs (.enqueue hs)
  · exact hs

theorem Sound.arriving {kind m f} (hs : Sound pend s) (hf : ∀ s, Sound pend s → Sound pend (f s)) : Sound pend (s.arriving kind m f) := by
  unfold State.arriving
  exact .ite hs (.ite (.logEvent hs) (.ite (hf _ hs) (.forward hs)))

theorem Sound.countStale (hs : Sound pend s) : Sound pend s.countStale := by
  unfold State.countStale
  exact .addSat hs

theorem Sound.setLink {l x} (hs : Sound pend s) : Sound pend (s.setLink l x) := by
  unfold State.setLink
  exact .ofSync hs (Sparse.wf_set _ _ _ _)

/-! ### Stream contexts -/

theorem Sound.armPairs {i tid t} (hs : Sound pend s) : Sound pend (s.armPairs i tid t) := by
  unfold State.armPairs
  exact .foldl (fun _ _ hs => .setCell hs) hs

theorem Sound.armStream {tid i t} (hs : Sound pend s) : Sound pend (s.armStream tid i t) := by
  unfold State.armStream
  exact .engineStatus (.when (.setReg (.armPairs (.same (.setStream hs)))) (fun hs => .stepFld hs))

theorem Sound.meter {tid k n} (hs : Sound pend s) : Sound pend (s.meter tid k n).2 := by
  unfold State.meter
  dsimp only
  split
  · exact hs
  · exact .setTask hs

/-! ### Streams -/

theorem Sound.putStream {i t st} (hs : Sound pend s) : Sound pend (s.putStream i t st) := by
  unfold State.putStream
  exact .setFld (.setFld (.setStream hs))

theorem Sound.nextWord {i t} (hs : Sound pend s) : Sound pend (s.nextWord i t) := by
  unfold State.nextWord
  exact .putStream hs

theorem Sound.mapPair {i t f c} (hs : Sound pend s) : Sound pend (s.mapPair i t f c) := by
  unfold State.mapPair
  split
  · exact hs
  · exact .setCell hs

theorem Sound.postTransfer {c q} (hs : Sound pend s) : Sound pend (s.postTransfer c q) := by
  unfold State.postTransfer
  exact .setCell hs

theorem Sound.takeTile {i t} (hs : Sound pend s) : Sound pend (s.takeTile i t) := by
  unfold State.takeTile
  exact .ite hs (.when (.foldl (fun _ _ hs => .mapPair hs) hs) (fun hs => .foldl (fun _ _ hs => .postTransfer hs) hs))

theorem Sound.sendTile {i t u} (hs : Sound pend s) : Sound pend (s.sendTile i t u).1 := by
  unfold State.sendTile
  dsimp only
  split
  · exact hs
  · exact .ite (.foldl (fun _ _ hs => .postTransfer hs) hs) hs

theorem Sound.closeTile {i t} (hs : Sound pend s) : Sound pend (s.closeTile i t).1 := by
  unfold State.closeTile
  dsimp only
  split
  · exact hs
  · exact .sendTile hs

theorem Sound.meterAt {t r n} (hs : Sound pend s) : Sound pend (s.meterAt t r n).2 := by
  unfold State.meterAt
  split
  · exact .meter hs
  · exact hs

theorem Sound.sendWrite {i t r chip a bg bs} (hs : Sound pend s) : Sound pend (s.sendWrite i t r chip a bg bs) := by
  unfold State.sendWrite
  exact .writeParts hs

theorem Sound.sendRead {i t r rd chip a n sinks bg} (hs : Sound pend s) : Sound pend (s.sendRead i t r rd chip a n sinks bg) := by
  unfold State.sendRead
  exact .askParts hs

theorem Sound.touch {i k a n} (hs : Sound pend s) : Sound pend (s.touch i k a n) := by
  unfold State.touch
  split
  · exact .ite hs (.setStream hs)
  · exact hs

theorem Sound.fillCur {i o bs} (hs : Sound pend s) : Sound pend (s.fillCur i o bs) := by
  unfold State.fillCur
  split
  · exact .setStream hs
  · exact hs

theorem Leaves.landBytes {i t d dst m bs} (hs : Sound pend s) : Leaves pend (s.landBytes i t d dst m bs) := by
  unfold State.landBytes
  refine .ite ?_ ?_
  · split
    · refine .ite (.fault hs) ?_
      split
      · exact .fault (.touch (.recordEcc (.ofFst (.storeBytes hs) ‹_›)))
      · exact .ok (.touch (.ofFst (.storeBytes hs) ‹_›))
    · exact .ite (.fault hs) (.ok (.unless (.ite hs (.sendWrite hs)) (fun hs => .sendWrite hs)))
    · exact .ok hs
  · refine .ite ?_ (.ok (.fillCur hs))
    split
    · exact .ok (.setStream hs)
    · exact .ok hs

theorem Sound.readError {a kind ended} (hs : Sound pend s) : Sound pend (s.readError a kind ended) := by
  unfold State.readError
  dsimp only
  split
  · exact .requestReset (.recordEcc hs)
  · exact .requestReset (.recordEcc hs)
  · exact .setPoison (.recordEcc hs)
  · exact .setPoison (.recordEcc hs)
  · exact .recordEcc hs

theorem Sound.countEccAt {a n} (hs : Sound pend s) : Sound pend (s.countEccAt a n) := by
  unfold State.countEccAt
  split
  · exact .ite hs (.addSat hs)
  · exact hs

theorem Sound.storeBad {a line bs} (hs : Sound pend s) : Sound pend (s.storeBad a line bs) := by
  unfold State.storeBad
  exact .storeBytes (.when (.setPoison (.recordEcc hs)) (fun hs => .storeBytes hs))

theorem Leaves.movePart {i t rs rd src dst n done e} (hs : Sound pend s) : Leaves pend (s.movePart i t rs rd src dst n done e) := by
  unfold State.movePart
  dsimp only
  split
  · exact .landBytes (.meterAt (.meterAt hs))
  · exact .fault (.meterAt (.meterAt hs))
  · split
    · exact .fault (.recordEcc (.meterAt (.meterAt hs)))
    · split
      · exact .ite (.fault (.readError (.meterAt (.meterAt hs)))) (.landBytes (.meterAt (.meterAt hs)))
      · split
        · exact .fault (.meterAt (.meterAt hs))
        · exact .landBytes (.meterAt (.meterAt hs))
      · refine .landBytes ?_
        split
        · exact .when (.when (.meterAt (.meterAt hs)) (fun hs => .countEccAt hs)) (fun hs => .countEccAt hs)
        · exact .when (.meterAt (.meterAt hs)) (fun hs => .countEccAt hs)
      · split
        · exact .ite (.fault (.touch (.storeBad (.meterAt (.meterAt hs))))) (.landBytes (.meterAt (.meterAt hs)))
        · exact .landBytes (.meterAt (.meterAt hs))
      · exact .landBytes (.meterAt (.meterAt hs))
  · refine .ite (.fault (.meterAt (.meterAt hs))) ?_
    refine .ite ?_ (.ok (.unless (.unless (.meterAt (.meterAt hs)) (fun hs => .sendRead hs)) (fun hs => .sendRead hs)))
    split
    · exact .ok (.setStream (.unless (.unless (.meterAt (.meterAt hs)) (fun hs => .sendRead hs)) (fun hs => .sendRead hs)))
    · exact .ok (.unless (.unless (.meterAt (.meterAt hs)) (fun hs => .sendRead hs)) (fun hs => .sendRead hs))

theorem Sound.takeHub {k} (hs : Sound pend s) : Sound pend (s.takeHub k) := by
  unfold State.takeHub
  exact hs

theorem Sound.takeMem {b p} (hs : Sound pend s) : Sound pend (s.takeMem b p) := by
  unfold State.takeMem
  exact .setBlock hs

theorem Sound.noteGrant {i t m} (hs : Sound pend s) : Sound pend (s.noteGrant i t m) := by
  unfold State.noteGrant
  refine .foldl (fun _ _ hs => ?_) (.ite (.takeHub hs) hs)
  split
  · exact .takeMem hs
  · exact hs

theorem Sound.openTile {i t} (hs : Sound pend s) : Sound pend (s.openTile i t) := by
  unfold State.openTile
  exact .putStream (.ite hs (.takeTile hs))

theorem Sound.advanceMove {i n} (hs : Sound pend s) : Sound pend (s.advanceMove i n) := by
  unfold State.advanceMove
  split
  · exact hs
  · exact .ite (.setStream (.closeTile hs)) (.setStream hs)

theorem Sound.moveLoop {n i e} (hs : Sound pend s) : Sound pend (State.moveLoop n s i e) := by
  induction n generalizing s with
  | zero => exact hs
  | succ n ih =>
    unfold State.moveLoop
    split
    · exact hs
    · split
      · exact hs
      · refine .ite hs (.ite (.streamFault hs) (.ite (.putStream hs) (.ite (.setBit hs) (.ite hs (.ite (.openTile hs) ?_)))))
        extract_lets u part
        have hu : Sound pend u := .openTile (.noteGrant hs)
        have hpart : Leaves pend part := by
          unfold part
          split
          · exact .fault hu
          · exact .fault hu
          · exact .movePart hu
        clear_value part
        cases part with
        | fault v c d => exact .streamFault hpart
        | ok v => exact ih (.advanceMove hpart)

theorem Sound.moveDone {i len inc} (hs : Sound pend s) : Sound pend (s.moveDone i len inc) := by
  unfold State.moveDone
  split
  · exact hs
  · exact .ite hs (.nextWord hs)

theorem Sound.runMove {i op e} (hs : Sound pend s) : Sound pend (s.runMove i op e) := by
  unfold State.runMove
  split
  · exact hs
  · exact .ite (.streamFault hs) (.moveDone (.moveLoop hs))

theorem Answers.moveBytes {i e} (hs : Sound pend s) : Answers pend (execMoveBytes i e s) := by
  unfold Machine.execMoveBytes
  exact .next (.runMove hs)

theorem Answers.zeroBytes {i} (hs : Sound pend s) : Answers pend (execZeroBytes i s) := by
  unfold Machine.execZeroBytes
  exact .next (.runMove hs)

theorem Answers.progLoop {i} (hs : Sound pend s) : Answers pend (execProgLoop i s) := by
  unfold Machine.execProgLoop
  split
  · exact .next hs
  · exact .ite (.next (.nextWord hs)) (.next (.nextWord hs))

theorem Answers.nextLoop {i} (hs : Sound pend s) : Answers pend (execNextLoop i s) := by
  unfold Machine.execNextLoop
  split
  · exact .next hs
  · split
    · exact .next (.nextWord hs)
    · exact .ite (.next (.nextWord hs)) (.next (.nextWord hs))

theorem Answers.seta {i} (hs : Sound pend s) : Answers pend (execSeta i s) := by
  unfold Machine.execSeta
  split
  · exact .next hs
  · exact .ite (.next (.nextWord hs)) (.next (.nextWord hs))

theorem Answers.adda {i} (hs : Sound pend s) : Answers pend (execAdda i s) := by
  unfold Machine.execAdda
  split
  · exact .next hs
  · exact .next (.nextWord hs)

theorem Answers.flush {i} (hs : Sound pend s) : Answers pend (execFlush i s) := by
  unfold Machine.execFlush
  split
  · exact .next hs
  · exact .next (.nextWord (.closeTile hs))

theorem Answers.idx {i} (hs : Sound pend s) : Answers pend (execIdx i s) := by
  unfold Machine.execIdx
  split
  · exact .next hs
  · split
    · exact .ite (.next (.streamFault hs)) (.next (.putStream hs))
    · exact .next (.nextWord hs)

theorem Sound.checkRead {t a n e} (hs : Sound pend s) : Sound pend (s.checkRead t a n e).1 := by
  unfold State.checkRead
  split
  · exact .recordEcc hs
  · split
    · exact .readError hs
    · exact .ite (.countEccAt hs) hs

theorem Sound.feedQueue {i} (hs : Sound pend s) : Sound pend (s.feedQueue i) := by
  unfold State.feedQueue
  split
  · exact hs
  · split
    · exact hs
    · split
      · exact hs
      · exact .setStream hs

theorem Answers.page {i e} (hs : Sound pend s) : Answers pend (execPage i e s) := by
  unfold Machine.execPage
  dsimp only
  split
  · exact .next (.feedQueue hs)
  · split
    · exact .next (.streamFault (.ofFst (.checkRead (.feedQueue hs)) ‹_›))
    · split
      · exact .ite (.next (.streamFault (.ofFst (.checkRead (.feedQueue hs)) ‹_›)))
            (.next (.putStream (.ofFst (.checkRead (.feedQueue hs)) ‹_›)))
      · exact .ite (.next (.streamFault (.ofFst (.checkRead (.feedQueue hs)) ‹_›)))
            (.next (.nextWord (.ofFst (.checkRead (.feedQueue hs)) ‹_›)))

theorem Sound.trailCell {i t d bytes c} (hs : Sound pend s) : Sound pend (s.trailCell i t d bytes c) := by
  unfold State.trailCell
  exact .when (.touch (.postTransfer hs)) (fun hs => .touch (.writeBytes hs))

theorem Answers.trail {i header e} (hs : Sound pend s) : Answers pend (execTrail i header e s) := by
  unfold Machine.execTrail
  split
  · exact .next hs
  · split
    · exact .next (.streamFault hs)
    · dsimp only
      split
      · exact .next (.streamFault (.ofFst (.checkRead hs) ‹_›))
      · split
        · exact .next (.nextWord (.ofFst (.checkRead hs) ‹_›))
        · split
          · exact .next (.streamFault (.ofFst (.checkRead hs) ‹_›))
          · exact .next (.foldl (fun _ _ hs => .trailCell hs) (.nextWord (.ofFst (.checkRead hs) ‹_›)))

theorem Sound.finishRun {i t} (hs : Sound pend s) : Sound pend (s.finishRun i t) := by
  unfold State.finishRun
  exact .ite (.setFld (.setStream hs)) (.endStream (.ite hs hs))

theorem Answers.progEnd {i} (hs : Sound pend s) : Answers pend (execProgEnd i s) := by
  unfold Machine.execProgEnd
  split
  · exact .next hs
  · exact .ite (.next (.finishRun (.closeTile hs))) (.next (.putStream (.closeTile hs)))

theorem Answers.tileComplete {i} (hs : Sound pend s) : Answers pend (execTileComplete i s) := by
  unfold Machine.execTileComplete
  split
  · exact .next hs
  · split
    · exact .next hs
    next t _ _ u later _ =>
      refine .ite (.next hs) ?_
      extract_lets v t'
      have hv : Sound pend v := .ite hs (.foldl (fun _ _ hs => .mapPair hs) hs)
      clear_value v
      split
      next w x hw =>
        have hw : Sound pend w := by
          split at hw
          · split at hw <;> cases hw
            · exact .setStream hv
            · exact hv
          · cases hw
            exact hv
        exact .ite (.next (.finishRun hw)) (.next (.setStream hw))

theorem Sound.markUnsync {p} (hs : Sound pend s) : Sound pend (s.markUnsync p) := by
  unfold State.markUnsync
  exact .ite (.setBit hs) hs

theorem Sound.startRun {e} (hs : Sound pend s) : Sound pend (s.startRun e) := by
  unfold State.startRun
  exact .stepFld (.putStream (.ite hs (.markUnsync hs)))

theorem Answers.persistentRun {i e} (hs : Sound pend s) : Answers pend (execPersistentRun i e s) := by
  unfold Machine.execPersistentRun
  split
  · exact .next hs
  · refine .ite (.next hs) ?_
    split
    · exact .next (.streamFault (.ofFst (.checkRead hs) ‹_›))
    · exact .next (.foldl (fun _ _ hs => .startRun hs) (.ofFst (.checkRead hs) ‹_›))

theorem Answers.backgroundPromotion {i} (hs : Sound pend s) : Answers pend (execBackgroundPromotion i s) := by
  unfold Machine.execBackgroundPromotion
  split
  · exact .next hs
  · exact .ite (.next hs) (.next (.setStream hs))

theorem Answers.slotMeter (hs : Sound pend s) : Answers pend (execSlotMeter s) := by
  unfold Machine.execSlotMeter
  exact .ite (.next hs) (.next hs)

theorem Answers.remoteTimeout {i} (hs : Sound pend s) : Answers pend (execRemoteTimeout i s) := by
  unfold Machine.execRemoteTimeout
  split
  · exact .next hs
  · split
    · exact .next hs
    · exact .next (.streamFaultAt hs)

theorem Answers.chainTile {i} (hs : Sound pend s) : Answers pend (execChainTile i s) := by
  unfold Machine.execChainTile
  split
  · exact .next hs
  · refine .ite (.next hs) ?_
    refine .next ?_
    refine .foldl (fun _ _ hs => ?_) hs
    split
    · exact hs
    · exact .handBack (.setCell (.carryTile hs))

/-! ### Block memories -/

theorem Answers.maskTileFetch {c e} (hs : Sound pend s) : Answers pend (execMaskTileFetch c e s) := by
  unfold Machine.execMaskTileFetch
  dsimp only
  split
  · exact .next hs
  · exact .ite (.next hs) (.ite (.next (.cellFault (.recordEcc (.takeMem hs))))
        (.next (.setBlock (.when (.takeMem hs) (fun hs => .countEcc hs)))))

theorem Sound.mergeRows {c m} (hs : Sound pend s) : Sound pend (s.mergeRows c m) := by
  unfold State.mergeRows
  exact .retire (.setCell (.setBlock (.foldl (fun _ _ hs => .mergeRow hs) hs)))

theorem Answers.blockMerge {c e} (hs : Sound pend s) : Answers pend (execBlockMerge c e s) := by
  unfold Machine.execBlockMerge
  dsimp only
  split
  · exact .next hs
  · exact .ite (.next hs) (.ite (.next (.cellFault (.recordEcc (.takeMem hs))))
        (.next (.mergeRows (.when (.takeMem hs) (fun hs => .countEcc hs)))))

/-! ### The sundial -/

theorem Sound.chooseParent (hs : Sound pend s) : Sound pend s.chooseParent := by
  unfold State.chooseParent
  refine .ite hs ?_
  split
  · exact .ite (.setFld (.setBit (.setFld (.setFld hs)))) (.setFld hs)
  · exact .ite (.setFld (.setFld (.setFld hs))) hs

theorem Sound.stepBy {theta} (hs : Sound pend s) : Sound pend (s.stepBy theta) := by
  unfold State.stepBy
  exact hs

theorem Sound.dropWork (hs : Sound pend s) : Sound pend s.dropWork := by
  unfold State.dropWork
  exact .foldl (fun _ _ hs => .ite (.setBit hs) hs) (.same (.foldl (fun _ _ hs => .abortTask hs) hs))

theorem Answers.sundialJoin {l} (hs : Sound pend s) : Answers pend (execSundialJoin l s) := by
  unfold Machine.execSundialJoin
  exact .ite (.next hs) (.next (.chooseParent (.setFld (.stepBy hs))))

theorem Sound.settleRoot (hs : Sound pend s) : Sound pend s.settleRoot := by
  unfold State.settleRoot
  refine .ite hs ?_
  dsimp only
  split
  · exact .when (.setFld (.setFld (.setFld (.setBit hs)))) (fun hs => .same hs)
  · exact .setFld (.setFld (.setFld (.setBit hs)))

theorem Answers.syncExchange {l} (hs : Sound pend s) : Answers pend (execSyncExchange l s) := by
  unfold Machine.execSyncExchange
  exact .ite (.next hs) (.next (.sendLink (.setLink hs)))

theorem Sound.badExchange {l} (hs : Sound pend s) : Sound pend (s.badExchange l) := by
  unfold State.badExchange
  exact .when (.setLink (.setFld hs)) (fun hs => .chooseParent (.logEvent (.setFld hs)))

theorem Sound.goodExchange {l theta delta} (hs : Sound pend s) : Sound pend (s.goodExchange l theta delta) := by
  unfold State.goodExchange
  exact .chooseParent (.ite (.when (.setFld (.setLink hs)) (fun hs => .setFld hs))
      (.ite (.setFld (.setFld (.setLink hs))) (.when (.setFld (.setLink hs)) (fun hs => .setFld hs))))

theorem Sound.judge {l t1 t2 t3 t4} (hs : Sound pend s) : Sound pend (s.judge l t1 t2 t3 t4) := by
  unfold State.judge
  exact .ite (.badExchange hs) (.ite (.setLink (.stepBy (.ite (.dropWork hs) hs)))
      (.ite (.badExchange (.ite hs hs)) (.goodExchange (.ite hs hs))))

theorem Answers.syncFlit {l f} (hs : Sound pend s) : Answers pend (execSyncFlit l f s) := by
  unfold Machine.execSyncFlit
  refine .ite (.next hs) ?_
  refine .ite ?_ (.next (.sendLink (.unless (.setLink hs) (fun hs => .logEvent hs))))
  split
  · exact .next (.unless (.setLink hs) (fun hs => .logEvent hs))
  · exact .ite (.next (.judge (.unless (.setLink hs) (fun hs => .logEvent hs)))) (.next (.unless (.setLink hs) (fun hs => .logEvent hs)))

theorem Answers.exchangeMiss {l} (hs : Sound pend s) : Answers pend (execExchangeMiss l s) := by
  unfold Machine.execExchangeMiss
  dsimp only
  split
  · exact .next hs
  · exact .ite (.next hs) (.next (.badExchange hs))

theorem Answers.linkDormant {l} (hs : Sound pend s) : Answers pend (execLinkDormant l s) := by
  unfold Machine.execLinkDormant
  exact .ite (.next (.setLink (.setFld hs))) (.next hs)

theorem Answers.sdlTimeLowRead {a} (hs : Sound pend s) : Answers pend (execSdlTimeLowRead a s) := by
  unfold Machine.execSdlTimeLowRead
  exact .next (.ofLatch hs (Sparse.wf_set _ _ _ _))

end Sys2Proof.Machine
end

section
/-!
Soundness through the key-value manager.
-/

namespace Sys2Proof.Machine
open Sys2Proof

-- One proof at a time: many short proofs at once ask for more threads than the stack limit leaves room for.
set_option Elab.async false

variable {pend : List Instr} {s t : State}

/-! ### Pages and frames -/

theorem Sound.setPool {p t x} (hs : Sound pend s) : Sound pend (s.setPool p t x) := by
  unfold State.setPool
  exact .ofPools hs (Sparse.wf_set _ _ _ _)

theorem Sound.putFrame {a size f} (hs : Sound pend s) : Sound pend (s.putFrame a size f) := by
  unfold State.putFrame
  exact hs

theorem Sound.allocFrame {p i order use seqNo region a} (hs : Sound pend s)
    (e : s.allocFrame p i order use seqNo region = some (a, t)) : Sound pend t := by
  unfold State.allocFrame at e
  split at e
  · cases e
  · dsimp only at e
    split at e
    · cases e
    · split at e
      · cases e
      · cases e
        exact .setPool (.putFrame hs)

theorem Sound.freeFrame {a} (hs : Sound pend s) : Sound pend (s.freeFrame a) := by
  unfold State.freeFrame
  split
  · exact hs
  · exact .ite hs (.setPool hs)

theorem Sound.drainFrame {p a hold} (hs : Sound pend s) : Sound pend (s.drainFrame p a hold) := by
  unfold State.drainFrame
  split
  · exact hs
  · exact .same (.setPool hs)

theorem Sound.badFree {p kind h} (hs : Sound pend s) : Sound pend (s.badFree p kind h) := by
  unfold State.badFree
  exact .logEvent (.recordInfo (.addSat hs))

theorem Sound.setSeq {p n q} (hs : Sound pend s) : Sound pend (s.setSeq p n q) := by
  unfold State.setSeq
  exact hs

theorem Sound.setPte {q v e} (hs : Sound pend s) : Sound pend (s.setPte q v e) := by
  unfold State.setPte
  split
  · exact .putLe hs
  · exact hs

theorem Sound.needLeaf {p n q v} (hs : Sound pend s) (e : s.needLeaf p n q v = some t) : Sound pend t := by
  unfold State.needLeaf at e
  split at e
  · cases e
    exact hs
  · split at e
    · cases e
    · cases e
      exact .putLe (.clearRange (.allocFrame hs ‹_›))

theorem Sound.mapNew {p n q v} (hs : Sound pend s) (e : s.mapNew p n q v = some t) : Sound pend t := by
  unfold State.mapNew at e
  split at e
  · cases e
    exact hs
  · split at e
    · cases e
    next u hu =>
      split at e
      · cases e
      next a w hw =>
        cases e
        have hw : Sound pend w := .allocFrame (.needLeaf hs hu) hw
        refine .setPte ?_
        split
        · exact .same hw
        · exact hw

theorem Sound.mapAll {p n q vs} (hs : Sound pend s) (e : s.mapAll p n q vs = some t) : Sound pend t := by
  induction vs generalizing s with
  | nil =>
    cases e
    exact hs
  | cons v vs ih =>
    unfold State.mapAll at e
    split at e
    · cases e
    · exact ih (.mapNew hs ‹_›) e

theorem Sound.peerBytes {n} (hs : Sound pend s) : Sound pend (s.peerBytes n).2 := by
  unfold State.peerBytes
  exact hs

theorem Sound.pageRead {e off n} (hs : Sound pend s) : Sound pend (s.pageRead e off n).2 := by
  unfold State.pageRead
  split
  · exact .peerBytes hs
  · exact hs

theorem Sound.pageWrite {p e off bs} (hs : Sound pend s) : Sound pend (s.pageWrite p e off bs) := by
  unfold State.pageWrite
  exact .ite (.sendParts hs) (.putBytes hs)

/-! ### The command ring -/

theorem Sound.refusedWrite {a offset} (hs : Sound pend s) : Sound pend (s.refusedWrite a offset) := by
  unfold State.refusedWrite
  split
  · exact .logIgnored hs
  · exact hs

theorem Sound.flushGo {p os blocked} (hs : Sound pend s) : Sound pend (State.flushGo p os blocked s) := by
  induction os generalizing s blocked with
  | nil => exact hs
  | cons o os ih =>
    unfold State.flushGo
    refine .ite (ih hs) ?_
    split
    · exact ih hs
    · exact .ite (ih hs) (ih (.complete hs))

theorem Sound.flush {p} (hs : Sound pend s) : Sound pend (s.flush p) := by
  unfold State.flush
  exact .flushGo hs

theorem Sound.finish {id status result} (hs : Sound pend s) : Sound pend (s.finish id status result) := by
  unfold State.finish
  split
  · exact hs
  · exact .flush hs

theorem Sound.finishOpen {id status} (hs : Sound pend s) : Sound pend (s.finishOpen id status) := by
  unfold State.finishOpen
  exact .finish (.fresh hs)

theorem Sound.takeHead {p c} (hs : Sound pend s) (e : s.takeHead p = some (c, t)) : Sound pend t := by
  unfold State.takeHead at e
  split at e
  · cases e
    exact .same (.putLe hs)
  · cases e

theorem Sound.putBack {c} (hs : Sound pend s) : Sound pend (s.putBack c) := by
  unfold State.putBack
  split
  · exact hs
  · exact .putLe hs

theorem Sound.dropUnknown {n} (hs : Sound pend s) : Sound pend (State.dropUnknown n s) := by
  induction n generalizing s with
  | zero => exact hs
  | succ n ih =>
    unfold State.dropUnknown
    split
    · exact hs
    · split
      · exact hs
      · refine .ite hs ?_
        split
        · exact hs
        · exact ih (.finishOpen (.takeHead hs ‹_›))

theorem Sound.take {p op c} (hs : Sound pend s) (e : s.take p op = some (c, t)) : Sound pend t := by
  unfold State.take at e
  split at e
  · cases e
  · split at e
    · cases e
    · split at e
      · exact .takeHead hs e
      · cases e

theorem Sound.runCommand {p op ok body} (hs : Sound pend s) (hbody : ∀ a s, Sound pend s → Sound pend (body a s)) :
    Sound pend (s.runCommand p op ok body) := by
  unfold State.runCommand
  split
  · exact hs
  · exact .dropUnknown (.ite (hbody _ _ (.take hs ‹_›)) (.finishOpen (.take hs ‹_›)))

theorem Sound.runSeqCommand {p op ok body} (hs : Sound pend s) (hbody : ∀ a a' s, Sound pend s → Sound pend (body a a' s)) :
    Sound pend (s.runSeqCommand p op ok body) := by
  unfold State.runSeqCommand
  refine .runCommand hs (fun _ _ hs => ?_)
  split
  · exact .finishOpen hs
  · refine .ite (.finishOpen hs) ?_
    split
    · exact .finishOpen (.recordEcc hs)
    · exact hbody _ _ _ hs

theorem Answers.kvmDoorbell {a p v} (hs : Sound pend s) : Answers pend (execKvmDoorbell a p v s) := by
  unfold Machine.execKvmDoorbell
  refine .ite (.next (.refusedWrite hs)) ?_
  split
  · exact .next hs
  · exact .ite (.next hs) (.ite (.next (.logIgnored hs)) (.next (.dropUnknown (.setPlot hs))))

theorem Answers.bufFree {p} (hs : Sound pend s) : Answers pend (execBufFree p s) := by
  unfold Machine.execBufFree
  refine .next ?_
  refine .runCommand hs (fun _ _ hs => ?_)
  dsimp only
  split
  · exact .finishOpen (.freeFrame hs)
  · exact .finishOpen (.badFree hs)

theorem Answers.bucket {p} (hs : Sound pend s) : Answers pend (execBucket p s) := by
  unfold Machine.execBucket
  refine .next ?_
  refine .runCommand hs (fun _ _ hs => ?_)
  refine .ite (.finishOpen hs) ?_
  dsimp only
  split
  · exact .finishOpen (.noteRead hs)
  · exact .ite (.finishOpen (.noteRead hs)) (.finishOpen (.putBytes (.noteRead hs)))

/-! ### Live indexes -/

theorem Sound.setIndex {n x} (hs : Sound pend s) : Sound pend (s.setIndex n x) := by
  unfold State.setIndex
  exact hs

theorem Sound.buryPage {q v} (hs : Sound pend s) : Sound pend (s.buryPage q v) := by
  unfold State.buryPage
  split
  · exact hs
  · split
    · exact hs
    · split
      · exact .setIndex hs
      · exact hs

theorem Sound.appendSignature {j n x ln id code} (hs : Sound pend s) : Sound pend (s.appendSignature j n x ln id code) := by
  unfold State.appendSignature
  split
  · exact .setIndex hs
  · exact .same (.setBit hs)

theorem Answers.signatureAppend {c} (hs : Sound pend s) : Answers pend (execSignatureAppend c s) := by
  unfold Machine.execSignatureAppend
  refine .byService hs ?_
  split
  · exact .next hs
  · refine .ite (.next hs) ?_
    dsimp only
    split
    · split
      · exact .next hs
      · split
        · exact .next hs
        · refine .ite (.next (.setBit hs)) ?_
          refine .ite (.next hs) ?_
          split
          · exact .next (.appendSignature hs)
          · split
            · exact .next (.recordEcc hs)
            · refine .next ?_
              refine .appendSignature ?_
              refine .addNumFlags ?_
              split
              · exact .peerBytes hs
              · exact .pageRead hs
    · exact .next hs

/-! ### Page moves -/

theorem Sound.reemitIn {p n v e i t} (hs : Sound pend s) : Sound pend (s.reemitIn p n v e i t) := by
  unfold State.reemitIn
  exact .foldl (fun _ _ hs => .ite (.addSat (.putBytes hs)) hs) hs

theorem Sound.reemit {p n v e} (hs : Sound pend s) : Sound pend (s.reemit p n v e) := by
  unfold State.reemit
  exact .foldl (fun _ _ hs => .reemitIn hs) hs

theorem Sound.putJournal {j} (hs : Sound pend s) : Sound pend (s.putJournal j) := by
  unfold State.putJournal
  exact hs

theorem Sound.sendHost {kind p chip tag data} (hs : Sound pend s) : Sound pend (s.sendHost kind p chip tag data) := by
  unfold State.sendHost
  exact .send hs

theorem Sound.askHost {j order} (hs : Sound pend s) (e : s.askHost j order = some t) : Sound pend t := by
  unfold State.askHost at e
  split at e
  · cases e
  · cases e
    exact .sendHost (.putJournal hs)

theorem Sound.setMoving {q v b} (hs : Sound pend s) : Sound pend (s.setMoving q v b) := by
  unfold State.setMoving
  exact .setPte hs

theorem Sound.showBatch {x st} (hs : Sound pend s) : Sound pend (s.showBatch x st) := by
  unfold State.showBatch
  exact .ite (.setFld (.setFld hs)) hs

theorem Sound.showEntry {j st} (hs : Sound pend s) : Sound pend (s.showEntry j st) := by
  unfold State.showEntry
  split
  · exact .showBatch hs
  · exact hs

theorem Sound.endMoves {b x} (hs : Sound pend s) : Sound pend (s.endMoves b x) := by
  unfold State.endMoves
  refine .finish ?_
  refine .showBatch ?_
  split
  · exact .setSeq hs
  · exact hs

theorem Sound.closeBatch {j done'} (hs : Sound pend s) : Sound pend (s.closeBatch j done') := by
  unfold State.closeBatch
  split
  · exact hs
  · split
    · exact hs
    · exact .ite (.showBatch hs) (.endMoves hs)

theorem Sound.freePeer {p chip a} (hs : Sound pend s) : Sound pend (s.freePeer p chip a) := by
  unfold State.freePeer
  dsimp only
  split
  · exact hs
  · exact .sendHost hs

theorem Sound.rollBack {id} (hs : Sound pend s) : Sound pend (s.rollBack id) := by
  unfold State.rollBack
  split
  · exact hs
  · refine .closeBatch ?_
    split
    · refine .setMoving ?_
      split
      · exact .ite (.freePeer hs) (.freeFrame hs)
      · exact hs
    · split
      · exact .ite (.freePeer hs) (.freeFrame hs)
      · exact hs

theorem Sound.press {p t} (hs : Sound pend s) : Sound pend (s.press p t) := by
  unfold State.press
  exact .ite hs hs

theorem Sound.startMove {p n q v tier cut batch} (hs : Sound pend s) (e : s.startMove p n q v tier cut batch = some (.ok t)) :
    Sound pend t := by
  unfold State.startMove at e
  dsimp only at e
  split at e
  · cases e
  · split at e
    · obtain ⟨u, hu, hok⟩ := Option.map_eq_some_iff.mp e
      cases hok
      exact .setMoving (.askHost (.same hs) hu)
    · split at e
      · cases e
      next a u ha =>
        have hu : Sound pend u := .allocFrame (.same hs) ha
        split at e <;> cases e
        · exact .askParts (.putJournal (.setMoving hu))
        · exact .putJournal (.setMoving hu)

theorem Sound.tryMove {p n q v tier cut batch} (hs : Sound pend s) : Sound pend (s.tryMove p n q v tier cut batch).1 := by
  unfold State.tryMove
  split
  · exact .startMove hs ‹_›
  · exact .press hs
  · exact hs

theorem Sound.commitMove {j q a} (hs : Sound pend s) : Sound pend (s.commitMove j q a) := by
  unfold State.commitMove
  refine .closeBatch ?_
  refine .reemit ?_
  refine .same ?_
  refine .ite ?_ ?_
  · refine .same ?_
    refine .setPte ?_
    refine .ite hs ?_
    split <;> exact hs
  · refine .drainFrame ?_
    refine .setPte ?_
    refine .ite hs ?_
    split <;> exact hs

theorem Answers.pageMoveCommit {id} (hs : Sound pend s) : Answers pend (execPageMoveCommit id s) := by
  unfold Machine.execPageMoveCommit
  refine .byService hs ?_
  split
  · exact .next hs
  · split
    · refine .ite (.next hs) ?_
      refine .ite (.ite (.next (.commitMove hs)) (.next hs)) ?_
      refine .ite (.next hs) ?_
      refine .ite (.next (.commitMove hs)) ?_
      dsimp only
      split
      · exact .next (.rollBack (.recordEcc hs))
      · exact .next (.commitMove (.putBytes hs))
    · exact .next hs

theorem Answers.convertToCutting {id c} (hs : Sound pend s) : Answers pend (execConvertToCutting id c s) := by
  unfold Machine.execConvertToCutting
  refine .byService hs ?_
  split
  · exact .next hs
  · split
    · refine .ite (.next hs) ?_
      dsimp only
      split
      · exact .next (.rollBack (.recordEcc hs))
      · exact .ite (.next (.commitMove (.undefineBytes hs))) (.next (.commitMove (.addNumFlags (.putBytes hs))))
    · exact .next hs

theorem Sound.hostRefused {j} (hs : Sound pend s) : Sound pend (s.hostRefused j) := by
  unfold State.hostRefused
  dsimp only
  split
  · exact .askHost hs ‹_›
  · refine .ite (.rollBack hs) ?_
    split
    · exact .putJournal (.allocFrame hs ‹_›)
    · exact .rollBack hs

theorem Sound.hostFailed {j} (hs : Sound pend s) : Sound pend (s.hostFailed j) := by
  unfold State.hostFailed
  exact .ite (.hostRefused hs) (.rollBack hs)

theorem Sound.fillPeer {j h} (hs : Sound pend s) : Sound pend (s.fillPeer j h) := by
  unfold State.fillPeer
  split
  · exact .rollBack hs
  · dsimp only
    split
    · exact .rollBack (.recordEcc hs)
    · exact .sendHost (.sendParts (.showEntry (.putJournal hs)))

theorem Answers.hostingReply {id gen r} (hs : Sound pend s) : Answers pend (execHostingReply id gen r s) := by
  unfold Machine.execHostingReply
  refine .ite (.next (.countStale hs)) ?_
  split
  · exact .next hs
  · refine .ite (.next hs) ?_
    split
    · exact .ite (.next (.fillPeer hs)) (.next hs)
    · exact .ite (.next (.putJournal hs)) (.next hs)
    · refine .ite (.next hs) ?_
      refine .ite ?_ (.next (.rollBack hs))
      split
      · exact .next (.commitMove hs)
      · exact .next hs
    · exact .next (.hostFailed hs)

theorem Answers.hostReplyTimeout {id} (hs : Sound pend s) : Answers pend (execHostReplyTimeout id s) := by
  unfold Machine.execHostReplyTimeout
  split
  · exact .next hs
  · split
    · exact .next hs
    · exact .ite (.next (.hostFailed hs)) (.next hs)

theorem Sound.answerHost {m data} (hs : Sound pend s) : Sound pend (s.answerHost m data) := by
  unfold State.answerHost
  exact .send hs

theorem Answers.hostAlloc {m hosting seqNo order epoch} (hs : Sound pend s) :
    Answers pend (execHostAlloc m hosting seqNo order epoch s) := by
  unfold Machine.execHostAlloc
  refine .ite (.next (.answerHost hs)) ?_
  split
  · exact .next (.answerHost hs)
  · split
    · exact .next (.allocFrame hs ‹_›)
    · exact .next (.answerHost (.same (.allocFrame hs ‹_›)))

theorem Answers.hostSeal {m handle count crc} (hs : Sound pend s) : Answers pend (execHostSeal m handle count crc s) := by
  unfold Machine.execHostSeal
  split
  · exact .next (.answerHost hs)
  · exact .ite (.next (.answerHost hs)) (.next (.answerHost hs))

theorem Answers.hostQuery {m handle} (hs : Sound pend s) : Answers pend (execHostQuery m handle s) := by
  unfold Machine.execHostQuery
  split <;> exact .next (.answerHost hs)

theorem Answers.hostFree {m handle} (hs : Sound pend s) : Answers pend (execHostFree m handle s) := by
  unfold Machine.execHostFree
  split
  · exact .next (.answerHost hs)
  · split
    · exact .next (.answerHost (.freeFrame hs))
    · exact .next (.answerHost (.badFree hs))

theorem Answers.orphanReclaim (hs : Sound pend s) : Answers pend (execOrphanReclaim s) := by
  unfold Machine.execOrphanReclaim
  exact .byService hs (.next (.foldl (fun _ _ hs => .logEvent (.freeFrame hs)) hs))

theorem Sound.endDrain {d} (hs : Sound pend s) : Sound pend (s.endDrain d) := by
  unfold State.endDrain
  split
  · exact .freePeer hs
  · split
    · exact hs
    · exact .setPool hs

theorem Sound.freeDue (hs : Sound pend s) : Sound pend s.freeDue := by
  unfold State.freeDue
  exact .foldl (fun _ _ hs => .endDrain hs) hs

theorem Answers.sourceFree (hs : Sound pend s) : Answers pend (execSourceFree s) := by
  unfold Machine.execSourceFree
  exact .byService hs (.next (.freeDue hs))

theorem Sound.evict {p n q v} (hs : Sound pend s) : Sound pend (s.evict p n q v) := by
  unfold State.evict
  exact .buryPage (.reemit (.ite (.same (.setPte hs)) (.drainFrame (.setPte hs))))

theorem Sound.evictPass {p t flat gain med cs} (hs : Sound pend s) : Sound pend (State.evictPass p t flat gain med cs s) := by
  induction cs generalizing s with
  | nil => exact hs
  | cons c cs ih =>
    unfold State.evictPass
    refine ih ?_
    split
    · exact .ite (.evict hs) hs
    · exact hs

theorem Sound.cutPass {p t cs gain} (hs : Sound pend s) : Sound pend (State.cutPass p t cs s gain).1 := by
  induction cs generalizing s gain with
  | nil => exact hs
  | cons c cs ih =>
    unfold State.cutPass
    split
    · dsimp only
      split
      · exact ih hs
      · split
        · exact ih (.logEvent hs)
        · split
          · exact ih (.ofFst (.tryMove hs) ‹_›)
          · exact ih (.ofFst (.tryMove hs) ‹_›)
    · exact ih hs

theorem Sound.spillPass {p t cs gain} (hs : Sound pend s) : Sound pend (State.spillPass p t cs s gain) := by
  induction cs generalizing s gain with
  | nil => exact hs
  | cons c cs ih =>
    unfold State.spillPass
    split
    · refine .ite hs ?_
      split <;> exact ih (.ofFst (.tryMove hs) ‹_›)
    · exact hs

theorem Sound.relieve {p t} (hs : Sound pend s) : Sound pend (s.relieve p t) := by
  unfold State.relieve
  dsimp only
  split
  · exact hs
  · refine .ite ?_ ?_
    · refine .spillPass ?_
      split
      · split
        · exact .cutPass (.evictPass hs)
        · exact .evictPass hs
      · split
        · exact .cutPass hs
        · exact hs
    · split
      · split
        · exact .cutPass (.evictPass hs)
        · exact .evictPass hs
      · split
        · exact .cutPass hs
        · exact hs

theorem Answers.pressureHandling {p t} (hs : Sound pend s) : Answers pend (execPressureHandling p t s) := by
  unfold Machine.execPressureHandling
  exact .byService hs (.ite (.next (.relieve hs)) (.next hs))

theorem Sound.withRoom_inl {p tiers} {f : State → Option State} (hs : Sound pend s)
    (hf : ∀ {u v}, Sound pend u → f u = some v → Sound pend v) (e : s.withRoom p tiers f = .inl t) : Sound pend t := by
  unfold State.withRoom at e
  split at e
  · cases e
    exact hf hs ‹_›
  · dsimp only at e
    split at e
    · cases e
      exact hf (.freeDue (.foldl (fun _ _ hs => .relieve hs) hs)) ‹_›
    · cases e

theorem Sound.withRoom_inr {α p tiers} {f : State → Option α} (hs : Sound pend s) (e : s.withRoom p tiers f = .inr t) :
    Sound pend t := by
  unfold State.withRoom at e
  split at e
  · cases e
  · dsimp only at e
    split at e
    · cases e
    · cases e
      exact .freeDue (.foldl (fun _ _ hs => .relieve hs) hs)

theorem Sound.noRoom {c tiers} (hs : Sound pend s) : Sound pend (s.noRoom c tiers) := by
  unfold State.noRoom
  exact .ite (.putBack hs) (.finishOpen hs)

/-! ### Sequences of the manager -/

theorem Answers.bufAlloc {p} (hs : Sound pend s) : Answers pend (execBufAlloc p s) := by
  unfold Machine.execBufAlloc
  refine .next ?_
  refine .runCommand hs (fun _ _ hs => ?_)
  dsimp only
  split
  · exact .finish (.allocFrame hs ‹_›)
  · exact .finishOpen hs

theorem Sound.newArea {p i use n bytes a} (hs : Sound pend s) (e : s.newArea p i use n bytes = some (a, t)) : Sound pend t := by
  unfold State.newArea at e
  split at e
  · cases e
    exact .clearRange (.allocFrame hs ‹_›)
  · cases e

theorem Sound.optArea {want p i use n bytes a} (hs : Sound pend s) (e : s.optArea want p i use n bytes = some (a, t)) : Sound pend t := by
  unfold State.optArea at e
  split at e
  · cases e
    exact hs
  · split at e
    · cases e
      exact .newArea hs ‹_›
    · cases e

theorem Sound.clearGlobals {q g} (hs : Sound pend s) : Sound pend (s.clearGlobals q g) := by
  unfold State.clearGlobals
  split
  · exact hs
  · exact .putBytes hs

theorem Sound.newTray {q t} (hs : Sound pend s) : Sound pend (s.newTray q t) := by
  unfold State.newTray
  split
  · exact hs
  · exact .putBytes (.putLe hs)

theorem Sound.newSeq {p n q x} (hs : Sound pend s) (e : s.newSeq p n q = some (x, t)) : Sound pend t := by
  unfold State.newSeq at e
  split at e
  · cases e
  next dir s1 h1 =>
    split at e
    · cases e
    next tray s2 h2 =>
      split at e
      · cases e
      next garea s3 h3 =>
        split at e
        · cases e
        next mass s4 h4 =>
          cases e
          have h3 : Sound pend s3 := .optArea (.optArea (.newArea hs h1) h2) h3
          exact .newTray (.clearGlobals (.optArea h3 h4))

theorem Answers.seqCreate {p} (hs : Sound pend s) : Answers pend (execSeqCreate p s) := by
  unfold Machine.execSeqCreate
  refine .next ?_
  refine .runCommand hs (fun _ _ hs => ?_)
  dsimp only
  split
  · exact .finishOpen hs
  · refine .ite (.finishOpen hs) ?_
    split
    · exact .finishOpen hs
    · refine .finish ?_
      split
      · exact .setIndex (.setSeq (.newSeq hs ‹_›))
      · exact .setSeq (.newSeq hs ‹_›)

theorem Sound.dropIndex {k owed} (hs : Sound pend s) : Sound pend (s.dropIndex k owed) := by
  unfold State.dropIndex
  split
  · exact hs
  · exact .ite (.setIndex hs) (.same (.foldl (fun _ _ hs => .freeFrame hs) hs))

theorem Sound.unmapAll {p q} (hs : Sound pend s) : Sound pend (s.unmapAll p q) := by
  unfold State.unmapAll
  exact .foldl (fun _ _ hs => .ite hs (.ite hs (.drainFrame hs))) hs

theorem Sound.destroySeq {p n q} (hs : Sound pend s) : Sound pend (s.destroySeq p n q) := by
  unfold State.destroySeq
  refine .same ?_
  split
  · refine .freeFrame ?_
    refine .foldl (fun _ _ hs => .freeFrame hs) ?_
    split
    · exact .dropIndex (.unmapAll (.foldl (fun _ _ hs => .buryPage hs) (.foldl (fun _ _ hs => .rollBack hs) hs)))
    · exact .unmapAll (.foldl (fun _ _ hs => .buryPage hs) (.foldl (fun _ _ hs => .rollBack hs) hs))
  · refine .foldl (fun _ _ hs => .freeFrame hs) ?_
    split
    · exact .dropIndex (.unmapAll (.foldl (fun _ _ hs => .buryPage hs) (.foldl (fun _ _ hs => .rollBack hs) hs)))
    · exact .unmapAll (.foldl (fun _ _ hs => .buryPage hs) (.foldl (fun _ _ hs => .rollBack hs) hs))

theorem Answers.seqDestroy {p} (hs : Sound pend s) : Answers pend (execSeqDestroy p s) := by
  unfold Machine.execSeqDestroy
  exact .next (.runSeqCommand hs (fun _ _ _ hs => .ite (.finishOpen hs) (.finishOpen (.destroySeq hs))))

theorem Sound.keyValue {q k o h} (hs : Sound pend s) : Sound pend (s.keyValue q k o h).2.2 := by
  unfold State.keyValue
  dsimp only
  split
  · exact .peerBytes (.peerBytes hs)
  · exact .pageRead (.pageRead hs)

theorem Sound.copyGlobal {q area o slot} (hs : Sound pend s) : Sound pend (s.copyGlobal q area o slot) := by
  unfold State.copyGlobal
  exact .foldl (fun _ _ hs => .putBytes (.putBytes (.keyValue hs))) hs

theorem Answers.globalAdd {p} (hs : Sound pend s) : Answers pend (execGlobalAdd p s) := by
  unfold Machine.execGlobalAdd
  refine .next ?_
  refine .runSeqCommand hs (fun _ _ _ hs => ?_)
  refine .ite (.finishOpen hs) ?_
  dsimp only
  split
  · exact .finishOpen hs
  · refine .ite (.finishOpen hs) ?_
    split
    · exact .finishOpen (.recordEcc hs)
    · exact .finishOpen (.setSeq (.putLe (.copyGlobal hs)))

theorem Answers.pin {p} (hs : Sound pend s) : Answers pend (execPin p s) := by
  unfold Machine.execPin
  exact .next (.runSeqCommand hs (fun _ _ _ hs => .ite (.finishOpen hs) (.finishOpen (.foldl (fun _ _ hs => .ite (.setPte hs) hs) hs))))

theorem Sound.prefetch {p n q v} (hs : Sound pend s) : Sound pend (s.prefetch p n q v) := by
  unfold State.prefetch
  refine .ite hs ?_
  refine .ite hs ?_
  split
  · exact .startMove hs ‹_›
  · exact hs

theorem Answers.prefetch {p} (hs : Sound pend s) : Answers pend (execPrefetch p s) := by
  unfold Machine.execPrefetch
  exact .next (.runSeqCommand hs (fun _ _ _ hs => .ite (.finishOpen hs) (.finishOpen (.foldl (fun _ _ hs => .prefetch hs) hs))))

theorem Answers.migrate {p} (hs : Sound pend s) : Answers pend (execMigrate p s) := by
  unfold Machine.execMigrate
  refine .next ?_
  refine .runSeqCommand hs (fun _ _ _ hs => ?_)
  refine .ite (.finishOpen hs) ?_
  refine .ite (.finishOpen hs) ?_
  refine .ite (.finish hs) ?_
  refine .foldl (fun _ _ hs => ?_) (.setFld (.showBatch (.same (.stepFld (.setSeq hs)))))
  split
  · exact .ofFst (.tryMove hs) ‹_›
  · exact .closeBatch (.ofFst (.tryMove hs) ‹_›)

theorem Sound.signPage {p n q v} (hs : Sound pend s) : Sound pend (s.signPage p n q v) := by
  unfold State.signPage
  split
  · exact hs
  · exact .ite hs (.ite (.logEvent hs) hs)

theorem Sound.signFilled {p n q first last} (hs : Sound pend s) : Sound pend (s.signFilled p n q first last) := by
  unfold State.signFilled
  exact .foldl (fun _ _ hs => .foldl (fun _ _ hs => .ite (.signPage hs) hs) hs) hs

theorem Sound.foldScore {p q mass v} (hs : Sound pend s) : Sound pend (s.foldScore p q mass v).2 := by
  unfold State.foldScore
  exact .putLe (.setPte hs)

theorem Sound.foldScores {p n q} (hs : Sound pend s) : Sound pend (s.foldScores p n q) := by
  unfold State.foldScores
  split
  · exact hs
  · refine .ite hs ?_
    extract_lets vs r
    have hr : Sound pend r.2 := .foldlSnd (fun _ _ hx => by dsimp only; exact .foldScore hx) hs
    exact .ite (.logEvent hr) hr

theorem Sound.announce {p n q v} (hs : Sound pend s) : Sound pend (s.announce p n q v) := by
  unfold State.announce
  refine .foldl (fun _ _ hs => ?_) hs
  dsimp only
  split
  · exact .putBytes (.setPte hs)
  · exact hs

theorem Sound.premap {p n q last} (hs : Sound pend s) : Sound pend (s.premap p n q last) := by
  unfold State.premap
  refine .ite hs ?_
  refine .ite ?_ hs
  split
  · exact .foldl (fun _ _ hs => .announce hs) (.mapAll hs ‹_›)
  · exact .press (.press hs)

theorem Sound.giveMass {p n q} (hs : Sound pend s) : Sound pend (s.giveMass p n q).2 := by
  unfold State.giveMass
  split
  · exact hs
  · split
    · exact .newArea hs ‹_›
    · exact hs

theorem Sound.commitPoint {p n q first count} (hs : Sound pend s) : Sound pend (s.commitPoint p n q first count) := by
  unfold State.commitPoint
  exact .premap (.foldScores (.signFilled (.setSeq (.giveMass hs))))

theorem Sound.advanceBase {q bound} (hs : Sound pend s) : Sound pend (s.advanceBase q bound) := by
  unfold State.advanceBase
  split
  · exact hs
  · exact .putLe hs

theorem Sound.copyPositions {p src dst n} (hs : Sound pend s) : Sound pend (s.copyPositions p src dst n) := by
  unfold State.copyPositions
  exact .foldl (fun _ _ hs => .pageWrite (.pageWrite (.keyValue hs))) hs

theorem Answers.copyPrefix {p} (hs : Sound pend s) : Answers pend (execCopyPrefix p s) := by
  unfold Machine.execCopyPrefix
  refine .next (.runSeqCommand hs fun _ _ _ hs => .ite (.finishOpen (.recordInfo (.addSat hs))) ?_)
  split
  · exact .finishOpen hs
  · refine .ite (.finishOpen hs) (.ite (.finishOpen hs) (.ite (.finishOpen hs) (.ite (.finishOpen hs) (.ite (.finishOpen hs) ?_))))
    split
    · exact .finishOpen (.recordEcc hs)
    · split
      · exact .noRoom (.withRoom_inr hs ‹_›)
      · exact .finishOpen (.advanceBase (.commitPoint (.copyPositions (.withRoom_inl hs .mapAll ‹_›))))

/-! ### Group descriptors -/

theorem Sound.voidStep {p} (hs : Sound pend s) : Sound pend (s.voidStep p) := by
  unfold State.voidStep
  split
  · exact hs
  · exact .ite hs (.setFld (.putLe hs))

theorem Sound.abandonStep {p n} (hs : Sound pend s) : Sound pend (s.abandonStep p n) := by
  unfold State.abandonStep
  split
  · exact hs
  · exact .ite (.abortTask (.voidStep hs)) hs

/-! ### Trays -/

theorem Sound.emptyTray {a} (hs : Sound pend s) : Sound pend (s.emptyTray a) := by
  unfold State.emptyTray
  exact .putBytes (.putLe (.putLe hs))

theorem Sound.refuseTray {c} (hs : Sound pend s) : Sound pend (s.refuseTray c) := by
  unfold State.refuseTray
  exact .finishOpen (.logEvent hs)

theorem Answers.trayFill {p} (hs : Sound pend s) : Answers pend (execTrayFill p s) := by
  unfold Machine.execTrayFill
  refine .next ?_
  refine .runSeqCommand hs (fun _ _ _ hs => ?_)
  split
  · exact .refuseTray hs
  · exact .ite (.refuseTray hs) (.ite (.finishOpen hs)
        (.ite (.finishOpen (.noteRead hs)) (.finish (.putLe (.putBytes (.putBytes (.putBytes (.putLe (.noteRead hs)))))))))

theorem Answers.trayAccept {p} (hs : Sound pend s) : Answers pend (execTrayAccept p s) := by
  unfold Machine.execTrayAccept
  refine .next ?_
  refine .runSeqCommand hs (fun _ _ _ hs => ?_)
  split
  · exact .refuseTray hs
  · exact .ite (.refuseTray hs) (.ite (.finishOpen hs) (.finish (.putLe (.putLe (.putLe hs)))))

theorem Answers.trayDiscard {p} (hs : Sound pend s) : Answers pend (execTrayDiscard p s) := by
  unfold Machine.execTrayDiscard
  refine .next ?_
  refine .runSeqCommand hs (fun _ _ _ hs => ?_)
  split
  · exact .refuseTray hs
  · exact .ite (.finish (.emptyTray hs)) (.refuseTray hs)

theorem Sound.scatterWrite {p n e off bs} {r : State × Nat} (hr : Sound pend r.1) : Sound pend (State.scatterWrite p n e off bs r).1 := by
  unfold State.scatterWrite
  split
  · exact .writeParts hr
  · split
    · exact .recordEcc (.ofFst (.storeBytes hr) ‹_›)
    · exact .ofFst (.storeBytes hr) ‹_›

theorem Sound.scatter {p n q first slots nodes fetch} (hs : Sound pend s) :
    Sound pend (s.scatter p n q first slots nodes fetch).1 := by
  unfold State.scatter
  exact .foldlFst (fun _ _ hr => .scatterWrite (.scatterWrite hr)) hs

theorem Sound.prepareCommit_ready {p n q first count} (hs : Sound pend s) (e : s.prepareCommit p n q first count = .ready t) :
    Sound pend t := by
  unfold State.prepareCommit at e
  split at e
  · cases e
  · dsimp only at e
    split at e
    · cases e
      exact .withRoom_inl hs .mapAll ‹_›
    · cases e

theorem Sound.prepareCommit_noRoom {p n q first count} (hs : Sound pend s) (e : s.prepareCommit p n q first count = .noRoom t) :
    Sound pend t := by
  unfold State.prepareCommit at e
  split at e
  · cases e
  · dsimp only at e
    split at e
    · cases e
    · cases e
      exact .withRoom_inr hs ‹_›

theorem Sound.runScatter {p n q k} (hs : Sound pend s) : Sound pend (s.runScatter p n q k) := by
  unfold State.runScatter
  exact .setSeq (.scatter hs)

theorem Answers.trayCommit {p} (hs : Sound pend s) : Answers pend (execTrayCommit p s) := by
  unfold Machine.execTrayCommit
  refine .next ?_
  refine .runSeqCommand hs (fun _ _ _ hs => ?_)
  split
  · exact .refuseTray hs
  · refine .ite (.refuseTray hs) ?_
    split
    · exact .finishOpen (.recordEcc hs)
    · refine .ite ?_ ?_
      · split
        · exact .finishOpen hs
        · exact .noRoom (.prepareCommit_noRoom hs ‹_›)
        · exact .runScatter (.putLe (.prepareCommit_ready hs ‹_›))
      · split
        · exact .finishOpen hs
        · exact .setSeq (.putLe (.send hs))

theorem Answers.append {p} (hs : Sound pend s) : Answers pend (execAppend p s) := by
  unfold Machine.execAppend
  refine .next ?_
  refine .runSeqCommand hs (fun _ _ _ hs => ?_)
  dsimp only
  split
  · exact .finishOpen hs
  · refine .ite (.finishOpen hs) ?_
    refine .ite (.finishOpen hs) ?_
    split
    · exact .finishOpen (.recordEcc hs)
    · split
      · exact .finishOpen hs
      · exact .noRoom (.prepareCommit_noRoom hs ‹_›)
      · exact .runScatter (.prepareCommit_ready hs ‹_›)

theorem Sound.answerLead {plot chip tag gen status} (hs : Sound pend s) : Sound pend (s.answerLead plot chip tag gen status) := by
  unfold State.answerLead
  exact .send hs

theorem Sound.tailCommit {p n q h} (hs : Sound pend s) : Sound pend (s.tailCommit p n q h) := by
  unfold State.tailCommit
  refine .ite (.answerLead hs) ?_
  refine .ite (.answerLead hs) ?_
  split
  · exact .answerLead hs
  · exact .ite (.setSeq (.prepareCommit_noRoom hs ‹_›)) (.answerLead (.prepareCommit_noRoom hs ‹_›))
  · exact .runScatter (.prepareCommit_ready hs ‹_›)

theorem Sound.takeHeld {p n} (hs : Sound pend s) : Sound pend (s.takeHeld p n) := by
  unfold State.takeHeld
  split
  · exact hs
  · split
    · exact .tailCommit (.setSeq hs)
    · exact hs

theorem Answers.peerCommit {lead p n pos count generation data} (hs : Sound pend s) :
    Answers pend (execPeerCommit lead p n pos count generation data s) := by
  unfold Machine.execPeerCommit
  split
  · exact .next (.answerLead hs)
  · exact .next (.takeHeld (.setSeq hs))

theorem Answers.commitPoint {p n} (hs : Sound pend s) : Answers pend (execCommitPoint p n s) := by
  unfold Machine.execCommitPoint
  refine .byService hs ?_
  split
  · exact .next hs
  · split
    · exact .next (.takeHeld hs)
    · refine .ite (.next hs) ?_
      split
      · exact .next (.takeHeld (.finishOpen (.advanceBase (.commitPoint hs))))
      · exact .next (.takeHeld (.answerLead (.commitPoint hs)))
      · exact .next (.commitPoint hs)

theorem Answers.dibberDone {p n tail} (hs : Sound pend s) : Answers pend (execDibberDone p n tail s) := by
  unfold Machine.execDibberDone
  refine .byService hs ?_
  split
  · exact .next hs
  · split
    · exact .ite (.next (.countStale hs)) (.ite (.next hs) (.next (.finish (.setSeq (.emptyTray (.putLe (.putLe hs)))))))
    · exact .next hs

theorem Sound.dropCommit {p n q k status} (hs : Sound pend s) : Sound pend (s.dropCommit p n q k status) := by
  unfold State.dropCommit
  dsimp only
  split
  · refine .takeHeld ?_
    refine .answerLead ?_
    split
    · exact .abandonStep (.ite (.emptyTray (.setSeq hs)) (.putLe (.setSeq hs)))
    · exact .setSeq hs
  · refine .takeHeld ?_
    refine .finishOpen ?_
    split
    · exact .abandonStep (.ite (.emptyTray (.setSeq hs)) (.putLe (.setSeq hs)))
    · exact .setSeq hs

theorem Answers.dibberRolledBack {p n tail} (hs : Sound pend s) : Answers pend (execDibberRolledBack p n tail s) := by
  unfold Machine.execDibberRolledBack
  refine .byService hs ?_
  split
  · exact .next hs
  · split
    · exact .next hs
    · exact .ite (.next (.countStale hs)) (.ite (.next hs) (.next (.dropCommit hs)))

/-! ### Walks -/

theorem Walks.foldl {α} {f : WalkAcc → α → WalkAcc} {w} {l : List α} (hf : ∀ w a, Walks pend w → Walks pend (f w a))
    (hw : Walks pend w) : Walks pend (l.foldl f w) := by
  induction l generalizing w with
  | nil => exact hw
  | cons a l ih => exact ih (hf _ _ hw)

theorem Walks.emit {w p n q a k j kind mask} (hw : Walks pend w) : Walks pend (w.emit p n q a k j kind mask) := by
  unfold WalkAcc.emit
  dsimp only
  split
  · exact hw
  · split
    · split <;> exact hw
    · split
      · exact hw
      · exact Sound.setPte hw

theorem Walks.emitGlobal {w p n q a k area i} (hw : Walks pend w) : Walks pend (w.emitGlobal p n q a k area i) := by
  unfold WalkAcc.emitGlobal
  split <;> exact hw

theorem Walks.emitTray {w p n q a k} (hw : Walks pend w) : Walks pend (w.emitTray p n q a k) := by
  unfold WalkAcc.emitTray
  split
  · exact hw
  · split <;> exact hw

theorem Walks.list {w p n q a rows self items k} (hw : Walks pend w) : Walks pend (w.list p n q a rows self items k) := by
  unfold WalkAcc.list
  extract_lets w1 w2 w3
  have h1 : Walks pend w1 := by
    unfold w1
    split
    · exact hw
    · exact .foldl (fun _ _ hw => .emit hw) hw
  have h2 : Walks pend w2 := by
    unfold w2
    split
    · exact h1
    · exact .foldl (fun _ _ hw => .emitGlobal hw) h1
  have h3 : Walks pend w3 := by
    unfold w3
    split
    · exact h1
    · refine .foldl (fun _ _ hw => ?_) h2
      split
      · exact hw
      · exact .emit hw
  split
  · exact .emitTray h3
  · exact h3

theorem Walks.walk {p n q a rows self items} (hs : Sound pend s) : Walks pend (s.walk p n q a rows self items) := by
  unfold State.walk
  exact .foldl (fun _ _ hw => .list hw) hs

theorem Sound.postWalk {p tag descs} (hs : Sound pend s) : Sound pend (s.postWalk p tag descs) := by
  unfold State.postWalk
  dsimp only
  split
  · refine .feedQueue ?_
    split <;> exact hs
  · split <;> exact hs

theorem Sound.walkClose {w p n q} (hw : Walks pend w) : Sound pend (w.close p n q) := by
  unfold WalkAcc.close
  exact .foldl (fun _ _ hs => .prefetch hs) (.logEvent hw)

theorem Answers.walk {p rows} (hs : Sound pend s) : Answers pend (execWalk p rows s) := by
  unfold Machine.execWalk
  refine .next (.runSeqCommand hs fun _ _ _ hs => .ite (.finishOpen hs) ?_)
  dsimp only
  split
  · exact .finishOpen (.walkClose (Sound.postWalk (Walks.walk (.noteRead hs))))
  · exact .finish (.walkClose (Sound.postWalk (Walks.walk (.noteRead hs))))

theorem Answers.peerWalk {m p n a rows recalls} (hs : Sound pend s) : Answers pend (execPeerWalk m p n a rows recalls s) := by
  unfold Machine.execPeerWalk
  dsimp only
  split
  · exact .next (.send hs)
  · exact .ite (.next (.send hs)) (.ite (.next (.send hs))
      (.next (.send (.foldl (fun _ _ hs => .send hs) (.walkClose (Walks.walk hs))))))

end Sys2Proof.Machine
end

section
/-!
Soundness through collectives and group work.
-/

namespace Sys2Proof.Machine
open Sys2Proof

-- One proof at a time: many short proofs at once ask for more threads than the stack limit leaves room for.
set_option Elab.async false

variable {pend : List Instr} {s t : State}

/-! ### Sending on a field port -/

theorem Sound.countOpen (hs : Sound pend s) : Sound pend s.countOpen := by
  unfold State.countOpen
  exact .foldl (fun _ _ hs => .setFld hs) hs

theorem Sound.setConn {i c} (hs : Sound pend s) : Sound pend (s.setConn i c) := by
  unfold State.setConn
  exact .countOpen (.ofConns hs (Sparse.wf_set _ _ _ _))

theorem Sound.emitDgram {i c d} (hs : Sound pend s) : Sound pend (s.emitDgram i c d) := by
  unfold State.emitDgram
  exact .sendPort hs

theorem Sound.pushDgram {i m last command op} (hs : Sound pend s) : Sound pend (s.pushDgram i m last command op) := by
  unfold State.pushDgram
  exact .setConn (.ite (.emitDgram hs) hs)

theorem Sound.fldSend {i m command op} (hs : Sound pend s) : Sound pend (s.fldSend i m command op) := by
  unfold State.fldSend
  exact .foldl (fun _ _ hs => .pushDgram hs) hs

/-! ### Collective operations -/

theorem Sound.setGroup {g x} (hs : Sound pend s) : Sound pend (s.setGroup g x) := by
  unfold State.setGroup
  exact hs

/-! ### Recall -/

theorem Sound.setRBatch {n b} (hs : Sound pend s) : Sound pend (s.setRBatch n b) := by
  unfold State.setRBatch
  exact hs

theorem Sound.finishAny {id} (hs : Sound pend s) : Sound pend (s.finishAny id) := by
  unfold State.finishAny
  split
  · exact .finish hs
  · exact hs

theorem Sound.freeIndex {n x owed} (hs : Sound pend s) : Sound pend (s.freeIndex n x owed) := by
  unfold State.freeIndex
  exact .finishAny (.finishAny (.finishAny (.same (.dropIndex hs))))

theorem Sound.sweepIndex {n} (hs : Sound pend s) : Sound pend (s.sweepIndex n) := by
  unfold State.sweepIndex
  split
  · exact hs
  · split
    · exact hs
    · exact .ite hs (.freeIndex hs)

theorem Sound.closeBatch' {n b status result} (hs : Sound pend s) : Sound pend (s.closeBatch' n b status result) := by
  unfold State.closeBatch'
  dsimp only
  split
  · exact .finish (.sweepIndex hs)
  · exact .sweepIndex hs

theorem Sound.endBatch {n b} (hs : Sound pend s) : Sound pend (s.endBatch n b) := by
  unfold State.endBatch
  exact .ite (.closeBatch' hs) (.ite (.ite (.closeBatch' (.fresh (.ite (.putBytes hs) hs))) (.closeBatch' (.putBytes hs)))
      (.closeBatch' hs))

theorem Sound.putQuery {n b k q} (hs : Sound pend s) : Sound pend (s.putQuery n b k q) := by
  unfold State.putQuery
  exact .when (.setRBatch hs) (fun hs => .endBatch hs)

theorem Sound.writeBlock {b q} (hs : Sound pend s) : Sound pend (s.writeBlock b q) := by
  unfold State.writeBlock
  exact .ite hs (.putBytes hs)

theorem Sound.shardMerged {n k block} (hs : Sound pend s) : Sound pend (s.shardMerged n k block) := by
  unfold State.shardMerged
  split
  · exact hs
  · split
    · exact hs
    · exact .ite (.putQuery hs) (.putQuery (.writeBlock (.when (.ite (.setBit hs) hs) (fun hs => .setBit hs))))

theorem Sound.abortBatch {n status result} (hs : Sound pend s) : Sound pend (s.abortBatch n status result) := by
  unfold State.abortBatch
  split
  · exact hs
  · exact .closeBatch' (.ite hs (.foldl (fun _ _ hs => .putBytes (.undefineBytes hs)) hs))

/-! ### Parts of a collective -/

theorem Sound.setOp {x} (hs : Sound pend s) : Sound pend (s.setOp x) := by
  unfold State.setOp
  exact hs

theorem Sound.colStatus {c} (hs : Sound pend s) : Sound pend (s.colStatus c) := by
  unfold State.colStatus
  refine .ite hs ?_
  refine .ite ?_ ?_
  · refine .setFld ?_
    refine .setFld ?_
    split <;> exact .setReg hs
  · refine .setFld ?_
    refine .setFld ?_
    refine .setFld ?_
    split <;> exact .setReg hs

theorem Sound.setChain {c h} (hs : Sound pend s) : Sound pend (s.setChain c h) := by
  unfold State.setChain
  exact .colStatus hs

theorem Sound.setSteps {t l} (hs : Sound pend s) : Sound pend (s.setSteps t l) := by
  unfold State.setSteps
  exact .ofColSteps hs (Sparse.wf_set _ _ _ _)

theorem Sound.stepCounter {t n task} (hs : Sound pend s) : Sound pend (s.stepCounter t n task) := by
  unfold State.stepCounter
  exact .when (.unless (.setFld hs) (fun hs => .setSteps hs)) (fun hs => .logEvent (.setBit hs))

theorem Sound.clearCounter {t} (hs : Sound pend s) : Sound pend (s.clearCounter t) := by
  unfold State.clearCounter
  exact .setSteps (.setFld hs)

theorem Sound.setShiftHeld {gi dest n} (hs : Sound pend s) : Sound pend (s.setShiftHeld gi dest n) := by
  unfold State.setShiftHeld
  exact .ofShiftBook hs (Sparse.wf_set _ _ _ _)

theorem Sound.meterOp {x k n} (hs : Sound pend s) : Sound pend (s.meterOp x k n).2 := by
  unfold State.meterOp
  split
  · exact .meter hs
  · exact hs

theorem Sound.failOp {id} (hs : Sound pend s) : Sound pend (s.failOp id) := by
  unfold State.failOp
  split
  · exact hs
  · dsimp only
    split
    · exact .abortTask (.setOp hs)
    · exact .setOp hs

theorem Sound.engineWrite {n x a bs} (hs : Sound pend s) : Sound pend (State.engineWrite n s x a bs).1 := by
  induction n generalizing s a bs with
  | zero => exact hs
  | succ n ih =>
    unfold State.engineWrite
    split
    · exact hs
    · refine ih ?_
      split
      · exact .postTransfer (.meterOp hs)
      · split
        · exact .recordEcc (.ofFst (.storeBytes (.meterOp hs)) ‹_›)
        · exact .ofFst (.storeBytes (.meterOp hs)) ‹_›

theorem Sound.opWrite {x a bs} (hs : Sound pend s) : Sound pend (s.opWrite x a bs) := by
  unfold State.opWrite
  exact .unless (.engineWrite hs) (fun hs => .failOp hs)

theorem Sound.opRead {x n e} (hs : Sound pend s) : Sound pend (s.opRead x n e).1 := by
  unfold State.opRead
  split
  · exact hs
  · split
    · exact hs
    · exact .countEccAt hs
    · split
      · exact .failOp (.readError hs)
      · exact hs

theorem Sound.placePart {x g l n m} (hs : Sound pend s) : Sound pend (s.placePart x g l n m) := by
  unfold State.placePart
  exact .ite hs (.ite (.opWrite hs) (.ite (.opWrite hs) (.ite hs (.ite (.opWrite hs) hs))))

theorem Sound.endRelease {c} (hs : Sound pend s) : Sound pend (s.endRelease c) := by
  unfold State.endRelease
  split
  · exact hs
  · refine .ite hs ?_
    split
    · exact hs
    · exact .finish (.colStatus (.same (.foldl (fun _ _ hs => .setCell hs) hs)))

theorem Sound.chainPair {c d f} (hs : Sound pend s) : Sound pend (s.chainPair c d f) := by
  unfold State.chainPair
  refine .ite hs ?_
  refine .foldl (fun _ _ hs => ?_) hs
  dsimp only
  split
  · exact .ite (.setCell hs) hs
  · exact hs

theorem Sound.abortOp {x} (hs : Sound pend s) : Sound pend (s.abortOp x) := by
  unfold State.abortOp
  refine .endRelease ?_
  split
  · refine .abortTask ?_
    split
    · refine .chainPair ?_
      refine .same ?_
      split
      · exact hs
      · refine .foldl (fun _ _ hs => ?_) hs
        split
        · exact hs
        · exact .ite (.undefineBytes hs) (.undefineBytes hs)
    · refine .setChain ?_
      refine .foldl (fun _ _ hs => .clearCounter hs) ?_
      refine .chainPair ?_
      refine .same ?_
      split
      · exact hs
      · refine .foldl (fun _ _ hs => ?_) hs
        split
        · exact hs
        · exact .ite (.undefineBytes hs) (.undefineBytes hs)
  · split
    · refine .chainPair ?_
      refine .same ?_
      split
      · exact hs
      · refine .foldl (fun _ _ hs => ?_) hs
        split
        · exact hs
        · exact .ite (.undefineBytes hs) (.undefineBytes hs)
    · refine .setChain ?_
      refine .foldl (fun _ _ hs => .clearCounter hs) ?_
      refine .chainPair ?_
      refine .same ?_
      split
      · exact hs
      · refine .foldl (fun _ _ hs => ?_) hs
        split
        · exact hs
        · exact .ite (.undefineBytes hs) (.undefineBytes hs)

theorem Sound.discardTray {p d} (hs : Sound pend s) : Sound pend (s.discardTray p d) := by
  unfold State.discardTray
  split
  · exact .ite (.emptyTray hs) hs
  · exact hs

theorem Sound.freeRing {d} (hs : Sound pend s) : Sound pend (s.freeRing d) := by
  unfold State.freeRing
  exact .foldl (fun _ _ hs => .chainPair hs) (.undefineBytes hs)

theorem Sound.groupFrost {p gi} (hs : Sound pend s) : Sound pend (s.groupFrost p gi) := by
  unfold State.groupFrost
  split
  · exact hs
  · exact .ite hs (.ite (.discardTray (.voidStep (.abortTask hs))) (.when (.abortTask hs) (fun hs => .freeRing hs)))

theorem Sound.takeError {gi e} (hs : Sound pend s) : Sound pend (s.takeError gi e) := by
  unfold State.takeError
  split
  · exact hs
  · split
    · exact .setGroup hs
    · exact .ofShiftBook (.groupFrost (.foldl (fun _ _ hs => .abortOp hs) (.setGroup hs))) (Sparse.wf_filter _ _ _)

theorem Sound.noteRefusal {gi cause tick} (hs : Sound pend s) : Sound pend (s.noteRefusal gi cause tick) := by
  unfold State.noteRefusal
  exact .ite hs hs

theorem Sound.raiseError {gi cause opseq feasible} (hs : Sound pend s) : Sound pend (s.raiseError gi cause opseq feasible) := by
  unfold State.raiseError
  split
  · exact hs
  · exact .noteRefusal (.takeError (.logEvent (.foldl (fun _ _ hs => .send hs) hs)))

theorem Sound.ownFlags {id f} (hs : Sound pend s) : Sound pend (s.ownFlags id f) := by
  unfold State.ownFlags
  split
  · exact hs
  · exact .foldl (fun _ _ hs => .addNumFlags hs) (.setOp hs)

theorem Sound.meterLeg {x g l n} (hs : Sound pend s) : Sound pend (s.meterLeg x g l n).2 := by
  unfold State.meterLeg
  refine .meterOp ?_
  split
  · exact .meterOp hs
  · exact hs

theorem Sound.sendPart {id l lo} (hs : Sound pend s) : Sound pend (s.sendPart id l lo) := by
  unfold State.sendPart
  split
  · exact hs
  · split
    · exact hs
    · refine .ite hs ?_
      dsimp only
      split
      · exact hs
      · exact .failOp (.recordEcc hs)
      · refine .ite ?_ ?_
        · split
          · refine .fldSend ?_
            split
            · exact .setOp (.addSat (.when (.ownFlags (.setOp (.meterLeg hs))) (fun hs => .setShiftHeld hs)))
            · exact .when (.ownFlags (.setOp (.meterLeg hs))) (fun hs => .setShiftHeld hs)
          · refine .raiseError ?_
            split
            · exact .setOp (.addSat (.when (.ownFlags (.setOp (.meterLeg hs))) (fun hs => .setShiftHeld hs)))
            · exact .when (.ownFlags (.setOp (.meterLeg hs))) (fun hs => .setShiftHeld hs)
        · refine .send ?_
          split
          · exact .setOp (.addSat (.when (.ownFlags (.setOp (.meterLeg hs))) (fun hs => .setShiftHeld hs)))
          · exact .when (.ownFlags (.setOp (.meterLeg hs))) (fun hs => .setShiftHeld hs)

theorem Sound.returnCredit {x g src} (hs : Sound pend s) : Sound pend (s.returnCredit x g src) := by
  unfold State.returnCredit
  refine .ite ?_ (.send hs)
  split
  · exact .fldSend hs
  · exact hs

theorem Sound.releaseSlots {id} (hs : Sound pend s) : Sound pend (s.releaseSlots id) := by
  unfold State.releaseSlots
  split
  · exact hs
  · split
    · exact hs
    · exact .foldl (fun _ _ hs => .returnCredit hs) hs

theorem Sound.progress {id} (hs : Sound pend s) : Sound pend (s.progress id) := by
  unfold State.progress
  split
  · exact hs
  · split
    · exact hs
    · exact .releaseSlots (.foldl (fun _ _ hs => .foldl (fun _ _ hs => .sendPart hs) hs) hs)

theorem Sound.acceptPart {x g m} (hs : Sound pend s) : Sound pend (s.acceptPart x g m) := by
  unfold State.acceptPart
  refine .ite (.raiseError hs) ?_
  refine .progress ?_
  refine .same ?_
  split
  · exact .placePart hs
  · exact hs

theorem Sound.fireOwn {chain index op g} (hs : Sound pend s) : Sound pend (s.fireOwn chain index op g) := by
  unfold State.fireOwn
  refine .progress ?_
  refine .foldl (fun _ _ hs => ?_) (.same (.setGroup hs))
  split
  · exact .acceptPart hs
  · exact hs

theorem Sound.pieceIn {plot chip site tag op addr data} (hs : Sound pend s) : Sound pend (s.pieceIn plot chip site tag op addr data) := by
  unfold State.pieceIn
  dsimp only
  split
  · exact .addSat hs
  · split
    · exact .addSat hs
    · refine .ite (.addSat hs) ?_
      split
      · exact .acceptPart hs
      · exact .ite hs (.addSat hs)

/-! ### Group work -/

theorem Sound.setGroupCtx {p x} (hs : Sound pend s) : Sound pend (s.setGroupCtx p x) := by
  unfold State.setGroupCtx
  exact hs

theorem Sound.startCheck {p} (hs : Sound pend s) : Sound pend (s.startCheck p) := by
  unfold State.startCheck
  split
  · exact hs
  · dsimp only
    split
    · exact hs
    · exact .ite hs (.fireOwn hs)

theorem Sound.judgeCheck {p op g opseq l} (hs : Sound pend s) : Sound pend (s.judgeCheck p op g opseq l) := by
  unfold State.judgeCheck
  split
  · exact hs
  · dsimp only
    split
    · exact hs
    · exact .abortTask (.raiseError (.setBit (.logEvent (.logEvent hs))))

theorem Sound.expandRows {c doff nodes rowtab} (hs : Sound pend s) : Sound pend (s.expandRows c doff nodes rowtab) := by
  unfold State.expandRows
  exact .foldl (fun _ _ hs => .writeBytes hs) hs

theorem Sound.expandHeader {tid header} (hs : Sound pend s) : Sound pend (s.expandHeader tid header) := by
  unfold State.expandHeader
  split
  · exact hs
  · exact .foldl (fun _ _ hs => .foldl (fun _ _ hs => .expandRows hs) hs) hs

theorem Sound.openGroup {p tid a} (hs : Sound pend s) : Sound pend (s.openGroup p tid a) := by
  unfold State.openGroup
  exact .startCheck (.unless (.setFld hs) (fun hs => .expandHeader hs))

theorem Sound.groupPiece {m kind gi} (hs : Sound pend s) : Sound pend (s.groupPiece m kind gi) := by
  unfold State.groupPiece
  dsimp only
  split
  · exact .addSat hs
  · exact .ite (.addSat hs) (.ite (.logEvent hs) (.pieceIn (.setGroupCtx hs)))

theorem Sound.ringPiece {p x m} (hs : Sound pend s) : Sound pend (s.ringPiece p x m) := by
  unfold State.ringPiece
  dsimp only
  split
  · exact .ite (.addSat hs) hs
  · exact .ite (.ite (.setGroupCtx (.ite (.addSat hs) hs)) (.pieceIn (.setGroupCtx hs))) (.ite hs (.pieceIn hs))

theorem Sound.takePiece {m} (hs : Sound pend s) : Sound pend (s.takePiece m) := by
  unfold State.takePiece
  dsimp only
  split
  · exact .pieceIn hs
  · exact .ite (.ringPiece hs) (.ite (.groupPiece hs) (.ite (.groupPiece hs) (.pieceIn hs)))

/-! ### Collective commands -/

theorem Sound.armNotify {c d} (hs : Sound pend s) : Sound pend (s.armNotify c d) := by
  unfold State.armNotify
  exact .ite hs (.foldl (fun _ _ hs => .setCell hs) hs)

theorem Answers.chainArm {p} (hs : Sound pend s) : Answers pend (execChainArm p s) := by
  unfold Machine.execChainArm
  refine .next ?_
  refine .runCommand hs (fun _ _ hs => ?_)
  refine .ite (.finishOpen hs) ?_
  refine .ite (.finishOpen hs) ?_
  split
  · exact .finishOpen hs
  · exact .finish (.foldl (fun _ _ hs => .armNotify hs) (.setChain hs))

theorem Answers.chainRelease {p} (hs : Sound pend s) : Answers pend (execChainRelease p s) := by
  unfold Machine.execChainRelease
  refine .next ?_
  refine .runCommand hs (fun _ _ hs => ?_)
  split
  · exact .finishOpen hs
  · exact .ite (.finishOpen hs) (.endRelease (.setChain hs))

theorem Answers.opAbort {p} (hs : Sound pend s) : Answers pend (execOpAbort p s) := by
  unfold Machine.execOpAbort
  refine .next ?_
  refine .runCommand hs (fun _ _ hs => ?_)
  split
  · exact .finishOpen hs
  · exact .finishOpen (.foldl (fun _ _ hs => .ite (.raiseError hs) hs) hs)

theorem Answers.colTrigger {a p v} (hs : Sound pend s) : Answers pend (execColTrigger a p v s) := by
  unfold Machine.execColTrigger
  exact .ite (.next (.refusedWrite hs)) (.ite (.next hs) (.ite (.next (.logIgnored hs)) (.next (.stepCounter hs))))

theorem Sound.ackDrain {c d} (hs : Sound pend s) : Sound pend (s.ackDrain c d) := by
  unfold State.ackDrain
  exact .retire (.stepCounter (.setCell hs))

theorem Sound.noteDrain {c d sink op index} (hs : Sound pend s) : Sound pend (s.noteDrain c d sink op index) := by
  unfold State.noteDrain
  dsimp only
  split
  · refine .progress ?_
    refine .ackDrain ?_
    dsimp only
    split
    · exact .setOp hs
    · exact hs
  · refine .ackDrain ?_
    dsimp only
    split
    · exact .setChain hs
    · exact hs

theorem Sound.landDrain {c d sink op index} (hs : Sound pend s) : Sound pend (s.landDrain c d sink op index) := by
  unfold State.landDrain
  split
  · exact .abortTask (.recordEcc (.ofFst (.storeBytes hs) ‹_›))
  · exact .noteDrain (.ofFst (.storeBytes hs) ‹_›)

theorem Answers.drainAck {c} (hs : Sound pend s) : Answers pend (execDrainAck c s) := by
  unfold Machine.execDrainAck
  dsimp only
  split
  · exact .next hs
  · refine .ite (.next hs) ?_
    refine .ite (.next (.ackDrain hs)) ?_
    refine .ite (.next (.cellFault hs)) ?_
    split
    · exact .next hs
    · exact .next (.landDrain hs)

theorem Sound.fire {c h d g} (hs : Sound pend s) : Sound pend (s.fire c h d g) := by
  unfold State.fire
  refine .progress ?_
  refine .foldl (fun _ _ hs => ?_) (.setChain (.same
      (.unless (.setGroup (.chainPair (.setSteps (.setFld hs)))) (fun hs => .markUnsync hs))))
  split
  · exact .acceptPart hs
  · exact hs

theorem Answers.opFire {c} (hs : Sound pend s) : Answers pend (execOpFire c s) := by
  unfold Machine.execOpFire
  split
  · exact .next hs
  · split
    · exact .next hs
    · split
      · exact .next hs
      · exact .ite (.next hs) (.ite (.ite (.next hs) (.next (.setChain (.setBit hs)))) (.next (.fire hs)))

theorem Answers.ringChunk {id stage piece off e} (hs : Sound pend s) : Answers pend (execRingChunk id stage piece off e s) := by
  unfold Machine.execRingChunk
  split
  · exact .next hs
  · split
    · exact .next hs
    · refine .ite (.next hs) ?_
      split
      · exact .next hs
      · exact .ite (.next hs) (.next (.when (.opRead hs) (fun hs => .releaseSlots (.sendPart hs))))

theorem Sound.putResults {x g res f} (hs : Sound pend s) : Sound pend (s.putResults x g res f) := by
  unfold State.putResults
  exact .setOp (.unless (.ownFlags (.foldl (fun _ _ hs => .opWrite hs) hs)) (fun hs => .addSat hs))

theorem Sound.putRecords {x} (hs : Sound pend s) : Sound pend (s.putRecords x) := by
  unfold State.putRecords
  exact .setOp (.unless (.ite hs (.opWrite hs)) (fun hs => .opWrite hs))

theorem Sound.endOp {x g} (hs : Sound pend s) : Sound pend (s.endOp x g) := by
  unfold State.endOp
  extract_lets block records s1 s2 keep s3 s4
  have h2 : Sound pend s2 := .unless (.ite hs (.chainPair hs)) (fun hs => .stepCounter hs)
  clear_value s2
  have h4 : Sound pend s4 := .endRelease (.colStatus (.same h2))
  exact .ite (.judgeCheck h4) (.when h4 (fun hs => .shardMerged hs))

theorem Sound.closeOp {id g} (hs : Sound pend s) : Sound pend (s.closeOp id g) := by
  unfold State.closeOp
  split
  · exact hs
  · refine .ite hs ?_
    dsimp only
    split
    · exact .ite (.putRecords hs) hs
    · exact .unless (.ite (.putRecords hs) hs) (fun hs => .endOp hs)

theorem Answers.opComplete {id e} (hs : Sound pend s) : Answers pend (execOpComplete id e s) := by
  unfold Machine.execOpComplete
  split
  · exact .next hs
  · split
    · exact .next hs
    · refine .ite (.next hs) ?_
      refine .ite (.next (.closeOp hs)) ?_
      refine .ite (.next hs) ?_
      split
      · exact .next hs
      · exact .next (.failOp (.recordEcc hs))
      · exact .next (.when (.opRead hs) (fun hs => .closeOp (.putResults hs)))

theorem Answers.collectivePiece {m} (hs : Sound pend s) : Answers pend (execCollectivePiece m s) := by
  unfold Machine.execCollectivePiece
  exact .next (.arriving hs (fun _ hs => .takePiece hs))

theorem Sound.creditIn {plot chip site tag} (hs : Sound pend s) : Sound pend (s.creditIn plot chip site tag) := by
  unfold State.creditIn
  dsimp only
  split
  · exact hs
  · split
    · exact hs
    · refine .ite hs ?_
      split
      · exact .foldl (fun _ _ hs => .progress hs) (.setShiftHeld hs)
      · exact .progress (.setOp hs)

theorem Answers.creditReturn {m} (hs : Sound pend s) : Answers pend (execCreditReturn m s) := by
  unfold Machine.execCreditReturn
  exact .next (.arriving hs (fun _ hs => .ite hs (.creditIn hs)))

theorem Sound.frostIn {m} (hs : Sound pend s) : Sound pend (s.frostIn m) := by
  unfold State.frostIn
  dsimp only
  split
  · exact .addSat hs
  · exact .ite (.addSat hs) (.noteRefusal (.takeError (.logEvent hs)))

theorem Answers.frost {m} (hs : Sound pend s) : Answers pend (execFrost m s) := by
  unfold Machine.execFrost
  exact .next (.arriving hs (fun _ hs => .frostIn hs))

theorem Answers.collectiveTimeout {gi opseq} (hs : Sound pend s) : Answers pend (execCollectiveTimeout gi opseq s) := by
  unfold Machine.execCollectiveTimeout
  split
  · exact .next hs
  · refine .ite (.next hs) ?_
    split
    · exact .next hs
    · exact .ite (.next hs) (.next (.raiseError hs))

theorem Answers.errorReport {gi} (hs : Sound pend s) : Answers pend (execErrorReport gi s) := by
  unfold Machine.execErrorReport
  split
  · exact .next hs
  · split
    · exact .next hs
    · exact .ite (.next hs) (.next (.startCheck (.setGroup
          (.ite (.setBit (.foldl (fun _ _ hs => .storeBytes hs) hs)) (.setReg (.setReg (.foldl (fun _ _ hs => .storeBytes hs) hs)))))))

end Sys2Proof.Machine
end

section
/-!
Soundness through links, messages of other chips, admission, retrieval and field ports.
-/

namespace Sys2Proof.Machine
open Sys2Proof

-- One proof at a time: many short proofs at once ask for more threads than the stack limit leaves room for.
set_option Elab.async false

variable {pend : List Instr} {s t : State}

/-! ### Links -/

theorem Sound.setLinkState {l st} (hs : Sound pend s) : Sound pend (s.setLinkState l st) := by
  unfold State.setLinkState
  exact .when (.setFld hs) (fun hs => .chooseParent (.logEvent (.setLink (.setFld hs))))

theorem Sound.linkOff {l} (hs : Sound pend s) : Sound pend (s.linkOff l) := by
  unfold State.linkOff
  exact .setPhy (.setFld (.setFld (.setLinkState hs)))

theorem Sound.linkFallow {l reason} (hs : Sound pend s) : Sound pend (s.linkFallow l reason) := by
  unfold State.linkFallow
  exact .logEvent (.setPhy (.setFld (.setFld (.setLinkState hs))))

theorem Sound.linkGoUp {l} (hs : Sound pend s) : Sound pend (s.linkGoUp l) := by
  unfold State.linkGoUp
  exact .pump (.logEvent (.setLink (.setFld (.setFld (.setLinkState (.setPhy hs))))))

theorem Sound.linkRetrain {l} (hs : Sound pend s) : Sound pend (s.linkRetrain l) := by
  unfold State.linkRetrain
  exact .ite (.linkFallow (.setPhy hs)) (.setLinkState (.setPhy hs))

theorem Sound.sendAck {l} (hs : Sound pend s) : Sound pend (s.sendAck l) := by
  unfold State.sendAck
  exact .sendLink (.setPhy hs)

theorem Answers.dataFlit {l seqNo vc phase isShared crcOk} (hs : Sound pend s) :
    Answers pend (execDataFlit l seqNo vc phase isShared crcOk s) := by
  unfold Machine.execDataFlit
  exact .ite (.next hs) (.ite (.next (.unless (.addSat hs) (fun hs => .sendLink (.setPhy hs))))
      (.ite (.ite (.next (.ite hs (.sendLink (.setPhy hs)))) (.next hs)) (.ite (.next (.sendAck (.setPhy hs))) (.next (.setPhy hs)))))

theorem Sound.replayFrom {l from'} (hs : Sound pend s) : Sound pend (s.replayFrom l from') := by
  unfold State.replayFrom
  exact .ite hs (.ite (.linkRetrain (.addSat (.setPhy hs))) (.sendLink (.addSat (.setPhy hs))))

theorem Sound.setWidth {l} (hs : Sound pend s) : Sound pend (s.setWidth l) := by
  unfold State.setWidth
  exact .ite (.linkFallow hs) (.setFld hs)

theorem Answers.linkControlFlit {l c} (hs : Sound pend s) : Answers pend (execLinkControlFlit l c s) := by
  unfold Machine.execLinkControlFlit
  refine .ite (.next hs) ?_
  dsimp only
  split
  · exact .next (.addSat hs)
  · exact .next (.pump (.setPhy hs))
  · exact .ite (.next (.replayFrom hs)) (.next hs)
  · exact .ite (.next (.setWidth (.setPhy hs))) (.next hs)

theorem Answers.replayTimeout {l} (hs : Sound pend s) : Answers pend (execReplayTimeout l s) := by
  unfold Machine.execReplayTimeout
  exact .ite (.next hs) (.next (.replayFrom hs))

theorem Answers.laneFailure {l lane} (hs : Sound pend s) : Answers pend (execLaneFailure l lane s) := by
  unfold Machine.execLaneFailure
  exact .ite (.next hs) (.next (.setWidth (.logEvent (.sendLink (.setFld hs)))))

theorem Sound.sendRecord {l} (hs : Sound pend s) : Sound pend (s.sendRecord l) := by
  unfold State.sendRecord
  exact .sendLink (.setPhy hs)

theorem Answers.discoverySend {l} (hs : Sound pend s) : Answers pend (execDiscoverySend l s) := by
  unfold Machine.execDiscoverySend
  exact .ite (.next hs) (.next (.sendRecord hs))

theorem Sound.tryUp {l} (hs : Sound pend s) : Sound pend (s.tryUp l) := by
  unfold State.tryUp
  dsimp only
  split
  · exact hs
  · refine .ite hs ?_
    split
    · exact .linkFallow hs
    · exact .linkGoUp (.setLink (.setPhy (.setReg hs)))

theorem Sound.setCoord {source chip mismatch} (hs : Sound pend s) : Sound pend (s.setCoord source chip mismatch) := by
  unfold State.setCoord
  exact .foldl (fun _ _ hs => .tryUp hs) (.settleRoot (.setReg hs))

theorem Sound.settleCoord (hs : Sound pend s) : Sound pend s.settleCoord := by
  unfold State.settleCoord
  refine .ite hs ?_
  split
  · exact .setCoord hs
  · exact .foldl (fun _ _ hs => .linkFallow hs) hs

theorem Answers.discoveryRecord {l q} (hs : Sound pend s) : Answers pend (execDiscoveryRecord l q s) := by
  unfold Machine.execDiscoveryRecord
  refine .ite (.next (.sendRecord hs)) ?_
  refine .ite (.next hs) ?_
  refine .ite (.next (.setPhy hs)) ?_
  refine .ite ?_ (.next (.tryUp (.sendRecord (.setPhy hs))))
  refine .next ?_
  split
  · exact .settleCoord (.linkFallow (.sendRecord (.setPhy hs)))
  · exact .sendRecord (.setPhy hs)

theorem Answers.switchRecord {l plane rack port} (hs : Sound pend s) : Answers pend (execSwitchRecord l plane rack port s) := by
  unfold Machine.execSwitchRecord
  exact .ite (.next hs) (.ite (.next (.settleCoord (.linkFallow (.setPhy hs))))
      (.ite (.next (.linkFallow (.setPhy hs))) (.next
          (.linkGoUp (.when (.setLink (.setReg (.when (.setPhy hs) (fun hs => .linkFallow hs)))) (fun hs => .setCoord hs))))))

theorem Answers.discoverySilence {l} (hs : Sound pend s) : Answers pend (execDiscoverySilence l s) := by
  unfold Machine.execDiscoverySilence
  exact .ite (.next hs) (.next (.settleCoord (.linkOff (.setPhy hs))))

theorem Answers.trainingComplete {l failed delay} (hs : Sound pend s) : Answers pend (execTrainingComplete l failed delay s) := by
  unfold Machine.execTrainingComplete
  exact .ite (.next hs) (.ite (.next (.settleCoord (.linkFallow (.setFld hs))))
      (.next (.setLinkState (.setLink (.setPhy (.setFld (.setFld hs)))))))

theorem Answers.retrainEnd {l locked failed} (hs : Sound pend s) : Answers pend (execRetrainEnd l locked failed s) := by
  unfold Machine.execRetrainEnd
  exact .ite (.next hs) (.ite (.next (.linkOff hs))
      (.ite (.next (.linkOff (.setFld hs))) (.next (.linkGoUp
          (.unless (.addSat (.setPhy (.setFld (.setFld hs)))) (fun hs => .sendLink hs))))))

theorem Answers.lnkRelease {a l} (hs : Sound pend s) : Answers pend (execLnkRelease a l s) := by
  unfold Machine.execLnkRelease
  exact .ite (.next hs) (.ite (.next (.linkOff hs)) (.next hs))

theorem Answers.lnkRetrain {a l} (hs : Sound pend s) : Answers pend (execLnkRetrain a l s) := by
  unfold Machine.execLnkRetrain
  exact .ite (.next hs) (.ite (.next (.linkOff hs)) (.next hs))

theorem Answers.lnkDisable {a l v} (hs : Sound pend s) : Answers pend (execLnkDisable a l v s) := by
  unfold Machine.execLnkDisable
  exact .ite (.next hs) (.ite (.next (.settleCoord (.linkFallow (.viaStore hs (.setBit hs))))) (.next (.viaStore hs (.setBit hs))))

/-! ### Messages of other chips -/

theorem Sound.writeHere {a bs e} (hs : Sound pend s) : Sound pend (s.writeHere a bs e).1 := by
  unfold State.writeHere
  dsimp only
  split
  · exact .storeBad (.ite (.countEccAt hs) hs)
  · split
    · exact .recordEcc (.ofFst (.storeBytes (.ite (.countEccAt hs) hs)) ‹_›)
    · exact .ofFst (.storeBytes (.ite (.countEccAt hs) hs)) ‹_›

theorem Sound.answerWrite {m op stale} (hs : Sound pend s) : Sound pend (s.answerWrite m op stale) := by
  unfold State.answerWrite
  exact .ite hs (.send hs)

theorem Answers.fabricWrite {m e} (hs : Sound pend s) : Answers pend (execFabricWrite m e s) := by
  unfold Machine.execFabricWrite
  exact .next (.arriving hs (fun _ hs => .ite (.answerWrite hs)
      (.ite (.answerWrite hs) (.ite (.answerWrite hs) (.answerWrite (.writeHere hs))))))

theorem Answers.readRequest {m e} (hs : Sound pend s) : Answers pend (execReadRequest m e s) := by
  unfold Machine.execReadRequest
  refine .next ?_
  refine .arriving hs (fun _ hs => ?_)
  refine .ite (.ite (.send hs) (.send hs)) ?_
  refine .ite (.send hs) ?_
  split
  · exact .send (.recordEcc hs)
  · exact .ite (.send (.readError hs)) (.send (.ite (.countEccAt hs) hs))

theorem Sound.copyLands {i tile instr t q x bs} (hs : Sound pend s) : Sound pend (s.copyLands i tile instr t q x bs) := by
  unfold State.copyLands
  refine .ite ?_ (.writeParts hs)
  refine .ite (.streamFaultAt hs) ?_
  split
  · exact .streamFaultAt (.touch (.recordEcc (.ofFst (.storeBytes hs) ‹_›)))
  · exact .touch (.ofFst (.storeBytes hs) ‹_›)

theorem Sound.tileLands {i k o t bs} (hs : Sound pend s) : Sound pend (s.tileLands i k o t bs) := by
  unfold State.tileLands
  refine .ite (.fillCur hs) ?_
  split
  · exact hs
  · dsimp only
    split
    · exact .sendTile hs
    · exact .setStream (.sendTile hs)

theorem Sound.streamData {i tile instr t q part bs} (hs : Sound pend s) : Sound pend (s.streamData i tile instr t q part bs) := by
  unfold State.streamData
  split
  · exact hs
  · exact .setStream hs
  · exact .ite (.foldl (fun _ _ hs => .copyLands hs) hs) (.tileLands hs)

theorem Sound.streamReply {m q i arming tile instr part} (hs : Sound pend s) : Sound pend (s.streamReply m q i arming tile instr part) := by
  unfold State.streamReply
  split
  · exact .countStale hs
  · exact .ite (.countStale hs) (.ite (.streamFaultAt hs)
        (.ite (.streamFaultAt hs) (.ite (.streamFaultAt hs) (.ite (.streamFaultAt hs) (.streamData hs)))))

theorem Sound.moveReply {m q id} (hs : Sound pend s) : Sound pend (s.moveReply m q id) := by
  unfold State.moveReply
  split
  · exact .countStale hs
  · exact .ite (.rollBack hs) (.putJournal (.putBytes hs))

theorem Sound.commitReply {m q p n} (hs : Sound pend s) : Sound pend (s.commitReply m q p n) := by
  unfold State.commitReply
  split
  · exact hs
  · split
    · exact hs
    · exact .ite hs (.setSeq hs)

theorem Sound.replyIn {m} (hs : Sound pend s) : Sound pend (s.replyIn m) := by
  unfold State.replyIn
  split
  · exact .countStale hs
  · refine .ite (.countStale hs) ?_
    dsimp only
    split
    · exact .streamReply hs
    · exact .moveReply hs
    · exact .commitReply hs

theorem Answers.readReply {m} (hs : Sound pend s) : Answers pend (execReadReply m s) := by
  unfold Machine.execReadReply
  exact .next (.arriving hs (fun _ hs => .replyIn hs))

theorem Sound.noteLead {chip tag} (hs : Sound pend s) : Sound pend (s.noteLead chip tag) := by
  unfold State.noteLead
  exact hs

theorem Answers.readyNotice {m} (hs : Sound pend s) : Answers pend (execReadyNotice m s) := by
  unfold Machine.execReadyNotice
  refine .next ?_
  refine .arriving hs (fun _ hs => ?_)
  refine .ite hs ?_
  refine .logEvent ?_
  refine .ite ?_ ?_
  · refine .noteLead ?_
    split <;> exact hs
  · split <;> exact hs

/-! ### Decode and ring groups -/

theorem Sound.takeHeader {p x d b} (hs : Sound pend s) : Sound pend (s.takeHeader p x d b) := by
  unfold State.takeHeader
  exact .expandHeader (.setFld (.setGroupCtx hs))

theorem Sound.leadHeader {p x d b} (hs : Sound pend s) : Sound pend (s.leadHeader p x d b) := by
  unfold State.leadHeader
  split
  · exact hs
  · exact .foldl (fun _ _ hs => .progress hs) (.takeHeader (.foldl (fun _ _ hs => .send hs) hs))

theorem Answers.stepHeader {m} (hs : Sound pend s) : Answers pend (execStepHeader m s) := by
  unfold Machine.execStepHeader
  refine .next ?_
  refine .arriving hs (fun _ hs => ?_)
  dsimp only
  split
  · exact .addSat hs
  · exact .ite (.addSat hs) (.ite hs (.ite (.ite hs (.leadHeader hs)) (.takeHeader hs)))

theorem Answers.queryPiece {m} (hs : Sound pend s) : Answers pend (execQueryPiece m s) := by
  unfold Machine.execQueryPiece
  exact .next (.arriving hs (fun _ hs => .groupPiece hs))

theorem Answers.partialPiece {m} (hs : Sound pend s) : Answers pend (execPartialPiece m s) := by
  unfold Machine.execPartialPiece
  exact .next (.arriving hs (fun _ hs => .groupPiece hs))

theorem Sound.gatherPart {a q lg count i0} (hs : Sound pend s) : Sound pend (s.gatherPart a q lg count i0) := by
  unfold State.gatherPart
  refine .foldl (fun _ _ hs => .foldl (fun s _ hs => ?_) hs) hs
  extract_lets e
  cases e.cutting with
  | true => exact .putBytes (.putBytes (.peerBytes (.peerBytes hs)))
  | false => exact .putBytes (.putBytes (.pageRead (.pageRead hs)))

theorem Sound.formHome {p d tag u a} (hs : Sound pend s) : Sound pend (s.formHome p d tag u a) := by
  unfold State.formHome
  exact .foldl (fun _ _ hs => .gatherPart hs) (.putBytes hs)

theorem Sound.setHalves {tid h folded} (hs : Sound pend s) : Sound pend (s.setHalves tid h folded) := by
  unfold State.setHalves
  split
  · exact hs
  · exact .foldl (fun _ _ hs => .foldl (fun _ _ hs => .writeBytes hs) hs) hs

theorem Answers.hopLaunch {p} (hs : Sound pend s) : Answers pend (execHopLaunch p s) := by
  unfold Machine.execHopLaunch
  split
  · exact .next hs
  · refine .ite (.next hs) ?_
    refine .ite (.next (.setGroupCtx (.setBit (.setBit hs)))) ?_
    refine .ite (.next (.raiseError hs)) ?_
    refine .ite ?_ ?_
    · refine .next ?_
      split
      · exact .setHalves (.setGroupCtx (.ite hs (.markUnsync hs)))
      · exact .chainPair (.setHalves (.setGroupCtx (.ite hs (.markUnsync hs))))
      · exact .setHalves (.setGroupCtx (.ite hs (.markUnsync hs)))
    · split
      · refine .next ?_
        refine .fire ?_
        refine .ite ?_ ?_
        · refine .formHome ?_
          split
          · exact .setHalves (.setGroupCtx (.ite hs (.markUnsync hs)))
          · exact .chainPair (.setHalves (.setGroupCtx (.ite hs (.markUnsync hs))))
          · exact .setHalves (.setGroupCtx (.ite hs (.markUnsync hs)))
        · split
          · exact .setHalves (.setGroupCtx (.ite hs (.markUnsync hs)))
          · exact .chainPair (.setHalves (.setGroupCtx (.ite hs (.markUnsync hs))))
          · exact .setHalves (.setGroupCtx (.ite hs (.markUnsync hs)))
      · refine .next ?_
        split
        · exact .setHalves (.setGroupCtx (.ite hs (.markUnsync hs)))
        · exact .chainPair (.setHalves (.setGroupCtx (.ite hs (.markUnsync hs))))
        · exact .setHalves (.setGroupCtx (.ite hs (.markUnsync hs)))

theorem Answers.ringTimeout {p layer group} (hs : Sound pend s) : Answers pend (execRingTimeout p layer group s) := by
  unfold Machine.execRingTimeout
  split
  · exact .next hs
  · exact .ite (.next hs) (.next (.abortTask (.raiseError hs)))

theorem Answers.ringBufferRelease {gi} (hs : Sound pend s) : Answers pend (execRingBufferRelease gi s) := by
  unfold Machine.execRingBufferRelease
  split
  · dsimp only
    split
    · exact .next hs
    · exact .ite (.next hs) (.next (.send hs))
  · exact .next hs

/-! ### Admission -/

theorem Sound.refuse {p tag reason tick} (hs : Sound pend s) : Sound pend (s.refuse p tag reason tick) := by
  unfold State.refuse
  exact .addSat (.reply hs)

theorem Sound.acceptTask {tid t} (hs : Sound pend s) : Sound pend (s.acceptTask tid t) := by
  unfold State.acceptTask
  exact .when (.reply (.setTask hs)) (fun hs => .same hs)

theorem Sound.noteWait {p fresh} (hs : Sound pend s) : Sound pend (s.noteWait p fresh) := by
  unfold State.noteWait
  split
  · exact hs
  · exact .ite hs (.ite hs hs)

theorem Answers.admDoorbell {a p v} (hs : Sound pend s) : Answers pend (execAdmDoorbell a p v s) := by
  unfold Machine.execAdmDoorbell
  refine .ite (.next (.refusedWrite hs)) ?_
  split
  · exact .next hs
  · exact .ite (.next hs) (.ite (.next (.logIgnored hs)) (.next (.noteWait (.setPlot hs))))

theorem Sound.endCheck {tid t} (hs : Sound pend s) : Sound pend (s.endCheck tid t) := by
  unfold State.endCheck
  refine .ite (.refuse hs) ?_
  split
  · exact .refuse hs
  · exact .acceptTask hs

theorem Answers.admissionRequest {p body} (hs : Sound pend s) : Answers pend (execAdmissionRequest p body s) := by
  unfold Machine.execAdmissionRequest
  refine .ite (.next hs) ?_
  split
  · dsimp only
    split
    · exact .next (.refuse (.noteWait (.same (.putLe hs))))
    · exact .ite (.next (.acceptTask (.setTask (.noteWait (.same (.putLe hs))))))
          (.ite (.next (.endCheck (.setTask (.noteWait (.same (.putLe hs)))))) (.next (.setTask (.noteWait (.same (.putLe hs))))))
  · exact .next hs

theorem Answers.streamCheckEnd {tid} (hs : Sound pend s) : Answers pend (execStreamCheckEnd tid s) := by
  unfold Machine.execStreamCheckEnd
  refine .byService hs ?_
  split
  · exact .next hs
  · exact .ite (.next (.endCheck hs)) (.next hs)

theorem Sound.queueTask {tid t} (hs : Sound pend s) : Sound pend (s.queueTask tid t) := by
  unfold State.queueTask
  dsimp only
  split
  · exact .feedQueue (.foldl (fun _ _ hs => .armStream hs) (.foldl (fun _ _ hs => .setCell hs) hs))
  · exact .foldl (fun _ _ hs => .armStream hs) (.foldl (fun _ _ hs => .setCell hs) hs)

theorem Sound.loadCell {tid body c} (hs : Sound pend s) : Sound pend (s.loadCell tid body c) := by
  unfold State.loadCell
  exact .setFld (.setCell hs)

theorem Sound.startTask {tid t} (hs : Sound pend s) : Sound pend (s.startTask tid t) := by
  unfold State.startTask
  dsimp only
  split
  · refine .cellFault ?_
    split
    · exact .openGroup (.foldl (fun _ _ hs => .loadCell hs) (.reply (.when (.same (.setTask hs)) (fun hs => .markUnsync hs))))
    · exact .foldl (fun _ _ hs => .loadCell hs) (.reply (.when (.same (.setTask hs)) (fun hs => .markUnsync hs)))
  · split
    · exact .openGroup (.foldl (fun _ _ hs => .loadCell hs) (.reply (.when (.same (.setTask hs)) (fun hs => .markUnsync hs))))
    · exact .foldl (fun _ _ hs => .loadCell hs) (.reply (.when (.same (.setTask hs)) (fun hs => .markUnsync hs)))

theorem Answers.taskStart {tid} (hs : Sound pend s) : Answers pend (execTaskStart tid s) := by
  unfold Machine.execTaskStart
  split
  · exact .next hs
  · exact .ite (.next hs) (.ite (.next hs) (.ite (.next (.ite hs (.queueTask hs)))
        (.ite (.next (.startTask (.ite hs (.queueTask hs))))
            (.ite (.next (.ite hs (.queueTask hs))) (.next (.startTask (.ite hs (.queueTask hs))))))))

theorem Sound.parkStreams {tid} (hs : Sound pend s) : Sound pend (s.parkStreams tid) := by
  unfold State.parkStreams
  exact .foldl (fun _ _ hs => .endStream (.foldl (fun _ _ hs => .setCell hs) hs)) hs

theorem Sound.clearCell {tid c} (hs : Sound pend s) : Sound pend (s.clearCell tid c) := by
  unfold State.clearCell
  exact .setFld (.setCell hs)

theorem Answers.taskEnd {tid} (hs : Sound pend s) : Answers pend (execTaskEnd tid s) := by
  unfold Machine.execTaskEnd
  split
  · exact .next hs
  · exact .ite (.next hs) (.next (.reply (.noteTaskEnd (.same (.parkStreams (.foldl (fun _ _ hs => .clearCell hs) hs))))))

theorem Answers.deadlineAbort {tid} (hs : Sound pend s) : Answers pend (execDeadlineAbort tid s) := by
  unfold Machine.execDeadlineAbort
  split
  · exact .next hs
  · exact .ite (.next hs) (.next (.abortLate hs))

theorem Sound.shedLoad {n} (hs : Sound pend s) : Sound pend (State.shedLoad n s) := by
  induction n generalizing s with
  | zero => exact hs
  | succ n ih =>
    unfold State.shedLoad
    split
    · exact hs
    · dsimp only
      split
      · exact hs
      · exact ih (.abortLate hs)

theorem Answers.capacityLoss (hs : Sound pend s) : Answers pend (execCapacityLoss s) := by
  unfold Machine.execCapacityLoss
  exact .next (.shedLoad hs)

/-! ### Retrieval -/

theorem Answers.idxCreate {p} (hs : Sound pend s) : Answers pend (execIdxCreate p s) := by
  unfold Machine.execIdxCreate
  refine .next ?_
  refine .runCommand hs (fun _ _ hs => ?_)
  refine .ite (.finishOpen hs) ?_
  split
  · exact .finishOpen hs
  · split
    · exact .finishOpen hs
    · exact .finish (.setIndex hs)

theorem Sound.runIndexCommand {p op live ok body} (hs : Sound pend s) (hbody : ∀ a a' a'' s, Sound pend s → Sound pend (body a a' a'' s)) :
    Sound pend (s.runIndexCommand p op live ok body) := by
  unfold State.runIndexCommand
  refine .runCommand hs (fun _ _ hs => ?_)
  split
  · exact .finishOpen hs
  · exact .ite (.finishOpen hs) (hbody _ _ _ _ hs)

theorem Answers.idxDestroy {p} (hs : Sound pend s) : Answers pend (execIdxDestroy p s) := by
  unfold Machine.execIdxDestroy
  exact .next (.runIndexCommand hs (fun _ _ _ _ hs => .ite (.setIndex hs) (.freeIndex hs)))

theorem Answers.idxStage {p} (hs : Sound pend s) : Answers pend (execIdxStage p s) := by
  unfold Machine.execIdxStage
  refine .next ?_
  refine .runIndexCommand hs (fun _ _ _ _ hs => ?_)
  refine .ite (.finishOpen hs) ?_
  split
  · exact .finishOpen hs
  · exact .finishOpen (.setIndex hs)

theorem Answers.idxSwap {p} (hs : Sound pend s) : Answers pend (execIdxSwap p s) := by
  unfold Machine.execIdxSwap
  exact .next (.runIndexCommand hs (fun _ _ _ _ hs => .ite (.finishOpen hs) (.ite (.finishOpen (.setBit hs)) (.same (.setIndex hs)))))

theorem Sound.swapIndex {k} (hs : Sound pend s) : Sound pend (s.swapIndex k) := by
  unfold State.swapIndex
  split
  · exact hs
  · split
    · exact .ite hs (.markUnsync (.same (.setIndex hs)))
    · exact hs

theorem Answers.indexSwap {ix} (hs : Sound pend s) : Answers pend (execIndexSwap ix s) := by
  unfold Machine.execIndexSwap
  exact .next (.swapIndex hs)

theorem Answers.insertEntry {p} (hs : Sound pend s) : Answers pend (execInsertEntry p s) := by
  unfold Machine.execInsertEntry
  refine .next ?_
  refine .runIndexCommand hs (fun _ _ _ _ hs => ?_)
  refine .ite (.finishOpen hs) ?_
  split
  · exact .finishOpen (.setIndex hs)
  · exact .finishOpen (.setBit hs)

theorem Answers.deleteEntry {p} (hs : Sound pend s) : Answers pend (execDeleteEntry p s) := by
  unfold Machine.execDeleteEntry
  refine .next ?_
  refine .runIndexCommand hs (fun _ _ _ _ hs => ?_)
  refine .ite (.finishOpen hs) ?_
  split
  · exact .finishOpen (.setIndex hs)
  · exact .finishOpen (.setBit hs)

theorem Answers.compact {p} (hs : Sound pend s) : Answers pend (execCompact p s) := by
  unfold Machine.execCompact
  exact .next (.runIndexCommand hs (fun _ _ _ _ hs => .ite (.finishOpen hs) (.finishOpen (.setIndex hs))))

theorem Sound.listBuffer {p region n a} (hs : Sound pend s) (e : s.listBuffer p region n = some (a, t)) : Sound pend t := by
  unfold State.listBuffer at e
  split at e
  · cases e
    exact .allocFrame hs ‹_›
  · exact .allocFrame hs e

theorem Sound.writeBase {p region tick es b} (hs : Sound pend s) (e : s.writeBase p region tick es = some (b, t)) : Sound pend t := by
  unfold State.writeBase at e
  split at e
  · cases e
    exact hs
  · split at e
    · cases e
    next a s1 h1 =>
      split at e
      · cases e
      next b s2 h2 =>
        cases e
        exact .putBytes (.putBytes (.listBuffer (.listBuffer hs h1) h2))

theorem Answers.compaction {ix list} (hs : Sound pend s) : Answers pend (execCompaction ix list s) := by
  unfold Machine.execCompaction
  split
  · exact .next hs
  · split
    · exact .next hs
    · refine .ite (.next hs) ?_
      split
      · dsimp only
        split
        · exact .next (.logEvent (.setIndex (.recordEcc hs)))
        · split
          · exact .next (.logEvent (.setIndex hs))
          · exact .next (.setIndex (.writeBase hs ‹_›))
      · exact .next hs

theorem Answers.versionRelease {ix list} (hs : Sound pend s) : Answers pend (execVersionRelease ix list s) := by
  unfold Machine.execVersionRelease
  refine .byService hs ?_
  split
  · exact .next hs
  · refine .ite ?_ ?_
    · split
      · exact .next hs
      · split
        · exact .ite (.next hs) (.next (.foldl (fun _ _ hs => .freeFrame hs) (.setIndex hs)))
        · exact .next hs
    · split
      · refine .ite (.next hs) ?_
        dsimp only
        split
        · exact .next (.finishOpen (.setIndex hs))
        · exact .next (.setIndex hs)
      · exact .next hs

theorem Sound.rclEngine {r} (hs : Sound pend s) : Sound pend (s.rclEngine r) := by
  unfold State.rclEngine
  exact .unless (.setFld hs) (fun hs => .setFld hs)

theorem Sound.rclStatus (hs : Sound pend s) : Sound pend s.rclStatus := by
  unfold State.rclStatus
  exact .foldl (fun _ _ hs => .rclEngine hs) hs

theorem Sound.armSnapshots {n tid qs} (hs : Sound pend s) : Sound pend (s.armSnapshots n tid qs) := by
  unfold State.armSnapshots
  exact .foldl (fun _ _ hs => hs) hs

theorem Sound.takeBatch {p tag k x d self snaps} (hs : Sound pend s) (e : s.takeBatch p tag k x d self snaps = .ok t) : Sound pend t := by
  unfold State.takeBatch at e
  dsimp only at e
  split at e
  · cases e
  · cases e
    exact .rclStatus (.ite (.setBit (.armSnapshots (.setRBatch (.setTask (.same hs)))))
      (.armSnapshots (.setRBatch (.setTask (.same hs)))))

theorem Answers.queryBatch {p} (hs : Sound pend s) : Answers pend (execQueryBatch p s) := by
  unfold Machine.execQueryBatch
  refine .next ?_
  refine .runCommand hs (fun _ _ hs => ?_)
  refine .ite (.finishOpen hs) ?_
  dsimp only
  split
  · exact .finishOpen hs
  · split
    · exact .finishOpen hs
    · refine .ite (.finishOpen hs) ?_
      split
      · exact .finish (.addSat hs)
      · split
        · exact .unless (.takeBatch hs ‹_›) (fun hs => .foldl (fun _ _ hs => .sendParts hs) hs)
        · exact .takeBatch hs ‹_›

theorem Answers.shardedBatch {m} (hs : Sound pend s) : Answers pend (execShardedBatch m s) := by
  unfold Machine.execShardedBatch
  refine .next ?_
  refine .arriving hs (fun _ hs => ?_)
  split
  · exact .addSat hs
  · split
    · exact hs
    · refine .ite (.addSat hs) ?_
      refine .ite (.putBytes hs) ?_
      dsimp only
      split
      · exact .raiseError (.putBytes hs)
      · split
        · exact .raiseError (.putBytes hs)
        · split
          · exact .raiseError (.addSat (.same (.putBytes hs)))
          · exact .takeBatch (.putBytes hs) ‹_›

theorem Sound.chunkFault {r n b kind list} (hs : Sound pend s) : Sound pend (s.chunkFault r n b kind list) := by
  unfold State.chunkFault
  exact .rclStatus (.unless (.abortBatch (.fresh (.logEvent (.recordInfo hs)))) (fun hs => .setFld hs))

theorem Sound.meterChunk {b r dirs pos side} (hs : Sound pend s) : Sound pend (s.meterChunk b r dirs pos side) := by
  unfold State.meterChunk
  split
  · exact hs
  · exact .ite (.meter hs) (.meter hs)

theorem Answers.chunk {r e} (hs : Sound pend s) : Answers pend (execChunk r e s) := by
  unfold Machine.execChunk
  refine .ite (.next hs) ?_
  split
  · exact .next hs
  · split
    · exact .next hs
    · split
      · exact .next hs
      · dsimp only
        split
        · exact .next (.chunkFault (.meterChunk (.setRBatch (.setIndex (.when (.setFld hs) (fun hs => .setBit hs))))))
        · exact .next (.chunkFault (.meterChunk (.setRBatch (.setIndex (.when (.setFld hs) (fun hs => .setBit hs))))))
        · exact .next (.chunkFault (.recordEcc (.meterChunk (.setRBatch (.setIndex (.when (.setFld hs) (fun hs => .setBit hs)))))))
        · split
          · exact .next (.chunkFault (.recordEcc (.meterChunk (.setRBatch (.setIndex (.when (.setFld hs) (fun hs => .setBit hs)))))))
          · exact .next (.rclStatus (.setRBatch (.meterChunk (.setRBatch (.setIndex (.when (.setFld hs) (fun hs => .setBit hs)))))))

theorem Answers.knownAnswerTest {r ok} (hs : Sound pend s) : Answers pend (execKnownAnswerTest r ok s) := by
  unfold Machine.execKnownAnswerTest
  exact .ite (.next hs) (.ite (.next (.rclStatus (.setFld hs))) (.next (.logEvent (.setFld (.recordInfo hs)))))

theorem Sound.startWaiting {n} (hs : Sound pend s) : Sound pend (s.startWaiting n) := by
  unfold State.startWaiting
  split
  · exact hs
  · split
    · exact hs
    · exact .rclStatus (.same (.setRBatch (.when (.ite (.markUnsync hs) hs) (fun hs => .setBit hs))))

theorem Answers.snapshotWait {batch} (hs : Sound pend s) : Answers pend (execSnapshotWait batch s) := by
  unfold Machine.execSnapshotWait
  exact .next (.startWaiting hs)

theorem Sound.fireShard {n k b q g} (hs : Sound pend s) : Sound pend (s.fireShard n k b q g) := by
  unfold State.fireShard
  exact .fireOwn (.setRBatch hs)

theorem Answers.resultWrite {batch query} (hs : Sound pend s) : Answers pend (execResultWrite batch query s) := by
  unfold Machine.execResultWrite
  split
  · exact .next hs
  · split
    · exact .ite (.next hs) (.ite (.next (.rclStatus (.abortBatch hs))) (.next (.rclStatus (.abortBatch (.fresh hs)))))
    · split
      · exact .next hs
      · refine .ite (.next hs) ?_
        refine .ite ?_ (.next (.rclStatus (.putQuery (.writeBlock hs))))
        refine .ite (.next hs) ?_
        split
        · exact .ite (.next hs) (.next (.fireShard hs))
        · exact .next hs

/-! ### Field ports -/

theorem Sound.dropFrame {q} (hs : Sound pend s) : Sound pend (s.dropFrame q) := by
  unfold State.dropFrame
  exact .addSat hs

theorem Sound.sendBare {i kind epoch} (hs : Sound pend s) : Sound pend (s.sendBare i kind epoch) := by
  unfold State.sendBare
  exact .sendPort hs

theorem Sound.startOpening {i e} (hs : Sound pend s) : Sound pend (s.startOpening i e) := by
  unfold State.startOpening
  exact .sendBare (.setConn hs)

theorem Sound.closeConn {i level} (hs : Sound pend s) : Sound pend (s.closeConn i level) := by
  unfold State.closeConn
  exact .foldl (fun _ _ hs => .finishOpen hs) (.setConn hs)

theorem Sound.losePort {q} (hs : Sound pend s) : Sound pend (s.losePort q) := by
  unfold State.losePort
  exact .foldl (fun _ _ hs => .ite (.setConn hs) (.closeConn hs)) hs

theorem Answers.openConn {q i known major epoch} (hs : Sound pend s) : Answers pend (execOpenConn q i known major epoch s) := by
  unfold Machine.execOpenConn
  exact .ite (.next hs) (.ite (.next (.dropFrame hs))
      (.ite (.next (.logEvent (.sendBare (.closeConn hs)))) (.ite (.next (.dropFrame hs)) (.next (.sendBare (.setConn hs))))))

theorem Answers.openAck {q i known epoch} (hs : Sound pend s) : Answers pend (execOpenAck q i known epoch s) := by
  unfold Machine.execOpenAck
  exact .ite (.next hs) (.ite (.next (.dropFrame hs)) (.next (.setConn hs)))

theorem Answers.afithReset {q i known epoch} (hs : Sound pend s) : Answers pend (execAfithReset q i known epoch s) := by
  unfold Machine.execAfithReset
  exact .ite (.next hs) (.ite (.next (.dropFrame hs)) (.next (.closeConn (.ite (.logEvent hs) hs))))

theorem Answers.openRetry {i} (hs : Sound pend s) : Answers pend (execOpenRetry i s) := by
  unfold Machine.execOpenRetry
  dsimp only
  split
  · exact .next hs
  · exact .ite (.next (.startOpening hs)) (.ite (.next (.sendBare (.setConn hs))) (.next hs))

theorem Sound.sendDgramAck {i} (hs : Sound pend s) : Sound pend (s.sendDgramAck i) := by
  unfold State.sendDgramAck
  exact .setConn (.sendPort hs)

theorem Sound.takeDgram {e d} (hs : Sound pend s) : Sound pend (s.takeDgram e d) := by
  unfold State.takeDgram
  exact .ite (.putBytes hs) (.ite (.pieceIn hs) (.ite (.creditIn hs) hs))

theorem Answers.afithData {q d} (hs : Sound pend s) : Answers pend (execAfithData q d s) := by
  unfold Machine.execAfithData
  refine .ite (.next hs) ?_
  split
  · exact .next (.dropFrame hs)
  · exact .ite (.next (.dropFrame hs)) (.ite (.next (.sendDgramAck (.setConn (.ite (.takeDgram hs) hs))))
        (.next (.setConn (.ite (.takeDgram hs) hs))))

theorem Answers.ackTimer {i} (hs : Sound pend s) : Answers pend (execAckTimer i s) := by
  unfold Machine.execAckTimer
  split
  · exact .ite (.next (.sendDgramAck hs)) (.next hs)
  · exact .next hs

theorem Sound.resend {i psn} (hs : Sound pend s) : Sound pend (s.resend i psn) := by
  unfold State.resend
  dsimp only
  split
  · exact hs
  · exact .emitDgram (.addSat (.setConn hs))

theorem Sound.paceConn {i ece} (hs : Sound pend s) : Sound pend (s.paceConn i ece) := by
  unfold State.paceConn
  exact .ite hs (.setConn hs)

theorem Sound.takeAck {i d} (hs : Sound pend s) : Sound pend (s.takeAck i d) := by
  unfold State.takeAck
  exact .foldl (fun _ _ hs => .progress hs) (.foldl (fun _ _ hs => .finishOpen hs)
      (.foldl (fun _ _ hs => .resend hs) (.paceConn (.foldl (fun _ _ hs => .emitDgram hs) (.setConn hs)))))

theorem Answers.afithAck {q d} (hs : Sound pend s) : Answers pend (execAfithAck q d s) := by
  unfold Machine.execAfithAck
  exact .ite (.next hs) (.ite (.next (.dropFrame hs)) (.next (.takeAck hs)))

theorem Answers.retransmitTimeout {i psn} (hs : Sound pend s) : Answers pend (execRetransmitTimeout i psn s) := by
  unfold Machine.execRetransmitTimeout
  refine .ite (.next hs) ?_
  split
  · exact .next hs
  · exact .ite (.next hs) (.next (.resend hs))

theorem Answers.giveUp {i} (hs : Sound pend s) : Answers pend (execGiveUp i s) := by
  unfold Machine.execGiveUp
  exact .ite (.next (.closeConn (.sendBare hs))) (.next hs)

theorem Answers.fldSend {p} (hs : Sound pend s) : Answers pend (execFldSend p s) := by
  unfold Machine.execFldSend
  refine .next ?_
  refine .runCommand hs (fun _ _ hs => ?_)
  dsimp only
  split
  · exact .finishOpen hs
  · exact .ite (.finishOpen hs) (.ite (.finishOpen hs) (.ite (.finishOpen (.noteRead hs)) (.ite (.finishOpen hs) (.fldSend hs))))

theorem Answers.neighborSolicitation {q own} (hs : Sound pend s) : Answers pend (execNeighborSolicitation q own s) := by
  unfold Machine.execNeighborSolicitation
  exact .ite (.next hs) (.ite (.next (.sendPort hs)) (.next (.dropFrame hs)))

theorem Answers.pcsAlignmentLoss {q} (hs : Sound pend s) : Answers pend (execPcsAlignmentLoss q s) := by
  unfold Machine.execPcsAlignmentLoss
  exact .ite (.next (.logEvent (.losePort (.setFld hs)))) (.next hs)

theorem Sound.retrainPort {q} (hs : Sound pend s) : Sound pend (s.retrainPort q) := by
  unfold State.retrainPort
  exact .setFld (.losePort (.setFld hs))

theorem Answers.fldRetrain {a q} (hs : Sound pend s) : Answers pend (execFldRetrain a q s) := by
  unfold Machine.execFldRetrain
  exact .ite (.next hs) (.next (.retrainPort hs))

theorem Answers.fldDisable {a q v} (hs : Sound pend s) : Answers pend (execFldDisable a q v s) := by
  unfold Machine.execFldDisable
  exact .ite (.next hs) (.ite (.next (.viaStore hs (.setBit hs))) (.next (.retrainPort (.viaStore hs (.setBit hs)))))

theorem Answers.fieldPortUp {q} (hs : Sound pend s) : Answers pend (execFieldPortUp q s) := by
  unfold Machine.execFieldPortUp
  exact .ite (.next hs) (.next (.foldl (fun _ _ hs => .startOpening hs) (.setFld hs)))

theorem Sound.ptpLoss (hs : Sound pend s) : Sound pend s.ptpLoss := by
  unfold State.ptpLoss
  exact .ite hs (.logEvent (.setFld (.setBit (.setBit hs))))

theorem Answers.ptpSync {q f} (hs : Sound pend s) : Answers pend (execPtpSync q f s) := by
  unfold Machine.execPtpSync
  refine .ite (.next hs) (.ite (.next (.dropFrame hs)) ?_)
  extract_lets x s1 same good bad s2 s3 s4 s5 s6 ptp s7
  have h2 : Sound pend s2 := .when (.when hs fun hs => .ptpLoss hs) fun hs => .ptpLoss hs
  have h4 : Sound pend s4 := .setFld (.setBit (.same h2))
  have h6 : Sound pend s6 := .stepBy (.when h4 fun hs => .dropWork hs)
  have h7 : Sound pend s7 := .ite (.same h6) (.same h4)
  exact .ite (.next (.setFld (.setBit (.setBit h7)))) (.next h7)

theorem Answers.ptpLockLoss (hs : Sound pend s) : Answers pend (execPtpLockLoss s) := by
  unfold Machine.execPtpLockLoss
  exact .ite (.next (.same (.ptpLoss hs))) (.next hs)

/-! ### The mailbox -/

theorem Sound.mboxDone {status result} (hs : Sound pend s) : Sound pend (s.mboxDone status result) := by
  unfold State.mboxDone
  exact .stepFld (.setBit (.setBit (.foldl (fun _ _ hs => .setReg hs) hs)))

theorem Sound.mboxOpen {status} (hs : Sound pend s) : Sound pend (s.mboxOpen status) := by
  unfold State.mboxOpen
  exact .mboxDone (.fresh hs)

theorem Sound.runMbox {op ok body} (hs : Sound pend s) (hbody : ∀ a s, Sound pend s → Sound pend (body a s)) :
    Sound pend (s.runMbox op ok body) := by
  unfold State.runMbox
  exact .ite hs (.ite (hbody _ _ hs) (.mboxOpen hs))

theorem Answers.mboxGo {a} (hs : Sound pend s) : Answers pend (execMboxGo a s) := by
  unfold Machine.execMboxGo
  exact .ite (.next hs) (.ite (.next (.setBit hs)) (.ite (.next (.setBit hs)) (.next (.mboxOpen (.setBit hs)))))

theorem Answers.logRead {who} (hs : Sound pend s) : Answers pend (execLogRead who s) := by
  unfold Machine.execLogRead
  split
  · exact .next (.runCommand hs (fun _ _ hs => .ite (.finishOpen hs) (.finish (.storeBytes hs))))
  · exact .next (.runMbox hs (fun _ _ hs => .mboxDone (.writeHost hs)))

theorem Answers.harvestRead (hs : Sound pend s) : Answers pend (execHarvestRead s) := by
  unfold Machine.execHarvestRead
  refine .next ?_
  refine .runMbox hs (fun _ _ hs => ?_)
  split
  · exact .mboxOpen (.writeHost hs)
  · exact .mboxOpen hs

end Sys2Proof.Machine
end

section
/-!
Soundness through plots, start-up, resets, power and the register interface.
-/

namespace Sys2Proof.Machine
open Sys2Proof

-- One proof at a time: many short proofs at once ask for more threads than the stack limit leaves room for.
set_option Elab.async false

variable {pend : List Instr} {s t : State}

/-! ### Plots -/

theorem Sound.setBlocks {p m} (hs : Sound pend s) : Sound pend (s.setBlocks p m) := by
  unfold State.setBlocks
  exact .setFld (.setFld hs)

theorem Sound.loadTables {p b} (hs : Sound pend s) : Sound pend (s.loadTables p b) := by
  unfold State.loadTables
  exact .setFld (.setBlock hs)

theorem Sound.dressBlock {p b} (hs : Sound pend s) : Sound pend (s.dressBlock p b) := by
  unfold State.dressBlock
  exact .setFld (.setFld (.loadTables hs))

theorem Sound.dressPlots (hs : Sound pend s) : Sound pend s.dressPlots := by
  unfold State.dressPlots
  exact .foldl (fun _ _ hs => .foldl (fun _ _ hs => .dressBlock hs) hs) hs

theorem Sound.wipeBlock {b} (hs : Sound pend s) : Sound pend (s.wipeBlock b) := by
  unfold State.wipeBlock
  exact .clearRange (.setBlock (.foldl (fun _ _ hs => .setFld (.clearRange (.setCell hs))) hs))

theorem Sound.sfuRun {loads b} (hs : Sound pend s) : Sound pend (s.sfuRun loads b) := by
  unfold State.sfuRun
  refine .ite (.setFld (.setBlock hs)) ?_
  split
  · exact .sfuLoadTest (.setFld (.setBlock hs))
  · exact .sfuLoadTest (.fresh (.setFld (.setBlock hs)))

theorem Sound.dropStreamPairs {i} (hs : Sound pend s) : Sound pend (s.dropStreamPairs i) := by
  unfold State.dropStreamPairs
  split
  · exact hs
  · exact .foldl (fun _ _ hs => .setCell hs) hs

theorem Sound.dropStream {i} (hs : Sound pend s) : Sound pend (s.dropStream i) := by
  unfold State.dropStream
  exact .engineStatus (.setFld (.same (.dropStreamPairs hs)))

theorem Sound.dropChainPairs {c cells} (hs : Sound pend s) : Sound pend (s.dropChainPairs c cells) := by
  unfold State.dropChainPairs
  exact .foldl (fun _ _ hs => .setCell hs) hs

theorem Sound.freeBlocks {p m loads} (hs : Sound pend s) : Sound pend (s.freeBlocks p m loads) := by
  unfold State.freeBlocks
  exact .foldl (fun _ _ hs => .sfuRun hs) (.setFld (.setBlocks
      (.foldl (fun _ _ hs => .wipeBlock hs) (.foldl (fun _ _ hs => .colStatus (.setChain (.dropChainPairs hs)))
          (.foldl (fun _ _ hs => .dropStream hs) hs)))))

theorem Sound.runPlot {op states ok body} (hs : Sound pend s) (hbody : ∀ a a' s, Sound pend s → Sound pend (body a a' s)) :
    Sound pend (s.runPlot op states ok body) := by
  unfold State.runPlot
  exact .runMbox hs (fun _ _ hs => .ite (hbody _ _ _ hs) (.mboxOpen hs))

theorem Sound.makePlot {p r clear} (hs : Sound pend s) : Sound pend (s.makePlot p r clear) := by
  unfold State.makePlot
  exact .setFld (.foldl (fun _ _ hs => .dressBlock hs)
      (.setBit (.setBlocks (.foldl (fun _ _ hs => .setReg hs)
          (.foldl (fun _ _ hs => .setPool hs) (.setPlot (.ite (.foldl (fun _ _ hs => .clearRange hs) hs) hs)))))))

theorem Answers.plotCreate (hs : Sound pend s) : Answers pend (execPlotCreate s) := by
  unfold Machine.execPlotCreate
  exact .next (.runPlot hs (fun _ _ _ hs => .ite (.mboxOpen hs) (.ite (.mboxOpen hs) (.mboxOpen (.viaStore hs (.makePlot hs))))))

theorem Answers.plotSet (hs : Sound pend s) : Answers pend (execPlotSet s) := by
  unfold Machine.execPlotSet
  refine .next ?_
  refine .runPlot hs (fun _ _ _ hs => ?_)
  dsimp only
  split
  · exact .ite (.mboxOpen (.viaStore hs (.setReg hs))) (.mboxOpen hs)
  · exact .ite (.mboxOpen hs) (.ite (.mboxOpen hs) (.mboxOpen (.viaStore hs (.foldl (fun _ _ hs => .setFld (.setFld hs)) (.setFld hs)))))

theorem Answers.plotGrow (hs : Sound pend s) : Answers pend (execPlotGrow s) := by
  unfold Machine.execPlotGrow
  exact .next (.runPlot hs (fun _ _ _ hs => .ite (.mboxOpen hs)
      (.mboxOpen (.viaStore hs (.setBlocks (.foldl (fun _ _ hs => .dressBlock hs) hs))))))

theorem Answers.plotShrink {loads} (hs : Sound pend s) : Answers pend (execPlotShrink loads s) := by
  unfold Machine.execPlotShrink
  exact .next (.runPlot hs (fun _ _ _ hs => .ite (.mboxOpen hs)
      (.unless (.setFld hs) (fun hs => .mboxOpen (.viaStore hs (.freeBlocks hs))))))

theorem Answers.plotStop (hs : Sound pend s) : Answers pend (execPlotStop s) := by
  unfold Machine.execPlotStop
  exact .next (.runPlot hs (fun _ _ _ hs => .mboxOpen (.setFld hs)))

theorem Answers.plotStart (hs : Sound pend s) : Answers pend (execPlotStart s) := by
  unfold Machine.execPlotStart
  exact .next (.runPlot hs (fun _ _ _ hs => .mboxOpen (.setFld hs)))

theorem Sound.resizePlot {p old new} (hs : Sound pend s) : Sound pend (s.resizePlot p old new) := by
  unfold State.resizePlot
  exact .foldl (fun _ _ hs => .setPool hs) (.setPlot (.foldl (fun _ _ hs => .clearRange hs) hs))

theorem Answers.plotResize (hs : Sound pend s) : Answers pend (execPlotResize s) := by
  unfold Machine.execPlotResize
  refine .next ?_
  refine .runPlot hs (fun _ _ _ hs => ?_)
  split
  · exact .mboxOpen hs
  · exact .ite (.mboxOpen hs) (.ite (.mboxOpen hs) (.ite (.mboxOpen hs) (.mboxOpen (.viaStore hs (.resizePlot hs)))))

theorem Sound.drainRing {p n} (hs : Sound pend s) : Sound pend (State.drainRing p n s) := by
  induction n generalizing s with
  | zero => exact hs
  | succ n ih =>
    unfold State.drainRing
    split
    · exact hs
    · exact ih (.finishOpen (.takeHead hs ‹_›))

theorem Sound.destroyStep1 {p} (hs : Sound pend s) : Sound pend (s.destroyStep1 p) := by
  unfold State.destroyStep1
  exact .same (.foldl (fun _ _ hs => .finishOpen hs) (.drainRing hs))

theorem Sound.destroyStep2 {p} (hs : Sound pend s) : Sound pend (s.destroyStep2 p) := by
  unfold State.destroyStep2
  refine .ofShiftBook (.foldl (fun _ _ hs => .dropStream hs) (.foldl (fun _ _ hs => .colStatus (.same (.dropChainPairs hs)))
    (.foldl (fun _ _ hs => ?_) hs))) (Sparse.wf_filter _ _ _)
  split
  · exact .raiseError hs
  · exact hs

theorem Sound.destroyStep3 {p} (hs : Sound pend s) : Sound pend (s.destroyStep3 p) := by
  unfold State.destroyStep3
  exact .foldl (fun _ _ hs => .setPool hs) (.same (.foldl (fun _ _ hs => .freeIndex hs) (.foldl (fun _ _ hs => .destroySeq hs) hs)))

theorem Sound.destroyStep5 {p q loads} (hs : Sound pend s) : Sound pend (s.destroyStep5 p q loads) := by
  unfold State.destroyStep5
  extract_lets s1 s2 s3 s4 s5
  have h1 : Sound pend s1 := .freeBlocks hs
  have h2 : Sound pend s2 := .foldl (fun _ _ hs => .clearCounter hs) h1
  have h3 : Sound pend s3 := .foldl (fun _ _ hs => .clearRange hs) h2
  have h4 : Sound pend s4 := .foldl (fun _ _ hs => .setReg hs) h3
  have h5 : Sound pend s5 := .setReg (.setReg h4)
  clear_value s5
  exact .ofLogFloor h5 (Sparse.wf_set _ _ _ _)

theorem Answers.plotDestroy {loads} (hs : Sound pend s) : Answers pend (execPlotDestroy loads s) := by
  unfold Machine.execPlotDestroy
  refine .next ?_
  refine .runPlot hs (fun _ _ _ hs => ?_)
  split
  · exact .mboxOpen hs
  · exact .ite (.mboxOpen hs) (.mboxOpen (.viaStore hs (.destroyStep5 (.destroyStep3 (.destroyStep2 (.setFld (.destroyStep1 hs)))))))

theorem Answers.groupSet (hs : Sound pend s) : Answers pend (execGroupSet s) := by
  unfold Machine.execGroupSet
  exact .next (.runPlot hs (fun _ _ _ hs => .ite (.mboxOpen hs)
      (.ite (.mboxOpen hs) (.ite (.mboxOpen (.viaStore hs hs)) (.ite (.mboxOpen hs) (.mboxOpen (.viaStore hs (.setGroup hs))))))))

theorem Answers.sfuLoad {p} (hs : Sound pend s) : Answers pend (execSfuLoad p s) := by
  unfold Machine.execSfuLoad
  refine .next ?_
  refine .runCommand hs (fun _ _ hs => ?_)
  refine .ite (.finishOpen hs) ?_
  refine .ite (.finishOpen hs) ?_
  refine .ite (.finishOpen (.noteRead hs)) ?_
  refine .ite (.finishOpen hs) ?_
  split
  · exact .finishOpen hs
  · exact .finish (.foldl (fun _ _ hs => .loadTables hs) (.setPlot hs))

theorem Answers.sfuUnload {p} (hs : Sound pend s) : Answers pend (execSfuUnload p s) := by
  unfold Machine.execSfuUnload
  refine .next ?_
  refine .runCommand hs (fun _ _ hs => ?_)
  refine .ite (.finishOpen hs) ?_
  split
  · exact .finishOpen hs
  · exact .finish (.foldl (fun _ _ hs => .loadTables hs) (.setPlot hs))

/-! ### Start-up -/

theorem Sound.setBoot {st} (hs : Sound pend s) : Sound pend (s.setBoot st) := by
  unfold State.setBoot
  exact .setFld hs

theorem Sound.bootReason {r} (hs : Sound pend s) : Sound pend (s.bootReason r) := by
  unfold State.bootReason
  exact .setFld hs

theorem Sound.regionDown {r} (hs : Sound pend s) : Sound pend (s.regionDown r) := by
  unfold State.regionDown
  exact .foldl (fun _ _ hs => .ite (.logEvent hs) hs)
      (.setFld (.foldl (fun _ _ hs => .setFld hs) (.foldl (fun _ _ hs => .foldl (fun _ _ hs => .setFld hs) (.setFld hs)) (.setBit hs))))

theorem Sound.regionBack {r} (hs : Sound pend s) : Sound pend (s.regionBack r) := by
  unfold State.regionBack
  exact .setFld (.foldl (fun _ _ hs => .engineStatus (.setFld hs)) (.foldl (fun _ _ hs => .ite hs (.setFld hs)) (.setBit hs)))

theorem Sound.loadRegion {loads r} (hs : Sound pend s) : Sound pend (s.loadRegion loads r) := by
  unfold State.loadRegion
  exact .foldl (fun _ _ hs => .sfuRun hs) hs

theorem Sound.wipeRegion {r} (hs : Sound pend s) : Sound pend (s.wipeRegion r) := by
  unfold State.wipeRegion
  exact .foldl (fun _ _ hs => .wipeBlock hs) hs

/-- What a reset leaves of a link layer is listed under the link's key. -/
theorem Sparse.wf_map_filter {α : Type} [DecidableEq α] {d : Nat → α} {f : Nat × α → α} {m : List (Nat × α)}
    (h : Sparse.wf d m = true) :
    Sparse.wf d ((m.map fun e => (e.1, f e)).filter fun e => decide (e.2 ≠ d e.1)) = true := by
  induction m with
  | nil => rfl
  | cons e m ih =>
    simp only [Sparse.wf, Bool.and_eq_true] at h
    obtain ⟨⟨-, habove⟩, hm⟩ := h
    have hkeys : Sparse.above e.1 (m.map fun e => (e.1, f e)) = true := by
      simpa [Sparse.above] using habove
    rw [List.map_cons, List.filter_cons]
    split
    next hne => simp only [Sparse.wf, Bool.and_eq_true]; exact ⟨⟨hne, Sparse.above_filter _ _ hkeys⟩, ih hm⟩
    · exact ih hm

/-- The always-on domain, the memories and the books that a reset by pin leaves (R374): each of their maps stands or is emptied, and the map
of the link layers keeps what the links have last been. -/
theorem Sound.keptAtReset (hs : Sound pend s) :
    Sound pend { State.reset with
      mem := s.mem, hostMem := s.hostMem, poison := s.poison, pending := s.pending, pools := s.pools, logFloor := s.logFloor
      harvestSeq := s.harvestSeq, domainCounts := s.domainCounts
      phys := (s.phys.map fun (e : Nat × LinkPhy) => (e.1, { LinkPhy.off (isRack e.1) with last := e.2.last })).filter
        fun e => decide (e.2 ≠ LinkPhy.off (isRack e.1)) } := by
  obtain ⟨hc, hp⟩ := hs
  simp only [State.canonical, Bool.and_eq_true] at hc
  refine ⟨?_, hp⟩
  simp only [State.canonical, State.reset, Sparse.wf, hc, Bool.and_true, Bool.true_and]
  exact Sparse.wf_map_filter (by simp only [hc])

theorem Sound.toReset (hs : Sound pend s) : Sound pend s.toReset := by
  unfold State.toReset
  extract_lets kept fallow b regs lost base z z'
  have hz : Sound pend z := hs.keptAtReset
  have hz' : Sound pend z' := .foldl (fun _ _ hs => .setReg hs) hz
  exact .ite (.setFld (.setFld hz')) hz'

theorem Sound.freshLog (hs : Sound pend s) : Sound pend s.freshLog := by
  unfold State.freshLog
  exact .setReg (.ofLogFloor (s := { s with harvestSeq := [] }) (.ofHarvestSeq hs fun _ => rfl) fun _ => rfl)

theorem Sound.beginStart {power cold pass} (hs : Sound pend s) : Sound pend (s.beginStart power cold pass) := by
  unfold State.beginStart
  exact .when (.setFld (.setBit (.setFld (.setBit (.setBoot (.same (.toReset hs))))))) (fun hs => .bootReason hs)

theorem Sound.latchStraps {straps} (hs : Sound pend s) : Sound pend (s.latchStraps straps) := by
  unfold State.latchStraps
  exact .when (.setFld hs) (fun hs => .logEvent hs)

/-- Nothing of the chip's own maps is left without power. -/
theorem Sound.unpowered {free out boot} (hs : Sound pend s) :
    Sound pend { State.reset with hostMem := s.hostMem, free := free, pending := s.pending, out := out, boot := boot } := by
  refine .ofHostMem (s := { State.reset with pending := s.pending }) ⟨rfl, hs.2⟩ (fun _ => hs.wfHostMem)

theorem Answers.powerOn {straps pass} (hs : Sound pend s) : Answers pend (execPowerOn straps pass s) := by
  unfold Machine.execPowerOn
  exact .ite (.next hs) (.next (.latchStraps (.beginStart (.setFld hs.unpowered))))

theorem Sound.powerLost {b} (hs : Sound pend s) : Sound pend (s.powerLost b) := hs.unpowered

theorem Answers.pwrSeqOkFall (hs : Sound pend s) : Answers pend (execPwrSeqOkFall s) := by
  unfold Machine.execPwrSeqOkFall
  exact .ite (.next hs) (.next (.powerLost hs))

theorem Answers.perstAssert (hs : Sound pend s) : Answers pend (execPerstAssert s) := by
  unfold Machine.execPerstAssert
  exact .ite (.next hs) (.next (.same (.toReset hs)))

theorem Answers.perstRelease {straps pass} (hs : Sound pend s) : Answers pend (execPerstRelease straps pass s) := by
  unfold Machine.execPerstRelease
  exact .ite (.next hs) (.next (.latchStraps (.beginStart (.setFld hs))))

theorem Sound.restart {pass} (hs : Sound pend s) : Sound pend (s.restart pass) := by
  unfold State.restart
  exact .beginStart hs

theorem Answers.bootRestart {a pass} (hs : Sound pend s) : Answers pend (execBootRestart a pass s) := by
  unfold Machine.execBootRestart
  exact .ite (.next hs) (.next (.restart hs))

theorem Answers.pcieTrained {gen lanes} (hs : Sound pend s) : Answers pend (execPcieTrained gen lanes s) := by
  unfold Machine.execPcieTrained
  exact .ite (.next hs) (.ite (.next (.setBoot hs)) (.next hs))

theorem Sound.bootGo (hs : Sound pend s) : Sound pend s.bootGo := by
  unfold State.bootGo
  refine .ite (.logIgnored hs) ?_
  refine .ite hs ?_
  refine .ite (.bootReason hs) ?_
  split
  · exact hs
  · exact .same (.setBoot (.writeBytes hs))

theorem Answers.bootGo {a} (hs : Sound pend s) : Answers pend (execBootGo a s) := by
  unfold Machine.execBootGo
  exact .ite (.next hs) (.next (.bootGo hs))

theorem Answers.imageVerified (hs : Sound pend s) : Answers pend (execImageVerified s) := by
  unfold Machine.execImageVerified
  split
  · exact .next hs
  · refine .ite (.next hs) ?_
    dsimp only
    split
    · exact .next (.setBoot (.bootReason (.clearRange hs)))
    · exact .next hs

theorem Answers.nvmOwnFall (hs : Sound pend s) : Answers pend (execNvmOwnFall s) := by
  unfold Machine.execNvmOwnFall
  exact .ite (.next hs) (.ite (.next hs) (.next (.when (.setBit hs) (fun hs => .setFld hs))))

theorem Answers.nvmOwnRise (hs : Sound pend s) : Answers pend (execNvmOwnRise s) := by
  unfold Machine.execNvmOwnRise
  exact .ite (.next hs) (.ite (.next hs) (.next (.when (.setBit hs) (fun hs => .addSat (.setFld hs)))))

theorem Answers.nvmWaitExpiry (hs : Sound pend s) : Answers pend (execNvmWaitExpiry s) := by
  unfold Machine.execNvmWaitExpiry
  exact .ite (.next hs) (.next (.same (.setFld hs)))

theorem Answers.seedbedReadDone {img} (hs : Sound pend s) : Answers pend (execSeedbedReadDone img s) := by
  unfold Machine.execSeedbedReadDone
  split
  · exact .next hs
  · exact .ite (.next hs) (.next (.same (.setFld (.writeBytes hs))))

theorem Sound.hold {reason} (hs : Sound pend s) : Sound pend (s.hold reason) := by
  unfold State.hold
  exact .same (.logEvent (.setBit (.setBoot (.bootReason hs))))

theorem Sound.demote (hs : Sound pend s) : Sound pend s.demote := by
  unfold State.demote
  exact .setBit (.setBit hs)

theorem Sound.dropRetained (hs : Sound pend s) : Sound pend s.dropRetained := by
  unfold State.dropRetained
  exact .ofPools hs (fun _ => rfl)

theorem Sound.enterImage {base im} (hs : Sound pend s) : Sound pend (s.enterImage base im) := by
  unfold State.enterImage
  exact hs

theorem Answers.firmwareEntry {copyOk} (hs : Sound pend s) : Answers pend (execFirmwareEntry copyOk s) := by
  unfold Machine.execFirmwareEntry
  refine .ite (.next hs) ?_
  dsimp only
  split
  · exact .next (.hold (.enterImage (.setFld (.setFld (.setBoot hs)))))
  · refine .next ?_
    refine .same ?_
    refine .ite ?_ ?_
    · refine .demote ?_
      split
      · exact .logEvent (.bootReason (.setBit (.enterImage (.setFld (.setFld (.setBoot hs))))))
      · exact .enterImage (.setFld (.setFld (.setBoot hs)))
    · split
      · exact .logEvent (.bootReason (.setBit (.enterImage (.setFld (.setFld (.setBoot hs))))))
      · exact .enterImage (.setFld (.setFld (.setBoot hs)))

theorem Sound.undoCommit {p n} (hs : Sound pend s) : Sound pend (s.undoCommit p n) := by
  unfold State.undoCommit
  split
  · exact hs
  · split
    · exact .dropCommit hs
    · exact hs

theorem Sound.recoverCommit {p n} (hs : Sound pend s) : Sound pend (s.recoverCommit p n) := by
  unfold State.recoverCommit
  split
  · exact hs
  · split
    · exact .takeHeld hs
    · exact .ite hs (.ite (.runScatter hs) (.undoCommit hs))

theorem Sound.recoverCommits (hs : Sound pend s) : Sound pend s.recoverCommits := by
  unfold State.recoverCommits
  exact .foldl (fun _ _ hs => .recoverCommit hs) hs

theorem Sound.restoreSeq {k q} (hs : Sound pend s) : Sound pend (s.restoreSeq k q) := by
  unfold State.restoreSeq
  exact .ite (.undoCommit hs) (.recoverCommit hs)

theorem Sound.recoverEntry {j} (hs : Sound pend s) : Sound pend (s.recoverEntry j) := by
  unfold State.recoverEntry
  split
  · exact .rollBack hs
  · refine .ite (.sendHost (.putJournal hs)) ?_
    split
    · refine .ite ?_ (.rollBack hs)
      split
      · exact .commitMove hs
      · exact .rollBack hs
    · exact .rollBack hs

theorem Sound.recoverJournal (hs : Sound pend s) : Sound pend s.recoverJournal := by
  unfold State.recoverJournal
  exact .foldl (fun _ _ hs => .recoverEntry hs) (.foldl (fun _ _ hs => .freeFrame hs)
      (.foldl (fun _ _ hs => .showBatch hs) (.foldl (fun _ _ hs => .endMoves hs) hs)))

theorem Sound.recoverSigning (hs : Sound pend s) : Sound pend s.recoverSigning := by
  unfold State.recoverSigning
  exact hs

theorem Sound.rearmSwaps (hs : Sound pend s) : Sound pend s.rearmSwaps := by
  unfold State.rearmSwaps
  refine .foldl (fun _ _ hs => ?_) hs
  split <;> exact hs

theorem Sound.warmRestore (hs : Sound pend s) : Sound pend s.warmRestore := by
  unfold State.warmRestore
  exact .setBit (.rearmSwaps (.recoverSigning (.recoverJournal
      (.foldl (fun _ _ hs => .restoreSeq hs) (.dressPlots
          (.foldl (fun _ _ hs => .logEvent hs) (.same (.foldl (fun _ _ hs => .ofRegs hs (Sparse.wf_set _ _ _ _)) hs))))))))

theorem Sound.plotFromRecord {r} (hs : Sound pend s) : Sound pend (s.plotFromRecord r) := by
  unfold State.plotFromRecord
  exact .ite (.makePlot hs) (.logEvent hs)

theorem Sound.applyPolicy {guard droop reserve caps} (hs : Sound pend s) : Sound pend (s.applyPolicy guard droop reserve caps) := by
  unfold State.applyPolicy
  exact .foldl (fun _ _ hs => .setFld hs) (.setFld (.setFld (.setFld hs)))

theorem Sound.applyMinimal {m} (hs : Sound pend s) : Sound pend (s.applyMinimal m) := by
  unfold State.applyMinimal
  exact .same (.applyPolicy hs)

theorem Sound.applyMain {i} (hs : Sound pend s) : Sound pend (s.applyMain i) := by
  unfold State.applyMain
  exact .foldl (fun _ _ hs => .retrainPort (.setFld hs)) (.same (.applyPolicy hs))

theorem Sound.lockViol {a off} (hs : Sound pend s) : Sound pend (s.lockViol a off) := by
  unfold State.lockViol
  exact .logEvent (.recordInfo hs)

theorem Sound.writeRef {a v} (hs : Sound pend s) : Sound pend (s.writeRef a v) := by
  unfold State.writeRef
  exact .ite (.lockViol hs) (.setBit (.setReg hs))

theorem Sound.commitConfig {ref kept} (hs : Sound pend s) : Sound pend (s.commitConfig ref kept) := by
  unfold State.commitConfig
  exact .ite (.hold (.setReg hs)) (.same (.setFld (.setFld (.setBoot (.writeRef (.setReg hs))))))

/-- A cold start clears the memories. -/
theorem Sound.memCleared (hs : Sound pend s) : Sound pend { s with mem := [], poison := [] } :=
  .ofMem (s := { s with poison := [] }) (.ofPoison hs fun _ => rfl) fun _ => rfl

theorem Sound.finishStart {i m failed loads} (hs : Sound pend s) : Sound pend (s.finishStart i m failed loads) := by
  unfold State.finishStart
  extract_lets warm sparse regions cold s1 s2 s3 s4 s5
  have hcold : Sound pend cold := .dropRetained (.freshLog hs)
  have h1 : Sound pend s1 := .ite (.same hs) hcold.memCleared
  have h2 : Sound pend s2 := .foldl (fun _ _ hs => .clearRange (.wipeRegion hs)) h1
  have h3 : Sound pend s3 := .foldl (fun _ _ hs => .regionDown hs) h2
  have h4 : Sound pend s4 := .foldl (fun _ _ hs => .loadRegion hs) h3
  have h5 : Sound pend s5 := .ite (.warmRestore h4) h4
  have h6 : Sound pend (if sparse then s5.applyMinimal m else s5.applyMain i) := .ite (.applyMinimal h5) (.applyMain h5)
  exact .ite (.hold h5) (.commitConfig (.same (.ite h6 (.foldl (fun _ _ hs => .plotFromRecord hs) h6))))

theorem Answers.memoryTrainingDone {failed stackBits loads} (hs : Sound pend s) :
    Answers pend (execMemoryTrainingDone failed stackBits loads s) := by
  unfold Machine.execMemoryTrainingDone
  refine .ite (.next hs) ?_
  split
  · exact .next hs
  · exact .ite (.next (.demote hs)) (.next (.finishStart hs))

theorem Sound.armSundial {v} (hs : Sound pend s) : Sound pend (s.armSundial v) := by
  unfold State.armSundial
  exact .same (.setReg hs)

theorem Answers.bootSundialHigh {a v} (hs : Sound pend s) : Answers pend (execBootSundialHigh a v s) := by
  unfold Machine.execBootSundialHigh
  exact .ite (.next hs) (.next (.armSundial hs))

/-! ### Resets -/

theorem Sound.stepTags {l i} (hs : Sound pend s) : Sound pend (s.stepTags l i) := by
  unfold State.stepTags
  exact .when (.foldl (fun _ _ hs => .stepFld hs) (.foldl (fun _ _ hs => .stepFld hs)
      (.foldl (fun _ _ hs => .stepFld hs) hs))) (fun hs => .stepFld hs)

theorem Sound.logInner {l} (hs : Sound pend s) : Sound pend (s.logInner l) := by
  unfold State.logInner
  exact .foldl (fun _ _ hs => .logEvent hs) hs

theorem Sound.mergeResets (hs : Sound pend s) : Sound pend s.mergeResets := by
  unfold State.mergeResets
  exact .logInner hs

theorem Sound.takeReset {q} (hs : Sound pend s) (e : s.takeReset = some (q, t)) : Sound pend t := by
  unfold State.takeReset at e
  split at e
  · cases e
  · cases e
    exact .logInner hs

theorem Sound.abortDomain {l i} (hs : Sound pend s) : Sound pend (s.abortDomain l i) := by
  unfold State.abortDomain
  exact .foldl (fun _ _ hs => .abortBatch hs) (.foldl (fun _ _ hs => .refuse hs) (.foldl (fun _ _ hs => .abortTask hs) hs))

theorem Sound.resetFrost {q gi} (hs : Sound pend s) : Sound pend (s.resetFrost q gi) := by
  unfold State.resetFrost
  split
  · exact hs
  · exact .ite (.setGroup (.foldl (fun _ _ hs => .send hs) hs)) (.takeError (.logEvent (.foldl (fun _ _ hs => .send hs) hs)))

theorem Sound.writeHarvest {was q bad} (hs : Sound pend s) : Sound pend (s.writeHarvest was q bad) := by
  unfold State.writeHarvest
  refine .foldl (fun s r hs => .ite hs ?_) hs
  extract_lets n cells u v
  have hu : Sound pend u := .ite (.addSat hs) hs
  clear_value u
  have hv : Sound pend v := .ofHarvestSeq hu (Sparse.wf_set _ _ r (n + 1))
  exact .setFld (.setFld hv)

theorem Sound.clearDomainCell {c} (hs : Sound pend s) : Sound pend (s.clearDomainCell c) := by
  unfold State.clearDomainCell
  exact .setFld (.setFld (.clearRange (.setCell hs)))

theorem Sound.cellsBack {l i} (hs : Sound pend s) : Sound pend (s.cellsBack l i) := by
  unfold State.cellsBack
  exact .foldl (fun _ _ hs => .ite (.setFld hs) hs) hs

theorem Sound.clearDomain {l i} (hs : Sound pend s) : Sound pend (s.clearDomain l i) := by
  unfold State.clearDomain
  exact .foldl (fun _ _ hs => .clearRange (.setBlock hs)) (.foldl (fun _ _ hs => .clearDomainCell hs) hs)

theorem Sound.resetWindows (hs : Sound pend s) : Sound pend s.resetWindows := by
  unfold State.resetWindows
  exact .setFld (.setFld hs)

theorem Sound.recordReset {q skipped} (hs : Sound pend s) : Sound pend (s.recordReset q skipped) := by
  unfold State.recordReset
  exact .resetWindows (.unless (.logCoded (.recordInfo (.setFld (.setFld hs)))) (fun hs => .ite (.same hs)
      (.ofDomainCounts hs (Sparse.wf_set _ _ _ _))))

theorem Sound.settleSafe (hs : Sound pend s) : Sound pend s.settleSafe := by
  unfold State.settleSafe
  exact .setFld hs

theorem Sound.freeLinks (hs : Sound pend s) : Sound pend s.freeLinks := by
  unfold State.freeLinks
  exact .foldl (fun _ _ hs => .ite (.linkOff hs) hs) hs

theorem Sound.closeAll (hs : Sound pend s) : Sound pend s.closeAll := by
  unfold State.closeAll
  exact .foldl (fun _ _ hs => .unless (.ite (.sendBare hs) hs) (fun hs => .closeConn hs)) hs

theorem Sound.reopenAll (hs : Sound pend s) : Sound pend s.reopenAll := by
  unfold State.reopenAll
  exact .foldl (fun _ _ hs => .ite (.startOpening hs) hs) hs

theorem Sound.clearHub (hs : Sound pend s) : Sound pend s.clearHub := by
  unfold State.clearHub
  exact .foldl (fun _ _ hs => .finish hs) (.foldl (fun _ _ hs => .clearCounter hs)
      (.foldl (fun _ _ hs => .colStatus hs) (.ofShiftBook hs (fun _ => rfl))))

theorem Sound.recoverManager (hs : Sound pend s) : Sound pend s.recoverManager := by
  unfold State.recoverManager
  exact .recoverSigning (.recoverCommits (.recoverJournal hs))

theorem Sound.restartCores {o} (hs : Sound pend s) : Sound pend (s.restartCores o) := by
  unfold State.restartCores
  split
  · exact .enterImage hs
  · exact hs

theorem Sound.unitsLoading {blocks} (hs : Sound pend s) : Sound pend (s.unitsLoading blocks) := by
  unfold State.unitsLoading
  exact .ite hs (.foldl (fun _ _ hs => .setFld hs) hs)

theorem Sound.resetDown {o q} (hs : Sound pend s) : Sound pend (s.resetDown o q) := by
  unfold State.resetDown
  extract_lets was suspects told s1 s2 s3 s4 s5 s6 s7 s8
  have h3 : Sound pend s3 := .foldl (fun _ _ hs => .resetFrost hs) (.abortDomain (.stepTags (.setFld hs)))
  have h4 : Sound pend s4 := .writeHarvest h3
  have h5 : Sound pend s5 := .ite (.freeLinks (.closeAll (.same h4))) h4
  have h7 : Sound pend s7 := .unitsLoading (.clearDomain (.recordReset h5))
  have h8 : Sound pend s8 := .ite h7 (.same h7)
  exact .ite (.setFld h8) h8

theorem Sound.reloadDomain {o blocks} (hs : Sound pend s) : Sound pend (s.reloadDomain o blocks) := by
  unfold State.reloadDomain
  exact .ite hs (.foldl (fun _ _ hs => .sfuRun hs) hs)

theorem Sound.testEngine {o r} (hs : Sound pend s) : Sound pend (s.testEngine o r) := by
  unfold State.testEngine
  exact .ite hs (.ite (.rclStatus (.setFld hs)) (.logEvent (.setFld (.recordInfo hs))))

theorem Sound.releaseStreams {r} (hs : Sound pend s) : Sound pend (s.releaseStreams r) := by
  unfold State.releaseStreams
  exact .unless (.foldl (fun _ _ hs => .dropStream hs) hs) (fun hs => .foldl (fun _ _ hs => .setFld hs) hs)

theorem Sound.upsetsDropped (hs : Sound pend s) : Sound pend { s with storeUpset := [] } := .ofStoreUpset hs fun _ => rfl

theorem Sound.resetUp {o q} (hs : Sound pend s) : Sound pend (s.resetUp o q) := by
  unfold State.resetUp
  refine .ite hs (.ite (.reloadDomain hs) (.ite (.testEngine (.releaseStreams (.reloadDomain (.ite (.unitsLoading (.regionBack hs)) hs))))
    (.ite (.clearHub hs) (.ite (.hold (.clearHub hs)) (.ite (.hold (.setReg (.upsetsDropped (.recoverManager (.clearHub ?_)))))
      (.setFld (.setReg (.upsetsDropped (.recoverManager (.clearHub ?_))))))))))
  all_goals
    exact .foldl (fun _ _ hs => .testEngine (.releaseStreams hs)) (.reloadDomain (.unitsLoading (.restartCores
      (.foldl (fun _ _ hs => .ite hs (.setFld hs)) (.foldl (fun _ _ hs => .setBlock hs) hs)))))

theorem Sound.retireRegion {r} (hs : Sound pend s) : Sound pend (s.retireRegion r) := by
  unfold State.retireRegion
  exact .when (.setFld (.regionDown (.releaseStreams (.abortDomain hs)))) (fun hs => .unless (.setBit hs) (fun hs => .setFld hs))

theorem Sound.escalate {q} (hs : Sound pend s) : Sound pend (s.escalate q).1 := by
  unfold State.escalate
  dsimp only
  split
  · split
    · exact .resetWindows (.setFld hs)
    · split
      · exact hs
      · split
        · exact hs
        · split
          · exact .setFld hs
          · split
            · exact .setFld hs
            · exact hs
  · split
    · exact .when (.when (.setFld (.ofDomainCounts hs (Sparse.wf_filter _ _ _))) (fun hs => .setFld hs)) (fun hs => .setBit hs)
    · split
      · exact hs
      · split
        · exact .retireRegion hs
        · exact hs

theorem Sound.sendReady {q told} (hs : Sound pend s) : Sound pend (s.sendReady q told) := by
  unfold State.sendReady
  refine .foldl (fun _ _ hs => ?_) hs
  split
  · exact hs
  · exact .foldl (fun _ _ hs => .send hs) hs

theorem Sound.resetEnd {q told} (hs : Sound pend s) : Sound pend (s.resetEnd q told) := by
  unfold State.resetEnd
  exact .when (.settleSafe (.escalate (.cellsBack (.ite (.ite (.reopenAll (.setBit hs)) hs) hs)))) (fun hs => .sendReady hs)

theorem Sound.resetRest {o q told} (hs : Sound pend s) : Sound pend (s.resetRest o q told) := by
  unfold State.resetRest
  exact .ite hs (.ite (.setFld (.resetUp hs)) (.resetEnd (.same (.resetUp hs))))

theorem Answers.domainReset {o} (hs : Sound pend s) : Answers pend (execDomainReset o s) := by
  unfold Machine.execDomainReset
  dsimp only
  split
  · exact .next (.mergeResets hs)
  · exact .next (.resetRest (.resetDown (.when (.takeReset (.mergeResets hs) ‹_›) (fun hs => hs))))

theorem Sound.safeReset {v} (hs : Sound pend s) : Sound pend (s.safeReset v) := by
  unfold State.safeReset
  exact .ite (.logIgnored hs) (.requestReset hs)

theorem Answers.safeReset {a v} (hs : Sound pend s) : Answers pend (execSafeReset a v s) := by
  unfold Machine.execSafeReset
  exact .ite (.next hs) (.next (.safeReset hs))

theorem Sound.releaseChip (hs : Sound pend s) : Sound pend s.releaseChip := by
  unfold State.releaseChip
  exact .ite (.requestReset hs) hs

theorem Answers.releaseChip {a} (hs : Sound pend s) : Answers pend (execReleaseChip a s) := by
  unfold Machine.execReleaseChip
  exact .ite (.next hs) (.next (.releaseChip hs))

theorem Sound.releaseRegion {r} (hs : Sound pend s) : Sound pend (s.releaseRegion r) := by
  unfold State.releaseRegion
  exact .ite (.requestReset hs) hs

theorem Answers.releaseRegion {a r} (hs : Sound pend s) : Answers pend (execReleaseRegion a r s) := by
  unfold Machine.execReleaseRegion
  exact .ite (.next hs) (.next (.releaseRegion hs))

theorem Sound.verdict {k t code} (hs : Sound pend s) : Sound pend (s.verdict k t code) := by
  unfold State.verdict
  exact .logEvent hs

theorem Sound.nextSuspect {x} (hs : Sound pend s) : Sound pend (s.nextSuspect x) := by
  unfold State.nextSuspect
  exact .ite hs (.resetEnd (.clearDomain (.same (.foldl (fun _ _ hs => .verdict hs) hs))))

theorem Answers.replay {spent fault} (hs : Sound pend s) : Answers pend (execReplay spent fault s) := by
  unfold Machine.execReplay
  split
  · split
    · refine .ite (.next hs) ?_
      refine .next ?_
      refine .nextSuspect ?_
      split <;> exact .verdict hs
    · exact .next hs
  · exact .next hs

theorem Answers.replayGuilty {o} (hs : Sound pend s) : Answers pend (execReplayGuilty o s) := by
  unfold Machine.execReplayGuilty
  split
  · split
    · exact .ite (.next hs) (.ite (.next (.nextSuspect (.setFld (.resetUp (.resetDown (.verdict hs))))))
          (.next (.resetEnd (.same (.resetUp (.resetDown (.verdict hs)))))))
    · exact .next hs
  · exact .next hs

theorem Answers.heartbeat (hs : Sound pend s) : Answers pend (execHeartbeat s) := by
  unfold Machine.execHeartbeat
  exact .ite (.next hs) (.ite (.next hs) (.next (.same (.stepFld hs))))

theorem Answers.watchOverdue (hs : Sound pend s) : Answers pend (execWatchOverdue s) := by
  unfold Machine.execWatchOverdue
  exact .next (.setReg hs)

theorem Answers.coolingEnd (hs : Sound pend s) : Answers pend (execCoolingEnd s) := by
  unfold Machine.execCoolingEnd
  split
  · exact .ite (.next (.settleSafe hs)) (.next hs)
  · exact .next hs

theorem Answers.lockstepMismatch {service} (hs : Sound pend s) : Answers pend (execLockstepMismatch service s) := by
  unfold Machine.execLockstepMismatch
  exact .ite (.next hs) (.next (.requestReset (.ite (.setFld hs) hs)))

theorem Answers.pllLoss {k} (hs : Sound pend s) : Answers pend (execPllLoss k s) := by
  unfold Machine.execPllLoss
  refine .ite (.next hs) ?_
  split
  · exact .next (.ite (.requestReset hs) (.requestReset hs))
  · exact .next (.requestReset hs)
  · exact .next (.requestReset (.setFld hs))

theorem Answers.pllRelock {o} (hs : Sound pend s) : Answers pend (execPllRelock o s) := by
  unfold Machine.execPllRelock
  refine .ite (.next hs) ?_
  dsimp only
  split
  · exact .next (.same (.ite (.setFld hs) hs))
  · exact .next (.resetRest (.same (.ite (.setFld hs) hs)))

theorem Answers.pcieRefclkLoss (hs : Sound pend s) : Answers pend (execPcieRefclkLoss s) := by
  unfold Machine.execPcieRefclkLoss
  exact .next hs

theorem Answers.pcieRefclkReturn (hs : Sound pend s) : Answers pend (execPcieRefclkReturn s) := by
  unfold Machine.execPcieRefclkReturn
  exact .next hs

/-! ### Power -/

theorem Sound.applyKeep {r} (hs : Sound pend s) : Sound pend (s.applyKeep r) := by
  unfold State.applyKeep
  exact .setFld (.setBit (.setFld hs))

theorem Sound.applyKeepAll (hs : Sound pend s) : Sound pend s.applyKeepAll := by
  unfold State.applyKeepAll
  exact .foldl (fun _ _ hs => .applyKeep hs) hs

theorem Answers.throttleChange {r} (hs : Sound pend s) : Answers pend (execThrottleChange r s) := by
  unfold Machine.execThrottleChange
  exact .next (.applyKeep hs)

theorem Sound.writeCap {r v} (hs : Sound pend s) : Sound pend (s.writeCap r v) := by
  unfold State.writeCap
  exact .ite (.logIgnored hs) (.viaStore hs (.setFld hs))

theorem Answers.pwrRegionCapWrite {a r v} (hs : Sound pend s) : Answers pend (execPwrRegionCapWrite a r v s) := by
  unfold Machine.execPwrRegionCapWrite
  exact .ite (.next hs) (.next (.writeCap hs))

theorem Sound.slideWindow (hs : Sound pend s) : Sound pend s.slideWindow := by
  unfold State.slideWindow
  exact .setFld hs

theorem Sound.spendPeak {chip} (hs : Sound pend s) : Sound pend (s.spendPeak chip) := by
  unfold State.spendPeak
  exact .when (.setBit (.slideWindow hs)) (fun hs => .slideWindow (.same hs))

theorem Sound.setGovernor {r g} (hs : Sound pend s) : Sound pend (s.setGovernor r g) := by
  unfold State.setGovernor
  exact .ofGovernors hs (Sparse.wf_set _ _ _ _)

theorem Sound.govern {r p} (hs : Sound pend s) : Sound pend (s.govern r p) := by
  unfold State.govern
  exact .setGovernor (.setFld hs)

theorem Answers.governorSample {r p} (hs : Sound pend s) : Answers pend (execGovernorSample r p s) := by
  unfold Machine.execGovernorSample
  exact .next (.applyKeep (.setFld (.setFld (.setFld (.govern (.spendPeak hs))))))

theorem Answers.excursionSpent (hs : Sound pend s) : Answers pend (execExcursionSpent s) := by
  unfold Machine.execExcursionSpent
  exact .ite (.next (.setBit (.slideWindow hs))) (.next (.slideWindow hs))

theorem Answers.droopLevel {r level} (hs : Sound pend s) : Answers pend (execDroopLevel r level s) := by
  unfold Machine.execDroopLevel
  exact .ite (.next (.when (.setFld (.setGovernor hs)) (fun hs => .addSat hs)))
      (.next (.applyKeepAll (.same (.logEvent (.addSat (.setFld (.setGovernor hs)))))))

theorem Answers.droopThrottleEnd (hs : Sound pend s) : Answers pend (execDroopThrottleEnd s) := by
  unfold Machine.execDroopThrottleEnd
  split
  · exact .ite (.next (.applyKeepAll hs)) (.next hs)
  · exact .next hs

theorem Answers.sensorRead {temps} (hs : Sound pend s) : Answers pend (execSensorRead temps s) := by
  unfold Machine.execSensorRead
  exact .next (.applyKeepAll (.when (.same (.setFld
      (.setFld (.setBit (.setBit (.foldl (fun _ _ hs => .setFld hs) hs)))))) (fun hs => .requestReset hs)))

theorem Answers.hardwareTrip {temp} (hs : Sound pend s) : Answers pend (execHardwareTrip temp s) := by
  unfold Machine.execHardwareTrip
  exact .ite (.next hs) (.next (.powerLost hs))

theorem Answers.railExcursion {rail low} (hs : Sound pend s) : Answers pend (execRailExcursion rail low s) := by
  unfold Machine.execRailExcursion
  exact .ite (.next hs) (.next (.setFld hs))

theorem Sound.releaseParked (hs : Sound pend s) : Sound pend s.releaseParked := by
  unfold State.releaseParked
  exact .foldl (fun _ _ hs => .colStatus (.setChain (.dropChainPairs hs))) (.foldl (fun _ _ hs => .dropStream hs) hs)

theorem Sound.enterFallow (hs : Sound pend s) : Sound pend s.enterFallow := by
  unfold State.enterFallow
  exact .ite (.logIgnored hs) (.setFld hs)

theorem Answers.fallowEnter {a} (hs : Sound pend s) : Answers pend (execFallowEnter a s) := by
  unfold Machine.execFallowEnter
  exact .ite (.next hs) (.next (.enterFallow hs))

theorem Sound.gateRegs (hs : Sound pend s) : Sound pend s.gateRegs := by
  unfold State.gateRegs
  exact .ofRegs hs (Sparse.wf_filter _ _ _)

theorem Answers.fallowGating (hs : Sound pend s) : Answers pend (execFallowGating s) := by
  unfold Machine.execFallowGating
  exact .ite (.next hs) (.next (.foldl (fun _ _ hs => .unless (.setBlock hs) (fun hs => .setFld hs))
      (.foldl (fun _ _ hs => .unless (.setCell hs) (fun hs => .setFld hs))
          (.foldl (fun _ _ hs => .retrainPort hs) (.foldl (fun _ _ hs => .ite hs (.linkOff hs))
              (.setFld (.gateRegs (.releaseParked hs))))))))

theorem Sound.exitFallow {loads kat} (hs : Sound pend s) : Sound pend (s.exitFallow loads kat) := by
  unfold State.exitFallow
  exact .ite (.setFld hs) (.ite hs (.foldl (fun _ _ hs => .retrainPort hs)
      (.foldl (fun _ _ hs => .testEngine hs) (.reloadDomain (.dressPlots (.cellsBack (.clearDomain (.setFld hs))))))))

theorem Answers.fallowExit {a loads kat} (hs : Sound pend s) : Answers pend (execFallowExit a loads kat s) := by
  unfold Machine.execFallowExit
  exact .ite (.next hs) (.next (.exitFallow hs))

theorem Answers.sundialBeat (hs : Sound pend s) : Answers pend (execSundialBeat s) := by
  unfold Machine.execSundialBeat
  exact .next hs

theorem Answers.managementBusRead {off} (hs : Sound pend s) : Answers pend (execManagementBusRead off s) := by
  unfold Machine.execManagementBusRead
  exact .ite (.next hs) (.next hs)

/-! ### Registers -/

theorem Sound.ranTo {r} (hr : Answers pend r) (hs : Sound pend s) : Sound pend (ranTo r s) := by
  unfold Machine.ranTo
  split
  · exact hr
  · exact hs

theorem Sound.restartFree (hs : Sound pend s) : Sound pend s.restartFree := by
  unfold State.restartFree
  exact .restart (.fresh hs)

theorem Sound.exitFree (hs : Sound pend s) : Sound pend s.exitFree := by
  unfold State.exitFree
  exact .exitFallow (.fresh hs)

theorem Sound.applyWrite {a r i v} (hs : Sound pend s) : Sound pend (s.applyWrite a r i v) := by
  unfold State.applyWrite
  dsimp only
  split
  · exact .setReg hs
  · exact .setReg hs
  · exact .when (.ranTo (.sfuModeCompat hs) hs) (fun hs => .ranTo (.sfuModeTest hs) hs)
  · exact .ranTo (.kvmDoorbell hs) hs
  · exact .ranTo (.admDoorbell hs) hs
  · exact .ranTo (.colTrigger hs) hs
  · exact .ite (.viaStore hs (.setReg hs)) (.logIgnored hs)
  · exact .ite (.viaStore hs (.setReg hs)) (.logIgnored hs)
  · exact .ite (.viaStore hs (.setReg hs)) (.logIgnored hs)
  · exact .ite (.viaStore hs (.setReg hs)) (.logIgnored hs)
  · exact .viaStore hs (.setReg hs)
  · exact .ranTo (.memColdSegWrite hs) hs
  · exact .ite (.viaStore hs (.setFld hs)) hs
  · exact .viaStore hs (.setFld (.setFld hs))
  · exact .when (.when (.ite (.ranTo (.lnkDisable hs) hs) hs) (fun hs => .ranTo (.lnkRetrain hs) hs)) (fun hs => .ranTo (.lnkRelease hs) hs)
  · exact .when (.ranTo (.fldDisable (.ite (.viaStore hs (.setFld hs)) hs)) (.ite (.viaStore hs (.setFld hs)) hs)) (fun hs => .ranTo
        (.fldRetrain hs) hs)
  · exact .when (.when (.setBit (.setBit hs)) (fun hs => .bootGo hs)) (fun hs => .restartFree hs)
  · exact .ite (.logIgnored hs) (.setReg hs)
  · exact .ite (.logIgnored hs) (.setReg hs)
  · exact .ite (.logIgnored hs) (.setReg hs)
  · exact .setReg hs
  · exact .armSundial hs
  · exact .safeReset hs
  · exact .foldl (fun _ _ hs => .ite (.releaseRegion hs) hs) (.ite (.releaseChip hs) hs)
  · exact .ite (.lockViol hs) (.same (.setBit hs))
  · exact .writeRef hs
  · exact .ite (.setBit hs) (.setReg hs)
  · exact .ite (.ranTo (.mboxGo hs) hs) hs
  · exact .writeCap hs
  · exact .when (.ite (.enterFallow hs) hs) (fun hs => .exitFree hs)
  · exact hs

theorem Sound.acceptWrite {a r i v} (hs : Sound pend s) : Sound pend (s.acceptWrite a r i v) := by
  unfold State.acceptWrite
  exact .overUpset (.applyWrite hs)

theorem Sound.foreignWrite {a r i off} (hs : Sound pend s) : Sound pend (s.foreignWrite a r i off) := by
  unfold State.foreignWrite
  split
  · exact .refusedWrite hs
  · exact hs

theorem Sound.writeReg {a priv off v} (hs : Sound pend s) : Sound pend (s.writeReg a priv off v) := by
  unfold State.writeReg
  refine .ite (.logIgnored hs) ?_
  split
  · exact hs
  · exact .ite (.ite hs (.foreignWrite hs)) (.ite hs (.acceptWrite hs))

theorem Sound.writeAlias {a priv off v} (hs : Sound pend s) : Sound pend (s.writeAlias a priv off v) := by
  unfold State.writeAlias
  refine .ite (.logIgnored hs) ?_
  refine .ite (.writeReg hs) ?_
  split
  · exact hs
  · exact .ite (.ite hs (.foreignWrite hs)) (.unless
        (.when (.ite (.logIgnored hs) hs) (fun hs => .lockViol hs)) (fun hs => .acceptWrite hs))

theorem Answers.registerWrite {a priv off v} (hs : Sound pend s) : Answers pend (execRegisterWrite a priv off v s) := by
  unfold Machine.execRegisterWrite
  exact .ite (.next hs) (.next (.writeAlias hs))

theorem Answers.aliasWrite {a priv off v} (hs : Sound pend s) : Answers pend (execAliasWrite a priv off v s) := by
  unfold Machine.execAliasWrite
  exact .ite (.next hs) (.next (.writeAlias hs))

theorem Answers.w1lWrite {a off v} (hs : Sound pend s) : Answers pend (execW1lWrite a off v s) := by
  unfold Machine.execW1lWrite
  exact .ite (.next hs) (.next (.writeReg hs))

theorem Answers.privLockDrop {a} (hs : Sound pend s) : Answers pend (execPrivLockDrop a s) := by
  unfold Machine.execPrivLockDrop
  exact .ite (.next hs) (.next (.writeReg hs))

theorem Sound.setPerf {n x} (hs : Sound pend s) : Sound pend (s.setPerf n x) := by
  unfold State.setPerf
  exact .ofPerf hs (Sparse.wf_set _ _ _ _)

theorem Sound.readPerf {n high} (hs : Sound pend s) : Sound pend (s.readPerf n high) := by
  unfold State.readPerf
  exact .ite (.same (.setPerf hs)) (.same (.setPerf hs))

theorem Sound.readEffect {a priv off v} (hs : Sound pend s) : Sound pend (s.readEffect a priv off v) := by
  unfold State.readEffect
  split
  · exact hs
  · exact .ite hs (.ite (.ranTo (.sdlTimeLowRead hs) hs) (.when (.ite hs (.setReg hs)) (fun hs => .same hs)))

theorem Answers.rcRead {a priv off} (hs : Sound pend s) : Answers pend (execRcRead a priv off s) := by
  unfold Machine.execRcRead
  refine .ite (.next hs) ?_
  refine .ite (.next (.same (.logIgnored hs))) ?_
  split
  · exact .next (.readPerf hs)
  · exact .ite (.next hs) (.next (.same (.ite (.readEffect hs) hs)))

theorem Answers.perfCounterRead {a n steps} (hs : Sound pend s) : Answers pend (execPerfCounterRead a n steps s) := by
  unfold Machine.execPerfCounterRead
  exact .ite (.next hs) (.next (.readPerf (.setPerf hs)))

theorem Answers.configScanStart {flips} (hs : Sound pend s) : Answers pend (execConfigScanStart flips s) := by
  unfold Machine.execConfigScanStart
  refine .ite (.next hs) (.next (.ofStoreUpset hs fun h => ?_))
  refine List.foldlRecOn (motive := fun u => Sparse.wf (fun _ => 0) u = true) flips _ h fun u hu f _ => ?_
  split
  · exact Sparse.wf_set _ _ _ _ hu
  · exact hu

theorem Sound.configMismatch (hs : Sound pend s) : Sound pend s.configMismatch := by
  unfold State.configMismatch
  exact .requestReset (.foldl (fun _ _ hs => .logEvent hs) (.setBit (.setBit hs)))

theorem Answers.configScanPass (hs : Sound pend s) : Answers pend (execConfigScanPass s) := by
  unfold Machine.execConfigScanPass
  split
  · exact .next hs
  · exact .ite (.next (.configMismatch (.setReg (.stepFld hs)))) (.next (.setReg (.stepFld hs)))

/-! ### Sundial events -/

theorem Sound.schedule {who tick off v} (hs : Sound pend s) : Sound pend (s.schedule who tick off v).2 := by
  unfold State.schedule
  split
  · exact hs
  · split
    · exact hs
    · split <;> exact hs

theorem Answers.schedWrite {who} (hs : Sound pend s) : Answers pend (execSchedWrite who s) := by
  unfold Machine.execSchedWrite
  split
  · exact .next (.runCommand hs (fun _ _ hs => .finishOpen (.schedule hs)))
  · exact .next (.runMbox hs (fun _ _ hs => .mboxOpen (.schedule hs)))

theorem Sound.fireWrite {e p off v priv} (hs : Sound pend s) : Sound pend (s.fireWrite e p off v priv) := by
  unfold State.fireWrite
  exact .ite (.writeAlias (.ite (.markUnsync hs) hs)) (.writeAlias (.ite (.markUnsync hs) hs))

theorem Sound.fireEvent {e} (hs : Sound pend s) : Sound pend (s.fireEvent e) := by
  unfold State.fireEvent
  split
  · exact .ranTo (.taskStart hs) hs
  · exact .ranTo (.persistentRun hs) hs
  · exact .ranTo (.hopLaunch hs) hs
  · exact .ranTo (.opFire hs) hs
  · exact .swapIndex hs
  · exact .same (.startWaiting hs)
  · exact .fireWrite hs

theorem Answers.sundialEvent (hs : Sound pend s) : Answers pend (execSundialEvent s) := by
  unfold Machine.execSundialEvent
  split
  · exact .next (.fireEvent hs)
  · exact .next hs

theorem Answers.deferredEvent {l} (hs : Sound pend s) : Answers pend (execDeferredEvent l s) := by
  unfold Machine.execDeferredEvent
  exact .ite (.next hs) (.next (.foldl (fun _ _ hs => .ranTo (.opFire hs) hs) (.foldl (fun _ _ hs => .ranTo (.hopLaunch hs) hs) hs)))

end Sys2Proof.Machine
end

section
/-!
Soundness through every command and the tick.
-/

namespace Sys2Proof.Machine
open Sys2Proof

-- One proof at a time: many short proofs at once ask for more threads than the stack limit leaves room for.
set_option Elab.async false

variable {pend : List Instr} {s t : State}

/-! ### Every command -/

/-- Every command keeps the state sound (Dispatch: one arm per constructor). -/
theorem Answers.exec {i : Instr} (hs : Sound pend s) : Answers pend (exec i s) := by
  cases i with
  | mma => exact .mma hs
  | ats => exact .ats hs
  | maskTileFetch => exact .maskTileFetch hs
  | atv => exact .atv hs
  | vop => exact .vop hs
  | cvt => exact .cvt hs
  | rowoutPartial => exact .rowoutPartial hs
  | rowoutFinalSlots => exact .rowoutFinalSlots hs
  | rowoutFinalScratchpad => exact .rowoutFinalScratchpad hs
  | rowoutMerge => exact .rowoutMerge hs
  | blockMerge => exact .blockMerge hs
  | sfn => exact .sfn hs
  | sqacc => exact .sqacc hs
  | rmsr => exact .rmsr hs
  | mul3 => exact .mul3 hs
  | sfnVectorGrant => exact .sfnVectorGrant hs
  | sfnResult => exact .sfnResult hs
  | checkLaneMismatch => exact .checkLaneMismatch hs
  | waitSem => exact .waitSem hs
  | postSem => exact .postSem hs
  | cellLoop => exact .cellLoop hs
  | cellJump => exact .cellJump hs
  | cellEnd => exact .cellEnd hs
  | residueCheckReport => exact .residueCheckReport hs
  | drainAck => exact .drainAck hs
  | transferTile => exact .transferTile hs
  | quantumMet => exact .quantumMet hs
  | chainTile => exact .chainTile hs
  | sfuLoadTest => exact .sfuLoadTest hs
  | sfuModeTest => exact .sfuModeTest hs
  | sfuModeCompat => exact .sfuModeCompat hs
  | sfuLoad => exact .sfuLoad hs
  | sfuUnload => exact .sfuUnload hs
  | trayFill => exact .trayFill hs
  | trayAccept => exact .trayAccept hs
  | trayDiscard => exact .trayDiscard hs
  | trayCommit => exact .trayCommit hs
  | dibberDone => exact .dibberDone hs
  | dibberRolledBack => exact .dibberRolledBack hs
  | kvmDoorbell => exact .kvmDoorbell hs
  | seqCreate => exact .seqCreate hs
  | seqDestroy => exact .seqDestroy hs
  | append => exact .append hs
  | globalAdd => exact .globalAdd hs
  | walk => exact .walk hs
  | peerWalk => exact .peerWalk hs
  | prefetch => exact .prefetch hs
  | pin => exact .pin hs
  | copyPrefix => exact .copyPrefix hs
  | bufAlloc => exact .bufAlloc hs
  | bufFree => exact .bufFree hs
  | migrate => exact .migrate hs
  | bucket => exact .bucket hs
  | commitPoint => exact .commitPoint hs
  | signatureAppend => exact .signatureAppend hs
  | pressureHandling => exact .pressureHandling hs
  | convertToCutting => exact .convertToCutting hs
  | hostAlloc => exact .hostAlloc hs
  | hostSeal => exact .hostSeal hs
  | hostQuery => exact .hostQuery hs
  | hostFree => exact .hostFree hs
  | hostReplyTimeout => exact .hostReplyTimeout hs
  | pageMoveCommit => exact .pageMoveCommit hs
  | sourceFree => exact .sourceFree hs
  | orphanReclaim => exact .orphanReclaim hs
  | stepHeader => exact .stepHeader hs
  | queryPiece => exact .queryPiece hs
  | partialPiece => exact .partialPiece hs
  | peerCommit => exact .peerCommit hs
  | hopLaunch => exact .hopLaunch hs
  | ringTimeout => exact .ringTimeout hs
  | ringBufferRelease => exact .ringBufferRelease hs
  | idxCreate => exact .idxCreate hs
  | idxDestroy => exact .idxDestroy hs
  | idxStage => exact .idxStage hs
  | idxSwap => exact .idxSwap hs
  | indexSwap => exact .indexSwap hs
  | insertEntry => exact .insertEntry hs
  | deleteEntry => exact .deleteEntry hs
  | compact => exact .compact hs
  | compaction => exact .compaction hs
  | versionRelease => exact .versionRelease hs
  | queryBatch => exact .queryBatch hs
  | snapshotWait => exact .snapshotWait hs
  | chunk => exact .chunk hs
  | resultWrite => exact .resultWrite hs
  | shardedBatch => exact .shardedBatch hs
  | knownAnswerTest => exact .knownAnswerTest hs
  | progLoop => exact .progLoop hs
  | nextLoop => exact .nextLoop hs
  | seta => exact .seta hs
  | adda => exact .adda hs
  | moveBytes => exact .moveBytes hs
  | zeroBytes => exact .zeroBytes hs
  | flush => exact .flush hs
  | idx => exact .idx hs
  | page => exact .page hs
  | trail => exact .trail hs
  | progEnd => exact .progEnd hs
  | tileComplete => exact .tileComplete hs
  | persistentRun => exact .persistentRun hs
  | backgroundPromotion => exact .backgroundPromotion hs
  | slotMeter => exact .slotMeter hs
  | eccReport => exact .eccReport hs
  | scrubPassStart => exact .scrubPassStart hs
  | scrubPromote => exact .scrubPromote hs
  | scrubPassEnd => exact .scrubPassEnd hs
  | memColdSegWrite => exact .memColdSegWrite hs
  | syncExchange => exact .syncExchange hs
  | syncFlit => exact .syncFlit hs
  | sundialJoin => exact .sundialJoin hs
  | exchangeMiss => exact .exchangeMiss hs
  | linkDormant => exact .linkDormant hs
  | sdlTimeLowRead => exact .sdlTimeLowRead hs
  | sundialEvent => exact .sundialEvent hs
  | deferredEvent => exact .deferredEvent hs
  | schedWrite => exact .schedWrite hs
  | admDoorbell => exact .admDoorbell hs
  | admissionRequest => exact .admissionRequest hs
  | streamCheckEnd => exact .streamCheckEnd hs
  | taskStart => exact .taskStart hs
  | taskEnd => exact .taskEnd hs
  | deadlineAbort => exact .deadlineAbort hs
  | throttleChange => exact .throttleChange hs
  | capacityLoss => exact .capacityLoss hs
  | dataFlit => exact .dataFlit hs
  | linkControlFlit => exact .linkControlFlit hs
  | replayTimeout => exact .replayTimeout hs
  | laneFailure => exact .laneFailure hs
  | trainingComplete => exact .trainingComplete hs
  | retrainEnd => exact .retrainEnd hs
  | discoverySend => exact .discoverySend hs
  | discoveryRecord => exact .discoveryRecord hs
  | switchRecord => exact .switchRecord hs
  | discoverySilence => exact .discoverySilence hs
  | lnkRelease => exact .lnkRelease hs
  | lnkRetrain => exact .lnkRetrain hs
  | lnkDisable => exact .lnkDisable hs
  | fabricWrite => exact .fabricWrite hs
  | readRequest => exact .readRequest hs
  | readReply => exact .readReply hs
  | collectivePiece => exact .collectivePiece hs
  | creditReturn => exact .creditReturn hs
  | readyNotice => exact .readyNotice hs
  | frost => exact .frost hs
  | chainArm => exact .chainArm hs
  | chainRelease => exact .chainRelease hs
  | opAbort => exact .opAbort hs
  | colTrigger => exact .colTrigger hs
  | opFire => exact .opFire hs
  | ringChunk => exact .ringChunk hs
  | opComplete => exact .opComplete hs
  | collectiveTimeout => exact .collectiveTimeout hs
  | errorReport => exact .errorReport hs
  | neighborSolicitation => exact .neighborSolicitation hs
  | afithData => exact .afithData hs
  | afithAck => exact .afithAck hs
  | ackTimer => exact .ackTimer hs
  | openConn => exact .openConn hs
  | openAck => exact .openAck hs
  | afithReset => exact .afithReset hs
  | openRetry => exact .openRetry hs
  | retransmitTimeout => exact .retransmitTimeout hs
  | giveUp => exact .giveUp hs
  | fldSend => exact .fldSend hs
  | pcsAlignmentLoss => exact .pcsAlignmentLoss hs
  | fldRetrain => exact .fldRetrain hs
  | fldDisable => exact .fldDisable hs
  | ptpSync => exact .ptpSync hs
  | ptpLockLoss => exact .ptpLockLoss hs
  | plotCreate => exact .plotCreate hs
  | plotSet => exact .plotSet hs
  | plotGrow => exact .plotGrow hs
  | plotShrink => exact .plotShrink hs
  | plotStop => exact .plotStop hs
  | plotStart => exact .plotStart hs
  | plotResize => exact .plotResize hs
  | plotDestroy => exact .plotDestroy hs
  | groupSet => exact .groupSet hs
  | powerOn => exact .powerOn hs
  | pwrSeqOkFall => exact .pwrSeqOkFall hs
  | perstAssert => exact .perstAssert hs
  | perstRelease => exact .perstRelease hs
  | bootRestart => exact .bootRestart hs
  | bootGo => exact .bootGo hs
  | imageVerified => exact .imageVerified hs
  | nvmOwnFall => exact .nvmOwnFall hs
  | nvmOwnRise => exact .nvmOwnRise hs
  | nvmWaitExpiry => exact .nvmWaitExpiry hs
  | seedbedReadDone => exact .seedbedReadDone hs
  | firmwareEntry => exact .firmwareEntry hs
  | memoryTrainingDone => exact .memoryTrainingDone hs
  | bootSundialHigh => exact .bootSundialHigh hs
  | domainReset => exact .domainReset hs
  | safeReset => exact .safeReset hs
  | releaseChip => exact .releaseChip hs
  | releaseRegion => exact .releaseRegion hs
  | replay => exact .replay hs
  | replayGuilty => exact .replayGuilty hs
  | heartbeat => exact .heartbeat hs
  | watchOverdue => exact .watchOverdue hs
  | coolingEnd => exact .coolingEnd hs
  | lockstepMismatch => exact .lockstepMismatch hs
  | pllLoss => exact .pllLoss hs
  | pcieRefclkLoss => exact .pcieRefclkLoss hs
  | logRead => exact .logRead hs
  | harvestRead => exact .harvestRead hs
  | perfCounterRead => exact .perfCounterRead hs
  | registerWrite => exact .registerWrite hs
  | aliasWrite => exact .aliasWrite hs
  | rcRead => exact .rcRead hs
  | w1lWrite => exact .w1lWrite hs
  | privLockDrop => exact .privLockDrop hs
  | configScanPass => exact .configScanPass hs
  | mboxGo => exact .mboxGo hs
  | pwrRegionCapWrite => exact .pwrRegionCapWrite hs
  | fallowEnter => exact .fallowEnter hs
  | fallowGating => exact .fallowGating hs
  | fallowExit => exact .fallowExit hs
  | governorSample => exact .governorSample hs
  | excursionSpent => exact .excursionSpent hs
  | droopLevel => exact .droopLevel hs
  | droopThrottleEnd => exact .droopThrottleEnd hs
  | sensorRead => exact .sensorRead hs
  | hardwareTrip => exact .hardwareTrip hs
  | managementBusRead => exact .managementBusRead hs
  | fieldPortUp => exact .fieldPortUp hs
  | remoteTimeout => exact .remoteTimeout hs
  | hostingReply => exact .hostingReply hs
  | pllRelock => exact .pllRelock hs
  | pcieRefclkReturn => exact .pcieRefclkReturn hs
  | pcieTrained => exact .pcieTrained hs
  | configScanStart => exact .configScanStart hs
  | sundialBeat => exact .sundialBeat hs
  | railExcursion => exact .railExcursion hs

/-! ### The tick -/

theorem Sound.count (hs : Sound pend s) : Sound pend s.count := by
  unfold State.count
  exact .ite (.ite (.same hs) (.same hs)) hs

theorem Sound.linkTick {l} (hs : Sound pend s) : Sound pend (s.linkTick l) := by
  unfold State.linkTick
  refine .ite ?_ (.ite (.setLinkState hs) hs)
  split
  · exact .ite (.sendAck hs) hs
  · exact hs

theorem Sound.beatTick (hs : Sound pend s) : Sound pend s.beatTick := by
  unfold State.beatTick
  exact hs

theorem Sound.tick (hs : Sound pend s) : Sound pend s.tick := by
  unfold State.tick
  exact .scrubTick (.foldl (fun _ _ hs => .linkTick hs) (.beatTick (.count hs)))

/-- Settles O59: a step runs the front command on the state without it, or a tick, and each keeps the maps in canonical form and the rest
of the queue as it is. -/
theorem everyStepKeepsCanonicalForm : Obligations.EveryStepKeepsCanonicalForm := by
  unfold Obligations.EveryStepKeepsCanonicalForm
  intro s t hs hstep
  unfold step at hstep
  split at hstep
  next c rest hpend =>
    have hrest : Sound rest { s with pending := rest } := ⟨hs, rfl⟩
    have hexec : Answers rest (exec c { s with pending := rest }) := .exec hrest
    rw [hstep] at hexec
    exact ⟨hexec.1, hexec.2.trans (by rw [hpend, List.tail_cons])⟩
  next hpend =>
    have htick : Sound [] s.tick := .tick ⟨hs, hpend⟩
    cases hstep
    exact ⟨htick.1, htick.2.trans (by rw [hpend, List.tail_nil])⟩

end Sys2Proof.Machine
end

section
/-!
Scrubbers, the ECC report and the cold segments (R256, R260 to R263, R268). A scrubber's own command writes its record and brings the two
low fields of its MEM_SCRUB_STATUS up to date (`State.scrubStatus`); PASSES and LATE, above them, change at the end of a pass only.
-/

namespace Sys2Proof.Machine
open Sys2Proof

-- One proof at a time: many short proofs at once ask for more threads than the stack limit leaves room for.
set_option Elab.async false

/-! ### Scrubbers and their status (R261, R268) -/

theorem State.canonical_scrub {s : State} (h : s.canonical = true) : Sparse.wf (fun _ => Scrubber.idle) s.scrub = true := by
  simp only [State.canonical, Bool.and_eq_true, and_assoc] at h
  obtain ⟨-, -, -, -, -, -, hscrub, -⟩ := h
  exact hscrub

theorem State.scrubber_setScrubber_same {s : State} (h : s.canonical = true) (k : Nat) (x : Scrubber) :
    (s.setScrubber k x).scrubber k = x := Sparse.get_set_same _ _ _ _ (State.canonical_scrub h)

/-- A scrubber shares the status of its own region and tier. -/
theorem mem_scrubbersOf_scrubTier (k : ScrubIx) : k.val ∈ scrubbersOf (scrubTier k.val).1 (scrubTier k.val).2 := by
  have hk := k.isLt
  unfold scrubTier
  split_ifs with hspad hblock hdram
  · exact List.mem_append_left _ (List.mem_map.mpr ⟨k.val % 128, List.mem_range.mpr (Nat.mod_lt _ (by decide)), Nat.div_add_mod _ _⟩)
  · exact List.mem_append_right _ (List.mem_map.mpr ⟨(k.val - 512) % 8, List.mem_range.mpr (Nat.mod_lt _ (by decide)), by omega⟩)
  · exact List.mem_singleton.mpr (show k.val = 544 + (k.val - 544) by omega)
  · exact List.mem_singleton.mpr (show k.val = 548 + (k.val - 548) by omega)

theorem State.scrubber_scrubStatus (s : State) (r t k : Nat) : (s.scrubStatus r t).scrubber k = s.scrubber k := rfl

section
variable {s : State} (h : Sparse.wf regReset s.regs = true)
include h

/-- PROMOTED is set while a scrubber of the region and tier runs promoted. -/
theorem State.promoted_scrubStatus {r t k : Nat} (hk : k ∈ scrubbersOf r t) (hrun : (s.scrubber k).running = true)
    (hprom : (s.scrubber k).promoted = true) : (s.scrubStatus r t).bit Fld.MEM_SCRUB_STATUS_PROMOTED (3 * r + t) = true := by
  have hany : (((scrubbersOf r t).map fun k => (k, s.scrubber k)).any fun e => e.2.running && e.2.promoted) = true :=
    List.any_eq_true.mpr ⟨_, List.mem_map_of_mem hk, by simp only [hrun, hprom, Bool.and_self]⟩
  have hset := State.bit_setBit_same s Fld.MEM_SCRUB_STATUS_PROMOTED (3 * r + t) true h (by decide) rfl
  refine Eq.trans (congrArg (· != 0) (State.fld_setFld_beside _ Fld.MEM_SCRUB_STATUS_PROGRESS Fld.MEM_SCRUB_STATUS_PROMOTED _ _
    (s.wf_setFld _ _ _ h) rfl (by decide) (by decide))) ?_
  rw [hany]
  exact hset

/-- A field of MEM_SCRUB_STATUS above PROMOTED reads as before. -/
theorem State.fld_scrubStatus_above (r t : Nat) {f : Fld} (hreg : f.reg = .MEM_SCRUB_STATUS) (hfits : f.lo + f.width ≤ 32)
    (habove : 9 ≤ f.lo) : (s.scrubStatus r t).fld f (3 * r + t) = s.fld f (3 * r + t) :=
  (State.fld_setFld_beside _ Fld.MEM_SCRUB_STATUS_PROGRESS f _ _ (s.wf_setFld _ _ _ h) hreg hfits
    (.inr ((by decide : 8 ≤ 9).trans habove))).trans
    (State.fld_setFld_beside s Fld.MEM_SCRUB_STATUS_PROMOTED f _ _ h hreg hfits (.inr habove))

end

/-! ### The commands of a scrubber (R261 to R263) -/

section
variable {s : State} {k : ScrubIx} (hawake : s.fld Fld.PWR_STATE_STATE 0 ≠ 3)
include hawake

theorem State.scrubPaused_eq_false : s.scrubPaused = false := beq_eq_false_iff_ne.mpr hawake

theorem exec_scrubPassStart_begins (hidle : (s.scrubber k.val).running = false) (htime : s.sundial % scrubInterval k.val = 0) :
    exec (.scrubPassStart k) s = .next ((s.setScrubber k.val ⟨s.sundial, scrubBytes k.val, false, true, 0⟩).scrubStatus
      (scrubTier k.val).1 (scrubTier k.val).2) := by
  show execScrubPassStart k s = _
  simp [execScrubPassStart, State.scrubPaused_eq_false hawake, hidle, htime]

theorem exec_scrubPromote_promotes (hrun : (s.scrubber k.val).running = true) (hprom : (s.scrubber k.val).promoted = false)
    (hrisk : scrubAtRisk k.val (s.scrubber k.val) s.sundial = true) :
    exec (.scrubPromote k) s = .next ((s.setScrubber k.val { s.scrubber k.val with promoted := true }).scrubStatus
      (scrubTier k.val).1 (scrubTier k.val).2) := by
  show execScrubPromote k s = _
  simp [execScrubPromote, State.scrubPaused_eq_false hawake, hrun, hprom, hrisk]

end

/-- The end of scrubber `k`'s pass that found nothing and ran past its interval or not: the record is idle, the next pass due at once if
late, and PASSES steps (R261, R263). -/
def State.passEnded (s : State) (k : Nat) (late : Bool) : State :=
  (s.setScrubber k ⟨(s.scrubber k).start, 0, false, false, if late then 1 else 0⟩).stepFld Fld.MEM_SCRUB_STATUS_PASSES
    (3 * (scrubTier k).1 + (scrubTier k).2)

/-- LATE as the end of a pass leaves it (R263). -/
def State.latePassed (s : State) (k : Nat) (late : Bool) : State :=
  if late then s.setBit Fld.MEM_SCRUB_STATUS_LATE (3 * (scrubTier k).1 + (scrubTier k).2) true else s

theorem exec_scrubPassEnd_ends {s : State} {k : ScrubIx} (hawake : s.fld Fld.PWR_STATE_STATE 0 ≠ 3)
    (hrun : (s.scrubber k.val).running = true) (hdone : (s.scrubber k.val).remain = 0) {late : Bool}
    (hlate : decide (scrubEnd k.val (s.scrubber k.val).start ≤ s.sundial) = late) :
    exec (.scrubPassEnd k []) s = .next (((s.passEnded k.val late).latePassed k.val late).scrubStatus
      (scrubTier k.val).1 (scrubTier k.val).2) := by
  subst hlate
  show execScrubPassEnd k [] s = _
  simp only [execScrubPassEnd, State.scrubPaused_eq_false hawake, hrun, hdone, List.filter_nil, List.foldl_nil, Bool.not_true,
    Bool.or_self, bne_self_eq_false, Bool.false_eq_true, if_false, State.passEnded, State.latePassed]
  rfl

section
variable {s : State} (h : Sparse.wf regReset s.regs = true) (k : Nat) (late : Bool)
include h

theorem State.wf_passEnded : Sparse.wf regReset (s.passEnded k late).regs = true := State.wf_setFld _ _ _ _ h

theorem State.wf_latePassed : Sparse.wf regReset (s.latePassed k late).regs = true := by
  unfold State.latePassed
  split
  · exact State.wf_setFld _ _ _ _ h
  · exact h

theorem State.passes_passEnded :
    (s.passEnded k late).fld Fld.MEM_SCRUB_STATUS_PASSES (3 * (scrubTier k).1 + (scrubTier k).2) =
      (s.fld Fld.MEM_SCRUB_STATUS_PASSES (3 * (scrubTier k).1 + (scrubTier k).2) + 1) % 2 ^ Fld.MEM_SCRUB_STATUS_PASSES.width :=
  State.fld_setFld_same _ _ _ _ h (by decide)

theorem State.late_passEnded :
    (s.passEnded k late).bit Fld.MEM_SCRUB_STATUS_LATE (3 * (scrubTier k).1 + (scrubTier k).2) =
      s.bit Fld.MEM_SCRUB_STATUS_LATE (3 * (scrubTier k).1 + (scrubTier k).2) :=
  congrArg (· != 0) (State.fld_setFld_beside _ Fld.MEM_SCRUB_STATUS_PASSES Fld.MEM_SCRUB_STATUS_LATE _ _ h rfl (by decide) (by decide))

theorem State.passes_latePassed :
    (s.latePassed k late).fld Fld.MEM_SCRUB_STATUS_PASSES (3 * (scrubTier k).1 + (scrubTier k).2) =
      s.fld Fld.MEM_SCRUB_STATUS_PASSES (3 * (scrubTier k).1 + (scrubTier k).2) := by
  unfold State.latePassed
  split
  · exact State.fld_setFld_beside _ Fld.MEM_SCRUB_STATUS_LATE Fld.MEM_SCRUB_STATUS_PASSES _ _ h rfl (by decide) (by decide)
  · rfl

theorem State.late_latePassed :
    (s.latePassed k late).bit Fld.MEM_SCRUB_STATUS_LATE (3 * (scrubTier k).1 + (scrubTier k).2) =
      (late || s.bit Fld.MEM_SCRUB_STATUS_LATE (3 * (scrubTier k).1 + (scrubTier k).2)) := by
  cases late with
  | true => exact State.bit_setBit_same _ _ _ _ h (by decide) rfl
  | false => rfl

end

theorem State.scrub_latePassed (s : State) (k : Nat) (late : Bool) : (s.latePassed k late).scrub = s.scrub := by
  unfold State.latePassed
  split
  · exact s.scrub_setBit ..
  · rfl

theorem State.memSame_latePassed (s : State) (k : Nat) (late : Bool) : MemSame s (s.latePassed k late) := by
  unfold State.latePassed
  split
  · exact ⟨s.mem_setBit .., s.hostMem_setBit .., s.poison_setBit ..⟩
  · exact ⟨rfl, rfl, rfl⟩

/-- The end of a pass leaves the scrubber idle. -/
theorem State.running_latePassed_passEnded {s : State} (hs : s.canonical = true) (k : Nat) (late : Bool) :
    (((s.passEnded k late).latePassed k late).scrubber k).running = false := by
  have hnew := State.scrubber_setScrubber_same hs k ⟨(s.scrubber k).start, 0, false, false, if late then 1 else 0⟩
  rw [State.scrubber, State.scrub_latePassed, State.passEnded, State.stepFld, State.scrub_setFld]
  exact congrArg Scrubber.running hnew

/-! ### The ECC report (R260) -/

theorem State.eccReports_requestReset (s : State) (level cause index : Nat) (cell : Option Nat) (ended : List (Nat × Task)) :
    (s.requestReset level cause index cell ended).eccReports = s.eccReports := by
  unfold State.requestReset
  split
  · rfl
  · rfl

theorem State.reg_requestReset (s : State) (level cause index : Nat) (cell : Option Nat) (ended : List (Nat × Task)) (r : Reg) (i : Nat) :
    (s.requestReset level cause index cell ended).reg r i = s.reg r i := by
  unfold State.requestReset
  split
  · rfl
  · rfl

theorem exec_eccReport_table {s : State} {a r t off : Nat} {rest : List Nat} (hruns : s.serviceRuns = true)
    (hhead : s.eccReports = a :: rest) (htier : tierOf a = some (r, t, off)) (htable : s.tableState a = true) :
    exec .eccReport s =
      .next ((({ s with eccReports := rest } : State).setBit Fld.MEM_ECC_INFO_TABLE r true).requestReset 3 0x05 r none) := by
  have hsame : ({ s with eccReports := rest } : State).tableState a = true := htable
  show execEccReport s = _
  simp only [execEccReport, State.byService, hruns, hhead, htier, hsame, if_true]

/-! ### Cold segments (R256) -/

theorem exec_memColdSegWrite_maps {s : State} {j : SegIx} (hpriv : s.privOk .pf0 = true) (hfree : s.segmentHeld j.val = false)
    (v : W32) : exec (.memColdSegWrite .pf0 j v) s = .next (s.viaStore (s.setReg .MEM_COLD_SEG j.val v)) := by
  show execMemColdSegWrite .pf0 j v s = _
  simp [execMemColdSegWrite, hpriv, hfree]

theorem exec_memColdSegWrite_ignored {s : State} {j : SegIx} {a : Agent} (h : a ≠ .pf0 ∨ s.segmentHeld j.val = true) (v : W32) :
    exec (.memColdSegWrite a j v) s = .next (s.logIgnored chipPlot 3 (Reg.MEM_COLD_SEG.offset + 4 * j.val)) := by
  show execMemColdSegWrite a j v s = _
  unfold execMemColdSegWrite
  rcases h with hagent | hheld
  · exact if_pos (.inl hagent)
  · simp only [hheld, if_true, ite_self]

/-- Settles O18, one clause per command; PASSES and LATE lie beside what the status writes. -/
theorem scrubbersEccReportsAndColdSegments : Obligations.ScrubbersEccReportsAndColdSegments := by
  refine ⟨fun s k hs hawake => ⟨fun hidle htime => ⟨_, exec_scrubPassStart_begins hawake hidle htime, ?start⟩,
      fun hrun hprom hrisk => ⟨_, exec_scrubPromote_promotes hawake hrun hprom hrisk, ?promote⟩,
      fun hrun hdone => ⟨_, exec_scrubPassEnd_ends hawake hrun hdone rfl, ?finish⟩⟩,
    fun s hs => ⟨fun a rest r t off hruns hhead htier htable => ⟨_, exec_eccReport_table hruns hhead htier htable, ?table⟩,
      fun j v hpriv hfree => ⟨_, exec_memColdSegWrite_maps hpriv hfree v, ?maps⟩,
      fun j a v h => exec_memColdSegWrite_ignored h v⟩⟩
  case start =>
    have hnew := State.scrubber_setScrubber_same hs k.val ⟨s.sundial, scrubBytes k.val, false, true, 0⟩
    exact ⟨(State.scrubber_scrubStatus _ _ _ _).trans hnew, rfl, rfl, rfl⟩
  case promote =>
    have hnew := State.scrubber_setScrubber_same hs k.val { s.scrubber k.val with promoted := true }
    have hwf := State.canonical_regs hs
    refine ⟨(State.scrubber_scrubStatus _ _ _ _).trans hnew, ?_, rfl, rfl, rfl⟩
    refine State.promoted_scrubStatus ?wf (mem_scrubbersOf_scrubTier k) ?runs ?promoted
    case wf => exact hwf
    case runs => rw [hnew]; exact hrun
    case promoted => rw [hnew]
  case finish =>
    have hwf := State.canonical_regs hs
    generalize decide (scrubEnd k.val (s.scrubber k.val).start ≤ s.sundial) = late
    have hended := State.wf_passEnded hwf k.val late
    have hlate := State.wf_latePassed hended k.val late
    refine ⟨?idle, ?passes, ?late, State.memSame_latePassed (s.passEnded k.val late) k.val late⟩
    case idle =>
      rw [State.scrubber_scrubStatus]
      exact State.running_latePassed_passEnded hs k.val late
    case passes =>
      rw [State.fld_scrubStatus_above hlate _ _ rfl (by decide) (by decide), State.passes_latePassed hended, State.passes_passEnded hwf]
    case late =>
      refine Eq.trans (congrArg (· != 0) (State.fld_scrubStatus_above hlate _ _ rfl (by decide) (by decide))) ?_
      exact (State.late_latePassed hended k.val late).trans (congrArg (late || ·) (State.late_passEnded hwf k.val late))
  case table =>
    have hset := (UnitWork.refl [(.MEM_ECC_INFO, r)] hs).setBit (f := Fld.MEM_ECC_INFO_TABLE) (show r < 4 from tierOf_region_lt htier)
      List.mem_cons_self true
    have hbit := State.bit_setBit_same s Fld.MEM_ECC_INFO_TABLE r true (State.canonical_regs hs) (by decide) rfl
    refine ⟨?reports, ?bit, fun q i hi hq => ?kept, State.mem_resets_requestReset ..⟩
    case reports => rw [State.eccReports_requestReset, State.eccReports_setBit]
    case bit =>
      rw [State.bit, State.fld, State.reg_requestReset]
      exact hbit
    case kept =>
      rw [State.reg_requestReset]
      exact hset.regs q i hi hq
  case maps =>
    have hset := (UnitWork.refl [(.MEM_COLD_SEG, j.val), (.HUB_CONFIG_REF, 0)] hs).setReg (r := .MEM_COLD_SEG) j.isLt (by simp) v
    have hstore := hset.viaStore (by simp) s
    have hbeside := (hset.restart [(.HUB_CONFIG_REF, 0)]).viaStore (by simp) s
    refine ⟨(hbeside.regs .MEM_COLD_SEG j.val j.isLt (by simp)).trans ?_, hstore.regs, hstore.mem⟩
    exact State.reg_setReg_same _ _ _ _ (State.canonical_regs hs)

end Sys2Proof.Machine
end

section
/-!
Messages of other chips (R232, R255, R259, R302, R403, R405, R415). The four commands hand their message to `State.arriving`, which takes
none while the hub is held and runs the command's own effect on a well-formed one for this chip. What is left is the effect: a write and a
read go by the reach, the epoch and the tray; a reply goes by the request that waits for it.
-/

namespace Sys2Proof.Machine
open Sys2Proof

-- One proof at a time: many short proofs at once ask for more threads than the stack limit leaves room for.
set_option Elab.async false

section
variable {s u : State} {m : InMsg} {q : Request}

theorem State.arriving_held (hhub : s.hubHeld = true) (kind : MsgKind) (m : InMsg) (f : State → State) : s.arriving kind m f = s := by
  simp [State.arriving, hhub]

/-- A clean write that meets no poison (R259). -/
theorem State.writeHere_clean {a : Nat} {bs : List Byte} (hst : s.storeBytes a bs = (u, none)) : s.writeHere a bs .clean = (u, false) := by
  simp [State.writeHere, Ecc.bad, hst]

/-! ### Replies and the requests that wait for them (R403) -/

theorem State.replyIn_unawaited (hq : s.reqs.find? (fun q => q.tag == m.tag && q.chip == m.src) = none) : s.replyIn m = s.countStale := by
  simp only [State.replyIn, hq]

theorem State.replyIn_oldGeneration (hq : s.reqs.find? (fun q => q.tag == m.tag && q.chip == m.src) = some q)
    (hgen : m.gen ≠ s.requesterTag q.who) : s.replyIn m = s.countStale := by
  simp only [State.replyIn, hq, if_pos hgen]

/-! A reply that fits its request goes to the one who asked, and the request no longer waits. -/

section
variable (hq : s.reqs.find? (fun q => q.tag == m.tag && q.chip == m.src) = some q) (hgen : m.gen = s.requesterTag q.who)
include hq hgen

theorem State.replyIn_stream {i arming tile instr : Nat} {part : ReqPart} (hwho : q.who = .stream i arming tile instr part) :
    s.replyIn m = ({ s with reqs := s.reqs.erase q } : State).streamReply m q i arming tile instr part := by
  simp only [State.replyIn, hq, if_neg (not_not.mpr hgen)]
  rw [hwho]

theorem State.replyIn_move {id : Nat} {j : Journal} (hwho : q.who = .move id) (hj : s.entry id = some j)
    (hstale : m.stale = false) (hop : m.op = 0) :
    s.replyIn m = (({ s with reqs := s.reqs.erase q } : State).putBytes (q.sinks.headD 0 % 2 ^ 48) (m.data.take q.len)).putJournal
      { j with due := j.due - q.len } := by
  have hmove : s.replyIn m = ({ s with reqs := s.reqs.erase q } : State).moveReply m q id := by
    simp only [State.replyIn, hq, if_neg (not_not.mpr hgen)]
    rw [hwho]
  have hentry : ({ s with reqs := s.reqs.erase q } : State).entry id = some j := hj
  rw [hmove, State.moveReply, hentry]
  simp only [hstale, hop, rpOk, Bool.false_eq_true, ne_eq, not_true_eq_false, or_self, if_false]

theorem State.replyIn_commit {p n : Nat} {x : Seqn} {k : Commit} (hwho : q.who = .commit p n) (hx : s.seq p n = some x)
    (hk : x.commit = some k) (hstale : m.stale = false) (hop : m.op = 0) :
    s.replyIn m = ({ s with reqs := s.reqs.erase q } : State).setSeq p n
      { x with commit := some { k with acked := k.acked + q.len } } := by
  have hcommit : s.replyIn m = ({ s with reqs := s.reqs.erase q } : State).commitReply m q p n := by
    simp only [State.replyIn, hq, if_neg (not_not.mpr hgen)]
    rw [hwho]
  have hseq : ({ s with reqs := s.reqs.erase q } : State).seq p n = some x := hx
  rw [hcommit, State.commitReply, hseq]
  simp only [hk, hstale, hop, rpOk, Bool.false_eq_true, ne_eq, not_true_eq_false, or_self, if_false]

end

/-! ### The statement, command by command -/

section
variable (hhub : s.hubHeld = false) (hmal : m.malformed = false) (hself : s.isSelf m.dest = true)
include hhub hmal hself

theorem State.exec_fabricWrite_stored (hreach : s.servesRange m.src m.plot m.addr m.data.length = true)
    (hepoch : s.epochFits m.src m.plot m.addr m.epoch = true) (htray : s.trayShut m.addr m.data.length = false)
    (hst : s.storeBytes m.addr m.data = (u, none)) : exec (.fabricWrite m .clean) s = .next (u.answerWrite m rpOk false) :=
  congrArg Host.Outcome.next ((State.arriving_here hhub hmal hself _ _).trans (by
    simp [hreach, hepoch, htray, State.writeHere_clean hst]))

theorem State.exec_fabricWrite_refused (hreach : s.servesRange m.src m.plot m.addr m.data.length = false) (hepoch : m.epoch = 0) :
    exec (.fabricWrite m .clean) s = .next (s.answerWrite m rpRefused false) :=
  congrArg Host.Outcome.next ((State.arriving_here hhub hmal hself _ _).trans (by simp [hreach, hepoch]))

theorem State.exec_fabricWrite_stale (hreach : s.servesRange m.src m.plot m.addr m.data.length = true)
    (hepoch : s.epochFits m.src m.plot m.addr m.epoch = false) :
    exec (.fabricWrite m .clean) s = .next (s.answerWrite m rpOk true) :=
  congrArg Host.Outcome.next ((State.arriving_here hhub hmal hself _ _).trans (by simp [hreach, hepoch]))

theorem State.exec_fabricWrite_tray (hreach : s.servesRange m.src m.plot m.addr m.data.length = true)
    (hepoch : s.epochFits m.src m.plot m.addr m.epoch = true) (htray : s.trayShut m.addr m.data.length = true) :
    exec (.fabricWrite m .clean) s = .next (s.answerWrite m rpTray false) :=
  congrArg Host.Outcome.next ((State.arriving_here hhub hmal hself _ _).trans (by simp [hreach, hepoch, htray]))

theorem State.exec_readRequest_served (hreach : s.servesRange m.src m.plot m.addr m.len = true)
    (hepoch : s.epochFits m.src m.plot m.addr m.epoch = true) (hclean : s.firstPoison m.addr m.len = none) :
    exec (.readRequest m .clean) s = .next (s.send (m.replyTo rpOk false (s.loadBytes m.addr m.len))) :=
  congrArg Host.Outcome.next ((State.arriving_here hhub hmal hself _ _).trans (by simp [hreach, hepoch, hclean, Ecc.bad]))

theorem State.exec_readRequest_stale (hreach : s.servesRange m.src m.plot m.addr m.len = true)
    (hepoch : s.epochFits m.src m.plot m.addr m.epoch = false) :
    exec (.readRequest m .clean) s = .next (s.send (m.replyTo rpOk true [])) :=
  congrArg Host.Outcome.next ((State.arriving_here hhub hmal hself _ _).trans (by simp [hreach, hepoch]))

theorem State.exec_readRequest_refused (hreach : s.servesRange m.src m.plot m.addr m.len = false) (hepoch : m.epoch = 0) :
    exec (.readRequest m .clean) s = .next (s.send (m.replyTo rpRefused false [])) :=
  congrArg Host.Outcome.next ((State.arriving_here hhub hmal hself _ _).trans (by simp [hreach, hepoch]))

theorem State.exec_readReply_here : exec (.readReply m) s = .next (s.replyIn m) :=
  congrArg Host.Outcome.next (State.arriving_here hhub hmal hself _ _)

/-- A ready notice to a group that is open here makes its check due, tells of a lead chip and is logged (R159, R178, R415). -/
theorem State.exec_readyNotice_group {x : GroupCtx} {v : State} (hop : m.op = 0x82000000)
    (hx : Table.get s.groups (m.plot % 8) = some x)
    (hv : v = { s with groups := Table.put s.groups (m.plot % 8) { x with due := true } }) :
    exec (.readyNotice m) s = .next ((if m.data.headD 0 = 4 then v.noteLead m.src (leNat ((m.data.drop 4).take 2)) else v).logEvent
      (m.plot % 8) 14 8 45 (m.src * 2 ^ 16 + leNat (m.data.take 2))) :=
  congrArg Host.Outcome.next ((State.arriving_here hhub hmal hself _ _).trans (by simp [hop, hx, hv]))

end

theorem exec_messages_held (hhub : s.hubHeld = true) (m : InMsg) :
    exec (.fabricWrite m .clean) s = .next s ∧ exec (.readRequest m .clean) s = .next s ∧
      exec (.readReply m) s = .next s ∧ exec (.readyNotice m) s = .next s := by
  have held (kind f) : (.next (s.arriving kind m f) : Res) = .next s := congrArg _ (State.arriving_held hhub kind m f)
  exact ⟨held _ _, held _ _, held _ _, held _ _⟩

end

/-- Settles O43: by the effect each message has once it has arrived, or by the held hub that takes none. -/
theorem messagesOfOtherChipsAreServed : Obligations.MessagesOfOtherChipsAreServed := by
  unfold Obligations.MessagesOfOtherChipsAreServed
  intro s u m
  refine ⟨fun hhub => exec_messages_held hhub m, fun hhub hmal hself => ⟨?_, ?_, ?_, ?_, ?_, ?_, ?_, ?_⟩⟩
  · exact State.exec_fabricWrite_stored hhub hmal hself
  · exact State.exec_fabricWrite_refused hhub hmal hself
  · exact fun hreach => ⟨State.exec_fabricWrite_stale hhub hmal hself hreach, State.exec_fabricWrite_tray hhub hmal hself hreach⟩
  · exact fun hreach => ⟨State.exec_readRequest_served hhub hmal hself hreach, State.exec_readRequest_stale hhub hmal hself hreach⟩
  · exact State.exec_readRequest_refused hhub hmal hself
  · intro q hq
    rw [State.exec_readReply_here hhub hmal hself]
    refine ⟨fun id j hgen hwho hj hstale hop => ?move, fun i arming tile instr part hgen hwho => ?stream,
      fun p n x k hgen hwho hx hk hstale hop => ?commit, fun hgen => ?old⟩
    case move => exact congrArg _ (State.replyIn_move hq hgen hwho hj hstale hop)
    case stream => exact congrArg _ (State.replyIn_stream hq hgen hwho)
    case commit => exact congrArg _ (State.replyIn_commit hq hgen hwho hx hk hstale hop)
    case old => exact congrArg _ (State.replyIn_oldGeneration hq hgen)
  · intro hq
    rw [State.exec_readReply_here hhub hmal hself, State.replyIn_unawaited hq]
  · exact fun x v => State.exec_readyNotice_group hhub hmal hself

end Sys2Proof.Machine
end

section
/-!
Chains, their counters and their operations (R314 to R318, R325, R328). A ring command that is taken with its reserved bytes zero runs its
body (`State.runCommand_taken`); a chain is the plot's own or the command answers BADARG. An operation in flight goes by its engine, its
place among the operations of its chain and what its source holds.
-/

namespace Sys2Proof.Machine
open Sys2Proof

-- One proof at a time: many short proofs at once ask for more threads than the stack limit leaves room for.
set_option Elab.async false

section
variable {s u : State} {p : PlotIx} {c : Cmd}

/-! ### Commands on chains (R315, R316) -/

/-- CHAIN_ARM with sound descriptors: the chain stands at the free number that its engine gives. -/
theorem exec_chainArm_armed {k : Nat} (htake : s.take p.val 0x40 = some (c, u)) (hclean : c.cleanFrom 24 = true) (hseq : c.seqNo = 0)
    (hzero : c.arg 10 6 = 0) (hengine : c.arg 8 1 = 0xFF ∨ c.arg 8 1 ≤ 3) (hsome : 1 ≤ c.arg 9 1) (hroom : c.arg 9 1 ≤ 64)
    (howns : u.ownsRange p.val (c.arg 16 8) (128 * c.arg 9 1) = true)
    (hops : ∀ i, i < c.arg 9 1 → u.opOk p.val (c.arg 16 8 + 128 * i) 256 = true) (hfree : u.freeChain (c.arg 8 1) = some k) :
    exec (.chainArm p) s = .next (State.dropUnknown ringFuel
      ((((List.range (c.arg 9 1)).map fun i => u.opDesc (c.arg 16 8 + 128 * i)).foldl (fun s d => s.armNotify k d)
        (u.setChain k ⟨p.val, (List.range (c.arg 9 1)).map fun i => u.opDesc (c.arg 16 8 + 128 * i), 0, [], false, none⟩)).finish
          c.id 0 k)) := by
  show execChainArm p s = _
  have hbad : ((c.arg 8 1 != 0xFF && decide (3 < c.arg 8 1)) || c.arg 9 1 == 0 || decide (64 < c.arg 9 1) ||
      !u.ownsRange p.val (c.arg 16 8) (128 * c.arg 9 1)) = false := by
    simp only [howns, Bool.not_true, Bool.or_false, Bool.or_eq_false_iff, Bool.and_eq_false_iff, bne_eq_false_iff_eq,
      decide_eq_false_iff_not, beq_eq_false_iff_ne]
    omega
  have hall : (((List.range (c.arg 9 1)).map fun i => c.arg 16 8 + 128 * i).all fun b => u.opOk p.val b 256) = true := by
    simpa [List.all_eq_true] using hops
  rw [execChainArm, State.runCommand_taken htake (by simp [hclean, hseq, hzero])]
  simp only [hbad, hall, hfree, Bool.false_eq_true, Bool.not_true, if_false, List.map_map]
  rfl

section
variable (htake : s.take p.val 0x41 = some (c, u)) (hclean : c.cleanFrom 10 = true) (hseq : c.seqNo = 0)
include htake hclean hseq

theorem exec_chainRelease_own {h : Chain} (hown : u.ownChain p.val (c.arg 8 2) = some h) (hrel : h.releasing = none) :
    exec (.chainRelease p) s = .next (State.dropUnknown ringFuel
      ((u.setChain (c.arg 8 2) { h with releasing := some c.id }).endRelease (c.arg 8 2))) := by
  show execChainRelease p s = _
  rw [execChainRelease, State.runCommand_taken htake (by simp [hclean, hseq])]
  simp only [hown, hrel, Option.isSome_none, Bool.false_eq_true, if_false]

theorem exec_chainRelease_other (hown : u.ownChain p.val (c.arg 8 2) = none) :
    exec (.chainRelease p) s = .next (State.dropUnknown ringFuel (u.finishOpen c.id 3)) := by
  show execChainRelease p s = _
  rw [execChainRelease, State.runCommand_taken htake (by simp [hclean, hseq])]
  simp only [hown, stBadArg]

end

/-- An operation of a chain is one of the operations in flight. -/
theorem State.op_isSome_of_chainOps {k : Nat} {x : OpRun} (hx : x ∈ u.chainOps k) : (u.op x.id).isSome = true :=
  List.find?_isSome.mpr ⟨x, List.mem_of_mem_filter hx, beq_self_eq_true _⟩

section
variable (htake : s.take p.val 0x42 = some (c, u)) (hclean : c.cleanFrom 10 = true) (hseq : c.seqNo = 0)
include htake hclean hseq

/-- OP_ABORT of a chain raises the common error for each operation in flight, then completes OK. -/
theorem exec_opAbort_own {h : Chain} (hown : u.ownChain p.val (c.arg 8 2) = some h) :
    exec (.opAbort p) s = .next (State.dropUnknown ringFuel (((u.chainOps (c.arg 8 2)).foldl
      (fun s x => if (s.op x.id).isSome then s.raiseError x.op.group ccPlot x.opseq else s) u).finishOpen c.id 0)) := by
  show execOpAbort p s = _
  rw [execOpAbort, State.runCommand_taken htake (by simp [hclean, hseq])]
  simp only [hown, stOk]

theorem exec_opAbort_idle {h : Chain} (hown : u.ownChain p.val (c.arg 8 2) = some h) (hops : u.chainOps (c.arg 8 2) = []) :
    exec (.opAbort p) s = .next (State.dropUnknown ringFuel (u.finishOpen c.id 0)) := by
  rw [exec_opAbort_own htake hclean hseq hown, hops, List.foldl_nil]

theorem exec_opAbort_one {h : Chain} {x : OpRun} (hown : u.ownChain p.val (c.arg 8 2) = some h)
    (hops : u.chainOps (c.arg 8 2) = [x]) :
    exec (.opAbort p) s =
      .next (State.dropUnknown ringFuel ((u.raiseError x.op.group ccPlot x.opseq).finishOpen c.id 0)) := by
  have hx : (u.op x.id).isSome = true := State.op_isSome_of_chainOps (hops ▸ List.mem_singleton_self x)
  rw [exec_opAbort_own htake hclean hseq hown, hops, List.foldl_cons, List.foldl_nil, if_pos hx]

theorem exec_opAbort_other (hown : u.ownChain p.val (c.arg 8 2) = none) :
    exec (.opAbort p) s = .next (State.dropUnknown ringFuel (u.finishOpen c.id 3)) := by
  show execOpAbort p s = _
  rw [execOpAbort, State.runCommand_taken htake (by simp [hclean, hseq])]
  simp only [hown, stBadArg]

end
end

/-! ### Counters (R314, R338) -/

section
variable {s : State} {t n : Nat}

/-- Steps that fit the counter are all taken, and nothing is recorded. -/
theorem State.stepCounter_fits (hfits : s.fld Fld.COL_COUNTER_COUNT t + n ≤ 65535) (hn : n ≠ 0) (task : Nat) :
    s.stepCounter t n task =
      (s.setFld Fld.COL_COUNTER_COUNT t (s.fld Fld.COL_COUNTER_COUNT t + n)).setSteps t (s.stepsOf t ++ [(task, n)]) := by
  have hmin : min n (65535 - s.fld Fld.COL_COUNTER_COUNT t) = n := by omega
  simp only [State.stepCounter, hmin, if_neg hn, lt_irrefl, if_false]
  rfl

theorem exec_colTrigger_steps {a : Agent} {p : PlotIx} {v : W32} (hreach : s.plotReach a p.val = true) (hruns : s.colRuns = true)
    (ht : t = v.toNat % 1024) (hn : n = v.toNat / 1024 % 16) (howns : s.ownsCounter p.val t = true) :
    exec (.colTrigger a p v) s = .next (s.stepCounter t n 0) := by
  have hcounter : bitsAt v.toNat 0 10 = t := by rw [ht]; simp [bitsAt]
  have hsteps : bitsAt v.toNat 10 4 = n := by rw [hn]; simp [bitsAt]
  show execColTrigger a p v s = _
  simp [execColTrigger, hreach, hruns, hcounter, hsteps, howns]

end

/-! ### The head operation fires (R188, R279, R317) -/

section
variable {s : State} {k : ChainIx} {h : Chain} {d : OpDesc} {g : ColGroup} (hchain : s.chain k.val = some h) (hhead : h.headOp = some d)
  (hgroup : s.colGroup d.group = some g) (hfire : s.fireable k.val h d g = true) (hstart : d.start ≤ s.sundial)
  (hshift : s.ringShift d = false)
include hchain hhead hgroup hfire hstart hshift

theorem exec_opFire_fires (htime : d.start = 0 ∨ (h.deferred = false ∧ (s.opLinks d g).any s.beyondGuard = false) ∨
      (h.deferred = true ∧ ((s.opLinks d g).any fun l => s.syncState l != sySynced) = false)) :
    exec (.opFire k) s = .next (s.fire k.val h d g) := by
  have hlate : ¬(d.start ≠ 0 ∧ (if h.deferred = true then (s.opLinks d g).any fun l => s.syncState l != sySynced
      else (s.opLinks d g).any s.beyondGuard) = true) := by
    rintro ⟨hne, hlate⟩
    rcases htime with hzero | ⟨hdef, hguard⟩ | ⟨hdef, hsync⟩
    · exact hne hzero
    · rw [hdef, if_neg Bool.false_ne_true, hguard] at hlate
      exact Bool.false_ne_true hlate
    · rw [hdef, if_pos rfl, hsync] at hlate
      exact Bool.false_ne_true hlate
  show execOpFire k s = _
  simp only [execOpFire, hchain, hhead, hgroup, hfire, hshift, Nat.not_lt.mpr hstart, decide_false, Bool.not_true, Bool.or_self,
    Bool.false_eq_true, if_false]
  rw [if_neg hlate]

theorem exec_opFire_deferred (htick : d.start ≠ 0) (hdef : h.deferred = false) (hguard : (s.opLinks d g).any s.beyondGuard = true) :
    exec (.opFire k) s =
      .next ((s.setBit Fld.SDL_EVENT_FLAGS_DEFERRED h.plot true).setChain k.val { h with deferred := true }) := by
  show execOpFire k s = _
  simp only [execOpFire, hchain, hhead, hgroup, hfire, hshift, Nat.not_lt.mpr hstart, decide_false, Bool.not_true, Bool.or_self,
    Bool.false_eq_true, if_false, hdef, hguard, htick, ne_eq, not_false_eq_true, and_self, if_true]

end

/-! ### Parts leave and operations complete (R325, R328) -/

section
variable {s : State} {id : Nat} {x : OpRun} {g : ColGroup}

theorem State.opRead_clean (s : State) (x : OpRun) (n : Nat) : s.opRead x n .clean = (s, true) := by
  simp [State.opRead]

variable (hop : s.op id = some x) (hgroup : s.colGroup x.op.group = some g) (hruns : s.colRuns = true) (hfailed : x.failed = false)
include hop hgroup hruns hfailed

theorem exec_ringChunk_sent {stage piece off : Nat} {l : Leg} (hshape : x.op.shape = 0)
    (hleg : (x.op.sends g).find? (fun l => l.stage == stage && l.piece == piece && stage != stSite) = some l)
    (hpart : (s.partsOf x l).contains off = true) :
    exec (.ringChunk id stage piece off .clean) s = .next ((s.sendPart id l off).releaseSlots id) := by
  show execRingChunk id stage piece off .clean s = _
  simp only [execRingChunk, hop, hgroup, hshape, hruns, hfailed, hleg, hpart, State.opRead_clean, Bool.not_true, Bool.false_eq_true,
    ne_eq, not_true_eq_false, reduceCtorEq, or_self, if_false, if_true]

section
variable (hfirst : (s.chainOps x.chain).head?.map (·.id) = some id)
include hfirst

theorem exec_opComplete_results {res : List (Nat × List Byte)} {f : NumFlags} (hposted : x.posted = 0) (hsettled : s.opSettled x g = true)
    (hpoison : s.sourcePoison x (x.op.resultSource g) = none) (hres : s.results x g = some (res, f)) :
    exec (.opComplete id .clean) s = .next ((s.putResults x g res f).closeOp id g) := by
  show execOpComplete id .clean s = _
  simp only [execOpComplete, hop, hgroup, hruns, hfailed, hfirst, hposted, hsettled, hpoison, hres, State.opRead_clean, Bool.not_true,
    Bool.false_eq_true, ne_eq, not_true_eq_false, reduceCtorEq, or_self, if_false, if_true]

theorem exec_opComplete_posted (hposted : x.posted ≠ 0) : exec (.opComplete id .clean) s = .next (s.closeOp id g) := by
  show execOpComplete id .clean s = _
  simp only [execOpComplete, hop, hgroup, hruns, hfailed, hfirst, hposted, Bool.false_eq_true, ne_eq, not_true_eq_false,
    not_false_eq_true, reduceCtorEq, or_self, if_false, if_true]

end
end

theorem State.canonical_colSteps {s : State} (h : s.canonical = true) : Sparse.wf (fun _ => []) s.colSteps = true := by
  simp only [State.canonical, Bool.and_eq_true, and_assoc] at h
  obtain ⟨-, -, -, -, -, -, -, -, -, -, -, hsteps, -⟩ := h
  exact hsteps

/-- Settles O45, one clause per case of each command. -/
theorem chainsAreArmedTriggeredFiredAndCompleted : Obligations.ChainsAreArmedTriggeredFiredAndCompleted := by
  intro s u p c
  refine ⟨fun k htake hclean hseq hzero hengine hsome hroom howns hops hfree =>
      exec_chainArm_armed htake hclean hseq hzero hengine hsome hroom howns hops hfree,
    fun htake hclean hseq => ⟨fun h hown hrel => exec_chainRelease_own htake hclean hseq hown hrel,
      exec_chainRelease_other htake hclean hseq⟩,
    fun htake hclean hseq => ⟨fun h hown hops => exec_opAbort_idle htake hclean hseq hown hops,
      fun h x hown hops => exec_opAbort_one htake hclean hseq hown hops, exec_opAbort_other htake hclean hseq⟩,
    fun a v t n hs hreach hruns ht hn howns hfits hpos => ⟨_, exec_colTrigger_steps hreach hruns ht hn howns, ?trigger⟩,
    fun k h d g hchain hhead hgroup hfire hstart hshift => ⟨exec_opFire_fires hchain hhead hgroup hfire hstart hshift,
      exec_opFire_deferred hchain hhead hgroup hfire hstart hshift⟩,
    fun id x g hop hgroup hruns hfailed => ⟨fun stage piece off l hshape _ hleg hpart =>
        exec_ringChunk_sent hop hgroup hruns hfailed hshape hleg hpart,
      fun hfirst => ⟨fun res f hposted hsettled hpoison hres =>
        exec_opComplete_results hop hgroup hruns hfailed hfirst hposted hsettled hpoison hres,
        exec_opComplete_posted hop hgroup hruns hfailed hfirst⟩⟩⟩
  case trigger =>
    have hcount := (UnitWork.refl [(.COL_COUNTER, t)] hs).setFld (f := Fld.COL_COUNTER_COUNT) (i := t)
      (show t < 1024 by omega) (by simp [Fld.COL_COUNTER_COUNT]) (s.fld Fld.COL_COUNTER_COUNT t + n)
    have hsteps : Sparse.wf (fun _ => []) s.colSteps = true := State.canonical_colSteps hs
    rw [State.stepCounter_fits hfits hpos]
    refine ⟨?count, Sparse.get_set_same _ _ _ _ hsteps, hcount.regs, hcount.mem⟩
    have hset := State.fld_setFld_same s Fld.COL_COUNTER_COUNT t (s.fld Fld.COL_COUNTER_COUNT t + n) (State.canonical_regs hs)
      (by decide)
    exact hset.trans (Nat.mod_eq_of_lt (Nat.lt_succ_of_le hfits))

end Sys2Proof.Machine
end

section
/-!
The placement search (R283, R284, R286): load falls only where a reservation ends, so a range whose last slot and reservation ends can
take a claim can take it in every slot; and each further start lies past a slot that could not. Settles O32.
-/

namespace Sys2Proof.Machine
open Sys2Proof

/-! ### Load up to the end of a reservation -/

section
variable {s : State} {j k : Nat} (hlasts : ∀ e ∈ s.tasks, j ≤ e.2.last → k ≤ e.2.last) (hjk : j ≤ k)
include hlasts hjk

/-- Up to the end of every reservation that covers a slot, a resource is held at least as much as in that slot. -/
theorem State.held_le_of_lasts (skip : Nat) (only : Task → Bool) (n : Nat) : s.held skip only n j ≤ s.held skip only n k := by
  have hcovers : s.tasks.filter (fun e => e.1 != skip && only e.2 && decide (e.2.first ≤ j) && decide (j ≤ e.2.last)) =
      (s.tasks.filter fun e => e.1 != skip && only e.2 && decide (e.2.first ≤ k) && decide (k ≤ e.2.last)).filter
        fun e => e.1 != skip && only e.2 && decide (e.2.first ≤ j) && decide (j ≤ e.2.last) := by
    rw [List.filter_filter]
    refine List.filter_congr fun e he => (Bool.and_eq_left_iff_imp.mpr ?_).symm
    simp only [Bool.and_eq_true, decide_eq_true_eq]
    rintro ⟨⟨hnamed, hfirst⟩, hlast⟩
    exact ⟨⟨hnamed, Nat.le_trans hfirst hjk⟩, hlasts e he hlast⟩
  unfold State.held
  rw [hcovers]
  exact (List.Sublist.map _ List.filter_sublist).sum_le_sum fun _ _ => Nat.zero_le _

/-- A slot that cannot take a claim makes each slot up to the ends of what covers it one that cannot. -/
theorem State.slotBad_of_lasts {skip : Nat} {r : AdmReq} {cells : List Nat} (h : s.slotBad skip r cells j = true) :
    s.slotBad skip r cells k = true := by
  have hheld (only : Task → Bool) (n : Nat) := State.held_le_of_lasts hlasts hjk skip only n
  simp only [State.slotBad, Bool.or_eq_true, List.any_eq_true, Bool.and_eq_true, decide_eq_true_eq] at h ⊢
  rcases h with ⟨n, hn, hclaims, hover⟩ | ⟨e, he, ⟨⟨hother, hfirst⟩, hlast⟩, hcells⟩
  · refine .inl ⟨n, hn, hclaims, hover.imp (fun h => ?_) fun h => ?_⟩
    · exact Nat.lt_of_lt_of_le h (Nat.add_le_add_right (hheld _ n) _)
    · exact Nat.lt_of_lt_of_le h (Nat.add_le_add_right (hheld _ n) _)
  · exact .inr ⟨e, he, ⟨⟨hother, Nat.le_trans hfirst hjk⟩, hlasts e he hlast⟩, hcells⟩

end

/-! ### The last slot that cannot take a claim -/

/-- The first end of a reservation from slot `j` on, or `b` where none lies before. -/
def State.nextLast (s : State) (j b : Nat) : Nat := ((s.tasks.map fun e => e.2.last).filter fun e => decide (j ≤ e)).foldl min b

section
variable {s : State} {r : AdmReq} {cells : List Nat} {a b j : Nat}

theorem State.nextLast_mem (s : State) (j b : Nat) :
    s.nextLast j b ∈ b :: (s.tasks.map fun e => e.2.last).filter fun e => decide (j ≤ e) := foldl_choice_mem min_choice b _

theorem State.nextLast_le (s : State) (j b : Nat) :
    ∀ x ∈ b :: (s.tasks.map fun e => e.2.last).filter fun e => decide (j ≤ e), s.nextLast j b ≤ x :=
  foldl_choice_le (measure := fun n : Nat => n) (fun m n => ⟨Nat.min_le_left m n, Nat.min_le_right m n⟩) b _

theorem State.le_nextLast (s : State) (h : j ≤ b) : j ≤ s.nextLast j b := by
  rcases List.mem_cons.mp (s.nextLast_mem j b) with heq | hmem
  · rw [heq]; exact h
  · exact of_decide_eq_true (List.mem_filter.mp hmem).2

/-- Where the last slot and the ends of reservations can take a claim, every slot of the range can. -/
theorem State.slotBad_of_lastBad_none (h : s.lastBad r cells a b = none) (haj : a ≤ j) (hjb : j ≤ b) : s.slotBad 0 r cells j = false := by
  have hends : ((b :: (s.tasks.map fun e => e.2.last).filter fun j => decide (a ≤ j) && decide (j ≤ b)).filter
      (s.slotBad 0 r cells)) = [] := by
    unfold State.lastBad at h
    dsimp only at h
    split at h
    · assumption
    · cases h
  have hlow := s.nextLast_le j b
  have hgood : ¬ s.slotBad 0 r cells (s.nextLast j b) = true := by
    refine List.filter_eq_nil_iff.mp hends _ ?_
    rcases List.mem_cons.mp (s.nextLast_mem j b) with heq | hmem
    · rw [heq]; exact List.mem_cons_self
    · obtain ⟨hlast, hj⟩ := List.mem_filter.mp hmem
      have hle := hlow b List.mem_cons_self
      exact List.mem_cons_of_mem _ (List.mem_filter.mpr ⟨hlast, by simp at hj ⊢; omega⟩)
  refine Bool.eq_false_iff.mpr fun hbad => hgood (State.slotBad_of_lasts (fun e he hlast => ?_) (s.le_nextLast hjb) hbad)
  exact hlow _ (List.mem_cons_of_mem _ (List.mem_filter.mpr ⟨List.mem_map_of_mem he, decide_eq_true hlast⟩))

/-- The slot found lies in the range. -/
theorem State.le_of_lastBad_some (h : s.lastBad r cells a b = some j) (hab : a ≤ b) : a ≤ j := by
  unfold State.lastBad at h
  dsimp only at h
  split at h
  · cases h
  · next k ks hbad =>
    cases h
    have hmem : ks.foldl max k ∈ b :: (s.tasks.map fun e => e.2.last).filter fun j => decide (a ≤ j) && decide (j ≤ b) := by
      refine List.mem_of_mem_filter (p := s.slotBad 0 r cells) ?_
      rw [hbad]
      exact foldl_choice_mem max_choice k ks
    rcases List.mem_cons.mp hmem with heq | hmem
    · rw [heq]; exact hab
    · have := (List.mem_filter.mp hmem).2
      simp at this
      exact this.1

end

theorem slotOf_mono {a b : Nat} (h : a ≤ b) : slotOf a ≤ slotOf b := Nat.div_le_div_right h

/-- The tick that the search goes on from lies past the slot that could not take the claim (R286). -/
theorem lt_resume {j : Nat} (ends : List Nat) (hends : ∀ e ∈ ends, j ≤ e) : j * 1024 < (ends.foldl min (ends.headD j) + 1) * 1024 := by
  have hhead : j ≤ ends.headD j := by
    cases ends with
    | nil => exact Nat.le_refl j
    | cons e _ => exact hends e List.mem_cons_self
  have hle : j ≤ ends.foldl min (ends.headD j) := by
    rcases List.mem_cons.mp (foldl_choice_mem min_choice (ends.headD j) ends) with heq | hmem
    · rw [heq]; exact hhead
    · exact hends _ hmem
  omega

/-- Settles O32, by induction on the search's visits. -/
theorem placementFitsEverySlot : Obligations.PlacementFitsEverySlot := by
  intro s r cells d fuel t a b hd h
  induction fuel generalizing t with
  | zero => cases h
  | succ fuel ih =>
    have hrange : slotOf t ≤ slotOf (t + d - 1) := slotOf_mono (by omega)
    unfold State.search at h
    split at h
    · cases h
    · next hhorizon =>
      cases hlast : s.lastBad r cells (slotOf t) (slotOf (t + d - 1)) with
      | none =>
        simp only [hlast] at h
        split at h
        · cases h
        · next hdeadline =>
          split at h
          · cases h
          · cases h
            exact ⟨rfl, Nat.le_refl _, Nat.not_lt.mp hdeadline, Nat.not_le.mp hhorizon,
              fun j hfirst hend => State.slotBad_of_lastBad_none hlast hfirst hend⟩
      | some j =>
        simp only [hlast] at h
        obtain ⟨hb, hstart, hrest⟩ := ih _ h
        have hj : t / 1024 ≤ j := State.le_of_lastBad_some hlast hrange
        have hresume := lt_resume ((s.tasks.map fun e => e.2.last).filter fun e => decide (j ≤ e))
          fun e he => of_decide_eq_true (List.mem_filter.mp he).2
        exact ⟨hb, by omega, hrest⟩

end Sys2Proof.Machine
end

section
/-!
The reference of the configuration store (R436 to R438): the running value of CRC-32C is linear, so the remainder of the differences that
a write makes is the difference of the store's two CRCs, and the write path moves the reference by it. Settles O57.
-/

namespace Sys2Proof.Machine
open Sys2Proof

/-! ### CRC-32C is linear (R437) -/

theorem xor_xor_xor_comm (a b c d : Nat) : (a ^^^ b) ^^^ (c ^^^ d) = (a ^^^ c) ^^^ (b ^^^ d) := by
  rw [Nat.xor_assoc, Nat.xor_left_comm b, ← Nat.xor_assoc]

theorem crcSteps_xor (n x y : Nat) : crcSteps n (x ^^^ y) = crcSteps n x ^^^ crcSteps n y := by
  have hstep (x y : Nat) : (if (x ^^^ y) % 2 = 1 then ((x ^^^ y) / 2).xor 0x82F63B78 else (x ^^^ y) / 2) =
      (if x % 2 = 1 then (x / 2).xor 0x82F63B78 else x / 2) ^^^ (if y % 2 = 1 then (y / 2).xor 0x82F63B78 else y / 2) := by
    have hxor (v : Nat) : (v / 2).xor 0x82F63B78 = v / 2 ^^^ 0x82F63B78 := rfl
    rw [hxor, hxor, hxor, Nat.xor_div_two]
    by_cases hx : x % 2 = 1 <;> by_cases hy : y % 2 = 1
    · have hmod : (x ^^^ y) % 2 ≠ 1 := by rw [ne_eq, Nat.xor_mod_two_eq_one]; omega
      rw [if_neg hmod, if_pos hx, if_pos hy, xor_xor_xor_comm, Nat.xor_self, Nat.xor_zero]
    · have hmod : (x ^^^ y) % 2 = 1 := by rw [Nat.xor_mod_two_eq_one]; omega
      rw [if_pos hmod, if_pos hx, if_neg hy, Nat.xor_right_comm]
    · have hmod : (x ^^^ y) % 2 = 1 := by rw [Nat.xor_mod_two_eq_one]; omega
      rw [if_pos hmod, if_neg hx, if_pos hy, Nat.xor_assoc]
    · have hmod : (x ^^^ y) % 2 ≠ 1 := by rw [ne_eq, Nat.xor_mod_two_eq_one]; omega
      rw [if_neg hmod, if_neg hx, if_neg hy]
  induction n generalizing x y with
  | zero => rfl
  | succ n ih => rw [crcSteps, hstep, ih]; rfl

theorem crcBytes_append (x : Nat) (as bs : List Byte) : crcBytes x (as ++ bs) = crcBytes (crcBytes x as) bs := List.foldl_append

theorem crcBytes_leBytes_xor (n x y a b : Nat) :
    crcBytes (x ^^^ y) (leBytes n (a ^^^ b)) = crcBytes x (leBytes n a) ^^^ crcBytes y (leBytes n b) := by
  induction n generalizing x y a b with
  | zero => rfl
  | succ n ih =>
    have hbyte : (BitVec.ofNat 8 (a ^^^ b)).toNat = (BitVec.ofNat 8 a).toNat ^^^ (BitVec.ofNat 8 b).toNat := by
      simp only [BitVec.toNat_ofNat, Nat.xor_mod_two_pow]
    have hrest : (a ^^^ b) / 256 = a / 256 ^^^ b / 256 := Nat.xor_div_two_pow (n := 8)
    show crcBytes (crcSteps 8 ((x ^^^ y) ^^^ (BitVec.ofNat 8 (a ^^^ b)).toNat)) (leBytes n ((a ^^^ b) / 256)) = _
    rw [hbyte, hrest, xor_xor_xor_comm, crcSteps_xor, ih]
    rfl

theorem crcBytes_words_xor (f g : Nat → Nat) (l : List Nat) (x y : Nat) :
    crcBytes (x ^^^ y) (l.flatMap fun w => leBytes 4 (f w ^^^ g w)) =
      crcBytes x (l.flatMap fun w => leBytes 4 (f w)) ^^^ crcBytes y (l.flatMap fun w => leBytes 4 (g w)) := by
  induction l generalizing x y with
  | nil => rfl
  | cons w l ih => simp only [List.flatMap_cons, crcBytes_append, crcBytes_leBytes_xor, ih]

/-! ### The write path (R438) -/

/-- The remainder of the differences takes the CRC of the old store to the CRC of the new one. -/
theorem storeCrc_xor_storeDelta (old new : State) : old.storeCrc ^^^ storeDelta old new = new.storeCrc := by
  have hnew : (fun w => leBytes 4 (new.storeWord w)) =
      fun w => leBytes 4 (old.storeWord w ^^^ (old.storeWord w ^^^ new.storeWord w)) := by
    funext w
    rw [← Nat.xor_assoc, Nat.xor_self, Nat.zero_xor]
  have hcrc : crcBytes (0xFFFFFFFF ^^^ 0) new.storeBytes64 = crcBytes 0xFFFFFFFF old.storeBytes64 ^^^ storeDelta old new := by
    unfold State.storeBytes64
    rw [hnew, crcBytes_words_xor]
    rfl
  have hxor (v w : Nat) : v.xor w = v ^^^ w := rfl
  unfold State.storeCrc crc32c
  rw [hxor, hxor, ← Nat.xor_zero 0xFFFFFFFF, hcrc, Nat.xor_zero, Nat.xor_right_comm]

/-- A write through the write path of a committed store leaves the reference at the CRC of the store (R438). -/
theorem State.ref_viaStore {s u : State} (hu : Sparse.wf regReset u.regs = true) (href : u.reg .HUB_CONFIG_REF 0 = BitVec.ofNat 32 s.storeCrc)
    (hcommitted : u.bit Fld.HUB_CONFIG_STATUS_COMMITTED 0 = true) :
    (s.viaStore u).reg .HUB_CONFIG_REF 0 = BitVec.ofNat 32 (s.viaStore u).storeCrc := by
  have hmove (v : State) (hv : Sparse.wf regReset v.regs = true) (h : v.reg .HUB_CONFIG_REF 0 = BitVec.ofNat 32 s.storeCrc) :
      (v.setReg .HUB_CONFIG_REF 0 (BitVec.ofNat 32 ((v.reg .HUB_CONFIG_REF 0).toNat.xor (storeDelta s v)))).reg .HUB_CONFIG_REF 0 =
        BitVec.ofNat 32 (v.setReg .HUB_CONFIG_REF 0
          (BitVec.ofNat 32 ((v.reg .HUB_CONFIG_REF 0).toNat.xor (storeDelta s v)))).storeCrc := by
    have hxor (v w : Nat) : v.xor w = v ^^^ w := rfl
    rw [State.reg_setReg_same _ _ _ _ hv, State.storeCrc_setRef, h, ← storeCrc_xor_storeDelta s v, hxor, BitVec.ofNat_xor,
      BitVec.ofNat_xor, BitVec.ofNat_toNat, BitVec.setWidth_eq]
  have hcommit (k : List (Nat × Nat)) : ({ u with storeUpset := k } : State).bit Fld.HUB_CONFIG_STATUS_COMMITTED 0 = true := hcommitted
  have hstore : s.viaStore u = _ := if_pos (hcommit _)
  rw [hstore]
  exact hmove _ hu href

/-- The register write of a link's DISABLE leaves COMMITTED and the reference alone. -/
theorem exec_lnkDisable_clears {s : State} {a : Agent} {l : LinkIx} (hpriv : s.privOk a = true) :
    exec (.lnkDisable a l false) s = .next (s.viaStore (s.setBit Fld.LNK_CONTROL_DISABLE l.val false)) := by
  show execLnkDisable a l false s = _
  simp only [execLnkDisable, hpriv, Bool.not_true, Bool.false_eq_true, if_false]

/-- Settles O57: the second clause is the write path after a register write that leaves COMMITTED and the reference alone. -/
theorem storeWritesKeepTheReference : Obligations.StoreWritesKeepTheReference := by
  intro s hs href
  refine ⟨fun u hu hcommitted hkept => State.ref_viaStore (State.canonical_regs hu) (hkept.trans href) hcommitted,
    fun a l hpriv hcommitted => ⟨_, exec_lnkDisable_clears hpriv, ?disable, ?ref⟩⟩
  all_goals
    have hset : UnitWork [(.LNK_CONTROL, l.val)] s (s.setBit Fld.LNK_CONTROL_DISABLE l.val false) :=
      (UnitWork.refl _ hs).setBit (f := Fld.LNK_CONTROL_DISABLE) l.isLt List.mem_cons_self false
  case disable =>
    have hstore := (hset.restart [(.HUB_CONFIG_REF, 0)]).viaStore List.mem_cons_self s
    rw [hstore.bit (f := Fld.LNK_CONTROL_DISABLE) l.isLt (by simp [Fld.LNK_CONTROL_DISABLE])]
    exact State.bit_setBit_same _ _ _ _ (State.canonical_regs hs) (by decide) rfl
  case ref =>
    refine State.ref_viaStore hset.wfRegs ?_ ?_
    · exact (hset.regs .HUB_CONFIG_REF 0 (by decide) (by simp)).trans href
    · exact (hset.bit (f := Fld.HUB_CONFIG_STATUS_COMMITTED) (by decide) (by simp [Fld.HUB_CONFIG_STATUS_COMMITTED])).trans hcommitted

end Sys2Proof.Machine
end

section
/-!
The step (notes/assumptions/10): a command at the front of the queue runs on the queue's rest; a tick's other work, of the links and the
scrubbers, leaves the sundial to its count (R269, R271). Settles O58.
-/

namespace Sys2Proof.Machine
open Sys2Proof

/-! ### What leaves the sundial alone -/

@[simp] theorem State.sundial_logEvent (s : State) (plot source cls k detail : Nat) :
    (s.logEvent plot source cls k detail).sundial = s.sundial := by
  unfold State.logEvent State.logAt
  split <;> rfl

@[simp] theorem State.sundial_chooseParent (s : State) : s.chooseParent.sundial = s.sundial := by
  unfold State.chooseParent
  split
  · rfl
  · split
    · split
      · rw [State.sundial_setFld, State.sundial_setBit, State.sundial_setFld, State.sundial_setFld]
      · rw [State.sundial_setFld]
    · split
      · rw [State.sundial_setFld, State.sundial_setFld, State.sundial_setFld]
      · rfl

@[simp] theorem State.sundial_setLinkState (s : State) (l st : Nat) : (s.setLinkState l st).sundial = s.sundial := by
  have hdown (u : State) (x : LinkSync) (f : Fld) (v : Nat) : ((u.setFld f l v).setLink l x).sundial = u.sundial := rfl
  unfold State.setLinkState
  dsimp only
  split
  · rw [State.sundial_chooseParent, State.sundial_logEvent, hdown, State.sundial_setFld]
  · rw [State.sundial_setFld]

@[simp] theorem State.sundial_linkTick (s : State) (l : Nat) : (s.linkTick l).sundial = s.sundial := by
  unfold State.linkTick
  split
  · split
    · split <;> rfl
    · rfl
  · split
    · exact s.sundial_setLinkState l lsTraining
    · rfl

@[simp] theorem State.sundial_scrubStatus (s : State) (r t : Nat) : (s.scrubStatus r t).sundial = s.sundial := by
  unfold State.scrubStatus
  rw [State.sundial_setFld, State.sundial_setBit]

@[simp] theorem State.sundial_scrubStep (s : State) (k : Nat) : (s.scrubStep k).sundial = s.sundial := by
  have hlate (p : Prop) [Decidable p] (f : Fld) (i : Nat) : (if p then s.setBit f i true else s).sundial = s.sundial := by
    split
    · rw [State.sundial_setBit]
    · rfl
  have hread (u : State) (p : Prop) [Decidable p] (x : Scrubber) (r t : Nat) :
      (if p then (u.setScrubber k x).scrubStatus r t else u).sundial = u.sundial := by
    split
    · rw [State.sundial_scrubStatus]; rfl
    · rfl
  exact (hread _ _ _ _ _).trans (hlate _ _ _)

/-- A fold whose steps leave the sundial alone leaves it alone. -/
theorem sundial_foldl {α : Type} {f : State → α → State} (hf : ∀ s a, (f s a).sundial = s.sundial) (l : List α) (s : State) :
    (l.foldl f s).sundial = s.sundial :=
  List.foldlRecOn (motive := fun u : State => u.sundial = s.sundial) l f rfl fun u hu a _ => (hf u a).trans hu

/-- Without an offset to slew the sundial counts by one. -/
theorem State.sundial_tick {s : State} (hslew : s.slew = 0) : s.tick.sundial = s.sundial + 1 := by
  have hcount : s.count.sundial = s.sundial + 1 := by simp [State.count, hslew]
  calc s.tick.sundial = ((List.range 6).foldl State.linkTick s.count.beatTick).sundial := sundial_foldl State.sundial_scrubStep _ _
    _ = s.count.beatTick.sundial := sundial_foldl State.sundial_linkTick _ _
    _ = s.sundial + 1 := hcount

/-- Settles O58, by the two cases of the queue. -/
theorem stepRunsTheFrontCommand : Obligations.StepRunsTheFrontCommand := by
  intro c s
  refine ⟨rfl, fun hempty => ⟨?_, State.sundial_tick⟩⟩
  unfold step
  rw [hempty]

end Sys2Proof.Machine
end

section
/-!
KEEP and THROTTLE of a region (R290, R461): the least of three values, each field set beside the other. Settles O55.
-/

namespace Sys2Proof.Machine
open Sys2Proof

/-- The registers that hold a region's throttle. -/
def keepRegs (r : Nat) : List (Reg × Nat) := [(.ADM_REGION_STATE, r), (.PWR_STATE, 0)]

section
variable {s : State} (hs : s.canonical = true) {r : Nat} (hr : r < 4)
include hs hr

/-- KEEP and THROTTLE of region `r` set one after the other. -/
theorem State.keepSet_work (k : Nat) (v : Bool) :
    UnitWork (keepRegs r) s ((s.setFld Fld.ADM_REGION_STATE_KEEP r k).setBit Fld.ADM_REGION_STATE_THROTTLE r v) :=
  ((UnitWork.refl _ hs).setFld (f := Fld.ADM_REGION_STATE_KEEP) hr List.mem_cons_self k).setBit
    (f := Fld.ADM_REGION_STATE_THROTTLE) hr List.mem_cons_self v

/-- Where a region's KEEP and THROTTLE stand, PWR_STATE is written last and leaves both. -/
theorem State.applyKeep_beside {f : Fld} (hf : f.reg = .ADM_REGION_STATE) :
    (s.applyKeep r).fld f r = ((s.setFld Fld.ADM_REGION_STATE_KEEP r (s.leastKeep r)).setBit Fld.ADM_REGION_STATE_THROTTLE r
      (decide (s.leastKeep r < 15))).fld f r :=
  (((s.keepSet_work hs hr _ _).restart [(.PWR_STATE, 0)]).setFld (f := Fld.PWR_STATE_THROTTLE) (by decide) List.mem_cons_self _).fld
    (by rw [hf]; exact hr) (by simp [hf])

theorem State.keep_applyKeep : (s.applyKeep r).fld Fld.ADM_REGION_STATE_KEEP r = s.leastKeep r := by
  have hwf := State.canonical_regs hs
  have hsmall : s.leastKeep r < 2 ^ Fld.ADM_REGION_STATE_KEEP.width := by
    have hleast : s.leastKeep r ≤ 15 := by
      refine Nat.le_trans (Nat.min_le_right _ _) (Nat.le_trans (Nat.min_le_left _ _) ?_)
      split <;> decide
    exact Nat.lt_succ_of_le hleast
  rw [s.applyKeep_beside hs hr rfl, State.setBit, State.fld_setFld_beside _ Fld.ADM_REGION_STATE_THROTTLE Fld.ADM_REGION_STATE_KEEP r _
    (State.wf_setFld _ _ _ _ hwf) rfl (by decide) (by decide), State.fld_setFld_same _ _ _ _ hwf (by decide), Nat.mod_eq_of_lt hsmall]

theorem State.throttle_applyKeep : (s.applyKeep r).bit Fld.ADM_REGION_STATE_THROTTLE r = decide (s.leastKeep r < 15) := by
  rw [State.bit, s.applyKeep_beside hs hr rfl]
  exact State.bit_setBit_same _ _ _ _ (State.wf_setFld _ _ _ _ (State.canonical_regs hs)) (by decide) rfl

theorem State.applyKeep_work : UnitWork (keepRegs r) s (s.applyKeep r) :=
  (s.keepSet_work hs hr _ _).setFld (f := Fld.PWR_STATE_THROTTLE) (by decide) (List.mem_cons_of_mem _ List.mem_cons_self) _

end

/-- Settles O55. -/
theorem keepIsTheLeastOfThreeValues : Obligations.KeepIsTheLeastOfThreeValues := by
  rintro s r k hs rfl
  exact ⟨_, rfl, s.keep_applyKeep hs r.isLt, s.throttle_applyKeep hs r.isLt, (s.applyKeep_work hs r.isLt).regs,
    (s.applyKeep_work hs r.isLt).mem⟩

end Sys2Proof.Machine
end

section
/-!
Accesses to locations without a register and to bits without a field (R428 to R433): neither is reached by a write or returned by a read.
Settles O54.
-/

namespace Sys2Proof.Machine
open Sys2Proof

/-! ### The bits of a register's fields -/

theorem testBit_foldl_fields (l : List FieldSpec) (m b : Nat) :
    (l.foldl (fun m f => m ||| ((2 ^ f.width - 1) * 2 ^ f.lo)) m).testBit b =
      (m.testBit b || l.any fun f => decide (f.lo ≤ b) && decide (b < f.lo + f.width)) := by
  induction l generalizing m with
  | nil => simp
  | cons f l ih =>
    have hfield : ((2 ^ f.width - 1) * 2 ^ f.lo).testBit b = (decide (f.lo ≤ b) && decide (b < f.lo + f.width)) := by
      rw [Nat.testBit_mul_two_pow, Nat.testBit_two_pow_sub_one]
      by_cases h : f.lo ≤ b
      · simp [h, Nat.sub_lt_iff_lt_add' h]
      · simp [h]
    rw [List.foldl_cons, ih, Nat.testBit_or, hfield, List.any_cons, Bool.or_assoc]

theorem Reg.testBit_bitsOf (r : Reg) (p : FieldSpec → Bool) (b : Nat) :
    (r.bitsOf p).testBit b = (r.fields.filter p).any fun f => decide (f.lo ≤ b) && decide (b < f.lo + f.width) := by
  rw [Reg.bitsOf, testBit_foldl_fields, Nat.zero_testBit, Bool.false_or]

theorem Reg.testBit_mask (r : Reg) (b : Nat) :
    r.mask.testBit b = r.fields.any fun f => decide (f.lo ≤ b) && decide (b < f.lo + f.width) := by
  rw [Reg.mask, testBit_foldl_fields, Nat.zero_testBit, Bool.false_or]

/-- The bits of chosen fields are bits that fields name. -/
theorem Reg.mask_and_bitsOf (r : Reg) (p : FieldSpec → Bool) : r.mask &&& r.bitsOf p = r.bitsOf p := by
  refine Nat.eq_of_testBit_eq fun b => ?_
  rw [Nat.testBit_and, Reg.testBit_mask, Reg.testBit_bitsOf, Bool.and_eq_right_iff_imp, List.any_filter, List.any_eq_true,
    List.any_eq_true]
  rintro ⟨f, hf, hbit⟩
  exact ⟨f, hf, (Bool.and_eq_true _ _ ▸ hbit).2⟩

/-- Values that agree in the bits that fields name agree in the bits of chosen fields. -/
theorem Reg.land_bitsOf_congr {r : Reg} {v w : Nat} (h : Nat.land v r.mask = Nat.land w r.mask) (p : FieldSpec → Bool) :
    Nat.land v (r.bitsOf p) = Nat.land w (r.bitsOf p) := by
  have h : v &&& r.mask = w &&& r.mask := h
  show v &&& r.bitsOf p = w &&& r.bitsOf p
  rw [← r.mask_and_bitsOf p, ← Nat.and_assoc, h, Nat.and_assoc]

/-- A bit of no field is in no value masked to fields. -/
theorem Reg.testBit_land_bitsOf_none {r : Reg} {b : Nat} (h : ∀ f ∈ r.fields, b < f.lo ∨ f.lo + f.width ≤ b) (v : Nat)
    (p : FieldSpec → Bool) : (Nat.land v (r.bitsOf p)).testBit b = false := by
  show (v &&& r.bitsOf p).testBit b = false
  rw [Nat.testBit_and, Reg.testBit_bitsOf, Bool.and_eq_false_iff]
  refine .inr (List.any_eq_false.mpr fun f hf => ?_)
  have hout := h f (List.mem_of_mem_filter hf)
  simp only [Bool.and_eq_true, decide_eq_true_eq]
  omega

/-! ### Accesses (R428 to R433) -/

theorem baseOf_of_base {off : Nat} (h : aliasOf off = 0) : baseOf off = off := by
  unfold aliasOf at h
  unfold baseOf
  omega

section
variable {s : State} {a : Agent} {priv : Bool} {off : Nat} (harrives : s.arrives a = true) (hview : off < viewSize)
include harrives hview

theorem exec_registerWrite_arrives (v : W32) : exec (.registerWrite a priv off v) s = .next (s.writeAlias a priv off v) := by
  show execRegisterWrite a priv off v s = _
  unfold execRegisterWrite
  rw [if_neg (by simp [harrives, hview])]

omit harrives hview in
theorem exec_aliasWrite_base (h : aliasOf off = 0) (v : W32) : exec (.aliasWrite a priv off v) s = .next s := by
  show execAliasWrite a priv off v s = _
  unfold execAliasWrite
  rw [if_pos (by simp [h])]

theorem exec_aliasWrite_arrives (h : aliasOf off ≠ 0) (v : W32) :
    exec (.aliasWrite a priv off v) s = .next (s.writeAlias a priv off v) := by
  show execAliasWrite a priv off v s = _
  unfold execAliasWrite
  rw [if_neg (by simp [harrives, hview, h])]

/-- A read of a register, its mailbox not held back, answers its value. -/
theorem exec_rcRead_answers (haligned : off % 4 = 0) (hperf : perfAt off = none)
    (hbox : (s.hubHeld && (Reg.atKey (baseOf off / 4)).any fun e => mailboxRegs.contains e.1) = false) :
    exec (.rcRead a priv off) s =
      .next { (if aliasOf off = 0 then s.readEffect a priv off (s.readValue a priv off) else s) with
        rdata := BitVec.ofNat 32 (s.readValue a priv off) } := by
  show execRcRead a priv off s = _
  unfold execRcRead
  rw [if_neg (by simp [harrives, hview]), if_neg (not_not.mpr haligned), hperf]
  exact if_neg (by rw [hbox]; exact Bool.false_ne_true)

end

section
variable {s : State} {a : Agent} {priv : Bool} {off : Nat} (haligned : off % 4 = 0)
include haligned

/-- A write where no register lies changes nothing (R433). -/
theorem State.writeAlias_none (hnone : Reg.atKey (baseOf off / 4) = none) (v : W32) : s.writeAlias a priv off v = s := by
  unfold State.writeAlias
  rw [if_neg (not_not.mpr haligned)]
  split
  · next hbase =>
    unfold State.writeReg
    rw [baseOf_of_base hbase] at hnone
    rw [if_neg (not_not.mpr haligned), hnone]
  · rw [hnone]

/-- Two values that agree in the bits that fields name write the same (R433). -/
theorem State.writeAlias_congr {r : Reg} {i : Nat} (hkey : Reg.atKey (baseOf off / 4) = some (r, i)) {v w : W32}
    (h : Nat.land v.toNat r.mask = Nat.land w.toNat r.mask) : s.writeAlias a priv off v = s.writeAlias a priv off w := by
  have hbits := Reg.land_bitsOf_congr h
  have hacc (c : Acc) : Nat.land v.toNat (r.accBits c priv) = Nat.land w.toNat (r.accBits c priv) := hbits _
  have hwrite : Nat.land v.toNat (r.writeBits priv) = Nat.land w.toNat (r.writeBits priv) := hbits _
  unfold State.writeAlias
  rw [if_neg (not_not.mpr haligned), if_neg (not_not.mpr haligned)]
  by_cases hbase : aliasOf off = 0
  · rw [baseOf_of_base hbase] at hkey
    rw [if_pos hbase, if_pos hbase]
    unfold State.writeReg
    rw [if_neg (not_not.mpr haligned), if_neg (not_not.mpr haligned), hkey]
    simp only [hwrite]
  · rw [if_neg hbase, if_neg hbase, hkey]
    simp only [hacc]

/-- A read where no register lies answers zero. -/
theorem State.readValue_none (hnone : Reg.atKey (baseOf off / 4) = none) : s.readValue a priv off = 0 := by
  unfold State.readValue
  rw [if_neg (not_not.mpr haligned), hnone]

/-- A read answers zero in the bits that no field names (R433). -/
theorem State.testBit_readValue {r : Reg} {i b : Nat} (hkey : Reg.atKey (baseOf off / 4) = some (r, i)) (hb : b < 32)
    (hnone : ∀ f ∈ r.fields, b < f.lo ∨ f.lo + f.width ≤ b) : (s.readValue a priv off).testBit b = false := by
  unfold State.readValue
  rw [if_neg (not_not.mpr haligned), hkey]
  dsimp only
  split
  · exact Nat.zero_testBit b
  · split
    · next hhigh =>
      subst hhigh
      have hword := hnone ⟨0, 32, .ro, false, 0⟩ List.mem_cons_self
      simp only at hword
      omega
    · exact Reg.testBit_land_bitsOf_none hnone _ _

end

theorem State.readEffect_none {s : State} {a : Agent} {priv : Bool} {off : Nat} (hnone : Reg.atKey (off / 4) = none) (v : Nat) :
    s.readEffect a priv off v = s := by
  unfold State.readEffect
  rw [hnone]

/-- Settles O54: the first clause at a location without a register, the second at the bits of one that no field names. -/
theorem unimplementedLocationsReadZeroAndIgnoreWrites : Obligations.UnimplementedLocationsReadZeroAndIgnoreWrites := by
  intro s a priv off harrives hview haligned
  refine ⟨fun v hnone hperf => ⟨?write, ?viaAlias, ?read⟩, fun r i hkey hperf => ⟨fun hheld => ?bits, fun v w h => ⟨?agree, ?agreeAlias⟩⟩⟩
  case write => rw [exec_registerWrite_arrives harrives hview, State.writeAlias_none haligned hnone]
  case viaAlias =>
    by_cases hbase : aliasOf off = 0
    · exact exec_aliasWrite_base hbase v
    · rw [exec_aliasWrite_arrives harrives hview hbase, State.writeAlias_none haligned hnone]
  case read =>
    rw [exec_rcRead_answers harrives hview haligned hperf (by rw [hnone]; simp), State.readValue_none haligned hnone]
    by_cases hbase : aliasOf off = 0
    · rw [if_pos hbase, State.readEffect_none (by rw [← baseOf_of_base hbase]; exact hnone)]
      rfl
    · rw [if_neg hbase]
      rfl
  case bits =>
    refine ⟨_, exec_rcRead_answers harrives hview haligned hperf (by rw [hheld]; rfl), fun b hb hnone => ?_⟩
    show (BitVec.ofNat 32 (s.readValue a priv off)).getLsbD b = false
    rw [BitVec.getLsbD_ofNat, State.testBit_readValue haligned hkey hb hnone, Bool.and_false]
  case agree =>
    rw [exec_registerWrite_arrives harrives hview, exec_registerWrite_arrives harrives hview, State.writeAlias_congr haligned hkey h]
  case agreeAlias =>
    by_cases hbase : aliasOf off = 0
    · rw [exec_aliasWrite_base hbase, exec_aliasWrite_base hbase]
    · rw [exec_aliasWrite_arrives harrives hview hbase, exec_aliasWrite_arrives harrives hview hbase, State.writeAlias_congr haligned hkey h]

end Sys2Proof.Machine
end

section
/-!
The synchronisation of the links (R273, R274, R276): what an exchange sends, what its flit leaves of the partner, and how a missed one
counts. What register writes and log entries leave alone is said once here. Settles O19.
-/

namespace Sys2Proof.Machine
open Sys2Proof

theorem State.canonical_sync {s : State} (h : s.canonical = true) : Sparse.wf (fun _ => LinkSync.empty) s.sync = true := by
  simp only [State.canonical, Bool.and_eq_true, and_assoc] at h
  obtain ⟨-, -, -, -, -, -, -, hsync, -⟩ := h
  exact hsync

theorem State.link_setLink_same (s : State) (l : Nat) (x : LinkSync) (h : Sparse.wf (fun _ => LinkSync.empty) s.sync = true) :
    (s.setLink l x).link l = x := Sparse.get_set_same _ _ _ _ h

theorem State.fld_setLink (s : State) (l : Nat) (x : LinkSync) (f : Fld) (i : Nat) : (s.setLink l x).fld f i = s.fld f i := rfl

/-! ### Register writes and log entries -/

/-- `u` differs from `s` in registers and in the event log at most. -/
def Noted (s u : State) : Prop := ∃ regs log logSeq, u = { s with regs := regs, log := log, logSeq := logSeq }

theorem Noted.refl (s : State) : Noted s s := ⟨_, _, _, rfl⟩

section
variable {s u : State} (h : Noted s u)
include h

theorem Noted.setReg (r : Reg) (i : Nat) (v : W32) : Noted s (u.setReg r i v) := by
  obtain ⟨regs, log, logSeq, rfl⟩ := h
  exact ⟨_, _, _, rfl⟩

theorem Noted.setFld (f : Fld) (i v : Nat) : Noted s (u.setFld f i v) := h.setReg _ _ _

theorem Noted.setBit (f : Fld) (i : Nat) (v : Bool) : Noted s (u.setBit f i v) := h.setFld _ _ _

theorem Noted.ite {v : State} (hv : Noted s v) {p : Prop} [Decidable p] : Noted s (if p then u else v) := by
  split
  · exact h
  · exact hv

theorem Noted.logEvent (plot source cls k detail : Nat) : Noted s (u.logEvent plot source cls k detail) := by
  obtain ⟨regs, log, logSeq, rfl⟩ := h
  unfold State.logEvent State.logAt
  split
  · exact ⟨_, _, _, rfl⟩
  · exact ⟨_, _, _, rfl⟩

/-- The choice of a parent writes SDL_STATUS only (R272, R276). -/
theorem Noted.chooseParent : Noted s u.chooseParent := by
  unfold State.chooseParent
  split
  · exact h
  · split
    · exact ((((h.setFld _ _ _).setFld _ _ _).setBit _ _ _).setFld _ _ _).ite (h.setFld _ _ _)
    · exact (((h.setFld _ _ _).setFld _ _ _).setFld _ _ _).ite h

theorem Noted.sync : u.sync = s.sync := by
  obtain ⟨regs, log, logSeq, rfl⟩ := h
  rfl

theorem Noted.link (l : Nat) : u.link l = s.link l := congrArg (fun m => Sparse.get (fun _ => LinkSync.empty) m l) h.sync

theorem Noted.phys : u.phys = s.phys := by
  obtain ⟨regs, log, logSeq, rfl⟩ := h
  rfl

theorem Noted.phy (l : Nat) : u.phy l = s.phy l := congrArg (fun m => Sparse.get (fun l => LinkPhy.off (isRack l)) m l) h.phys

theorem Noted.out : u.out = s.out := by
  obtain ⟨regs, log, logSeq, rfl⟩ := h
  rfl

end

/-! ### Work of a link -/

section
variable {l : List (Reg × Nat)} {s u : State} (h : UnitWork l s u)
include h

theorem UnitWork.setLink (k : Nat) (x : LinkSync) : UnitWork l s (u.setLink k x) := ⟨h.wfRegs, h.wfBlocks, h.regs, h.mem⟩

theorem UnitWork.sendLink (k : Nat) (m : Msg) : UnitWork l s (u.sendLink k m) := ⟨h.wfRegs, h.wfBlocks, h.regs, h.mem⟩

theorem UnitWork.chooseParent (hl : (.SDL_STATUS, 0) ∈ l) : UnitWork l s u.chooseParent := by
  have hset {v : State} (hv : UnitWork l s v) {f : Fld} (hf : f.reg = .SDL_STATUS) (n : Nat) : UnitWork l s (v.setFld f 0 n) :=
    hv.setFld (by rw [hf]; decide) (by rw [hf]; exact hl) n
  unfold State.chooseParent
  split
  · exact h
  · split
    · exact (hset (hset (hset (hset h rfl _) rfl _) rfl _) rfl _).ite (hset h rfl _)
    · exact (hset (hset (hset h rfl _) rfl _) rfl _).ite h

end

/-! ### Exchanges -/

section
variable {s : State} {l : LinkIx}

/-- What a link keeps of the request that it sends (R273). -/
def State.asked (s : State) (l : Nat) : LinkSync :=
  { s.link l with seqNo := ((s.link l).seqNo + 1) % 65536, sent := some s.time64, lastSent := some s.clock }

/-- What a link keeps of its partner's flit (R274). -/
def LinkSync.heardFrom (x : LinkSync) (f : SyncFlit) : LinkSync :=
  { x with heard := true, partnerRoot := f.root, partnerDepth := f.depth, partnerSynced := f.flags.testBit 0,
           partnerPtp := f.flags.testBit 1 }

/-- A link that is not DOWN sends a request once its cadence is due and none is outstanding (R273). -/
theorem exec_syncExchange_sends (htrained : s.syncState l.val ≠ 0) (hsent : (s.link l.val).sent = none)
    (hdue : ∀ n, (s.link l.val).lastSent = some n → n + s.cadence l.val ≤ s.clock) :
    exec (.syncExchange l) s = .next ((s.setLink l.val (s.asked l.val)).sendLink l.val
      { Msg.to .sync 0 0 (s.link l.val).partnerChip with
        data := (s.setLink l.val (s.asked l.val)).syncBytes l.val 0x01 (s.asked l.val).seqNo s.time64 0 0 }) := by
  have hcadence : (match (s.link l.val).lastSent with
      | none => true
      | some t => decide (t + s.cadence l.val ≤ s.clock)) ≠ false := by
    cases hlast : (s.link l.val).lastSent with
    | none => exact Bool.noConfusion
    | some n => simp [hdue n hlast]
  show execSyncExchange l s = _
  unfold execSyncExchange
  exact if_neg (by rw [hsent]; rintro (h | h | h); exacts [htrained h, hcadence h, Bool.noConfusion h])

/-- A request of this chip's root is answered by one flit (R273, R274). -/
theorem exec_syncFlit_answers {f : SyncFlit} (htrained : s.syncState l.val ≠ 0) (hroot : f.root = s.rootChip) (hrequest : f.reply = false) :
    exec (.syncFlit l f) s = .next ((s.setLink l.val ((s.link l.val).heardFrom f)).sendLink l.val
      { Msg.to .sync 0 0 (s.link l.val).partnerChip with
        data := (s.setLink l.val ((s.link l.val).heardFrom f)).syncBytes l.val 0x02 f.seqNo f.t1 s.time64 s.time64 }) := by
  show execSyncFlit l f s = _
  unfold execSyncFlit
  rw [if_neg (show ¬ s.syncState l.val = syDown from htrained)]
  dsimp only
  rw [if_pos (show f.root = (s.setLink l.val _).rootChip from hroot), hrequest]
  exact rfl

/-- An exchange older than its window is a bad one (R273, R276). -/
theorem exec_exchangeMiss_late {t1 : Nat} (htrained : s.syncState l.val ≠ 0) (hsent : (s.link l.val).sent = some t1)
    (hlate : (s.link l.val).window ≤ 2 * ((s.time64 : Int) - t1)) : exec (.exchangeMiss l) s = .next (s.badExchange l.val) := by
  show execExchangeMiss l s = _
  simp only [execExchangeMiss, hsent]
  exact if_neg (by rintro (h | h); exacts [htrained h, absurd hlate (Int.not_le.mpr h)])

/-- An exchange that counts as missed. -/
def State.exchangeMissed (s : State) (l : Nat) : State :=
  (s.setFld Fld.SDL_LINK_SYNC_MISSED l (min 15 (s.fld Fld.SDL_LINK_SYNC_MISSED l + 1))).setLink l { s.link l with sent := none, good := 0 }

/-- A SYNCED link that becomes SUSPECT (R276). -/
def State.suspected (s : State) (l : Nat) : State :=
  ((s.setFld Fld.SDL_LINK_SYNC_STATE l sySuspect).logEvent chipPlot 11 5 20 l).chooseParent

/-- A bad exchange counts, and may make the link SUSPECT. -/
theorem State.badExchange_cases (s : State) (l : Nat) :
    s.badExchange l = (s.exchangeMissed l).suspected l ∨ s.badExchange l = s.exchangeMissed l := ite_mem_branches _ _ _

section
variable (hs : s.canonical = true) {k : Nat}
include hs

theorem State.exchangeMissed_work (hk : k < 6) : UnitWork [(.SDL_LINK_SYNC, k)] s (s.exchangeMissed k) :=
  ((UnitWork.refl _ hs).setFld (f := Fld.SDL_LINK_SYNC_MISSED) hk List.mem_cons_self _).setLink k _

theorem State.missed_exchangeMissed :
    (s.exchangeMissed k).fld Fld.SDL_LINK_SYNC_MISSED k = min 15 (s.fld Fld.SDL_LINK_SYNC_MISSED k + 1) := by
  have hsmall : min 15 (s.fld Fld.SDL_LINK_SYNC_MISSED k + 1) < 2 ^ Fld.SDL_LINK_SYNC_MISSED.width :=
    Nat.lt_of_le_of_lt (Nat.min_le_left 15 _) (by decide)
  rw [State.exchangeMissed, State.fld_setLink, State.fld_setFld_same _ _ _ _ (State.canonical_regs hs) (by decide),
    Nat.mod_eq_of_lt hsmall]

theorem State.link_exchangeMissed : (s.exchangeMissed k).link k = { s.link k with sent := none, good := 0 } := by
  rw [State.exchangeMissed, State.link_setLink_same _ _ _ (by rw [State.sync_setFld]; exact State.canonical_sync hs)]

end

theorem UnitWork.suspectBegun {s u : State} {k : Nat} (h : UnitWork [(.SDL_LINK_SYNC, k)] s u) (hk : k < 6) :
    UnitWork [(.SDL_LINK_SYNC, k)] s (u.setFld Fld.SDL_LINK_SYNC_STATE k sySuspect) :=
  h.setFld (f := Fld.SDL_LINK_SYNC_STATE) hk List.mem_cons_self _

/-- What the log and the choice of a parent write after it. -/
theorem UnitWork.suspected {s u : State} {k : Nat} (h : UnitWork [(.SDL_LINK_SYNC, k)] s u) (hk : k < 6) :
    UnitWork [(.HUB_LOG_LOST, 0), (.SDL_STATUS, 0)] (u.setFld Fld.SDL_LINK_SYNC_STATE k sySuspect) (u.suspected k) :=
  (((h.suspectBegun hk).restart _).logEvent List.mem_cons_self _ _ _ _ _).chooseParent (by simp)

/-- A bad exchange leaves none outstanding and counts once more, whatever the link's state becomes (R276). -/
theorem State.badExchange_counts (hs : s.canonical = true) {k : Nat} (hk : k < 6) :
    ((s.badExchange k).link k).sent = none ∧
    (s.badExchange k).fld Fld.SDL_LINK_SYNC_MISSED k = min 15 (s.fld Fld.SDL_LINK_SYNC_MISSED k + 1) ∧ MemSame s (s.badExchange k) := by
  have hmissed := s.exchangeMissed_work hs hk
  rcases s.badExchange_cases k with h | h
  · have hsuspected := hmissed.suspected hk
    rw [h]
    refine ⟨?_, ?_, (hmissed.suspectBegun hk).mem.trans hsuspected.mem⟩
    · have hnoted : Noted (s.exchangeMissed k) ((s.exchangeMissed k).suspected k) :=
        (((Noted.refl _).setFld _ _ _).logEvent _ _ _ _ _).chooseParent
      rw [hnoted.link, State.link_exchangeMissed hs]
    · rw [hsuspected.fld (f := Fld.SDL_LINK_SYNC_MISSED) hk (by simp [Fld.SDL_LINK_SYNC_MISSED]),
        State.fld_setFld_beside _ Fld.SDL_LINK_SYNC_STATE Fld.SDL_LINK_SYNC_MISSED k _ hmissed.wfRegs rfl (by decide) (by decide)]
      exact s.missed_exchangeMissed hs
  · rw [h, State.link_exchangeMissed hs]
    exact ⟨rfl, s.missed_exchangeMissed hs, hmissed.mem⟩

/-- A SUSPECT link beyond GUARD becomes DORMANT (R276). -/
theorem exec_linkDormant_turns (hstate : s.syncState l.val = sySuspect) (hguard : s.beyondGuard l.val = true) :
    exec (.linkDormant l) s = .next ((s.setFld Fld.SDL_LINK_SYNC_STATE l.val syDormant).setLink l.val { s.link l.val with good := 0 }) := by
  show execLinkDormant l s = _
  unfold execLinkDormant
  exact if_pos ⟨hstate, hguard⟩

end

/-- Settles O19, one clause per command. -/
theorem synchronisationExchangesAreSentAndJudged : Obligations.SynchronisationExchangesAreSentAndJudged := by
  intro s l hs htrained
  have hlink (x : LinkSync) (m : Msg) : ((s.setLink l.val x).sendLink l.val m).link l.val = x :=
    s.link_setLink_same l.val x (State.canonical_sync hs)
  refine ⟨fun hsent hdue => ?exchange, fun f hroot hrequest => ?flit, fun t1 hsent hlate =>
    ⟨_, exec_exchangeMiss_late htrained hsent hlate, State.badExchange_counts hs l.isLt⟩, fun hstate hguard =>
    ⟨_, exec_linkDormant_turns hstate hguard, ?dormant, ?regs, ?mem⟩⟩
  case exchange =>
    exact ⟨_, exec_syncExchange_sends htrained hsent hdue, by rw [hlink]; rfl, by rw [hlink]; rfl, ⟨_, rfl, rfl, rfl⟩, rfl, rfl, rfl, rfl⟩
  case flit =>
    exact ⟨_, exec_syncFlit_answers htrained hroot hrequest, by rw [hlink]; rfl, by rw [hlink]; rfl, ⟨_, rfl, rfl, rfl⟩, rfl, rfl, rfl, rfl⟩
  case dormant =>
    rw [State.fld_setLink]
    exact State.fld_setFld_same s Fld.SDL_LINK_SYNC_STATE l.val syDormant (State.canonical_regs hs) (by decide)
  all_goals
    have hset : UnitWork [(.SDL_LINK_SYNC, l.val)] s (s.setFld Fld.SDL_LINK_SYNC_STATE l.val syDormant) :=
      (UnitWork.refl _ hs).setFld (f := Fld.SDL_LINK_SYNC_STATE) l.isLt List.mem_cons_self _
  case regs => exact (hset.setLink l.val _).regs
  case mem => exact hset.mem

end Sys2Proof.Machine
end

section
/-!
The states of a link (R301, R306, R310, R312): what each change of state writes of LNK_STATUS, and what it leaves. Settles O41.
-/

namespace Sys2Proof.Machine
open Sys2Proof

/-! ### What the output of a link leaves alone -/

/-- `u` differs from `s` in the links' books and in the messages sent at most. -/
def Sent (s u : State) : Prop := ∃ phys out, u = { s with phys := phys, out := out }

theorem State.pumpGo_sent (l n : Nat) (s : State) : Sent s (State.pumpGo l n s) := by
  induction n generalizing s with
  | zero => exact ⟨_, _, rfl⟩
  | succ n ih =>
    unfold State.pumpGo
    split
    · exact ⟨_, _, rfl⟩
    · next k m y _ =>
      obtain ⟨phys, out, h⟩ := ih { s.setPhy l (y.leave k m s.clock) with out := s.out ++ [{ m with link := some l }] }
      exact ⟨phys, out, h⟩

theorem State.pump_sent (s : State) (l : Nat) : Sent s (s.pump l) := by
  unfold State.pump
  split
  · exact State.pumpGo_sent l _ s
  · exact ⟨_, _, rfl⟩

theorem Sent.link {s u : State} (h : Sent s u) (k : Nat) : u.link k = s.link k := by
  obtain ⟨phys, out, rfl⟩ := h
  rfl

section
variable {l : List (Reg × Nat)} {s u : State} (h : UnitWork l s u)
include h

theorem UnitWork.setPhy (k : Nat) (y : LinkPhy) : UnitWork l s (u.setPhy k y) := ⟨h.wfRegs, h.wfBlocks, h.regs, h.mem⟩

theorem UnitWork.sent {v : State} (hv : Sent u v) : UnitWork l s v := by
  obtain ⟨phys, out, rfl⟩ := hv
  exact ⟨h.wfRegs, h.wfBlocks, h.regs, h.mem⟩

theorem UnitWork.pump (k : Nat) : UnitWork l s (u.pump k) := h.sent (u.pump_sent k)

theorem UnitWork.addSat {f : Fld} {i : Nat} (hi : i < f.reg.count) (hl : (f.reg, i) ∈ l) (n : Nat) : UnitWork l s (u.addSat f i n) :=
  h.setFld hi hl _

/-- Work on further registers. -/
theorem UnitWork.weaken {l' : List (Reg × Nat)} (hl : ∀ x ∈ l, x ∈ l') : UnitWork l' s u :=
  ⟨h.wfRegs, h.wfBlocks, fun q j hj hq => h.regs q j hj fun hmem => hq (hl _ hmem), h.mem⟩

/-- Work after work. -/
theorem UnitWork.trans {v : State} (hv : UnitWork l u v) : UnitWork l s v :=
  ⟨hv.wfRegs, hv.wfBlocks, fun q j hj hq => (hv.regs q j hj hq).trans (h.regs q j hj hq), h.mem.trans hv.mem⟩

end

/-! ### Width (R301) -/

theorem widthOf_mem {failed : Nat} (h : widthOf failed ≠ 0) : widthOf failed ∈ [16, 8, 4, 2, 1] := by
  unfold widthOf at h ⊢
  cases hfind : [16, 8, 4, 2, 1].find? fun w => (List.range (16 / w)).any fun i => laneGroup failed w i with
  | none => rw [hfind] at h; exact absurd rfl h
  | some w => exact List.mem_of_find?_eq_some hfind

/-- The code of a width spells it. -/
theorem lanes_lanesCode : ∀ w ∈ [16, 8, 4, 2, 1], lanesCode w % 2 ^ 3 ≠ 0 ∧ 2 ^ (lanesCode w % 2 ^ 3 - 1) = w := by decide

/-- A link whose LANES holds the code of a width uses as many lanes. -/
theorem State.lanes_of_code {s : State} {l failed : Nat} (hwidth : widthOf failed ≠ 0)
    (h : s.fld Fld.LNK_STATUS_LANES l = lanesCode (widthOf failed) % 2 ^ Fld.LNK_STATUS_LANES.width) : s.lanes l = widthOf failed := by
  obtain ⟨hcode, hlanes⟩ := lanes_lanesCode _ (widthOf_mem hwidth)
  unfold State.lanes
  rw [h]
  exact (if_neg hcode).trans hlanes

/-! ### LNK_STATUS -/

section
variable {s : State} (h : Sparse.wf regReset s.regs = true) (l : Nat)
include h

/-- The state of a link reads as it was last set, beside what is set after it. -/
theorem State.linkState_setState (v : Nat) : (s.setFld Fld.LNK_STATUS_STATE l v).linkState l = v % 2 ^ 4 :=
  State.fld_setFld_same _ _ _ _ h (by decide)

theorem State.linkState_setLanes (v : Nat) : (s.setFld Fld.LNK_STATUS_LANES l v).linkState l = s.linkState l :=
  State.fld_setFld_beside _ Fld.LNK_STATUS_LANES Fld.LNK_STATUS_STATE l v h rfl (by decide) (by decide)

theorem State.linkState_setReason (v : Nat) : (s.setFld Fld.LNK_STATUS_FALLOW_REASON l v).linkState l = s.linkState l :=
  State.fld_setFld_beside _ Fld.LNK_STATUS_FALLOW_REASON Fld.LNK_STATUS_STATE l v h rfl (by decide) (by decide)

theorem State.linkState_setFailed (v : Nat) : (s.setFld Fld.LNK_STATUS_LANE_FAIL l v).linkState l = s.linkState l :=
  State.fld_setFld_beside _ Fld.LNK_STATUS_LANE_FAIL Fld.LNK_STATUS_STATE l v h rfl (by decide) (by decide)

end

/-- What a link that leaves UP writes of its synchronisation and of the sundial. -/
def leavingRegs (l : Nat) : List (Reg × Nat) := [(.SDL_LINK_SYNC, l), (.HUB_LOG_LOST, 0), (.SDL_STATUS, 0)]

section
variable {L : List (Reg × Nat)} {s u : State} (h : UnitWork L s u) {l : Nat} (hl : l < 6)
include h hl

theorem UnitWork.linkStatus {f : Fld} (hf : f.reg = .LNK_STATUS) (hL : (.LNK_STATUS, l) ∈ L) (v : Nat) : UnitWork L s (u.setFld f l v) :=
  h.setFld (by rw [hf]; exact hl) (by rw [hf]; exact hL) v

/-- After its state is set, a link that leaves UP is DOWN for the sundial, and the parent is chosen anew (R276, R310). -/
theorem UnitWork.setLinkState (st : Nat) : UnitWork (leavingRegs l) (u.setFld Fld.LNK_STATUS_STATE l st) (u.setLinkState l st) := by
  have hset := (((h.weaken (l' := (.LNK_STATUS, l) :: L) (by simp +contextual)).linkStatus hl (f := Fld.LNK_STATUS_STATE) rfl
    List.mem_cons_self st).restart (leavingRegs l))
  have hdown := hset.setFld (f := Fld.SDL_LINK_SYNC_STATE) (i := l) hl (by simp [leavingRegs, Fld.SDL_LINK_SYNC_STATE]) syDown
  exact (((hdown.setLink l _).logEvent (by simp [leavingRegs]) _ _ _ _ _).chooseParent (by simp [leavingRegs])).ite hset

end

/-- What a change of a link's state writes. -/
def linkRegs (l : Nat) : List (Reg × Nat) := (.LNK_STATUS, l) :: leavingRegs l

theorem State.fld_setPhy (s : State) (l : Nat) (y : LinkPhy) (f : Fld) (i : Nat) : (s.setPhy l y).fld f i = s.fld f i := rfl

theorem State.linkState_setPhy (s : State) (l : Nat) (y : LinkPhy) (i : Nat) : (s.setPhy l y).linkState i = s.linkState i := rfl

section
variable {s u : State} {l : Nat} (h : UnitWork (linkRegs l) s u) (hl : l < 6)
include h hl

theorem UnitWork.linkStateSet (st : Nat) : UnitWork (linkRegs l) s (u.setLinkState l st) :=
  (h.linkStatus hl (f := Fld.LNK_STATUS_STATE) rfl List.mem_cons_self st).trans
    ((h.setLinkState hl st).weaken fun _ hx => List.mem_cons_of_mem _ hx)

/-- A field of LNK_STATUS after a change of the link's state. -/
theorem UnitWork.fld_setLinkState {f : Fld} (hf : f.reg = .LNK_STATUS) (st : Nat) :
    (u.setLinkState l st).fld f l = (u.setFld Fld.LNK_STATUS_STATE l st).fld f l :=
  (h.setLinkState hl st).fld (by rw [hf]; exact hl) (by simp [hf, leavingRegs])

theorem UnitWork.linkState_setLinkState (st : Nat) : (u.setLinkState l st).linkState l = st % 2 ^ 4 :=
  (h.fld_setLinkState hl rfl st).trans (State.linkState_setState h.wfRegs l st)

end

/-! ### OFF and FALLOW (R310, R312) -/

/-- State, reason and lanes of a link that becomes FALLOW. -/
def State.fallowSet (s : State) (l r : Nat) : State :=
  ((s.setLinkState l lsFallow).setFld Fld.LNK_STATUS_FALLOW_REASON l r).setFld Fld.LNK_STATUS_LANES l 0

theorem State.linkFallow_eq (s : State) (l r : Nat) :
    ∃ y, s.linkFallow l r = ((s.fallowSet l r).setPhy l y).logEvent chipPlot 8 5 41 (16 * l + r) := ⟨_, rfl⟩

section
variable {s : State} (hs : s.canonical = true) {l : Nat} (hl : l < 6)
include hs hl

/-- A link at OFF has no lanes and no reason (R310). -/
theorem State.linkOff_status : (s.linkOff l).linkState l = lsOff ∧ (s.linkOff l).fld Fld.LNK_STATUS_LANES l = 0 ∧
    (s.linkOff l).fld Fld.LNK_STATUS_FALLOW_REASON l = 0 := by
  have hstart := UnitWork.refl (linkRegs l) hs
  have hstate := hstart.linkStateSet hl lsOff
  have hlanes := hstate.linkStatus hl (f := Fld.LNK_STATUS_LANES) rfl List.mem_cons_self 0
  unfold State.linkOff
  dsimp only
  rw [State.linkState_setPhy, State.fld_setPhy, State.fld_setPhy]
  refine ⟨?_, ?_, ?_⟩
  · rw [State.linkState_setReason hlanes.wfRegs, State.linkState_setLanes hstate.wfRegs, hstart.linkState_setLinkState hl]
    rfl
  · rw [State.fld_setFld_beside _ Fld.LNK_STATUS_FALLOW_REASON Fld.LNK_STATUS_LANES l 0 hlanes.wfRegs rfl (by decide) (by decide),
      State.fld_setFld_same _ _ _ _ hstate.wfRegs (by decide)]
    rfl
  · rw [State.fld_setFld_same _ _ _ _ hlanes.wfRegs (by decide)]
    rfl

/-- A FALLOW link has its reason and no lanes (R310, R312). -/
theorem State.linkFallow_status {r : Nat} (hr : r < 16) : (s.linkFallow l r).linkState l = lsFallow ∧
    (s.linkFallow l r).fld Fld.LNK_STATUS_LANES l = 0 ∧ (s.linkFallow l r).fld Fld.LNK_STATUS_FALLOW_REASON l = r := by
  have hstart := UnitWork.refl (linkRegs l) hs
  have hstate := hstart.linkStateSet hl lsFallow
  have hreason := hstate.linkStatus hl (f := Fld.LNK_STATUS_FALLOW_REASON) rfl List.mem_cons_self r
  have hlanes := hreason.linkStatus hl (f := Fld.LNK_STATUS_LANES) rfl List.mem_cons_self 0
  obtain ⟨y, hfallow⟩ := s.linkFallow_eq l r
  have hlogged {f : Fld} (hf : f.reg = .LNK_STATUS) : (s.linkFallow l r).fld f l = (s.fallowSet l r).fld f l := by
    rw [hfallow]
    exact (((hlanes.setPhy l y).restart [(.HUB_LOG_LOST, 0)]).logEvent List.mem_cons_self chipPlot 8 5 41 (16 * l + r)).fld
      (by rw [hf]; exact hl) (by simp [hf])
  unfold State.fallowSet at hlogged
  refine ⟨(hlogged rfl).trans ?_, (hlogged rfl).trans ?_, (hlogged rfl).trans ?_⟩
  · show State.linkState _ l = _
    rw [State.linkState_setLanes hreason.wfRegs, State.linkState_setReason hstate.wfRegs, hstart.linkState_setLinkState hl]
    rfl
  · rw [State.fld_setFld_same _ _ _ _ hreason.wfRegs (by decide)]
    rfl
  · rw [State.fld_setFld_beside _ Fld.LNK_STATUS_LANES Fld.LNK_STATUS_FALLOW_REASON l 0 hreason.wfRegs rfl (by decide) (by decide),
      State.fld_setFld_same _ _ _ _ hstate.wfRegs (by decide)]
    exact Nat.mod_eq_of_lt hr

end

/-! ### UP (R306, R310) -/

/-- What a link that comes UP writes after its state. -/
def risingRegs (l : Nat) : List (Reg × Nat) := [(.SDL_LINK_SYNC, l), (.HUB_LOG_LOST, 0)]

theorem State.setLinkState_up (s : State) (l : Nat) : s.setLinkState l lsUp = s.setFld Fld.LNK_STATUS_STATE l lsUp :=
  if_neg (by simp)

theorem State.setLinkState_below {s : State} {l : Nat} (h : s.linkUp l = false) (st : Nat) :
    s.setLinkState l st = s.setFld Fld.LNK_STATUS_STATE l st :=
  if_neg (by simp [h])

/-- The books of a link that comes UP stand full (R306). -/
def State.booksFull (s : State) (l : Nat) : LinkPhy :=
  { s.phy l with
    held := creditSizes (isRack l), freed := List.replicate 17 0, counted := List.replicate 17 0, ackTick := s.clock }

/-- Its exchanges begin anew (R276). -/
def State.exchangesAnew (s : State) (l : Nat) : LinkSync :=
  { s.link l with sent := none, lastSent := none, good := 0, delay0 := none, lastGood := s.clock }

/-- A link that comes UP, before the log entry and the messages that leave. -/
def State.upSet (s : State) (l : Nat) : State :=
  ((((s.setPhy l (s.booksFull l)).setFld Fld.LNK_STATUS_STATE l lsUp).setFld Fld.SDL_LINK_SYNC_STATE l syResync).setFld
    Fld.SDL_LINK_SYNC_MISSED l 0).setLink l (s.exchangesAnew l)

theorem State.linkGoUp_eq (s : State) (l : Nat) : s.linkGoUp l = ((s.upSet l).logEvent chipPlot 8 5 42 l).pump l := by
  have hanew (f g h : Fld) (v w x : Nat) :
      ((((s.setPhy l (s.booksFull l)).setFld f l v).setFld g l w).setFld h l x).setLink l
        { ((((s.setPhy l (s.booksFull l)).setFld f l v).setFld g l w).setFld h l x).link l with
          sent := none, lastSent := none, good := 0, delay0 := none,
          lastGood := ((((s.setPhy l (s.booksFull l)).setFld f l v).setFld g l w).setFld h l x).clock } =
      ((((s.setPhy l (s.booksFull l)).setFld f l v).setFld g l w).setFld h l x).setLink l (s.exchangesAnew l) := rfl
  unfold State.linkGoUp
  dsimp only
  rw [State.setLinkState_up]
  exact congrArg (fun v => (v.logEvent chipPlot 8 5 42 l).pump l) (hanew _ _ _ _ _ _)

section
variable {L : List (Reg × Nat)} {s u : State} (h : UnitWork L s u) {l : Nat} (hl : l < 6)
include h hl

/-- After its state is set. -/
theorem UnitWork.linkGoUp : UnitWork (risingRegs l) (u.setFld Fld.LNK_STATUS_STATE l lsUp) (u.linkGoUp l) := by
  have hbooks (y : LinkPhy) (f : Fld) (v : Nat) : (u.setPhy l y).setFld f l v = (u.setFld f l v).setPhy l y := rfl
  have hset := (((h.weaken (l' := (.LNK_STATUS, l) :: L) (by simp +contextual)).linkStatus hl (f := Fld.LNK_STATUS_STATE) rfl
    List.mem_cons_self lsUp).restart (risingRegs l))
  rw [State.linkGoUp_eq, State.upSet, hbooks]
  exact (((((hset.setPhy l _).setFld (f := Fld.SDL_LINK_SYNC_STATE) hl List.mem_cons_self _).setFld (f := Fld.SDL_LINK_SYNC_MISSED) hl
    List.mem_cons_self _).setLink l _).logEvent (by simp [risingRegs]) _ _ _ _ _).pump l

/-- A field of LNK_STATUS of a link that comes UP. -/
theorem UnitWork.fld_linkGoUp {f : Fld} (hf : f.reg = .LNK_STATUS) :
    (u.linkGoUp l).fld f l = (u.setFld Fld.LNK_STATUS_STATE l lsUp).fld f l :=
  (h.linkGoUp hl).fld (by rw [hf]; exact hl) (by simp [hf, risingRegs])

theorem UnitWork.linkUp_linkGoUp : (u.linkGoUp l).linkUp l = true := by
  have hstate : (u.linkGoUp l).linkState l = lsUp % 2 ^ 4 := (h.fld_linkGoUp hl rfl).trans (State.linkState_setState h.wfRegs l lsUp)
  unfold State.linkUp
  rw [show (u.linkGoUp l).fld Fld.LNK_STATUS_STATE l = _ from hstate]
  rfl

/-- A link that comes UP is in RESYNC (R276). -/
theorem UnitWork.resync_linkGoUp : (u.linkGoUp l).fld Fld.SDL_LINK_SYNC_STATE l = syResync := by
  have hup := ((h.weaken (l' := (.LNK_STATUS, l) :: (.SDL_LINK_SYNC, l) :: L) (by simp +contextual)).setPhy l (u.booksFull l)).linkStatus hl
    (f := Fld.LNK_STATUS_STATE) rfl List.mem_cons_self lsUp
  have hresync := hup.setFld (f := Fld.SDL_LINK_SYNC_STATE) (i := l) hl (by simp [Fld.SDL_LINK_SYNC_STATE]) syResync
  have hmissed := hresync.setFld (f := Fld.SDL_LINK_SYNC_MISSED) (i := l) hl (by simp [Fld.SDL_LINK_SYNC_MISSED]) 0
  have hlogged := (((hmissed.setLink l (u.exchangesAnew l)).restart [(.HUB_LOG_LOST, 0)]).logEvent List.mem_cons_self chipPlot 8 5 42 l).pump l
  rw [State.linkGoUp_eq, State.upSet, hlogged.fld (f := Fld.SDL_LINK_SYNC_STATE) hl (by simp [Fld.SDL_LINK_SYNC_STATE]),
    State.fld_setLink, State.fld_setFld_beside _ Fld.SDL_LINK_SYNC_MISSED Fld.SDL_LINK_SYNC_STATE l 0 hresync.wfRegs rfl (by decide)
      (by decide), State.fld_setFld_same _ _ _ _ hup.wfRegs (by decide)]
  rfl

end

/-- A link that comes UP keeps who its partner is. -/
theorem State.partner_linkGoUp {s : State} {l : Nat} (h : Sparse.wf (fun _ => LinkSync.empty) s.sync = true) :
    ((s.linkGoUp l).link l).partnerChip = (s.link l).partnerChip := by
  have hsync : ((((s.setPhy l (s.booksFull l)).setFld Fld.LNK_STATUS_STATE l lsUp).setFld Fld.SDL_LINK_SYNC_STATE l
        syResync).setFld Fld.SDL_LINK_SYNC_MISSED l 0).sync = s.sync := by
    rw [State.sync_setFld, State.sync_setFld, State.sync_setFld]
    rfl
  rw [State.linkGoUp_eq, (State.pump_sent _ l).link, ((Noted.refl (s.upSet l)).logEvent _ _ _ _ _).link, State.upSet,
    State.link_setLink_same _ _ _ (by rw [hsync]; exact h)]
  rfl

/-! ### Training and retraining (R301, R310) -/

/-- A link whose lanes locked in training, before its state is set. -/
def State.lanesTrained (s : State) (l failed delay : Nat) : State :=
  (((s.setFld Fld.LNK_STATUS_LANE_FAIL l (failed % 65536)).setFld Fld.LNK_STATUS_LANES l (lanesCode (widthOf (failed % 65536)))).setPhy l
    { s.phy l with heard := s.clock, partner := none, acked := false, sentTick := none, switch := none }).setLink l
      { s.link l with trained := delay }

/-- A link whose lanes locked in retraining, its width agreed. -/
def State.lanesRelocked (s : State) (l failed : Nat) : State :=
  (s.setFld Fld.LNK_STATUS_LANE_FAIL l failed).setFld Fld.LNK_STATUS_LANES l (lanesCode (widthOf (failed ||| (s.phy l).theirs)))

/-- The replay of what is unacknowledged, counted (R300). -/
def State.replayed (s : State) (l : Nat) : State :=
  let y := s.phy l
  let s := (s.setPhy l { y with replays := 0 }).addSat Fld.LNK_RETRY_COUNT_COUNT l y.inFlight
  if y.inFlight = 0 then s else s.sendLink l { Msg.to .replay 0 chipPlot 0 with tag := y.base, op := y.inFlight }

section
variable {s : State} {l : LinkIx}

theorem exec_trainingComplete_locks {failed delay : Nat} (hstate : s.linkState l.val = lsTraining) (hmay : s.mayTrain = true)
    (hwidth : widthOf (failed % 65536) ≠ 0) :
    exec (.trainingComplete l failed delay) s = .next ((s.lanesTrained l.val failed delay).setLinkState l.val lsDiscovery) := by
  have hset (f g : Fld) (v w : Nat) :
      (((s.setFld f l.val v).setFld g l.val w).setPhy l.val { ((s.setFld f l.val v).setFld g l.val w).phy l.val with
        heard := ((s.setFld f l.val v).setFld g l.val w).clock, partner := none, acked := false, sentTick := none, switch := none }) =
      (((s.setFld f l.val v).setFld g l.val w).setPhy l.val { s.phy l.val with
        heard := s.clock, partner := none, acked := false, sentTick := none, switch := none }) := rfl
  have hlink (f g : Fld) (v w : Nat) (y : LinkPhy) :
      (((s.setFld f l.val v).setFld g l.val w).setPhy l.val y).link l.val = s.link l.val := rfl
  show execTrainingComplete l failed delay s = _
  unfold execTrainingComplete
  rw [if_neg (by simp [hstate, hmay])]
  dsimp only
  rw [if_neg hwidth, hset, hlink]
  rfl

theorem exec_retrainEnd_fails {failed : Nat} (hstate : s.linkState l.val = lsRetrain) :
    exec (.retrainEnd l false failed) s = .next (s.linkOff l.val) := by
  show execRetrainEnd l false failed s = _
  unfold execRetrainEnd
  rw [if_neg (not_not.mpr hstate)]
  rfl

theorem exec_retrainEnd_locks {failed : Nat} (hs : s.canonical = true) (hstate : s.linkState l.val = lsRetrain)
    (hwidth : widthOf ((s.fld Fld.LNK_STATUS_LANE_FAIL l.val ||| failed % 65536) ||| (s.phy l.val).theirs) ≠ 0) :
    exec (.retrainEnd l true failed) s =
      .next (((s.lanesRelocked l.val (s.fld Fld.LNK_STATUS_LANE_FAIL l.val ||| failed % 65536)).replayed l.val).linkGoUp l.val) := by
  have hfailed : (s.setFld Fld.LNK_STATUS_LANE_FAIL l.val (s.fld Fld.LNK_STATUS_LANE_FAIL l.val ||| failed % 65536)).fld
      Fld.LNK_STATUS_LANE_FAIL l.val = s.fld Fld.LNK_STATUS_LANE_FAIL l.val ||| failed % 65536 :=
    (State.fld_setFld_same _ _ _ _ (State.canonical_regs hs) (by decide)).trans
      (Nat.mod_eq_of_lt (Nat.or_lt_two_pow (bitsAt_lt _ _ _) (Nat.mod_lt _ (by decide))))
  have hphy (f : Fld) (v : Nat) : (s.setFld f l.val v).phy l.val = s.phy l.val := rfl
  show execRetrainEnd l true failed s = _
  unfold execRetrainEnd
  rw [if_neg (not_not.mpr hstate)]
  dsimp only
  rw [hfailed, hphy, if_neg hwidth]
  rfl

end

section
variable {s : State} (hs : s.canonical = true) {l : Nat} (hl : l < 6)
include hs hl

theorem State.lanesTrained_work (failed delay : Nat) : UnitWork [(.LNK_STATUS, l)] s (s.lanesTrained l failed delay) :=
  ((((UnitWork.refl _ hs).linkStatus hl (f := Fld.LNK_STATUS_LANE_FAIL) rfl List.mem_cons_self _).linkStatus hl
    (f := Fld.LNK_STATUS_LANES) rfl List.mem_cons_self _).setPhy l _).setLink l _

/-- A link whose lanes locked stands in DISCOVERY with its failed lanes, its width and its path delay (R298, R301, R310). -/
theorem State.lanesTrained_discovery {failed : Nat} (delay : Nat) (hstate : s.linkState l = lsTraining)
    (hwidth : widthOf (failed % 65536) ≠ 0) (t : State) (ht : t = (s.lanesTrained l failed delay).setLinkState l lsDiscovery) :
    t.linkState l = lsDiscovery ∧ t.fld Fld.LNK_STATUS_LANE_FAIL l = failed % 65536 ∧ t.lanes l = widthOf (failed % 65536) ∧
      (t.link l).trained = (delay : Int) ∧ RegsKept s t [(.LNK_STATUS, l)] ∧ MemSame s t := by
  have hwf := State.canonical_regs hs
  have hfailed := s.wf_setFld Fld.LNK_STATUS_LANE_FAIL l (failed % 65536) hwf
  have hwork := s.lanesTrained_work hs hl failed delay
  have hset := hwork.linkStatus hl (f := Fld.LNK_STATUS_STATE) rfl List.mem_cons_self lsDiscovery
  have hup : (s.lanesTrained l failed delay).linkUp l = false := by
    have hkept : (s.lanesTrained l failed delay).linkState l = lsTraining := by
      rw [State.linkState, State.lanesTrained, State.fld_setLink, State.fld_setPhy]
      exact ((State.linkState_setLanes hfailed l _).trans (State.linkState_setFailed hwf l _)).trans hstate
    exact (congrArg (· == lsUp) hkept).trans (by decide)
  rw [State.setLinkState_below hup] at ht
  subst ht
  refine ⟨State.linkState_setState hwork.wfRegs l lsDiscovery, ?_, State.lanes_of_code hwidth ?_, ?_, hset.regs, hset.mem⟩
  · rw [State.fld_setFld_beside _ Fld.LNK_STATUS_STATE Fld.LNK_STATUS_LANE_FAIL l _ hwork.wfRegs rfl (by decide) (by decide),
      State.lanesTrained, State.fld_setLink, State.fld_setPhy,
      State.fld_setFld_beside _ Fld.LNK_STATUS_LANES Fld.LNK_STATUS_LANE_FAIL l _ hfailed rfl (by decide) (by decide),
      State.fld_setFld_same _ _ _ _ hwf (by decide)]
    exact Nat.mod_mod _ _
  · rw [State.fld_setFld_beside _ Fld.LNK_STATUS_STATE Fld.LNK_STATUS_LANES l _ hwork.wfRegs rfl (by decide) (by decide),
      State.lanesTrained, State.fld_setLink, State.fld_setPhy, State.fld_setFld_same _ _ _ _ hfailed (by decide)]
  · rw [State.link_setFld, State.lanesTrained, State.link_setLink_same]
    rw [State.setPhy, State.sync_setFld, State.sync_setFld]
    exact State.canonical_sync hs

theorem State.lanesRelocked_work (failed : Nat) : UnitWork [(.LNK_STATUS, l)] s (s.lanesRelocked l failed) :=
  ((UnitWork.refl _ hs).linkStatus hl (f := Fld.LNK_STATUS_LANE_FAIL) rfl List.mem_cons_self _).linkStatus hl
    (f := Fld.LNK_STATUS_LANES) rfl List.mem_cons_self _

end

theorem UnitWork.replayed {L : List (Reg × Nat)} {s u : State} (h : UnitWork L s u) {l : Nat} (hl : l < 6) :
    UnitWork [(.LNK_RETRY_COUNT, l)] u (u.replayed l) := by
  have hcount := ((h.restart [(.LNK_RETRY_COUNT, l)]).setPhy l { u.phy l with replays := 0 }).addSat (f := Fld.LNK_RETRY_COUNT_COUNT)
    (i := l) hl List.mem_cons_self (u.phy l).inFlight
  exact hcount.ite (hcount.sendLink l _)

/-- A link whose lanes locked in retraining is UP again, in RESYNC, with its width (R301, R310). -/
theorem State.lanesRelocked_up {s : State} (hs : s.canonical = true) {l : Nat} (hl : l < 6) {failed : Nat}
    (hwidth : widthOf (failed ||| (s.phy l).theirs) ≠ 0) (t : State) (ht : t = ((s.lanesRelocked l failed).replayed l).linkGoUp l) :
    t.linkUp l = true ∧ t.fld Fld.SDL_LINK_SYNC_STATE l = syResync ∧ t.lanes l = widthOf (failed ||| (s.phy l).theirs) ∧ MemSame s t := by
  have hlocked := s.lanesRelocked_work hs hl failed
  have hreplayed := hlocked.replayed hl
  have hset := (hreplayed.restart [(.LNK_STATUS, l)]).linkStatus hl (f := Fld.LNK_STATUS_STATE) rfl List.mem_cons_self lsUp
  subst ht
  refine ⟨hreplayed.linkUp_linkGoUp hl, hreplayed.resync_linkGoUp hl, State.lanes_of_code hwidth ?_,
    ((hlocked.mem.trans hreplayed.mem).trans hset.mem).trans (hreplayed.linkGoUp hl).mem⟩
  rw [hreplayed.fld_linkGoUp hl (f := Fld.LNK_STATUS_LANES) rfl,
    State.fld_setFld_beside _ Fld.LNK_STATUS_STATE Fld.LNK_STATUS_LANES l _ hreplayed.wfRegs rfl (by decide) (by decide),
    hreplayed.fld (f := Fld.LNK_STATUS_LANES) hl (by simp [Fld.LNK_STATUS_LANES]), State.lanesRelocked,
    State.fld_setFld_same _ _ _ _ (State.wf_setFld _ _ _ _ (State.canonical_regs hs)) (by decide)]

/-! ### LNK_CONTROL (R312) -/

section
variable {s : State} {a : Agent} {l : LinkIx} (hpriv : s.privOk a = true)
include hpriv

theorem exec_lnkRelease_fallow (hstate : s.linkState l.val = lsFallow) (hfree : s.bit Fld.LNK_CONTROL_DISABLE l.val = false) :
    exec (.lnkRelease a l) s = .next (s.linkOff l.val) := by
  show execLnkRelease a l s = _
  unfold execLnkRelease
  rw [if_neg (by simp [hpriv]), if_pos ⟨hstate, hfree⟩]

theorem exec_lnkRetrain_up (hup : s.linkUp l.val = true) : exec (.lnkRetrain a l) s = .next (s.linkOff l.val) := by
  show execLnkRetrain a l s = _
  unfold execLnkRetrain
  rw [if_neg (by simp [hpriv]), if_pos hup]

theorem exec_lnkDisable_sets : exec (.lnkDisable a l true) s =
    .next (((s.viaStore (s.setBit Fld.LNK_CONTROL_DISABLE l.val true)).linkFallow l.val frHost).settleCoord) := by
  show execLnkDisable a l true s = _
  unfold execLnkDisable
  exact if_neg (by simp [hpriv])

end

/-- Settles O41, one clause per command, and the fields of a link at OFF and FALLOW. -/
theorem linksTrainRetrainAndObeyTheirControl : Obligations.LinksTrainRetrainAndObeyTheirControl := by
  intro s l hs
  refine ⟨fun failed delay hstate hmay hwidth => ⟨_, exec_trainingComplete_locks hstate hmay hwidth,
      s.lanesTrained_discovery hs l.isLt delay hstate hwidth _ rfl⟩,
    fun failed hstate => ⟨exec_retrainEnd_fails hstate, fun hwidth => ⟨_, exec_retrainEnd_locks hs hstate hwidth,
      s.lanesRelocked_up hs l.isLt hwidth _ rfl⟩⟩,
    fun a hpriv => ⟨exec_lnkRelease_fallow hpriv, exec_lnkRetrain_up hpriv, exec_lnkDisable_sets hpriv, exec_lnkDisable_clears hpriv⟩,
    s.linkOff_status hs l.isLt, fun r hr => s.linkFallow_status hs l.isLt hr⟩

end Sys2Proof.Machine
end

section
/-!
The flits of a link (R299 to R301, R306): acceptance in sequence, acknowledgement, replay, and the width that a failed lane leaves.
Settles O40.
-/

namespace Sys2Proof.Machine
open Sys2Proof

theorem State.phy_setFld (s : State) (f : Fld) (i v l : Nat) : (s.setFld f i v).phy l = s.phy l := rfl

theorem State.phy_sendLink (s : State) (k : Nat) (m : Msg) (l : Nat) : (s.sendLink k m).phy l = s.phy l := rfl

theorem State.phy_addSat (s : State) (f : Fld) (i n l : Nat) : (s.addSat f i n).phy l = s.phy l := rfl

section
variable {s : State} {l : LinkIx} (hup : s.linkUp l.val = true)
include hup

/-- A good flit in sequence steps RX and frees one credit of its class; the acknowledgement waits for the 32nd (R300, R306). -/
theorem exec_dataFlit_accepts {vc : Nat} {phase sh : Bool} (hrx : (s.phy l.val).rx < 2 ^ 24) (hfresh : (s.phy l.val).fresh + 1 < 32) :
    exec (.dataFlit l (s.phy l.val).rx vc phase sh true) s = .next (s.setPhy l.val { s.phy l.val with
      rx := ((s.phy l.val).rx + 1) % 2 ^ 24, nak := false, fresh := (s.phy l.val).fresh + 1
      since := (s.phy l.val).since.or (some s.clock)
      freed := (s.phy l.val).freed.set (if sh then 16 else vc % 8 + (if phase && isRack l.val then 8 else 0))
        (((s.phy l.val).freed.getD (if sh then 16 else vc % 8 + (if phase && isRack l.val then 8 else 0)) 0 + 1) % 65536) }) := by
  show execDataFlit l (s.phy l.val).rx vc phase sh true s = _
  unfold execDataFlit
  rw [if_neg (by simp [hup])]
  dsimp only
  rw [if_neg (by decide), if_neg (not_not.mpr (Nat.mod_eq_of_lt hrx)), if_neg (Nat.not_le.mpr hfresh)]

/-- A flit whose CRC fails is counted and answered by one NAK (R299, R300). -/
theorem exec_dataFlit_crcFails {n vc : Nat} {phase sh : Bool} (hnak : (s.phy l.val).nak = false) :
    exec (.dataFlit l n vc phase sh false) s = .next (((s.addSat Fld.LNK_CRC_COUNT_COUNT l.val 1).setPhy l.val
      { s.phy l.val with nak := true }).sendLink l.val { Msg.to .nak 0 chipPlot 0 with tag := (s.phy l.val).rx }) := by
  show execDataFlit l n vc phase sh false s = _
  unfold execDataFlit
  rw [if_neg (by simp [hup])]
  dsimp only
  rw [if_pos (by decide), State.phy_addSat, if_neg (by simp [hnak])]

/-- An acknowledgement within the flits in flight moves the base and restarts the timer (R300). -/
theorem exec_linkControlFlit_acks {n : Nat} {counts : List Nat} (hnew : n ≠ (s.phy l.val).base)
    (hwithin : (n + 2 ^ 24 - (s.phy l.val).base) % 2 ^ 24 ≤ (s.phy l.val).inFlight) :
    exec (.linkControlFlit l (.ack n counts)) s = .next ((s.setPhy l.val { (s.phy l.val).count (isRack l.val) counts with
      base := n % 2 ^ 24, replays := 0, ackTick := s.clock }).pump l.val) := by
  have hstate : s.linkState l.val = lsUp := beq_iff_eq.mp hup
  have hfits : (decide ((n + 2 ^ 24 - ((s.phy l.val).count (isRack l.val) counts).base) % 2 ^ 24 ≤
      ((s.phy l.val).count (isRack l.val) counts).inFlight) && n != ((s.phy l.val).count (isRack l.val) counts).base) = true :=
    Bool.and_eq_true_iff.mpr ⟨decide_eq_true hwithin, bne_iff_ne.mpr hnew⟩
  show execLinkControlFlit l (.ack n counts) s = _
  unfold execLinkControlFlit
  rw [if_neg (by rw [hstate]; decide)]
  dsimp only
  rw [if_pos hfits]

section
variable (hflight : (s.phy l.val).inFlight ≠ 0) (hsilent : (s.phy l.val).ackTick + 20000 ≤ s.clock)
include hflight hsilent

/-- A silent partner is replayed to from the base; the eighth replay without progress leads to RETRAIN (R300). -/
theorem exec_replayTimeout_replays :
    exec (.replayTimeout l) s = .next (if 7 ≤ (s.phy l.val).replays then
      ((s.setPhy l.val { s.phy l.val with replays := (s.phy l.val).replays + 1, ackTick := s.clock }).addSat
        Fld.LNK_RETRY_COUNT_COUNT l.val (s.phy l.val).inFlight).linkRetrain l.val
      else ((s.setPhy l.val { s.phy l.val with replays := (s.phy l.val).replays + 1, ackTick := s.clock }).addSat
        Fld.LNK_RETRY_COUNT_COUNT l.val (s.phy l.val).inFlight).sendLink l.val
          { Msg.to .replay 0 chipPlot 0 with tag := (s.phy l.val).base, op := (s.phy l.val).inFlight }) := by
  have hbase : ((s.phy l.val).base + 2 ^ 24 - (s.phy l.val).base) % 2 ^ 24 = 0 := by omega
  have heighth : (8 ≤ (s.phy l.val).replays + 1) = (7 ≤ (s.phy l.val).replays) := by
    rw [eq_iff_iff]
    omega
  show execReplayTimeout l s = _
  unfold execReplayTimeout
  rw [if_neg (by simp [hup, hflight, hsilent])]
  unfold State.replayFrom
  rw [if_neg (by rw [hbase]; exact Nat.not_lt_zero _)]
  dsimp only
  simp only [if_true, heighth]
  rfl

end

end

/-! ### A failed lane (R301) -/

/-- A failed lane marked, told to the partner and logged. -/
def State.laneMarked (s : State) (l lane : Nat) : State :=
  ((s.setFld Fld.LNK_STATUS_LANE_FAIL l (s.fld Fld.LNK_STATUS_LANE_FAIL l ||| 2 ^ (lane % 16))).sendLink l
    { Msg.to .widthChange 0 chipPlot 0 with tag := s.fld Fld.LNK_STATUS_LANE_FAIL l ||| 2 ^ (lane % 16) }).logEvent chipPlot 8 5 43
      (16 * l + lane % 16)

section
variable {s : State} (hs : s.canonical = true) {l : Nat} (hl : l < 6) (lane : Nat)
include hs hl

theorem State.laneMarked_work : UnitWork [(.LNK_STATUS, l), (.HUB_LOG_LOST, 0)] s (s.laneMarked l lane) :=
  (((UnitWork.refl _ hs).linkStatus hl (f := Fld.LNK_STATUS_LANE_FAIL) rfl List.mem_cons_self _).sendLink l _).logEvent (by simp) _ _ _ _ _

/-- A field of LNK_STATUS once the lane is marked. -/
theorem State.fld_laneMarked {f : Fld} (hf : f.reg = .LNK_STATUS) : (s.laneMarked l lane).fld f l =
    (s.setFld Fld.LNK_STATUS_LANE_FAIL l (s.fld Fld.LNK_STATUS_LANE_FAIL l ||| 2 ^ (lane % 16))).fld f l :=
  (((((UnitWork.refl _ hs).linkStatus hl (f := Fld.LNK_STATUS_LANE_FAIL) rfl (List.mem_cons_self (l := [])) _).restart
    [(.HUB_LOG_LOST, 0)]).sendLink l _).logEvent List.mem_cons_self _ _ _ _ _).fld (by rw [hf]; exact hl) (by simp [hf])

theorem State.failed_laneMarked :
    (s.laneMarked l lane).fld Fld.LNK_STATUS_LANE_FAIL l = s.fld Fld.LNK_STATUS_LANE_FAIL l ||| 2 ^ (lane % 16) := by
  have hlane : 2 ^ (lane % 16) < 2 ^ 16 := Nat.pow_lt_pow_right (by decide) (Nat.mod_lt _ (by decide))
  rw [State.fld_laneMarked hs hl lane rfl, State.fld_setFld_same _ _ _ _ (State.canonical_regs hs) (by decide)]
  exact Nat.mod_eq_of_lt (Nat.or_lt_two_pow (bitsAt_lt _ _ _) hlane)

/-- Where a width is left, it is set and the link stays UP. -/
theorem State.laneMarked_width (hup : s.linkUp l = true) (t : State)
    (hwidth : widthOf ((s.fld Fld.LNK_STATUS_LANE_FAIL l ||| 2 ^ (lane % 16)) ||| (s.phy l).theirs) ≠ 0)
    (ht : t = (s.laneMarked l lane).setWidth l) :
    t.fld Fld.LNK_STATUS_LANE_FAIL l = s.fld Fld.LNK_STATUS_LANE_FAIL l ||| 2 ^ (lane % 16) ∧
    t.lanes l = widthOf ((s.fld Fld.LNK_STATUS_LANE_FAIL l ||| 2 ^ (lane % 16)) ||| (s.phy l).theirs) ∧
    t.linkUp l = true ∧ RegsKept s t [(.LNK_STATUS, l), (.HUB_LOG_LOST, 0)] ∧ MemSame s t := by
  have hmarked := s.laneMarked_work hs hl lane
  have hphy : (s.laneMarked l lane).phy l = s.phy l := by
    rw [State.laneMarked, ((Noted.refl _).logEvent _ _ _ _ _).phy, State.phy_sendLink, State.phy_setFld]
  have hset : (s.laneMarked l lane).setWidth l = (s.laneMarked l lane).setFld Fld.LNK_STATUS_LANES l
      (lanesCode (widthOf ((s.fld Fld.LNK_STATUS_LANE_FAIL l ||| 2 ^ (lane % 16)) ||| (s.phy l).theirs))) := by
    unfold State.setWidth
    dsimp only
    rw [s.failed_laneMarked hs hl lane, hphy, if_neg hwidth]
  have hwork := hmarked.linkStatus hl (f := Fld.LNK_STATUS_LANES) rfl List.mem_cons_self
    (lanesCode (widthOf ((s.fld Fld.LNK_STATUS_LANE_FAIL l ||| 2 ^ (lane % 16)) ||| (s.phy l).theirs)))
  rw [hset] at ht
  subst ht
  refine ⟨?_, State.lanes_of_code hwidth ?_, ?_, hwork.regs, hwork.mem⟩
  · rw [State.fld_setFld_beside _ Fld.LNK_STATUS_LANES Fld.LNK_STATUS_LANE_FAIL l _ hmarked.wfRegs rfl (by decide) (by decide),
      s.failed_laneMarked hs hl lane]
  · rw [State.fld_setFld_same _ _ _ _ hmarked.wfRegs (by decide)]
  · have hstate := State.linkState_setLanes hmarked.wfRegs l
      (lanesCode (widthOf ((s.fld Fld.LNK_STATUS_LANE_FAIL l ||| 2 ^ (lane % 16)) ||| (s.phy l).theirs)))
    have hkept : (s.laneMarked l lane).linkState l = s.linkState l :=
      (State.fld_laneMarked hs hl lane (f := Fld.LNK_STATUS_STATE) rfl).trans
        (State.linkState_setFailed (State.canonical_regs hs) l (s.fld Fld.LNK_STATUS_LANE_FAIL l ||| 2 ^ (lane % 16)))
    exact (congrArg (· == lsUp) (hstate.trans hkept)).trans hup

end

theorem exec_laneFailure_marks {s : State} {l : LinkIx} (hup : s.linkUp l.val = true) (lane : Nat) :
    exec (.laneFailure l lane) s = .next ((s.laneMarked l.val lane).setWidth l.val) := by
  show execLaneFailure l lane s = _
  unfold execLaneFailure
  rw [if_neg (by simp [hup])]
  rfl

/-! ### The width that the lanes leave (R301) -/

/-- Some aligned group of the width has all its lanes good. -/
def widthGood (failed w : Nat) : Bool := (List.range (16 / w)).any fun i => laneGroup failed w i

theorem widthGood_iff {failed w : Nat} : widthGood failed w = true ↔ ∃ i, i < 16 / w ∧ laneGroup failed w i = true := by
  simp [widthGood]

theorem widthOf_good {failed : Nat} (h : widthOf failed ≠ 0) : widthGood failed (widthOf failed) = true := by
  unfold widthOf at h ⊢
  cases hfind : [16, 8, 4, 2, 1].find? fun w => (List.range (16 / w)).any fun i => laneGroup failed w i with
  | none => rw [hfind] at h; exact absurd rfl h
  | some w => exact List.find?_some hfind

/-- No wider width has a good group: the widths are tried from the widest. -/
theorem widthGood_of_lt {failed w : Nat} (hw : w ∈ [16, 8, 4, 2, 1]) (h : widthOf failed < w) : widthGood failed w = false := by
  have hdesc : [16, 8, 4, 2, 1].Pairwise (· > ·) := by decide
  unfold widthOf at h
  cases hfind : [16, 8, 4, 2, 1].find? fun w => (List.range (16 / w)).any fun i => laneGroup failed w i with
  | none => exact Bool.eq_false_iff.mpr (List.find?_eq_none.mp hfind w hw)
  | some v =>
    rw [hfind] at h
    obtain ⟨-, as, bs, hlist, hbefore⟩ := List.find?_eq_some_iff_append.mp hfind
    rw [hlist] at hw hdesc
    rcases List.mem_append.mp hw with hmem | hmem
    · exact (Bool.not_eq_true' _).mp (hbefore w hmem)
    · have hle : w ≤ v := by
        rcases List.mem_cons.mp hmem with rfl | hmem
        · exact Nat.le_refl _
        · exact Nat.le_of_lt (List.rel_of_pairwise_cons (List.pairwise_append.mp hdesc).2.1 hmem)
      exact absurd h (Nat.not_lt.mpr hle)

/-- Settles O40, one clause per flit and case, and the width. -/
theorem linkFlitsAreAcceptedReplayedAndAcknowledged : Obligations.LinkFlitsAreAcceptedReplayedAndAcknowledged := by
  refine ⟨?flits, fun failed => ⟨fun h => widthGood_iff.mp (widthOf_good h), fun w hw h i hi => ?wider⟩⟩
  case flits =>
    rintro s l y hup rfl
    refine ⟨fun vc phase sh hrx hfresh => exec_dataFlit_accepts hup hrx hfresh, fun n vc phase sh hnak => exec_dataFlit_crcFails hup hnak,
      fun n counts hnew hwithin => exec_linkControlFlit_acks hup hnew hwithin, fun hflight hsilent hfew => ?replay,
      fun hflight hsilent hmany => ?retrain,
      fun lane hs hwidth => ⟨_, exec_laneFailure_marks hup lane, s.laneMarked_width hs l.isLt lane hup _ hwidth rfl⟩⟩
    case replay => rw [exec_replayTimeout_replays hup hflight hsilent, if_neg (Nat.not_le.mpr hfew)]
    case retrain => rw [exec_replayTimeout_replays hup hflight hsilent, if_pos hmany]
  case wider =>
    have hgood := widthGood_of_lt hw h
    exact Bool.eq_false_iff.mpr fun hgroup => Bool.eq_false_iff.mp hgood (widthGood_iff.mpr ⟨i, hi, hgroup⟩)

end Sys2Proof.Machine
end

section
/-!
Discovery (R307 to R310): a record is sent when due, a partner that passes the checks brings its link UP, and a switch record brings the
coordinates. Settles O42.
-/

namespace Sys2Proof.Machine
open Sys2Proof

theorem State.canonical_phys {s : State} (h : s.canonical = true) : Sparse.wf (fun l => LinkPhy.off (isRack l)) s.phys = true := by
  simp only [State.canonical, Bool.and_eq_true, and_assoc] at h
  obtain ⟨-, -, -, -, -, -, -, -, hphys, -⟩ := h
  exact hphys

theorem State.phy_setPhy_same (s : State) (l : Nat) (y : LinkPhy) (h : Sparse.wf (fun l => LinkPhy.off (isRack l)) s.phys = true) :
    (s.setPhy l y).phy l = y := Sparse.get_set_same _ _ _ _ h

theorem State.phy_setPhy_other (s : State) {l k : Nat} (y : LinkPhy) (h : k ≠ l) : (s.setPhy l y).phy k = s.phy k :=
  Sparse.get_set_other _ _ _ h

/-! ### Records sent (R307) -/

section
variable {s : State} {l : LinkIx}

theorem exec_discoverySend_due (hstate : s.linkState l.val = lsDiscovery) (hnone : (s.phy l.val).partner = none)
    (hdue : (s.phy l.val).sentTick = none ∨ ∃ t, (s.phy l.val).sentTick = some t ∧ t + 10000 ≤ s.clock) :
    exec (.discoverySend l) s = .next (s.sendRecord l.val) := by
  have htime : (match (s.phy l.val).sentTick with
      | none => true
      | some t => decide (t + 10000 ≤ s.clock)) ≠ false := by
    rcases hdue with h | ⟨t, h, hle⟩ <;> rw [h]
    · exact Bool.noConfusion
    · simp [hle]
  have hopen : ((s.phy l.val).acked && (match (s.phy l.val).partner with
      | some q => !q.notReady
      | none => false)) ≠ true := by simp [hnone]
  show execDiscoverySend l s = _
  unfold execDiscoverySend
  exact if_neg (by rintro (h | h | h); exacts [h hstate, htime h, hopen h])

theorem exec_discoveryRecord_up (hup : s.linkUp l.val = true) (q : Partner) :
    exec (.discoveryRecord l q) s = .next (s.sendRecord l.val) := by
  show execDiscoveryRecord l q s = _
  unfold execDiscoveryRecord
  rw [if_pos hup]

theorem exec_discoverySilence_falls (hstate : s.linkState l.val = lsDiscovery) (hnone : (s.phy l.val).partner = none)
    (hsilent : (s.phy l.val).heard + 10000000 ≤ s.clock) :
    exec (.discoverySilence l) s = .next (((s.setPhy l.val { s.phy l.val with silent := true }).linkOff l.val).settleCoord) := by
  have hwaits : (match (s.phy l.val).partner with
      | some q => q.notReady
      | none => false) ≠ true := by simp [hnone]
  show execDiscoverySilence l s = _
  unfold execDiscoverySilence
  exact if_neg (by rintro (h | h | h); exacts [h hstate, hwaits h, Nat.not_lt.mpr hsilent h])

end

/-! ### A partner of a tray or hall link (R308, R309) -/

/-- A link that has its partner's acknowledged record, and has answered with its own. -/
def State.partnered (s : State) (l : Nat) (q : Partner) : State :=
  (s.setPhy l { s.phy l with partner := some q, acked := true, heard := s.clock, silent := false }).sendRecord l

theorem Sent.setPhy {s u : State} (h : Sent s u) (k : Nat) (y : LinkPhy) : Sent s (u.setPhy k y) := by
  obtain ⟨phys, out, rfl⟩ := h
  exact ⟨Sparse.set (fun l => LinkPhy.off (isRack l)) phys k y, out, rfl⟩

theorem Sent.sendLink {s u : State} (h : Sent s u) (k : Nat) (m : Msg) : Sent s (u.sendLink k m) := by
  obtain ⟨phys, out, rfl⟩ := h
  exact ⟨phys, out ++ [{ m with link := some k }], rfl⟩

theorem State.partnered_sent (s : State) (l : Nat) (q : Partner) : Sent s (s.partnered l q) := by
  have hself : Sent s s := ⟨s.phys, s.out, rfl⟩
  unfold State.partnered State.sendRecord
  exact ((hself.setPhy _ _).setPhy _ _).sendLink _ _

/-- A partner that passed, before its link comes UP. -/
def State.partnerNoted (s : State) (l : Nat) (q : Partner) : State :=
  ((s.setReg .LNK_PEER l (BitVec.ofNat 32 (q.chip * 65536 + q.major % 256 * 256 + q.minor % 256))).setPhy l
    { s.phy l with last := some q }).setLink l { s.link l with partnerChip := q.chip }

section
variable {s u : State} (h : Sent s u)
include h

theorem Sent.fld (f : Fld) (i : Nat) : u.fld f i = s.fld f i := by
  obtain ⟨phys, out, rfl⟩ := h
  rfl

theorem Sent.sync : u.sync = s.sync := by
  obtain ⟨phys, out, rfl⟩ := h
  rfl

theorem Sent.checkPartner (l : Nat) (q : Partner) : u.checkPartner l q = s.checkPartner l q := by
  have hchip : u.chipNo = s.chipNo := h.fld Fld.LNK_COORD_CHIP 0
  have hmajor : u.fld Fld.BOOT_STATUS_MAJOR 0 = s.fld Fld.BOOT_STATUS_MAJOR 0 := h.fld Fld.BOOT_STATUS_MAJOR 0
  have hrest : u.hall = s.hall ∧ u.configHash = s.configHash := by
    obtain ⟨phys, out, rfl⟩ := h
    exact ⟨rfl, rfl⟩
  unfold State.checkPartner
  rw [hchip, hmajor, hrest.1, hrest.2]

end

/-- A waiting link with its partner's acknowledged record, both coordinates known, is FALLOW or UP by the checks (R309). -/
theorem State.tryUp_judges {s : State} {l : Nat} {q : Partner} (hpartner : (s.phy l).partner = some q) (hacked : (s.phy l).acked = true)
    (hstate : s.linkState l = lsDiscovery) (hready : q.notReady = false) (hcoord : q.coord = true) (hown : s.hasCoord = true)
    (hcold : s.bit Fld.BOOT_STATUS_KIND 0 = false) : s.tryUp l = (match s.checkPartner l q with
      | some r => s.linkFallow l r
      | none => (s.partnerNoted l q).linkGoUp l) := by
  unfold State.tryUp
  dsimp only
  split
  · next hnone => rw [hpartner] at hnone; cases hnone
  · next p hp =>
    obtain rfl : q = p := Option.some.inj (hpartner.symm.trans hp)
    rw [if_neg (by simp [hstate, hready, hcoord, hown, hacked]), hcold, Bool.false_and]
    rfl

section
variable {s : State} {l : LinkIx} {q : Partner} (hs : s.canonical = true) (hstate : s.linkState l.val = lsDiscovery)
  (hdisc : s.discovering = true) (hready : q.notReady = false) (hcoord : q.coord = true) (hack : q.ack = true)
  (hrack : isRack l.val = false) (hown : s.hasCoord = true) (hcold : s.bit Fld.BOOT_STATUS_KIND 0 = false)
include hs hstate hdisc hready hcoord hack hrack hown hcold

/-- The record of a partner of a tray or hall link is judged (R309). -/
theorem exec_discoveryRecord_judges : exec (.discoveryRecord l q) s = .next (match s.checkPartner l.val q with
    | some r => (s.partnered l.val q).linkFallow l.val r
    | none => ((s.partnered l.val q).partnerNoted l.val q).linkGoUp l.val) := by
  have hsent := s.partnered_sent l.val q
  have hphy : ((s.partnered l.val q).phy l.val).partner = some q ∧ ((s.partnered l.val q).phy l.val).acked = true := by
    unfold State.partnered State.sendRecord
    rw [State.phy_sendLink, State.phy_setPhy_same _ _ _ (Sparse.wf_set _ _ _ _ (State.canonical_phys hs)),
      State.phy_setPhy_same _ _ _ (State.canonical_phys hs)]
    exact ⟨rfl, rfl⟩
  have hup : s.linkUp l.val = false := (congrArg (· == lsUp) hstate).trans (by decide)
  rw [← hsent.checkPartner, ← State.tryUp_judges hphy.1 hphy.2 ((hsent.fld Fld.LNK_STATUS_STATE l.val).trans hstate) hready hcoord
    ((congrArg (· != 0) (hsent.fld Fld.LNK_COORD_SOURCE 0)).trans hown)
    ((congrArg (· != 0) (hsent.fld Fld.BOOT_STATUS_KIND 0)).trans hcold)]
  show execDiscoveryRecord l q s = _
  unfold execDiscoveryRecord
  rw [if_neg (by simp [hup]), if_neg (not_not.mpr hstate)]
  dsimp only
  rw [if_neg (by simp [hready, State.setPhy, hdisc]), hrack, hack, Bool.or_true]
  rfl

end

/-- A link whose partner passed is UP, with LNK_PEER its partner's chip (R309). -/
theorem State.partnerNoted_up {s : State} (hs : s.canonical = true) {l : Nat} (hl : l < 6) (q : Partner) (t : State)
    (ht : t = ((s.partnered l q).partnerNoted l q).linkGoUp l) :
    t.linkUp l = true ∧ t.fld Fld.LNK_PEER_CHIP l = q.chip % 65536 ∧ (t.link l).partnerChip = q.chip ∧ MemSame s t := by
  have hpartnered := (UnitWork.refl [(.LNK_PEER, l)] hs).sent (s.partnered_sent l q)
  have hpeer (v : W32) (y : LinkPhy) (x : LinkSync) :
      UnitWork [(.LNK_PEER, l)] s ((((s.partnered l q).setReg .LNK_PEER l v).setPhy l y).setLink l x) :=
    ((hpartnered.setReg hl List.mem_cons_self v).setPhy l y).setLink l x
  have hnoted : UnitWork [(.LNK_PEER, l)] s ((s.partnered l q).partnerNoted l q) := by
    unfold State.partnerNoted
    exact hpeer _ _ _
  have hset := (hnoted.restart [(.LNK_STATUS, l)]).linkStatus hl (f := Fld.LNK_STATUS_STATE) rfl List.mem_cons_self lsUp
  have hsync (u : State) (r : Reg) (v : W32) (y : LinkPhy) : ((u.setReg r l v).setPhy l y).sync = u.sync := rfl
  have hpartner : (s.partnered l q).sync = s.sync := (s.partnered_sent l q).sync
  have hchip (u : State) (hu : Sparse.wf regReset u.regs = true) (r : Reg) (v : W32) (y : LinkPhy) (x : LinkSync) :
      (((u.setReg r l v).setPhy l y).setLink l x).reg r l = v := State.reg_setReg_same _ _ _ _ hu
  subst ht
  refine ⟨hnoted.linkUp_linkGoUp hl, ?_, ?_, (hnoted.mem.trans hset.mem).trans (hnoted.linkGoUp hl).mem⟩
  · rw [(hnoted.linkGoUp hl).fld (f := Fld.LNK_PEER_CHIP) hl (by simp [risingRegs, Fld.LNK_PEER_CHIP]),
      hset.fld (f := Fld.LNK_PEER_CHIP) hl (by simp [Fld.LNK_PEER_CHIP]), State.fld, State.partnerNoted]
    simp only [Fld.LNK_PEER_CHIP]
    rw [hchip _ hpartnered.wfRegs, bitsAt_ofNat _ _ _ (by decide), bitsAt]
    omega
  · have hlinked (u : State) (hu : Sparse.wf (fun _ => LinkSync.empty) u.sync = true) (x : LinkSync) :
        Sparse.wf (fun _ => LinkSync.empty) (u.setLink l x).sync = true := Sparse.wf_set _ _ _ _ hu
    have hwf : Sparse.wf (fun _ => LinkSync.empty) ((s.partnered l q).partnerNoted l q).sync = true := by
      rw [State.partnerNoted]
      exact hlinked _ (by rw [hsync, hpartner]; exact State.canonical_sync hs) _
    rw [State.partner_linkGoUp hwf, State.partnerNoted, State.link_setLink_same _ _ _ (by rw [hsync, hpartner]; exact State.canonical_sync hs)]

/-! ### A switch record (R307 to R309) -/

/-- A tray or hall link without a partner's record is not completed. -/
theorem State.tryUp_alone {s : State} {l : Nat} (h : (s.phy l).partner = none) : s.tryUp l = s := by
  unfold State.tryUp
  dsimp only
  rw [h]

/-- A chip that becomes the root writes SDL_STATUS (R272). -/
theorem UnitWork.settleRoot {L : List (Reg × Nat)} {s u : State} (h : UnitWork L s u) (hL : (.SDL_STATUS, 0) ∈ L) :
    UnitWork L s u.settleRoot := by
  have hset {v : State} (hv : UnitWork L s v) {f : Fld} (hf : f.reg = .SDL_STATUS) (n : Nat) : UnitWork L s (v.setFld f 0 n) :=
    hv.setFld (by rw [hf]; decide) (by rw [hf]; exact hL) n
  have hroot := hset (hset (hset (h.setBit (f := Fld.SDL_STATUS_ROOT) (i := 0) (by decide) hL true) (f := Fld.SDL_STATUS_DEPTH) rfl 0)
    (f := Fld.SDL_STATUS_PARENT) rfl 7) (f := Fld.SDL_STATUS_STATE) rfl sdSync
  have harmed {v : State} (hv : UnitWork L s v) (n : Nat) (b : Boot) : UnitWork L s { v with sundial := n, boot := b } :=
    ⟨hv.wfRegs, hv.wfBlocks, hv.regs, hv.mem⟩
  unfold State.settleRoot
  split
  · exact h
  · dsimp only
    split
    · exact (harmed hroot _ _).ite hroot
    · exact hroot

theorem State.phys_settleRoot (s : State) : s.settleRoot.phys = s.phys := by
  have harmed (v : State) (n : Nat) (b : Boot) (p : Prop) [Decidable p] :
      (if p then { v with sundial := n, boot := b } else v).phys = v.phys := by split <;> rfl
  have hroot : ((((s.setBit Fld.SDL_STATUS_ROOT 0 true).setFld Fld.SDL_STATUS_DEPTH 0 0).setFld Fld.SDL_STATUS_PARENT 0 7).setFld
      Fld.SDL_STATUS_STATE 0 sdSync).phys = s.phys := by
    rw [State.phys_setFld, State.phys_setFld, State.phys_setFld, State.phys_setBit]
  unfold State.settleRoot
  split
  · rfl
  · dsimp only
    split
    · exact (harmed _ _ _ _).trans hroot
    · exact hroot

theorem State.phy_congr {s u : State} (h : u.phys = s.phys) (k : Nat) : u.phy k = s.phy k :=
  congrArg (fun m => Sparse.get (fun l => LinkPhy.off (isRack l)) m k) h

theorem State.foldl_tryUp_alone {s : State} {l : List Nat} (h : ∀ k ∈ l, (s.phy k).partner = none) :
    l.foldl (fun s l => s.tryUp l) s = s := by
  induction l with
  | nil => rfl
  | cons k l ih =>
    rw [List.foldl_cons, State.tryUp_alone (h k List.mem_cons_self), ih fun j hj => h j (List.mem_cons_of_mem _ hj)]

/-- Coordinates with no partner waiting for them. -/
theorem State.setCoord_alone {s : State} (h : ∀ k ∈ [0, 1, 4, 5], (s.phy k).partner = none) (source chip : Nat) (bad : Bool) :
    s.setCoord source chip bad = (s.setReg .LNK_COORD 0
      (BitVec.ofNat 32 (source * 2 ^ 30 + (if bad then 2 ^ 29 else 0) + chip % 8192))).settleRoot := by
  have hphy (v : W32) (k : Nat) : ((s.setReg .LNK_COORD 0 v).settleRoot).phy k = s.phy k :=
    State.phy_congr ((State.phys_settleRoot _).trans (State.phys_setReg _ _ _ _)) k
  unfold State.setCoord
  exact State.foldl_tryUp_alone fun k hk => (congrArg LinkPhy.partner (hphy _ k)).trans (h k hk)

/-- A rack link that has its switch record, with no partner of another link waiting. -/
def State.switched (s : State) (l plane rack port : Nat) : State :=
  s.setPhy l { s.phy l with switch := some (plane, rack % 64, port % 128), heard := s.clock, silent := false }

section
variable {s : State} {l : LinkIx} {plane : Nat} (hstate : s.linkState l.val = lsDiscovery) (hdisc : s.discovering = true)
include hstate hdisc

theorem exec_switchRecord_swapped (hplane : isRack l.val = false ∨ plane ≠ l.val - 2) (rack port : Nat) :
    exec (.switchRecord l plane rack port) s =
      .next (((s.switched l.val plane rack port).linkFallow l.val frSwap).settleCoord) := by
  show execSwitchRecord l plane rack port s = _
  unfold execSwitchRecord
  rw [if_neg (by simp [hstate, hdisc])]
  exact if_pos hplane

/-- The first switch record of plane 0 on link 2 gives the coordinates and brings the link UP (R308). -/
theorem exec_switchRecord_brings (hl : l.val = 2) (hplane : plane = 0) (hother : (s.phy 3).switch = none) (rack port : Nat) :
    ∃ v x bad, exec (.switchRecord l plane rack port) s = .next
      (((((s.switched 2 plane rack port).setReg .LNK_PEER 2 v).setLink 2 x).setCoord 1 (rack % 64 * 128 + port % 128) bad).linkGoUp 2) := by
  obtain rfl : l = ⟨2, by decide⟩ := Fin.ext hl
  subst hplane
  have hnone : ((s.switched 2 0 rack port).phy 3).switch = none := by
    rw [State.switched, State.phy_setPhy_other _ _ (by decide), hother]
  have hfree : ((((s.switched 2 0 rack port).phy 3).switch.filter fun q => q.1 == 3 - 2).map fun q => q.2.1 * 128 + q.2.2) = none := by
    rw [hnone]
    rfl
  have hlink (u : State) (r : Reg) (v : W32) : (u.setReg r 2 v).setLink 2 { (u.setReg r 2 v).link 2 with
      partnerChip := (u.setReg r 2 v).syncMap.getD (2 - 2) 0xFFFF } =
      (u.setReg r 2 v).setLink 2 { u.link 2 with partnerChip := u.syncMap.getD (2 - 2) 0xFFFF } := rfl
  refine ⟨BitVec.ofNat 32 ((port % 128) * 65536), { (s.switched 2 0 rack port).link 2 with
    partnerChip := (s.switched 2 0 rack port).syncMap.getD (2 - 2) 0xFFFF }, match (s.switched 2 0 rack port).slotHint with
      | some h => h != (rack % 64 * 128 + port % 128) % 128
      | none => false, ?_⟩
  show execSwitchRecord ⟨2, _⟩ 0 rack port s = _
  unfold execSwitchRecord
  rw [if_neg (by simp [hstate, hdisc])]
  refine (if_neg (by simp [isRack])).trans ?_
  dsimp only
  refine (if_neg (by simp)).trans ?_
  have hswitched : s.setPhy 2 { s.phy 2 with
      switch := some (0, rack % 64, port % 128), heard := s.clock, silent := false } = s.switched 2 0 rack port := rfl
  rw [if_pos (.inl rfl), hswitched, if_neg (by rw [hfree]; simp)]
  exact congrArg (fun u : State => Host.Outcome.next ((u.setCoord 1 (rack % 64 * 128 + port % 128)
    (match (s.switched 2 0 rack port).slotHint with
    | some h => h != (rack % 64 * 128 + port % 128) % 128
    | none => false)).linkGoUp 2)) (hlink _ _ _)

end

/-- The word of a coordinate (R308): its source, the hint that disagrees and its chip. -/
theorem bitsAt_coord (bad : Bool) {chip : Nat} (hchip : chip < 8192) :
    let v := BitVec.ofNat 32 (1 * 2 ^ 30 + (if bad then 2 ^ 29 else 0) + chip % 8192)
    bitsAt v.toNat 30 2 = 1 ∧ bitsAt v.toNat 0 13 = chip := by
  dsimp only
  rw [bitsAt_ofNat _ _ _ (by decide), bitsAt_ofNat _ _ _ (by decide), bitsAt, bitsAt]
  cases bad <;> simp <;> omega

/-- Once its coordinates are set and link 2 is UP, a chip reads them back (R308). -/
theorem UnitWork.coordsRead {L : List (Reg × Nat)} {s u : State} (h : UnitWork L s u) (halone : ∀ k ∈ [0, 1, 4, 5], (u.phy k).partner = none)
    {chip : Nat} (hchip : chip < 8192) (bad : Bool) {t : State} (ht : t = (u.setCoord 1 chip bad).linkGoUp 2) :
    t.linkUp 2 = true ∧ t.fld Fld.LNK_COORD_SOURCE 0 = 1 ∧ t.fld Fld.LNK_COORD_CHIP 0 = chip ∧ MemSame s t := by
  obtain ⟨hsource, hchip⟩ := bitsAt_coord bad hchip
  rw [State.setCoord_alone halone] at ht
  have hset (v : W32) := (h.weaken (l' := (.LNK_COORD, 0) :: L) (by simp +contextual)).setReg (r := .LNK_COORD) (i := 0) (by decide)
    List.mem_cons_self v
  have hroot (v : W32) := ((hset v).restart [(.SDL_STATUS, 0)]).settleRoot List.mem_cons_self
  have hup (v : W32) := ((hroot v).restart [(.LNK_STATUS, 2)]).linkStatus (l := 2) (by decide) (f := Fld.LNK_STATUS_STATE) rfl
    List.mem_cons_self lsUp
  have hrisen (v : W32) := (hroot v).linkGoUp (l := 2) (by decide)
  have hread (v : W32) (f : Fld) (hf : f.reg = .LNK_COORD) :
      (((u.setReg .LNK_COORD 0 v).settleRoot).linkGoUp 2).fld f 0 = bitsAt v.toNat f.lo f.width := by
    have hcount : 0 < f.reg.count := by rw [hf]; decide
    rw [(hrisen v).fld hcount (by simp [hf, risingRegs]), (hup v).fld hcount (by simp [hf]), (hroot v).fld hcount (by simp [hf]),
      State.fld, hf, State.reg_setReg_same _ _ _ _ h.wfRegs]
  subst ht
  exact ⟨(hroot _).linkUp_linkGoUp (by decide), (hread _ _ rfl).trans hsource, (hread _ _ rfl).trans hchip,
    (((hset _).mem.trans (hroot _).mem).trans (hup _).mem).trans (hrisen _).mem⟩

/-- Settles O42: each record is sent, judged or missed as its own rule says; a partner's bring-up reads its peer, a switch's the
coordinates. -/
theorem discoveryRecordsBringLinksUp : Obligations.DiscoveryRecordsBringLinksUp := by
  unfold Obligations.DiscoveryRecordsBringLinksUp
  intro s u l hs
  refine ⟨exec_discoverySend_due, fun q hup => exec_discoveryRecord_up hup q, ?_, ?_, exec_discoverySilence_falls⟩
  · intro q hstate hdisc hready hcoord hack hrack hown hcold hu
    have hjudged := exec_discoveryRecord_judges hs hstate hdisc hready hcoord hack hrack hown hcold
    refine ⟨fun r hr => ?_, fun hnone => ?_⟩
    · rw [hjudged, hr, hu]
      rfl
    · rw [hnone] at hjudged
      exact ⟨_, hjudged, State.partnerNoted_up hs l.isLt q _ rfl⟩
  · intro plane rack port hstate hdisc
    refine ⟨fun hplane => exec_switchRecord_swapped hstate hdisc hplane rack port, fun hl hplane hother h0 h1 h4 h5 => ?_⟩
    obtain ⟨v, x, bad, hexec⟩ := exec_switchRecord_brings hstate hdisc hl hplane hother rack port
    have hlinked (v : W32) (x : LinkSync) : UnitWork [(.LNK_PEER, 2)] s (((s.switched 2 plane rack port).setReg .LNK_PEER 2 v).setLink 2 x) :=
      (((UnitWork.refl _ hs).setPhy 2 _).setReg (by decide) List.mem_cons_self v).setLink 2 x
    have hphy (v : W32) (x : LinkSync) (k : Nat) (hk : k ≠ 2) :
        (((s.switched 2 plane rack port).setReg .LNK_PEER 2 v).setLink 2 x).phy k = s.phy k := State.phy_setPhy_other _ _ hk
    obtain ⟨hup, hsource, hchip, hmem⟩ := (hlinked v x).coordsRead (by
      intro k hk
      rw [hphy v x k (by rintro rfl; simp at hk)]
      simp only [List.mem_cons, List.not_mem_nil, or_false] at hk
      rcases hk with rfl | rfl | rfl | rfl <;> assumption) (chip := rack % 64 * 128 + port % 128) (by omega) bad rfl
    exact ⟨_, hexec, hup, by rw [State.hasCoord, hsource]; rfl, hsource, hchip, hmem⟩

end Sys2Proof.Machine
end

section
/-!
The decision on a request (R281, R286 to R288): what taking the head request of a plot does for each answer of the decision. Settles O33.
-/

namespace Sys2Proof.Machine
open Sys2Proof

/-- The state in which the head request of a plot is decided: its head and the task number have stepped (R281). -/
def State.requestTaken (s : State) (p : Nat) (q : Plot) : State :=
  ({ s.putLe (q.rings + ringAdmHead) 4 ((s.ringIx q ringAdmHead q.admOrder + 1) % 2 ^ q.admOrder) with
    admTurn := p, taskSeq := s.taskSeq + 1 } : State).noteWait p true

section
variable {s : State} {p : PlotIx} {q : Plot} {w : Nat} (hnext : s.admNext = some p.val) (hplot : s.plot p.val = some q)
  (hhead : s.headRequest p.val = some w)
include hnext hplot hhead

theorem exec_admissionRequest_refused (body : TaskBody) {reason tick : Nat}
    (h : (s.requestTaken p.val q).decide' (admReq p.val w) (admClean w) = .refused reason tick) :
    exec (.admissionRequest p body) s = .next ((s.requestTaken p.val q).refuse p.val (admReq p.val w).tag reason tick) := by
  show execAdmissionRequest p body s = _
  unfold execAdmissionRequest
  rw [if_neg (not_not.mpr hnext), hplot, hhead]
  dsimp only
  rw [← State.requestTaken, h]

/-- A placed request becomes a task, accepted at once where nothing needs a check and left checking where the check takes time (R288). -/
theorem exec_admissionRequest_placed (body : TaskBody) {start completion : Nat}
    (h : (s.requestTaken p.val q).decide' (admReq p.val w) (admClean w) = .at' start completion) :
    let u := s.requestTaken p.val q
    let t := Task.of (admReq p.val w) body (completion - start) start completion body.needsCheck false
    exec (.admissionRequest p body) s =
      if body.needsCheck = false then .next ((u.setTask u.taskSeq t).acceptTask u.taskSeq t)
      else if (u.setTask u.taskSeq t).checkFree' p.val body then .next ((u.setTask u.taskSeq t).endCheck u.taskSeq t)
      else .next (u.setTask u.taskSeq t) := by
  show execAdmissionRequest p body s = _
  unfold execAdmissionRequest
  rw [if_neg (not_not.mpr hnext), hplot, hhead]
  dsimp only
  rw [← State.requestTaken, h]

end

/-- A body with no stream and no group needs no check. -/
theorem TaskBody.needsCheck_eq_false {body : TaskBody} (hs : body.streams = []) (hg : body.group = none) : body.needsCheck = false := by
  simp [TaskBody.needsCheck, hs, hg]

theorem State.decide'_of_stopped {s : State} {r : AdmReq} (h : s.admStopped r.plot = true) (clean : Bool) :
    s.decide' r clean = .refused rfStopped 0 := by
  unfold State.decide'
  exact if_pos h

theorem State.decide'_of_unclean {s : State} {r : AdmReq} (h : s.admStopped r.plot = false) : s.decide' r false = .refused rfBadArg 0 := by
  unfold State.decide'
  rw [if_neg (by simp [h])]
  exact if_pos (by simp)

/-- The end of a check while the service pair runs (R288). -/
theorem exec_streamCheckEnd_checks {s : State} {tid : Nat} {t : Task} (hruns : s.serviceRuns = true) (ht : s.task tid = some t)
    (hcheck : t.checking = true) : exec (.streamCheckEnd tid) s = .next (s.endCheck tid t) := by
  show execStreamCheckEnd tid s = _
  unfold execStreamCheckEnd
  rw [State.byService_of_runs hruns, ht]
  exact if_pos hcheck

/-- Without a group descriptor the check turns on the streams alone. -/
theorem State.endCheck_of_no_group {s : State} {tid : Nat} {t : Task} (h : t.body.group = none) : s.endCheck tid t =
    match s.checkStreams t.plot tid t.body.streams with
    | none => ({ s with tasks := Table.del s.tasks tid } : State).refuse t.plot t.tag rfStream 0
    | some ctx => s.acceptTask tid { t with ctx := ctx, streams := ctx.map (·.1) } := by
  unfold State.endCheck
  refine (if_neg (by simp [h])).trans ?_
  rfl

/-- Settles O33: the request taken is refused, accepted or left checking as decided; the check's end then judges the streams. -/
theorem requestsAreDecidedAndAnswered : Obligations.RequestsAreDecidedAndAnswered := by
  unfold Obligations.RequestsAreDecidedAndAnswered
  intro s u p q w body hnext hplot hhead hu
  obtain rfl : u = s.requestTaken p.val q := hu
  refine ⟨fun reason tick h => exec_admissionRequest_refused hnext hplot hhead body h, fun start completion h => ⟨?_, ?_⟩, ?_, ?_, ?_⟩
  · intro hstreams hgroup
    have hplaced := exec_admissionRequest_placed hnext hplot hhead body h
    rw [TaskBody.needsCheck_eq_false hstreams hgroup] at hplaced
    exact hplaced
  · intro hcheck hfree
    have hplaced := exec_admissionRequest_placed hnext hplot hhead body h
    rw [hcheck] at hplaced
    dsimp only at hplaced
    rw [if_neg (by simp), if_neg (by simp [hfree])] at hplaced
    exact hplaced
  · intro hstate
    refine State.decide'_of_stopped (r := admReq p.val w) ?_ _
    exact Bool.or_eq_true_iff.mpr (.inr (bne_iff_ne.mpr hstate))
  · intro hstopped hclean
    rw [hclean]
    exact State.decide'_of_unclean (r := admReq p.val w) hstopped
  · intro tid t hruns ht hcheck hgroup
    have hends := (exec_streamCheckEnd_checks hruns ht hcheck).trans (congrArg Host.Outcome.next (State.endCheck_of_no_group hgroup))
    refine ⟨fun ctx hctx => ?_, fun hnone => ?_⟩
    · rw [hends, hctx]
    · rw [hends, hnone]
      rfl

end Sys2Proof.Machine
end

section
/-!
Connections of the field ports (R346 to R353): what opens, closes, times out or sends, and what a datagram or an acknowledgement leaves of
its connection. Settles O47.
-/

namespace Sys2Proof.Machine
open Sys2Proof

/-! ### What a connection reads back -/

theorem State.canonical_conns {s : State} (h : s.canonical = true) : Sparse.wf (fun _ => Conn.closed) s.conns = true := by
  simp only [State.canonical, Bool.and_eq_true, and_assoc] at h
  obtain ⟨-, -, -, -, -, -, -, -, -, hconns, -⟩ := h
  exact hconns

/-- Counting the open connections keeps them and memory. -/
theorem State.countOpen_keeps (s : State) : s.countOpen.conns = s.conns ∧ MemSame s s.countOpen := by
  have hstep (f : Fld) (a b : Nat) (u : State) : ((u.setFld f 0 a).setFld f 1 b).conns = u.conns ∧
      MemSame u ((u.setFld f 0 a).setFld f 1 b) := ⟨rfl, rfl, rfl, rfl⟩
  unfold State.countOpen
  rw [List.foldl_cons, List.foldl_cons, List.foldl_nil]
  exact hstep _ _ _ _

theorem State.mem_setConn (s : State) (i : Nat) (c : Conn) : MemSame s (s.setConn i c) := by
  have hset (conns : List (Nat × Conn)) : MemSame s { s with conns := conns } := ⟨rfl, rfl, rfl⟩
  unfold State.setConn
  exact (hset _).trans (State.countOpen_keeps _).2

theorem State.conns_setConn (s : State) (i : Nat) (c : Conn) :
    (s.setConn i c).conns = Sparse.set (fun _ => Conn.closed) s.conns i c := by
  unfold State.setConn
  exact (State.countOpen_keeps _).1

section
variable {s : State} (h : Sparse.wf (fun _ => Conn.closed) s.conns = true)
include h

theorem State.conn_setConn_same (i : Nat) (c : Conn) : (s.setConn i c).conn i = c := by
  rw [State.conn, State.conns_setConn]
  exact Sparse.get_set_same _ _ _ _ h

theorem State.wf_setConn (i : Nat) (c : Conn) : Sparse.wf (fun _ => Conn.closed) (s.setConn i c).conns = true := by
  rw [State.conns_setConn]
  exact Sparse.wf_set _ _ _ _ h

end

/-- The connections and memory are as before. -/
def ConnFrame (s u : State) : Prop := u.conns = s.conns ∧ u.mem = s.mem

section
variable {s u : State} (h : ConnFrame s u)
include h

theorem ConnFrame.setReg (r : Reg) (i : Nat) (v : W32) : ConnFrame s (u.setReg r i v) := h

theorem ConnFrame.setBit (f : Fld) (i : Nat) (b : Bool) : ConnFrame s (u.setBit f i b) := h

theorem ConnFrame.ite {v : State} {p : Prop} [Decidable p] (hv : ConnFrame s v) : ConnFrame s (if p then u else v) := by
  split
  · exact h
  · exact hv

end

/-- Recording a poisoned line keeps the connections and memory. -/
theorem State.recordEcc_keeps (s : State) (a kind : Nat) (scrub : Bool) : ConnFrame s (s.recordEcc a kind scrub) := by
  have hself : ConnFrame s s := ⟨rfl, rfl⟩
  unfold State.recordEcc
  split
  · exact hself
  next r t off _ =>
    have hreport : ConnFrame s (if t ≠ 0 ∧ kind ≠ 3 then { s with eccReports := s.eccReports ++ [a] } else s) :=
      ConnFrame.ite ⟨rfl, rfl⟩ hself
    exact (hreport.setBit _ _ _).ite ((hreport.setReg _ _ _).setReg _ _ _)

/-- A write keeps the connections, and memory holds what the store put there. -/
theorem State.putBytes_keeps (s : State) (a : Nat) (bs : List Byte) :
    (s.putBytes a bs).conns = s.conns ∧ (s.putBytes a bs).mem = (s.storeBytes a bs).1.mem := by
  have hstored : (s.storeBytes a bs).1.conns = s.conns := by
    obtain ⟨mem, hostMem, poison, h⟩ := StoredOnly.storeBytes s a bs
    rw [h]
  unfold State.putBytes
  split
  · next u line h =>
    obtain ⟨hconns, hmem⟩ := u.recordEcc_keeps line 3 false
    rw [h] at hstored
    exact ⟨hconns.trans hstored, hmem.trans (by rw [h])⟩
  · next u h =>
    rw [h] at hstored
    exact ⟨hstored, by rw [h]⟩

/-! ### Opening and closing (R346) -/

section
variable {s : State} {q : PortIx} {i : PeerIx} {e : Peer} (hup : s.portUp q.val = true) (hpeer : s.peer i.val = some e)
include hup

theorem exec_openConn_opens {epoch : Nat} (hpeer : s.peer i.val = some e) (hheard : s.heardFrom q.val i.val true epoch = true)
    (hstate : (s.conn i.val).state ≠ cnClosed) :
    exec (.openConn q i true (s.fld Fld.BOOT_STATUS_MAJOR 0) epoch) s =
      .next ((s.setConn i.val { s.conn i.val with state := cnOpen }).sendBare i.val .afithOpenAck epoch) := by
  show execOpenConn q i true _ epoch s = _
  unfold execOpenConn
  rw [if_neg (by simp [hup]), if_neg (by simp [hpeer]), if_neg (not_not.mpr rfl), if_neg (by simp [hheard, hstate])]

theorem exec_openConn_level {major epoch : Nat} (hpeer : s.peer i.val = some e) (hmajor : major ≠ s.fld Fld.BOOT_STATUS_MAJOR 0) :
    exec (.openConn q i true major epoch) s =
      .next (((s.closeConn i.val true).sendBare i.val .afithReset epoch).logEvent chipPlot 10 5 22 i.val) := by
  show execOpenConn q i true major epoch s = _
  unfold execOpenConn
  rw [if_neg (by simp [hup]), if_neg (by simp [hpeer]), if_pos hmajor]

theorem exec_openAck_opens {epoch : Nat} (hheard : s.heardFrom q.val i.val true epoch = true) (hstate : (s.conn i.val).state ≠ cnClosed) :
    exec (.openAck q i true epoch) s = .next (s.setConn i.val { s.conn i.val with state := cnOpen }) := by
  show execOpenAck q i true epoch s = _
  unfold execOpenAck
  rw [if_neg (by simp [hup]), if_neg (by simp [hheard, hstate])]

theorem exec_afithReset_closes {epoch : Nat} (hheard : s.heardFrom q.val i.val true epoch = true) :
    exec (.afithReset q i true epoch) s = .next (if (s.conn i.val).state = cnOpening
      then (s.logEvent chipPlot 10 5 22 i.val).closeConn i.val true else s.closeConn i.val false) := by
  show execAfithReset q i true epoch s = _
  unfold execAfithReset
  rw [if_neg (by simp [hup]), if_neg (by simp [hheard])]
  dsimp only
  by_cases hopening : (s.conn i.val).state = cnOpening
  · rw [if_pos hopening, beq_iff_eq.mpr hopening]
    rfl
  · rw [if_neg hopening, beq_eq_false_iff_ne.mpr hopening]
    rfl

end

section
variable {s : State} {i : PeerIx} {e : Peer} (hpeer : s.peer i.val = some e)
include hpeer

theorem exec_openRetry_starts (hstate : (s.conn i.val).state = cnClosed) (hup : s.portUp (e.port % 2) = true) :
    exec (.openRetry i) s = .next (s.startOpening i.val e) := by
  show execOpenRetry i s = _
  unfold execOpenRetry
  dsimp only
  rw [hpeer]
  exact if_pos ⟨hstate, hup⟩

theorem exec_openRetry_again (hstate : (s.conn i.val).state = cnOpening) (hdue : (s.conn i.val).lastOpen + 1000000 ≤ s.clock) :
    exec (.openRetry i) s =
      .next ((s.setConn i.val { s.conn i.val with lastOpen := s.clock }).sendBare i.val .afithOpen (s.conn i.val).epoch) := by
  show execOpenRetry i s = _
  unfold execOpenRetry
  dsimp only
  rw [hpeer]
  dsimp only
  rw [if_neg (by simp [hstate, cnOpening, cnClosed]), if_pos ⟨hstate, hdue⟩]

end

/-! ### A datagram (R347, R349) -/

/-- The connection after a datagram that needs no acknowledgement yet. -/
def Conn.heardData (c : Conn) (d : DataDgram) (clock : Nat) (fresh : Bool) : Conn :=
  let r := if fresh then advanceCum (c.landed.length + 1) c.cum (c.landed ++ [d.psn % 2 ^ 32]) else (c.cum, c.landed)
  { c with
    cum := r.1, landed := r.2, count := c.count + 1, ce := c.ce || d.ce
    highest := if fresh && decide (psnAbove d.psn c.highest < 2 ^ 31) then d.psn % 2 ^ 32 else c.highest
    since := some (c.since.getD clock) }

section
variable {s : State} {q : PortIx} {i : PeerIx} {e : Peer} {d : DataDgram} (hup : s.portUp q.val = true) (hpeer : s.peer i.val = some e)
  (hconn : d.conn = i) (hheld : s.hubHeld = false) (hheard : s.heardFrom q.val i.val d.known d.epoch = true)
  (hstate : (s.conn i.val).state = cnOpen) (hok : s.refusesDgram e d = false) (hlast : d.last = false)
  (hcount : (s.conn i.val).count + 1 < 16)
include hup hpeer hconn hheld hheard hstate hok hlast hcount

/-- A datagram within the map and not yet landed is written, once (R344, R347). -/
theorem exec_afithData_counts {fresh : Bool} (htyp : d.typ = 1)
    (hfresh : (decide (psnAbove d.psn (s.conn i.val).cum < connWindow) && !(s.conn i.val).landed.contains (d.psn % 2 ^ 32)) = fresh) :
    ∃ clock, exec (.afithData q d) s = .next ((if fresh then s.putBytes d.m.addr d.m.data else s).setConn i.val
      ((s.conn i.val).heardData d clock fresh)) := by
  subst hconn
  have htake : s.takeDgram e d = s.putBytes d.m.addr d.m.data := if_pos htyp
  have hkept : (if fresh then s.putBytes d.m.addr d.m.data else s).conn d.conn.val = s.conn d.conn.val := by
    split
    · exact congrArg (Sparse.get (fun _ => Conn.closed) · d.conn.val) (s.putBytes_keeps _ _).1
    · rfl
  refine ⟨(if fresh then s.putBytes d.m.addr d.m.data else s).clock, ?_⟩
  show execAfithData q d s = _
  unfold execAfithData
  dsimp only
  rw [if_neg (by simp [hup, hheld]), hpeer]
  dsimp only
  rw [if_neg (by simp [hheard, hstate, hok]), hfresh, htake, hkept, if_neg (by simp [hlast]; omega)]
  rfl

end

/-! ### An acknowledgement (R348) -/

/-- Entering measured round trips keeps what is outstanding and the state. -/
theorem Conn.foldl_measure_keeps (l : List Dgram) (now : Nat) (c : Conn) :
    (l.foldl (fun c x => c.measure now (now - x.first)) c).state = c.state := by
  induction l generalizing c with
  | nil => rfl
  | cons x l ih => exact ih _

/-- Pacing keeps what is outstanding, the state and memory. -/
theorem State.paceConn_keeps {s : State} (h : Sparse.wf (fun _ => Conn.closed) s.conns = true) (i : Nat) (ece : Bool) :
    ((s.paceConn i ece).conn i).unacked = (s.conn i).unacked ∧ ((s.paceConn i ece).conn i).state = (s.conn i).state ∧
      MemSame s (s.paceConn i ece) := by
  unfold State.paceConn
  dsimp only
  split
  · exact ⟨rfl, rfl, rfl, rfl, rfl⟩
  · rw [State.conn_setConn_same h]
    exact ⟨rfl, rfl, State.mem_setConn _ _ _⟩

/-- An acknowledgement of everything leaves the window empty and nothing to send again or to complete. -/
theorem State.takeAck_all {s : State} {i : Nat} {d : AckDgram}
    (hall : ∀ x, x ∈ (s.conn i).unacked → 2 ^ 31 ≤ psnAbove x.psn d.cum ∧ x.op = none ∧ x.command = none) :
    ∃ c : Conn, c.unacked = [] ∧ c.state = (s.conn i).state ∧ s.takeAck i d = (s.setConn i c).paceConn i d.ece := by
  unfold State.takeAck
  dsimp only
  have hgone : ∀ x ∈ (s.conn i).unacked, (decide (psnAbove x.psn d.cum ≥ 2 ^ 31) || (decide (0 < psnAbove x.psn d.cum) &&
      decide (psnAbove x.psn d.cum ≤ 64) && d.sack.testBit (psnAbove x.psn d.cum - 1))) = true := fun x hx => by
    rw [decide_eq_true (hall x hx).1, Bool.true_or]
  have hrest : (s.conn i).unacked.filter (fun x => !(decide (psnAbove x.psn d.cum ≥ 2 ^ 31) || (decide (0 < psnAbove x.psn d.cum) &&
      decide (psnAbove x.psn d.cum ≤ 64) && d.sack.testBit (psnAbove x.psn d.cum - 1)))) = [] :=
    List.filter_eq_nil_iff.mpr fun x hx => by rw [hgone x hx]; exact Bool.noConfusion
  have hcommands : (s.conn i).unacked.filterMap (·.command) = [] := List.filterMap_eq_nil_iff.mpr fun x hx => (hall x hx).2.2
  have hops : (s.conn i).unacked.filterMap (·.op) = [] := List.filterMap_eq_nil_iff.mpr fun x hx => (hall x hx).2.1
  rw [hrest, List.filter_eq_self.mpr hgone, hcommands, hops]
  simp only [List.take_nil, List.drop_nil, List.filter_nil, List.foldl_nil, List.eraseDups_nil]
  refine ⟨_, ?_, ?_, rfl⟩
  · rfl
  · exact Conn.foldl_measure_keeps _ _ _

section
variable {s : State} {i : PeerIx} (hstate : (s.conn i.val).state = cnOpen)
include hstate

theorem exec_afithAck_takes {q : PortIx} {d : AckDgram} (hup : s.portUp q.val = true) (hconn : d.conn = i) (hheld : s.hubHeld = false)
    (hheard : s.heardFrom q.val i.val d.known d.epoch = true) : exec (.afithAck q d) s = .next (s.takeAck i.val d) := by
  subst hconn
  show execAfithAck q d s = _
  unfold execAfithAck
  rw [if_neg (by simp [hup, hheld]), if_neg (by simp [hheard, hstate])]

/-! ### Timers (R347, R348) -/

theorem exec_ackTimer_sends {n : Nat} (hsince : (s.conn i.val).since = some n) (hdue : n + 10000 ≤ s.clock) :
    exec (.ackTimer i) s = .next (s.sendDgramAck i.val) := by
  show execAckTimer i s = _
  unfold execAckTimer
  rw [hsince]
  exact if_pos ⟨hstate, hdue⟩

theorem exec_retransmitTimeout_resends {psn : Nat} {x : Dgram}
    (hfind : ((s.conn i.val).unacked.take connWindow).find? (fun d => d.psn == psn) = some x)
    (hdue : x.sent + s.resendAfter i.val ≤ s.clock) (hagain : x.again < 16) :
    exec (.retransmitTimeout i psn) s = .next (s.resend i.val psn) := by
  show execRetransmitTimeout i psn s = _
  unfold execRetransmitTimeout
  dsimp only
  rw [if_neg (not_not.mpr hstate), hfind]
  exact if_neg (by omega)

theorem exec_giveUp_resets (hstuck : (s.conn i.val).unacked ≠ [] ∧ (s.conn i.val).advanced + 100000000 ≤ s.clock ∨
      ∃ x, x ∈ (s.conn i.val).unacked ∧ 16 ≤ x.again) :
    exec (.giveUp i) s = .next ((s.sendBare i.val .afithReset (s.conn i.val).epoch).closeConn i.val false) := by
  show execGiveUp i s = _
  unfold execGiveUp
  refine if_pos ⟨hstate, ?_⟩
  rcases hstuck with ⟨hne, hdue⟩ | ⟨x, hx, hagain⟩
  · simp [hne, hdue]
  · exact Bool.or_eq_true_iff.mpr (.inr (List.any_eq_true.mpr ⟨x, hx, decide_eq_true hagain⟩))

end

/-! ### FLD_SEND (R353) -/

section
variable {s u : State} {p : PlotIx} {c : Cmd} {e : Peer} (htake : s.take p.val 0x50 = some (c, u)) (hclean : c.cleanFrom 40 = true)
  (hseq : c.seqNo = 0) (hzero : c.arg 9 7 = 0) (hzero' : c.arg 28 4 = 0) (hpeer : u.peer (c.arg 8 1) = some e)
  (hendpoint : e.endpoint = true) (hplot : e.plot = p.val) (howns : u.ownsRange p.val (c.arg 16 8) (c.arg 24 4) = true)
  (halign : c.arg 24 4 % 16 = 0) (hsome : c.arg 24 4 ≠ 0) (hpoison : u.firstPoison (c.arg 16 8) (c.arg 24 4) = none)
include htake hclean hseq hzero hzero' hpeer hendpoint hplot howns halign hsome hpoison

theorem exec_fldSend_decides : exec (.fldSend p) s = .next (State.dropUnknown ringFuel (if (u.conn (c.arg 8 1)).state ≠ cnOpen
    then u.finishOpen c.id stFault else u.fldSend (c.arg 8 1) { Msg.to .write 7 p.val e.chip with
      src := u.chipNo, addr := c.arg 32 8, gen := u.chipTag, data := u.loadBytes (c.arg 16 8) (c.arg 24 4) } (some c.id) none)) := by
  have hmine : (u.peer (c.arg 8 1)).filter (fun e => e.endpoint && e.plot == p.val) = some e := by
    rw [hpeer]
    simp [hendpoint, hplot]
  show execFldSend p s = _
  unfold execFldSend
  rw [State.runCommand_taken htake (by simp [hclean, hseq, hzero, hzero'])]
  dsimp only
  rw [hmine]
  dsimp only
  rw [if_neg (by simp [howns, halign]), if_neg hsome, hpoison]
  rfl

end

/-- Settles O47: each datagram and timer does what its own rule says of the connection. -/
theorem connectionsOpenCarryAndClose : Obligations.ConnectionsOpenCarryAndClose := by
  unfold Obligations.ConnectionsOpenCarryAndClose
  intro s u q i e hs hup hpeer
  have hwf := State.canonical_conns hs
  refine ⟨fun epoch hheard => ⟨fun hstate => ⟨exec_openConn_opens hup hpeer hheard hstate, exec_openAck_opens hup hheard hstate⟩,
      fun hopen => ?_, fun hopening => ?_⟩, fun major epoch hmajor => exec_openConn_level hup hpeer hmajor, exec_openRetry_starts hpeer,
    exec_openRetry_again hpeer, ?_, ?_, fun hopen => ⟨fun n hsince hdue => exec_ackTimer_sends hopen hsince hdue,
      fun psn x hfind hdue hagain => exec_retransmitTimeout_resends hopen hfind hdue hagain, exec_giveUp_resets hopen⟩, ?_⟩
  · rw [exec_afithReset_closes hup hheard, if_neg (by rw [hopen]; decide)]
  · rw [exec_afithReset_closes hup hheard, if_pos hopening]
  · intro d hconn hheld hheard hopen hok hlast hcount htyp
    refine ⟨fun hwindow hnew => ?_, fun hold => ?_⟩
    · obtain ⟨clock, hexec⟩ := exec_afithData_counts hup hpeer hconn hheld hheard hopen hok hlast hcount (fresh := true) htyp
        (by rw [hnew, decide_eq_true hwindow]; rfl)
      rw [if_pos rfl] at hexec
      obtain ⟨hconns, hmem⟩ := s.putBytes_keeps d.m.addr d.m.data
      refine ⟨_, hexec, ((State.mem_setConn _ _ _).1).trans hmem, ?_⟩
      rw [State.conn_setConn_same (by rw [hconns]; exact hwf)]
      exact ⟨rfl, rfl⟩
    · obtain ⟨clock, hexec⟩ := exec_afithData_counts hup hpeer hconn hheld hheard hopen hok hlast hcount (fresh := false) htyp (by
        rcases hold with h | h
        · simp [Nat.not_lt.mpr h]
        · rw [h, Bool.not_true, Bool.and_false])
      rw [if_neg Bool.noConfusion] at hexec
      refine ⟨_, hexec, State.mem_setConn _ _ _, ?_⟩
      rw [State.conn_setConn_same hwf]
      exact ⟨rfl, rfl, rfl⟩
  · intro d hconn hheld hheard hopen hall
    obtain ⟨c, hempty, hstate, htaken⟩ := State.takeAck_all hall
    obtain ⟨hunacked, hkept, hmem⟩ := State.paceConn_keeps (State.wf_setConn hwf i.val c) i.val d.ece
    rw [State.conn_setConn_same hwf] at hunacked hkept
    exact ⟨_, (exec_afithAck_takes hopen hup hconn hheld hheard).trans (congrArg _ htaken), hunacked.trans hempty,
      hkept.trans (hstate.trans hopen), (State.mem_setConn _ _ _).trans hmem⟩
  · intro p c htake hclean hseq hzero hzero' hpeer' hendpoint hplot howns halign hsome hpoison
    have hsend := exec_fldSend_decides htake hclean hseq hzero hzero' hpeer' hendpoint hplot howns halign hsome hpoison
    refine ⟨fun hopen => ?_, fun hother => ?_⟩
    · rw [hsend, if_neg (not_not.mpr hopen)]
    · rw [hsend, if_pos hother]
      rfl

end Sys2Proof.Machine
end

section
/-!
Field ports and PTP at the root (R339 to R341, R346, R354, R355, R358): what a port's events make of it, the lock of the root and its
loss. Settles O48.
-/

namespace Sys2Proof.Machine
open Sys2Proof

/-! ### Ports -/

section
variable {s : State} {q : PortIx}

theorem exec_neighborSolicitation_answers (hup : s.portUp q.val = true) :
    exec (.neighborSolicitation q true) s = .next (s.sendPort q.val (Msg.to .neighbor 7 0 0)) ∧
      exec (.neighborSolicitation q false) s = .next (s.dropFrame q.val) := by
  have hfacts (own : Bool) : execNeighborSolicitation q own s =
      if own then .next (s.sendPort q.val (Msg.to .neighbor 7 0 0)) else .next (s.dropFrame q.val) := by
    unfold execNeighborSolicitation
    exact if_neg (by simp [hup])
  exact ⟨hfacts true, hfacts false⟩

theorem exec_pcsAlignmentLoss_downs (hup : s.portUp q.val = true) : exec (.pcsAlignmentLoss q) s =
    .next (((s.setFld Fld.FLD_STATUS_STATE q.val fpDown).losePort q.val).logEvent chipPlot 10 5 23 q.val) := by
  show execPcsAlignmentLoss q s = _
  unfold execPcsAlignmentLoss
  exact if_pos hup

theorem exec_fldRetrain_retrains {a : Agent} (hpriv : s.privOk a = true) (henabled : s.bit Fld.FLD_CONTROL_DISABLE q.val = false) :
    exec (.fldRetrain a q) s = .next (s.retrainPort q.val) := by
  show execFldRetrain a q s = _
  unfold execFldRetrain
  exact if_neg (by simp [hpriv, henabled])

theorem exec_fldDisable_retrains {a : Agent} (hpriv : s.privOk a = true) {v : Bool} (hchange : s.bit Fld.FLD_CONTROL_DISABLE q.val ≠ v) :
    exec (.fldDisable a q v) s = .next ((s.viaStore (s.setBit Fld.FLD_CONTROL_DISABLE q.val v)).retrainPort q.val) := by
  show execFldDisable a q v s = _
  unfold execFldDisable
  rw [if_neg (by simp [hpriv]), if_neg hchange]

/-- A port that has trained is UP, and its CLOSED connections enter OPENING (R346). -/
theorem exec_fieldPortUp_opens (htraining : s.fld Fld.FLD_STATUS_STATE q.val = fpTraining) : exec (.fieldPortUp q) s =
    .next ((s.peers.filter fun e => e.2.port % 2 == q.val && (s.conn e.1).state == cnClosed).foldl
      (fun s e => s.startOpening e.1 e.2) (s.setFld Fld.FLD_STATUS_STATE q.val fpUp)) := by
  have hkept (f : Fld) (i v : Nat) : (s.setFld f i v).peers = s.peers ∧ ∀ k, (s.setFld f i v).conn k = s.conn k := ⟨rfl, fun _ => rfl⟩
  obtain ⟨hpeers, hconn⟩ := hkept Fld.FLD_STATUS_STATE q.val fpUp
  show execFieldPortUp q s = _
  unfold execFieldPortUp
  rw [if_neg (not_not.mpr htraining)]
  dsimp only
  rw [hpeers]
  simp only [hconn]

end

/-! ### The lock of the root (R278, R355) -/

/-- LOCKED and PTP set as told, and the sundial's state. -/
def State.lockSet (s : State) (locked : Bool) (state : Nat) : State :=
  ((s.setBit Fld.FLD_PTP_STATUS_LOCKED 0 locked).setBit Fld.SDL_STATUS_PTP 0 locked).setFld Fld.SDL_STATUS_STATE 0 state

section
variable {l : List (Reg × Nat)} {s u : State} (h : UnitWork l s u)
include h

theorem UnitWork.lockSet (hptp : (.FLD_PTP_STATUS, 0) ∈ l) (hsdl : (.SDL_STATUS, 0) ∈ l) (locked : Bool) (state : Nat) :
    UnitWork l s (u.lockSet locked state) :=
  ((h.setBit (f := Fld.FLD_PTP_STATUS_LOCKED) (by decide) hptp _).setBit (f := Fld.SDL_STATUS_PTP) (by decide) hsdl _).setFld
    (f := Fld.SDL_STATUS_STATE) (by decide) hsdl _

theorem UnitWork.lockSet_reads (locked : Bool) (state : Nat) : (u.lockSet locked state).bit Fld.FLD_PTP_STATUS_LOCKED 0 = locked ∧
    (u.lockSet locked state).bit Fld.SDL_STATUS_PTP 0 = locked ∧ (u.lockSet locked state).fld Fld.SDL_STATUS_STATE 0 = state % 2 ^ 3 := by
  have hlocked := (h.restart [(.FLD_PTP_STATUS, 0)]).setBit (f := Fld.FLD_PTP_STATUS_LOCKED) (i := 0) (by decide) List.mem_cons_self locked
  have hptp := (hlocked.restart [(.SDL_STATUS, 0)]).setBit (f := Fld.SDL_STATUS_PTP) (i := 0) (by decide) List.mem_cons_self locked
  have hstate := hptp.setFld (f := Fld.SDL_STATUS_STATE) (i := 0) (by decide) List.mem_cons_self state
  unfold State.lockSet
  refine ⟨?_, ?_, State.fld_setFld_same _ Fld.SDL_STATUS_STATE 0 state hptp.wfRegs (by decide)⟩
  · rw [hstate.bit (f := Fld.FLD_PTP_STATUS_LOCKED) (by decide) (by simp [Fld.FLD_PTP_STATUS_LOCKED]),
      State.bit_setBit_same _ _ _ _ h.wfRegs (by decide) (by decide)]
  · rw [State.bit, State.fld_setFld_beside _ Fld.SDL_STATUS_STATE Fld.SDL_STATUS_PTP 0 state hptp.wfRegs rfl (by decide) (by decide)]
    exact State.bit_setBit_same _ Fld.SDL_STATUS_PTP 0 locked hlocked.wfRegs (by decide) (by decide)

end

theorem State.lockSet_keeps (s : State) (locked : Bool) (state : Nat) :
    (s.lockSet locked state).ptp = s.ptp ∧ (s.lockSet locked state).slew = s.slew := by
  have hset (f g k : Fld) (a b : Bool) (c : Nat) : (((s.setBit f 0 a).setBit g 0 b).setFld k 0 c).ptp = s.ptp ∧
      (((s.setBit f 0 a).setBit g 0 b).setFld k 0 c).slew = s.slew := ⟨rfl, rfl⟩
  unfold State.lockSet
  exact hset _ _ _ _ _ _

/-- A locked root that loses PTP (R278). -/
theorem State.ptpLoss_locked {s : State} (h : s.bit Fld.FLD_PTP_STATUS_LOCKED 0 = true) :
    s.ptpLoss = (s.lockSet false sdHoldover).logEvent chipPlot 11 5 24 0 := by
  unfold State.ptpLoss
  exact if_neg (by simp [h])

/-- PTP as the root keeps it after a Sync, with PORT and OFFSET (R354). -/
def State.syncNoted (s : State) (q : PortIx) (f : PtpSync) (good bad : Nat) : State :=
  (({ s with
    ptp := ⟨some f.master, good, bad, s.clock, f.interval⟩ } : State).setBit Fld.FLD_PTP_STATUS_PORT 0 (q.val == 1)).setFld
      Fld.FLD_PTP_STATUS_OFFSET 0 (ptpOffset f.offset)

/-- The root slews toward PTP time, or past 4,096 ticks drops its work and steps (R271, R354). -/
def State.syncFollowed (s : State) (f : PtpSync) : State :=
  if 4096 * 64 < f.offset.natAbs then
    let s := if s.holdsWork then s.dropWork else s
    let s := s.stepBy (-2 * f.offset)
    { s with ptp := { s.ptp with last := s.clock, good := 0 } }
  else { s with slew := (-f.offset).tdiv 64 }

/-- Sixteen good Syncs lock the root (R355). -/
def State.lockedIfGood (s : State) : State := if 16 ≤ s.ptp.good then s.lockSet true sdSync else s

/-- A Sync that the root takes (R354, R355). -/
def State.syncTaken (s : State) (q : PortIx) (f : PtpSync) : State :=
  let same := s.ptp.master == some f.master
  let good := if f.offset.natAbs ≤ 20 * 64 then (if same then s.ptp.good else 0) + 1 else 0
  let bad := if 50 * 64 < f.offset.natAbs then (if same then s.ptp.bad else 0) + 1 else 0
  let followed := if s.ptp.master.any (· != f.master) then s.ptpLoss else s
  (((if 4 ≤ bad then followed.ptpLoss else followed).syncNoted q f good bad).syncFollowed f).lockedIfGood

section
variable {s : State} {q : PortIx} {f : PtpSync} (hup : s.portUp q.val = true) (hroot : s.isRoot = true) (huse : s.ptpUse = true)
  (hport : q.val = s.ptpPort) (hdomain : f.domain = s.ptpDomain) (hlo : 62500000 ≤ f.interval) (hhi : f.interval ≤ 1000000000)
include hup hroot huse hport hdomain hlo hhi

theorem exec_ptpSync_takes : exec (.ptpSync q f) s = .next (s.syncTaken q f) := by
  have hserves : ¬ (!s.isRoot || !s.ptpUse || q.val != s.ptpPort || f.domain != s.ptpDomain || decide (f.interval < 62500000) ||
      decide (1000000000 < f.interval)) = true := by
    simp [hroot, huse, hport, hdomain]
    omega
  have hend (u : State) : (if 16 ≤ u.ptp.good then
      Host.Outcome.next (((u.setBit Fld.FLD_PTP_STATUS_LOCKED 0 true).setBit Fld.SDL_STATUS_PTP 0 true).setFld Fld.SDL_STATUS_STATE 0 sdSync)
    else Host.Outcome.next u) = (Host.Outcome.next u.lockedIfGood : Res) := by
    unfold State.lockedIfGood
    split <;> rfl
  show execPtpSync q f s = _
  unfold execPtpSync
  exact (if_neg (by simp [hup])).trans ((if_neg hserves).trans (hend _))

end

/-- Within 4,096 ticks the root slews by the offset (R354). -/
theorem State.syncFollowed_near {f : PtpSync} (h : f.offset.natAbs ≤ 1280) (s : State) :
    s.syncFollowed f = { s with slew := (-f.offset).tdiv 64 } := by
  unfold State.syncFollowed
  exact if_neg (by omega)

/-- A root locked by a good Sync. -/
def State.syncLocked (s : State) (q : PortIx) (f : PtpSync) : State :=
  ({ s.syncNoted q f (s.ptp.good + 1) 0 with slew := (-f.offset).tdiv 64 } : State).lockSet true sdSync

/-- The sixteenth good Sync in a row of the followed grandmaster locks the root (R355). -/
theorem State.syncTaken_locks {s : State} {f : PtpSync} (hmaster : s.ptp.master = some f.master) (hoffset : f.offset.natAbs ≤ 1280)
    (hgood : 15 ≤ s.ptp.good) (q : PortIx) : s.syncTaken q f = s.syncLocked q f := by
  have hkept : (s.syncNoted q f (s.ptp.good + 1) 0).ptp.good = s.ptp.good + 1 := by
    unfold State.syncNoted
    rw [State.ptp_setFld, State.ptp_setBit]
  unfold State.syncTaken State.lockedIfGood State.syncLocked
  dsimp only
  have hsame : (some f.master == some f.master) = true := by simp
  have hfollowed : ¬ (some f.master).any (· != f.master) = true := by simp
  rw [if_neg (show ¬ 50 * 64 < f.offset.natAbs by omega), if_neg (show ¬ 4 ≤ 0 by decide), hmaster, if_neg hfollowed,
    if_pos (show f.offset.natAbs ≤ 20 * 64 from hoffset), if_pos hsame, State.syncFollowed_near hoffset]
  refine if_pos ?_
  show 16 ≤ (s.syncNoted q f (s.ptp.good + 1) 0).ptp.good
  rw [hkept]
  omega

theorem UnitWork.syncNoted {s : State} (hs : s.canonical = true) (q : PortIx) (f : PtpSync) (good bad : Nat) (slew : Int) :
    UnitWork [(.FLD_PTP_STATUS, 0), (.SDL_STATUS, 0)] s { s.syncNoted q f good bad with slew := slew } := by
  have hself := UnitWork.refl [(.FLD_PTP_STATUS, 0), (.SDL_STATUS, 0)] hs
  have hptp (x : Ptp) : UnitWork [(.FLD_PTP_STATUS, 0), (.SDL_STATUS, 0)] s { s with ptp := x } :=
    ⟨hself.wfRegs, hself.wfBlocks, hself.regs, hself.mem⟩
  have hslew {u : State} (h : UnitWork [(.FLD_PTP_STATUS, 0), (.SDL_STATUS, 0)] s u) (x : Int) :
      UnitWork [(.FLD_PTP_STATUS, 0), (.SDL_STATUS, 0)] s { u with slew := x } := ⟨h.wfRegs, h.wfBlocks, h.regs, h.mem⟩
  unfold State.syncNoted
  exact hslew (((hptp _).setBit (f := Fld.FLD_PTP_STATUS_PORT) (by decide) List.mem_cons_self _).setFld (f := Fld.FLD_PTP_STATUS_OFFSET)
    (by decide) List.mem_cons_self _) _

/-- What a root locked by a good Sync reads back. -/
theorem State.syncLocked_reads {s : State} (hs : s.canonical = true) (q : PortIx) (f : PtpSync) {t : State} (ht : t = s.syncLocked q f) :
    t.bit Fld.FLD_PTP_STATUS_LOCKED 0 = true ∧ t.bit Fld.SDL_STATUS_PTP 0 = true ∧ t.fld Fld.SDL_STATUS_STATE 0 = sdSync ∧
      t.slew = (-f.offset).tdiv 64 ∧ t.ptp = ⟨some f.master, s.ptp.good + 1, 0, s.clock, f.interval⟩ ∧
      RegsKept s t [(.FLD_PTP_STATUS, 0), (.SDL_STATUS, 0)] ∧ MemSame s t := by
  have hnoted := UnitWork.syncNoted hs q f (s.ptp.good + 1) 0 ((-f.offset).tdiv 64)
  have hwork := hnoted.lockSet List.mem_cons_self (by simp) true sdSync
  obtain ⟨hlocked, hptp, hstate⟩ := hnoted.lockSet_reads true sdSync
  obtain ⟨hkept, hslew⟩ := State.lockSet_keeps { s.syncNoted q f (s.ptp.good + 1) 0 with slew := (-f.offset).tdiv 64 } true sdSync
  have hsync : (s.syncNoted q f (s.ptp.good + 1) 0).ptp = ⟨some f.master, s.ptp.good + 1, 0, s.clock, f.interval⟩ := by
    unfold State.syncNoted
    rw [State.ptp_setFld, State.ptp_setBit]
  subst ht
  exact ⟨hlocked, hptp, hstate, hslew, hkept.trans hsync, hwork.regs, hwork.mem⟩

/-- Eight intervals without a valid Sync lose the lock (R355). -/
theorem exec_ptpLockLoss_loses {s : State} (hmaster : s.ptp.master.isSome = true) (hlate : s.ptp.last + 8 * s.ptp.interval ≤ s.clock)
    (hlocked : s.bit Fld.FLD_PTP_STATUS_LOCKED 0 = true) : exec .ptpLockLoss s =
      .next { (s.lockSet false sdHoldover).logEvent chipPlot 11 5 24 0 with ptp := { s.ptp with good := 0, bad := 0 } } := by
  have hloss : execPtpLockLoss s = .next { s.ptpLoss with ptp := { s.ptp with good := 0, bad := 0 } } := by
    unfold execPtpLockLoss
    exact if_pos ⟨hmaster, hlate⟩
  show execPtpLockLoss s = _
  rw [hloss, State.ptpLoss_locked hlocked]

/-- What a root that lost the lock reads back. -/
theorem State.lockLost_reads {s : State} (hs : s.canonical = true) (x : Ptp) {t : State}
    (ht : t = { (s.lockSet false sdHoldover).logEvent chipPlot 11 5 24 0 with ptp := x }) :
    t.bit Fld.FLD_PTP_STATUS_LOCKED 0 = false ∧ t.bit Fld.SDL_STATUS_PTP 0 = false ∧ t.fld Fld.SDL_STATUS_STATE 0 = sdHoldover ∧
      t.ptp = x ∧ MemSame s t := by
  have hself := UnitWork.refl [(.FLD_PTP_STATUS, 0), (.SDL_STATUS, 0)] hs
  have hset := hself.lockSet List.mem_cons_self (by simp) false sdHoldover
  obtain ⟨hlocked, hptp, hstate⟩ := hself.lockSet_reads false sdHoldover
  have hlogged := (hset.restart [(.HUB_LOG_LOST, 0)]).logEvent List.mem_cons_self chipPlot 11 5 24 0
  have hkept (u : State) (f : Fld) (i : Nat) : ({ u with ptp := x } : State).fld f i = u.fld f i ∧
      ({ u with ptp := x } : State).bit f i = u.bit f i ∧ ({ u with ptp := x } : State).ptp = x ∧ MemSame u { u with ptp := x } :=
    ⟨rfl, rfl, rfl, rfl, rfl, rfl⟩
  subst ht
  refine ⟨?_, ?_, ?_, (hkept _ Fld.SDL_STATUS_STATE 0).2.2.1, (hset.mem.trans hlogged.mem).trans (hkept _ Fld.SDL_STATUS_STATE 0).2.2.2⟩
  · rw [(hkept _ _ _).2.1, hlogged.bit (f := Fld.FLD_PTP_STATUS_LOCKED) (by decide) (by simp [Fld.FLD_PTP_STATUS_LOCKED]), hlocked]
  · rw [(hkept _ _ _).2.1, hlogged.bit (f := Fld.SDL_STATUS_PTP) (by decide) (by simp [Fld.SDL_STATUS_PTP]), hptp]
  · rw [(hkept _ _ _).1, hlogged.fld (f := Fld.SDL_STATUS_STATE) (by decide) (by simp [Fld.SDL_STATUS_STATE]), hstate]
    rfl

/-- Settles O48: each event of a port and of PTP does what its own rule says; the lock and its loss read back field by field. -/
theorem fieldPortsAndTimeOfTheRoot : Obligations.FieldPortsAndTimeOfTheRoot := by
  unfold Obligations.FieldPortsAndTimeOfTheRoot
  intro s q hs
  refine ⟨fun hup => ⟨(exec_neighborSolicitation_answers hup).1, (exec_neighborSolicitation_answers hup).2, exec_pcsAlignmentLoss_downs hup⟩,
    fun a hpriv => ⟨exec_fldRetrain_retrains hpriv, fun v => exec_fldDisable_retrains hpriv⟩, fun htraining => ⟨fun hpeers => ?_,
    fun k e hpeers hport hclosed => ?_⟩, ?_, fun hmaster hlate hlocked => ?_⟩
  · rw [exec_fieldPortUp_opens htraining, hpeers]
    rfl
  · rw [exec_fieldPortUp_opens htraining, hpeers, List.filter_cons_of_pos (by simp [hport, hclosed])]
    rfl
  · intro f hup hroot huse hport hdomain hlo hhi hmaster hoffset hgood
    have htaken := exec_ptpSync_takes hup hroot huse hport hdomain hlo hhi
    rw [State.syncTaken_locks hmaster hoffset hgood] at htaken
    exact ⟨_, htaken, State.syncLocked_reads hs q f rfl⟩
  · obtain ⟨hunlocked, hptp, hstate, hkept, hmem⟩ := State.lockLost_reads hs { s.ptp with good := 0, bad := 0 } rfl
    exact ⟨_, exec_ptpLockLoss_loses hmaster hlate hlocked, hunlocked, hptp, hstate, by rw [hkept], by rw [hkept], hmem⟩

end Sys2Proof.Machine
end

section
/-!
Plot commands (R359 to R370): a mailbox command that runs for a plot takes its effect in the states that allow it and completes with STATE
in any other. Settles O49.
-/

namespace Sys2Proof.Machine
open Sys2Proof

section
variable {s : State} {op n p : Nat} {states : List Nat} {ok : Cmd → Bool} {body : Cmd → Nat → State → State}

/-- A plot command whose arguments are in range runs by the plot's state (R360). -/
theorem State.runPlot_runs (h : PlotCommand s op n p) (hok : ok s.mboxCommand = true) : s.runPlot op states ok body =
    if states.contains (s.fld Fld.PLT_STATE_STATE p) then body s.mboxCommand p s else s.mboxOpen stState := by
  obtain ⟨⟨hbusy, hheld, hfw, hop⟩, rfl, hp, -⟩ := h
  unfold State.runPlot State.runMbox
  dsimp only
  rw [if_neg (by simp [hbusy, hheld, hfw, hop]), if_pos (by simp [hp, hok])]

theorem State.runPlot_allowed (h : PlotCommand s op n p) (hok : ok s.mboxCommand = true)
    (hstate : s.fld Fld.PLT_STATE_STATE p ∈ states) : s.runPlot op states ok body = body s.mboxCommand p s := by
  rw [State.runPlot_runs h hok, if_pos (List.contains_iff_mem.mpr hstate)]

theorem State.runPlot_barred (h : PlotCommand s op n p) (hok : ok s.mboxCommand = true)
    (hstate : s.fld Fld.PLT_STATE_STATE p ∉ states) : s.runPlot op states ok body = s.mboxOpen stState := by
  rw [State.runPlot_runs h hok, if_neg (mt List.contains_iff_mem.mp hstate)]

theorem PlotCommand.clean (h : PlotCommand s op n p) : s.mboxCommand.mboxClean n = true := h.2.2.2

end

section
variable {s : State} {p : Nat} {c : Cmd} (hc : c = s.mboxCommand)
include hc

/-! ### PLOT_CREATE (R361, R362) -/

theorem exec_plotCreate_makes {r : PlotRecord} (h : PlotCommand s 1 16 p) (hr : r = ⟨s.readHost (c.arg 8 8) 128⟩)
    (hfree : s.fld Fld.PLT_STATE_STATE p = plFree) (hok : s.recordOk p r = true) (hshares : s.sharesWindows p r.build = false)
    (howned : ((maskBlocks r.blocks).any fun b => (s.ownerOfBlock b).isSome) = false) :
    exec .plotCreate s = .next ((s.viaStore (s.makePlot p r true)).mboxOpen stOk) := by
  subst hc hr
  show execPlotCreate s = _
  unfold execPlotCreate
  rw [State.runPlot_allowed h h.clean (by simp [hfree])]
  dsimp only
  rw [if_neg (by simp [hok]), if_neg (by rw [hshares, howned]; exact Bool.noConfusion)]

omit hc in
theorem exec_plotCreate_barred (h : PlotCommand s 1 16 p) (hstate : s.fld Fld.PLT_STATE_STATE p ≠ plFree) :
    exec .plotCreate s = .next (s.mboxOpen stState) := by
  show execPlotCreate s = _
  unfold execPlotCreate
  rw [State.runPlot_barred h h.clean (by simpa using hstate)]

/-! ### PLOT_SET, PLOT_GROW, PLOT_SHRINK (R365 to R367) -/

section
variable (hstate : s.fld Fld.PLT_STATE_STATE p ∈ [plActive, plStopped])
include hstate

theorem exec_plotSet_stores {r : Reg} {o : Nat} (h : PlotCommand s 2 16 p) (hzero : c.arg 9 3 = 0)
    (hreg : policyRegs[c.arg 8 1]? = some (r, o)) (hrange : c.arg 8 1 ≤ 5) (hok : s.policyStatus r p (c.arg 12 4) = stOk) :
    exec .plotSet s = .next ((s.viaStore (s.setReg r p (BitVec.ofNat 32 (c.arg 12 4)))).mboxOpen stOk) := by
  subst hc
  show execPlotSet s = _
  unfold execPlotSet
  rw [State.runPlot_allowed h (by simp [h.clean, hzero, hrange]) hstate]
  dsimp only
  rw [hreg]
  dsimp only
  rw [if_pos hok]

theorem exec_plotSet_compat (h : PlotCommand s 2 16 p) (hzero : c.arg 9 3 = 0) (hcompat : c.arg 8 1 = 5) (hv : c.arg 12 4 ≤ 1) :
    exec .plotSet s = .next (if (maskBlocks (s.fld Fld.PLT_BLOCKS_BLOCKS p)).any s.blockBusy then s.mboxOpen stBusy else
      (s.viaStore ((maskBlocks (s.fld Fld.PLT_BLOCKS_BLOCKS p)).foldl (fun s b =>
        (s.setFld Fld.SFU_MODE_COMPAT b (c.arg 12 4)).setFld Fld.SFU_STATUS_COMPAT b (c.arg 12 4))
        (s.setFld Fld.PLT_STATE_COMPAT p (c.arg 12 4)))).mboxOpen stOk) := by
  subst hc
  have hnone : policyRegs[s.mboxCommand.arg 8 1]? = none := by rw [hcompat]; rfl
  show execPlotSet s = _
  unfold execPlotSet
  rw [State.runPlot_allowed h (by simp [h.clean, hzero, hcompat]) hstate]
  dsimp only
  rw [hnone]
  dsimp only
  rw [if_neg (Nat.not_lt.mpr hv)]

theorem exec_plotGrow_grows (h : PlotCommand s 3 12 p) (hfree : ((maskBlocks (c.arg 8 4)).any fun b => (s.ownerOfBlock b).isSome) = false) :
    exec .plotGrow s = .next ((s.viaStore (((maskBlocks (c.arg 8 4)).foldl (fun s b => s.dressBlock p b) s).setBlocks p
      (Nat.lor (s.fld Fld.PLT_BLOCKS_BLOCKS p) (c.arg 8 4)))).mboxOpen stOk) := by
  subst hc
  show execPlotGrow s = _
  unfold execPlotGrow
  rw [State.runPlot_allowed h h.clean hstate]
  dsimp only
  rw [if_neg (by rw [hfree]; exact Bool.noConfusion)]

/-- The blocks that drain before they are released (R366). -/
def State.drains (s : State) (p m : Nat) : State :=
  s.setFld Fld.PLT_PENDING_DRAINING p (Nat.lor (s.fld Fld.PLT_PENDING_DRAINING p) m)

theorem exec_plotShrink_drains {loads : List SfuRun} (h : PlotCommand s 4 12 p)
    (hmine : Nat.land (c.arg 8 4) (s.fld Fld.PLT_BLOCKS_BLOCKS p) = c.arg 8 4) :
    exec (.plotShrink loads) s = .next (if s.blocksHeld (c.arg 8 4) then s.drains p (c.arg 8 4) else
      ((s.drains p (c.arg 8 4)).viaStore ((s.drains p (c.arg 8 4)).freeBlocks p (c.arg 8 4) loads)).mboxOpen stOk) := by
  subst hc
  have hheld (f : Fld) (i v m : Nat) : (s.setFld f i v).blocksHeld m = s.blocksHeld m := rfl
  show execPlotShrink loads s = _
  unfold execPlotShrink
  rw [State.runPlot_allowed h h.clean hstate]
  dsimp only
  rw [if_neg (not_not.mpr hmine), hheld]
  rfl

/-! ### GROUP_SET (R321, R370) -/

section
variable (h : PlotCommand s 9 32 p) (hzero : c.arg 9 7 = 0) (hmine : ∀ x, s.colGroup (c.arg 8 1) = some x → x.plot = p)
  (hidle : (s.chains.any fun e => e.2.plot == p && e.2.ops.any fun d => d.group == c.arg 8 1) = false)
include h hzero hmine hidle

theorem exec_groupSet_sets {l : List Nat} {v : Nat × Nat × List Nat} (hl : l = s.memberList (c.arg 16 8))
    (hv : v = (if c.arg 24 8 = 0 then (0, 0, []) else s.siteList (c.arg 24 8))) :
    exec .groupSet s = .next (if l.isEmpty then (s.viaStore { s with colGroups := Table.del s.colGroups (c.arg 8 1) }).mboxOpen stOk
      else if 8192 < l.length ∨ l.eraseDups.length ≠ l.length ∨ l.length ≤ l.findIdx (· == s.chipNo) ∨
        (c.arg 24 8 ≠ 0 ∧ (v.1 < 2 ∨ 16 < v.1 ∨ v.1 ≤ v.2.1)) then s.mboxOpen stBadArg
      else (s.viaStore (s.setGroup (c.arg 8 1)
        ⟨p, l, l.findIdx (· == s.chipNo), 0, 0, v.1, v.2.1, v.2.2, none, []⟩)).mboxOpen stOk) := by
  subst hc hl hv
  have hshared : ¬ ((s.colGroup (s.mboxCommand.arg 8 1)).any fun x => x.plot != p) = true := by
    rw [Option.any_eq_true_iff_get]
    rintro ⟨hsome, hne⟩
    exact (bne_iff_ne.mp hne) (hmine _ (Option.some_get hsome).symm)
  show execGroupSet s = _
  unfold execGroupSet
  rw [State.runPlot_allowed h (by simp [h.clean, hzero]) hstate]
  dsimp only
  rw [if_neg hshared, if_neg (by rw [hidle]; exact Bool.noConfusion)]

end

end

/-! ### PLOT_STOP and PLOT_START (R360, R369) -/

omit hc in
theorem exec_plotStop_stops (h : PlotCommand s 5 8 p) : exec .plotStop s = .next (if s.fld Fld.PLT_STATE_STATE p = plActive
    then (s.setFld Fld.PLT_STATE_STATE p plStopped).mboxOpen stOk else s.mboxOpen stState) := by
  show execPlotStop s = _
  unfold execPlotStop
  split
  · next hstate => rw [State.runPlot_allowed h h.clean (by simp [hstate])]
  · next hstate => rw [State.runPlot_barred h h.clean (by simpa using hstate)]

omit hc in
theorem exec_plotStart_starts (h : PlotCommand s 6 8 p) : exec .plotStart s = .next (if s.fld Fld.PLT_STATE_STATE p = plStopped
    then (s.setFld Fld.PLT_STATE_STATE p plActive).mboxOpen stOk else s.mboxOpen stState) := by
  show execPlotStart s = _
  unfold execPlotStart
  split
  · next hstate => rw [State.runPlot_allowed h h.clean (by simp [hstate])]
  · next hstate => rw [State.runPlot_barred h h.clean (by simpa using hstate)]

/-! ### PLOT_RESIZE and PLOT_DESTROY (R364, R369) -/

theorem exec_plotResize_resizes {q : Plot} {r : PlotRecord} (h : PlotCommand s 7 16 p) (hstate : s.fld Fld.PLT_STATE_STATE p = plStopped)
    (hq : s.plot p = some q) (hr : r = ⟨s.readHost (c.arg 8 8) 128⟩) (hhead : r.bytes.take 8 = (s.plotRecord p q).take 8)
    (htail : r.bytes.drop 0x34 = (s.plotRecord p q).drop 0x34) (hranges : r.build.rangesOk = true)
    (hsegments : s.segmentsValid r.build = true) (hareas : (s.setPlot p r.build).areasOk p r.build = true)
    (hshares : s.sharesWindows p r.build = false) (hbusy : s.plotBusy p = false) (hframes : s.framesStranded p r.build = false) :
    exec .plotResize s = .next ((s.viaStore (s.resizePlot p q r.build)).mboxOpen stOk) := by
  subst hc hr
  show execPlotResize s = _
  unfold execPlotResize
  rw [State.runPlot_allowed h h.clean (by simp [hstate])]
  dsimp only
  rw [hq]
  dsimp only
  rw [if_neg (by simp [hhead, htail, hranges, hsegments, hareas]), if_neg (by simp [hshares]), if_neg (by simp [hbusy, hframes])]

omit hc in
theorem exec_plotDestroy_destroys {loads : List SfuRun} {q : Plot} (h : PlotCommand s 8 8 p)
    (hstate : s.fld Fld.PLT_STATE_STATE p = plStopped) (hq : s.plot p = some q) :
    exec (.plotDestroy loads) s = .next (if s.plotBusy p then s.mboxOpen stBusy else
      (s.viaStore (((((s.destroyStep1 p).setFld Fld.PLT_STATE_STATE p plClearing).destroyStep2 p).destroyStep3 p).destroyStep5 p q
        loads)).mboxOpen stOk) := by
  show execPlotDestroy loads s = _
  unfold execPlotDestroy
  rw [State.runPlot_allowed h h.clean (by simp [hstate])]
  dsimp only
  rw [hq]

omit hc in
theorem exec_plotDestroy_barred {loads : List SfuRun} (h : PlotCommand s 8 8 p) (hstate : s.fld Fld.PLT_STATE_STATE p ≠ plStopped) :
    exec (.plotDestroy loads) s = .next (s.mboxOpen stState) := by
  show execPlotDestroy loads s = _
  unfold execPlotDestroy
  rw [State.runPlot_barred h h.clean (by simpa using hstate)]

end

/-- A group whose members hold this chip has a first place for it. -/
theorem findIdx_lt_of_mem {l : List Nat} {k : Nat} (h : k ∈ l) : l.findIdx (· == k) < l.length :=
  List.findIdx_lt_length_of_exists ⟨k, h, beq_self_eq_true k⟩

/-- Settles O49: each command takes its effect where the plot's state allows it, and completes with STATE where it does not. -/
theorem plotCommandsCompleteInTheirStates : Obligations.PlotCommandsCompleteInTheirStates := by
  unfold Obligations.PlotCommandsCompleteInTheirStates
  intro s p c hc
  refine ⟨fun r h hr => ⟨exec_plotCreate_makes hc h hr, exec_plotCreate_barred h⟩, fun hstate => ?_, fun h => ⟨?_, ?_⟩,
    fun h => ⟨?_, ?_⟩, fun q r h => exec_plotResize_resizes hc h, fun loads h => ⟨fun q hstate hq => ⟨fun hbusy => ?_, fun hidle => ?_⟩,
      exec_plotDestroy_barred h⟩⟩
  · have hmem : s.fld Fld.PLT_STATE_STATE p ∈ [plActive, plStopped] := by simpa using hstate
    refine ⟨fun r o => exec_plotSet_stores hc hmem, fun h hzero hcompat hv => ⟨fun hbusy => ?_, fun hidle => ?_⟩,
      exec_plotGrow_grows hc hmem, fun loads u h hmine hu => ⟨fun hheld => ?_, fun hfree => ?_⟩,
      fun l v h hzero hmine hidle hl hv => ⟨fun hempty => ?_, fun hself hlen hdup hsites => ?_⟩⟩
    · rw [exec_plotSet_compat hc hmem h hzero hcompat hv, if_pos hbusy]
      rfl
    · rw [exec_plotSet_compat hc hmem h hzero hcompat hv, if_neg (by rw [hidle]; exact Bool.noConfusion)]
      rfl
    · rw [exec_plotShrink_drains hc hmem h hmine, if_pos hheld, hu]
      rfl
    · rw [exec_plotShrink_drains hc hmem h hmine, if_neg (by rw [hfree]; exact Bool.noConfusion), hu]
      rfl
    · rw [exec_groupSet_sets hc hmem h hzero hmine hidle hl hv, hempty]
      rfl
    · have hfirst := findIdx_lt_of_mem hself
      have hsome : ¬ l.isEmpty = true := by
        rw [List.isEmpty_iff]
        rintro rfl
        exact absurd hself List.not_mem_nil
      rw [exec_groupSet_sets hc hmem h hzero hmine hidle hl hv, if_neg hsome, if_neg]
      · rfl
      · rintro (hlong | hdup' | hlate | ⟨hne, hbad⟩)
        · omega
        · exact hdup' hdup
        · omega
        · obtain ⟨hlo, hhi, hlt⟩ := hsites hne
          omega
  · intro hstate
    rw [exec_plotStop_stops h, if_pos hstate]
    rfl
  · intro hstate
    rw [exec_plotStop_stops h, if_neg hstate]
    rfl
  · intro hstate
    rw [exec_plotStart_starts h, if_pos hstate]
    rfl
  · intro hstate
    rw [exec_plotStart_starts h, if_neg hstate]
    rfl
  · rw [exec_plotDestroy_destroys h hstate hq, if_pos hbusy]
    rfl
  · rw [exec_plotDestroy_destroys h hstate hq, if_neg (by rw [hidle]; exact Bool.noConfusion)]
    rfl

end Sys2Proof.Machine
end

section
/-!
Start-up (R373 to R395, R444, R452): what each command of a start leaves of the registers, the start's book and memory. Settles O51.
-/

namespace Sys2Proof.Machine
open Sys2Proof

/-! ### Work that writes registers and the event log only -/

/-- `u` comes from `s` by work that writes the registers `l` and the event log only. -/
structure RegWork (l : List (Reg × Nat)) (s u : State) : Prop where
  work : UnitWork l s u
  noted : Noted s u

theorem RegWork.refl (l : List (Reg × Nat)) {s : State} (hregs : Sparse.wf regReset s.regs = true)
    (hblocks : Sparse.wf (fun _ => Block.empty) s.blocks = true) : RegWork l s s :=
  ⟨⟨hregs, hblocks, fun _ _ _ _ => rfl, rfl, rfl, rfl⟩, Noted.refl s⟩

section
variable {l : List (Reg × Nat)} {s u : State} (h : RegWork l s u)
include h

theorem RegWork.restart (l' : List (Reg × Nat)) : RegWork l' u u := ⟨h.work.restart l', Noted.refl u⟩

theorem RegWork.setReg {r : Reg} {i : Nat} (hi : i < r.count) (hl : (r, i) ∈ l) (v : W32) : RegWork l s (u.setReg r i v) :=
  ⟨h.work.setReg hi hl v, h.noted.setReg r i v⟩

theorem RegWork.setFld {f : Fld} {i : Nat} (hi : i < f.reg.count) (hl : (f.reg, i) ∈ l) (v : Nat) : RegWork l s (u.setFld f i v) :=
  ⟨h.work.setFld hi hl v, h.noted.setFld f i v⟩

theorem RegWork.setBit {f : Fld} {i : Nat} (hi : i < f.reg.count) (hl : (f.reg, i) ∈ l) (v : Bool) : RegWork l s (u.setBit f i v) :=
  ⟨h.work.setBit hi hl v, h.noted.setBit f i v⟩

theorem RegWork.ite {v : State} (hv : RegWork l s v) {p : Prop} [Decidable p] : RegWork l s (if p then u else v) :=
  ⟨h.work.ite hv.work, h.noted.ite hv.noted⟩

theorem RegWork.logEvent (hl : (.HUB_LOG_LOST, 0) ∈ l) (plot source cls k detail : Nat) :
    RegWork l s (u.logEvent plot source cls k detail) :=
  ⟨h.work.logEvent hl plot source cls k detail, h.noted.logEvent plot source cls k detail⟩

theorem RegWork.boot : u.boot = s.boot := by
  obtain ⟨regs, log, logSeq, rfl⟩ := h.noted
  rfl

theorem RegWork.tasks : u.tasks = s.tasks := by
  obtain ⟨regs, log, logSeq, rfl⟩ := h.noted
  rfl

theorem RegWork.harts : u.harts = s.harts := by
  obtain ⟨regs, log, logSeq, rfl⟩ := h.noted
  rfl

/-- A field of another register reads as before the log entry or the write. -/
theorem RegWork.fld {f : Fld} {i : Nat} (hi : i < f.reg.count) (hl : (f.reg, i) ∉ l) : u.fld f i = s.fld f i := h.work.fld hi hl

end

/-- A log entry leaves the fields of every register but the one that counts lost entries. -/
theorem State.fld_logEvent {s : State} (hregs : Sparse.wf regReset s.regs = true)
    (hblocks : Sparse.wf (fun _ => Block.empty) s.blocks = true) {f : Fld} {i : Nat} (hi : i < f.reg.count) (hf : f.reg ≠ .HUB_LOG_LOST)
    (plot source cls k detail : Nat) : (s.logEvent plot source cls k detail).fld f i = s.fld f i :=
  ((RegWork.refl [(.HUB_LOG_LOST, 0)] hregs hblocks).logEvent List.mem_cons_self plot source cls k detail).fld hi (by simp [hf])

/-! ### Reset and the beginning of a start (R373, R374) -/

/-- The registers that stand through a reset. -/
def resetRegs : List (Reg × Nat) := [(.BOOT_CONTROL, 0), (.PWR_GRAFT, 0), (.HUB_LOG_LOST, 0), (.SAFE_STATUS, 0)]

/-- A reset keeps memory and the pins, loses the tasks and takes every register but a few to its reset value. -/
theorem State.toReset_leaves (s : State) : ∃ z : State, z.regs = [] ∧ z.blocks = [] ∧ z.tasks = [] ∧ MemSame s z ∧
    z.boot.seqOk = s.boot.seqOk ∧ z.boot.perst = s.boot.perst ∧ RegWork resetRegs z s.toReset := by
  have hkeeps (z : State) (hregs : z.regs = []) (hblocks : z.blocks = []) : RegWork resetRegs z (if s.isFallow then
      (((([Reg.BOOT_CONTROL, .PWR_GRAFT, .HUB_LOG_LOST].map fun r => (r, s.reg r 0)).foldl (fun (z : State) e => z.setReg e.1 0 e.2)
        z).setFld Fld.SAFE_STATUS_STATE 0 3).setFld Fld.SAFE_STATUS_FALLOW_REASON 0 (s.fld Fld.SAFE_STATUS_FALLOW_REASON 0))
      else ([Reg.BOOT_CONTROL, .PWR_GRAFT, .HUB_LOG_LOST].map fun r => (r, s.reg r 0)).foldl (fun (z : State) e => z.setReg e.1 0 e.2)
        z) := by
    have hself : RegWork resetRegs z z := RegWork.refl _ (by rw [hregs]; rfl) (by rw [hblocks]; rfl)
    have hkept := ((hself.setReg (r := .BOOT_CONTROL) (i := 0) (by decide) (by decide) (s.reg .BOOT_CONTROL 0)).setReg
      (r := .PWR_GRAFT) (i := 0) (by decide) (by decide) (s.reg .PWR_GRAFT 0)).setReg (r := .HUB_LOG_LOST) (i := 0) (by decide) (by decide)
      (s.reg .HUB_LOG_LOST 0)
    exact ((hkept.setFld (f := Fld.SAFE_STATUS_STATE) (by decide) (by decide) _).setFld (f := Fld.SAFE_STATUS_FALLOW_REASON)
      (by decide) (by decide) _).ite hkept
  refine ⟨_, ?_, ?_, ?_, ?_, ?_, ?_, hkeeps _ ?_ ?_⟩
  · rfl
  · rfl
  · rfl
  · exact ⟨rfl, rfl, rfl⟩
  · rfl
  · rfl
  · rfl
  · rfl

/-- The registers that the beginning of a start writes. -/
def startRegs : List (Reg × Nat) := [(.BOOT_STATUS, 0), (.BOOT_NVM, 0)]

/-- ROM runs and the seedbed read begins when the NVM is free (R373, R377). -/
def State.romBegun (s : State) (cold : Bool) : State :=
  let s := (s.setBoot bsRom).setBit Fld.BOOT_STATUS_KIND 0 (!cold)
  let s := s.setFld Fld.BOOT_NVM_MODE 0 (bitsAt (s.fld Fld.PWR_GRAFT_STRAP 0) 0 4)
  (s.setBit Fld.BOOT_NVM_OWNED 0 s.boot.nvmLow).setFld Fld.BOOT_NVM_STATE 0 (if s.boot.nvmLow then 2 else 1)

section
variable {s : State} (hregs : Sparse.wf regReset s.regs = true) (hblocks : Sparse.wf (fun _ => Block.empty) s.blocks = true)
include hregs hblocks

theorem State.romBegun_begins (cold : Bool) : RegWork startRegs s (s.romBegun cold) ∧ (s.romBegun cold).bootState = bsRom ∧
    (s.romBegun cold).bit Fld.BOOT_STATUS_KIND 0 = !cold := by
  have hstate := (RegWork.refl startRegs hregs hblocks).setFld (f := Fld.BOOT_STATUS_STATE) (i := 0) (by decide) (by decide) bsRom
  have hkind := hstate.setBit (f := Fld.BOOT_STATUS_KIND) (i := 0) (by decide) (by decide) (!cold)
  have hnvm (mode st : Nat) (low : Bool) := (((hkind.restart [(.BOOT_NVM, 0)]).setFld (f := Fld.BOOT_NVM_MODE) (i := 0) (by decide)
    (by decide) mode).setBit (f := Fld.BOOT_NVM_OWNED) (i := 0) (by decide) (by decide) low).setFld (f := Fld.BOOT_NVM_STATE) (i := 0)
    (by decide) (by decide) st
  have hall (mode st : Nat) (low : Bool) := ((hkind.setFld (f := Fld.BOOT_NVM_MODE) (i := 0) (by decide)
    (by decide) mode).setBit (f := Fld.BOOT_NVM_OWNED) (i := 0) (by decide) (by decide) low).setFld (f := Fld.BOOT_NVM_STATE) (i := 0)
    (by decide) (by decide) st
  unfold State.romBegun State.setBoot
  dsimp only
  refine ⟨hall _ _ _, ?_, ?_⟩
  · rw [State.bootState, (hnvm _ _ _).fld (f := Fld.BOOT_STATUS_STATE) (by decide) (by simp [Fld.BOOT_STATUS_STATE]), State.setBit,
      State.fld_setFld_beside _ Fld.BOOT_STATUS_KIND Fld.BOOT_STATUS_STATE 0 _ hstate.work.wfRegs rfl (by decide) (by decide),
      State.fld_setFld_same _ _ _ _ hregs (by decide)]
    rfl
  · rw [State.bit, (hnvm _ _ _).fld (f := Fld.BOOT_STATUS_KIND) (by decide) (by simp [Fld.BOOT_STATUS_KIND])]
    exact State.bit_setBit_same _ Fld.BOOT_STATUS_KIND 0 _ hstate.work.wfRegs (by decide) (by decide)

end

/-- A start before ROM runs: reset, with the book of the start begun. -/
def State.startBooked (s : State) (power : Bool) (pass : Nat) : State :=
  { s.toReset with
    boot := { s.toReset.boot with
      powerOn := power, region := firstPass pass, served := s.boot.served && !s.boot.training, logFrom := s.toReset.logSeq } }

theorem State.beginStart_eq (s : State) (power cold : Bool) {pass : Nat} (hpass : (firstPass pass).isSome = true) :
    s.beginStart power cold pass = (s.startBooked power pass).romBegun (cold || s.boot.training) := by
  unfold State.beginStart
  exact if_neg (by simpa [Option.isSome_iff_ne_none] using hpass)

/-- What a start that begins leaves of its state (R373). -/
structure StartBegun (power cold : Bool) (pass : Nat) (s t : State) : Prop where
  regs : Sparse.wf regReset t.regs = true
  blocks : Sparse.wf (fun _ => Block.empty) t.blocks = true
  mem : MemSame s t
  seqOk : t.boot.seqOk = s.boot.seqOk
  perst : t.boot.perst = s.boot.perst
  powerOn : t.boot.powerOn = power
  region : t.boot.region = firstPass pass
  state : t.bootState = bsRom
  kind : t.bit Fld.BOOT_STATUS_KIND 0 = !(cold || s.boot.training)

/-- A start begins in ROM, of the kind asked for unless one was interrupted, on the first region that passes its self-test (R373). -/
theorem State.beginStart_begins (s : State) (power cold : Bool) {pass : Nat} (hpass : (firstPass pass).isSome = true) :
    StartBegun power cold pass s (s.beginStart power cold pass) := by
  obtain ⟨z, -, -, -, hmem, hseq, hperst, hwork⟩ := s.toReset_leaves
  have hbooked : MemSame s (s.startBooked power pass) := hmem.trans hwork.work.mem
  obtain ⟨hrom, hstate, hkind⟩ := State.romBegun_begins (s := s.startBooked power pass) hwork.work.wfRegs hwork.work.wfBlocks
    (cold || s.boot.training)
  rw [State.beginStart_eq s power cold hpass]
  exact ⟨hrom.work.wfRegs, hrom.work.wfBlocks, hbooked.trans hrom.work.mem,
    (congrArg Boot.seqOk hrom.boot).trans ((congrArg Boot.seqOk hwork.boot).trans hseq),
    (congrArg Boot.perst hrom.boot).trans ((congrArg Boot.perst hwork.boot).trans hperst),
    congrArg Boot.powerOn hrom.boot, congrArg Boot.region hrom.boot, hstate, hkind⟩

/-- The straps latched read back, and nothing else of the start changes. -/
theorem StartBegun.latchStraps {power cold : Bool} {pass : Nat} {s t : State} (h : StartBegun power cold pass s t) {straps : Nat}
    (hstraps : straps < 2 ^ 16) : StartBegun power cold pass s (t.latchStraps straps) ∧
      (t.latchStraps straps).fld Fld.PWR_GRAFT_STRAP 0 = straps := by
  have hself := RegWork.refl [(.PWR_GRAFT, 0), (.HUB_LOG_LOST, 0)] h.regs h.blocks
  have hset := hself.setFld (f := Fld.PWR_GRAFT_STRAP) (i := 0) (by decide) List.mem_cons_self straps
  have hlogged := (hset.restart [(.HUB_LOG_LOST, 0)]).logEvent List.mem_cons_self chipPlot 14 4 61 straps
  have hread : (t.setFld Fld.PWR_GRAFT_STRAP 0 straps).fld Fld.PWR_GRAFT_STRAP 0 = straps := by
    rw [State.fld_setFld_same _ _ _ _ h.regs (by decide)]
    exact Nat.mod_eq_of_lt hstraps
  have hwork : RegWork [(.PWR_GRAFT, 0), (.HUB_LOG_LOST, 0)] t (t.latchStraps straps) :=
    (hset.logEvent (by simp) _ _ _ _ _).ite hset
  refine ⟨⟨hwork.work.wfRegs, hwork.work.wfBlocks, h.mem.trans hwork.work.mem, (congrArg Boot.seqOk hwork.boot).trans h.seqOk,
    (congrArg Boot.perst hwork.boot).trans h.perst, (congrArg Boot.powerOn hwork.boot).trans h.powerOn,
    (congrArg Boot.region hwork.boot).trans h.region, ?_, ?_⟩, ?_⟩
  · rw [State.bootState, hwork.fld (f := Fld.BOOT_STATUS_STATE) (by decide) (by simp [Fld.BOOT_STATUS_STATE])]
    exact h.state
  · rw [hwork.work.bit (f := Fld.BOOT_STATUS_KIND) (by decide) (by simp [Fld.BOOT_STATUS_KIND])]
    exact h.kind
  · unfold State.latchStraps
    dsimp only
    split
    · rw [hlogged.fld (f := Fld.PWR_GRAFT_STRAP) (by decide) (by simp [Fld.PWR_GRAFT_STRAP]), hread]
    · exact hread

/-! ### Power and the reset pin (R373, R375, R393, R444, R452) -/

/-- The state at power-on, before the straps are latched. -/
def State.powered (s : State) : State :=
  { State.reset with
    hostMem := s.hostMem, free := s.free, pending := s.pending, out := s.out
    boot := { Boot.off with seqOk := true, perst := true, nvmLow := s.boot.nvmLow } }

theorem exec_powerOn_begins {s : State} {straps pass : Nat} (hoff : s.boot.seqOk = false) : exec (.powerOn straps pass) s =
    .next (((s.powered.setFld Fld.PWR_GRAFT_STRAP 0 straps).beginStart true true pass).latchStraps straps) := by
  show execPowerOn straps pass s = _
  unfold execPowerOn
  exact if_neg (by simp [hoff])

/-- What the chip reads after power-on: a cold start in ROM. -/
theorem State.powered_begins {s : State} {straps pass : Nat} (hpass : (firstPass pass).isSome = true) (hstraps : straps < 2 ^ 16)
    {t : State} (ht : t = ((s.powered.setFld Fld.PWR_GRAFT_STRAP 0 straps).beginStart true true pass).latchStraps straps) :
    t.bootState = bsRom ∧ t.bit Fld.BOOT_STATUS_KIND 0 = false ∧ t.fld Fld.PWR_GRAFT_STRAP 0 = straps ∧ t.boot.seqOk = true ∧
      t.boot.perst = true ∧ t.boot.powerOn = true ∧ t.boot.region = firstPass pass ∧ t.mem = [] ∧ t.hostMem = s.hostMem := by
  have hself : RegWork [(.PWR_GRAFT, 0)] s.powered s.powered := RegWork.refl _ rfl rfl
  have hset := hself.setFld (f := Fld.PWR_GRAFT_STRAP) (i := 0) (by decide) List.mem_cons_self straps
  obtain ⟨hbegun, hread⟩ := (State.beginStart_begins (s.powered.setFld Fld.PWR_GRAFT_STRAP 0 straps) true true hpass).latchStraps hstraps
  obtain ⟨hmem, hhost, -⟩ := hset.work.mem.trans hbegun.mem
  subst ht
  exact ⟨hbegun.state, by rw [hbegun.kind, Bool.true_or]; rfl, hread, hbegun.seqOk.trans (congrArg Boot.seqOk hset.boot),
    hbegun.perst.trans (congrArg Boot.perst hset.boot), hbegun.powerOn, hbegun.region, hmem, hhost⟩

/-- With no register listed every field reads its reset value. -/
theorem State.fld_of_no_regs {s : State} (h : s.regs = []) (f : Fld) (i : Nat) : s.fld f i = State.reset.fld f i := by
  unfold State.fld State.reg
  rw [h]
  rfl

theorem exec_pwrSeqOkFall_loses {s : State} (hon : s.boot.seqOk = true) : exec .pwrSeqOkFall s =
    .next (s.powerLost { Boot.off with tripped := s.boot.tripped, perst := s.boot.perst }) := by
  show execPwrSeqOkFall s = _
  unfold execPwrSeqOkFall
  exact if_neg (by simp [hon])

theorem State.bootState_of_no_regs {s : State} (h : s.regs = []) : s.bootState = bsReset := by
  rw [State.bootState, State.fld_of_no_regs h]
  decide

theorem exec_perstAssert_resets {s : State} (hon : s.boot.seqOk = true) (htrip : s.boot.tripped = false) (hperst : s.boot.perst = true) :
    exec .perstAssert s = .next { s.toReset with
      boot := { s.toReset.boot with perst := false, outputs := false, training := s.boot.training } } := by
  show execPerstAssert s = _
  unfold execPerstAssert
  exact if_neg (by simp [hon, htrip, hperst])

/-- In reset by pin the state is RESET and no link is UP. -/
theorem State.toReset_down (s : State) : s.toReset.bootState = bsReset ∧ s.toReset.tasks = [] ∧ (∀ l, l < 6 → s.toReset.linkUp l = false) ∧
    MemSame s s.toReset := by
  obtain ⟨z, hregs, -, htasks, hmem, -, -, hwork⟩ := s.toReset_leaves
  refine ⟨?_, hwork.tasks.trans htasks, fun l hl => ?_, hmem.trans hwork.work.mem⟩
  · rw [State.bootState, hwork.fld (f := Fld.BOOT_STATUS_STATE) (by decide) (by decide)]
    exact State.bootState_of_no_regs hregs
  · have hstate : s.toReset.linkState l = State.reset.linkState l := by
      rw [State.linkState, hwork.fld (f := Fld.LNK_STATUS_STATE) hl (by simp [resetRegs, Fld.LNK_STATUS_STATE])]
      exact State.fld_of_no_regs hregs _ _
    have hdown : ∀ l < 6, (State.reset.linkState l == lsUp) = false := by decide
    exact (congrArg (· == lsUp) hstate).trans (hdown l hl)

theorem exec_perstRelease_begins {s : State} {straps pass : Nat} (hon : s.boot.seqOk = true) (htrip : s.boot.tripped = false)
    (hperst : s.boot.perst = false) : exec (.perstRelease straps pass) s =
      .next ((({ s with boot := { s.boot with perst := true } } : State).setFld Fld.PWR_GRAFT_STRAP 0 straps).beginStart false
        (({ s with boot := { s.boot with perst := true } } : State).setFld Fld.PWR_GRAFT_STRAP 0 straps).nextCold pass
        |>.latchStraps straps) := by
  show execPerstRelease straps pass s = _
  unfold execPerstRelease
  exact if_neg (by simp [hon, htrip, hperst])

theorem exec_bootRestart_begins {s : State} {a : Agent} {pass : Nat} (harrives : s.arrives a = true) (hpriv : s.privOk a = true) :
    exec (.bootRestart a pass) s = .next (s.beginStart false s.nextCold pass) := by
  show execBootRestart a pass s = _
  unfold execBootRestart
  exact if_neg (by simp [harrives, hpriv])

/-! ### PCIe and the image (R250, R385, R388) -/

section
variable {s : State} {gen lanes : Nat}

theorem exec_pcieTrained_waits (hon : s.boot.seqOk = true) (hperst : s.boot.perst = true) (htrip : s.boot.tripped = false)
    (hlost : s.pcieLost = false) (hgen : 4 ≤ gen ∧ gen ≤ 6) (hlanes : 1 ≤ lanes ∧ lanes ≤ 16) (hrom : s.bootState = bsRom)
    (hregion : s.boot.region.isSome = true) :
    exec (.pcieTrained gen lanes) s = .next (({ s with pcieGen := gen, pcieLanes := lanes } : State).setBoot bsWait) := by
  show execPcieTrained gen lanes s = _
  unfold execPcieTrained
  exact (if_neg (by simp [hon, hperst, htrip, hlost]; omega)).trans (if_pos ⟨hrom, hregion⟩)

/-- A state set reads back, and only BOOT_STATUS is written. -/
theorem State.setBoot_reads {s : State} (hregs : Sparse.wf regReset s.regs = true)
    (hblocks : Sparse.wf (fun _ => Block.empty) s.blocks = true) {st : Nat} (hst : st < 16) :
    (s.setBoot st).bootState = st ∧ RegWork [(.BOOT_STATUS, 0)] s (s.setBoot st) := by
  refine ⟨?_, (RegWork.refl _ hregs hblocks).setFld (f := Fld.BOOT_STATUS_STATE) (by decide) List.mem_cons_self st⟩
  rw [State.bootState, State.setBoot, State.fld_setFld_same _ _ _ _ hregs (by decide)]
  exact Nat.mod_eq_of_lt hst

end

theorem exec_bootGo_stages {s : State} {a : Agent} {r : Nat} (harrives : s.arrives a = true) (hpriv : s.privOk a = true)
    (hwait : s.bootState = bsWait) (hrange : s.imageRangeOk = true) (hregion : s.boot.region = some r) : exec (.bootGo a) s =
      .next { (s.writeBytes (imageBase r) (s.readHost ((s.reg .BOOT_IMAGE_LOW 0).toNat + 2 ^ 32 * (s.reg .BOOT_IMAGE_HIGH 0).toNat)
        (s.reg .BOOT_IMAGE_SIZE 0).toNat)).setBoot bsFetch with boot := { s.boot with imageOk := false } } := by
  have hgo : execBootGo a s = .next s.bootGo := by
    unfold execBootGo
    exact if_neg (by simp [harrives, hpriv])
  show execBootGo a s = _
  rw [hgo]
  unfold State.bootGo
  rw [if_neg (by rw [hwait]; decide), if_neg (not_not.mpr hwait), if_neg (by simp [hrange]), hregion]

theorem exec_imageVerified_judges {s : State} {r : Nat} {im : List Byte} (hregion : s.boot.region = some r) (hfetch : s.bootState = bsFetch)
    (himage : s.boot.imageOk = false) (him : im = s.readBytes (imageBase r) (s.reg .BOOT_IMAGE_SIZE 0).toNat) :
    exec .imageVerified s = .next (match imageRefused im (s.reg .BOOT_IMAGE_SIZE 0).toNat with
      | none => { s with boot := { s.boot with imageOk := true, image := im, digest := some (Config.sha384 (unsigned im)) } }
      | some k => ((s.clearRange (imageBase r) (128 * spadSize)).bootReason k).setBoot bsWait) := by
  subst him
  show execImageVerified s = _
  unfold execImageVerified
  rw [hregion]
  refine (if_neg (by simp [hfetch, himage])).trans ?_
  dsimp only
  cases imageRefused (s.readBytes (imageBase r) (s.reg .BOOT_IMAGE_SIZE 0).toNat) (s.reg .BOOT_IMAGE_SIZE 0).toNat with
  | none => rfl
  | some k => rfl

/-- Bytes written read back, and memory beyond them stands. -/
theorem State.writeBytes_reads {s : State} (hs : s.canonical = true) (a : Nat) (bs : List Byte) :
    (s.writeBytes a bs).readBytes a bs.length = bs ∧ MemKept s (s.writeBytes a bs) a bs.length :=
  ⟨s.readBytes_writeBytes_same a bs (State.canonical_mem hs), fun x hx => s.byteAt_writeBytes_outside a bs x hx, fun _ => rfl⟩

/-! ### The boot NVM (R377, R378) -/

theorem exec_nvmWaitExpiry_gives {s : State} (hstate : s.fld Fld.BOOT_NVM_STATE 0 = 2) (hlong : 5000000000 ≤ s.nvmHeld) :
    exec .nvmWaitExpiry s = .next { s.setFld Fld.BOOT_NVM_STATE 0 4 with boot := { s.boot with seedDone := true, seed := none } } := by
  show execNvmWaitExpiry s = _
  unfold execNvmWaitExpiry
  exact if_neg (by rintro (h | h); exacts [h hstate, Nat.not_lt.mpr hlong h])

/-- The book of a start while the controller owns the NVM, or again does not. -/
def State.nvmPin (s : State) (low : Bool) (since total : Nat) : State :=
  { s with boot := { s.boot with nvmLow := low, nvmSince := since, nvmTotal := total } }

/-- OWNED written, STATE reads as before. -/
theorem State.nvmState_setOwned {s : State} (hregs : Sparse.wf regReset s.regs = true) (b : Bool) :
    (s.setBit Fld.BOOT_NVM_OWNED 0 b).fld Fld.BOOT_NVM_STATE 0 = s.fld Fld.BOOT_NVM_STATE 0 :=
  State.fld_setFld_beside s Fld.BOOT_NVM_OWNED Fld.BOOT_NVM_STATE 0 _ hregs rfl (by decide) (by decide)

theorem exec_nvmOwnFall_stops {s : State} (hregs : Sparse.wf regReset s.regs = true) (hon : s.boot.seqOk = true)
    (hlow : s.boot.nvmLow = false) (hstate : s.fld Fld.BOOT_NVM_STATE 0 = 1) : exec .nvmOwnFall s =
      .next (((s.nvmPin true s.clock s.boot.nvmTotal).setBit Fld.BOOT_NVM_OWNED 0 true).setFld Fld.BOOT_NVM_STATE 0 2) := by
  have hread : ((s.nvmPin true s.clock s.boot.nvmTotal).setBit Fld.BOOT_NVM_OWNED 0 true).fld Fld.BOOT_NVM_STATE 0 = 1 :=
    (State.nvmState_setOwned (s := s.nvmPin true s.clock s.boot.nvmTotal) hregs true).trans hstate
  show execNvmOwnFall s = _
  unfold execNvmOwnFall
  refine (if_neg (by simp [hlow])).trans ((if_neg (by simp [hon])).trans ?_)
  exact congrArg Host.Outcome.next (if_pos hread)

theorem exec_nvmOwnRise_restarts {s : State} (hregs : Sparse.wf regReset s.regs = true) (hon : s.boot.seqOk = true)
    (hlow : s.boot.nvmLow = true) (hstate : s.fld Fld.BOOT_NVM_STATE 0 = 2) : exec .nvmOwnRise s =
      .next ((((s.nvmPin false s.boot.nvmSince s.nvmHeld).setBit Fld.BOOT_NVM_OWNED 0 false).setFld Fld.BOOT_NVM_STATE 0 1).addSat
        Fld.BOOT_NVM_WAITS 0 1) := by
  have hread : ((s.nvmPin false s.boot.nvmSince s.nvmHeld).setBit Fld.BOOT_NVM_OWNED 0 false).fld Fld.BOOT_NVM_STATE 0 = 2 :=
    (State.nvmState_setOwned (s := s.nvmPin false s.boot.nvmSince s.nvmHeld) hregs false).trans hstate
  show execNvmOwnRise s = _
  unfold execNvmOwnRise
  refine (if_neg (by simp [hlow])).trans ((if_neg (by simp [hon])).trans ?_)
  exact congrArg Host.Outcome.next (if_pos hread)

/-- OWNED and STATE written read back. -/
theorem State.nvm_reads {s : State} (hregs : Sparse.wf regReset s.regs = true)
    (hblocks : Sparse.wf (fun _ => Block.empty) s.blocks = true) (owned : Bool) {st : Nat} (hst : st < 16) {t : State}
    (ht : t = (s.setBit Fld.BOOT_NVM_OWNED 0 owned).setFld Fld.BOOT_NVM_STATE 0 st) :
    t.bit Fld.BOOT_NVM_OWNED 0 = owned ∧ t.fld Fld.BOOT_NVM_STATE 0 = st ∧
      t.fld Fld.BOOT_NVM_WAITS 0 = s.fld Fld.BOOT_NVM_WAITS 0 ∧ RegWork [(.BOOT_NVM, 0)] s t := by
  have howned := (RegWork.refl [(.BOOT_NVM, 0)] hregs hblocks).setBit (f := Fld.BOOT_NVM_OWNED) (i := 0) (by decide) List.mem_cons_self owned
  subst ht
  refine ⟨?_, ?_, ?_, howned.setFld (f := Fld.BOOT_NVM_STATE) (by decide) List.mem_cons_self st⟩
  · rw [State.bit, State.fld_setFld_beside _ Fld.BOOT_NVM_STATE Fld.BOOT_NVM_OWNED 0 _ howned.work.wfRegs rfl (by decide) (by decide)]
    exact State.bit_setBit_same _ Fld.BOOT_NVM_OWNED 0 _ hregs (by decide) (by decide)
  · rw [State.fld_setFld_same _ _ _ _ howned.work.wfRegs (by decide)]
    exact Nat.mod_eq_of_lt hst
  · rw [State.fld_setFld_beside _ Fld.BOOT_NVM_STATE Fld.BOOT_NVM_WAITS 0 _ howned.work.wfRegs rfl (by decide) (by decide)]
    exact State.fld_setFld_beside s Fld.BOOT_NVM_OWNED Fld.BOOT_NVM_WAITS 0 _ hregs rfl (by decide) (by decide)

/-- WAITS steps to its greatest value at most, beside OWNED and STATE. -/
theorem State.nvmWaits_reads {s : State} (hregs : Sparse.wf regReset s.regs = true)
    (hblocks : Sparse.wf (fun _ => Block.empty) s.blocks = true) {t : State} (ht : t = s.addSat Fld.BOOT_NVM_WAITS 0 1) :
    t.bit Fld.BOOT_NVM_OWNED 0 = s.bit Fld.BOOT_NVM_OWNED 0 ∧ t.fld Fld.BOOT_NVM_STATE 0 = s.fld Fld.BOOT_NVM_STATE 0 ∧
      t.fld Fld.BOOT_NVM_WAITS 0 = min (s.fld Fld.BOOT_NVM_WAITS 0 + 1) (2 ^ Fld.BOOT_NVM_WAITS.width - 1) ∧
      RegWork [(.BOOT_NVM, 0)] s t := by
  have hset (v : Nat) := (RegWork.refl [(.BOOT_NVM, 0)] hregs hblocks).setFld (f := Fld.BOOT_NVM_WAITS) (i := 0) (by decide)
    List.mem_cons_self v
  subst ht
  unfold State.addSat
  refine ⟨?_, ?_, ?_, hset _⟩
  · rw [State.bit, State.fld_setFld_beside _ Fld.BOOT_NVM_WAITS Fld.BOOT_NVM_OWNED 0 _ hregs rfl (by decide) (by decide)]
    rfl
  · rw [State.fld_setFld_beside _ Fld.BOOT_NVM_WAITS Fld.BOOT_NVM_STATE 0 _ hregs rfl (by decide) (by decide)]
  · rw [State.fld_setFld_same _ _ _ _ hregs (by decide)]
    refine Nat.mod_eq_of_lt (lt_of_le_of_lt (Nat.min_le_right _ _) ?_)
    decide

theorem exec_seedbedReadDone_stages {s : State} {img : SeedbedImage} {r : Nat} (hregion : s.boot.region = some r)
    (hstate : s.fld Fld.BOOT_NVM_STATE 0 = 1) : exec (.seedbedReadDone img) s =
      .next { (s.writeBytes (blockBase (8 * r)) ((img.minimal.getD []) ++ (if img.minimal.isSome then img.main else []))).setFld
        Fld.BOOT_NVM_STATE 0 3 with boot := { s.boot with seedDone := true, seed := some img } } := by
  show execSeedbedReadDone img s = _
  unfold execSeedbedReadDone
  rw [hregion]
  exact if_neg (not_not.mpr hstate)

/-! ### The firmware's entry (R386, R390, R394) -/

/-- The firmware is entered: its state, its version and both pairs in machine mode. -/
def State.entered (s : State) : State :=
  let im := s.boot.image
  let s := (s.setBoot bsFirmware).setFld Fld.BOOT_STATUS_MAJOR 0 (leNat (slice im 9 9))
  (s.setFld Fld.BOOT_STATUS_MINOR 0 (leNat (slice im 10 10))).enterImage (imageBase (s.boot.region.getD 0)) im

theorem State.boot_entered (s : State) : s.entered.boot = s.boot := by
  have hset (f g k : Fld) (a b c base : Nat) (im : List Byte) :
      ((((s.setFld f 0 a).setFld g 0 b).setFld k 0 c).enterImage base im).boot = s.boot := rfl
  unfold State.entered State.setBoot
  exact hset _ _ _ _ _ _ _ _

/-- Sparse service is chosen for a reason, if there is one (R394). -/
def State.sparseFor (s : State) (bad : Option Nat) : State :=
  match bad with
  | some r => ((s.setBit Fld.BOOT_STATUS_SPARSE 0 true).bootReason r).logEvent chipPlot 14 3 63 r
  | none => s

/-- A warm start without its retained state runs as cold (R390). -/
def State.kindJudged (s : State) (retained : Bool) : State := if s.bit Fld.BOOT_STATUS_KIND 0 && !retained then s.demote else s

/-- One byte. -/
theorem leNat_slice_one (bs : List Byte) (k : Nat) : leNat (slice bs k k) < 256 := by
  have hlen : (slice bs k k).length ≤ 1 := by
    rw [slice, List.length_take]
    omega
  cases h : slice bs k k with
  | nil => decide
  | cons b l =>
    rw [h, List.length_cons] at hlen
    obtain rfl := List.length_eq_zero_iff.mp (show l.length = 0 by omega)
    have hb := b.isLt
    simp only [leNat]
    omega

section
variable {s : State} (hfetch : s.bootState = bsFetch) (himage : s.boot.imageOk = true) (hseed : s.boot.seedDone = true)
include hfetch himage hseed

theorem exec_firmwareEntry_holds (copyOk : Bool) (hnone : (s.boot.seed.bind SeedbedImage.minimal) = none) :
    exec (.firmwareEntry copyOk) s = .next (s.entered.hold brMinCrc) := by
  have hbind : (s.boot.seed.bind fun i => i.minimal.map fun m => (i, m)) = none := by
    cases h : s.boot.seed with
    | none => rfl
    | some i =>
      rw [h] at hnone
      exact congrArg (Option.map fun m => (i, m)) hnone
  have hboot : s.entered.boot.seed.bind (fun i => i.minimal.map fun m => (i, m)) = none := by rw [State.boot_entered, hbind]
  show execFirmwareEntry copyOk s = _
  unfold execFirmwareEntry
  refine (if_neg (by simp [hfetch, himage, hseed])).trans ?_
  show (match s.entered.boot.seed.bind (fun i => i.minimal.map fun m => (i, m)) with
    | none => _
    | some (i, m) => _) = _
  rw [hboot]
  rfl

/-- The start goes on to the training of the memories (R388). -/
def State.trains (s : State) : State := { s with boot := { s.boot with training := true } }

/-- Why the main section is not used, or none (R381, R394). -/
def State.whySparse (s : State) (i : SeedbedImage) (m : List Byte) : Option Nat :=
  if s.entered.bit Fld.BOOT_CONTROL_FORCE_SPARSE 0 then some brForced else i.unreadable m (leNat (slice s.boot.image 9 9))

/-- Whether the retained state meets the conditions of a warm start (R390). -/
def State.retains (s : State) (copyOk : Bool) (recorded : Nat × Nat) (bad : Option Nat) : Bool :=
  copyOk && s.boot.served && s.boot.kept == some recorded && bad.isNone

/-- How the firmware's entry judges a start with a usable minimal section (R390, R394). -/
def State.entryJudged (s : State) (copyOk : Bool) (recorded : Nat × Nat) (bad : Option Nat) : State :=
  ((s.sparseFor bad).kindJudged ((s.sparseFor bad).retains copyOk recorded bad)).trains

theorem exec_firmwareEntry_enters (copyOk : Bool) {i : SeedbedImage} {m : List Byte} (hi : s.boot.seed = some i) (hm : i.minimal = some m) :
    exec (.firmwareEntry copyOk) s = .next (s.entered.entryJudged copyOk
      (leNat (slice s.boot.image 9 9), leNat (slice m 0x10 0x13)) (s.whySparse i m)) := by
  have hbind : s.entered.boot.seed.bind (fun i => i.minimal.map fun m => (i, m)) = some (i, m) := by
    rw [State.boot_entered, hi, Option.bind_some, hm]
    rfl
  have htail (u : State) (bad : Option Nat) (x : Nat × Nat) :
      (let v := match bad with
          | some r => ((u.setBit Fld.BOOT_STATUS_SPARSE 0 true).bootReason r).logEvent chipPlot 14 3 63 r
          | none => u
        let retained := copyOk && v.boot.served && v.boot.kept == some x && bad.isNone
        let w := if v.bit Fld.BOOT_STATUS_KIND 0 && !retained then v.demote else v
        (Host.Outcome.next { w with boot := { w.boot with training := true } } : Res)) = .next (u.entryJudged copyOk x bad) := rfl
  show execFirmwareEntry copyOk s = _
  unfold execFirmwareEntry
  refine (if_neg (by simp [hfetch, himage, hseed])).trans ?_
  show (match s.entered.boot.seed.bind (fun i => i.minimal.map fun m => (i, m)) with
    | none => _
    | some (i, m) => _) = _
  rw [hbind]
  exact htail _ _ _

end

/-- The firmware entered reads FIRMWARE with its level, in machine mode on both pairs. -/
theorem State.entered_reads {s : State} (hregs : Sparse.wf regReset s.regs = true)
    (hblocks : Sparse.wf (fun _ => Block.empty) s.blocks = true) : UnitWork [(.BOOT_STATUS, 0)] s s.entered ∧
      s.entered.bootState = bsFirmware ∧ s.entered.fld Fld.BOOT_STATUS_MAJOR 0 = leNat (slice s.boot.image 9 9) ∧
      s.entered.secure 0 = true ∧ s.entered.secure 1 = true := by
  have hself : RegWork [(.BOOT_STATUS, 0)] s s := RegWork.refl _ hregs hblocks
  have hstate := hself.setFld (f := Fld.BOOT_STATUS_STATE) (i := 0) (by decide) List.mem_cons_self bsFirmware
  have hmajor := hstate.setFld (f := Fld.BOOT_STATUS_MAJOR) (i := 0) (by decide) List.mem_cons_self (leNat (slice s.boot.image 9 9))
  have hminor := hmajor.setFld (f := Fld.BOOT_STATUS_MINOR) (i := 0) (by decide) List.mem_cons_self (leNat (slice s.boot.image 10 10))
  have henter (u : State) (base : Nat) (im : List Byte) : (u.enterImage base im).regs = u.regs ∧ (u.enterImage base im).blocks = u.blocks ∧
      (∀ f i, (u.enterImage base im).fld f i = u.fld f i) ∧ (u.enterImage base im).secure 0 = true ∧
      (u.enterImage base im).secure 1 = true ∧ MemSame u (u.enterImage base im) := ⟨rfl, rfl, fun _ _ => rfl, rfl, rfl, rfl, rfl, rfl⟩
  have hentered (u : State) (h : UnitWork [(.BOOT_STATUS, 0)] s u) (base : Nat) (im : List Byte) :
      UnitWork [(.BOOT_STATUS, 0)] s (u.enterImage base im) := ⟨h.wfRegs, h.wfBlocks, h.regs, h.mem⟩
  unfold State.entered State.setBoot
  dsimp only
  refine ⟨hentered _ hminor.work _ _, ?_, ?_, (henter _ _ _).2.2.2.1, (henter _ _ _).2.2.2.2.1⟩
  · rw [State.bootState, (henter _ _ _).2.2.1,
      State.fld_setFld_beside _ Fld.BOOT_STATUS_MINOR Fld.BOOT_STATUS_STATE 0 _ hmajor.work.wfRegs rfl (by decide) (by decide),
      State.fld_setFld_beside _ Fld.BOOT_STATUS_MAJOR Fld.BOOT_STATUS_STATE 0 _ hstate.work.wfRegs rfl (by decide) (by decide),
      State.fld_setFld_same _ _ _ _ hregs (by decide)]
    rfl
  · rw [(henter _ _ _).2.2.1,
      State.fld_setFld_beside _ Fld.BOOT_STATUS_MINOR Fld.BOOT_STATUS_MAJOR 0 _ hmajor.work.wfRegs rfl (by decide) (by decide),
      State.fld_setFld_same _ _ _ _ hstate.work.wfRegs (by decide)]
    exact Nat.mod_eq_of_lt (leNat_slice_one _ _)

/-- The fields of BOOT_STATUS that a choice of sparse service and a demotion leave. -/
def keptStatus : List Fld := [Fld.BOOT_STATUS_STATE, Fld.BOOT_STATUS_MAJOR]

section
variable {s : State} (hregs : Sparse.wf regReset s.regs = true) (hblocks : Sparse.wf (fun _ => Block.empty) s.blocks = true)
include hregs hblocks

/-- Sparse service is told by SPARSE and REASON, and leaves the state and the level. -/
theorem State.sparseFor_reads (bad : Option Nat) : RegWork [(.BOOT_STATUS, 0), (.HUB_LOG_LOST, 0)] s (s.sparseFor bad) ∧
    (∀ f ∈ keptStatus, (s.sparseFor bad).fld f 0 = s.fld f 0) ∧
    ∀ r, bad = some r → r < 256 → (s.sparseFor bad).bit Fld.BOOT_STATUS_SPARSE 0 = true ∧ (s.sparseFor bad).fld Fld.BOOT_STATUS_REASON 0 = r := by
  have hself : RegWork [(.BOOT_STATUS, 0), (.HUB_LOG_LOST, 0)] s s := RegWork.refl _ hregs hblocks
  cases bad with
  | none => exact ⟨hself, fun _ _ => rfl, fun _ h => by cases h⟩
  | some r =>
    have hsparse := hself.setBit (f := Fld.BOOT_STATUS_SPARSE) (i := 0) (by decide) List.mem_cons_self true
    have hreason := hsparse.setFld (f := Fld.BOOT_STATUS_REASON) (i := 0) (by decide) List.mem_cons_self r
    have hlogged (f : Fld) (hf : f.reg = .BOOT_STATUS) :=
      State.fld_logEvent hreason.work.wfRegs hreason.work.wfBlocks (f := f) (i := 0) (by rw [hf]; decide) (by rw [hf]; decide)
        chipPlot 14 3 63 r
    unfold State.sparseFor State.bootReason
    dsimp only
    refine ⟨hreason.logEvent (by simp) _ _ _ _ _, fun f hf => ?_, fun r' hr hlt => ⟨?_, ?_⟩⟩
    · have hfacts : f.reg = .BOOT_STATUS ∧ f.lo + f.width ≤ 32 ∧ (f.lo + f.width ≤ 16 ∨ 16 + 8 ≤ f.lo) ∧
          (f.lo + f.width ≤ 26 ∨ 26 + 1 ≤ f.lo) := by
        revert f
        decide
      obtain ⟨hreg, hwidth, hfar, hfar'⟩ := hfacts
      rw [hlogged f hreg, State.fld_setFld_beside _ Fld.BOOT_STATUS_REASON f 0 _ hsparse.work.wfRegs hreg hwidth hfar, State.setBit,
        State.fld_setFld_beside _ Fld.BOOT_STATUS_SPARSE f 0 _ hregs hreg hwidth hfar']
    · rw [State.bit, hlogged Fld.BOOT_STATUS_SPARSE rfl,
        State.fld_setFld_beside _ Fld.BOOT_STATUS_REASON Fld.BOOT_STATUS_SPARSE 0 _ hsparse.work.wfRegs rfl (by decide) (by decide)]
      exact State.bit_setBit_same _ Fld.BOOT_STATUS_SPARSE 0 _ hregs (by decide) (by decide)
    · obtain rfl := Option.some.inj hr
      rw [hlogged Fld.BOOT_STATUS_REASON rfl, State.fld_setFld_same _ _ _ _ hsparse.work.wfRegs (by decide)]
      exact Nat.mod_eq_of_lt hlt

/-- A demotion writes KIND and DEMOTED beside the rest of BOOT_STATUS. -/
theorem State.kindJudged_reads (retained : Bool) : RegWork [(.BOOT_STATUS, 0)] s (s.kindJudged retained) ∧
    ∀ f ∈ Fld.BOOT_STATUS_SPARSE :: Fld.BOOT_STATUS_REASON :: keptStatus, (s.kindJudged retained).fld f 0 = s.fld f 0 := by
  have hself : RegWork [(.BOOT_STATUS, 0)] s s := RegWork.refl _ hregs hblocks
  have hkind := hself.setBit (f := Fld.BOOT_STATUS_KIND) (i := 0) (by decide) List.mem_cons_self false
  have hdemoted := hkind.setBit (f := Fld.BOOT_STATUS_DEMOTED) (i := 0) (by decide) List.mem_cons_self true
  unfold State.kindJudged State.demote
  refine ⟨hdemoted.ite hself, fun f hf => ?_⟩
  have hfacts : f.reg = .BOOT_STATUS ∧ f.lo + f.width ≤ 32 ∧ (f.lo + f.width ≤ 27 ∨ 27 + 1 ≤ f.lo) ∧
      (f.lo + f.width ≤ 25 ∨ 25 + 1 ≤ f.lo) := by
    revert f
    decide
  obtain ⟨hreg, hwidth, hfar, hfar'⟩ := hfacts
  split
  · rw [State.setBit, State.fld_setFld_beside _ Fld.BOOT_STATUS_DEMOTED f 0 _ hkind.work.wfRegs hreg hwidth hfar', State.setBit,
      State.fld_setFld_beside _ Fld.BOOT_STATUS_KIND f 0 _ hregs hreg hwidth hfar]
  · rfl

/-- HELD is told by the state, its reason and STOPPED (R395). -/
theorem State.held_reads {reason : Nat} (hreason : reason < 256) {t : State}
    (ht : t = (((s.bootReason reason).setBoot bsHeld).setBit Fld.ADM_POLICY_STOPPED 0 true).logEvent chipPlot 14 3 62 reason) :
    t.bootState = bsHeld ∧ t.fld Fld.BOOT_STATUS_REASON 0 = reason ∧ t.bit Fld.ADM_POLICY_STOPPED 0 = true ∧ MemSame s t := by
  have hself : RegWork [(.BOOT_STATUS, 0)] s s := RegWork.refl _ hregs hblocks
  have htold := hself.setFld (f := Fld.BOOT_STATUS_REASON) (i := 0) (by decide) List.mem_cons_self reason
  have hheld := htold.setFld (f := Fld.BOOT_STATUS_STATE) (i := 0) (by decide) List.mem_cons_self bsHeld
  have hstopped := (hheld.restart [(.ADM_POLICY, 0)]).setBit (f := Fld.ADM_POLICY_STOPPED) (i := 0) (by decide) List.mem_cons_self true
  have hlogged := (hstopped.restart [(.HUB_LOG_LOST, 0)]).logEvent List.mem_cons_self chipPlot 14 3 62 reason
  subst ht
  unfold State.bootReason State.setBoot
  refine ⟨?_, ?_, ?_, (hheld.work.mem.trans hstopped.work.mem).trans hlogged.work.mem⟩
  · rw [State.bootState, hlogged.fld (f := Fld.BOOT_STATUS_STATE) (by decide) (by simp [Fld.BOOT_STATUS_STATE]),
      hstopped.fld (f := Fld.BOOT_STATUS_STATE) (by decide) (by simp [Fld.BOOT_STATUS_STATE]),
      State.fld_setFld_same _ _ _ _ htold.work.wfRegs (by decide)]
    rfl
  · rw [hlogged.fld (f := Fld.BOOT_STATUS_REASON) (by decide) (by simp [Fld.BOOT_STATUS_REASON]),
      hstopped.fld (f := Fld.BOOT_STATUS_REASON) (by decide) (by simp [Fld.BOOT_STATUS_REASON]),
      State.fld_setFld_beside _ Fld.BOOT_STATUS_STATE Fld.BOOT_STATUS_REASON 0 _ htold.work.wfRegs rfl (by decide) (by decide),
      State.fld_setFld_same _ _ _ _ hregs (by decide)]
    exact Nat.mod_eq_of_lt hreason
  · rw [State.bit, hlogged.fld (f := Fld.ADM_POLICY_STOPPED) (by decide) (by simp [Fld.ADM_POLICY_STOPPED])]
    exact State.bit_setBit_same _ Fld.ADM_POLICY_STOPPED 0 _ hheld.work.wfRegs (by decide) (by decide)

/-- A chip that is HELD drives its pins besides. -/
theorem State.hold_reads {reason : Nat} (hreason : reason < 256) : (s.hold reason).bootState = bsHeld ∧
    (s.hold reason).fld Fld.BOOT_STATUS_REASON 0 = reason ∧ (s.hold reason).bit Fld.ADM_POLICY_STOPPED 0 = true ∧
    (s.hold reason).boot.outputs = true ∧ MemSame s (s.hold reason) := by
  have hbook (u : State) (b : Boot) (hu : u.bootState = bsHeld ∧ u.fld Fld.BOOT_STATUS_REASON 0 = reason ∧
      u.bit Fld.ADM_POLICY_STOPPED 0 = true ∧ MemSame s u) (hb : b.outputs = true) :
      ({ u with boot := b } : State).bootState = bsHeld ∧ ({ u with boot := b } : State).fld Fld.BOOT_STATUS_REASON 0 = reason ∧
      ({ u with boot := b } : State).bit Fld.ADM_POLICY_STOPPED 0 = true ∧ ({ u with boot := b } : State).boot.outputs = true ∧
      MemSame s { u with boot := b } := ⟨hu.1, hu.2.1, hu.2.2.1, hb, hu.2.2.2⟩
  unfold State.hold
  exact hbook _ _ (State.held_reads hregs hblocks hreason rfl) rfl

end

/-- What the chip reads once the firmware is entered with a usable minimal section. -/
theorem State.entryJudged_reads {s : State} (hs : s.canonical = true) (copyOk : Bool) (recorded : Nat × Nat) (i : SeedbedImage)
    (m : List Byte) {t : State} (ht : t = s.entered.entryJudged copyOk recorded (s.whySparse i m)) :
    t.bootState = bsFirmware ∧ t.fld Fld.BOOT_STATUS_MAJOR 0 = leNat (slice s.boot.image 9 9) ∧ t.boot.training = true ∧
      t.secure 0 = true ∧ t.secure 1 = true ∧
      (s.bit Fld.BOOT_CONTROL_FORCE_SPARSE 0 = true → t.bit Fld.BOOT_STATUS_SPARSE 0 = true ∧
        t.fld Fld.BOOT_STATUS_REASON 0 = brForced) ∧ MemSame s t := by
  obtain ⟨hwork, hstate, hmajor, hmgmt, hservice⟩ := State.entered_reads (State.canonical_regs hs) (State.canonical_blocks hs)
  obtain ⟨hsparse, hkept, htold⟩ := State.sparseFor_reads hwork.wfRegs hwork.wfBlocks (s.whySparse i m)
  obtain ⟨hjudged, hkept'⟩ := State.kindJudged_reads hsparse.work.wfRegs hsparse.work.wfBlocks
    ((s.entered.sparseFor (s.whySparse i m)).retains copyOk recorded (s.whySparse i m))
  have htrains (u : State) : (∀ f k, u.trains.fld f k = u.fld f k) ∧ u.trains.harts = u.harts ∧ u.trains.boot.training = true ∧
      MemSame u u.trains := ⟨fun _ _ => rfl, rfl, rfl, rfl, rfl, rfl⟩
  have hharts (k : Nat) : t.secure k = s.entered.secure k := by
    rw [ht]
    exact congrArg (fun l : List Hart => (l[k]?).any fun h => h.mode == .machine)
      ((htrains _).2.1.trans (hjudged.harts.trans hsparse.harts))
  have hforce : s.entered.bit Fld.BOOT_CONTROL_FORCE_SPARSE 0 = s.bit Fld.BOOT_CONTROL_FORCE_SPARSE 0 :=
    hwork.bit (f := Fld.BOOT_CONTROL_FORCE_SPARSE) (by decide) (by simp [Fld.BOOT_CONTROL_FORCE_SPARSE])
  have hread (f : Fld) (hf : f ∈ Fld.BOOT_STATUS_SPARSE :: Fld.BOOT_STATUS_REASON :: keptStatus) :
      t.fld f 0 = (s.entered.sparseFor (s.whySparse i m)).fld f 0 := by
    rw [ht]
    exact ((htrains _).1 f 0).trans (hkept' f hf)
  refine ⟨?_, ?_, ?_, (hharts 0).trans hmgmt, (hharts 1).trans hservice, fun hforced => ?_, ?_⟩
  · exact (hread Fld.BOOT_STATUS_STATE (by simp [keptStatus])).trans ((hkept _ (by simp [keptStatus])).trans hstate)
  · exact (hread Fld.BOOT_STATUS_MAJOR (by simp [keptStatus])).trans ((hkept _ (by simp [keptStatus])).trans hmajor)
  · rw [ht]
    exact (htrains _).2.2.1
  · have hbad : s.whySparse i m = some brForced := if_pos (hforce.trans hforced)
    obtain ⟨hbit, hreason⟩ := htold brForced hbad (by decide)
    exact ⟨(congrArg (· != 0) (hread Fld.BOOT_STATUS_SPARSE (by simp))).trans hbit, (hread Fld.BOOT_STATUS_REASON (by simp)).trans hreason⟩
  · rw [ht]
    exact ((hwork.mem.trans hsparse.work.mem).trans hjudged.work.mem).trans (htrains _).2.2.2

/-! ### The end of memory training (R253, R390) -/

/-- A region is lost with its training or with one of its stacks (R253). -/
theorem lostRegions_testBit (failed stackBits : Nat) {r : Nat} (hr : r < 4) : (lostRegions failed stackBits).testBit r =
    (failed.testBit r || (List.range 16).any fun k => stackBits.testBit k && decide (k / 4 = r)) := by
  have hsum : ∀ a b c d : Bool, ∀ n, n = [a.toNat * 2 ^ 0, b.toNat * 2 ^ 1, c.toNat * 2 ^ 2, d.toNat * 2 ^ 3].sum →
      n.testBit 0 = a ∧ n.testBit 1 = b ∧ n.testBit 2 = c ∧ n.testBit 3 = d := by
    rintro a b c d n rfl
    revert a b c d
    decide
  have hlost (r : Nat) : (failed.testBit r || (List.range 16).any fun k => stackBits.testBit k && regionOfStack k == r) =
      (failed.testBit r || (List.range 16).any fun k => stackBits.testBit k && decide (k / 4 = r)) := rfl
  obtain ⟨h0, h1, h2, h3⟩ := hsum _ _ _ _ (lostRegions failed stackBits) rfl
  match r, hr with
  | 0, _ => exact h0.trans (hlost 0)
  | 1, _ => exact h1.trans (hlost 1)
  | 2, _ => exact h2.trans (hlost 2)
  | 3, _ => exact h3.trans (hlost 3)

theorem exec_memoryTrainingDone_goesOn {s : State} {failed stackBits : Nat} {loads : List SfuRun} {i : SeedbedImage} {m : List Byte}
    (hstate : s.bootState = bsFirmware) (htraining : s.boot.training = true) (hi : s.boot.seed = some i) (hm : i.minimal = some m) :
    exec (.memoryTrainingDone failed stackBits loads) s = .next (if s.bit Fld.BOOT_STATUS_KIND 0 && lostRegions failed stackBits != 0
      then s.demote else s.finishStart i m (lostRegions failed stackBits) loads) := by
  have hbind : (s.boot.seed.bind fun i => i.minimal.map fun m => (i, m)) = some (i, m) := by
    rw [hi, Option.bind_some, hm]
    rfl
  show execMemoryTrainingDone failed stackBits loads s = _
  unfold execMemoryTrainingDone
  rw [if_neg (by simp [hstate, htraining]), hbind]
  dsimp only
  split
  · rfl
  · rfl

/-! ### The start value (R393) -/

theorem exec_bootSundialHigh_arms {s : State} {a : Agent} {v : W32} (harrives : s.arrives a = true) (hpriv : s.privOk a = true) :
    exec (.bootSundialHigh a v) s = .next (s.armSundial v) := by
  show execBootSundialHigh a v s = _
  unfold execBootSundialHigh
  exact if_neg (by simp [harrives, hpriv])

/-- The value armed is LOW as it stands with the HIGH written, at the present tick. -/
theorem State.armSundial_reads {s : State} (hs : s.canonical = true) (v : W32) : (s.armSundial v).reg .BOOT_SUNDIAL_HIGH 0 = v ∧
    (s.armSundial v).boot.armed = some ((s.reg .BOOT_SUNDIAL_LOW 0).toNat + 2 ^ 32 * v.toNat, s.clock) ∧
    RegsKept s (s.armSundial v) [(.BOOT_SUNDIAL_HIGH, 0)] ∧ MemSame s (s.armSundial v) := by
  have hset := (RegWork.refl [(.BOOT_SUNDIAL_HIGH, 0)] (State.canonical_regs hs) (State.canonical_blocks hs)).setReg
    (r := .BOOT_SUNDIAL_HIGH) (i := 0) (by decide) List.mem_cons_self v
  have hlow := hset.work.regs .BOOT_SUNDIAL_LOW 0 (by decide) (by decide)
  have hkept (r : Reg) (k : Nat) (w : W32) : (s.setReg r k w).clock = s.clock := rfl
  unfold State.armSundial
  dsimp only
  rw [hlow, hkept]
  exact ⟨State.reg_setReg_same _ _ _ _ (State.canonical_regs hs), rfl, hset.work.regs, hset.work.mem⟩

/-! ### The effects of the commands that write registers -/

theorem exec_pcieTrained_reads {s : State} (hs : s.canonical = true) (gen lanes : Nat) {t : State}
    (ht : t = ({ s with pcieGen := gen, pcieLanes := lanes } : State).setBoot bsWait) :
    t.pcieGen = gen ∧ t.pcieLanes = lanes ∧ t.bootState = bsWait ∧ RegsKept s t [(.BOOT_STATUS, 0)] ∧ MemSame s t := by
  have hlink (v : State) (f : Fld) (n : Nat) : (v.setFld f 0 n).pcieGen = v.pcieGen ∧ (v.setFld f 0 n).pcieLanes = v.pcieLanes :=
    ⟨rfl, rfl⟩
  obtain ⟨hread, hwork⟩ := State.setBoot_reads (s := { s with pcieGen := gen, pcieLanes := lanes }) (State.canonical_regs hs)
    (State.canonical_blocks hs) (st := bsWait) (by decide)
  subst ht
  exact ⟨(hlink _ _ _).1, (hlink _ _ _).2, hread, hwork.work.regs, hwork.work.mem⟩

theorem exec_bootGo_reads {s : State} (hs : s.canonical = true) (a : Nat) (bs : List Byte) (b : Boot) {t : State}
    (ht : t = { (s.writeBytes a bs).setBoot bsFetch with boot := b }) : t.bootState = bsFetch ∧ t.readBytes a bs.length = bs ∧
      MemKept s t a bs.length ∧ RegsKept s t [(.BOOT_STATUS, 0)] := by
  obtain ⟨hbytes, hkept⟩ := State.writeBytes_reads hs a bs
  have hwf := State.canonical_regs hs
  have hblocks := State.canonical_blocks hs
  obtain ⟨hread, hwork⟩ := State.setBoot_reads (s := s.writeBytes a bs) hwf hblocks (st := bsFetch) (by decide)
  have hmem (f : Fld) (n : Nat) : ({ (s.writeBytes a bs).setFld f 0 n with boot := b } : State).readBytes a bs.length =
      (s.writeBytes a bs).readBytes a bs.length ∧ (MemKept s (s.writeBytes a bs) a bs.length →
      MemKept s ({ (s.writeBytes a bs).setFld f 0 n with boot := b } : State) a bs.length) := ⟨rfl, id⟩
  have hbook (u : State) (h : u.bootState = bsFetch) (hr : RegsKept s u [(.BOOT_STATUS, 0)]) :
      ({ u with boot := b } : State).bootState = bsFetch ∧ RegsKept s { u with boot := b } [(.BOOT_STATUS, 0)] := ⟨h, hr⟩
  obtain ⟨hstate, hregs⟩ := hbook _ hread hwork.work.regs
  subst ht
  exact ⟨hstate, (hmem _ _).1.trans hbytes, (hmem _ _).2 hkept, hregs⟩

theorem exec_seedbedReadDone_reads {s : State} (hs : s.canonical = true) (a : Nat) (bs : List Byte) (b : Boot) {t : State}
    (ht : t = { (s.writeBytes a bs).setFld Fld.BOOT_NVM_STATE 0 3 with boot := b }) : t.boot = b ∧ t.fld Fld.BOOT_NVM_STATE 0 = 3 ∧
      RegsKept s t [(.BOOT_NVM, 0)] ∧ t.readBytes a bs.length = bs ∧ MemKept s t a bs.length ∧ (bs = [] → MemSame s t) := by
  obtain ⟨hbytes, hkept⟩ := State.writeBytes_reads hs a bs
  have hwf := State.canonical_regs hs
  have hblocks := State.canonical_blocks hs
  have hread : ((s.writeBytes a bs).setFld Fld.BOOT_NVM_STATE 0 3).fld Fld.BOOT_NVM_STATE 0 = 3 % 2 ^ 4 :=
    State.fld_setFld_same (s.writeBytes a bs) _ _ _ hwf (by decide)
  have hwork := (RegWork.refl [(.BOOT_NVM, 0)] (s := s.writeBytes a bs) hwf hblocks).setFld
    (f := Fld.BOOT_NVM_STATE) (i := 0) (by decide) List.mem_cons_self 3
  have hmem (f : Fld) (n : Nat) : ({ (s.writeBytes a bs).setFld f 0 n with boot := b } : State).readBytes a bs.length =
      (s.writeBytes a bs).readBytes a bs.length ∧ (MemKept s (s.writeBytes a bs) a bs.length →
      MemKept s ({ (s.writeBytes a bs).setFld f 0 n with boot := b } : State) a bs.length) := ⟨rfl, id⟩
  have hnone (f : Fld) (n : Nat) (h : bs = []) : MemSame s ({ (s.writeBytes a bs).setFld f 0 n with boot := b } : State) := by
    subst h
    exact ⟨rfl, rfl, rfl⟩
  have hbook (u : State) (h : u.fld Fld.BOOT_NVM_STATE 0 = 3) (hr : RegsKept s u [(.BOOT_NVM, 0)]) :
      ({ u with boot := b } : State).boot = b ∧ ({ u with boot := b } : State).fld Fld.BOOT_NVM_STATE 0 = 3 ∧
      RegsKept s { u with boot := b } [(.BOOT_NVM, 0)] := ⟨rfl, h, hr⟩
  obtain ⟨hboot, hstate, hregs⟩ := hbook _ hread hwork.work.regs
  subst ht
  exact ⟨hboot, hstate, hregs, (hmem _ _).1.trans hbytes, (hmem _ _).2 hkept, hnone _ _⟩

/-- What NVM_OWN_N low leaves (R377). -/
theorem exec_nvmOwnFall_reads {s : State} (hs : s.canonical = true) {t : State}
    (ht : t = ((s.nvmPin true s.clock s.boot.nvmTotal).setBit Fld.BOOT_NVM_OWNED 0 true).setFld Fld.BOOT_NVM_STATE 0 2) :
    t.boot.nvmLow = true ∧ t.boot.nvmSince = s.clock ∧ t.bit Fld.BOOT_NVM_OWNED 0 = true ∧ t.fld Fld.BOOT_NVM_STATE 0 = 2 ∧
      RegsKept s t [(.BOOT_NVM, 0)] := by
  obtain ⟨howned, hstate, -, hwork⟩ := State.nvm_reads (s := s.nvmPin true s.clock s.boot.nvmTotal) (State.canonical_regs hs)
    (State.canonical_blocks hs) true (st := 2) (by decide) ht
  exact ⟨congrArg Boot.nvmLow hwork.boot, congrArg Boot.nvmSince hwork.boot, howned, hstate, hwork.work.regs⟩

/-- What NVM_OWN_N high again leaves: the whole read begins anew (R377). -/
theorem exec_nvmOwnRise_reads {s : State} (hs : s.canonical = true) {t : State}
    (ht : t = (((s.nvmPin false s.boot.nvmSince s.nvmHeld).setBit Fld.BOOT_NVM_OWNED 0 false).setFld Fld.BOOT_NVM_STATE 0 1).addSat
      Fld.BOOT_NVM_WAITS 0 1) :
    t.boot.nvmLow = false ∧ t.boot.nvmTotal = s.nvmHeld ∧ t.bit Fld.BOOT_NVM_OWNED 0 = false ∧ t.fld Fld.BOOT_NVM_STATE 0 = 1 ∧
      t.fld Fld.BOOT_NVM_WAITS 0 = min (s.fld Fld.BOOT_NVM_WAITS 0 + 1) (2 ^ Fld.BOOT_NVM_WAITS.width - 1) ∧
      RegsKept s t [(.BOOT_NVM, 0)] := by
  have hpin (f : Fld) (i : Nat) : (s.nvmPin false s.boot.nvmSince s.nvmHeld).fld f i = s.fld f i := rfl
  obtain ⟨howned, hstate, hwaits, hset⟩ := State.nvm_reads (s := s.nvmPin false s.boot.nvmSince s.nvmHeld) (State.canonical_regs hs)
    (State.canonical_blocks hs) false (st := 1) (by decide) rfl
  obtain ⟨howned', hstate', hwaits', hstep⟩ := State.nvmWaits_reads hset.work.wfRegs hset.work.wfBlocks ht
  refine ⟨(congrArg Boot.nvmLow hstep.boot).trans (congrArg Boot.nvmLow hset.boot),
    (congrArg Boot.nvmTotal hstep.boot).trans (congrArg Boot.nvmTotal hset.boot), howned'.trans howned, hstate'.trans hstate, ?_,
    fun r i hi hr => (hstep.work.regs r i hi hr).trans (hset.work.regs r i hi hr)⟩
  rw [hwaits', hwaits, hpin]

/-- Settles O51: each command of a start answers the state its own rule gives, and that state reads back field by field. -/
theorem startsRunThroughTheirStates : Obligations.StartsRunThroughTheirStates := by
  unfold Obligations.StartsRunThroughTheirStates
  intro s hs
  have hregs := State.canonical_regs hs
  have hblocks := State.canonical_blocks hs
  refine ⟨fun straps pass hoff hpass hstraps => ⟨_, exec_powerOn_begins hoff, State.powered_begins hpass hstraps rfl⟩,
    fun hon => ⟨_, exec_pwrSeqOkFall_loses hon, rfl, rfl, rfl, rfl, State.bootState_of_no_regs rfl⟩,
    fun hon htrip hperst => ?_, fun straps pass => exec_perstRelease_begins, fun a pass => exec_bootRestart_begins,
    fun gen lanes hon hperst htrip hlost hlo hhi hmin hmax hrom hregion => ⟨_, exec_pcieTrained_waits hon hperst htrip hlost ⟨hlo, hhi⟩
      ⟨hmin, hmax⟩ hrom hregion, exec_pcieTrained_reads hs gen lanes rfl⟩, ?_, fun r im => exec_imageVerified_judges,
    fun hon hlow hstate => ⟨_, exec_nvmOwnFall_stops hregs hon hlow hstate, exec_nvmOwnFall_reads hs rfl⟩,
    fun hon hlow hstate => ?_, exec_nvmWaitExpiry_gives, ?_, fun copyOk hfetch himage hseed => ⟨fun hnone => ?_, fun i m hi hm => ?_⟩,
    fun failed stackBits loads i m hstate htraining hi hm => ⟨fun r => lostRegions_testBit failed stackBits, fun hcold => ?_,
      fun hwarm hlost => ?_⟩, fun a v harrives hpriv => ⟨_, exec_bootSundialHigh_arms harrives hpriv, State.armSundial_reads hs v⟩⟩
  · obtain ⟨hstate, htasks, hdown, hmem⟩ := s.toReset_down
    exact ⟨_, exec_perstAssert_resets hon htrip hperst, rfl, rfl, hstate, htasks, hdown, hmem⟩
  · intro a r n harrives hpriv hwait hrange hregion hn
    have hlen : (s.readHost ((s.reg .BOOT_IMAGE_LOW 0).toNat + 2 ^ 32 * (s.reg .BOOT_IMAGE_HIGH 0).toNat) n).length = n := by
      simp [State.readHost]
    obtain ⟨hstate, hbytes, hmem, hkept⟩ := exec_bootGo_reads hs (imageBase r)
      (s.readHost ((s.reg .BOOT_IMAGE_LOW 0).toNat + 2 ^ 32 * (s.reg .BOOT_IMAGE_HIGH 0).toNat) n) { s.boot with imageOk := false } rfl
    rw [hlen] at hbytes hmem
    subst hn
    exact ⟨_, exec_bootGo_stages harrives hpriv hwait hrange hregion, hstate, hbytes, hmem, hkept⟩
  · have hheld : s.nvmHeld = s.boot.nvmTotal + (s.clock - s.boot.nvmSince) := by rw [State.nvmHeld, if_pos hlow]
    obtain ⟨hfree, htotal, hrest⟩ := exec_nvmOwnRise_reads hs rfl
    exact ⟨_, exec_nvmOwnRise_restarts hregs hon hlow hstate, hfree, htotal.trans hheld, hrest⟩
  · intro img r hregion hstate
    obtain ⟨hboot, hread, hkept, hbytes, hmem, hnone⟩ := exec_seedbedReadDone_reads hs (blockBase (8 * r))
      ((img.minimal.getD []) ++ (if img.minimal.isSome then img.main else [])) { s.boot with seedDone := true, seed := some img } rfl
    refine ⟨_, exec_seedbedReadDone_stages hregion hstate, congrArg Boot.seedDone hboot, congrArg Boot.seed hboot, hread, hkept,
      fun m hm => ?_, fun hm => hnone (by rw [hm]; rfl)⟩
    have hstaged : (img.minimal.getD []) ++ (if img.minimal.isSome then img.main else []) = m ++ img.main := by rw [hm]; rfl
    rw [hstaged] at hbytes hmem ⊢
    exact ⟨hbytes, hmem⟩
  · obtain ⟨hwork, -⟩ := State.entered_reads hregs hblocks
    obtain ⟨hstate, hreason, hstopped, houtputs, hmem⟩ := State.hold_reads hwork.wfRegs hwork.wfBlocks (reason := brMinCrc) (by decide)
    exact ⟨_, exec_firmwareEntry_holds hfetch himage hseed copyOk hnone, hstate, hreason, hstopped, houtputs, hwork.mem.trans hmem⟩
  · exact ⟨_, exec_firmwareEntry_enters hfetch himage hseed copyOk hi hm, State.entryJudged_reads hs copyOk _ i m rfl⟩
  · rw [exec_memoryTrainingDone_goesOn hstate htraining hi hm, if_neg]
    rintro h
    obtain ⟨hwarm, hlost⟩ := Bool.and_eq_true_iff.mp h
    rcases hcold with hcold | hcold
    · rw [hcold] at hwarm
      cases hwarm
    · exact bne_iff_ne.mp hlost hcold
  · rw [exec_memoryTrainingDone_goesOn hstate htraining hi hm, if_pos (by simp [hwarm, hlost])]

end Sys2Proof.Machine
end

section
/-!
Register accesses, the configuration scanner, the mailbox and the reads of log and harvest (R408, R421 to R440). Settles O53.
-/

namespace Sys2Proof.Machine
open Sys2Proof

/-! ### Writes that reach a register, and those that do not (R426 to R430) -/

section
variable {s : State} {a : Agent} {priv : Bool} {off : Nat} {r : Reg} {i : Nat} (haligned : off % 4 = 0)
  (hkey : Reg.atKey (baseOf off / 4) = some (r, i))
include haligned hkey

/-- A base write that reaches a writable register applies the bits of its writable fields (R430). -/
theorem State.writeAlias_base (hbase : aliasOf off = 0) (hreach : s.reaches a priv r i = true) (hwritable : s.writable r = true)
    (hbits : r.writeBits priv ≠ 0) (v : W32) :
    s.writeAlias a priv off v = s.acceptWrite a r i (Nat.land v.toNat (r.writeBits priv)) := by
  rw [baseOf_of_base hbase] at hkey
  unfold State.writeAlias State.writeReg
  rw [if_neg (not_not.mpr haligned), if_pos hbase, hkey]
  refine (if_neg (not_not.mpr haligned)).trans ?_
  dsimp only
  rw [if_neg (by simp [hreach]), if_neg (by simp [hbits, hwritable])]

/-- The value that a write to an aliased offset gives the RW bits (R429). -/
def aliasValue (op old n : Nat) : Nat := if op = 1 then Nat.lor old n else if op = 2 then clearMask old n else Nat.xor old n

/-- A write to an aliased offset changes the RW bits only (R429). -/
theorem State.writeAlias_alias (halias : aliasOf off ≠ 0) (hreach : s.reaches a priv r i = true) (hwritable : s.writable r = true)
    {v : W32} (hbits : r.accBits .rw priv ≠ 0) (hwo : Nat.land v.toNat (r.accBits .wo priv) = 0)
    (hw1l : Nat.land v.toNat (r.accBits .w1l priv) = 0) : s.writeAlias a priv off v = s.acceptWrite a r i
      (aliasValue (aliasOf off) (Nat.land (s.stored r i) (r.accBits .rw priv)) (Nat.land v.toNat (r.accBits .rw priv))) := by
  unfold State.writeAlias
  rw [if_neg (not_not.mpr haligned), if_neg halias, hkey]
  dsimp only
  rw [if_neg (by simp [hreach]), if_neg (not_not.mpr hwo), if_neg (not_not.mpr hw1l), if_neg (by simp [hbits, hwritable])]
  rfl

/-- A write in the general view to an instance of another plot or of none (R371, R426). -/
theorem State.writeAlias_foreign (hreach : s.reaches a false r i = false) (v : W32) :
    s.writeAlias a false off v = s.foreignWrite a r i off := by
  unfold State.writeAlias
  rw [if_neg (not_not.mpr haligned)]
  split
  · next hbase =>
    rw [baseOf_of_base hbase] at hkey
    unfold State.writeReg
    rw [if_neg (not_not.mpr haligned), hkey]
    dsimp only
    rw [if_pos (by simp [hreach]), if_neg Bool.noConfusion]
  · rw [hkey]
    dsimp only
    rw [if_pos (by simp [hreach]), if_neg Bool.noConfusion]

end

/-- A plot's write of another plot's instance is logged for the writing plot (R371). -/
theorem State.foreignWrite_owned {s : State} {p : PlotIx} {r : Reg} {i : Nat} (hreach : s.reaches (.vf p) false r i = false)
    (howner : s.ownerOf r i ≠ .free) (off : Nat) : s.foreignWrite (.vf p) r i off = s.logIgnored p.val 13 off := by
  unfold State.foreignWrite
  cases howned : s.ownerOf r i with
  | chip =>
    unfold State.reaches at hreach
    rw [if_neg Bool.noConfusion, howned] at hreach
    cases hreach
  | free => exact absurd howned howner
  | plot k => rfl

theorem State.foreignWrite_free {s : State} {r : Reg} {i : Nat} (howner : s.ownerOf r i = .free) (a : Agent) (off : Nat) :
    s.foreignWrite a r i off = s := by
  unfold State.foreignWrite
  rw [howner]

/-! ### Reads that clear (R432) -/

/-- What lies at a word offset is an instance that exists (R435). -/
theorem Reg.atKey_count {k : Nat} {r : Reg} {i : Nat} (h : Reg.atKey k = some (r, i)) : i < r.count := by
  unfold Reg.atKey at h
  obtain ⟨q, hq, he⟩ := Option.map_eq_some_iff.mp h
  have hfound := List.find?_some hq
  obtain ⟨rfl, rfl⟩ := Prod.mk.inj he
  simp only [Bool.and_eq_true, decide_eq_true_eq] at hfound
  omega

/-- A base read of a register with RC fields answers its readable bits and clears the RC bits that read one. -/
theorem exec_rcRead_clears {s : State} (hs : s.canonical = true) {a : Agent} {priv : Bool} {off : Nat} {r : Reg} {i : Nat}
    (harrives : s.arrives a = true) (hview : off < viewSize) (haligned : off % 4 = 0) (hkey : Reg.atKey (baseOf off / 4) = some (r, i))
    (hreach : s.reaches a priv r i = true) (hheld : s.hubHeld = false) (hbase : aliasOf off = 0) (hperf : perfAt off = none)
    (hlow : r ≠ .SDL_TIME_LOW) (hhigh : r ≠ .SDL_TIME_HIGH) (hrc : r.accBits .rc priv ≠ 0) :
    Completes (.rcRead a priv off) s fun t =>
      t.rdata = BitVec.ofNat 32 (Nat.land (s.regNow r i) (r.readBits priv)) ∧
      t.reg r i = BitVec.ofNat 32 (clearMask (s.reg r i).toNat
        (Nat.land (Nat.land (s.regNow r i) (r.readBits priv)) (r.accBits .rc priv))) ∧
      RegsKept s t [(r, i)] ∧ MemSame s t := by
  have hvalue : s.readValue a priv off = Nat.land (s.regNow r i) (r.readBits priv) := by
    unfold State.readValue
    rw [if_neg (not_not.mpr haligned), hkey]
    dsimp only
    rw [if_neg (by simp [hreach, hheld]), if_neg hhigh]
  have heffect (v : Nat) : ∃ n, s.readEffect a priv off v =
      { s.setReg r i (BitVec.ofNat 32 (clearMask (s.reg r i).toNat (Nat.land v (r.accBits .rc priv)))) with alertFrom := n } := by
    unfold State.readEffect
    rw [← baseOf_of_base hbase, hkey, baseOf_of_base hbase]
    dsimp only
    rw [if_neg (by simp [haligned, hreach, hheld]), if_neg hlow, if_neg hrc]
    split
    · exact ⟨_, rfl⟩
    · exact ⟨s.alertFrom, rfl⟩
  have hcleared (w : W32) (n : Nat) (x : W32) :
      ({ { s.setReg r i w with alertFrom := n } with rdata := x } : State).rdata = x ∧
      ({ { s.setReg r i w with alertFrom := n } with rdata := x } : State).reg r i = w ∧
      RegsKept s { { s.setReg r i w with alertFrom := n } with rdata := x } [(r, i)] ∧
      MemSame s { { s.setReg r i w with alertFrom := n } with rdata := x } :=
    ⟨rfl, State.reg_setReg_same _ _ _ _ (State.canonical_regs hs), fun q j hj hq =>
      State.reg_setReg_other s w (Reg.atKey_count hkey) hj fun h => hq (by simp [h.1, h.2]), rfl, rfl, rfl⟩
  obtain ⟨n, heff⟩ := heffect (Nat.land (s.regNow r i) (r.readBits priv))
  refine ⟨_, exec_rcRead_answers harrives hview haligned hperf (by rw [hheld, Bool.false_and]), ?_⟩
  rw [if_pos hbase, hvalue, heff]
  exact hcleared _ _ _

/-! ### Write-once fields (R434, R439) -/

/-- A base write of a privileged agent to a writable register outside the store is its register's own write. -/
theorem State.writeReg_uncovered {s : State} {a : Agent} {r : Reg} (hpriv : s.privOk a = true) (hkey : Reg.atKey (r.offset / 4) = some (r, 0))
    (haligned : r.offset % 4 = 0) (hbits : r.writeBits true ≠ 0) (hwritable : s.writable r = true) (hcover : coverOf r 0 = none) (v : W32) :
    s.writeReg a true r.offset v = s.applyWrite a r 0 (Nat.land v.toNat (r.writeBits true)) := by
  unfold State.writeReg
  rw [if_neg (not_not.mpr haligned), hkey]
  dsimp only
  rw [if_neg (by simp [State.reaches, hpriv]), if_neg (by simp [hbits, hwritable]), State.acceptWrite, State.overUpset, hcover]

/-- A register of neither the mailbox nor the seedbed takes writes at any time. -/
theorem State.writable_of_other {s : State} {r : Reg} (hbox : mailboxRegs.contains r = false) (hseed : seedbedRegs.contains r = false) :
    s.writable r = true := by
  unfold State.writable
  rw [hbox, hseed]
  rfl

section
variable {s : State} {a : Agent} (harrives : s.arrives a = true) (hpriv : s.privOk a = true)
include harrives hpriv

theorem exec_w1lWrite_ref (v : W32) : exec (.w1lWrite a (Reg.offset .HUB_CONFIG_REF) v) s = .next (s.writeRef a v) := by
  have hwrite : s.writeReg a true (Reg.offset .HUB_CONFIG_REF) v = s.applyWrite a .HUB_CONFIG_REF 0 v.toNat := by
    rw [State.writeReg_uncovered hpriv (by decide) (by decide) (by decide) (State.writable_of_other (by decide) (by decide)) rfl]
    have hmask : Reg.writeBits .HUB_CONFIG_REF true = 2 ^ 32 - 1 := by decide
    have hland : Nat.land v.toNat (2 ^ 32 - 1) = v.toNat :=
      (Nat.and_two_pow_sub_one_eq_mod v.toNat 32).trans (Nat.mod_eq_of_lt v.isLt)
    rw [hmask, hland]
  have happly (n : Nat) : s.applyWrite a .HUB_CONFIG_REF 0 n = s.writeRef a (BitVec.ofNat 32 n) := rfl
  have hw1l : ((Reg.atKey (Reg.offset .HUB_CONFIG_REF / 4)).elim true fun e => e.1.accBits .w1l true == 0) = false := by decide
  show execW1lWrite a _ v s = _
  unfold execW1lWrite
  rw [if_neg (by rw [hw1l, harrives]; decide), hwrite, happly, BitVec.ofNat_toNat, BitVec.setWidth_eq]

theorem exec_privLockDrop_drops (hopen : s.privLocked = false) : exec (.privLockDrop a) s =
    .next { s.setBit Fld.HUB_PRIV_LOCK_DROP 0 true with privLocked := true } := by
  have hwrite : s.writeReg a true (Reg.offset .HUB_PRIV_LOCK) 1 = s.applyWrite a .HUB_PRIV_LOCK 0 1 := by
    rw [State.writeReg_uncovered hpriv (by decide) (by decide) (by decide) (State.writable_of_other (by decide) (by decide)) rfl]
    rfl
  have happly : s.applyWrite a .HUB_PRIV_LOCK 0 1 = if s.privLocked then s.lockViol a (Reg.offset .HUB_PRIV_LOCK + 4 * 0)
      else { s.setBit Fld.HUB_PRIV_LOCK_DROP 0 (Nat.testBit 1 0) with privLocked := true } := rfl
  show execPrivLockDrop a s = _
  unfold execPrivLockDrop
  rw [if_neg (by simp [harrives]), hwrite, happly, if_neg (by simp [hopen])]
  rfl

end

/-- The first write of the reference commits it (R439). -/
theorem State.writeRef_reads {s : State} (hs : s.canonical = true) (hopen : s.bit Fld.HUB_CONFIG_STATUS_COMMITTED 0 = false) (a : Agent)
    (v : W32) {t : State} (ht : t = s.writeRef a v) : t.reg .HUB_CONFIG_REF 0 = v ∧ t.bit Fld.HUB_CONFIG_STATUS_COMMITTED 0 = true ∧
      RegsKept s t [(.HUB_CONFIG_REF, 0), (.HUB_CONFIG_STATUS, 0)] ∧ MemSame s t := by
  have href := (UnitWork.refl [(.HUB_CONFIG_REF, 0), (.HUB_CONFIG_STATUS, 0)] hs).setReg (r := .HUB_CONFIG_REF) (i := 0) (by decide)
    List.mem_cons_self v
  have hset := href.setBit (f := Fld.HUB_CONFIG_STATUS_COMMITTED) (i := 0) (by decide) (by simp [Fld.HUB_CONFIG_STATUS_COMMITTED]) true
  have hkept := ((href.restart [(.HUB_CONFIG_STATUS, 0)]).setBit (f := Fld.HUB_CONFIG_STATUS_COMMITTED) (i := 0) (by decide)
    List.mem_cons_self true).regs .HUB_CONFIG_REF 0 (by decide) (by decide)
  have hwritten : s.writeRef a v = (s.setReg .HUB_CONFIG_REF 0 v).setBit Fld.HUB_CONFIG_STATUS_COMMITTED 0 true := by
    unfold State.writeRef
    exact if_neg (by simp [hopen])
  rw [ht, hwritten]
  exact ⟨hkept.trans (State.reg_setReg_same _ _ _ _ (State.canonical_regs hs)),
    State.bit_setBit_same _ _ _ _ href.wfRegs (by decide) (by decide), hset.regs, hset.mem⟩

/-- Once DROP is written it is locked and PF0 is no more privileged (R427). -/
theorem State.dropped_reads {s : State} (hs : s.canonical = true) {t : State}
    (ht : t = { s.setBit Fld.HUB_PRIV_LOCK_DROP 0 true with privLocked := true }) : t.bit Fld.HUB_PRIV_LOCK_DROP 0 = true ∧
      t.privLocked = true ∧ t.privOk .pf0 = false ∧ RegsKept s t [(.HUB_PRIV_LOCK, 0)] ∧ MemSame s t := by
  have hset := (UnitWork.refl [(.HUB_PRIV_LOCK, 0)] hs).setBit (f := Fld.HUB_PRIV_LOCK_DROP) (i := 0) (by decide) List.mem_cons_self true
  have hdrop : (s.setBit Fld.HUB_PRIV_LOCK_DROP 0 true).bit Fld.HUB_PRIV_LOCK_DROP 0 = true :=
    State.bit_setBit_same _ _ _ _ (State.canonical_regs hs) (by decide) (by decide)
  have hlocked (u : State) (hu : u.bit Fld.HUB_PRIV_LOCK_DROP 0 = true) :
      ({ u with privLocked := true } : State).bit Fld.HUB_PRIV_LOCK_DROP 0 = true ∧ ({ u with privLocked := true } : State).privLocked = true ∧
      ({ u with privLocked := true } : State).privOk .pf0 = false ∧ (RegsKept s u [(.HUB_PRIV_LOCK, 0)] →
      RegsKept s { u with privLocked := true } [(.HUB_PRIV_LOCK, 0)]) ∧ (MemSame s u → MemSame s { u with privLocked := true }) :=
    ⟨hu, rfl, congrArg (!·) hu, id, id⟩
  obtain ⟨hread, hlock, hpf, hregs, hmem⟩ := hlocked _ hdrop
  subst ht
  exact ⟨hread, hlock, hpf, hregs hset.regs, hmem hset.mem⟩

/-! ### Performance counters (R422, R435) -/

theorem State.canonical_perf {s : State} (h : s.canonical = true) : Sparse.wf (fun _ => ⟨0, false, 0⟩) s.perf = true := by
  simp only [State.canonical, Bool.and_eq_true, and_assoc] at h
  obtain ⟨-, -, -, -, -, -, -, -, -, -, -, -, -, -, -, -, hperf, -⟩ := h
  exact hperf

theorem State.canonical_storeUpset {s : State} (h : s.canonical = true) : Sparse.wf (fun _ => 0) s.storeUpset = true := by
  simp only [State.canonical, Bool.and_eq_true, and_assoc] at h
  obtain ⟨-, -, -, -, -, -, -, -, -, -, -, -, -, hupset, -⟩ := h
  exact hupset

/-- A counter counts modulo 2^48 with OVF, and its low register latches the high half. -/
theorem exec_perfCounterRead_counts {s : State} (hs : s.canonical = true) {a : Agent} {n steps : Nat} (harrives : s.arrives a = true)
    (hn : n < 262144) : Completes (.perfCounterRead a n steps) s fun t =>
      t.rdata = BitVec.ofNat 32 (((s.perfOf n).count + steps) % 2 ^ 48) ∧
      t.perfOf n = ⟨((s.perfOf n).count + steps) % 2 ^ 48, (s.perfOf n).ovf || decide (2 ^ 48 ≤ (s.perfOf n).count + steps),
        ((s.perfOf n).count + steps) % 2 ^ 48 / 2 ^ 32⟩ ∧ t.regs = s.regs ∧ MemSame s t := by
  have hsame (u : State) (hu : Sparse.wf (fun _ => ⟨0, false, 0⟩) u.perf = true) (x : Perf) : (u.setPerf n x).perfOf n = x :=
    Sparse.get_set_same _ _ _ _ hu
  have hwf (x : Perf) : Sparse.wf (fun _ => ⟨0, false, 0⟩) (s.setPerf n x).perf = true := Sparse.wf_set _ _ _ _ (State.canonical_perf hs)
  have hread (u : State) : u.readPerf n false = { u.setPerf n { u.perfOf n with high := (u.perfOf n).count / 2 ^ 32 } with
      rdata := BitVec.ofNat 32 (u.perfOf n).count } := rfl
  have hdone (x y : Perf) (w : W32) (hy : ((s.setPerf n x).setPerf n y).perfOf n = y) :
      ({ (s.setPerf n x).setPerf n y with rdata := w } : State).rdata = w ∧
      ({ (s.setPerf n x).setPerf n y with rdata := w } : State).perfOf n = y ∧
      ({ (s.setPerf n x).setPerf n y with rdata := w } : State).regs = s.regs ∧
      MemSame s { (s.setPerf n x).setPerf n y with rdata := w } := ⟨rfl, hy, rfl, rfl, rfl, rfl⟩
  refine ⟨_, if_neg (by simp [harrives]; omega), ?_⟩
  dsimp only
  rw [hread, hsame s (State.canonical_perf hs)]
  exact hdone _ _ _ (hsame _ (hwf _) _)

/-! ### The configuration scanner (R437, R439) -/

/-- The store's upsets with those of one word more. -/
def State.upsetBy (s : State) (f : WordFlip) : List (Nat × Nat) :=
  Sparse.set (fun _ => 0) s.storeUpset f.word (Nat.xor (Sparse.get (fun _ => 0) s.storeUpset f.word) (f.bits % 2 ^ 32))

theorem exec_configScanStart_flips {s : State} (hs : s.canonical = true) {f : WordFlip} (hon : s.boot.seqOk = true) (hf : f.word < 16384) :
    Completes (.configScanStart [f]) s fun t =>
      t.scanStart = some s.sundial ∧ t.storeWord f.word = (s.storeWord f.word).xor (f.bits % 2 ^ 32) ∧
      (∀ w, w ≠ f.word → t.storeWord w = s.storeWord w) ∧ t.regs = s.regs := by
  have hexec : execConfigScanStart [f] s = .next { s with storeUpset := s.upsetBy f, scanStart := some s.sundial } := by
    unfold execConfigScanStart
    refine (if_neg (by simp [hon])).trans ?_
    rw [List.foldl_cons, List.foldl_nil, if_pos hf]
    rfl
  have hclean (u : List (Nat × Nat)) (n : Option Nat) (w : Nat) :
      ({ s with storeUpset := u, scanStart := n } : State).cleanWord w = s.cleanWord w := rfl
  refine ⟨_, hexec, rfl, ?_, fun w hw => ?_, rfl⟩
  · rw [State.storeWord, hclean]
    show (s.cleanWord f.word).xor (Sparse.get (fun _ => 0) (s.upsetBy f) f.word) = _
    rw [State.upsetBy, Sparse.get_set_same _ _ _ _ (State.canonical_storeUpset hs)]
    exact (Nat.xor_assoc _ _ _).symm
  · rw [State.storeWord, hclean]
    show (s.cleanWord w).xor (Sparse.get (fun _ => 0) (s.upsetBy f) w) = _
    rw [State.upsetBy, Sparse.get_set_other _ _ _ hw]
    rfl

/-- The end of a pass: PASSES steps and the CRC stands (R437). -/
def State.scanPassed (s : State) : State :=
  (({ s with scanStart := none } : State).stepFld Fld.HUB_CONFIG_STATUS_PASSES 0).setReg .HUB_CONFIG_CRC 0 (BitVec.ofNat 32 s.storeCrc)

theorem State.scanPassed_reads {s : State} (hs : s.canonical = true) :
    UnitWork [(.HUB_CONFIG_STATUS, 0), (.HUB_CONFIG_CRC, 0)] s s.scanPassed ∧ s.scanPassed.fld Fld.HUB_CONFIG_STATUS_PASSES 0 =
      (s.fld Fld.HUB_CONFIG_STATUS_PASSES 0 + 1) % 2 ^ Fld.HUB_CONFIG_STATUS_PASSES.width ∧
      s.scanPassed.bit Fld.HUB_CONFIG_STATUS_COMMITTED 0 = s.bit Fld.HUB_CONFIG_STATUS_COMMITTED 0 ∧
      s.scanPassed.reg .HUB_CONFIG_CRC 0 = BitVec.ofNat 32 s.storeCrc ∧ s.scanPassed.resets = s.resets := by
  have hself := UnitWork.refl [(.HUB_CONFIG_STATUS, 0), (.HUB_CONFIG_CRC, 0)] hs
  have hidle : UnitWork [(.HUB_CONFIG_STATUS, 0), (.HUB_CONFIG_CRC, 0)] s { s with scanStart := none } :=
    ⟨hself.wfRegs, hself.wfBlocks, hself.regs, hself.mem⟩
  have hstep (n : Nat) := hidle.setFld (f := Fld.HUB_CONFIG_STATUS_PASSES) (i := 0) (by decide) List.mem_cons_self n
  have hcrc (n : Nat) (v : W32) := ((hstep n).restart [(.HUB_CONFIG_CRC, 0)]).setReg (r := .HUB_CONFIG_CRC) (i := 0) (by decide)
    List.mem_cons_self v
  have hboth (n : Nat) (v : W32) := (hstep n).setReg (r := .HUB_CONFIG_CRC) (i := 0) (by decide) (by simp) v
  have hquiet (u : State) (f : Fld) (i : Nat) (r : Reg) (v : W32) : ((u.stepFld f i).setReg r i v).resets = u.resets ∧
      ({ u with scanStart := none } : State).resets = u.resets ∧ ({ u with scanStart := none } : State).fld f i = u.fld f i :=
    ⟨rfl, rfl, rfl⟩
  unfold State.scanPassed
  refine ⟨hboth _ _, ?_, ?_, State.reg_setReg_same _ _ _ _ (hstep _).wfRegs, (hquiet _ _ _ _ _).1.trans
    (hquiet _ Fld.HUB_CONFIG_STATUS_PASSES 0 .HUB_CONFIG_CRC 0).2.1⟩
  · unfold State.stepFld
    rw [(hcrc _ _).fld (f := Fld.HUB_CONFIG_STATUS_PASSES) (by decide) (by decide), State.fld_setFld_same _ _ _ _ hidle.wfRegs (by decide),
      (hquiet _ _ _ .HUB_CONFIG_CRC 0).2.2]
  · unfold State.stepFld
    rw [State.bit, (hcrc _ _).fld (f := Fld.HUB_CONFIG_STATUS_COMMITTED) (by decide) (by decide),
      State.fld_setFld_beside _ Fld.HUB_CONFIG_STATUS_PASSES Fld.HUB_CONFIG_STATUS_COMMITTED 0 _ hidle.wfRegs rfl (by decide) (by decide),
      (hquiet _ _ _ .HUB_CONFIG_CRC 0).2.2]
    rfl

/-- A pass that ends with a difference from a committed reference is a mismatch (R439). -/
theorem exec_configScanPass_compares {s : State} (hs : s.canonical = true) {n : Nat} (hscan : s.scanStart = some n) :
    exec .configScanPass s = .next (if s.bit Fld.HUB_CONFIG_STATUS_COMMITTED 0 && BitVec.ofNat 32 s.storeCrc != s.reg .HUB_CONFIG_REF 0
      then s.scanPassed.configMismatch else s.scanPassed) := by
  obtain ⟨hwork, -, hcommitted, -, -⟩ := State.scanPassed_reads hs
  have hscanned : execConfigScanPass s = if s.scanPassed.bit Fld.HUB_CONFIG_STATUS_COMMITTED 0 &&
      BitVec.ofNat 32 s.storeCrc != s.scanPassed.reg .HUB_CONFIG_REF 0 then .next s.scanPassed.configMismatch else .next s.scanPassed := by
    unfold execConfigScanPass
    rw [hscan]
    rfl
  show execConfigScanPass s = _
  rw [hscanned, hcommitted, hwork.regs .HUB_CONFIG_REF 0 (by decide) (by decide)]
  split
  · rfl
  · rfl

theorem RegWork.foldl_logEvent {α : Type} {l : List (Reg × Nat)} {s u : State} (h : RegWork l s u) (hl : (.HUB_LOG_LOST, 0) ∈ l)
    (xs : List α) (plot source cls k detail : α → Nat) :
    RegWork l s (xs.foldl (fun s e => s.logEvent (plot e) (source e) (cls e) (k e) (detail e)) u) := by
  induction xs generalizing u with
  | nil => exact h
  | cons x xs ih => exact ih (h.logEvent hl _ _ _ _ _)

/-- A mismatch is told by MISMATCH and STOPPED and asks for a chip reset (R22, R439). -/
theorem State.configMismatch_reads {s : State} (hregs : Sparse.wf regReset s.regs = true)
    (hblocks : Sparse.wf (fun _ => Block.empty) s.blocks = true) :
    s.configMismatch.fld Fld.HUB_CONFIG_STATUS_PASSES 0 = s.fld Fld.HUB_CONFIG_STATUS_PASSES 0 ∧
      s.configMismatch.reg .HUB_CONFIG_CRC 0 = s.reg .HUB_CONFIG_CRC 0 ∧ s.configMismatch.bit Fld.HUB_CONFIG_STATUS_MISMATCH 0 = true ∧
      s.configMismatch.bit Fld.ADM_POLICY_STOPPED 0 = true ∧ ∃ q, q ∈ s.configMismatch.resets ∧ q.level = 4 ∧ q.index = 0 := by
  have hmiss := (RegWork.refl [(.HUB_CONFIG_STATUS, 0)] hregs hblocks).setBit (f := Fld.HUB_CONFIG_STATUS_MISMATCH) (i := 0) (by decide)
    List.mem_cons_self true
  have hstop := (hmiss.restart [(.ADM_POLICY, 0)]).setBit (f := Fld.ADM_POLICY_STOPPED) (i := 0) (by decide) List.mem_cons_self true
  have hlogged (xs : List (Nat × Nat × Nat)) := (hstop.restart [(.HUB_LOG_LOST, 0)]).foldl_logEvent List.mem_cons_self xs (·.1)
    (fun _ => 14) (fun _ => 3) (fun _ => 68) (fun e => e.2.1 + e.2.2 * 2 ^ 32)
  have hasked (u : State) (f : Fld) : (u.requestReset 4 0x08 0 none).fld f 0 = u.fld f 0 :=
    congrArg (fun v : W32 => bitsAt v.toNat f.lo f.width) (State.reg_requestReset u 4 0x08 0 none [] f.reg 0)
  unfold State.configMismatch
  dsimp only
  refine ⟨?_, ?_, ?_, ?_, State.mem_resets_requestReset _ _ _ _ _ _⟩
  · rw [hasked, (hlogged _).fld (f := Fld.HUB_CONFIG_STATUS_PASSES) (by decide) (by decide),
      hstop.fld (f := Fld.HUB_CONFIG_STATUS_PASSES) (by decide) (by decide), State.setBit,
      State.fld_setFld_beside _ Fld.HUB_CONFIG_STATUS_MISMATCH Fld.HUB_CONFIG_STATUS_PASSES 0 _ hregs rfl (by decide) (by decide)]
  · rw [State.reg_requestReset, (hlogged _).work.regs .HUB_CONFIG_CRC 0 (by decide) (by decide),
      hstop.work.regs .HUB_CONFIG_CRC 0 (by decide) (by decide), hmiss.work.regs .HUB_CONFIG_CRC 0 (by decide) (by decide)]
  · rw [State.bit, hasked, (hlogged _).fld (f := Fld.HUB_CONFIG_STATUS_MISMATCH) (by decide) (by decide),
      hstop.fld (f := Fld.HUB_CONFIG_STATUS_MISMATCH) (by decide) (by decide)]
    exact State.bit_setBit_same _ Fld.HUB_CONFIG_STATUS_MISMATCH 0 _ hregs (by decide) (by decide)
  · rw [State.bit, hasked, (hlogged _).fld (f := Fld.ADM_POLICY_STOPPED) (by decide) (by decide)]
    exact State.bit_setBit_same _ Fld.ADM_POLICY_STOPPED 0 _ hmiss.work.wfRegs (by decide) (by decide)

/-! ### Mailbox, log and harvest (R408, R421, R440, R441) -/

/-- Starting a command leaves the command's words. -/
theorem State.mboxCommand_busy (s : State) (v : Bool) : (s.setBit Fld.HUB_MBOX_STATUS_BUSY 0 v).mboxCommand = s.mboxCommand := by
  have hword : ∀ i ∈ List.range 16, leBytes 4 ((s.setBit Fld.HUB_MBOX_STATUS_BUSY 0 v).reg .HUB_MBOX_CMD i).toNat =
      leBytes 4 (s.reg .HUB_MBOX_CMD i).toNat := fun i hi => by
    rw [State.setBit, State.setFld, State.reg_setReg_other s _ (by decide) (List.mem_range.mp hi) (by simp [Fld.HUB_MBOX_STATUS_BUSY])]
  unfold State.mboxCommand
  rw [List.flatMap_congr hword]

section
variable {s : State} {a : Agent} (hpriv : s.privOk a = true)
include hpriv

theorem exec_mboxGo_rejects (hbusy : s.bit Fld.HUB_MBOX_STATUS_BUSY 0 = true) :
    exec (.mboxGo a) s = .next (s.setBit Fld.HUB_MBOX_STATUS_REJECTED 0 true) := by
  show execMboxGo a s = _
  unfold execMboxGo
  rw [if_neg (by simp [hpriv]), if_pos hbusy]

theorem exec_mboxGo_starts (hidle : s.bit Fld.HUB_MBOX_STATUS_BUSY 0 = false) : exec (.mboxGo a) s =
    .next (if mboxKnown s.mboxCommand.op then s.setBit Fld.HUB_MBOX_STATUS_BUSY 0 true
      else (s.setBit Fld.HUB_MBOX_STATUS_BUSY 0 true).mboxOpen stBadArg) := by
  show execMboxGo a s = _
  unfold execMboxGo
  rw [if_neg (by simp [hpriv]), if_neg (by simp [hidle])]
  dsimp only
  rw [State.mboxCommand_busy]
  split
  · rfl
  · rfl

end

/-- A mailbox command that runs with its arguments in range runs its body (R440). -/
theorem State.runMbox_runs {s : State} {op : Nat} {ok : Cmd → Bool} {body : Cmd → State → State} (h : MailboxRuns s op)
    (hok : ok s.mboxCommand = true) : s.runMbox op ok body = body s.mboxCommand s := by
  obtain ⟨hbusy, hheld, hfw, hop⟩ := h
  unfold State.runMbox
  dsimp only
  rw [if_neg (by simp [hbusy, hheld, hfw, hop]), if_pos hok]

theorem exec_logRead_plot {s u : State} {p : PlotIx} {c : Cmd} (htake : s.take p.val 0x60 = some (c, u)) (hclean : c.cleanFrom 26 = true)
    (hseq : c.seqNo = 0) (howns : u.ownsRange p.val (c.arg 16 8) (16 + 32 * c.arg 24 2) = true) : exec (.logRead (some p)) s =
      .next (State.dropUnknown ringFuel (((u.storeBytes (c.arg 16 8) (u.logBytes (some p.val) (c.arg 8 8) (c.arg 24 2)).1).1).finish c.id
        stOk (u.logBytes (some p.val) (c.arg 8 8) (c.arg 24 2)).2)) := by
  show execLogRead (some p) s = _
  unfold execLogRead
  dsimp only
  rw [State.runCommand_taken htake (by simp [hclean, hseq])]
  rw [if_neg (by simp [howns])]

theorem exec_logRead_mailbox {s : State} (h : MailboxRuns s 0x60) (hclean : s.mboxCommand.mboxClean 26 = true) :
    exec (.logRead none) s = .next ((s.writeHost (s.mboxCommand.arg 16 8)
      (s.logBytes none (s.mboxCommand.arg 8 8) (s.mboxCommand.arg 24 2)).1).mboxDone stOk
      (s.logBytes none (s.mboxCommand.arg 8 8) (s.mboxCommand.arg 24 2)).2) := by
  show execLogRead none s = _
  unfold execLogRead
  dsimp only
  rw [State.runMbox_runs h hclean]

theorem exec_harvestRead_reads {s : State} {bs : List Byte} (h : MailboxRuns s 0x61) (hclean : s.mboxCommand.mboxClean 24 = true)
    (hzero : s.mboxCommand.arg 10 6 = 0) (hregion : s.mboxCommand.arg 8 1 < 4) (hslot : s.mboxCommand.arg 9 1 < 16)
    (hslice : Table.get s.harvest (16 * s.mboxCommand.arg 8 1 + s.mboxCommand.arg 9 1) = some bs) :
    exec .harvestRead s = .next ((s.writeHost (s.mboxCommand.arg 16 8) bs).mboxOpen stOk) := by
  show execHarvestRead s = _
  unfold execHarvestRead
  rw [State.runMbox_runs h (by simp [hclean, hzero, hregion, hslot])]
  rw [hslice]

/-- Settles O53: accesses that reach a register and those that do not, each further command with the state it answers. -/
theorem registersAreReadWrittenAndScanned : Obligations.RegistersAreReadWrittenAndScanned := by
  unfold Obligations.RegistersAreReadWrittenAndScanned
  intro s u hs
  refine ⟨fun a priv off v r i harrives hview haligned hkey => ⟨fun hreach hwritable => ⟨fun hbase hbits => ?_,
      fun hbits hwo hw1l => ?_⟩, ?_, fun hreach howner => ?_, exec_rcRead_clears hs harrives hview haligned hkey⟩,
    fun a v harrives hpriv => ⟨fun hopen => ⟨_, exec_w1lWrite_ref harrives hpriv v, State.writeRef_reads hs hopen a v rfl⟩,
      fun hcommitted => ?_, fun hopen => ⟨_, exec_privLockDrop_drops harrives hpriv hopen, State.dropped_reads hs rfl⟩⟩,
    fun a n steps harrives hn => exec_perfCounterRead_counts hs harrives hn,
    fun f hon hf => exec_configScanStart_flips hs hon hf, fun n hscan => ⟨_, exec_configScanPass_compares hs hscan, ?_⟩,
    fun a hpriv => ⟨exec_mboxGo_rejects hpriv, fun hidle => ⟨fun hknown => ?_, fun hunknown => ?_⟩⟩,
    fun p c r htake hclean hseq howns hr => ?_, fun c r h hc hclean hr => ?_, fun c bs h hc hclean hzero hregion hslot hslice => ?_⟩
  · rw [exec_registerWrite_arrives harrives hview, State.writeAlias_base haligned hkey hbase hreach hwritable hbits]
  · have hwrites (k : Nat) (hk : aliasOf off = k) (hne : k ≠ 0) : exec (.aliasWrite a priv off v) s = .next (s.acceptWrite a r i
        (aliasValue k (Nat.land (s.stored r i) (r.accBits .rw priv)) (Nat.land v.toNat (r.accBits .rw priv)))) := by
      rw [exec_aliasWrite_arrives harrives hview (by omega),
        State.writeAlias_alias haligned hkey (by omega) hreach hwritable hbits hwo hw1l, hk]
    exact ⟨fun hk => hwrites 1 hk (by decide), fun hk => hwrites 2 hk (by decide), fun hk => hwrites 3 hk (by decide)⟩
  · rintro p rfl hreach howner
    rw [exec_registerWrite_arrives harrives hview, State.writeAlias_foreign haligned hkey hreach, State.foreignWrite_owned hreach howner]
  · rw [exec_registerWrite_arrives harrives hview, State.writeAlias_foreign haligned hkey hreach, State.foreignWrite_free howner]
  · rw [exec_w1lWrite_ref harrives hpriv, State.writeRef, if_pos hcommitted]
  · obtain ⟨hwork, hpasses, hcommitted, hcrc, hresets⟩ := State.scanPassed_reads hs
    obtain ⟨hpasses', hcrc', hmismatch, hstopped, hasked⟩ := State.configMismatch_reads hwork.wfRegs hwork.wfBlocks
    split
    · next hdiff =>
      obtain ⟨-, hne⟩ := Bool.and_eq_true_iff.mp hdiff
      exact ⟨hpasses'.trans hpasses, hcrc'.trans hcrc, fun _ _ => ⟨hmismatch, hstopped, hasked⟩,
        fun heq => absurd heq.symm (bne_iff_ne.mp hne)⟩
    · next hsame =>
      refine ⟨hpasses, hcrc, fun hcom hne => absurd ?_ hsame, fun _ => ⟨hresets, hwork.regs⟩⟩
      rw [hcom, Bool.true_and]
      exact bne_iff_ne.mpr (Ne.symm hne)
  · rw [exec_mboxGo_starts hpriv hidle, if_pos hknown]
  · rw [exec_mboxGo_starts hpriv hidle, if_neg (by simp [hunknown])]
    rfl
  · rw [exec_logRead_plot htake hclean hseq howns, hr]
    rfl
  · subst hc hr
    exact exec_logRead_mailbox h hclean
  · subst hc
    exact exec_harvestRead_reads h hclean hzero hregion hslot hslice

end Sys2Proof.Machine
end

section
/-!
The grant of a vector and the delivery of its result (R18, R66, R84, R87, R92, R97): a grant moves the round-robin, puts one vector into the
pipeline and touches one cell; a result is memory, flags and the cell's own state, followed at most by a hand-over. Settles O7.
-/

namespace Sys2Proof.Machine
open Sys2Proof

/-! ### The hand-over of a scratchpad (R66) -/

/-- `u` comes from `s` by work on cells and on CEL_STATE of cell `c`; what blocks hold in their pipelines stays. -/
structure PadWork (c : Nat) (s u : State) : Prop where
  regs : RegsKept s u [(.CEL_STATE, c)]
  mem : MemSame s u
  pipe : ∀ b, (u.block b).pipe = (s.block b).pipe

theorem PadWork.refl (c : Nat) (s : State) : PadWork c s s := ⟨fun _ _ _ _ => rfl, ⟨rfl, rfl, rfl⟩, fun _ => rfl⟩

section
variable {c : Nat} {s u : State} (h : PadWork c s u)
include h

theorem PadWork.trans {v : State} (h' : PadWork c u v) : PadWork c s v :=
  ⟨fun r i hi hr => (h'.regs r i hi hr).trans (h.regs r i hi hr), h.mem.trans h'.mem, fun b => (h'.pipe b).trans (h.pipe b)⟩

theorem PadWork.setCell (d : Nat) (x : Cell) : PadWork c s (u.setCell d x) := ⟨h.regs, h.mem, h.pipe⟩

theorem PadWork.setFld (hc : c < 512) {f : Fld} (hf : f.reg = .CEL_STATE) (v : Nat) : PadWork c s (u.setFld f c v) where
  regs r i hi hr := by
    have hne : ¬(r = f.reg ∧ i = c) := by rw [hf]; simpa using hr
    exact (u.reg_setFld_other f v (by rw [hf]; exact hc) hi hne).trans (h.regs r i hi hr)
  mem := h.mem
  pipe := h.pipe

theorem PadWork.ite {v : State} (hv : PadWork c s v) {p : Prop} [Decidable p] : PadWork c s (if p then u else v) := by
  split
  · exact h
  · exact hv

theorem PadWork.handOver (hc : c < 512) : PadWork c s (u.handOver c) := by
  have hholder := h.setFld hc (f := Fld.CEL_STATE_HOLDER) rfl (u.nextHolder c)
  exact (h.setCell c _).ite (hholder.ite (hholder.setFld hc rfl csTransfer))

theorem PadWork.finishYield (hc : c < 512) : PadWork c s (u.finishYield c) := (h.handOver hc).ite h

theorem PadWork.retire : PadWork c s (u.retire c) := h.setCell c _

end

/-- Where issue has not stopped there is no hand-over to finish (R66). -/
theorem State.finishYield_of_not_stopping {s : State} {c : Nat} (h : (s.cell c).stopping = false) : s.finishYield c = s :=
  if_neg (by simp [h])

/-- Retirement neither stops issue nor lets it go on. -/
theorem stopping_retireFrom (tile : Nat → Nat) (l : List InFlight) (x : Cell) : (retireFrom tile l x).stopping = x.stopping := by
  induction l generalizing x with
  | nil => rfl
  | cons f fs ih =>
    have hone : (x.retireOne tile f).stopping = x.stopping := by unfold Cell.retireOne; split <;> rfl
    unfold retireFrom
    split
    · rfl
    · rw [ih, hone]

theorem MemSame.readBytes {s u : State} (h : MemSame s u) (a n : Nat) : u.readBytes a n = s.readBytes a n :=
  List.map_congr_left fun i _ => h.byteAt (a + i)

/-! ### A grant (R18, R80, R92) -/

section
variable {s : State} {b : Nat} {x : Block}

/-- A block changed in other things keeps its user tables, and so does every other block. -/
theorem State.user_setBlock (hs : s.canonical = true) (hx : x.user = (s.block b).user) (d : Nat) :
    ((s.setBlock b x).block d).user = (s.block d).user := by
  by_cases hd : d = b
  · subst hd
    rw [State.block_setBlock_same s d x (State.canonical_blocks hs), hx]
  · exact congrArg Block.user (Sparse.get_set_other _ _ _ hd)

/-- A vector computes from the cell, memory, the mode and the user tables; nothing else of a block enters (R85). -/
theorem State.sfnVector_setBlock (hs : s.canonical = true) (hx : x.user = (s.block b).user) (c : Nat) (job : SfnJob) (bad : BadLane) :
    (s.setBlock b x).sfnVector c job bad = s.sfnVector c job bad := by
  simp only [State.sfnVector, State.user_setBlock hs hx]
  rfl

/-- A vector that reads no corrected word enters the pipeline, and the cell's job advances or leaves the grant stage (R85). -/
theorem State.passVector_clean {i : Nat} {job : SfnJob}
    (hsoft : (s.block b).softWords (s.bit Fld.SFU_STATUS_COMPAT b) (sfnWord job.word).func = []) :
    s.passVector b i job none =
      ((s.setBlock b { s.block b with
          pipe := (s.block b).pipe ++
            [⟨i, job.index, ((s.block b).seqNo + 15) % 16, job.granted + 1 == (sfnWord job.word).vectors,
              (s.sfnVector (16 * b + i) job none).1, (s.sfnVector (16 * b + i) job none).2.1, (s.sfnVector (16 * b + i) job none).2.2⟩] }).setCell
        (16 * b + i) { s.cell (16 * b + i) with
          sfn := if job.granted + 1 = (sfnWord job.word).vectors then none else some { job with granted := job.granted + 1 } }) := by
  simp [State.passVector, hsoft]

end

/-- The block after a grant's turn has passed, before the vector enters the pipeline (R18). -/
def Block.turned (x : Block) (turn left zt : Nat) : Block :=
  { x with turn := turn, left := left, zeroTurn := zt, seqNo := (x.seqNo + 1) % 16 }

/-- A grant to a cell with a job that meets no dead word passes its vector (R18, R97). -/
theorem exec_sfnVectorGrant {s : State} {b : BlockIx} {i turn left zt : Nat} {job : SfnJob}
    (hstate : s.fld Fld.SFU_STATUS_STATE b.val = 3) (harb : s.sfuArbiter b.val = some (i, turn, left, zt))
    (hjob : (s.cell (16 * b.val + i)).sfn = some job)
    (hdead : (s.block b.val).deadWord (s.bit Fld.SFU_STATUS_COMPAT b.val) (sfnWord job.word).func = none) :
    exec (.sfnVectorGrant b .clean) s =
      .next ((s.setBlock b.val ((s.block b.val).turned turn left zt)).passVector b.val i job none) := by
  unfold Block.turned
  simp [exec, execSfnVectorGrant, hstate, harb, Block.strike, hjob, hdead]

section
variable {s : State} {c : Nat}

/-- The state in which a cell that is not in reset has been given its vector and its flags, before its own bookkeeping (R84, R93). -/
def State.delivered (s : State) (c : Nat) (v : SfnVec) : State :=
  ((s.setBlock (blockOfCell c) { s.block (blockOfCell c) with pipe := dropVec (c % 16) (s.block (blockOfCell c)).pipe }).deliver c v.payload).addNumFlags
    c v.flags

theorem State.delivered_bytes {v : SfnVec} {d : Nat} {data : List Byte} (hp : v.payload = .bytes d data) : s.delivered c v =
    ((s.setBlock (blockOfCell c) { s.block (blockOfCell c) with pipe := dropVec (c % 16) (s.block (blockOfCell c)).pipe }).writeBytes
      (spadBase c + d) data).addNumFlags c v.flags := by
  rw [State.delivered, hp]; rfl

/-- The cell's own bookkeeping of a delivered vector: row statuses, and the due mark of the instruction after its last vector (R84, R114). -/
def Cell.noteResult (x : Cell) (v : SfnVec) : Cell :=
  let y := v.folds.foldl (fun x f => x.orStatus f.1 f.2) x
  if v.last then { y with inflight := clearIndex v.index y.inflight } else y

theorem Cell.stopping_noteResult (x : Cell) (v : SfnVec) : (x.noteResult v).stopping = x.stopping := by
  have hfold : (v.folds.foldl (fun x f => x.orStatus f.1 f.2) x).stopping = x.stopping :=
    List.foldlRecOn (motive := fun y : Cell => y.stopping = x.stopping) v.folds _ rfl fun _ h _ _ => h
  unfold Cell.noteResult
  split <;> exact hfold

/-- The first vector of a cell that is not in reset is delivered; then the instruction may retire and a hand-over take place (R66, R84). -/
theorem exec_sfnResult {c : CellIx} {v : SfnVec} (hv : (s.block (blockOfCell c.val)).pipe.find? (fun v => v.cell == c.val % 16) = some v)
    (hreset : (s.cell c.val).inReset = false) :
    exec (.sfnResult c) s = .next ((((s.delivered c.val v).setCell c.val (((s.delivered c.val v).cell c.val).noteResult v)).retire
      c.val).finishYield c.val) := by
  simp [exec, execSfnResult, hv, hreset, State.delivered, Cell.noteResult]

end

/-- Settles O7: a grant passes the next vector of the cell whose turn it is; a result stores its bytes and flags, and what follows is the cell's
own bookkeeping and a hand-over. -/
theorem vectorGrantAndResultMoveThroughPipeline : Obligations.VectorGrantAndResultMoveThroughPipeline := by
  intro s hs
  refine ⟨fun b i turn left zt job hstate harb hjob hdead hsoft => ?grant, fun c v d data hv hp hreset => ?result⟩
  case grant =>
    have hblocks := State.canonical_blocks hs
    refine ⟨_, exec_sfnVectorGrant hstate harb hjob hdead, ?_⟩
    have hblock := s.block_setBlock_same b.val ((s.block b.val).turned turn left zt) hblocks
    have hturned : Sparse.wf (fun _ => Block.empty) (s.setBlock b.val ((s.block b.val).turned turn left zt)).blocks = true :=
      Sparse.wf_set _ _ _ _ hblocks
    have hvec := State.sfnVector_setBlock (b := b.val) (x := (s.block b.val).turned turn left zt) hs rfl (16 * b.val + i) job none
    rw [State.passVector_clean (by rw [hblock]; exact hsoft), hblock, hvec]
    simp only [State.block_setCell, State.block_setBlock_same _ _ _ hturned]
    refine ⟨?pipe, ?job, rfl, rfl, rfl, rfl, rfl, rfl, rfl, rfl⟩
    case pipe =>
      have hseq : (((s.block b.val).seqNo + 1) % 16 + 15) % 16 = ((s.block b.val).seqNo + 16) % 16 := by omega
      simp only [Block.turned, hseq]
    case job => exact congrArg Cell.sfn (State.cell_setCell_same _ _ _ (State.canonical_cells hs))
  case result =>
    have hregs := State.canonical_regs hs
    have hbefore := State.canonical_cells hs
    have hmem := State.canonical_mem hs
    have hexec := exec_sfnResult hv hreset
    rw [State.delivered_bytes hp] at hexec
    generalize hu : State.addNumFlags _ c.val v.flags = u at hexec
    have hcells : Sparse.wf (fun _ => Cell.empty) u.cells = true := by rw [← hu]; exact hbefore
    have hbooked := ((PadWork.refl c.val u).setCell c.val ((u.cell c.val).noteResult v)).retire
    have hwork := hbooked.finishYield c.isLt
    have hcell := u.cell_setCell_same c.val ((u.cell c.val).noteResult v) hcells
    refine ⟨_, hexec, ?bytes, ⟨fun a ha => ?byte, fun a => ?host⟩, ?flags, fun r i hi hr => ?regs, fun hstop => ?state, ?pipe⟩
    case bytes =>
      rw [hwork.mem.readBytes, ← hu]
      exact State.readBytes_writeBytes_same _ _ _ hmem
    case byte => rw [hwork.mem.byteAt, ← hu]; exact State.byteAt_writeBytes_outside _ _ _ _ ha
    case host => rw [hwork.mem.hostByte, ← hu]; rfl
    case flags =>
      rw [hwork.regs _ _ c.isLt (by simp), ← hu]
      exact State.reg_setReg_same _ _ _ _ hregs
    case regs =>
      simp only [List.mem_cons, Prod.mk.injEq, not_or, List.not_mem_nil, not_false_eq_true, and_true] at hr
      obtain ⟨hnum, hst⟩ := hr
      rw [hwork.regs r i hi (by simpa using hst), ← hu]
      exact State.reg_setReg_other _ _ c.isLt hi hnum
    case state =>
      have hgo : (((u.setCell c.val ((u.cell c.val).noteResult v)).retire c.val).cell c.val).stopping = false := by
        rw [State.retire, State.cell_setCell_same _ _ _ (Sparse.wf_set _ _ _ _ hcells), stopping_retireFrom, hcell,
          Cell.stopping_noteResult, ← hu]
        exact hstop
      rw [State.finishYield_of_not_stopping hgo, ← hu]
      exact State.reg_setReg_other _ _ c.isLt c.isLt (by simp)
    case pipe =>
      rw [hwork.pipe, ← hu]
      exact congrArg Block.pipe (s.block_setBlock_same _ _ (State.canonical_blocks hs))

end Sys2Proof.Machine
end

section
/-!
The two sides of a scratchpad (R17, R65, R66, R68, R69): issue yields to the requester served next, a transfer moves a tile, and the scratchpad
goes back to issue or to the next requester. Settles O12.
-/

namespace Sys2Proof.Machine
open Sys2Proof

/-! ### The requester served next (R17) -/

theorem Port.holder_ne_zero (p : Port) : p.holder ≠ 0 := by cases p <;> decide

theorem Port.holder_inj {p q : Port} (h : p.holder = q.holder) : p = q := by
  cases p <;> cases q <;> simp_all [Port.holder]

section
variable {x : Cell} {t : Transfer}

/-- The transfer of a port waits at that port. -/
theorem Cell.port_of_portTransfer {p : Port} (h : x.portTransfer p = some t) : t.port = p := by
  have hfound := List.find?_some h
  simp only [Bool.and_eq_true, beq_iff_eq] at hfound
  exact hfound.1

/-- The transfer served next is the one of its own port (R17). -/
theorem Cell.portTransfer_of_nextTransfer (h : x.nextTransfer = some t) : x.portTransfer t.port = some t := by
  have hport : ∃ p, x.portTransfer p = some t := by
    simp only [Cell.nextTransfer, Option.or_eq_some_iff] at h
    rcases h with h | ⟨-, h | ⟨-, h⟩⟩ <;> exact ⟨_, h⟩
  obtain ⟨p, hp⟩ := hport
  rwa [Cell.port_of_portTransfer hp]

/-- The holder that is handed the scratchpad for the transfer served next moves that transfer (R65). -/
theorem Cell.find?_holder_of_nextTransfer (h : x.nextTransfer = some t) :
    x.transfers.find? (fun u => u.port.holder == t.port.holder && x.mayMove u) = some t := by
  rw [← Cell.portTransfer_of_nextTransfer h]
  refine find?_same fun u _ => ?_
  have hiff : u.port.holder = t.port.holder ↔ u.port = t.port := ⟨Port.holder_inj, congrArg Port.holder⟩
  simp only [Bool.beq_eq_decide_eq, hiff]

end

/-! ### Issue yields (R66, R68) -/

section
variable {s : State} {c : Nat}

/-- The codes of the requesters fit their field (R79). -/
theorem State.nextHolder_lt (s : State) (c : Nat) : s.nextHolder c < 2 ^ Fld.CEL_STATE_HOLDER.width := by
  unfold State.nextHolder
  split
  · decide
  · split
    · next t _ => cases t.port <;> decide
    · decide

/-- The scratchpad passes to a requester that waits, and no cell changes (R66). -/
theorem State.handOver_of_waiting (hs : s.canonical = true) (h : s.nextHolder c ≠ 0) :
    (s.handOver c).fld Fld.CEL_STATE_HOLDER c = s.nextHolder c ∧ (s.handOver c).cells = s.cells := by
  have hregs := State.canonical_regs hs
  have hset := s.fld_setFld_same Fld.CEL_STATE_HOLDER c (s.nextHolder c) hregs (by decide)
  rw [Nat.mod_eq_of_lt (s.nextHolder_lt c)] at hset
  unfold State.handOver
  dsimp only
  rw [if_neg h]
  split
  · exact ⟨hset, rfl⟩
  · refine ⟨?_, rfl⟩
    rw [State.fld_setFld_beside _ Fld.CEL_STATE_STATE Fld.CEL_STATE_HOLDER _ _ (s.wf_setFld _ _ _ hregs) rfl (by decide) (by decide), hset]

/-- A special-function instruction that waits for grants loses the rest of its turn (R68). -/
def State.turnLost (s : State) (c : Nat) : State :=
  if (s.cell c).sfn.isSome && (s.block (blockOfCell c)).turn == c % 16
    then s.setBlock (blockOfCell c) { s.block (blockOfCell c) with left := 0 } else s

/-- Issue has stopped for a hand-over, and the scratchpad has not passed yet (R66). -/
def State.issueStopped (s : State) (c : Nat) : State := (s.turnLost c).setCell c ((s.turnLost c).cell c).stopped

theorem State.yieldPad_eq (s : State) (c : Nat) :
    s.yieldPad c = if (s.issueStopped c).grantsLeft c then s.issueStopped c else (s.issueStopped c).handOver c := rfl

theorem State.regs_issueStopped (s : State) (c : Nat) : (s.issueStopped c).regs = s.regs := by
  unfold State.issueStopped State.turnLost
  split <;> rfl

theorem State.cells_turnLost (s : State) (c : Nat) : (s.turnLost c).cells = s.cells := by unfold State.turnLost; split <;> rfl

theorem State.padWork_issueStopped (hs : s.canonical = true) (c : Nat) : PadWork c s (s.issueStopped c) := by
  have hlost : PadWork c s (s.turnLost c) := by
    unfold State.turnLost
    split
    · refine ⟨fun _ _ _ _ => rfl, ⟨rfl, rfl, rfl⟩, fun b => ?_⟩
      by_cases hb : b = blockOfCell c
      · rw [hb, s.block_setBlock_same _ _ (State.canonical_blocks hs)]
      · exact congrArg Block.pipe (Sparse.get_set_other _ _ _ hb)
    · exact .refl c s
  exact hlost.setCell c _

theorem State.cell_issueStopped (hs : s.canonical = true) (c : Nat) : (s.issueStopped c).cell c = (s.cell c).stopped := by
  have hcells := State.cells_turnLost s c
  have hcell : (s.turnLost c).cell c = s.cell c := congrArg (Sparse.get (fun _ => Cell.empty) · c) hcells
  rw [State.issueStopped, State.cell_setCell_same _ _ _ (by rw [hcells]; exact State.canonical_cells hs), hcell]

theorem PadWork.grantsLeft {u : State} (h : PadWork c s u) : u.grantsLeft c = s.grantsLeft c := by
  simp only [State.grantsLeft, h.pipe]

/-- Who is served next does not change as issue stops. -/
theorem State.nextHolder_issueStopped (hs : s.canonical = true) (c : Nat) : (s.issueStopped c).nextHolder c = s.nextHolder c := by
  have hscrub : (s.issueStopped c).scrubUrgent c = s.scrubUrgent c := by
    unfold State.issueStopped State.turnLost
    split <;> rfl
  rw [State.nextHolder, hscrub, State.cell_issueStopped hs]
  rfl

theorem Sound.turnLost {pend : List Instr} (h : Sound pend s) : Sound pend (s.turnLost c) := .ite (.setBlock h) h

/-- The issue side yields to a requester that waits, at once where no granted vector is under way (R66, R68). -/
theorem State.yieldPad_waiting (hs : s.canonical = true) (hc : c < 512) (h : s.nextHolder c ≠ 0) (hheld : s.fld Fld.CEL_STATE_HOLDER c = 0) :
    PadWork c s (s.yieldPad c) ∧ (s.yieldPad c).cell c = (s.cell c).stopped ∧
      (s.yieldPad c).fld Fld.CEL_STATE_HOLDER c = if s.grantsLeft c then 0 else s.nextHolder c := by
  have hwork := State.padWork_issueStopped hs c
  have hcell := State.cell_issueStopped hs c
  have hsound : Sound s.pending (s.issueStopped c) := .setCell (.turnLost ⟨hs, rfl⟩)
  have hnext := State.nextHolder_issueStopped hs c
  rw [State.yieldPad_eq, hwork.grantsLeft]
  split
  · refine ⟨hwork, hcell, ?_⟩
    exact (congrArg (fun m => bitsAt (Sparse.get regReset m _).toNat _ _) (s.regs_issueStopped c)).trans hheld
  · obtain ⟨hfld, hcells⟩ := State.handOver_of_waiting hsound.1 (by rwa [hnext])
    exact ⟨hwork.handOver hc, (congrArg (Sparse.get (fun _ => Cell.empty) · c) hcells).trans hcell, hfld.trans hnext⟩

end

/-! ### A tile moves (R65) -/

section
variable {s u : State} {c : Nat} {x : Transfer}

/-- A tile that brings nothing carries nothing into the scratchpad. -/
theorem takeLoad_nil (n : Nat) : takeLoad n [] = ([], []) := rfl

/-- A tile takes the whole of one piece that fits. -/
theorem takeLoad_fits {n o : Nat} {bs : List Byte} (h : bs.length ≤ n) : takeLoad n [(o, bs)] = ([(o, bs)], []) := by
  simp [takeLoad, h]

/-- The scratchpad after what a tile of a transfer brings has been written (R65). -/
def State.tileWritten (s : State) (c : Nat) (x : Transfer) : State :=
  (takeLoad x.tile x.load).1.foldl (fun s p => s.spadWrite c p.1 p.2) s

theorem State.tileWritten_nil (h : x.load = []) : s.tileWritten c x = s := by rw [State.tileWritten, h]; rfl

theorem State.tileWritten_fits {o : Nat} {bs : List Byte} (h : x.load = [(o, bs)]) (hlen : bs.length ≤ x.tile) :
    s.tileWritten c x = s.writeBytes (spadBase c + o) bs := by
  rw [State.tileWritten, h, takeLoad_fits hlen]; rfl

/-- What a tile brings is bytes only. -/
theorem State.tileWritten_keeps (s : State) (c : Nat) (x : Transfer) :
    (s.tileWritten c x).regs = s.regs ∧ (s.tileWritten c x).cells = s.cells ∧ (s.tileWritten c x).clock = s.clock :=
  List.foldlRecOn (motive := fun u : State => u.regs = s.regs ∧ u.cells = s.cells ∧ u.clock = s.clock) _ _ ⟨rfl, rfl, rfl⟩
    fun _ h _ _ => h

/-- A tile is what it brings, and for a drain what its stream's engine takes (R17, R65). -/
theorem State.carryTile_keeps (s : State) (c : Nat) (x : Transfer) :
    (s.carryTile c x).regs = s.regs ∧ (s.carryTile c x).cells = s.cells ∧ MemSame (s.tileWritten c x) (s.carryTile c x) := by
  obtain ⟨hregs, hcells, -⟩ := s.tileWritten_keeps c x
  unfold State.carryTile
  dsimp only
  split
  · split
    · split
      · exact ⟨hregs, hcells, rfl, rfl, rfl⟩
      · exact ⟨hregs, hcells, rfl, rfl, rfl⟩
    · exact ⟨hregs, hcells, rfl, rfl, rfl⟩
  · exact ⟨hregs, hcells, rfl, rfl, rfl⟩

/-- Back from a transfer's tile, a cell may issue again and starts its count of cycles anew (R66, R69). -/
def Cell.backAt (x : Cell) (now : Nat) : Cell := { x.resumed with held := 0, since := now }

theorem PadWork.handBack (h : PadWork c s u) (hc : c < 512) : PadWork c s (u.handBack c) := by
  have hset (v : Nat) := (h.setCell c ((u.cell c).backAt u.clock)).setFld hc (f := Fld.CEL_STATE_HOLDER) rfl v
  have hstate (v w : Nat) := (hset v).setFld hc (f := Fld.CEL_STATE_STATE) rfl w
  exact .ite (.ite (hset _) (hstate _ _)) (.ite (hstate _ _) (hset _))

theorem State.cells_handBack (s : State) (c : Nat) : (s.handBack c).cells = (s.setCell c ((s.cell c).backAt s.clock)).cells := by
  simp only [State.handBack, Cell.backAt, apply_ite State.cells, State.cells_setFld, ite_self]

theorem State.cell_handBack (hcells : Sparse.wf (fun _ => Cell.empty) s.cells = true) :
    (s.handBack c).cell c = (s.cell c).backAt s.clock := by
  rw [← s.cell_setCell_same c ((s.cell c).backAt s.clock) hcells]
  exact congrArg (Sparse.get (fun _ => Cell.empty) · c) (s.cells_handBack c)

/-- A port that holds the scratchpad moves a tile of its transfer and hands back (R65, R66). -/
theorem State.moveHeld_port (hfld : s.fld Fld.CEL_STATE_HOLDER c = x.port.holder) (hchain : x.port ≠ .chain)
    (hnext : (s.cell c).nextTransfer = some x) :
    s.moveHeld c = ((s.carryTile c x).setCell c { (s.carryTile c x).cell c with
      transfers := moveTile x ((s.carryTile c x).cell c).transfers }).handBack c := by
  have hne4 : x.port.holder ≠ 4 := by cases x.port <;> decide
  have hne1 : x.port.holder ≠ 1 := fun h => hchain (Port.holder_inj h)
  simp only [State.moveHeld, hfld, if_neg hne4, if_neg hne1, Cell.find?_holder_of_nextTransfer hnext]

/-- A tile that a port moves: of cells, the list of transfers and the cycles held change; of registers, CEL_STATE; of memory, what the tile
brings (R17, R65, R66). -/
theorem State.moveHeld_leaves (hs : s.canonical = true) (hc : c < 512) (hfld : s.fld Fld.CEL_STATE_HOLDER c = x.port.holder)
    (hchain : x.port ≠ .chain) (hnext : (s.cell c).nextTransfer = some x) :
    ((s.moveHeld c).cell c).transfers = moveTile x (s.cell c).transfers ∧ ((s.moveHeld c).cell c).held = 0 ∧
      RegsKept s (s.moveHeld c) [(.CEL_STATE, c)] ∧ MemSame (s.tileWritten c x) (s.moveHeld c) := by
  obtain ⟨hregs, hcells, hmem⟩ := s.carryTile_keeps c x
  rw [State.moveHeld_port hfld hchain hnext]
  generalize hu : (s.carryTile c x).setCell c _ = u
  have hwf : Sparse.wf (fun _ => Cell.empty) (s.carryTile c x).cells = true := by rw [hcells]; exact State.canonical_cells hs
  have hwfu : Sparse.wf (fun _ => Cell.empty) u.cells = true := by rw [← hu]; exact State.wf_cells_setCell _ _ _ hwf
  have hmoved : (u.cell c).transfers = moveTile x (s.cell c).transfers := by
    rw [← hu, State.cell_setCell_same _ _ _ hwf]
    exact congrArg (fun m => moveTile x (Sparse.get (fun _ => Cell.empty) m c).transfers) hcells
  have hback := (PadWork.refl c u).handBack hc
  refine ⟨by rw [State.cell_handBack hwfu]; exact hmoved, by rw [State.cell_handBack hwfu]; rfl, fun r i hi hr => ?_, ?_⟩
  · rw [hback.regs r i hi hr, ← hu]
    exact congrArg (Sparse.get regReset · (Reg.key r i)) hregs
  · rw [← hu] at hback ⊢
    exact hmem.trans hback.mem

/-- A port that waits while issue has nothing ready moves its tile (R66). -/
theorem exec_transferTile {c : CellIx} (hheld : s.fld Fld.CEL_STATE_HOLDER c.val = 0) (hready : s.issueReady c.val = false)
    (hwaits : s.nextHolder c.val ≠ 0) (hpass : (s.yieldPad c.val).fld Fld.CEL_STATE_HOLDER c.val ≠ 0) :
    exec (.transferTile c) s = .next ((s.yieldPad c.val).moveHeld c.val) := by
  simp [exec, execTransferTile, hheld, hready, hwaits, hpass]

end

/-- Settles O12: both commands run through the yield of the issue side; a tile is what its transfer brings, and a met quantum leaves memory
alone. -/
theorem scratchpadPassesBetweenIssueAndPorts : Obligations.ScratchpadPassesBetweenIssueAndPorts := by
  intro s c hs hheld
  refine ⟨fun x hnext hurgent hchain hready hgrants => ?tile, fun hwaits hquantum => ?quantum⟩
  case quantum =>
    obtain ⟨hwork, hcell, hfld⟩ := s.yieldPad_waiting hs c.isLt hwaits hheld
    have hexec : exec (.quantumMet c) s = .next (s.yieldPad c.val) := if_neg (by
      rw [not_or, not_or]
      exact ⟨hwaits, not_not.mpr hheld, not_lt.mpr hquantum⟩)
    refine ⟨_, hexec, hfld, ?stops, fun j hj => ?yields, hwork.regs, hwork.mem⟩
    case stops => rw [hcell]; rfl
    case yields => rw [hcell]; exact congrArg (Option.map _) hj
  case tile =>
    have hholder : s.nextHolder c.val = x.port.holder := by simp [State.nextHolder, hurgent, hnext]
    have hwaits : s.nextHolder c.val ≠ 0 := by rw [hholder]; exact x.port.holder_ne_zero
    obtain ⟨hwork, hcell, hfld⟩ := s.yieldPad_waiting hs c.isLt hwaits hheld
    obtain ⟨hyield, -⟩ : Sound s.pending (s.yieldPad c.val) := .yieldPad ⟨hs, rfl⟩
    rw [hgrants, hholder] at hfld
    have hpass : (s.yieldPad c.val).fld Fld.CEL_STATE_HOLDER c.val ≠ 0 := by rw [hfld]; exact x.port.holder_ne_zero
    obtain ⟨htransfers, hcycles, hregs, hmem⟩ := State.moveHeld_leaves hyield c.isLt hfld hchain (by rw [hcell]; exact hnext)
    rw [hcell] at htransfers
    refine ⟨_, exec_transferTile hheld hready hwaits hpass, htransfers, hcycles,
      fun r i hi hr => (hregs r i hi hr).trans (hwork.regs r i hi hr), fun hload => ?nothing, fun o bs hload hlen => ?load⟩
    case nothing =>
      rw [State.tileWritten_nil hload] at hmem
      exact hwork.mem.trans hmem
    case load =>
      rw [State.tileWritten_fits hload hlen] at hmem
      refine ⟨?bytes, fun a ha => ?outside, fun a => ?host⟩
      case bytes => rw [hmem.readBytes]; exact State.readBytes_writeBytes_same _ _ _ (State.canonical_mem hyield)
      case outside => rw [hmem.byteAt, State.byteAt_writeBytes_outside _ _ _ _ ha, hwork.mem.byteAt]
      case host => exact (hmem.hostByte a).trans (hwork.mem.hostByte a)

end Sys2Proof.Machine
end

section
/-!
The tiles of a stream (R229, R233, R235, R237, R239): FLUSH and END close the current one, TRAIL sends its trailers ahead of it, and a landed
one counts for its cells. Settles O15.
-/

namespace Sys2Proof.Machine
open Sys2Proof

section
variable {s : State} {i : StreamIx} {t : Stream} {w : Nat}

/-! ### FLUSH and END -/

theorem exec_flush_closes (hat : s.atWord i.val aopFlush = some (t, w)) :
    exec (.flush i) s = .next ((s.closeTile i.val t).1.nextWord i.val (s.closeTile i.val t).2) := by
  show execFlush i s = _
  simp only [execFlush, hat]

theorem exec_progEnd_closes (hat : s.atWord i.val aopEnd = some (t, w)) :
    exec (.progEnd i) s = .next (if (s.closeTile i.val t).2.tiles.isEmpty
      then (s.closeTile i.val t).1.finishRun i.val { (s.closeTile i.val t).2 with ended := true }
      else (s.closeTile i.val t).1.putStream i.val { (s.closeTile i.val t).2 with ended := true } 2) := by
  show execProgEnd i s = _
  simp only [execProgEnd, hat]
  split <;> rfl

/-! ### TRAIL (R233) -/

/-- The stream's counts after a TRAIL of cell `c`. -/
def Stream.trailed (t : Stream) (c : Nat) : Stream :=
  { t with trailT := t.trailT + 1, trailN := Table.put t.trailN c ((Table.get t.trailN c).getD 0 + 1) }

/-- A TRAIL for a single cell, its entries in the trailer area and its reads clean, passes to the next word and sends the entries (R233). -/
theorem exec_trail_sends (hat : s.atWord i.val aopTrail = some (t, w)) {d c : Nat} {bytes header : List Byte} (hpage : t.page = some d)
    (hcell : t.tileCells t.tile = [c]) (harea : trailOutside t d c = none)
    (hpoison : s.firstPoison (s.trailRead t d).1 (s.trailRead t d).2 = none)
    (hbytes : s.trailBytes t d (if s.isSelf (pdChip d) then s.loadBytes (pdAddr d) 128 else header) = some bytes) :
    exec (.trail i header .clean) s = .next ((s.nextWord i.val (t.trailed c)).trailCell i.val t d bytes c) := by
  show execTrail i header .clean s = _
  simp only [execTrail, hat, hpage, State.checkRead_clean hpoison, hbytes, hcell, List.findSome?_cons, List.findSome?_nil, harea,
    List.foldl_cons, List.foldl_nil, Stream.trailed]

theorem length_trailMask (d : Nat) : (trailMask d).length = 512 := by
  simp only [trailMask, List.length_flatMap, List.length_replicate, List.map_const', List.sum_replicate, List.length_range]
  rfl

/-- The mark of a touched range is the stream's own. -/
theorem State.touch_keeps (u : State) (j k a n : Nat) :
    (u.touch j k a n).regs = u.regs ∧ (u.touch j k a n).cells = u.cells ∧ MemSame u (u.touch j k a n) := by
  unfold State.touch
  split
  · split
    · exact ⟨rfl, rfl, rfl, rfl, rfl⟩
    · exact ⟨rfl, rfl, rfl, rfl, rfl⟩
  · exact ⟨rfl, rfl, rfl, rfl, rfl⟩

/-- The transfer of a tile's trailers to a cell's fill port (R233). -/
def Stream.trailTransfer (t : Stream) (i c : Nat) (bytes : List Byte) : Transfer :=
  ⟨.fill, 512, 512, some i, t.tile, [(t.trailDest + 512 * (Table.get t.trailN c).getD 0, bytes)], []⟩

/-- Where the mask tile of a page goes (R233). -/
def Stream.maskAddr (t : Stream) (c : Nat) : Nat := blockBase (blockOfCell c) + t.maskDest + 512 * (Table.get t.trailN c).getD 0

/-- The state in which a tile's trailers wait at the cell's fill port (R233). -/
def State.trailPosted (s : State) (i : Nat) (t : Stream) (bytes : List Byte) (c : Nat) : State :=
  (s.postTransfer c (t.trailTransfer i c bytes)).touch i t.tile (spadBase c + (t.trailDest + 512 * (Table.get t.trailN c).getD 0)) 512

theorem State.trailCell_plain {d : Nat} (h : pdKind d ≠ 2) (j : Nat) (bytes : List Byte) (c : Nat) :
    s.trailCell j t d bytes c = s.trailPosted j t bytes c := if_neg h

theorem State.trailCell_masked {d : Nat} (h : pdKind d = 2) (j : Nat) (bytes : List Byte) (c : Nat) :
    s.trailCell j t d bytes c =
      ((s.trailPosted j t bytes c).writeBytes (t.maskAddr c) (trailMask d)).touch j t.tile (t.maskAddr c) 512 := if_pos h

theorem State.cell_of_cells {u v : State} (h : u.cells = v.cells) (c : Nat) : u.cell c = v.cell c :=
  congrArg (Sparse.get (fun _ => Cell.empty) · c) h

theorem State.reg_of_regs {u v : State} (h : u.regs = v.regs) (r : Reg) (j : Nat) : u.reg r j = v.reg r j :=
  congrArg (Sparse.get regReset · (Reg.key r j)) h

theorem State.trailPosted_leaves (hs : s.canonical = true) (j c : Nat) (bytes : List Byte) :
    (s.trailPosted j t bytes c).regs = s.regs ∧ MemSame s (s.trailPosted j t bytes c) ∧
      ((s.trailPosted j t bytes c).cell c).transfers = (s.cell c).transfers ++ [t.trailTransfer j c bytes] := by
  obtain ⟨hregs, hcells, hmem⟩ := (s.postTransfer c (t.trailTransfer j c bytes)).touch_keeps j t.tile
    (spadBase c + (t.trailDest + 512 * (Table.get t.trailN c).getD 0)) 512
  have hposted : ((s.postTransfer c (t.trailTransfer j c bytes)).cell c).transfers = (s.cell c).transfers ++ [t.trailTransfer j c bytes] :=
    congrArg Cell.transfers (State.cell_setCell_same s c _ (State.canonical_cells hs))
  exact ⟨hregs, hmem, (congrArg Cell.transfers (State.cell_of_cells hcells c)).trans hposted⟩

/-- A tile's trailers wait at the cell's fill port; registers stay, and memory changes by the mask of a page of KIND 2 (R233). -/
theorem State.trailCell_leaves (hs : s.canonical = true) (j d c : Nat) (bytes : List Byte) :
    (s.trailCell j t d bytes c).regs = s.regs ∧
      ((s.trailCell j t d bytes c).cell c).transfers = (s.cell c).transfers ++ [t.trailTransfer j c bytes] ∧
      (pdKind d ≠ 2 → MemSame s (s.trailCell j t d bytes c)) ∧
      (pdKind d = 2 → MemSame (s.writeBytes (t.maskAddr c) (trailMask d)) (s.trailCell j t d bytes c)) := by
  obtain ⟨hregs, hmem, htransfers⟩ := State.trailPosted_leaves (t := t) hs j c bytes
  by_cases hkind : pdKind d = 2
  · obtain ⟨hregs', hcells, hmem'⟩ :=
      ((s.trailPosted j t bytes c).writeBytes (t.maskAddr c) (trailMask d)).touch_keeps j t.tile (t.maskAddr c) 512
    rw [State.regs_writeBytes] at hregs'
    rw [State.cells_writeBytes] at hcells
    rw [State.trailCell_masked hkind]
    exact ⟨hregs'.trans hregs, (congrArg Cell.transfers (State.cell_of_cells hcells c)).trans htransfers, fun h => absurd hkind h,
      fun _ => (hmem.writeBytes _ _).trans hmem'⟩
  · rw [State.trailCell_plain hkind]
    exact ⟨hregs, htransfers, fun _ => hmem, fun h => absurd h hkind⟩

/-! ### A landed tile (R235, R237) -/

/-- The stream after its oldest tile `x` has left flight. -/
def Stream.landed (t : Stream) (x : OpenTile) (later : List OpenTile) : Stream :=
  { t with
    tiles := later, acked := t.acked + x.bytes
    touched := if t.kind = 1 ∨ t.kind = 3 then t.touched.filter (fun e => e.1 != x.number) else t.touched }

/-- The oldest tile of a stream of one cell has landed whole: its pair gains a count, and the tile leaves flight (R235). -/
theorem exec_tileComplete_lands {x : OpenTile} {later : List OpenTile} {c : Nat} {q : SemPair} (hst : s.stream i.val = some t)
    (htiles : t.tiles = x :: later) (hland : s.tileLanded i.val t x = true) (hkind : t.kind ≠ 4) (hcells : t.cells ≠ 0)
    (hone : x.cells = [c]) (hpair : s.linkPair i.val t c = some q) (hend : t.ended = false) :
    exec (.tileComplete i) s = .next ((s.setCell c { s.cell c with
      pairs := Table.put (s.cell c).pairs t.semPair (t.giveOne q) }).setStream i.val (t.landed x later)) := by
  simp [exec, execTileComplete, hst, htiles, hland, hkind, hcells, hone, State.mapPair, hpair, hend, Stream.landed]

end

section
variable {s : State} {i : StreamIx} {t : Stream}

/-- A mask tile stands at its place, and every other byte as before. -/
theorem MemSame.mask_written {s v u : State} {a d : Nat} (hv : MemSame s v) (hwf : Memory.wf v.mem = true)
    (h : MemSame (v.writeBytes a (trailMask d)) u) : u.readBytes a 512 = trailMask d ∧ MemKept s u a 512 := by
  have hread := State.readBytes_writeBytes_same v a (trailMask d) hwf
  rw [length_trailMask] at hread
  refine ⟨(h.readBytes _ _).trans hread, fun x hx => ?_, fun x => ?_⟩
  · rw [h.byteAt, State.byteAt_writeBytes_outside _ _ _ _ (by rw [length_trailMask]; exact hx), hv.byteAt]
  · rw [h.hostByte, State.hostByte_writeBytes, hv.hostByte]

theorem State.trail_leaves (hs : s.canonical = true) (hst : s.stream i.val = some t) (x : Stream) (d c : Nat) (bytes : List Byte) :
    (((s.nextWord i.val x).trailCell i.val t d bytes c).cell c).transfers = (s.cell c).transfers ++ [t.trailTransfer i.val c bytes] ∧
      (pdKind d ≠ 2 → MemSame s ((s.nextWord i.val x).trailCell i.val t d bytes c)) ∧
      (pdKind d = 2 → ((s.nextWord i.val x).trailCell i.val t d bytes c).readBytes (t.maskAddr c) 512 = trailMask d ∧
        MemKept s ((s.nextWord i.val x).trailCell i.val t d bytes c) (t.maskAddr c) 512) ∧
      RegsKept s ((s.nextWord i.val x).trailCell i.val t d bytes c) [(.STM_STREAM_STATE, i.val)] := by
  obtain ⟨hnext, -⟩ : Sound s.pending (s.nextWord i.val x) := .nextWord ⟨hs, rfl⟩
  have hserves := (Serves.refl hst).nextWord i.isLt x
  have hcell : (s.nextWord i.val x).cell c = s.cell c := by
    rw [State.nextWord, State.putStream, State.cell_setFld, State.cell_setFld, State.cell_setStream]
  obtain ⟨hregs, htransfers, hplain, hmasked⟩ := State.trailCell_leaves (t := t) hnext i.val d c bytes
  rw [hcell] at htransfers
  exact ⟨htransfers, fun hkind => hserves.mem.trans (hplain hkind), fun hkind => hserves.mem.mask_written (State.canonical_mem hnext) (hmasked hkind),
    fun r j hj hr => (State.reg_of_regs hregs r j).trans (hserves.regs r j hj hr)⟩

end

/-- Settles O15: FLUSH and END are the equations of their commands; a TRAIL leaves its transfer and its mask, a landed tile its count. -/
theorem tileInstructionsCloseAndCompleteTiles : Obligations.TileInstructionsCloseAndCompleteTiles := by
  intro s i t w hs
  refine ⟨exec_flush_closes, fun d bytes c header hat hpage hcell harea hlen hpoison hbytes => ?trail, exec_progEnd_closes,
    fun x later c q hst htiles hland hkind hcells hone hpair hend => ?lands⟩
  case trail => exact ⟨_, exec_trail_sends hat hpage hcell harea hpoison hbytes, State.trail_leaves hs (State.atWord_some hat).1 _ d c bytes⟩
  case lands =>
    refine ⟨_, exec_tileComplete_lands hst htiles hland hkind hcells hone hpair hend, Table.get_put_same _ _ _, ?count, rfl, rfl, rfl, rfl⟩
    case count =>
      rw [State.cell_setStream, State.cell_setCell_same _ _ _ (State.canonical_cells hs)]
      exact Table.get_put_same _ _ _

end Sys2Proof.Machine
end

section
/-!
What a cell's own port of its block memory serves (R19): the mask tile of a gated ATS (R112), and the rows of a block merge, each added
over the slices in rank order into slots that no other row uses (R119). Settles O8.
-/

namespace Sys2Proof.Machine
open Sys2Proof

/-! ### Words of a row's slots (R105, R116) -/

/-- The slot of word `e` of a row at slot `i`. -/
def rowSlotOf (i e : Nat) : Nat := if e = 0 then i else i + (e - 1) / 128

/-- The place of word `e` of a row within its slot. -/
def rowPlaceOf (e : Nat) : Nat := if e = 0 then 0 else 1 + (e - 1) % 128

theorem rowPlaceOf_inj {i e e' : Nat} (hslot : rowSlotOf i e = rowSlotOf i e') (hplace : rowPlaceOf e = rowPlaceOf e') : e = e' := by
  unfold rowSlotOf at hslot
  unfold rowPlaceOf at hplace
  split at hplace <;> split at hplace <;> simp_all <;> omega

/-- Word `k` of slot `j`. -/
def Cell.slotWord (x : Cell) (j k : Nat) : Nat := (Table.get (x.slot j).words k).getD 0

theorem Cell.rowWord_eq (x : Cell) (i e : Nat) : x.rowWord i e = bif x.isOpen i then x.slotWord (rowSlotOf i e) (rowPlaceOf e) else 0 := by
  unfold Cell.rowWord Cell.slotWord rowSlotOf rowPlaceOf
  cases x.isOpen i <;> simp
  split <;> rfl

section
variable {x : Cell}

theorem Cell.slot_put_same (x : Cell) (i : Nat) (sl : Slot) : Cell.slot { x with slots := Table.put x.slots i sl } i = sl := by
  simp [Cell.slot, Table.get_put_same]

theorem Cell.slot_put_other (x : Cell) {i j : Nat} (sl : Slot) (h : j ≠ i) :
    Cell.slot { x with slots := Table.put x.slots i sl } j = x.slot j := by
  simp [Cell.slot, Table.get_put_other _ _ h]

theorem Cell.slot_setRowWord_same (x : Cell) (i e v : Nat) : (x.setRowWord i e v).slot (rowSlotOf i e) =
    { x.slot (rowSlotOf i e) with words := Table.put (x.slot (rowSlotOf i e)).words (rowPlaceOf e) v } := Cell.slot_put_same x _ _

/-- A word of a row is written into its own slot. -/
theorem Cell.slot_setRowWord_other {i e j : Nat} (v : Nat) (h : j ≠ rowSlotOf i e) : (x.setRowWord i e v).slot j = x.slot j :=
  Cell.slot_put_other _ _ h

theorem Cell.isOpen_setRowWord (i e v j : Nat) : (x.setRowWord i e v).isOpen j = x.isOpen j := by
  by_cases h : j = rowSlotOf i e
  · subst h
    simp only [Cell.isOpen, Cell.slot_setRowWord_same]
  · simp only [Cell.isOpen, Cell.slot_setRowWord_other v h]

theorem Cell.slotWord_setRowWord_same (i e v : Nat) : (x.setRowWord i e v).slotWord (rowSlotOf i e) (rowPlaceOf e) = v := by
  simp [Cell.slotWord, Cell.slot_setRowWord_same, Table.get_put_same]

theorem Cell.slotWord_setRowWord_other {i e j k : Nat} (v : Nat) (h : ¬(j = rowSlotOf i e ∧ k = rowPlaceOf e)) :
    (x.setRowWord i e v).slotWord j k = x.slotWord j k := by
  by_cases hj : j = rowSlotOf i e
  · subst hj
    have hk : k ≠ rowPlaceOf e := fun hk => h ⟨rfl, hk⟩
    simp [Cell.slotWord, Cell.slot_setRowWord_same, Table.get_put_other _ _ hk]
  · simp only [Cell.slotWord, Cell.slot_setRowWord_other v hj]

/-- A word of an open row reads as it was written, and every other word of the row as before. -/
theorem Cell.rowWord_setRowWord {i : Nat} (hopen : x.isOpen i = true) (e v e' : Nat) :
    (x.setRowWord i e v).rowWord i e' = if e' = e then v else x.rowWord i e' := by
  simp only [Cell.rowWord_eq, Cell.isOpen_setRowWord, hopen, cond_true]
  split
  · next h => rw [h, Cell.slotWord_setRowWord_same]
  · next h => exact Cell.slotWord_setRowWord_other v fun hsame => h (rowPlaceOf_inj hsame.1 hsame.2)

end

/-! ### A row written whole -/

section
variable {α : Type} (f : α → Nat)

/-- The words of a row from word `k` on, written in order. -/
def Cell.setRowFrom (x : Cell) (i k : Nat) (ws : List α) : Cell := (ws.zipIdx k).foldl (fun x p => x.setRowWord i p.2 (f p.1)) x

theorem Cell.setRowFrom_cons (x : Cell) (i k : Nat) (w : α) (ws : List α) :
    x.setRowFrom f i k (w :: ws) = (x.setRowWord i k (f w)).setRowFrom f i (k + 1) ws := rfl

theorem Cell.isOpen_setRowFrom (x : Cell) (i k j : Nat) (ws : List α) : (x.setRowFrom f i k ws).isOpen j = x.isOpen j := by
  induction ws generalizing x k with
  | nil => rfl
  | cons w ws ih => rw [Cell.setRowFrom_cons, ih, Cell.isOpen_setRowWord]

/-- Words before the first one written stay. -/
theorem Cell.rowWord_setRowFrom_below {x : Cell} {i : Nat} (hopen : x.isOpen i = true) {k e : Nat} (h : e < k) (ws : List α) :
    (x.setRowFrom f i k ws).rowWord i e = x.rowWord i e := by
  induction ws generalizing x k with
  | nil => rfl
  | cons w ws ih =>
    rw [Cell.setRowFrom_cons, ih (by rw [Cell.isOpen_setRowWord]; exact hopen) (by omega), Cell.rowWord_setRowWord hopen,
      if_neg (by omega)]

/-- A row that is written whole reads back word by word. -/
theorem Cell.rowWord_setRowFrom {x : Cell} {i : Nat} (hopen : x.isOpen i = true) {ws : List α} {j : Nat} (hj : j < ws.length) (k : Nat) :
    (x.setRowFrom f i k ws).rowWord i (k + j) = f ws[j] := by
  induction ws generalizing x k j with
  | nil => simp at hj
  | cons w ws ih =>
    have hset : (x.setRowWord i k (f w)).isOpen i = true := by rw [Cell.isOpen_setRowWord]; exact hopen
    rw [Cell.setRowFrom_cons]
    cases j with
    | zero => rw [Cell.rowWord_setRowFrom_below f hset (by omega), Cell.rowWord_setRowWord hopen, if_pos (by omega)]; rfl
    | succ j => rw [show k + (j + 1) = k + 1 + j by omega, ih hset (by simpa using hj)]; rfl

/-- A row's words are written into the row's own slots. -/
theorem Cell.slot_setRowFrom_other (x : Cell) {i k j : Nat} {ws : List α} (h : ∀ e, e < k + ws.length → j ≠ rowSlotOf i e) :
    (x.setRowFrom f i k ws).slot j = x.slot j := by
  induction ws generalizing x k with
  | nil => rfl
  | cons w ws ih =>
    simp only [List.length_cons] at h
    rw [Cell.setRowFrom_cons, ih _ fun e he => h e (by omega), Cell.slot_setRowWord_other _ (h k (by omega))]

end

/-! ### One merged row (R119) -/

/-- A row opened anew and written whole, with the status `st` (R105, R119). -/
def Cell.withRow {α : Type} (x : Cell) (f : α → Nat) (d : AttDesc) (i : Nat) (ws : List α) (st : SlotStatus) : Cell :=
  let y := (x.openRow d i).setRowFrom f i 0 ws
  { y with slots := Table.put y.slots i { y.slot i with status := st } }

section
variable {α : Type} {f : α → Nat} {d : AttDesc} {i : Nat} {ws : List α} {st : SlotStatus}

theorem AttDesc.span_eq (d : AttDesc) : d.span = 1 ∨ d.span = 2 := by unfold AttDesc.span; split <;> simp

theorem Cell.slot_openRow_other (x : Cell) {j : Nat} (h : j < i ∨ i + d.span ≤ j) : (x.openRow d i).slot j = x.slot j := by
  have hspan := d.span_eq
  have hi : j ≠ i := by omega
  unfold Cell.openRow
  by_cases htwo : d.span = 2
  · have hi' : j ≠ i + 1 := by omega
    simp [Cell.slot, htwo, Table.get_put_other _ _ hi, Table.get_put_other _ _ hi']
  · simp [Cell.slot, htwo, Table.get_put_other _ _ hi]

theorem Cell.isOpen_openRow (x : Cell) : (x.openRow d i).isOpen i = true := by
  have hi : i ≠ i + 1 := by omega
  unfold Cell.openRow
  by_cases htwo : d.span = 2
  · simp [Cell.isOpen, Cell.slot, htwo, Table.get_put_other _ _ hi, Table.get_put_same]
  · simp [Cell.isOpen, Cell.slot, htwo, Table.get_put_same]

/-- The status of a slot is none of its words. -/
theorem Cell.rowWord_setStatus (x : Cell) (i : Nat) (st : SlotStatus) (j e : Nat) :
    Cell.rowWord { x with slots := Table.put x.slots i { x.slot i with status := st } } j e = x.rowWord j e := by
  have hslot (k : Nat) : (Cell.slot { x with slots := Table.put x.slots i { x.slot i with status := st } } k).words = (x.slot k).words ∧
      (Cell.slot { x with slots := Table.put x.slots i { x.slot i with status := st } } k).desc = (x.slot k).desc := by
    by_cases hk : k = i
    · rw [hk, Cell.slot_put_same]
      exact ⟨rfl, rfl⟩
    · rw [Cell.slot_put_other _ _ hk]
      exact ⟨rfl, rfl⟩
  simp only [Cell.rowWord_eq, Cell.isOpen, Cell.slotWord, hslot]

/-- The words of a row that was written whole. -/
theorem Cell.rowWord_withRow (x : Cell) {e : Nat} (he : e < ws.length) : (x.withRow f d i ws st).rowWord i e = f ws[e] := by
  have hopen : (x.openRow d i).isOpen i = true := x.isOpen_openRow
  have hrow := Cell.rowWord_setRowFrom f hopen he 0
  rw [Nat.zero_add] at hrow
  rw [← hrow]
  exact Cell.rowWord_setStatus _ i st i e

/-- A row is written into its own slots. -/
theorem Cell.slot_withRow_other (x : Cell) (hlen : ws.length ≤ 128 * d.span + 1) {j : Nat} (h : j < i ∨ i + d.span ≤ j) :
    (x.withRow f d i ws st).slot j = x.slot j := by
  have hspan := d.span_eq
  have hown (e : Nat) (he : e < 0 + ws.length) : j ≠ rowSlotOf i e := by
    unfold rowSlotOf
    split <;> omega
  have hi : j ≠ i := by omega
  exact (Cell.slot_put_other _ _ hi).trans ((Cell.slot_setRowFrom_other f _ hown).trans (x.slot_openRow_other h))

/-- A row keeps its words where its own slots stay. -/
theorem Cell.rowWord_congr {x y : Cell} {j e : Nat} (h : ∀ k, k = j ∨ k = rowSlotOf j e → y.slot k = x.slot k) :
    y.rowWord j e = x.rowWord j e := by
  simp only [Cell.rowWord_eq, Cell.isOpen, Cell.slotWord, h j (.inl rfl), h _ (.inr rfl)]

end

/-- The slots of a row of a merge. -/
def Merge.span (m : Merge) : Nat := if m.dim = 256 then 2 else 1

theorem Merge.span_eq (m : Merge) : m.span = 1 ∨ m.span = 2 := by unfold Merge.span; split <;> simp

/-- The word `i` of a merge's row, added over its slices (R119). -/
def mergedWords (s : State) (c : Nat) (m : Merge) (n r : Nat) : List (Nat × NumFlags) :=
  (List.range (m.dim + 1)).map fun e => mergeWord s (blockBase (blockOfCell c) + m.buf) (sliceBytes m.rows m.dim) n (r * (m.dim + 1) + e)

section
variable {c n : Nat} {m : Merge}

/-- A merged row is the row written whole into its owner's cell, and its flags (R119). -/
theorem mergeRow_eq (c : Nat) (m : Merge) (n : Nat) (s : State) (r : Nat) : ∃ d st fl, d.span = m.span ∧
    mergeRow c m n s r = (s.setCell c ((s.cell c).withRow (fun p => (accRound (decodeVal .wx32 p.1)).1) d (m.slot + m.span * r)
      (mergedWords s c m n r) st)).addNumFlags c fl := by
  refine ⟨{ s.attDesc c m.desc with off := m.desc, dimc := if m.dim = 256 then 2 else if m.dim = 128 then 1 else 0 }, _, _, ?_, rfl⟩
  unfold AttDesc.span Merge.span
  by_cases hbig : m.dim = 256
  · simp [hbig]
  · by_cases hmid : m.dim = 128
    · simp [hmid]
    · simp [hbig, hmid]

theorem Cell.next_withRow {α : Type} (x : Cell) (f : α → Nat) (d : AttDesc) (i : Nat) (ws : List α) (st : SlotStatus) :
    (x.withRow f d i ws st).next = x.next :=
  List.foldlRecOn (motive := fun y : Cell => y.next = x.next) _ _ rfl fun _ h _ _ => h

/-- `u` comes from `s` by merging rows into cell `c`: besides the cell, CEL_NUM_STATUS of the cell may have changed. -/
structure RowsWork (c : Nat) (s u : State) : Prop where
  canonical : u.canonical = true
  mem : MemSame s u
  blocks : u.blocks = s.blocks
  regs : RegsKept s u [(.CEL_NUM_STATUS, c)]
  next : (u.cell c).next = (s.cell c).next

theorem RowsWork.refl {s : State} (hs : s.canonical = true) : RowsWork c s s := ⟨hs, ⟨rfl, rfl, rfl⟩, rfl, fun _ _ _ _ => rfl, rfl⟩

theorem RowsWork.mergeRow {s u : State} (h : RowsWork c s u) (hc : c < 512) (r : Nat) : RowsWork c s (mergeRow c m n u r) := by
  obtain ⟨hcanonical, -⟩ : Sound u.pending (Machine.mergeRow c m n u r) := .mergeRow ⟨h.canonical, rfl⟩
  obtain ⟨d, st, fl, -, heq⟩ := mergeRow_eq c m n u r
  rw [heq] at hcanonical ⊢
  refine ⟨hcanonical, h.mem, h.blocks, fun q j hj hq => ?_, ?_⟩
  · have hne : ¬(q = .CEL_NUM_STATUS ∧ j = c) := by simpa using hq
    exact (State.reg_setReg_other _ _ hc hj hne).trans (h.regs q j hj hq)
  · exact (congrArg Cell.next (State.cell_setCell_same u c _ (State.canonical_cells h.canonical))).trans
      ((Cell.next_withRow _ _ _ _ _ _).trans h.next)

theorem mergeWord_of_mem {s u : State} (h : u.mem = s.mem) (base slice n i : Nat) : mergeWord u base slice n i = mergeWord s base slice n i := by
  simp only [mergeWord, State.readLe_of_mem h]

/-- The rows before row `k` of a merge have been merged (R119). -/
def State.rowsMerged (s : State) (c : Nat) (m : Merge) (n k : Nat) : State := (List.range k).foldl (mergeRow c m n) s

theorem State.rowsMerged_succ (s : State) (k : Nat) : s.rowsMerged c m n (k + 1) = mergeRow c m n (s.rowsMerged c m n k) k := by
  simp [State.rowsMerged, List.range_succ]

theorem RowsWork.rowsMerged {s : State} (hs : s.canonical = true) (hc : c < 512) (k : Nat) : RowsWork c s (s.rowsMerged c m n k) := by
  induction k with
  | zero => exact .refl hs
  | succ k ih => rw [State.rowsMerged_succ]; exact ih.mergeRow hc k

/-- Word `e` of row `r` of a merge, added over the slices and rounded (R119). -/
def mergedWord (s : State) (c : Nat) (m : Merge) (n r e : Nat) : Nat :=
  (accRound (decodeVal .wx32 (mergeWord s (blockBase (blockOfCell c) + m.buf) (sliceBytes m.rows m.dim) n (r * (m.dim + 1) + e)).1)).1

/-- A merged row reads as its own words, and a row at other slots as before. -/
theorem rowWord_mergeRow {s u : State} (hu : RowsWork c s u) (hdim : m.dim ≤ 128 * m.span) {r e : Nat} (he : e ≤ m.dim) (k : Nat) :
    ((mergeRow c m n u k).cell c).rowWord (m.slot + m.span * r) e =
      if r = k then mergedWord s c m n k e else (u.cell c).rowWord (m.slot + m.span * r) e := by
  obtain ⟨d, st, fl, hspan, heq⟩ := mergeRow_eq c m n u k
  have hcell : (mergeRow c m n u k).cell c = (u.cell c).withRow (fun p : Nat × NumFlags => (accRound (decodeVal .wx32 p.1)).1) d
      (m.slot + m.span * k) (mergedWords u c m n k) st := by
    rw [heq]
    exact State.cell_setCell_same u c _ (State.canonical_cells hu.canonical)
  have hlen : (mergedWords u c m n k).length = m.dim + 1 := by simp [mergedWords]
  rw [hcell]
  split
  · next hr =>
    subst hr
    rw [Cell.rowWord_withRow _ (by omega)]
    have hword : (mergedWords u c m n r)[e] = mergeWord s (blockBase (blockOfCell c) + m.buf) (sliceBytes m.rows m.dim) n
        (r * (m.dim + 1) + e) := by
      rw [← mergeWord_of_mem hu.mem.1]
      simp [mergedWords]
    rw [hword, mergedWord]
  · next hr =>
    refine Cell.rowWord_congr fun j hj => Cell.slot_withRow_other _ (by omega) ?_
    have hj : j = m.slot + m.span * r ∨ j = m.slot + m.span * r + (e - 1) / 128 := by
      unfold rowSlotOf at hj
      split at hj <;> omega
    rw [hspan]
    rcases m.span_eq with hone | htwo
    · rw [hone] at hj hdim ⊢
      omega
    · rw [htwo] at hj hdim ⊢
      omega

/-- Every row merged so far reads as the slices' words added in rank order and rounded once (R119). -/
theorem rowWord_rowsMerged {s : State} (hs : s.canonical = true) (hc : c < 512) (hdim : m.dim ≤ 128 * m.span) {r e k : Nat} (hr : r < k)
    (he : e ≤ m.dim) : ((s.rowsMerged c m n k).cell c).rowWord (m.slot + m.span * r) e = mergedWord s c m n r e := by
  induction k with
  | zero => omega
  | succ k ih =>
    rw [State.rowsMerged_succ, rowWord_mergeRow (.rowsMerged hs hc k) hdim he]
    split
    · next h => rw [h]
    · next h => exact ih (by omega)

end

/-! ### What the block memory serves a cell's port (R19) -/

section
variable {s : State}

/-- Retirement does not move the next word. -/
theorem next_retireFrom (tile : Nat → Nat) (l : List InFlight) (x : Cell) : (retireFrom tile l x).next = x.next := by
  induction l generalizing x with
  | nil => rfl
  | cons f fs ih =>
    have hone : (x.retireOne tile f).next = x.next := by unfold Cell.retireOne; split <;> rfl
    unfold retireFrom
    split
    · rfl
    · rw [ih, hone]

/-- A cell after the rows of its merge have come: the instruction that waited may retire (R119). -/
def Cell.mergeEnded (x : Cell) : Cell := { x with inflight := clearMerging x.inflight }

/-- The rows of a merge, its end, and retirement of the owner's instructions. -/
theorem State.mergeRows_eq (s : State) (c : Nat) (m : Merge) : s.mergeRows c m =
    (((s.rowsMerged c m (mergeCells m.mset).length m.rows).setBlock (blockOfCell c)
      { (s.rowsMerged c m (mergeCells m.mset).length m.rows).block (blockOfCell c) with
        merges := ((s.rowsMerged c m (mergeCells m.mset).length m.rows).block (blockOfCell c)).merges.filter fun q => decide (q ≠ m) }).setCell c
      ((s.rowsMerged c m (mergeCells m.mset).length m.rows).cell c).mergeEnded).retire c := rfl

/-- What a merge leaves: it has ended, and besides its rows and what retires only the owner's flags have changed (R119). -/
theorem State.mergeRows_leaves (hs : s.canonical = true) {c : Nat} (hc : c < 512) (m : Merge) :
    ((s.mergeRows c m).block (blockOfCell c)).merges = (s.block (blockOfCell c)).merges.filter (fun q => decide (q ≠ m)) ∧
      ((s.mergeRows c m).cell c).next = (s.cell c).next ∧ RegsKept s (s.mergeRows c m) [(.CEL_NUM_STATUS, c)] ∧
      MemSame s (s.mergeRows c m) := by
  have hrows : RowsWork c s (s.rowsMerged c m (mergeCells m.mset).length m.rows) := .rowsMerged hs hc _
  rw [State.mergeRows_eq]
  generalize s.rowsMerged c m (mergeCells m.mset).length m.rows = u at hrows ⊢
  have hblock : (u.block (blockOfCell c)).merges = (s.block (blockOfCell c)).merges :=
    congrArg (fun l => (Sparse.get (fun _ => Block.empty) l (blockOfCell c)).merges) hrows.blocks
  have hcells := State.canonical_cells hrows.canonical
  have hwf (b : Nat) (x : Block) : Sparse.wf (fun _ => Cell.empty) (u.setBlock b x).cells = true := hcells
  refine ⟨?ended, ?next, hrows.regs, hrows.mem⟩
  case ended =>
    rw [State.retire, State.block_setCell, State.block_setCell, State.block_setBlock_same _ _ _ (State.canonical_blocks hrows.canonical),
      hblock]
  case next =>
    rw [State.retire, State.cell_setCell_same _ _ _ (State.wf_cells_setCell _ _ _ (hwf _ _)), next_retireFrom,
      State.cell_setCell_same _ _ _ (hwf _ _)]
    exact hrows.next

theorem exec_maskTileFetch_clean {c : CellIx} {off : Nat} (hmask : s.maskFor c.val = some off) (hturn : s.memTurnOf c.val = true) :
    exec (.maskTileFetch c .clean) s = .next ((s.takeMem (blockOfCell c.val) (c.val % 16)).setBlock (blockOfCell c.val)
      { (s.takeMem (blockOfCell c.val) (c.val % 16)).block (blockOfCell c.val) with
        maskTile := Table.put ((s.takeMem (blockOfCell c.val) (c.val % 16)).block (blockOfCell c.val)).maskTile (c.val % 16)
          (s.readBytes (blockBase (blockOfCell c.val) + off) 512) }) := by
  simp [exec, execMaskTileFetch, hmask, hturn, Ecc.bad, State.takeMem]

theorem exec_blockMerge_clean {c : CellIx} {m : Merge} (hmerge : s.mergeFor c.val = some m) (hturn : s.memTurnOf c.val = true) :
    exec (.blockMerge c .clean) s = .next ((s.takeMem (blockOfCell c.val) (c.val % 16)).mergeRows c.val m) := by
  simp [exec, execBlockMerge, hmerge, hturn, Ecc.bad]

end

/-- Settles O8: the fetch puts the tile into the mask buffer; the merge folds `mergeRow` over its rows, no two of which share a slot. -/
theorem maskTileAndBlockMergeUseBlockMemory : Obligations.MaskTileAndBlockMergeUseBlockMemory := by
  intro s c hs hturn
  have hblocks := State.canonical_blocks hs
  obtain ⟨htaken, -⟩ : Sound s.pending (s.takeMem (blockOfCell c.val) (c.val % 16)) := .takeMem ⟨hs, rfl⟩
  have htake : (s.takeMem (blockOfCell c.val) (c.val % 16)).block (blockOfCell c.val) =
      { s.block (blockOfCell c.val) with memTurn := c.val % 16 } := s.block_setBlock_same _ _ hblocks
  refine ⟨fun off hmask => ⟨_, exec_maskTileFetch_clean hmask hturn, ?fetch⟩, fun m hmerge hdim => ⟨_, exec_blockMerge_clean hmerge hturn, ?merge⟩⟩
  case fetch =>
    beta_reduce
    rw [State.block_setBlock_same _ _ _ (State.canonical_blocks htaken)]
    exact ⟨Table.get_put_same _ _ _, congrArg Block.memTurn htake, fun _ => rfl, rfl, rfl, rfl, rfl⟩
  case merge =>
    obtain ⟨hended, hnext, hregs, hmem⟩ := State.mergeRows_leaves htaken c.isLt m
    have hspan : m.dim ≤ 128 * m.span := by unfold Merge.span; split <;> omega
    rw [htake] at hended
    refine ⟨rfl, hended, fun r e hr he => ?row, hnext, hregs, hmem⟩
    case row => exact rowWord_rowsMerged htaken c.isLt hspan hr he

end Sys2Proof.Machine
end


section
/-!
Resets, replay, watch and clock failures (R22, R23, R400 to R413, R447, R454): a request that stands alone, the reset that it runs, the
tags a reset steps, and what the failures of a chip ask for. Settles O52.
-/

namespace Sys2Proof.Machine
open Sys2Proof

/-! ### The request that runs (R23) -/

/-- The first request enters the queue as it is made. -/
theorem State.requestReset_of_none {s : State} (h : s.resets = []) (level cause index : Nat) :
    s.requestReset level cause index none = { s with resets := [⟨level, cause, index, s.sundial, none, [], s.clock⟩] } := by
  simp [State.requestReset, h]

/-- A domain does not enclose itself. -/
theorem encloses_self (l i : Nat) : encloses l i l i = false := by simp [encloses]

theorem ResetReq.takesIn_self (q : ResetReq) : q.takesIn q = false := by simp [ResetReq.takesIn, encloses_self]

/-- A lone request that no earlier reset takes in stands. -/
theorem State.mergeResets_of_lone {s : State} {q : ResetReq} (hq : s.resets = [q]) (hwait : s.chipWait = none)
    (hreplay : s.replay = none) (hrun : s.resetsRun.any (·.takesIn q) = false) : s.mergeResets = s := by
  have hbusy : s.resetsUnderWay = [] := by simp [State.resetsUnderWay, hwait, hreplay]
  have hkeep : (s.resets.filter fun e => !(([] : List ResetReq).any (·.holds e) || s.resetsRun.any (·.takesIn e))) = s.resets := by
    rw [hq]
    simpa using hrun
  have hinner : (s.resets.filter fun e => (([] : List ResetReq) ++ s.resetsRun).any fun p =>
      (([] : List ResetReq).any (·.holds e) || s.resetsRun.any (·.takesIn e)) &&
        encloses p.level p.index e.level e.index) = [] := by
    rw [hq]
    simp [hrun]
  rw [State.mergeResets, hbusy]
  dsimp only
  rw [hkeep, hinner]
  rfl

/-- A lone request is taken from the queue and noted as run. -/
theorem State.takeReset_of_lone {s : State} {q : ResetReq} (hq : s.resets = [q]) :
    s.takeReset = some (q, { s with
      resets := [], resetsRun := (s.resetsRun.filter fun e => decide (s.clock < e.asked + 1000)) ++ [q] }) := by
  have hlone : outermost [q] 3 q = q := by simp [outermost, encloses_self]
  simp [State.takeReset, hq, hlone, ResetReq.takesIn_self, State.logInner]

theorem exec_domainReset_lone {s u : State} {q : ResetReq} (o : ResetRun) (hq : s.resets = [q]) (hwait : s.chipWait = none)
    (hreplay : s.replay = none) (hrun : s.resetsRun.any (·.takesIn q) = false)
    (hu : u = { s with resets := [], resetsRun := (s.resetsRun.filter fun e => decide (s.clock < e.asked + 1000)) ++ [q] }) :
    exec (.domainReset o) s = .next ((u.resetDown o q).resetRest o q (u.frostGroups q)) := by
  have halone : u.replay = none := hu ▸ hreplay
  show execDomainReset o s = _
  rw [execDomainReset, State.mergeResets_of_lone hq hwait hreplay hrun, State.takeReset_of_lone hq, ← hu]
  simp only [halone, Option.any_none, Bool.false_eq_true, if_false]

/-! ### The tags that a reset steps (R402) -/

theorem State.fld_stepFld_same (s : State) (f : Fld) (i : Nat) (h : Sparse.wf regReset s.regs = true) (hf : f.lo + f.width ≤ 32) :
    (s.stepFld f i).fld f i = (s.fld f i + 1) % 2 ^ f.width := State.fld_setFld_same _ _ _ _ h hf

/-- Steps a field of the instances listed. -/
def State.stepFlds (s : State) (f : Fld) (is : List Nat) : State := is.foldl (fun s i => s.stepFld f i) s

section
variable {s : State} (h : Sparse.wf regReset s.regs = true)
include h

theorem State.wf_stepFlds (f : Fld) (is : List Nat) : Sparse.wf regReset (s.stepFlds f is).regs = true := by
  induction is generalizing s with
  | nil => exact h
  | cons i is ih => exact ih (State.wf_setFld _ _ _ _ h)

/-- Steps of a field over instances that differ step each of these by one and no other. -/
theorem State.fld_stepFlds {f : Fld} (hf : f.lo + f.width ≤ 32) {is : List Nat} (hc : ∀ i ∈ is, i < f.reg.count) (hne : is.Nodup)
    {j : Nat} (hj : j < f.reg.count) :
    (s.stepFlds f is).fld f j = if j ∈ is then (s.fld f j + 1) % 2 ^ f.width else s.fld f j := by
  induction is generalizing s with
  | nil => simp [State.stepFlds]
  | cons i is ih =>
    obtain ⟨hi, hne⟩ := List.nodup_cons.mp hne
    refine (ih (s := s.stepFld f i) (State.wf_setFld _ _ _ _ h) (fun k hk => hc k (List.mem_cons_of_mem _ hk)) hne).trans ?_
    by_cases e : j = i
    · subst e
      simp [hi, s.fld_stepFld_same f j h hf]
    · have hother : (s.stepFld f i).fld f j = s.fld f j := by
        rw [State.stepFld, State.fld, State.reg_setFld_other s f _ (hc i List.mem_cons_self) hj fun h => e h.2, State.fld]
      simp [e, hother]

end

/-- Steps of a field leave the fields of other registers. -/
theorem State.fld_stepFlds_other (s : State) {f g : Fld} {is : List Nat} (hc : ∀ i ∈ is, i < f.reg.count) {j : Nat}
    (hj : j < g.reg.count) (hne : g.reg ≠ f.reg) : (s.stepFlds f is).fld g j = s.fld g j := by
  induction is generalizing s with
  | nil => rfl
  | cons i is ih =>
    refine (ih (s.stepFld f i) (fun k hk => hc k (List.mem_cons_of_mem _ hk))).trans ?_
    rw [State.stepFld, State.fld, State.reg_setFld_other s f _ (hc i List.mem_cons_self) hj fun h => hne h.1, State.fld]

/-- The domains of R402: a cell, a block, a region or the chip. -/
def isDomain (l i : Nat) : Prop := (l = 1 ∧ i < 512) ∨ (l = 2 ∧ i < 32) ∨ (l = 3 ∧ i < 4) ∨ l = 4

theorem domainCells_nodup (l i : Nat) : (domainCells l i).Nodup := by
  have hshift (n k : Nat) : ((List.range n).map (k + ·)).Nodup := List.nodup_range.map fun _ _ h => Nat.add_left_cancel h
  unfold domainCells
  split
  · simp
  · split
    · exact hshift _ _
    · split
      · exact hshift _ _
      · exact List.nodup_range

theorem domainBlocks_nodup (l i : Nat) : (domainBlocks l i).Nodup := by
  unfold domainBlocks
  split
  · simp
  · split
    · exact List.nodup_range.map fun _ _ h => Nat.add_left_cancel h
    · split
      · exact List.nodup_range
      · simp

theorem domainRegions_nodup (l i : Nat) : (domainRegions l i).Nodup := by
  unfold domainRegions
  split
  · simp
  · split
    · exact List.nodup_range
    · simp

section
variable {l i : Nat} (h : isDomain l i)
include h

theorem domainCells_lt : ∀ c ∈ domainCells l i, c < 512 := by
  rcases h with ⟨rfl, hi⟩ | ⟨rfl, hi⟩ | ⟨rfl, hi⟩ | rfl
  · simpa [domainCells] using hi
  · simp [domainCells]; omega
  · simp [domainCells]; omega
  · simp [domainCells]

theorem domainBlocks_lt : ∀ b ∈ domainBlocks l i, b < 32 := by
  rcases h with ⟨rfl, hi⟩ | ⟨rfl, hi⟩ | ⟨rfl, hi⟩ | rfl
  · simp [domainBlocks]
  · simpa [domainBlocks] using hi
  · simp [domainBlocks]; omega
  · simp [domainBlocks]

theorem domainRegions_lt : ∀ r ∈ domainRegions l i, r < 4 := by
  rcases h with ⟨rfl, hi⟩ | ⟨rfl, hi⟩ | ⟨rfl, hi⟩ | rfl
  · simp [domainRegions]
  · simp [domainRegions]
  · simpa [domainRegions] using hi
  · simp [domainRegions]

end

/-- The hub of a domain: the chip has one. -/
def domainHub (l : Nat) : List Nat := if l = 4 then [0] else []

theorem domainHub_zero (l : Nat) : ∀ i ∈ domainHub l, i < 1 := by
  unfold domainHub
  split <;> simp

/-- Every reset steps the tags of its cells, blocks, regions and hub. -/
theorem State.stepTags_eq (s : State) (l i : Nat) : s.stepTags l i =
    (((s.stepFlds Fld.CEL_STATE_GENERATION (domainCells l i)).stepFlds Fld.BLK_GENERATION_TAG (domainBlocks l i)).stepFlds
      Fld.RGN_GENERATION_TAG (domainRegions l i)).stepFlds Fld.HUB_GENERATION_TAG (domainHub l) := by
  unfold State.stepTags domainHub
  dsimp only
  split
  · rfl
  · rfl

/-- Every reset steps the tag of its domain and of the cells in it. -/
theorem State.stepTags_steps {s : State} (hs : s.canonical = true) {l i : Nat} (h : isDomain l i) :
    (s.stepTags l i).fld (tagOf l) (tagIx l i) = (s.fld (tagOf l) (tagIx l i) + 1) % 2 ^ 16 ∧
    ∀ c, c < 512 → (s.stepTags l i).fld Fld.CEL_STATE_GENERATION c =
      (if c ∈ domainCells l i then (s.fld Fld.CEL_STATE_GENERATION c + 1) % 2 ^ 16 else s.fld Fld.CEL_STATE_GENERATION c) := by
  have hregs := State.canonical_regs hs
  have hcells : ∀ c ∈ domainCells l i, c < Fld.CEL_STATE_GENERATION.reg.count := domainCells_lt h
  have hblocks : ∀ b ∈ domainBlocks l i, b < Fld.BLK_GENERATION_TAG.reg.count := domainBlocks_lt h
  have hregions : ∀ r ∈ domainRegions l i, r < Fld.RGN_GENERATION_TAG.reg.count := domainRegions_lt h
  have hhub : ∀ j ∈ domainHub l, j < Fld.HUB_GENERATION_TAG.reg.count := domainHub_zero l
  have hcell : ∀ c, c < 512 → (s.stepTags l i).fld Fld.CEL_STATE_GENERATION c =
      (if c ∈ domainCells l i then (s.fld Fld.CEL_STATE_GENERATION c + 1) % 2 ^ 16 else s.fld Fld.CEL_STATE_GENERATION c) := by
    intro c hc
    rw [State.stepTags_eq, State.fld_stepFlds_other _ hhub hc (by decide), State.fld_stepFlds_other _ hregions hc (by decide),
      State.fld_stepFlds_other _ hblocks hc (by decide), State.fld_stepFlds hregs (by decide) hcells (domainCells_nodup l i) hc]
    rfl
  refine ⟨?_, hcell⟩
  have hafter := State.wf_stepFlds hregs Fld.CEL_STATE_GENERATION (domainCells l i)
  have hafter' := State.wf_stepFlds hafter Fld.BLK_GENERATION_TAG (domainBlocks l i)
  have hafter'' := State.wf_stepFlds hafter' Fld.RGN_GENERATION_TAG (domainRegions l i)
  rcases h with ⟨rfl, hi⟩ | ⟨rfl, hi⟩ | ⟨rfl, hi⟩ | rfl
  · refine (hcell i hi).trans ?_
    rw [if_pos (by simp [domainCells])]
    rfl
  · show (s.stepTags 2 i).fld Fld.BLK_GENERATION_TAG i = (s.fld Fld.BLK_GENERATION_TAG i + 1) % 2 ^ 16
    rw [State.stepTags_eq, State.fld_stepFlds_other _ hhub hi (by decide), State.fld_stepFlds_other _ hregions hi (by decide),
      State.fld_stepFlds hafter (by decide) hblocks (domainBlocks_nodup 2 i) hi, State.fld_stepFlds_other s hcells hi (by decide),
      if_pos (by simp [domainBlocks])]
    rfl
  · show (s.stepTags 3 i).fld Fld.RGN_GENERATION_TAG i = (s.fld Fld.RGN_GENERATION_TAG i + 1) % 2 ^ 16
    rw [State.stepTags_eq, State.fld_stepFlds_other _ hhub hi (by decide),
      State.fld_stepFlds hafter' (by decide) hregions (domainRegions_nodup 3 i) hi, State.fld_stepFlds_other _ hblocks hi (by decide),
      State.fld_stepFlds_other s hcells hi (by decide), if_pos (by simp [domainRegions])]
    rfl
  · show (s.stepTags 4 i).fld Fld.HUB_GENERATION_TAG 0 = (s.fld Fld.HUB_GENERATION_TAG 0 + 1) % 2 ^ 16
    have hzero : 0 < Fld.HUB_GENERATION_TAG.reg.count := by decide
    rw [State.stepTags_eq, State.fld_stepFlds hafter'' (by decide) hhub (List.nodup_singleton 0) hzero,
      State.fld_stepFlds_other _ hregions hzero (by decide), State.fld_stepFlds_other _ hblocks hzero (by decide),
      State.fld_stepFlds_other s hcells hzero (by decide), if_pos (by simp [domainHub])]
    rfl

/-! ### Requests of the host (R401, R412) -/

section
variable {s : State} {a : Agent} (harr : s.arrives a = true) (hpriv : s.privOk a = true)
include harr hpriv

theorem exec_safeReset_cell {v : W32} (hfallow : s.fld Fld.PWR_STATE_STATE 0 ≠ 3)
    (hcause : bitsAt v.toNat 16 8 = 0x0A ∨ bitsAt v.toNat 16 8 = 0x0B) (hlevel : bitsAt v.toNat 29 3 = 1) (hnone : s.resets = []) :
    exec (.safeReset a v) s =
      .next { s with resets := [⟨1, bitsAt v.toNat 16 8, bitsAt v.toNat 0 9, s.sundial, none, [], s.clock⟩] } := by
  have hindex : bitsAt v.toNat 0 9 < 512 := bitsAt_lt _ _ _
  have hgood : ¬(s.fld Fld.PWR_STATE_STATE 0 = 3 ∨ (bitsAt v.toNat 16 8 ≠ 0x0A ∧ bitsAt v.toNat 16 8 ≠ 0x0B) ∨
      512 ≤ bitsAt v.toNat 0 9) := by omega
  show execSafeReset a v s = _
  simp only [execSafeReset, harr, hpriv, State.safeReset, hlevel]
  rw [if_neg (by simp), if_pos trivial, if_neg hgood, State.requestReset_of_none hnone]
  rfl

theorem exec_safeReset_badCause {v : W32} (hexternal : bitsAt v.toNat 16 8 ≠ 0x0A) (hhost : bitsAt v.toNat 16 8 ≠ 0x0B) :
    exec (.safeReset a v) s = .next (s.logIgnored chipPlot 14 (Reg.offset .SAFE_RESET)) := by
  show execSafeReset a v s = _
  simp only [execSafeReset, harr, hpriv, State.safeReset]
  rw [if_neg (by simp), if_pos (.inr (.inl ⟨hexternal, hhost⟩))]

theorem exec_releaseChip_fallow (hstate : s.fld Fld.SAFE_STATUS_STATE 0 = 3) (hnone : s.resets = []) :
    exec (.releaseChip a) s = .next { s with resets := [⟨4, 0x0C, 0, s.sundial, none, [], s.clock⟩] } := by
  show execReleaseChip a s = _
  simp only [execReleaseChip, harr, hpriv, State.releaseChip, hstate, State.requestReset_of_none hnone]
  rfl

theorem exec_releaseRegion_out {r : RegionIx} (hout : (s.fld Fld.SAFE_STATUS_REGION_OOS 0).testBit r.val = true)
    (hnone : s.resets = []) :
    exec (.releaseRegion a r) s = .next { s with resets := [⟨3, 0x0C, r.val, s.sundial, none, [], s.clock⟩] } := by
  show execReleaseRegion a r s = _
  simp only [execReleaseRegion, harr, hpriv, State.releaseRegion, hout, State.requestReset_of_none hnone]
  rfl

end

/-! ### Replay (R409, R410) -/

section
variable {s : State} {x : Replay} {t : Suspect} {rest : List Suspect} (hreplay : s.replay = some x) (hhead : x.suspects = t :: rest)
  (hwait : s.chipWait = none)
include hreplay hhead hwait

theorem exec_replay_inTime {spent : Nat} (hin : spent < s.replayLimit x t) (fault : Option Nat) :
    exec (.replay spent fault) s = .next ((match fault with
      | none => s.verdict 70 t 0
      | some k => s.verdict 71 t k).nextSuspect { x with suspects := rest, spent := x.spent + spent }) := by
  have htime : decide (s.replayLimit x t ≤ spent) = false := decide_eq_false (by omega)
  show execReplay spent fault s = _
  simp only [execReplay, hreplay, hhead, hwait, htime]
  rfl

theorem exec_replayGuilty_service {u : State} {o : ResetRun} {q : ResetReq}
    (hq : q = { x.req with cause := 0x0D, tick := s.sundial, asked := s.clock, ended := [] })
    (hu : u = ((s.verdict 72 t 0).resetDown o q).resetUp o q) (hservice : u.bootState = bsService) :
    exec (.replayGuilty o) s = .next ((u.setFld Fld.SAFE_STATUS_STATE 0 2).nextSuspect
      { x with suspects := rest, spent := x.spent + s.replayLimit x t }) := by
  show execReplayGuilty o s = _
  simp only [execReplayGuilty, hreplay, hhead, hwait, ← hq, ← hu, hservice]
  rfl

end

/-! ### Signs of life and cooling (R400, R413, R447) -/

theorem exec_heartbeat_steps {s : State} (hs : s.canonical = true) (hheld : s.hubHeld = false) (hruns : s.firmwareRuns = true) :
    Completes .heartbeat s fun t =>
      t.heartPin = !s.heartPin ∧
      t.fld Fld.HUB_HEARTBEAT_COUNT 0 = (s.fld Fld.HUB_HEARTBEAT_COUNT 0 + 1) % 2 ^ Fld.HUB_HEARTBEAT_COUNT.width ∧
      RegsKept s t [(.HUB_HEARTBEAT, 0)] ∧ MemSame s t := by
  have hrun : exec .heartbeat s = .next { s.stepFld Fld.HUB_HEARTBEAT_COUNT 0 with heartPin := !s.heartPin } := by
    show execHeartbeat s = _
    simp only [execHeartbeat, hheld, hruns]
    rfl
  have hwork := (UnitWork.refl [(.HUB_HEARTBEAT, 0)] hs).setFld (f := Fld.HUB_HEARTBEAT_COUNT) (i := 0) (by decide) (by decide)
    (s.fld Fld.HUB_HEARTBEAT_COUNT 0 + 1)
  exact ⟨_, hrun, rfl, s.fld_stepFld_same Fld.HUB_HEARTBEAT_COUNT 0 (State.canonical_regs hs) (by decide), hwork.regs, hwork.mem⟩

theorem exec_watchOverdue_forms {s : State} (hs : s.canonical = true) :
    Completes .watchOverdue s fun t =>
      t.reg .HUB_WATCH 0 = BitVec.ofNat 32 s.watchWord ∧ RegsKept s t [(.HUB_WATCH, 0)] ∧ MemSame s t := by
  have hwork := (UnitWork.refl [(.HUB_WATCH, 0)] hs).setReg (r := .HUB_WATCH) (i := 0) (by decide) (by decide)
    (BitVec.ofNat 32 s.watchWord)
  exact ⟨_, rfl, State.reg_setReg_same _ _ _ _ (State.canonical_regs hs), hwork.regs, hwork.mem⟩

/-- A chip that is neither fallow nor cooling is in service once nothing runs. -/
theorem State.settleSafe_calm {s : State} (hfallow : s.isFallow = false) (hcool : s.cooling = false) :
    s.settleSafe = s.setFld Fld.SAFE_STATUS_STATE 0 0 := by
  rw [State.settleSafe, if_neg (by simp [hfallow]), if_neg (by simp [hcool])]

theorem exec_coolingEnd_due {s : State} (hs : s.canonical = true) {n : Nat} (hsince : s.coolSince = some n) (hcool : s.cooling = true)
    (hdue : n + 1000000000 ≤ s.sundial) (hfallow : s.isFallow = false) :
    Completes .coolingEnd s fun t =>
      t.cooling = false ∧ t.fld Fld.SAFE_STATUS_STATE 0 = 0 ∧ RegsKept s t [(.SAFE_STATUS, 0)] ∧ MemSame s t := by
  have hsettled := State.settleSafe_calm (s := { s with cooling := false }) hfallow rfl
  have hrun : exec .coolingEnd s = .next (({ s with cooling := false } : State).setFld Fld.SAFE_STATUS_STATE 0 0) := by
    rw [← hsettled]
    show execCoolingEnd s = _
    unfold execCoolingEnd
    split
    · next m h =>
      obtain rfl : n = m := Option.some.inj (hsince.symm.trans h)
      exact if_pos (by simp [hcool, hdue])
    · next h => exact nomatch hsince.symm.trans h
  have hwork := (UnitWork.refl [(.SAFE_STATUS, 0)] hs).setFld (f := Fld.SAFE_STATUS_STATE) (i := 0) (by decide) (by decide) 0
  exact ⟨_, hrun, rfl, State.fld_setFld_same _ Fld.SAFE_STATUS_STATE 0 0 (State.canonical_regs hs) (by decide), hwork.regs, hwork.mem⟩

/-! ### Failures of the chip (R22, R26, R454) -/

/-- Marks a pair halted. -/
def State.haltPair (s : State) (k : Nat) : State := { s with halted := if s.halted.contains k then s.halted else s.halted ++ [k] }

theorem State.mem_halted_haltPair (s : State) (k : Nat) : k ∈ (s.haltPair k).halted := by
  show k ∈ if s.halted.contains k then s.halted else s.halted ++ [k]
  split
  · next h => exact List.contains_iff_mem.mp h
  · simp

section
variable {s : State} (hseq : s.boot.seqOk = true) (hnone : s.resets = [])
include hseq hnone

theorem exec_lockstepMismatch_mgmt (hperst : s.boot.perst = true) :
    exec (.lockstepMismatch false) s =
      .next { s.haltPair 0 with resets := [⟨4, 0x07, 0, s.sundial, none, [], s.clock⟩] } := by
  have hreq := State.requestReset_of_none (s := s.haltPair 0) hnone 4 0x07 0
  show execLockstepMismatch false s = _
  rw [execLockstepMismatch, if_neg (by simp [hseq, hperst])]
  exact congrArg Host.Outcome.next hreq

theorem exec_lockstepMismatch_service (hperst : s.boot.perst = true) :
    exec (.lockstepMismatch true) s = .next { (s.haltPair 1).setFld Fld.KVM_STATUS_STATE 0 3 with
      resets := [⟨4, 0x07, 0, s.sundial, none, [], s.clock⟩] } := by
  have hreq := State.requestReset_of_none (s := (s.haltPair 1).setFld Fld.KVM_STATUS_STATE 0 3) hnone 4 0x07 0
  show execLockstepMismatch true s = _
  rw [execLockstepMismatch, if_neg (by simp [hseq, hperst])]
  exact congrArg Host.Outcome.next hreq

theorem exec_pllLoss_region (r : RegionIx) (hfallow : s.fld Fld.PWR_STATE_STATE 0 ≠ 3) :
    exec (.pllLoss (.region r)) s = .next { s with resets := [⟨3, 0x06, r.val, s.sundial, none, [], s.clock⟩] } := by
  show execPllLoss (.region r) s = _
  simp only [execPllLoss, hseq, State.requestReset_of_none hnone, if_neg hfallow]
  rfl

theorem exec_pllLoss_region_fallow (r : RegionIx) (hfallow : s.fld Fld.PWR_STATE_STATE 0 = 3) :
    exec (.pllLoss (.region r)) s = .next { s with resets := [⟨4, 0x06, 0, s.sundial, none, [], s.clock⟩] } := by
  show execPllLoss (.region r) s = _
  simp only [execPllLoss, hseq, State.requestReset_of_none hnone, if_pos hfallow]
  rfl

theorem exec_pllLoss_hub :
    exec (.pllLoss .hub) s = .next { s with hubLost := true, resets := [⟨4, 0x06, 0, s.sundial, none, [], s.clock⟩] } := by
  have hreq := State.requestReset_of_none (s := { s with hubLost := true }) hnone 4 0x06 0
  show execPllLoss .hub s = _
  rw [execPllLoss, if_neg (by simp [hseq])]
  exact congrArg Host.Outcome.next hreq

theorem exec_pllLoss_mainRef :
    exec (.pllLoss .mainRef) s = .next { ({ s with hubLost := true, mainLost := true } : State).setFld Fld.SDL_STATUS_STATE 0
      sdHoldover with resets := [⟨4, 0x06, 0, s.sundial, none, [], s.clock⟩] } := by
  have hreq := State.requestReset_of_none
    (s := ({ s with hubLost := true, mainLost := true } : State).setFld Fld.SDL_STATUS_STATE 0 sdHoldover) hnone 4 0x06 0
  show execPllLoss .mainRef s = _
  rw [execPllLoss, if_neg (by simp [hseq])]
  exact congrArg Host.Outcome.next hreq

end

theorem exec_lockstepMismatch_halts {s : State} (hs : s.canonical = true) (hseq : s.boot.seqOk = true) (hperst : s.boot.perst = true)
    (hnone : s.resets = []) :
    Completes (.lockstepMismatch true) s fun t =>
      1 ∈ t.halted ∧ t.resets = [⟨4, 0x07, 0, s.sundial, none, [], s.clock⟩] ∧ t.fld Fld.KVM_STATUS_STATE 0 = 3 ∧
      RegsKept s t [(.KVM_STATUS, 0)] := by
  have hwork := (UnitWork.refl [(.KVM_STATUS, 0)] hs).setFld (f := Fld.KVM_STATUS_STATE) (i := 0) (by decide) (by decide) 3
  exact ⟨_, exec_lockstepMismatch_service hseq hnone hperst, s.mem_halted_haltPair 1, rfl,
    State.fld_setFld_same _ Fld.KVM_STATUS_STATE 0 3 (State.canonical_regs hs) (by decide), hwork.regs⟩

theorem exec_pllLoss_holdover {s : State} (hs : s.canonical = true) (hseq : s.boot.seqOk = true) (hnone : s.resets = []) :
    Completes (.pllLoss .mainRef) s fun t =>
      t.hubLost = true ∧ t.mainLost = true ∧ t.fld Fld.SDL_STATUS_STATE 0 = sdHoldover ∧
      t.resets = [⟨4, 0x06, 0, s.sundial, none, [], s.clock⟩] ∧ RegsKept s t [(.SDL_STATUS, 0)] := by
  have hwork := (UnitWork.refl [(.SDL_STATUS, 0)] hs).setFld (f := Fld.SDL_STATUS_STATE) (i := 0) (by decide) (by decide) sdHoldover
  exact ⟨_, exec_pllLoss_mainRef hseq hnone, rfl, rfl,
    State.fld_setFld_same _ Fld.SDL_STATUS_STATE 0 sdHoldover (State.canonical_regs hs) (by decide), rfl, hwork.regs⟩

/-- The state of the sundial when the main reference is back. -/
def State.sundialAgain (s : State) : Nat := if s.isRoot then sdSync else if s.hasCoord then sdJoining else sdFree

theorem State.sundialAgain_lt (s : State) : s.sundialAgain < 8 := by
  unfold State.sundialAgain
  split
  · decide
  · split
    · decide
    · decide

/-- The sundial steps to its parent again where the main reference was lost. -/
def State.sundialBack (s : State) : State := if s.mainLost then s.setFld Fld.SDL_STATUS_STATE 0 s.sundialAgain else s

theorem State.chipWait_sundialBack (s : State) : s.sundialBack.chipWait = s.chipWait := by
  unfold State.sundialBack
  split
  · rfl
  · rfl

/-- The hub PLL's lock ends both losses; no chip reset waits. -/
theorem exec_pllRelock_idle {s : State} (o : ResetRun) (hhub : s.hubLost = true) (hwait : s.chipWait = none) :
    exec (.pllRelock o) s = .next { s.sundialBack with hubLost := false, mainLost := false } := by
  have hstill := s.chipWait_sundialBack.trans hwait
  show execPllRelock o s = _
  rw [State.sundialBack, State.sundialAgain] at hstill ⊢
  rw [execPllRelock, if_neg (by simp [hhub])]
  dsimp only
  rw [hstill]

/-- The chip reset that waits goes on from the hub PLL's lock. -/
theorem exec_pllRelock_goesOn {s : State} (o : ResetRun) {q : ResetReq} (hhub : s.hubLost = true) (hwait : s.chipWait = some q) :
    exec (.pllRelock o) s = .next (({ s.sundialBack with hubLost := false, mainLost := false } : State).resetRest o q
      ((s.sundialBack.colGroups.filter fun (e : Nat × ColGroup) => decide (1 < e.2.n)).map (·.1))) := by
  have hstill := s.chipWait_sundialBack.trans hwait
  show execPllRelock o s = _
  rw [State.sundialBack, State.sundialAgain] at hstill ⊢
  rw [execPllRelock, if_neg (by simp [hhub])]
  dsimp only
  rw [hstill]

theorem exec_pllRelock_mainRef {s : State} (hs : s.canonical = true) (o : ResetRun) (hhub : s.hubLost = true) (hmain : s.mainLost = true)
    (hwait : s.chipWait = none) :
    Completes (.pllRelock o) s fun t =>
      t.hubLost = false ∧ t.mainLost = false ∧ RegsKept s t [(.SDL_STATUS, 0)] ∧ MemSame s t ∧
      t.fld Fld.SDL_STATUS_STATE 0 = s.sundialAgain := by
  have hback : s.sundialBack = s.setFld Fld.SDL_STATUS_STATE 0 s.sundialAgain := if_pos hmain
  have hrun := exec_pllRelock_idle o hhub hwait
  rw [hback] at hrun
  have hwork := (UnitWork.refl [(.SDL_STATUS, 0)] hs).setFld (f := Fld.SDL_STATUS_STATE) (i := 0) (by decide) (by decide) s.sundialAgain
  exact ⟨_, hrun, rfl, rfl, hwork.regs, hwork.mem,
    (State.fld_setFld_same s Fld.SDL_STATUS_STATE 0 s.sundialAgain (State.canonical_regs hs) (by decide)).trans
      (Nat.mod_eq_of_lt s.sundialAgain_lt)⟩

/-- Without a loss of the main reference the sundial stands. -/
theorem State.sundialBack_of_kept {s : State} (hmain : s.mainLost = false) : s.sundialBack = s := if_neg (by simp [hmain])

/-! ### The obligation -/

/-- Settles O52: each clause is the equation or the effect of one command proved above. -/
theorem resetsRunReplayAndChipFailures : Obligations.ResetsRunReplayAndChipFailures := by
  intro s u o hs
  refine ⟨fun q hq hwait hreplay hrun hu => exec_domainReset_lone o hq hwait hreplay hrun hu, fun l i h => State.stepTags_steps hs h,
    fun a harr hpriv => ⟨fun v hfallow hcause hlevel hnone => exec_safeReset_cell harr hpriv hfallow hcause hlevel hnone,
      fun v hexternal hhost => exec_safeReset_badCause harr hpriv hexternal hhost,
      fun hstate hnone => exec_releaseChip_fallow harr hpriv hstate hnone,
      fun r hout hnone => exec_releaseRegion_out harr hpriv hout hnone⟩,
    fun x t rest spent hreplay hhead hwait => ⟨fun hin => ⟨exec_replay_inTime hreplay hhead hwait hin none,
      fun k => exec_replay_inTime hreplay hhead hwait hin (some k)⟩,
      fun hu hservice => exec_replayGuilty_service hreplay hhead hwait rfl hu hservice⟩,
    fun hheld hruns => exec_heartbeat_steps hs hheld hruns, exec_watchOverdue_forms hs,
    fun n hsince hcool hdue hfallow => exec_coolingEnd_due hs hsince hcool hdue hfallow,
    fun hseq hperst hnone => ⟨⟨_, exec_lockstepMismatch_mgmt hseq hnone hperst, s.mem_halted_haltPair 0, rfl, rfl⟩,
      exec_lockstepMismatch_halts hs hseq hperst hnone, fun r hfallow => exec_pllLoss_region hseq hnone r hfallow,
      fun r hfallow => exec_pllLoss_region_fallow hseq hnone r hfallow, exec_pllLoss_hub hseq hnone, exec_pllLoss_holdover hs hseq hnone⟩,
    fun hhub hmain hwait => exec_pllRelock_mainRef hs o hhub hmain hwait,
    fun hhub hmain => ⟨fun hwait => by
        simpa only [State.sundialBack_of_kept hmain] using exec_pllRelock_idle o hhub hwait,
      fun q hwait => by simpa only [State.sundialBack_of_kept hmain] using exec_pllRelock_goesOn o hhub hwait⟩, rfl, rfl⟩

end Sys2Proof.Machine
end


section
/-!
The exit from deep fallow closes what a port still carries (R346, R353, R456): a command that waits there completes with FAULT, and a
ring that lies in the cold-frame window (R256) has its completion written to host memory. Refutes O56.
-/

namespace Sys2Proof.Machine
open Sys2Proof

/-! ### The sender in deep fallow -/

/-- A plot whose rings, of two entries, lie at the start of the cold-frame window. -/
def coldPlot : Plot := ⟨[], [], [], [], 0, 0, [], [], [], 1, 0, 0, 0, 0x80000000000, 0, 0, 0, 0, [], 0, 0⟩

/-- A peer that may not fail over. -/
def lonePeer : Peer := ⟨false, false, 0, 0, 0, 0, 0, 0, 0, 0, 0, 0⟩

/-- An open connection on port 1 with one datagram of command 0 unacknowledged. -/
def busyConn : Conn :=
  { Conn.closed with state := cnOpen, port := 1, unacked := [⟨0, Msg.to .write 0 0 0, true, 0, 0, 0, some 0, none⟩] }

/-- Command 0 of plot 0, owed. -/
def owedSend : Owed := ⟨0, 0, 0, false, none⟩

/-- A chip in deep fallow, reached over PCIe, with a command still waiting on a connection. -/
def fallowSender : State :=
  { State.reset.setFld Fld.PWR_STATE_STATE 0 3 with
    boot := { Boot.off with seqOk := true, perst := true }, pcieGen := 5
    plots := [(0, coldPlot)], peers := [(0, lonePeer)], conns := [(0, busyConn)], kvmOwed := [owedSend] }

/-- Both memories are blank, and the command waits on its connection. -/
structure Sending (u : State) : Prop where
  mem : u.mem = []
  hostMem : u.hostMem = []
  plots : u.plots = [(0, coldPlot)]
  peers : u.peers = [(0, lonePeer)]
  conns : u.conns = [(0, busyConn)]
  kvmOwed : u.kvmOwed = [owedSend]

theorem fallowSender_sending : Sending fallowSender := ⟨rfl, rfl, rfl, rfl, rfl, rfl⟩

/-! ### The steps of the exit that leave it waiting -/

theorem Sending.ite {u v : State} {p : Prop} [Decidable p] (hu : Sending u) (hv : Sending v) : Sending (if p then u else v) := by
  split
  · exact hu
  · exact hv

theorem Sending.foldl {α : Type} {f : State → α → State} (hf : ∀ u a, Sending u → Sending (f u a)) (l : List α) {u : State}
    (h : Sending u) : Sending (l.foldl f u) :=
  List.foldlRecOn l f h fun v hv a _ => hf v a hv

section
variable {u : State} (h : Sending u)
include h

theorem Sending.setReg (r : Reg) (i : Nat) (v : W32) : Sending (u.setReg r i v) :=
  ⟨h.mem, h.hostMem, h.plots, h.peers, h.conns, h.kvmOwed⟩

theorem Sending.setFld (f : Fld) (i v : Nat) : Sending (u.setFld f i v) := h.setReg _ _ _

theorem Sending.setCell (c : Nat) (x : Cell) : Sending (u.setCell c x) :=
  ⟨h.mem, h.hostMem, h.plots, h.peers, h.conns, h.kvmOwed⟩

theorem Sending.setBlock (b : Nat) (x : Block) : Sending (u.setBlock b x) :=
  ⟨h.mem, h.hostMem, h.plots, h.peers, h.conns, h.kvmOwed⟩

theorem Sending.fresh : Sending u.fresh.2 := ⟨h.mem, h.hostMem, h.plots, h.peers, h.conns, h.kvmOwed⟩

theorem Sending.clearRange (lo len : Nat) : Sending (u.clearRange lo len) :=
  ⟨by simp [State.clearRange, h.mem], h.hostMem, h.plots, h.peers, h.conns, h.kvmOwed⟩

theorem Sending.recordInfo (r : Reg) (i info : Nat) : Sending (u.recordInfo r i info) := (h.setReg _ _ _).ite (h.setReg _ _ _)

theorem Sending.logEvent (plot source cls k detail : Nat) : Sending (u.logEvent plot source cls k detail) := by
  unfold State.logEvent State.logAt
  split
  · exact ⟨h.mem, h.hostMem, h.plots, h.peers, h.conns, h.kvmOwed⟩
  · exact ⟨h.mem, h.hostMem, h.plots, h.peers, h.conns, h.kvmOwed⟩

/-! SRAM is cleared and the cells leave the reset (R266, R456). -/

theorem Sending.clearDomainCell (c : Nat) : Sending (u.clearDomainCell c) :=
  (((h.setCell _ _).clearRange _ _).setFld _ _ _).setFld _ _ _

theorem Sending.clearDomain (l i : Nat) : Sending (u.clearDomain l i) :=
  .foldl (fun _ _ hv => (hv.setBlock _ _).clearRange _ _) _ (.foldl (fun _ c hv => hv.clearDomainCell c) _ h)

theorem Sending.cellsBack (l i : Nat) : Sending (u.cellsBack l i) := .foldl (fun _ _ hv => (hv.setFld _ _ _).ite hv) _ h

/-! The blocks take their plots' modes and tables, and the units are loaded and tested (R99, R100, R456). -/

theorem Sending.dressBlock (p b : Nat) : Sending (u.dressBlock p b) :=
  (((h.setBlock _ _).setFld _ _ _).setFld _ _ _).setFld _ _ _

theorem Sending.dressPlots : Sending u.dressPlots :=
  .foldl (fun _ _ hv => .foldl (fun _ _ hw => hw.dressBlock _ _) _ hv) _ h

theorem Sending.sfuInService (b : Nat) : Sending (u.sfuInService b) :=
  ((((h.setBlock _ _).setFld _ _ _).setFld _ _ _).setFld _ _ _).setFld _ _ _

theorem Sending.blockOut (b : Nat) : Sending (u.blockOut b) :=
  .foldl (fun _ _ hv => hv.setFld _ _ _) _ ((h.setBlock _ _).setFld _ _ _)

theorem Sending.sfuTestOnce (b : Nat) (t : SfuTest) : Sending (u.sfuTestOnce b t).1 := by
  have hbegun := (h.setBlock b { u.block b with pipe := [] }).setReg .SFU_TABLE_CRC b (BitVec.ofNat 32 t.crc)
  unfold State.sfuTestOnce
  dsimp only
  split
  · exact (hbegun.recordInfo _ _ _).setFld _ _ _
  · split
    · exact ((hbegun.setFld _ _ _).recordInfo _ _ _).setFld _ _ _
    · exact (hbegun.setFld _ _ _).sfuInService b

theorem Sending.sfuLoadTest (b : Nat) (t1 t2 : SfuTest) : Sending (u.sfuLoadTest b t1 t2) := by
  have honce := h.sfuTestOnce b t1
  have htwice := honce.sfuTestOnce b t2
  exact honce.ite (htwice.ite (htwice.blockOut b))

theorem Sending.sfuRun (loads : List SfuRun) (b : Nat) : Sending (u.sfuRun loads b) := by
  have hzeroed := (h.setBlock b { u.block b with user := [] }).setFld Fld.SFU_MODE_USER_LOADED b 0
  unfold State.sfuRun
  refine hzeroed.ite ?_
  split
  · exact hzeroed.sfuLoadTest _ _ _
  · exact hzeroed.fresh.sfuLoadTest _ _ _

theorem Sending.reloadDomain (o : ResetRun) (blocks : List Nat) : Sending (u.reloadDomain o blocks) :=
  h.ite (.foldl (fun _ b hv => hv.sfuRun _ b) _ h)

/-! The retrieval engines are tested (R221). -/

theorem Sending.rclStatus : Sending u.rclStatus :=
  .foldl (fun _ _ hv => (hv.setFld _ _ _).ite ((hv.setFld _ _ _).setFld _ _ _)) _ h

theorem Sending.testEngine (o : ResetRun) (r : Nat) : Sending (u.testEngine o r) :=
  h.ite ((h.setFld _ _ _).rclStatus.ite (((h.recordInfo _ _ _).setFld _ _ _).logEvent _ _ _ _ _))

/-! Port 0 has no connection to lose. -/

theorem Sending.conn : u.conn 0 = busyConn := by
  rw [State.conn, h.conns]
  rfl

theorem Sending.losePort_zero : u.losePort 0 = u := by
  simp [State.losePort, h.peers, h.conn, busyConn]

theorem Sending.retrainPort_zero : Sending (u.retrainPort 0) := by
  have hoff (v : Nat) := h.setFld Fld.FLD_STATUS_STATE 0 v
  unfold State.retrainPort
  dsimp only
  rw [(hoff _).losePort_zero]
  exact (hoff _).setFld _ _ _

/-- Port 1 closes its connection, which may not go on over port 0. -/
theorem Sending.losePort_one : u.losePort 1 = u.closeConn 0 false := by
  have hpeer : u.peer 0 = some lonePeer := by
    rw [State.peer, h.peers]
    rfl
  simp [State.losePort, h.peers, h.conn, hpeer, busyConn, lonePeer, cnOpen, cnClosed]

end

/-! ### The completion that the closing writes -/

/-- Bytes put within one segment of the cold-frame window go to the host memory behind it (R256). -/
theorem State.putBytes_cold (s : State) {a j o : Nat} {bs : List Byte} (hplace : placeOf a = .cold j o)
    (hlen : bs.length ≤ unitEnd a - a) : s.putBytes a bs = s.writeHost (s.coldHost j o) bs := by
  have hstore : s.storeBytes a bs = (s.writeHost (s.coldHost j o) bs, none) := by
    rw [State.storeBytes, hplace]
    dsimp only
    rw [State.storeCold, hplace]
    dsimp only
    rw [List.take_of_length_le hlen, if_pos hlen]
  rw [State.putBytes, hstore]

/-- Bytes written to host memory, the first of them not zero, leave it not blank. -/
theorem State.writeHost_ne_nil {s : State} (hhost : Memory.wf s.hostMem = true) (a : Nat) {b : Byte} {bs : List Byte} (hb : b ≠ 0) :
    (s.writeHost a (b :: bs)).hostMem ≠ [] := by
  intro hnil
  have hread := memWrite_inside s.hostMem a (b :: bs) 0 (by simp) hhost
  rw [show memWrite s.hostMem a (b :: bs) = [] from hnil] at hread
  exact hb hread.symm

theorem State.hostMem_logCoded (s : State) (plot source cls k detail : Nat) :
    (s.logCoded plot source cls k detail).hostMem = s.hostMem := by
  unfold State.logCoded State.logAt
  split
  · rfl
  · rfl

/-- Completions of a plot whose rings are cold stand in host memory: CPL_TAIL moves to 1 (R136, R256). -/
theorem State.complete_cold {s : State} (hmem : s.mem = []) (hhost : s.hostMem = []) (hplots : s.plots = [(0, coldPlot)])
    (tag result : Nat) : (s.complete 0 tag stFault result).hostMem ≠ [] := by
  have hplot : s.plot 0 = some coldPlot := by
    rw [State.plot, hplots]
    rfl
  have htail : s.ringIx coldPlot ringCplTail coldPlot.kvmOrder = 0 := by
    simp only [State.ringIx, State.readLe, State.readBytes, State.byteAt, hmem]
    rfl
  have hentry := s.putBytes_cold (a := coldPlot.cplAddr 0) (bs := leBytes 4 tag ++ leBytes 1 stFault ++ leBytes 3 0 ++ leBytes 8 result)
    (j := 0) (o := 192) (by decide) (by simp [leBytes_length]; decide)
  unfold State.complete
  rw [hplot]
  dsimp only
  rw [htail, hentry, if_neg (by decide), State.hostMem_logCoded, State.putLe,
    State.putBytes_cold _ (j := 0) (o := 4) (by decide) (by decide)]
  exact State.writeHost_ne_nil (memWrite_wf _ _ _ (by rw [hhost]; rfl)) _ (by decide)

/-- The one command owed ends with the completion of its status. -/
theorem State.finishOpen_lone {s : State} (howed : s.kvmOwed = [owedSend]) (status : Nat) :
    s.finishOpen 0 status =
      ({ s with free := s.free + 1, kvmOwed := [] } : State).complete 0 0 status (Config.freeValue s.free) := by
  have hfound : s.fresh.2.kvmOwed.find? (fun o => o.id == 0) = some owedSend := by
    rw [show s.fresh.2.kvmOwed = [owedSend] from howed]
    rfl
  have hended : (s.fresh.2.kvmOwed.map fun (x : Owed) => if x.id = 0 then { x with result := some (status, s.fresh.1) } else x) =
      [{ owedSend with result := some (status, s.fresh.1) }] := by
    rw [show s.fresh.2.kvmOwed = [owedSend] from howed]
    rfl
  show s.fresh.2.finish 0 status s.fresh.1 = _
  rw [State.finish, hfound]
  dsimp only
  rw [hended]
  rfl

theorem State.finishOpen_writesHost {s : State} (hmem : s.mem = []) (hhost : s.hostMem = []) (hplots : s.plots = [(0, coldPlot)])
    (howed : s.kvmOwed = [owedSend]) : (s.finishOpen 0 stFault).hostMem ≠ [] := by
  rw [State.finishOpen_lone howed]
  exact State.complete_cold (s := { s with free := s.free + 1, kvmOwed := [] }) hmem hhost hplots 0 _

theorem State.setConn_keeps (s : State) (i : Nat) (c : Conn) : (s.setConn i c).mem = s.mem ∧ (s.setConn i c).hostMem = s.hostMem ∧
    (s.setConn i c).plots = s.plots ∧ (s.setConn i c).kvmOwed = s.kvmOwed := ⟨rfl, rfl, rfl, rfl⟩

section
variable {u : State} (h : Sending u)
include h

theorem Sending.closeConn_writesHost : (u.closeConn 0 false).hostMem ≠ [] := by
  have hcommands : ((u.conn 0).unacked.filterMap (·.command)).eraseDups = [0] := by
    rw [h.conn]
    rfl
  unfold State.closeConn
  dsimp only
  rw [hcommands, List.foldl_cons, List.foldl_nil]
  obtain ⟨hmem, hhost, hplots, howed⟩ := u.setConn_keeps 0
    { Conn.closed with epoch := (u.conn 0).epoch, port := (u.conn 0).port, level := false }
  exact State.finishOpen_writesHost (hmem.trans h.mem) (hhost.trans h.hostMem) (hplots.trans h.plots) (howed.trans h.kvmOwed)

theorem Sending.retrainPort_one : (u.retrainPort 1).hostMem ≠ [] := by
  have hoff (v : Nat) := h.setFld Fld.FLD_STATUS_STATE 1 v
  unfold State.retrainPort
  dsimp only
  rw [(hoff _).losePort_one]
  exact (hoff _).closeConn_writesHost

/-- From deep fallow, an exit writes host memory. -/
theorem Sending.exitFallow (hstate : u.fld Fld.PWR_STATE_STATE 0 = 3) (loads : List SfuRun) (kat : Nat) :
    (u.exitFallow loads kat).hostMem ≠ [] := by
  have hcleared := (((h.setFld Fld.PWR_STATE_STATE 0 1).clearDomain 4 0).cellsBack 4 0).dressPlots
  have htested := Sending.foldl (fun v r hv => hv.testEngine ⟨loads, kat, 0, []⟩ r) (List.range 4)
    (hcleared.reloadDomain ⟨loads, kat, 0, []⟩ (List.range 32))
  rw [State.exitFallow, if_neg (by omega), if_neg (by omega)]
  exact htested.retrainPort_zero.retrainPort_one

end

theorem exec_fallowExit {s : State} {a : Agent} (harr : s.arrives a = true) (hpriv : s.privOk a = true) (loads : List SfuRun) (kat : Nat) :
    exec (.fallowExit a loads kat) s = .next (s.exitFallow loads kat) := by
  show execFallowExit a loads kat s = _
  rw [execFallowExit, if_neg (by simp [harr, hpriv])]

/-! ### The obligation -/

/-- Refutes O56: the exit from deep fallow ends the command of a connection that it closes, and writes the completion to the cold ring,
in host memory. -/
theorem not_powerThermalAndSidebandCommands : ¬ Obligations.PowerThermalAndSidebandCommands := by
  unfold Obligations.PowerThermalAndSidebandCommands
  intro h
  obtain ⟨-, hfallow, -⟩ := h fallowSender (by decide)
  have hstate : fallowSender.fld Fld.PWR_STATE_STATE 0 = 3 := by decide
  have harr : fallowSender.arrives .pf0 = true := by decide
  have hpriv : fallowSender.privOk .pf0 = true := by decide
  obtain ⟨-, -, hexit⟩ := hfallow .pf0 harr hpriv
  obtain ⟨t, hrun, -, hhost⟩ := hexit [] 0 hstate
  have hexec := exec_fallowExit harr hpriv [] 0
  obtain rfl : fallowSender.exitFallow [] 0 = t := Host.Outcome.next.inj (hexec.symm.trans hrun)
  exact fallowSender_sending.exitFallow hstate [] 0 hhost

end Sys2Proof.Machine
end
